-- ==== Sys2Proof/Word.lean ====
section
/-! DEFINITION. The word types of the DN-6480 and the sparse table that holds a bank of like things.
Registers are 32 bits (R17), memories are bytes, engine cells are 64 bits (R70). -/

namespace Sys2Proof

abbrev Byte := BitVec 8
abbrev Half := BitVec 16
abbrev Word := BitVec 32
abbrev Dword := BitVec 64

/-- A bank of like things by number: pairs in strictly rising key order.  An unlisted number holds
the bank's reset value, which the reader of the bank names. -/
structure Tab (α : Type) where
  cells : List (Nat × α) := []
  deriving DecidableEq, Repr

/-- A byte memory: cells in strictly rising address order, none equal to what an unlisted address
reads as. -/
structure Mem where
  cells : List (Nat × BitVec 8) := []
  deriving DecidableEq, Repr

end Sys2Proof
end

