-- ==== Sys2Proof/Data.lean ====
section
/-! DEFINITION. The plain data that commands and state share: requesters, time stamps, records,
samples, slot words, plan entries and the state sync of a pair. -/

namespace Sys2Proof

/-- Who issues a register access (spec/00, spec/01 R21). -/
inductive Requester where
  | safe | a0 | a1 | a2 | a3 | host
  deriving DecidableEq, Repr

/-- An interrupt source (R290, R291): private source `i` of target `t` (A0 to A3, H), or the shared
source with ID 16 + `s`. -/
inductive IcuId where
  | priv (t : Fin 5) (i : Fin 16)
  | shared (s : Fin 256)
  deriving DecidableEq, Repr

/-- Ordering code of the module (spec/00, R1). -/
inductive Variant where
  | p | b
  deriving DecidableEq, Repr

/-- Role read from the straps of X19 (R329). -/
inductive Role where
  | none | a | b | solo
  deriving DecidableEq, Repr

/-- TIME form of R261: CN low part and sub-course offset. -/
structure Stamp where
  cn : Half := 0
  sub : Half := 0
  deriving DecidableEq, Repr

/-- A slot word without its class (R70): the class is the command itself. -/
structure SlotWord where
  p : Byte := 0
  a : Half := 0
  b : Half := 0
  t : Half := 0
  deriving DecidableEq, Repr

/-- One excitation monitor reading (R105, R106): in 0.1 % of P, and the bias in mV of a channel in IEPE mode. -/
structure ExcReading where
  permille : BitVec 12 := 0
  bias : Half := 0
  deriving DecidableEq, Repr

/-- What the tile measured of one output channel over the course window that ends (R128, R136, R138, R139,
R141): readback as binary32 in the output unit, supply, terminal voltage and VREFX in mV, whether the load current
is limited, and the driver temperature in 0.01 °C. -/
structure OutWindow where
  readback : Word := 0
  supply : Nat := 0
  term : Int := 0
  vrefx : Nat := 0
  limited : Bool := false
  temp : Half := 0
  deriving DecidableEq, Repr

/-- One conversion as the tile's decimators deliver it (R97, R98, R202): the 32-bit calibrated decimator words of
both paths (a loop channel uses `high` alone; an output channel has the readback in `low`), the overload flags of
the window and the sub-course offset of the ready instant.  `lead` is the lead-3 drop of 3-wire wiring in mΩ (R94);
`pwrVolt` and `pwrCurrent` are what the source of a loop channel delivers, in 0.1 V and 0.1 mA (R157); `out` is the
window of an output channel. -/
structure Conversion where
  high : Word := 0
  low : Word := 0
  ovlHigh : Bool := false
  ovlLow : Bool := false
  sub : Half := 0
  lead : Nat := 0
  pwrVolt : Half := 0
  pwrCurrent : Half := 0
  /-- tile temperature at the ready instant, 0.01 °C -/
  temp : Half := 0
  out : OutWindow := {}
  deriving DecidableEq, Repr

/-- A sample as the course island's latch and snapshot hold it (R29, R122, R165). -/
structure Sample where
  /-- decimator word of the reporting path, and its counts (R202) -/
  word : Word := 0
  raw : Word := 0
  tag : Byte := 0
  status : Half := 0x4400
  stamp : Stamp := {}
  fresh : Bool := false
  lead : Nat := 0
  /-- the readback of an output channel, binary32 in its unit (R151) -/
  readback : Word := 0
  /-- of the samples that have become ready in the course (R113): least and greatest x, the sum of x² and their number -/
  minimum : Dword := 0
  maximum : Dword := 0
  sumSq : Dword := 0
  count : Nat := 0
  deriving DecidableEq, Repr

/-- An analogue square record (R261). -/
structure ARec where
  value : Word := 0x7FC00000
  raw : Word := 0
  status : Half := 0x4400
  tag : Byte := 0
  gen : Byte := 0
  time : Stamp := {}
  deriving DecidableEq, Repr

/-- A digital square record (R262). -/
structure DRec where
  inp : Bool := false
  cmd : Bool := false
  trip : Bool := false
  gen : Byte := 0
  status : Half := 0x4400
  time : Stamp := {}
  deriving DecidableEq, Repr

/-- An event record on its way to, or in, an event queue (R307).  `seq` is given by the queue. -/
structure EventRec where
  seq : Word := 0
  cn : Word := 0
  ptp : Dword := 0
  cls : Byte := 0
  code : Byte := 0
  source : Half := 0
  data : BitVec 96 := 0
  deriving DecidableEq, Repr

/-- A slot record of an entry (spec/02, entry framing). -/
structure SlotRec where
  engine : Nat := 0
  wi : Nat := 0
  pos : Nat := 0
  words : Nat := 0
  deriving DecidableEq, Repr

/-- A word of an engine's list (R469): its position and district, the entry (type and target) that places it, and the
word. -/
structure ListWord where
  pos : Nat := 0
  district : Nat := 0
  owner : Nat × Nat := (0, 0)
  word : Dword := 0
  deriving DecidableEq, Repr

/-- A running plan entry: framing fields, references, slot records, slot words and the bytes of the
type's tables (spec/02, entry framing; R467). -/
structure Entry where
  ty : Nat := 0
  target : Nat := 0
  district : Nat := 0
  gen : Byte := 0
  cost0 : Nat := 0
  cost1 : Nat := 0
  refs : List (Nat × Nat) := []
  slots : List SlotRec := []
  words : List Dword := []
  body : List Byte := []
  deriving DecidableEq, Repr

/-- STATE of an alarm point (R225). -/
inductive PState where
  | normal | activeUnack | activeAck | clearedUnack | blocked | inhibited | outOfService | fault
  deriving DecidableEq, Repr

/-- The cells of an alarm point (R221 to R226, R242).  Timers hold the CN in which they began. -/
structure Point where
  state : PState := .normal
  cond : Bool := false
  /-- COND before the comparator word of the evaluation in progress (R242; log entry 115) -/
  condWas : Bool := false
  onT : Option Word := none
  offT : Option Word := none
  faultT : Option Word := none
  relT : Option Word := none
  srcBad : Bool := false
  sounding : Bool := false
  count : Half := 0
  time : Stamp := {}
  inhibit : Bool := false
  /-- the last values of a RATE window, newest last, each with whether its source was settling (R216, R218) -/
  window : List (Word × Bool) := []
  rate : Option Dword := none
  logic : Bool := false
  blockIn : Bool := false
  blocking : Bool := false
  /-- became ACTIVE_UNACK in the course in progress (R231) -/
  rose : Bool := false
  deriving DecidableEq, Repr

/-- The cells of a group (R228, R231). -/
structure Group where
  lamp : BitVec 2 := 0
  horn : Bool := false
  anyFault : Bool := false
  anySuppr : Bool := false
  stage : Nat := 0
  fo : Option (Nat × Stamp) := none
  deriving DecidableEq, Repr

/-- A call table: alarm part and watch part, each 0 idle to 3 stage 2, and the course each stage began in
(R234, R236, R238). -/
structure CallTab where
  stage : Nat := 0
  start : Word := 0
  wstage : Nat := 0
  wstart : Word := 0
  xferFail : Bool := false
  deriving DecidableEq, Repr

/-- Phase of the watch (R238). -/
inductive WatchPhase where
  | off | running | prewarn | expired
  deriving DecidableEq, Repr

/-- A make-before-break transfer in progress (R236). -/
structure Xfer where
  table : Nat := 0
  old : Nat := 0
  new : Nat := 0
  start : Word := 0
  failed : Bool := false
  deriving DecidableEq, Repr

/-- The call block's cells: duty, transfers, watch (R233 to R240). -/
structure CallBlk where
  duty : Nat := 0
  selFault : Bool := false
  /-- the engineer the selector shows in the snapshot, applied at the next boundary (R233) -/
  selNew : Option Nat := none
  xfers : List Xfer := []
  tables : Tab CallTab := {}
  phase : WatchPhase := .off
  watchStart : Word := 0
  watchOn : Bool := false
  enableLast : Bool := false
  deriving DecidableEq, Repr

/-- Progress of a district as the state sync carries it (R333). -/
structure DistSync where
  district : Fin 16
  updating : Bool := false
  gen : Byte := 0
  genTo : Byte := 0
  done : Nat := 0
  deriving DecidableEq, Repr

/-- Output part of a state sync for one universal output (R333, R145). -/
structure OutSync where
  uc : Fin 32
  drive : Dword := 0
  target : Dword := 0
  damping : Bool := false
  tau : Nat := 0
  supply : Nat := 0
  deriving DecidableEq, Repr

/-- A state sync of course `cn` of the active unit (R333): the parts of the table of that rule. -/
structure SyncMsg where
  cn : Word := 0
  wi : Nat := 0
  epoch : Half := 0
  faulted : Bool := false
  gateFault : Bool := false
  records : Tab ARec := {}
  dioCmd : Word := 0
  dioDrive : Word := 0
  outs : List OutSync := []
  points : Tab Point := {}
  groups : Tab Group := {}
  call : CallBlk := {}
  districts : List DistSync := []
  transitions : List EventRec := []
  /-- by modem, its turn and the walls left of it (R174) -/
  hartTurns : List (Nat × Nat × Nat) := []
  lamps : List (Nat × Nat) := []
  deriving DecidableEq, Repr

/-- A heartbeat as received on a street (R319). -/
structure Heartbeat where
  serial : Word := 0
  role : Role := .none
  claim : Half := 0
  cn : Word := 0
  phase : Half := 0
  synced : Word := 0
  ready : Bool := false
  fault : Bool := false
  crcOk : Bool := true
  deriving DecidableEq, Repr

/-- A received Ethernet frame (R365 to R369): header fields as the MAC has parsed them and the bytes. -/
structure EthFrame where
  bytes : List Byte := []
  fcsOk : Bool := true
  deriving DecidableEq, Repr

/-- A CAN frame on the bus (R374, R375). -/
structure CanFrame where
  ext : Bool := false
  ident : BitVec 29 := 0
  kind : BitVec 2 := 0
  passive : Bool := false
  dlc : BitVec 4 := 0
  data : List Byte := []
  sub : Half := 0
  deriving DecidableEq, Repr

end Sys2Proof
end

