-- ==== Sys2Proof/Syntax.lean ====
section
/-! DEFINITION. The commands of the block: one constructor per row of spec/opcode_table.json, in the table's order.
Operands carry what comes from outside with the command: the requester and value of an access, the channel an event
concerns, and what a measurement gave. -/

namespace Sys2Proof

/-- A command. -/
inductive Instr where
  /-- COURSE_BOUNDARY (R31): The 50,000-cycle course count expires: CN advances, WI advances and the next course
  begins in every island at its own sight of the boundary. -/
  | courseBoundary (refs trim : Bool)
  /-- SQUARE_PUBLISH (R76): The square publisher writes the header of course N and makes the square newest, at most 5
  µs after B(N+1). -/
  | squarePublish
  /-- END (R67): The END slot word ends the engine's list for this wall index. -/
  | endList (e : Fin 2)
  /-- IDLE (R70): The IDLE slot word waits P cycles. -/
  | idle (e : Fin 2) (w : SlotWord)
  /-- MOVE (R70): The MOVE slot word copies one cell. -/
  | move (e : Fin 2) (w : SlotWord)
  /-- REC (R252): The REC slot word writes one 16-byte square record from cells. -/
  | recWrite (e : Fin 2) (r : Fin 144) (w : SlotWord)
  /-- FETCH (R70): The FETCH slot word copies a channel's snapshot sample, range tag and status into cells; channels as REC
  numbers its records. -/
  | fetch (c : Fin 144) (w : SlotWord)
  /-- FILTER (R471): The FILTER slot word runs one binary64 direct-form I biquad section. -/
  | filter (c : Fin 80) (w : SlotWord)
  /-- LIN (R203): The LIN slot word evaluates one row of the linearisation polynomial by Horner's rule in x. -/
  | lin (c : Fin 80) (w : SlotWord)
  /-- LINSUM (R203): The LINSUM slot word combines polynomial rows by Horner's rule in T. -/
  | linsum (c : Fin 80) (w : SlotWord)
  /-- CHAR (R167): The CHAR slot word applies a square-root or table characteristic. -/
  | char (c : Fin 80) (w : SlotWord)
  /-- CVT (R203): The CVT slot word converts binary64 to binary32 with status merge. -/
  | cvt (c : Fin 80) (w : SlotWord)
  /-- TILECMD_ROTATION (R468): A TILECMD word with P = 0 orders a calibration-rotation turn for a converter and a
  spare. -/
  | tilecmdRotation (t : Fin 10) (w : SlotWord)
  /-- TILECMD_OPEN_TEST (R468): A TILECMD word with P = 1 orders an open test of a channel during its next conversion.
  -/
  | tilecmdOpenTest (c : Fin 32) (w : SlotWord)
  /-- HART (R174): The HART slot word advances a modem's turn cycle and couples the modem for the next time slot. -/
  | hart (m : Fin 8) (w : SlotWord)
  /-- CMP (R217): The CMP slot word sets or clears a point's COND with hysteresis. -/
  | cmp (p : Fin 2048) (w : SlotWord)
  /-- RATE (R218): The RATE slot word computes the rate of change over the point's window. -/
  | rate (p : Fin 2048) (w : SlotWord)
  /-- DELAY (R226): The DELAY slot word runs a point's suppression, timers and state transitions. -/
  | delay (p : Fin 2048) (w : SlotWord)
  /-- ON_DELAY_CONFIRMED (R221): The on-delay expires with COND true and the condition is confirmed. -/
  | onDelayConfirmed (p : Fin 2048)
  /-- OFF_DELAY_CONFIRMED (R221): The off-delay expires with COND false and the clearing is confirmed. -/
  | offDelayConfirmed (p : Fin 2048)
  /-- FAULT_DELAY_CONFIRMED (R222): The fault delay expires with the source bad, setting SRC_BAD. -/
  | faultDelayConfirmed (p : Fin 2048)
  /-- RELEASE_DELAY_END (R223): The release delay expires with the block input false, and blocking ends. -/
  | releaseDelayEnd (p : Fin 2048)
  /-- LOGIC (R219): The LOGIC slot word combines up to 8 operands by AND, OR or AT_LEAST_K. -/
  | logic (p : Fin 2048) (w : SlotWord)
  /-- GROUP (R228): The GROUP slot word sets a group's state word, lamp, horn and flash phase. -/
  | group (g : Fin 256) (w : SlotWord)
  /-- CALL (R234): The CALL slot word runs a call table's stage, call outputs and duty transfer. -/
  | call (t : Fin 17) (w : SlotWord)
  /-- CALL_STAGE1 (R234): T1 expires in stage 0 and the table enters stage 1, calling the duty engineer. -/
  | callStage1 (t : Fin 16)
  /-- CALL_STAGE2 (R234): T2 expires in stage 1 and the table enters stage 2, calling all engineers. -/
  | callStage2 (t : Fin 16)
  /-- CALL_XFER_FAIL (R236): 40 courses pass without readback of the new duty cabin, so both outputs stay demanded and
  XFER_FAIL is set. -/
  | callXferFail (t : Fin 16)
  /-- WATCH_PREWARN (R238): TW − TPRE passes in RUNNING and the watch enters PREWARN. -/
  | watchPrewarn
  /-- WATCH_EXPIRED (R238): TW passes and the watch enters EXPIRED, raising watch stage 1. -/
  | watchExpired
  /-- WATCH_STAGE2 (R238): The watch table's T2 passes in EXPIRED and all engineers are called. -/
  | watchStage2
  /-- OUT (R274): The OUT slot word writes a DIO or UC command into its output latch. -/
  | out (n : Fin 64) (w : SlotWord)
  /-- COURSE_OVERRUN (R73): At cycle 49,600 an engine has not executed END, and the course is faulted. -/
  | courseOverrun
  /-- COURSE_FAULT (R74): A slot-memory ECC or ORDER fault stops both engines, discards outputs, suppresses the square
  and notifies safety. -/
  | courseFault (e : Fin 2) (kind : Fin 3)
  /-- FORCE_SET (R358): The count of consecutive faulted courses reaches 8 with gates enabled, so FORCED trips every
  safety output. -/
  | forceSet
  /-- SAMPLE_READY (R95): A tile decimator delivers a sample with its time stamp, which is sent on the trip channel
  and into the course island's latch. -/
  | sampleReady (c : Fin 80) (m : Conversion)
  /-- LANE_STALE (R81): A lane receives no sample for STALE µs, becomes STALE and applies its INVALID policy. -/
  | laneStale (n : Fin 64)
  /-- LANE_FAULT (R359): A lane's two comparators disagree, so the lane is permanently tripped and an active unit
  yields. -/
  | laneFault (n : Fin 64)
  /-- CJ_SAMPLE (R112): The cold-junction sensors are sampled and the tile's CJ state is judged. -/
  | cjSample (t : Fin 4) (cja cjb : Half) (failA failB : Bool)
  /-- EXC_MONITOR_READING (R105): The excitation monitor takes its 50 µs reading. -/
  | excMonitorReading (n : Fin 32) (reading : ExcReading)
  /-- IEPE_SHORT_SET (R106): The IEPE bias stays below 1.0 V for 1 ms and SHORT is set. -/
  | iepeShortSet (n : Fin 32) (bias : Half)
  /-- IEPE_SHORT_CLEAR (R106): The IEPE bias stays above 2.0 V for 1 ms and SHORT clears. -/
  | iepeShortClear (n : Fin 32) (bias : Half)
  /-- GRD_LIMIT (R90): The guard buffer enters or leaves current limiting. -/
  | grdLimit (n : Fin 32) (limiting : Bool)
  /-- OUTPUT_THERM_SET (R141): A UC output driver reaches 135 °C and folds back to THERM's level. -/
  | outputThermSet (n : Fin 32) (temp : Half)
  /-- OUTPUT_THERM_CLEAR (R141): The UC driver has stayed below 115 °C for 1 s and THERM clears. -/
  | outputThermClear (n : Fin 32) (temp : Half)
  /-- LOOP_PWR_SHORT (R157): Loop power has been in current limit for 1 ms, so it switches off and PWR_SHORT is set. -/
  | loopPwrShort (n : Fin 48) (current : Half)
  /-- LOOP_PWR_TRIAL (R157): 1 s after shut-off, loop power is switched on for a 10 ms trial. -/
  | loopPwrTrial (n : Fin 48)
  /-- LOOP_PWR_TRIAL_END (R157): The 10 ms trial ends, which clears PWR_SHORT or repeats the cycle. -/
  | loopPwrTrialEnd (n : Fin 48) (limited : Bool)
  /-- BURDEN_PROT (R158): The burden current exceeds 30 mA for 100 µs, so the burden opens and BURDEN_PROT is set. -/
  | burdenProt (n : Fin 48) (current : Half)
  /-- BURDEN_TRIAL (R158): 1 s later, the burden is closed for a 10 ms trial. -/
  | burdenTrial (n : Fin 48)
  /-- BURDEN_TRIAL_END (R158): The burden trial ends, which clears BURDEN_PROT or repeats the cycle. -/
  | burdenTrialEnd (n : Fin 48) (calm : Bool)
  /-- HART_TRANSACTION_START (R176): A coupled modem starts the next queued transaction and sends the preamble,
  request and checksum. -/
  | hartTransactionStart (m : Fin 8)
  /-- HART_RT1_EXPIRY (R171): No response carrier arrives within RT1, and the try fails. -/
  | hartRt1Expiry (m : Fin 8)
  /-- HART_RETRY (R171): RT2 after a failed try, the modem tries again. -/
  | hartRetry (m : Fin 8)
  /-- HART_RESPONSE (R171): A response frame is received and checked for parity, framing and checksum. -/
  | hartResponse (m : Fin 8) (lead chars : List (BitVec 11))
  /-- HART_FOREIGN_FRAME (R172): A frame outside the modem's own transaction is discarded and counted, and requests
  are deferred. -/
  | hartForeignFrame (m : Fin 8)
  /-- SUBMIT (R188): A HART descriptor is queued, or ends with NO_TURN. -/
  | submit (req : Requester) (arg : BitVec 24)
  /-- HART_CANCEL (R188): A queued HART descriptor ends CANCELLED. -/
  | hartCancel (req : Requester) (arg : BitVec 24)
  /-- RELEASE (R188): A DONE HART descriptor becomes FREE. -/
  | release (req : Requester) (arg : BitVec 24)
  /-- HART_DESC_WRITE (R188): A write to a HART descriptor's CTL, REQ or RSP is taken only while the descriptor is
  FREE. -/
  | hartDescWrite (b : Fin 16) (reg : Fin 3) (value : Word)
  /-- TRANSFER_COMPARISON (R195): At the end of each wall, each tile's transfer standard is compared with the central
  standards and new assigned values are taken. -/
  | transferComparison (t : Fin 10) (value : Int)
  /-- REF_CROSSCHECK (R196): At the end of each wall, REFA is measured against 2 × REFB and REF_DISAGREE is set or
  cleared. -/
  | refCrosscheck (ratio : Int)
  /-- ROTATION_STEP_END (R198): A rotation turn's calibration or parallel step ends, leading to handover or handback. -/
  | rotationStepEnd (t : Fin 10) (key : Fin 18) (gain offset : Int)
  /-- CAL_OVERDUE (R200): A path's or spare's calibration age exceeds 64 walls and it becomes overdue. -/
  | calOverdue (t : Fin 10) (c : Fin 18)
  /-- WARMUP_DONE (R194): 20 min pass since the later of PD0 and the tile domain coming up, and WARMUP clears. -/
  | warmupDone (t : Fin 10)
  /-- CAL_AGED (R190): 365 days pass since the last COMMIT, and CAL_AGED is set. -/
  | calAged (days : Half)
  /-- SESSION_OPEN (R208): A field calibration session is opened on a universal channel. -/
  | sessionOpen (req : Requester) (arg : BitVec 24)
  /-- MEASURE (R209): A 60 s measurement of one calibration point starts. -/
  | measure (req : Requester) (arg : BitVec 24)
  /-- MEASURE_DONE (R209): The 60 s measurement ends with the point's deviation, or with HW_FAULT. -/
  | measureDone (ok : Bool) (dev : BitVec 24)
  /-- COMMIT (R210): The three deviations set new assigned values and the baseline, and the session closes. -/
  | commit (req : Requester) (arg : BitVec 24)
  /-- COMMIT_DONE (R210): COMMIT finishes within 10 ms and raises COMMIT_DONE. -/
  | commitDone (day : Half)
  /-- SESSION_CLOSE (R208): The calibration session is closed and its measurements are discarded. -/
  | sessionClose (req : Requester) (arg : BitVec 24)
  /-- LOAD_PLAN (R46): The node starts verifying an image to load it in place of the whole plan. -/
  | loadPlan (req : Requester) (arg : BitVec 24)
  /-- LOAD_PLAN_DONE (R46): Verification ends; the image becomes boot image and the new plan starts at the next
  boundary. -/
  | loadPlanDone
  /-- STOP_PLAN (R46): The running plan ends at the next boundary. -/
  | stopPlan (req : Requester) (arg : BitVec 24)
  /-- UPDATE_DISTRICT (R52): The node starts verifying a source image for an update of an ordinary district. -/
  | updateDistrict (req : Requester) (arg : BitVec 24)
  /-- UPDATE_VERIFY_DONE (R54): Update verification ends: DENIED, or the district goes UPDATING with its step total. -/
  | updateVerifyDone (safety peer : Bool)
  /-- ABORT_UPDATE (R60): An update is stopped before its next step and the district becomes MIXED. -/
  | abortUpdate (req : Requester) (arg : BitVec 24)
  /-- VERIFY (R65): The node starts an image-level verification of an image. -/
  | verify (req : Requester) (arg : BitVec 24)
  /-- VERIFY_DONE (R65): Verification ends with a load code in PLAN_LSTAT. -/
  | verifyDone
  /-- ERASE (R41): A background NOR erase of blocks starts. -/
  | erase (req : Requester) (arg : BitVec 24)
  /-- PROGRAM (R41): A background NOR program from SRAM or DRAM starts. -/
  | program (req : Requester) (arg : BitVec 24)
  /-- NOR_DONE (R41): An erase or program ends, setting PLAN_NOR.LAST and raising NOR_DONE. -/
  | norDone (ok : Bool)
  /-- PLAN_ARCHIVE (R394): The source image of a load or completed update is copied into the plan archive. -/
  | planArchive
  /-- CLEAR_PEAK (R87): COURSE_PEAK is set to 0 at the next boundary. -/
  | clearPeak (req : Requester) (arg : BitVec 24)
  /-- CHANNEL_MAINT (R125): A channel enters or leaves maintenance at the next boundary. -/
  | channelMaint (req : Requester) (p : Fin 12) (arg : BitVec 24)
  /-- OPEN_TEST (R125): An open test is ordered on a voltage or thermocouple channel. -/
  | openTest (req : Requester) (t : Fin 4) (arg : BitVec 24)
  /-- OPEN_TEST_DONE (R125): The conversion that holds the test ends and the loop resistance is reported, or the test
  ends ABORTED. -/
  | openTestDone (n : Fin 32) (ohms : Nat)
  /-- TILE_RESTART (R435): A tile's digital logic is reset at the next boundary while its analogue circuits stay
  powered. -/
  | tileRestart (req : Requester) (t : Fin 10) (arg : BitVec 24)
  /-- TILE_RESTART_DONE (R435): The tile is back with plan values reapplied, and PG_CMDRES reads OK. -/
  | tileRestartDone (t : Fin 10)
  /-- CHANNEL_CFG_WRITE (R118): A write to a UT or LT channel CFG is dropped for MODE_LOCK or CFG_REJ, or taken next
  course. -/
  | channelCfgWrite (c : Fin 80) (value : Word)
  /-- DIGITAL_CFG_WRITE (R271): A write to a DIO or DI CFG is dropped for MODE_LOCK or CFG_REJ, or taken next course. -/
  | digitalCfgWrite (k : Fin 64) (value : Word)
  /-- OUTPUT_TEST_WRITE (R146): A write of OCTL.TEST = 1 outside maintenance is dropped and TEST_REJ is set. -/
  | outputTestWrite (uc : Bool) (n : Fin 32) (value : Word)
  /-- DEBOUNCE_COMPLETE (R267): The raw level differs from IN for DEB samples, so IN changes and is stamped. -/
  | debounceComplete (k : Fin 64) (mv : Int) (limit : Fin 1001) (idx : Fin 250)
  /-- WIRE_BREAK_WINDOW (R269): A 100 µs current-average window ends and BREAK is set or cleared. -/
  | wireBreakWindow (k : Fin 64) (avg : Half)
  /-- OVERLOAD_TRIP (R275): The driver is in limit for 2 ms, switches off and sets OVERLOAD or LATCHED. -/
  | overloadTrip (n : Fin 32)
  /-- OVERLOAD_RETRY (R275): RETRY_T expires, OVERLOAD clears and the driver switches on again. -/
  | overloadRetry (n : Fin 32)
  /-- RETRY_COUNT_RESTART (R275): The driver runs 10 s without limiting and its retry count restarts. -/
  | retryCountRestart (n : Fin 32)
  /-- INRUSH_WINDOW_END (R278): A lamp's inrush window, lengthened under the inrush budget, ends and the OUTPUT limit
  applies. -/
  | inrushWindowEnd (n : Fin 32)
  /-- DIO_THERM_SET (R276): The DIO junction reaches 165 °C and the driver switches off. -/
  | dioThermSet (n : Fin 32) (temp : Half)
  /-- DIO_THERM_CLEAR (R276): The DIO junction cools to 145 °C and the driver follows its drive state again. -/
  | dioThermClear (n : Fin 32) (temp : Half)
  /-- CLAMP_END (R277): The terminal rises above −1.0 V, ending a demagnetisation clamp. -/
  | clampEnd (n : Fin 32) (term : Half)
  /-- TOTAL_OVER (R278): The 1 s average of all DIO currents exceeds 8 A and TOTAL_OVER is set. -/
  | totalOver (avg : Half)
  /-- OPEN_WIRE_SET (R279): The off-state or on-state open-wire check persists for its time and OPEN is set. -/
  | openWireSet (n : Fin 32)
  /-- OPEN_WIRE_CLEAR (R279): The check of the present drive state passes for 1 ms and OPEN clears. -/
  | openWireClear (n : Fin 32)
  /-- LAMP_LEARNED (R280): 10 s of on time have been learned and the lamp's current is stored. -/
  | lampLearned (n : Fin 32) (current : Half)
  /-- DARK_SET (R281): A lamp draws too little current in an on phase, or shows no continuity off, for its time, and
  DARK is set. -/
  | darkSet (n : Fin 32)
  /-- DARK_CLEAR (R281): The lamp's current or continuity recovers for 1 ms and DARK clears. -/
  | darkClear (n : Fin 32)
  /-- LAMP_DEGRADED (R281): The current is below 60 % or at least 65 % of I_E for 100 ms, and LAMP_DEGRADED is set or
  cleared. -/
  | lampDegraded (n : Fin 32) (degraded : Bool)
  /-- DIO_READBACK (R282): The raw level disagrees with the drive state, or in a standby with the peer's command, past
  its time, and READBACK is set or cleared. -/
  | dioReadback (n : Fin 32) (mismatch : Bool)
  /-- OUT_RESET (R288): LATCHED and OVERLOAD of a DIO are cleared. -/
  | outReset (req : Requester) (arg : BitVec 24)
  /-- RELEARN (R288): Lamp current learning restarts. -/
  | relearn (req : Requester) (arg : BitVec 24)
  /-- ACK_POINT (R244): One point is acknowledged at the next boundary. -/
  | ackPoint (req : Requester) (arg : BitVec 24)
  /-- ACK_GROUP (R244): Every member of a group is acknowledged at the next boundary. -/
  | ackGroup (req : Requester) (arg : BitVec 24)
  /-- ACK_ALL (R244): Every point is acknowledged at the next boundary. -/
  | ackAll (req : Requester) (arg : BitVec 24)
  /-- SILENCE (R244): SOUNDING is cleared on every point. -/
  | silence (req : Requester) (arg : BitVec 24)
  /-- INHIBIT (R244): A point's inhibit flag is set or cleared. -/
  | inhibit (req : Requester) (arg : BitVec 24)
  /-- RESET_FIRST_OUT (R244): A group's first-out latch is emptied. -/
  | resetFirstOut (req : Requester) (arg : BitVec 24)
  /-- SET_DUTY (R246): The duty engineer is changed, which may start a make-before-break transfer. -/
  | setDuty (req : Requester) (arg : BitVec 24)
  /-- WATCH_ENABLE (R246): The watch function is switched on or off. -/
  | watchEnable (req : Requester) (arg : BitVec 24)
  /-- WATCH_RESET (R239): The watch is reset to RUNNING. -/
  | watchReset (req : Requester) (arg : BitVec 24)
  /-- SQUARE_PIN (R254): A write to SQUARE_PIN pins the newest square for the reader, or releases it. -/
  | squarePin (req : Requester) (value : Word)
  /-- SQUARE_WINDOW_READ (R257): A square-window read is served from the pinned, latched or newest square and may set
  the record latch. -/
  | squareWindowRead (req : Requester) (a : BitVec 24) (size : Fin 3)
  /-- SQUARE_WINDOW_WRITE (R250): A write to the square window is dropped and WIN_WRITE is set. -/
  | squareWindowWrite (req : Requester) (a : BitVec 24) (value : Word)
  /-- ICU_SOURCE_OCCURRENCE (R292): An interrupt source occurs, is coalesced and may become pending and assert its
  target's request line. -/
  | icuSourceOccurrence (src : IcuId)
  /-- COALESCE_TIMEOUT (R304): The coalescing TIME expires since the first counted occurrence and the source becomes
  pending. -/
  | coalesceTimeout (src : IcuId)
  /-- HOLDOFF_END (R305): A hold-off group's timer expires and its sources become presentable again. -/
  | holdoffEnd (g : Fin 32)
  /-- ICU_SWI (R290): A 1 written to ICU_t_SWI is an occurrence of a software interrupt. -/
  | icuSwi (t : Fin 5) (value : Word)
  /-- ICU_CLAIM (R296): A CLAIM read by the target returns the selected source, clears its pending state and pushes it
  on the stack. -/
  | icuClaim (req : Requester) (t : Fin 5)
  /-- ICU_EOI (R297): An EOI write pops the top stack entry, or is rejected. -/
  | icuEoi (req : Requester) (t : Fin 5) (value : Word)
  /-- ICU_TIERS_WRITE (R295): A tier-boundary write is applied only while every stack is empty, otherwise it is
  dropped with TIERS_REJ. -/
  | icuTiersWrite (hi : Bool) (value : Word)
  /-- ICU_SRC_CFG_WRITE (R301): A write to a source's CFG clears EN under the latch window, or moves the source to a
  new target. -/
  | icuSrcCfgWrite (req : Requester) (i : Fin 256) (value : Word)
  /-- EVENT_RECORD_ARRIVAL (R310): A raised event record reaches the course island and is written into each selecting
  enabled queue. -/
  | eventRecordArrival (k : Nat)
  /-- EVQ_POP (R311): The owner removes N oldest records, freeing room for markers and summaries. -/
  | evqPop (req : Requester) (q : Fin 5) (value : Word)
  /-- EVQ_OVERLOAD_CLEAR (R314): F has stayed below 512 for 4,000 courses with nothing latched or shed, and OVERLOAD
  clears. -/
  | evqOverloadClear (q : Fin 5)
  /-- EVQ_DISABLE (R316): Writing CTL.EN to 0 empties the queue and clears its latches and counts. -/
  | evqDisable (q : Fin 5) (alarms : Bool)
  /-- HEARTBEAT_SEND (R319): Every 20 µs a heartbeat is sent on each street. -/
  | heartbeatSend
  /-- HEARTBEAT_RECEIVE (R319): A heartbeat is received, checked and echoed. -/
  | heartbeatReceive (st : Bool) (h : Heartbeat)
  /-- ECHO_RECEIVE (R319): The echo of a sent heartbeat returns and the heartbeat is judged good. -/
  | echoReceive (st : Bool) (rtt : Nat)
  /-- STREET_MISSING (R320): 100 µs pass without a good heartbeat on a street and it is missing. -/
  | streetMissing (st : Bool)
  /-- STREET_PRESENT (R320): 50 consecutive good heartbeats make a street present again. -/
  | streetPresent (st : Bool)
  /-- CLAIM_FRAME_SEND (R321): The unit sends its claim frame in its 2.5 µs slot. -/
  | claimFrameSend
  /-- CLAIM_FRAME_RECEIVE (R321): A claim frame is received and the peer claim updated. -/
  | claimFrameReceive (c : Half) (role : Role) (ok : Bool)
  /-- CLAIM_LINE_MISSING (R321): No valid claim frame for 50 µs: the peer claim counts 0 and the claim line is
  missing. -/
  | claimLineMissing
  /-- GATE_ENABLE (R326): A new claim has been sent in 4 slots with a lower peer claim and the gates are enabled. -/
  | gateEnable
  /-- GATE_FAULT (R324): A gate's two comparators disagree for 1 µs, and the stage is forced disabled. -/
  | gateFault (stage : Fin 74)
  /-- EPOCH_RENUMBER (R328): An epoch above 0xFF00 with a quiet peer for 4,000 courses is reset to 1. -/
  | epochRenumber
  /-- ELECTION_WINDOW_END (R329): The role's listening window ends without a peer claim and the unit claims epoch 1. -/
  | electionWindowEnd
  /-- STANDBY_REPHASE (R332): A standby ends its course at the active unit's boundary and takes CN and WI, or
  re-phases after a 5 µs offset with SYNC_LOST. -/
  | standbyRephase (cn : Word) (wi : BitVec 12) (offset : Int)
  /-- STATE_SYNC_RECEIVE (R333): A complete, correct state sync arrives on a street. -/
  | stateSyncReceive (st : Bool) (ok : Bool) (m : SyncMsg)
  /-- YIELD_MESSAGE_RECEIVE (R338): A standby receives a yield message and takes over. -/
  | yieldMessageReceive (st : Bool) (cause : BitVec 3)
  /-- SWITCHOVER (R343): The active unit yields with cause 3 at the next boundary. -/
  | switchover (req : Requester) (arg : BitVec 24)
  /-- CLEAR_COUNTS (R343): MISSED, LOST and takeover COUNT are set to 0. -/
  | clearCounts (req : Requester) (arg : BitVec 24)
  /-- UPDATE_SAFETY_DISTRICT (R349): The update of a safety district starts, with its safety tag checked. -/
  | updateSafetyDistrict (req : Requester) (arg : BitVec 24)
  /-- RELEASE_LANE (R351): One of the two requests needed to release a trip lane is taken. -/
  | releaseLane (req : Requester) (arg : BitVec 24)
  /-- RESTORE_LANE (R353): A released lane counts in the matrix again from the next boundary. -/
  | restoreLane (req : Requester) (arg : BitVec 24)
  /-- RELEASE_OUTPUT (R351): One of the two requests needed to release a safety output is taken. -/
  | releaseOutput (req : Requester) (arg : BitVec 24)
  /-- RESTORE_OUTPUT (R353): A released safety output is guarded again from the next boundary. -/
  | restoreOutput (req : Requester) (arg : BitVec 24)
  /-- RESET_LANE (R355): Latched lanes whose latest sample is back inside are cleared at the next boundary. -/
  | resetLane (req : Requester) (arg : BitVec 24)
  /-- FORCE_RESET (R358): FORCED is cleared if no course faulted in the last second. -/
  | forceReset (req : Requester) (arg : BitVec 24)
  /-- RELEASE_LAPSED (R351): A pending release is not completed within 30 s and lapses. -/
  | releaseLapsed
  /-- WATCHDOG_SERVICE (R356): The safety firmware services the PD0 watchdog. -/
  | watchdogService
  /-- WATCHDOG_EXPIRY (R356): 4 courses pass without service, so the claim goes to 0 and PD1 is held in reset. -/
  | watchdogExpiry
  /-- LOCKSTEP_MISMATCH (R356): S0 and S1 disagree, so the claim goes to 0 and PD1 is held in reset. -/
  | lockstepMismatch
  /-- PD1_RESTART (R357): After 10 ms of reset, PD1 restarts with releases and FORCED cleared. -/
  | pd1Restart
  /-- KEY_INSTALL (R387): The service port installs the plan or safety key after verifying the HMAC. -/
  | keyInstall (n : Fin 2) (key mac : List Byte)
  /-- ETH_FRAME_RECEIVE (R368): A received frame is filtered, stamped and delivered to a ring, or dropped and counted.
  -/
  | ethFrameReceive (p : Fin 2) (f : EthFrame)
  /-- ETH_FRAME_TRANSMIT (R367): A handed transmit descriptor's frame is sent, on both ports with RCT in PRP mode. -/
  | ethFrameTransmit (p : Fin 2)
  /-- PRP_SUPERVISION_SEND (R365): Every 2,000 ms a PRP supervision frame is sent on both ports. -/
  | prpSupervisionSend
  /-- PRP_ENTRY_EXPIRY (R365): A duplicate-table entry is forgotten 400 ms after it was made. -/
  | prpEntryExpiry
  /-- ETH_CFG_WRITE (R364): A PRP or SPEED write while EN = 1 is dropped with CFG_REJ. -/
  | ethCfgWrite (p : Fin 2) (value : Word)
  /-- ETH_QUEUE_CTL_WRITE (R367): Writing EN = 1 to a ring resets HEAD and TAIL. -/
  | ethQueueCtlWrite (p : Fin 2) (q : Fin 9) (value : Word)
  /-- ETH_LINK_CHANGE (R389): A port's link goes up or down. -/
  | ethLinkChange (p : Fin 2) (link g1 mdix : Bool)
  /-- PTP_SET (R370): PTP_ADJ is loaded as the PTP time of the next boundary. -/
  | ptpSet (req : Requester) (arg : BitVec 24)
  /-- PTP_STEP (R370): The signed PTP_ADJ is added to the PTP time at the next boundary. -/
  | ptpStep (req : Requester) (arg : BitVec 24)
  /-- PTP_NOW_READ (R370): A read of PTP_NOW_LO latches the whole PTP time for that requester. -/
  | ptpNowRead (req : Requester)
  /-- PTP_VALID_EXPIRY (R371): TMO passes since SYNCED was written 1 and VALID falls. -/
  | ptpValidExpiry
  /-- CAN_FRAME_RECEIVE (R375): A received CAN frame is stored in a receive box or queue, or dropped as NOMATCH. -/
  | canFrameReceive (n : Fin 4) (f : CanFrame)
  /-- CAN_SEND (R378): A send box becomes pending. -/
  | canSend (n : Fin 4) (value : Word)
  /-- CAN_WITHDRAW (R379): A pending send box is withdrawn. -/
  | canWithdraw (n : Fin 4) (value : Word)
  /-- CAN_FRAME_SENT (R378): A frame is transmitted and acknowledged and its box ends SENT. -/
  | canFrameSent (n : Fin 4) (sub : Half)
  /-- CAN_TX_ERROR (R378): A frame loses arbitration or meets an error and is retried, or ends. -/
  | canTxError (n : Fin 4) (arb : Bool)
  /-- CAN_BUS_OFF_RECOVERY (R372): After 128 occurrences of 11 recessive bits, bus-off ends. -/
  | canBusOffRecovery (n : Fin 4)
  /-- CAN_QUEUE_FREE (R377): A FREE write removes the oldest queue element if its arrival number matches. -/
  | canQueueFree (n : Fin 4) (k : Fin 2) (value : Word)
  /-- CAN_CFG_WRITE (R373): A write to NBIT, DBIT or LAYOUT is taken only while EN = 0 and valid, else dropped with
  CFG_REJ. -/
  | canCfgWrite (n : Fin 4) (reg : Fin 3) (value : Word)
  /-- CAN_MSGRAM_WRITE (R378): A write to a pending send box's element is dropped with SBBUSY. -/
  | canMsgramWrite (n : Fin 4) (w : Fin 2048) (value : Word)
  /-- HOST_READ (R383): A host-port READ transaction issues up to 16 reads and returns them with WAIT, status and CRC.
  -/
  | hostRead (usb : Bool) (command : Byte) (addr : Word) (crc : Byte)
  /-- HOST_WRITE (R383): A host-port WRITE transaction hands its words to mortar after the CRC checks. -/
  | hostWrite (usb : Bool) (command : Byte) (addr : Word) (words : List Word) (crc : Byte)
  /-- HOST_CS_ABORT (R384): nCS rises before the host CRC completes and the transaction is discarded. -/
  | hostCsAbort
  /-- HOST_RESET (R385): nRST held low for 10 µs requests a node reset with cause HOST. -/
  | hostReset (refs trim : Bool)
  /-- APPEND (R395): Records from SRAM or DRAM are appended to the event log. -/
  | append (req : Requester) (arg : BitVec 24)
  /-- LOG_READ (R402): Records or item bytes of a partition are copied to SRAM or DRAM. -/
  | logRead (req : Requester) (arg : BitVec 24) (bad : Option Word)
  /-- CAPTURE (R402): Waveform captures of the masked channels are triggered. -/
  | capture (req : Requester) (arg : BitVec 24)
  /-- CAPTURE_COMPLETE (R393): The last sample of a capture is taken and the capture is written. -/
  | captureComplete (c : Fin 8)
  /-- TREND_RECORD (R392): A PTP second ends and one trend record is formed from its squares. -/
  | trendRecord
  /-- LOG_COMMIT (R396): A flash page is programmed and verified and its records are committed. -/
  | logCommit (p : Fin 5) (n mean top : Nat)
  /-- LOG_BLOCK_FAILURE (R400): A block fails to program or erase, and is replaced from the reserve or its ring
  shrinks with FAULT. -/
  | logBlockFailure (p : Fin 5) (silent : Bool)
  /-- LOG_READY (R399): After PD7 comes up the store discards bad pages and reads READY. -/
  | logReady (bad : List (Fin 5 × Word × Nat))
  /-- PANEL_UPDATE (R407): An update of a panel area is requested and becomes pending or replaces the pending one. -/
  | panelUpdate (req : Requester) (arg : BitVec 24)
  /-- PANEL_CANCEL (R418): An area's pending update is dropped. -/
  | panelCancel (req : Requester) (arg : BitVec 24)
  /-- CLEAR_PANEL (R418): Pending updates are dropped and the whole panel is cleared after running updates. -/
  | clearPanel (req : Requester) (arg : BitVec 24)
  /-- PANEL_UPDATE_START (R408): An eligible pending update passes its gates, writes its intent record and starts
  copying. -/
  | panelUpdateStart (k : Fin 34)
  /-- PANEL_COPY_DONE (R406): The rectangle copy ends, the target image is written and the drive begins. -/
  | panelCopyDone (k : Fin 34)
  /-- PANEL_UPDATE_DONE (R406): The waveform ends, the update is done and its intent record is marked done. -/
  | panelUpdateDone (k : Fin 34)
  /-- PANEL_BANNER_DRAW (R413): After running updates complete on supply loss, the NO SUPPLY banner is drawn and the
  rails switched off. -/
  | panelBannerDraw
  /-- PANEL_REDRAW (R415): At PD7 start-up with an unfinished intent record, the panel is cleared and redrawn to the
  target image. -/
  | panelRedraw
  /-- GLASS_TEMP_READ (R410): Every 100 ms the glass temperature is read and COLD updated. -/
  | glassTempRead (temp : Half)
  /-- CRACK_LOOP_MEASURE (R417): Every 100 ms the crack loop is measured and compared with its factory value. -/
  | crackLoopMeasure (meas : Half)
  /-- POWER_ON (R428): VS first reaches 4.5 V and start-up runs through its steps. -/
  | powerOn (role : Role) (tcxo refs trim : Bool) (rtc : Option Nat)
  /-- REF_CHECK_RETRY (R428): Every 10 s a halted start-up repeats its reference check. -/
  | refCheckRetry (refs trim : Bool)
  /-- CLOCK_FAULT (R13): The TCXO stops or drifts beyond ±2 %, so the claim goes to 0 and all domains but PD0 are held
  in reset. -/
  | clockFault
  /-- CLOCK_HOLD_END (R13): The TCXO has been within ±2 % for 100 ms and start-up resumes at step 2 with cause CLOCK. -/
  | clockHoldEnd (refs trim : Bool)
  /-- DISC_HOLDOVER (R15): 2 s pass without a TRIM write while EN = 1 and DISC_STATE becomes holdover. -/
  | discHoldover
  /-- DRAM_DOUBLE_BIT_ERROR (R25): A DRAM read meets a double-bit error, returns a bus error and notifies SAFE. -/
  | dramDoubleBitError
  /-- VS_UV_SET (R420): A VS sample below 4.3 V sets VS_UV. -/
  | vsUvSet (vs : Half)
  /-- SUPPLY_LOSS (R426): VS stays below 4.3 V for 2 ms: the supply-loss signal is raised and the shedding sequence
  runs. -/
  | supplyLoss (vs : Half)
  /-- SHED_PD7_OFF (R426): After the panel and banner are done in the shedding sequence, PD7 is switched off. -/
  | shedPd7Off
  /-- VS_UV_CLEAR (R420): VS has been at or above 4.5 V for 100 ms and VS_UV clears, or a short dip is counted. -/
  | vsUvClear (vs : Half) (held : Bool)
  /-- SUPPLY_RETURN (R427): VS_UV clears while PD0 is up, so the node finishes the flush and panel and resets. -/
  | supplyReturn (refs trim : Bool)
  /-- VF_FAULT_SET (R421): VF1 or VF2 is out of 18–32 V for 1 ms and its fault is set. -/
  | vfFaultSet (n : Fin 2) (mv : Half)
  /-- VF_FAULT_CLEAR (R421): VF1 or VF2 is within 18.5–31.5 V for 100 ms and its fault clears. -/
  | vfFaultClear (n : Fin 2) (mv : Half)
  /-- VF_NONE_SET (R422): Both field supplies are below 10 V for 1 ms and field stages are unpowered. -/
  | vfNoneSet
  /-- VF_NONE_CLEAR (R422): A field supply is at or above 18.5 V for 10 ms and outputs resume. -/
  | vfNoneClear
  /-- HOLDUP_MEASURE (R423): Every 1 ms the hold-up voltage and usable energy are measured and HOLDUP_LOW updated. -/
  | holdupMeasure (volt : Half) (charging : Bool) (cap : Option Half)
  /-- DOMAIN_OFF (R431): A power domain, with its dependents, starts switching off. -/
  | domainOff (req : Requester) (arg : BitVec 24)
  /-- DOMAIN_ON (R431): A power domain starts switching on. -/
  | domainOn (req : Requester) (arg : BitVec 24)
  /-- DOMAIN_SWITCH_DONE (R433): A domain switch completes and PG_CMDRES leaves BUSY. -/
  | domainSwitchDone (trim : Bool)
  /-- RESET (R437): A node reset is requested for the next boundary. -/
  | reset (req : Requester) (arg : BitVec 24)
  /-- CORE_RESET (R437): Named cores restart from their reset vectors with TCM and ICU stacks cleared. -/
  | coreReset (req : Requester) (arg : BitVec 24)
  /-- REGISTER_WRITE (R16): A write to a register with no row of its own is applied, or dropped, under its access
  code. -/
  | registerWrite (req : Requester) (addr : Word) (size : Fin 3) (value : Word)
  /-- HOLDUP_EXHAUSTED (R426): After PD7 is off on supply loss, the hold-up store's usable energy reaches 0 and PD0
  goes off, so the next VS return is a cold POWER_ON rather than SUPPLY_RETURN. -/
  | holdupExhausted
  /-- CAN_RX_ERROR (R372): A frame being received on a CAN bus fails a check, so the receive error counter rises, the
  error is counted in CANn_CNT.ERRORS and the state may become error-passive. -/
  | canRxError (n : Fin 4)
  /-- CAN_BUS_INTEGRATED (R380): After its transmit gate is enabled by takeover, a CAN controller has integrated on 11
  recessive bits and is ready to transmit. -/
  | canBusIntegrated (n : Fin 4)
  /-- DRAM_SINGLE_BIT_ERROR (R25): A DRAM read meets a single-bit error, which is corrected and counted in
  SYS_ECC.SBE. -/
  | dramSingleBitError
  /-- SERVICE_PORT_CONFIGURED (R386): A USB host attaches to and configures the service port, or detaches from it, and
  HOSTP_STAT.USB changes. -/
  | servicePortConfigured (on : Bool)
  deriving DecidableEq, Repr

end Sys2Proof
end

