-- ==== Sys2Proof/Config.lean ====
section
/-! DEFINITION. The free values: what the manual leaves open.  Each is applied to the counter
`State.free`, which every use advances, so that no two uses are the same value (log entry 7). -/

namespace Sys2Proof.Config

/-- Time since B(N), ns, at which something happens inside a course; used below 250,000 (log entry 7). -/
opaque subCourse : Nat → Nat

/-- A 32-bit value the manual does not state (log entry 7). -/
opaque word : Nat → BitVec 32

/-- A 64-bit value the manual does not state (log entry 7). -/
opaque dword : Nat → BitVec 64

/-- Byte `i` of the 64-byte header of a capture, whose layout the manual does not state: channel, GEN, RATE, trigger
time, its PTP time, sample count and index of the trigger sample (R393). -/
opaque captureHeader (chan gen rate : Nat) (time : BitVec 32) (ptp : BitVec 64) (count index i : Nat) : BitVec 8

/-- Byte `i` of the supply-loss banner's strip, as the node renders its text: no update yet, or SYNC and the second of
the day (R413, R414); the manual states the words and not the pixels. -/
opaque bannerByte (text : Option (Bool × Nat)) (i : Nat) : BitVec 8

end Sys2Proof.Config
end

