-- ==== Sys2Proof/Machine/State.lean ====
section
/-! DEFINITION. The state of the block: every register, buffer, counter and mode the spec gives it, and the
queue of commands that wait.  Field defaults are the reset values (R6). -/

namespace Sys2Proof.Machine

/-- Why the block stops with a fault.  No rule of the manual stops the block, so there is no
constructor: hardware faults are flags and events of State. -/
inductive Fault where
  deriving DecidableEq, Repr

/-- Why a command has no meaning. -/
inductive Refusal where
  /-- Raised by Dispatch alone, for a command whose meaning is not written; safe, nothing is done. -/
  | notModelled (mnemonic : String)
  deriving DecidableEq, Repr

/-- A command in progress on a page (R444): who wrote it, its opcode and its argument. -/
structure RunCmd where
  by_ : Requester
  op : Byte := 0
  arg : BitVec 24 := 0
  deriving DecidableEq, Repr

/-- The common header of a page (R441, R443, R444, R22).  PG_ID, PG_OWNER, PG_CTRL, PG_STAT and
PG_GEN are computed when read. -/
structure PageHdr where
  sticky : Word := 0
  irqen : Word := 0
  busy : Bool := false
  status : BitVec 7 := 0
  result : BitVec 24 := 0
  seq : Half := 0
  sync : Word := 0
  run : Option RunCmd := none
  /-- rising edges of the page's interrupt level that have not reached the ICU (R291, R292) -/
  edges : Nat := 0
  deriving DecidableEq, Repr

/-- SYS page and start-up progress (R428 to R437). -/
structure SysBlk where
  variant : Variant := .p
  serial : Word := 0
  step : Nat := 0
  halt : Nat := 0
  shedding : Bool := false
  domOn : BitVec 8 := 0x01
  domBusy : BitVec 8 := 0
  /-- domains whose first access while off has set OFFDOM (R26) -/
  offSeen : BitVec 8 := 0
  cause : Byte := 0
  resets : Half := 0
  dbe : Half := 0
  sbe : Half := 0
  dramCn : Option Word := none
  resetAsked : Option Byte := none
  /-- domains the running DOMAIN_OFF or DOMAIN_ON switches, and the direction (true: on) -/
  switching : Option (BitVec 8 × Bool) := none
  deriving DecidableEq, Repr

/-- SUP page (R420 to R427). -/
structure SupBlk where
  supplyLoss : Bool := false
  vsUv : Bool := false
  vf1Fault : Bool := false
  vf2Fault : Bool := false
  vfNone : Bool := false
  holdupLow : Bool := true
  charging : Bool := false
  rtcValid : Bool := false
  rtcSec : Nat := 0
  vs : Half := 0
  vf1 : Half := 0
  vf2 : Half := 0
  avail : Half := 0
  volt : Half := 0
  cap : Half := 0
  dips : Half := 0
  losses : Half := 0
  /-- VS is below 4.3 V, and no signal has been raised for it -/
  dip : Bool := false
  /-- course in which VF_NONE last cleared (R422) -/
  vfBack : Option Word := none
  /-- VS has returned after a supply-loss signal: a node reset is due (R427) -/
  returned : Bool := false
  deriving DecidableEq, Repr

/-- CLK page (R13 to R15). -/
structure ClkBlk where
  en : Bool := false
  trim : Int := 0
  applied : Int := 0
  holdover : Bool := false
  /-- courses since the last write of TRIM -/
  trimAge : Nat := 0
  tcxoOk : Bool := false
  deriving DecidableEq, Repr

/-- One cell of an engine: its 64 bits and the CN of its last write (R71). -/
structure Cell where
  val : Dword := 0
  cn : Word := 0
  deriving DecidableEq, Repr

/-- One engine (R67, R72). -/
structure Engine where
  ended : Bool := false
  pos : Nat := 0
  cycles : Nat := 0
  load : Half := 0
  peak : Half := 0
  cells : Tab Cell := {}
  deriving DecidableEq, Repr

/-- What E0 holds of one analogue channel between words of its list: the sample FETCH copied, the T
value, the last good value of the series (R122), the characteristic's cut-off state (R167) and the
result of CVT. -/
structure ChanCtx where
  smp : Sample := {}
  got : Bool := false
  tVal : Dword := 0
  tState : Nat := 0
  tDegraded : Bool := false
  lastGood : Option Word := none
  cutOff : Bool := true
  /-- value and status of the course, as CVT leaves them and E1 reads them -/
  value : Word := 0x7FC00000
  status : Half := 0x4400
  deriving DecidableEq, Repr

/-- A digital channel as the snapshot takes it (R268, R270). -/
structure DSnap where
  inp : Bool := false
  stamp : Stamp := {}
  changes : Nat := 0
  status : Half := 0x4400
  deriving DecidableEq, Repr

/-- The snapshot taken at a boundary (R29, spec/03 trip matrix). -/
structure Snapshot where
  ana : Tab Sample := {}
  dig : Tab DSnap := {}
  tlTrip : Dword := 0
  tlStale : Dword := 0
  toDio : Word := 0
  toUc : Word := 0
  deriving DecidableEq, Repr

/-- COURSE page and course island (R31, R67 to R75, R87). -/
structure CourseBlk where
  cn : Word := 0
  wi : Nat := 0
  run : Bool := false
  e0 : Engine := {}
  e1 : Engine := {}
  faulted : Bool := false
  prevFaulted : Bool := false
  fltEngine : Bool := false
  fltWi : Nat := 0
  fltPos : Nat := 0
  fltCause : BitVec 2 := 0
  faultCn : Word := 0
  faultSeen : Bool := false
  ecc1 : Half := 0
  faults : Half := 0
  clearPeak : Bool := false
  latch : Tab Sample := {}
  snap : Snapshot := {}
  prevIn : Tab DSnap := {}
  ctx : Tab ChanCtx := {}
  /-- output latch words written this course: command binary32 (or 0/1 for a DIO) and fault flag -/
  dioLatch : Word := 0
  dioHeld : Word := 0
  ucLatch : Tab (Word × Bool) := {}
  ucHeld : Tab (Word × Bool) := {}
  /-- by target, boundaries whose COURSE pulse has not reached the ICU (R290) -/
  pulses : Tab Nat := {}
  deriving DecidableEq, Repr

/-- STATE of PLAN_STATE. -/
inductive PlanState where
  | noPlan | loading | running | stopped
  deriving DecidableEq, Repr

/-- STATE of a district (R50). -/
inductive DState where
  | absent | idle | verifying | updating | mixed
  deriving DecidableEq, Repr

/-- One step of an update (R54). -/
inductive DStep where
  | apply (e : Entry)
  | retire (ty target : Nat)
  deriving DecidableEq, Repr

/-- A journal record of the always-on island (R43). -/
structure JournalRec where
  bank : Bool := false
  block : Nat := 0
  gen : Byte := 0
  complete : Bool := true
  deriving DecidableEq, Repr

/-- A district of the running plan (R50, R53, R64). -/
structure District where
  state : DState := .absent
  gen : Byte := 0
  genTo : Byte := 0
  restored : Bool := false
  total : Nat := 0
  done : Nat := 0
  steps : List DStep := []
  bank : Bool := false
  block : Nat := 0
  ubank : Bool := false
  ublock : Nat := 0
  cost0 : Nat := 0
  cost1 : Nat := 0
  newCost0 : Nat := 0
  newCost1 : Nat := 0
  len : Nat := 0
  newLen : Nat := 0
  journal : Option JournalRec := none
  deriving DecidableEq, Repr

/-- An image being verified: command, address, district and requesting page (R39, R52). -/
structure Verifying where
  op : Byte := 0
  bank : Bool := false
  block : Nat := 0
  district : Nat := 0
  /-- STATE of the district before it read VERIFYING -/
  prev : DState := .idle
  deriving DecidableEq, Repr

/-- A background NOR operation (R41). -/
structure NorOp where
  erase : Bool := false
  bank : Bool := false
  block : Nat := 0
  count : Nat := 0
  src : Nat := 0
  len : Nat := 0
  deriving DecidableEq, Repr

/-- PLAN page, plan memory, NOR banks and the non-volatile plan records (spec/02). -/
structure PlanBlk where
  state : PlanState := .noPlan
  lcode : Byte := 0
  lopc : Byte := 0
  lds : Option Nat := none
  wall : Nat := 0
  id : Word := 0
  base0 : Nat := 0
  base1 : Nat := 0
  buildTag : List Byte := []
  entries : List Entry := []
  /-- last entry of each retired output channel: its retirement action holds (R149, R286) -/
  retired : List Entry := []
  districts : Tab District := {}
  boot : Option (Bool × Nat) := none
  alt : Option (Bool × Nat) := none
  src : Word := 0
  len : Word := 0
  winsel : Word := 0
  norLast : Byte := 0
  norBank : Bool := false
  nor : Mem := {}
  erases : Tab Nat := {}
  key : Option (List Byte) := none
  deriving DecidableEq, Repr

/-- Work of the plan loader that is under way. -/
structure LoaderBlk where
  verifying : Option Verifying := none
  safeVerifying : Option Verifying := none
  norOp : Option NorOp := none
  /-- image of a successful load, which starts at the next boundary (R46) -/
  starting : Option (Bool × Nat) := none
  stopping : Option Bool := none
  archive : List (Bool × Nat) := []
  /-- PLAN_STATE.STATE to return to when a LOAD_PLAN is denied -/
  back : PlanState := .noPlan
  deriving DecidableEq, Repr

/-- A reader of the square: its pin and its record latch (R254 to R257).  `some (some b)` is buffer
b, `some none` the empty square. -/
structure Reader where
  pin : Option (Option Nat) := none
  latch : Option (Option Nat × Nat) := none
  deriving DecidableEq, Repr

/-- One published or empty square (R250, R260 to R263). -/
structure Square where
  cn : Word := 0
  header : Tab Word := {}
  ana : Tab ARec := {}
  dig : Tab DRec := {}
  groups : Tab Half := {}
  call : Tab Word := {}
  points : Tab Half := {}
  deriving DecidableEq, Repr

/-- SQUARE page and buffers (R250 to R259). -/
structure SquareBlk where
  bufs : Tab Square := {}
  newest : Option Nat := none
  writing : Option Nat := none
  count : Word := 0
  prevCn : Word := 0
  readers : Tab Reader := {}
  /-- working records: the value a REC, GROUP, DELAY or CALL word last wrote (R252) -/
  work : Square := {}
  /-- the working records as the course in progress found them; a faulted course leaves these (R252) -/
  kept : Square := {}
  /-- by target, publications whose SQUARE pulse has not reached the ICU (R290) -/
  pulses : Tab Nat := {}
  /-- the square of the course that has ended, until it is published (R76) -/
  closed : Option Square := none
  deriving DecidableEq, Repr

/-- ALARM page, points and groups (spec/08). -/
structure AlarmBlk where
  points : Tab Point := {}
  groups : Tab Group := {}
  selPoint : Tab Nat := {}
  selGroup : Tab Nat := {}
  /-- acknowledge presses seen in the snapshot, applied at the next boundary (R232): DI numbers -/
  presses : List Nat := []
  /-- alarm records of the course in progress, for the state sync (R333) -/
  raised : List EventRec := []
  call : CallBlk := {}
  deriving DecidableEq, Repr

/-- An overflow latch of one point (R313): the data of its latest record and the records merged. -/
structure OvLatch where
  data : BitVec 96 := 0
  lost : Half := 0
  deriving DecidableEq, Repr

/-- One event queue (R309 to R316). -/
structure EvQueue where
  en : Bool := false
  alarms : Bool := true
  pages0 : Word := 0xFFFFFFFF
  pages1 : Word := 0xFFFFFFFF
  pages2 : Word := 0x0000FFFF
  overload : Bool := false
  hwm : Nat := 0
  shedTotal : Word := 0
  summaries : Half := 0
  shed : Nat := 0
  firstShed : Word := 0
  lastShed : Word := 0
  recs : List EventRec := []
  seq : Word := 0
  latches : Tab OvLatch := {}
  served : Nat := 2047
  lowSince : Option Word := none
  /-- records written whose EVQ pulse has not reached the ICU (R290) -/
  pulses : Nat := 0
  epoch : Option (Half × Half) := none
  deriving DecidableEq, Repr

/-- Event queues and the records on their way to them (R310). -/
structure EvqBlk where
  inflight : List EventRec := []
  queues : Tab EvQueue := {}
  deriving DecidableEq, Repr


/-- A universal channel's registers that govern at the next course, as written (R8). -/
structure UcRegs where
  cfg : Word := 0
  lead : Word := 0
  lim : Word := 0
  octl : Word := 0
  otest : Word := 0
  ofix : Word := 0
  oclo : Word := 0xFF800000
  ochi : Word := 0x7F800000
  deriving DecidableEq, Repr

/-- Fault states of an input channel and their marking counters (R98, R105 to R109, R114). -/
structure UcIn where
  low : Bool := false
  ret : Nat := 0
  tag : BitVec 2 := 0
  spare : Bool := false
  excFault : Bool := false
  excLow : Nat := 0
  excGood : Nat := 0
  excmon : BitVec 12 := 0
  excMark : Nat := 0
  short : Bool := false
  shortMark : Nat := 0
  bias : Half := 0
  openF : Bool := false
  openOrder : Bool := false
  openCmd : Bool := false
  openR : BitVec 24 := 0
  /-- an open test has run under the present configuration (OPENR.VALID) -/
  openValid : Bool := false
  grdLimit : Bool := false
  settle : Nat := 0
  iepeUntil : Option Word := none
  deriving DecidableEq, Repr

/-- Output state of a universal channel (R130 to R149).  The drive value is held in binary64. -/
structure UcOut where
  drive : Dword := 0
  prevDrive : Dword := 0
  source : BitVec 3 := 0
  /-- OSTAT.DAMPING: damping applied at the last boundary -/
  damping : Bool := false
  /-- a damping of R143 begins or goes on while SOURCE 6 applies -/
  owed : Bool := false
  /-- the return from THERM is not damped (R141) -/
  direct : Bool := false
  /-- START governs until the next boundary (R148) -/
  starting : Bool := false
  /-- the drive DAC's code, which the output stage keeps while the tile does not work (R147) -/
  code : Dword := 0
  maintHeld : Dword := 0
  /-- the fault flag was present at the last boundary, and the drive value before it (R133) -/
  flag : Bool := false
  faultHeld : Option Dword := none
  begun : Bool := false
  rb : Word := 0
  term : Half := 0
  supply : Half := 0
  vrefx : Half := 0
  temp : Half := 0
  therm : Bool := false
  /-- time constant of the peer, while damping taken over from it goes on (R145) -/
  tau : Option Nat := none
  readback : Bool := false
  rbBad : Nat := 0
  rbGood : Nat := 0
  compliance : Bool := false
  headLow : Nat := 0
  headGood : Nat := 0
  vrefBad : Bool := false
  vrefGood : Nat := 0
  openLoop : Bool := false
  olBad : Nat := 0
  olGood : Nat := 0
  settle : Nat := 0
  deriving DecidableEq, Repr

/-- A universal channel (ch. 04 and 05). -/
structure UcChan where
  regs : UcRegs := {}
  inForce : UcRegs := {}
  sticky : Word := 0
  osticky : Word := 0
  inp : UcIn := {}
  out : UcOut := {}
  win : Option OutWindow := none
  deriving DecidableEq, Repr

/-- A loop input (ch. 06). -/
structure LiChan where
  cfg : Word := 0
  park : Word := 0x11940DAC
  cfgF : Word := 0
  parkF : Word := 0x11940DAC
  sticky : Word := 0
  pwrShort : Bool := false
  pwrTrial : Bool := false
  burdenProt : Bool := false
  burdenTrial : Bool := false
  parkFault : Bool := false
  parkOut : Nat := 0
  parkIn : Nat := 0
  band : BitVec 4 := 0
  current : Half := 0
  pwrCurrent : Half := 0
  pwrVolt : Half := 0
  tag : BitVec 2 := 0
  spare : Bool := false
  shortMark : Nat := 0
  burdenMark : Nat := 0
  settle : Nat := 0
  deriving DecidableEq, Repr

/-- The role a spare serves (R103, UTn_ROT, LTn_ROT): channel in tile and path (true: low). -/
structure SpareRole where
  ch : Nat := 0
  low : Bool := false
  deriving DecidableEq, Repr

/-- A tile: 0 to 3 are UT0 to UT3, 4 to 9 are LT0 to LT5 (R211). -/
structure Tile where
  temp : Half := 0
  cja : Half := 0
  cjb : Half := 0
  cjaFail : Bool := false
  cjbFail : Bool := false
  cjDegraded : Bool := false
  cjFault : Bool := false
  spare0 : Option SpareRole := none
  spare1 : Option SpareRole := none
  restarting : Bool := false
  restartAsked : Bool := false
  /-- restarted, and back at the next boundary (R435) -/
  back : Bool := false
  warmLeft : Nat := 4800000
  warm : Bool := true
  deriving DecidableEq, Repr

/-- Maintenance of channels, held in the course island (R472, R125), and the requests that wait for
the next boundary.  A channel is numbered 0-31 UC, 32-79 LI, 80-111 DIO, 112-143 DI. -/
structure MaintBlk where
  on : Tab Bool := {}
  asked : List (Nat × Bool) := []
  /-- channels whose entry was stepped while in maintenance: taken when they leave it (R57, R119) -/
  owed : List Nat := []
  deriving DecidableEq, Repr

/-- A rotation turn of a spare (R198): the converter, and the step in progress (1, 2, 4 or 5). -/
structure Turn where
  conv : Nat := 0
  step : Nat := 1
  solo : Bool := false
  deriving DecidableEq, Repr

/-- A converter's calibration record (R200, R201).  Gain is in 0.01 ppm, offset in 0.01 ppm of full scale. -/
structure Converter where
  /-- wall count of the tile at the last calibration: its age is the count now less this -/
  mark : Nat := 0
  /-- gain and offset of the last calibration taken -/
  consts : Option (Int × Int) := none
  rejects : Nat := 0
  out : Bool := false
  overdue : Bool := false
  served : Option Nat := none
  deriving DecidableEq, Repr

/-- Calibration of one tile (R195, R198 to R201). -/
structure TileCal where
  xferFail : Bool := false
  xferOk : Nat := 0
  /-- assigned value of the transfer standard, 0.01 ppm from nominal; none before the first comparison -/
  transfer : Option Int := none
  /-- the transfer value that took the last COMMIT, kept without power; none before the first comparison (R197) -/
  commitTransfer : Option Int := none
  owesCommit : Bool := false
  /-- owesCommit as the last course boundary found it (R210) -/
  owedMark : Bool := false
  walls : Nat := 0
  convs : Tab Converter := {}
  turns : Tab Turn := {}
  held : Tab Nat := {}
  deriving DecidableEq, Repr

/-- One field-calibration point measured in the open session (R208). -/
structure CalPoint where
  valid : Bool := false
  dev : BitVec 24 := 0
  deriving DecidableEq, Repr

/-- CAL page and references (ch. 07).  Assigned values are binary64, in V and Ω. -/
structure CalBlk where
  refDisagree : Bool := false
  /-- refDisagree as the last course boundary found it (R196) -/
  refMark : Bool := false
  culprit : BitVec 2 := 0
  diff : BitVec 24 := 0
  okWalls : Nat := 0
  session : Nat := 0
  ch : Nat := 0
  savedCfg : Word := 0
  v10 : CalPoint := {}
  r100 : CalPoint := {}
  r10k : CalPoint := {}
  measuring : Nat := 0
  certLo : Word := 0
  certHi : Word := 0
  pred : Bool := false
  /-- a dated COMMIT from which prediction may start, its day, and the deviations measured since (R207) -/
  predBase : Bool := false
  predDay : Half := 0
  devA : Int := 0
  dev100 : Int := 0
  dev10k : Int := 0
  dateValid : Bool := false
  days : Half := 0
  /-- courses of the running day (DAYS) -/
  dayCourses : Nat := 0
  lastDay : Half := 0
  rateA : Half := 0
  rate100 : Half := 0
  rate10k : Half := 0
  aRef : Dword := 0x4014000000000000
  a100 : Dword := 0x4059000000000000
  a10k : Dword := 0x40C3880000000000
  ratioBase : Int := 0
  ratioLast : Int := 0
  dropped : Half := 0
  aged : Bool := false
  deriving DecidableEq, Repr

/-- A HART modem (R172 to R176). -/
structure Modem where
  tx : Bool := false
  cd : Bool := false
  coupled : Option (Fin 80) := none
  turn : Nat := 0
  wallsLeft : Nat := 0
  fresh : Bool := true
  foreign : Half := 0
  conflict : Half := 0
  active : Option Nat := none
  retryWait : Bool := false
  /-- the frame of the transaction in progress, from the preamble to the checksum (R171) -/
  frame : List Byte := []
  /-- courses until its last character has been sent, and until requests are no longer deferred (R171, R172) -/
  txLeft : Nat := 0
  deferLeft : Nat := 0
  deriving DecidableEq, Repr

/-- STATE of a HART descriptor. -/
inductive HState where
  | free | queued | active | done
  deriving DecidableEq, Repr

/-- A HART transaction descriptor (R188). -/
structure HartDesc where
  ctl : Word := 0
  req : Word := 0
  rsp : Word := 0
  state : HState := .free
  result : BitVec 3 := 0
  tries : Nat := 0
  rspLen : BitVec 9 := 0
  cn : Word := 0
  deriving DecidableEq, Repr

/-- HART page (ch. 06). -/
structure HartBlk where
  cfg : Word := 0x00000500
  modems : Tab Modem := {}
  descs : Tab HartDesc := {}
  /-- queued descriptors of all channels in submit order (R176) -/
  queue : List Nat := []
  deriving DecidableEq, Repr

/-- A digital channel: 0-31 DIO, 32-63 DI (ch. 10). -/
structure DigChan where
  cfg : Word := 0x0000A000
  deb : Word := 1
  octl : Word := 0
  cfgF : Word := 0x0000A000
  debF : Word := 1
  octlF : Word := 0
  sticky : Word := 0
  inp : Bool := false
  raw : Bool := false
  stamp : Stamp := {}
  changes : Nat := 0
  settling : Bool := false
  brk : Bool := false
  /-- consecutive windows below 0.5 mA and at or above 0.6 mA (R269) -/
  wbLow : Nat := 0
  wbHigh : Nat := 0
  current : Half := 0
  deriving DecidableEq, Repr

/-- Output side of a DIO channel (R272 to R286). -/
structure DioOut where
  drive : Bool := false
  source : BitVec 3 := 0
  held : Bool := false
  overload : Bool := false
  latched : Bool := false
  retries : Nat := 0
  offSeen : Bool := false
  therm : Bool := false
  openW : Bool := false
  dark : Bool := false
  darkOff : Bool := false
  degraded : Bool := false
  readback : Bool := false
  inrush : Bool := false
  /-- µs that the inrush window has lasted, and whether the shared budget has lowered its limit (R278) -/
  inrushUs : Nat := 0
  inrushHeld : Bool := false
  clamp : Bool := false
  /-- the driver is connected to its terminal (R283, R285) -/
  connected : Bool := false
  /-- courses of on time that learning has counted (R280) -/
  learnT : Nat := 0
  learned : Bool := false
  progress : Byte := 0
  iL : Half := 0
  term : Half := 0
  temp : Half := 0
  deriving DecidableEq, Repr

/-- DIO and DI pages (ch. 10). -/
structure DigBlk where
  chans : Tab DigChan := {}
  outs : Tab DioOut := {}
  totalOver : Bool := false
  total : Half := 0
  /-- current limit of a channel in an inrush window, mA (R275, R278) -/
  inrushLimit : Nat := 4000
  vfX10 : Half := 0
  vfX11 : Half := 0
  deriving DecidableEq, Repr

/-- An interrupt source (R290 to R304): shared or private. -/
structure IcuSrc where
  en : Bool := false
  target : Nat := 0
  prio : Byte := 0
  count : Byte := 1
  time : Half := 0
  pending : Bool := false
  counted : Nat := 0
  /-- the coalescing timer runs: TIME was not 0 at the last occurrence counted (R304) -/
  timer : Bool := false
  deriving DecidableEq, Repr

/-- An interrupt target (R293 to R302). -/
structure IcuTarget where
  stack : List (Nat × Byte) := []
  thresh : Byte := 0
  faultPending : Bool := false
  faultActive : Bool := false
  faultCount : Byte := 0
  top : BitVec 10 := 0x3FF
  rej : BitVec 10 := 0x3FF
  sleep : Bool := false
  /-- a selection latched when its source's EN was cleared, with the writer, or its TARGET moved (R300, R301) -/
  window : Option (Nat × Option Requester) := none
  deriving DecidableEq, Repr

/-- ICU pages (ch. 11).  Private source i of target t is source 1000 + 16 t + i in `srcs`. -/
structure IcuBlk where
  tiers0 : Word := 0x80604020
  tiers1 : Word := 0x00E0C0A0
  srcs : Tab IcuSrc := {}
  hold : Tab Half := {}
  holding : Tab Bool := {}
  targets : Tab IcuTarget := {}
  deriving DecidableEq, Repr

/-- One street (R319, R320). -/
structure Street where
  present : Bool := false
  /-- the last heartbeat sent has not been answered by its echo yet -/
  waiting : Bool := false
  /-- the last heartbeat echoed -/
  echo : Option Heartbeat := none
  goodRun : Nat := 0
  missed : Half := 0
  rtt : Byte := 0
  deriving DecidableEq, Repr

/-- STATE of RED_STAT. -/
inductive RedState where
  | electing | standby | active | solo | idle
  deriving DecidableEq, Repr

/-- Gate faults by stage (R324): 0-31 DIO, 32-63 UC, 64-69 LT, 70-73 CAN. -/
structure GateFlt where
  dio : Word := 0
  uc : Word := 0
  lt : BitVec 6 := 0
  can : BitVec 4 := 0
  deriving DecidableEq, Repr

/-- RED page (ch. 12). -/
structure RedBlk where
  state : RedState := .electing
  cfg : Word := 0
  peerSn : Word := 0
  /-- the epoch last received from the peer, and the course of the last sync it has reported -/
  peerEpoch : Half := 0
  peerSynced : Word := 0
  /-- the election ended without a peer, and none has been seen since (R323) -/
  alone : Bool := false
  /-- the standby runs in step with the active unit (R332) -/
  inStep : Bool := false
  /-- the last heartbeat and claim frame sent -/
  hbSent : Option Heartbeat := none
  frameSent : Option (Half × Role) := none
  role : Role := .none
  own : Half := 0
  peer : Half := 0
  streetA : Street := {}
  streetB : Street := {}
  claimLine : Bool := false
  gates : Bool := false
  slots : Nat := 0
  conflict : Bool := false
  roleConflict : Bool := false
  strapFault : Bool := false
  peerReady : Bool := false
  peerFault : Bool := false
  peerLost : Bool := false
  peerCn : Word := 0
  peerRole : Role := .none
  wrongSerial : Bool := false
  takeCause : Byte := 0
  takeCount : Half := 0
  takeCn : Word := 0
  taking : Bool := false
  election : Bool := false
  phase : Word := 0
  /-- stages whose gate is forced disabled until PD6 next comes up (R324) -/
  flt : GateFlt := {}
  /-- RED_GATEFLT to RED_GATEFLT3 as they read: at reset when PD1 comes up (R6) -/
  fltReg : GateFlt := {}
  quiet : Nat := 0
  yieldNext : Option (BitVec 3) := none
  deriving DecidableEq, Repr

/-- Configuration of the pair and the state sync (R333 to R337, R342, R343). -/
structure SyncBlk where
  lost : Half := 0
  backlog : Half := 0
  last : Word := 0
  okRun : Nat := 0
  ok : Bool := false
  newest : Option SyncMsg := none
  loaded : Option Word := none
  applied : Option SyncMsg := none
  sent : Word := 0
  ackRun : Nat := 0
  /-- syncs lost, with the course in which each loss was found (R344) -/
  lostRecent : List (Word × Nat) := []
  /-- transitions of the last sync received (R335) -/
  seen : List EventRec := []
  /-- transitions this unit still repeats, each with the course of the first sync that carried it (R334) -/
  unacked : List (EventRec × Option Word) := []
  /-- the last sync and yield message sent -/
  out : Option SyncMsg := none
  yieldSent : Option (BitVec 3) := none
  deriving DecidableEq, Repr

/-- A trip lane (R79 to R81, R350 to R359). -/
structure Lane where
  tripped : Bool := false
  stale : Bool := false
  fault : Bool := false
  count : Nat := 0
  upBeyond : Bool := false
  loBeyond : Bool := false
  lastInside : Bool := false
  deriving DecidableEq, Repr

/-- A pending release (R351). -/
structure RelPend where
  req : Requester
  output : Bool := false
  target : Nat := 0
  /-- courses since it was opened, of 250 µs whether or not the course island counts them -/
  age : Nat := 0
  deriving DecidableEq, Repr

/-- A release or restore accepted and waiting for the next boundary (R351, R353). -/
structure RelAsk where
  release : Bool := true
  output : Bool := false
  target : Nat := 0
  req : Requester
  deriving DecidableEq, Repr

/-- SAFE page (ch. 13). -/
structure SafeBlk where
  forced : Bool := false
  faultRun : Byte := 0
  lastCause : BitVec 4 := 0
  restarts : Byte := 0
  sel : Tab Nat := {}
  lanes : Tab Lane := {}
  relTl : Dword := 0
  relOut : Dword := 0
  /-- lane and output release registers as S0/S1 have written them, until the next boundary (R8) -/
  relNext : Option (Dword × Dword) := none
  /-- safety outputs tripped: bits 0-31 DIO, 32-63 UC; `hold` until the next boundary (R82) -/
  outTrip : Dword := 0
  outHold : Dword := 0
  relPend : Option RelPend := none
  asks : List RelAsk := []
  accReq : Byte := 0
  accPage : Byte := 0
  accOff : BitVec 12 := 0
  accCnt : Word := 0
  courseFaults : Half := 0
  stackFaults : Byte := 0
  dramFaults : Byte := 0
  key : Option (List Byte) := none
  pd1Reset : Bool := false
  /-- courses since the watchdog was last served (R356) -/
  unserved : Nat := 0
  forceReset : Option Requester := none
  deriving DecidableEq, Repr

/-- A CAN receive queue (R377). -/
structure CanQueue where
  next : Nat := 0
  count : Nat := 0
  lost : Half := 0
  stored : Byte := 0
  accept : Word := 0
  mask : Word := 0
  deriving DecidableEq, Repr

/-- A CAN controller (R372 to R380). -/
structure CanBlk where
  cfg : Word := 0
  layout : Word := 0xFC000505
  nbit : Word := 0x014F3F0F
  dbit : Word := 0xA0014CF3
  state : BitVec 2 := 3
  gate : Bool := false
  loopDly : BitVec 7 := 0
  tec : Byte := 0
  recv : Byte := 0
  pend : Word := 0
  /-- box whose withdrawal came while it was in arbitration or transmission (R379) -/
  late : Option Nat := none
  integrated : Bool := true
  nd : Dword := 0
  rxen : Dword := 0
  q0 : CanQueue := {}
  q1 : CanQueue := {}
  noMatch : Half := 0
  errors : Half := 0
  ram : Mem := {}
  /-- frames put on the bus, newest last -/
  sent : List CanFrame := []
  deriving DecidableEq, Repr

/-- An Ethernet descriptor ring (R367). -/
structure EthRing where
  base : Word := 0
  ctl : Word := 0x00000010
  head : Half := 0
  tail : Half := 0
  drop : Word := 0
  deriving DecidableEq, Repr

/-- An Ethernet port (R363 to R369). -/
structure EthBlk where
  cfg : Word := 0x0000FA50
  link : Bool := false
  g1 : Bool := false
  mdix : Bool := false
  mac : BitVec 48 := 0
  vlan : Tab Word := {}
  cnt : Tab Word := {}
  rings : Tab EthRing := {}
  /-- frames handed to the port for the wire, newest last -/
  sent : List (List Byte) := []
  deriving DecidableEq, Repr

/-- PRP duplicate table (R365): source address and sequence number, oldest first; and the sequence
number of the next transmitted frame. -/
structure PrpBlk where
  table : List (BitVec 48 × Half) := []
  seq : Half := 0
  /-- sequence number of the next supervision frame -/
  supSeq : Half := 0
  deriving DecidableEq, Repr

/-- PTP page (R370, R371). -/
structure PtpBlk where
  time : Dword := 0
  synced : Bool := false
  valid : Bool := false
  tmo : Byte := 4
  adjLo : Word := 0
  adjHi : Word := 0
  now : Tab Dword := {}
  /-- SET (1) and STEP (2) that wait for the boundary, with their operands -/
  asked : List (BitVec 2 × Dword) := []
  deriving DecidableEq, Repr

/-- HOSTP page (R381 to R387). -/
structure HostBlk where
  rstEn : Bool := true
  /-- READs that wait for a NOR bank that is being erased or programmed (R40, R383): service port, command, address -/
  waiting : List (Bool × Byte × Word) := []
  usb : Bool := false
  cs : Bool := false
  crc : Half := 0
  format : Half := 0
  deriving DecidableEq, Repr

/-- A partition of the log store (R390): items held, oldest first, as (SEQ, bytes). -/
structure LogPart where
  head : Word := 0
  commit : Word := 0
  merged : Half := 0
  discarded : Half := 0
  items : List (Word × List Byte) := []
  size : Nat := 0
  /-- erase blocks by which failures have shrunk the ring (R400) -/
  shrunk : Nat := 0
  deriving DecidableEq, Repr

/-- Trend accumulation of one channel within the PTP second (R392). -/
structure TrendAcc where
  values : List Word := []
  invalidSeen : Bool := false
  degraded : Bool := false
  genChanged : Bool := false
  gen : Byte := 0
  deriving DecidableEq, Repr

/-- Trend accumulation of the PTP second in progress (R392). -/
structure TrendBlk where
  second : Option Dword := none
  cnFirst : Word := 0
  cnLast : Word := 0
  squares : Half := 0
  overrun : Bool := false
  notValid : Bool := false
  mirror : Bool := false
  /-- PD7 was off, or the store not READY, during the second -/
  spoiled : Bool := false
  chans : Tab TrendAcc := {}
  deriving DecidableEq, Repr

/-- A capture being taken, or the sample history of UC0-UC7 (R393): words newest last. -/
structure CapBlk where
  cfg : Word := 0
  cfgF : Word := 0
  hist : List (Stamp × Word) := []
  trig : Option (Stamp × Dword) := none
  deriving DecidableEq, Repr

/-- LOG page and store (ch. 15). -/
structure LogBlk where
  ready : Bool := false
  /-- the flush reserve was not held when the supply-loss signal was raised (R397) -/
  lossRisk : Bool := false
  fault : Bool := false
  reserveLow : Bool := false
  /-- reserve blocks left -/
  reserve : Nat := 16
  remain : Half := 1000
  maxErase : Half := 0
  wearlvl : Word := 0x64
  wearWarned : Bool := false
  addr : Word := 0
  len : Word := 0
  rseq : Word := 0
  rofs : Word := 0
  rfirst : Word := 0
  capMiss : Half := 0
  caps : Tab CapBlk := {}
  /-- channels a CAPTURE command triggers at the next boundary -/
  capAsked : Option Byte := none
  parts : Tab LogPart := {}
  latches : Tab OvLatch := {}
  served : Nat := 2047
  trend : TrendBlk := {}
  deriving DecidableEq, Repr

/-- An update of a panel area that runs (R406): its rectangle, waveform, band and energy in mJ. -/
structure PanelRun where
  fast : Bool := false
  x : Nat := 0
  y : Nat := 0
  w : Nat := 0
  h : Nat := 0
  band : Nat := 0
  energy : Nat := 0
  /-- waveform duration, ms -/
  dur : Nat := 0
  /-- course in which the drive began: the copy is done -/
  start : Option Word := none
  /-- the pixels copied, row by row -/
  pix : List Byte := []
  deriving DecidableEq, Repr

/-- A panel area (R407). -/
structure PanelArea where
  run : Option PanelRun := none
  pend : Option Bool := none
  since : Nat := 0
  lost : Half := 0
  doneCn : Word := 0
  deriving DecidableEq, Repr

/-- PANEL page and glass (ch. 16). -/
structure PanelBlk where
  ready : Bool := false
  crack : Bool := false
  cold : Bool := false
  banner : Bool := false
  trimBad : Bool := false
  band : Nat := 0
  glass : Half := 0
  loopRef : Half := 2000
  loopMeas : Half := 0
  clkOfs : Word := 0
  pos : Bool := false
  /-- last content update: PTP_CTL.VALID then, and its PTP time in whole seconds -/
  last : Option (Bool × Nat) := none
  /-- areas 0-31; 32 runs the banner, 33 a clear or redraw of the whole panel -/
  areas : Tab PanelArea := {}
  ticket : Nat := 0
  /-- drives of a CLEAR_PANEL still to be done, and of the start-up redraw -/
  clears : Nat := 0
  redraws : Nat := 0
  /-- the supply-loss banner is still to be judged and drawn (R413) -/
  bannerOwed : Bool := false
  /-- no crack-loop reading since PD7 came up (R417) -/
  firstLoop : Bool := true
  frame : Mem := {}
  target : Mem := {}
  glassImg : Mem := {}
  /-- intent journal: areas whose record is not done (R415); 32 stands for the banner, 33 a clear -/
  intent : List Nat := []
  deriving DecidableEq, Repr

/-- Byte memories of the core address map (spec/01): code flash, SRAM, DRAM by their addresses, and
the four private TCMs. -/
structure MemBlk where
  main : Mem := {}
  tcm : Tab Mem := {}
  deriving DecidableEq, Repr

/-- What the last read returned to its requester: the words, and the host port's status byte. -/
structure Resp where
  words : List Word := []
  hostStatus : Option Byte := none
  busError : Bool := false
  /-- CRC byte of a host READ (R381) -/
  nodeCrc : Option Byte := none
  deriving DecidableEq, Repr

/-- The whole block. -/
structure State where
  hdrs : Tab PageHdr := {}
  sys : SysBlk := {}
  sup : SupBlk := {}
  clk : ClkBlk := {}
  course : CourseBlk := {}
  plan : PlanBlk := {}
  loader : LoaderBlk := {}
  square : SquareBlk := {}
  alarm : AlarmBlk := {}
  evq : EvqBlk := {}
  ucs : Tab UcChan := {}
  lis : Tab LiChan := {}
  tiles : Tab Tile := {}
  maint : MaintBlk := {}
  cal : CalBlk := {}
  tileCal : Tab TileCal := {}
  hart : HartBlk := {}
  dig : DigBlk := {}
  icu : IcuBlk := {}
  red : RedBlk := {}
  sync : SyncBlk := {}
  safe : SafeBlk := {}
  cans : Tab CanBlk := {}
  eths : Tab EthBlk := {}
  prp : PrpBlk := {}
  ptp : PtpBlk := {}
  host : HostBlk := {}
  log : LogBlk := {}
  panel : PanelBlk := {}
  mem : MemBlk := {}
  resp : Resp := {}
  /-- the MODEL's own counter of free values (log entry 7) -/
  free : Nat := 0
  pending : List Instr := []
  deriving DecidableEq, Repr

/-- The machine right after reset: every field at its reset value, the queue empty (R6, R428). -/
def State.reset : State := {}

end Sys2Proof.Machine
end

