-- ==== Sys2Proof/Machine/Ops.lean ====
section
/-! DEFINITION. The named operations every meaning is built from: sparse banks and byte memories, bit
fields, domains, page headers, events and the command machinery of a page. -/

namespace Sys2Proof

/-- First entry under `i`. -/
def Tab.find {α : Type} : List (Nat × α) → Nat → Option α
  | [], _ => none
  | (k, x) :: r, i => if k = i then some x else Tab.find r i

/-- Places `v` under `i`, keys rising. -/
def Tab.place {α : Type} : List (Nat × α) → Nat → α → List (Nat × α)
  | [], i, v => [(i, v)]
  | (k, x) :: r, i, v =>
    if i < k then (i, v) :: (k, x) :: r
    else if i = k then (i, v) :: r
    else (k, x) :: Tab.place r i v

/-- Entry `i` of the bank; `d` is what an unlisted entry holds. -/
def Tab.get {α : Type} (t : Tab α) (d : α) (i : Nat) : α := (Tab.find t.cells i).getD d

/-- The entry, if listed. -/
def Tab.get? {α : Type} (t : Tab α) (i : Nat) : Option α := Tab.find t.cells i

def Tab.set {α : Type} (t : Tab α) (i : Nat) (v : α) : Tab α := ⟨Tab.place t.cells i v⟩

def Tab.upd {α : Type} (t : Tab α) (d : α) (i : Nat) (f : α → α) : Tab α := t.set i (f (t.get d i))

/-- Removes the entry. -/
def Tab.erase {α : Type} (t : Tab α) (i : Nat) : Tab α := ⟨t.cells.filter (fun c => c.1 ≠ i)⟩

/-- The listed keys. -/
def Tab.keys {α : Type} (t : Tab α) : List Nat := t.cells.map Prod.fst

/-- Strictly rising keys. -/
def Tab.rising {α : Type} : List (Nat × α) → Bool
  | [] => true
  | [_] => true
  | (k, _) :: (k', x') :: r => decide (k < k') && Tab.rising ((k', x') :: r)

/-- The canonical form of a byte memory whose unlisted bytes read `d`. -/
def Mem.wf (d : Byte) (m : Mem) : Bool := Tab.rising m.cells && m.cells.all (fun c => c.2 ≠ d)

def Mem.read (d : Byte) (m : Mem) (a : Nat) : Byte := (Tab.find m.cells a).getD d

/-- Drops the entry of `a` from a rising list. -/
def Mem.drop : List (Nat × BitVec 8) → Nat → List (Nat × BitVec 8)
  | [], _ => []
  | (k, x) :: r, a => if k = a then r else (k, x) :: Mem.drop r a

/-- Writes one byte; writing what an unlisted address reads as removes the entry. -/
def Mem.write (d : Byte) (m : Mem) (a : Nat) (b : Byte) : Mem :=
  if b = d then ⟨Mem.drop m.cells a⟩ else ⟨Tab.place m.cells a b⟩

def Mem.readN (d : Byte) (m : Mem) (a : Nat) : Nat → List Byte
  | 0 => []
  | n + 1 => Mem.read d m a :: Mem.readN d m (a + 1) n

def Mem.writeN (d : Byte) (m : Mem) (a : Nat) : List Byte → Mem
  | [] => m
  | b :: r => Mem.writeN d (Mem.write d m a b) (a + 1) r

/-- Little-endian value of bytes. -/
def leNat : List Byte → Nat
  | [] => 0
  | b :: r => b.toNat + 256 * leNat r

/-- The low `n` bytes of a number, little-endian. -/
def leBytes : Nat → Nat → List Byte
  | 0, _ => []
  | n + 1, v => BitVec.ofNat 8 v :: leBytes n (v / 256)

/-- `len` bits of a word from bit `lo`. -/
def fld {n : Nat} (w : BitVec n) (lo len : Nat) : Nat := w.toNat / 2 ^ lo % 2 ^ len

def bitAt {n : Nat} (w : BitVec n) (i : Nat) : Bool := w.getLsbD i

/-- A word with one bit set or cleared. -/
def setBit {n : Nat} (w : BitVec n) (i : Nat) (v : Bool) : BitVec n :=
  if v then w ||| BitVec.ofNat n (2 ^ i) else w &&& ~~~ (BitVec.ofNat n (2 ^ i))

/-- A word assembled from (low bit, value) fields. -/
def pack (n : Nat) (l : List (Nat × Nat)) : BitVec n :=
  BitVec.ofNat n (l.foldl (fun a x => a + x.2 * 2 ^ x.1) 0)

def b2n (b : Bool) : Nat := if b then 1 else 0

/-- A count that saturates at all ones. -/
def satInc {n : Nat} (w : BitVec n) : BitVec n := if w = BitVec.allOnes n then w else w + 1

/-- Clamp of a number to `n` bits, saturating. -/
def satNat (n v : Nat) : BitVec n := BitVec.ofNat n (min v (2 ^ n - 1))

/-- Requester code of R308. -/
def Requester.code : Requester → Nat
  | .a0 => 1 | .a1 => 2 | .a2 => 3 | .a3 => 4 | .host => 5 | .safe => 7

/-- Reader number: A0 to A3 are 0 to 3, HOST 4, SAFE 5 (R243, R254). -/
def Requester.reader : Requester → Nat
  | .a0 => 0 | .a1 => 1 | .a2 => 2 | .a3 => 3 | .host => 4 | .safe => 5

/-- A 32-bit word of a time stamp: [31:16] CN low part, [15:0] sub-course offset (R261). -/
def Stamp.word (t : Stamp) : Word := pack 32 [(16, t.cn.toNat), (0, t.sub.toNat)]

end Sys2Proof

namespace Sys2Proof.Machine

/-- What a meaning answers. -/
abbrev Out := Host.Outcome State Fault Refusal

/-- Class, instance and domain of a page (R439); absent pages have none (R1). -/
def pageInfo (v : Variant) (p : Nat) : Option (Nat × Nat × Nat) :=
  if p < 0x03 then some (p + 1, 0, 0)
  else if p = 0x08 then some (0x08, 0, 2)
  else if 0x09 ≤ p ∧ p ≤ 0x0D then some (0x09, p - 0x09, 2)
  else if 0x10 ≤ p ∧ p ≤ 0x15 then some (p, 0, 3)
  else if p = 0x18 then some (p, 0, 1)
  else if 0x20 ≤ p ∧ p ≤ 0x23 then some (0x20, p - 0x20, 4)
  else if 0x24 ≤ p ∧ p ≤ 0x29 then some (0x24, p - 0x24, 5)
  else if p = 0x2A ∨ p = 0x2B then some (p, 0, 3)
  else if p = 0x30 ∨ p = 0x31 then some (p, 0, 6)
  else if 0x38 ≤ p ∧ p ≤ 0x3B then some (0x38, p - 0x38, 7)
  else if p = 0x3C ∨ p = 0x3D then some (0x3C, p - 0x3C, 7)
  else if p = 0x3E then some (p, 0, 7)
  else if p = 0x40 then some (p, 0, 7)
  else if p = 0x41 ∧ v = .p then some (p, 0, 7)
  else if p = 0x48 then some (p, 0, 1)
  else if p = 0x49 then some (p, 0, 7)
  else none

/-- The domain of a page that exists. -/
def pageDom (s : State) (p : Nat) : Option Nat := (pageInfo s.sys.variant p).map (fun x => x.2.2)

/-- Whether a power domain is up. -/
def domUp (s : State) (d : Nat) : Bool := s.sys.domOn.getLsbD d

/-- Whether a domain takes writes: up, and not being switched off (R27). -/
def domTakes (s : State) (d : Nat) : Bool :=
  domUp s d && (match s.sys.switching with
    | some (m, false) => !m.getLsbD d
    | _ => true)

def hdr (s : State) (p : Nat) : PageHdr := s.hdrs.get {} p

def updHdr (p : Nat) (f : PageHdr → PageHdr) (s : State) : State :=
  { s with hdrs := s.hdrs.upd {} p f }

/-- The level of a page interrupt, by its header (R291). -/
def hdrLevel (h : PageHdr) : Bool := (h.sticky &&& h.irqen) ≠ 0

/-- A header that was `old`: a level that has risen is an occurrence on its way to the ICU (R292). -/
def hdrEdge (old new : PageHdr) : PageHdr :=
  { new with edges := if !hdrLevel old && hdrLevel new then old.edges + 1 else old.edges }

/-- Sets one bit of PG_STICKY (R443). -/
def setSticky (p bit : Nat) (s : State) : State :=
  updHdr p (fun h => hdrEdge h { h with sticky := setBit h.sticky bit true }) s

/-- One pulse more for each of the five targets of the ICU (R290). -/
def pulseAll (t : Tab Nat) : Tab Nat := [0, 1, 2, 3, 4].foldl (fun t k => t.upd 0 k (· + 1)) t

/-- One more applied write (R22). -/
def countWrite (p : Nat) (s : State) : State := updHdr p (fun h => { h with sync := h.sync + 1 }) s

/-- The first access to a domain that is off sets OFFDOM (R26), a write that its switching off drops among them (log entry
105). -/
def offAccess (d : Nat) (s : State) : State :=
  if s.sys.offSeen.getLsbD d then s
  else setSticky 0 8 { s with sys.offSeen := setBit s.sys.offSeen d true }

/-- PTP time at this moment: that of the boundary and a free time inside the course (log entry 7). -/
def ptpNow (s : State) : Dword :=
  s.ptp.time + BitVec.ofNat 64 (Config.subCourse s.free % 250000)

/-- Raises one event record (R307): it goes on its way to the queues, while the course island is up. -/
def raiseEv (cls code source : Nat) (data : BitVec 96) (s : State) : State :=
  if domUp s 3 then
    { s with
      evq.inflight := s.evq.inflight ++
        [{ cn := s.course.cn, ptp := ptpNow s, cls := BitVec.ofNat 8 cls, code := BitVec.ofNat 8 code,
           source := BitVec.ofNat 16 source, data := data }]
      free := s.free + 1 }
  else s

/-- A BLOCK event of a page (R308). -/
def blockEv (page code : Nat) (data : Nat) (s : State) : State :=
  raiseEv 2 code page (BitVec.ofNat 96 data) s

/-- Status codes of PG_CMDRES (R445). -/
inductive CStat where
  | ok | badOpcode | badArg | state | busy | denied | hwFault | aborted
  deriving DecidableEq, Repr

def CStat.code : CStat → BitVec 7
  | .ok => 0 | .badOpcode => 1 | .badArg => 2 | .state => 3 | .busy => 4 | .denied => 5
  | .hwFault => 6 | .aborted => 7

/-- How a command's own work leaves it: ended, or still running with BUSY = 1. -/
inductive CmdEnd where
  | done (st : CStat) (result : Nat) (s : State)
  | hold (s : State)

/-- Ends the command of a page: BUSY 0, status and result together; a STATE refusal sets CMD_STATE
and raises a COMMAND event (R444, R445, R308). -/
def finishCmd (p : Nat) (st : CStat) (result : Nat) (s : State) : State :=
  let h := hdr s p
  let s1 := updHdr p (fun h => { h with
    busy := false, status := st.code, result := BitVec.ofNat 24 result, run := none }) s
  match st with
  | .state =>
    match h.run with
    | some r => raiseEv 3 r.op.toNat p
        (BitVec.ofNat 96 (r.arg.toNat + Requester.code r.by_ * 2 ^ 24 + st.code.toNat * 2 ^ 32))
        (setSticky p 1 s1)
    | none => setSticky p 1 s1
  | _ => s1

/-- Takes a command: BUSY, PENDING, PG_SEQ and PG_SYNC (R444, R22). -/
def takeCmd (p : Nat) (req : Requester) (op : Nat) (arg : BitVec 24) (s : State) : State :=
  updHdr p (fun h => { h with
    busy := true, status := 0x7F, result := 0, seq := h.seq + 1, sync := h.sync + 1,
    run := some ⟨req, BitVec.ofNat 8 op, arg⟩ }) s

/-- A PG_CMD write (R23, R26, R444): dropped on a page that is absent or off, discarded while the page is
BUSY, otherwise taken and carried out by `body`. -/
def issueCmd (p : Nat) (req : Requester) (op : Nat) (arg : BitVec 24)
    (body : State → CmdEnd) (s : State) : State :=
  match pageDom s p with
  | none => s
  | some d =>
    if domTakes s d then
      if (hdr s p).busy then setSticky p 2 s
      else
        match body (takeCmd p req op arg s) with
        | .done st r s' => finishCmd p st r s'
        | .hold s' => s'
    else offAccess d s

/-- Ends a running command if it is the one named (its opcode), otherwise nothing. -/
def endIfRunning (p op : Nat) (st : CStat) (result : Nat) (s : State) : State :=
  match (hdr s p).run with
  | some r => if r.op.toNat = op then finishCmd p st result s else s
  | none => s

/-- Whether an argument has a bit set outside `mask` (R444). -/
def argOutside (arg : BitVec 24) (mask : Nat) : Bool := (arg &&& ~~~ (BitVec.ofNat 24 mask)) ≠ 0

/-- A register write that a page applies: counted if the page's domain takes writes (R22, R26). -/
def pageWrite (p : Nat) (apply : State → State) (s : State) : State :=
  match pageDom s p with
  | none => s
  | some d => if domTakes s d then countWrite p (apply s) else offAccess d s

/-- The same for a write the page's block may drop: `apply` says whether it was applied. -/
def pageWriteIf (p : Nat) (apply : State → State × Bool) (s : State) : State :=
  match pageDom s p with
  | none => s
  | some d =>
    if domTakes s d then
      match apply s with
      | (s', true) => countWrite p s'
      | (s', false) => s'
    else offAccess d s

/-- Courses from the start stored in State to now, modulo 2^32. -/
def since (s : State) (start : Word) : Nat := (s.course.cn - start).toNat

/-- CN low part and sub-course offset now (R261). -/
def stampNow (s : State) (sub : Half) : Stamp := ⟨s.course.cn.setWidth 16, sub⟩

def iterate {α : Type} (f : α → α) : Nat → α → α
  | 0, x => x
  | n + 1, x => iterate f n (f x)

/-- The numbers below `n` that pass `p`. -/
def below (n : Nat) (p : Nat → Bool) : List Nat := (List.range n).filter p

def popcount (w : Nat) : Nat → Nat
  | 0 => 0
  | n + 1 => popcount w n + (if w.testBit n then 1 else 0)

/-- The units this unit's straps leave alone. -/
def isSolo (s : State) : Bool := s.red.role = .solo

/-- This unit's gates may be enabled: it is active or SOLO with a claim (R324). -/
def claimed (s : State) : Bool := s.red.own ≠ 0

end Sys2Proof.Machine
end

