-- ==== Sys2Proof/Machine/Float.lean ====
section
/-! DEFINITION. IEEE 754 binary64 and binary32 arithmetic, round to nearest even, no fused operation
(R203, R217, R471). -/

namespace Sys2Proof

/-- A binary format: mantissa bits and exponent bits. -/
structure Fmt where
  mant : Nat
  exp : Nat
  deriving DecidableEq, Repr

def fmt64 : Fmt := ⟨52, 11⟩
def fmt32 : Fmt := ⟨23, 8⟩

/-- A decoded number: a finite one is (−1)^neg × m × 2^e. -/
inductive Fl where
  | fin (neg : Bool) (m : Nat) (e : Int)
  | inf (neg : Bool)
  | nan
  deriving DecidableEq, Repr

def Fmt.bias (f : Fmt) : Int := 2 ^ (f.exp - 1) - 1

/-- Decodes a bit pattern. -/
def Fmt.dec (f : Fmt) (w : Nat) : Fl :=
  let neg := w / 2 ^ (f.mant + f.exp) % 2 = 1
  let x := w / 2 ^ f.mant % 2 ^ f.exp
  let m := w % 2 ^ f.mant
  if x = 2 ^ f.exp - 1 then (if m = 0 then .inf neg else .nan)
  else if x = 0 then .fin neg m (1 - f.bias - f.mant)
  else .fin neg (m + 2 ^ f.mant) (x - f.bias - f.mant)

def Fmt.sign (f : Fmt) (neg : Bool) : Nat := if neg then 2 ^ (f.mant + f.exp) else 0

/-- Bit pattern of an infinity. -/
def Fmt.infBits (f : Fmt) (neg : Bool) : Nat := f.sign neg + (2 ^ f.exp - 1) * 2 ^ f.mant

/-- Bit pattern of the quiet NaN. -/
def Fmt.nanBits (f : Fmt) : Nat := (2 ^ f.exp - 1) * 2 ^ f.mant + 2 ^ (f.mant - 1)

/-- Rounds (num / den) × 2^e to nearest, ties to even. -/
def Fmt.round (f : Fmt) (neg : Bool) (num den : Nat) (e : Int) : Nat :=
  if num = 0 ∨ den = 0 then f.sign neg
  else
    let x0 : Int := (Nat.log2 num : Int) - Nat.log2 den
    let small := if 0 ≤ x0 then num < den * 2 ^ x0.toNat else num * 2 ^ (-x0).toNat < den
    let top := (if small then x0 - 1 else x0) + e
    let u : Int := max top (1 - f.bias) - f.mant
    let n := if u ≤ e then num * 2 ^ (e - u).toNat else num
    let d := if u ≤ e then den else den * 2 ^ (u - e).toNat
    let q := n / d
    let r := n % d
    let q' := if d < 2 * r ∨ (2 * r = d ∧ q % 2 = 1) then q + 1 else q
    let bits := q' + (u + f.mant + f.bias - 1).toNat * 2 ^ f.mant
    f.sign neg + min bits ((2 ^ f.exp - 1) * 2 ^ f.mant)

/-- Encodes a decoded number. -/
def Fmt.enc (f : Fmt) : Fl → Nat
  | .fin neg m e => f.round neg m 1 e
  | .inf neg => f.infBits neg
  | .nan => f.nanBits

/-- Exact sum of two finite numbers as a signed integer times a power of two. -/
def flSum (n1 : Bool) (m1 : Nat) (e1 : Int) (n2 : Bool) (m2 : Nat) (e2 : Int) : Int × Int :=
  let e := min e1 e2
  let a : Int := m1 * 2 ^ (e1 - e).toNat
  let b : Int := m2 * 2 ^ (e2 - e).toNat
  ((if n1 then -a else a) + (if n2 then -b else b), e)

def Fmt.addFl (f : Fmt) : Fl → Fl → Nat
  | .nan, _ => f.nanBits
  | _, .nan => f.nanBits
  | .inf a, .inf b => if a = b then f.infBits a else f.nanBits
  | .inf a, _ => f.infBits a
  | _, .inf b => f.infBits b
  | .fin n1 m1 e1, .fin n2 m2 e2 =>
    let r := flSum n1 m1 e1 n2 m2 e2
    if r.1 = 0 then f.sign (n1 && n2)
    else f.round (r.1 < 0) r.1.natAbs 1 r.2

def Fmt.mulFl (f : Fmt) : Fl → Fl → Nat
  | .nan, _ => f.nanBits
  | _, .nan => f.nanBits
  | .inf a, .inf b => f.infBits (a != b)
  | .inf a, .fin b m _ => if m = 0 then f.nanBits else f.infBits (a != b)
  | .fin a m _, .inf b => if m = 0 then f.nanBits else f.infBits (a != b)
  | .fin a m1 e1, .fin b m2 e2 => f.round (a != b) (m1 * m2) 1 (e1 + e2)

def Fmt.divFl (f : Fmt) : Fl → Fl → Nat
  | .nan, _ => f.nanBits
  | _, .nan => f.nanBits
  | .inf _, .inf _ => f.nanBits
  | .inf a, .fin b _ _ => f.infBits (a != b)
  | .fin a _ _, .inf b => f.sign (a != b)
  | .fin a m1 e1, .fin b m2 e2 =>
    if m2 = 0 then (if m1 = 0 then f.nanBits else f.infBits (a != b))
    else f.round (a != b) m1 m2 (e1 - e2)

/-- Integer square root, one bit at a time from bit `k` down. -/
def isqrtFrom : Nat → Nat → Nat → Nat
  | 0, n, r => if (r + 1) * (r + 1) ≤ n then r + 1 else r
  | k + 1, n, r =>
    let t := r + 2 ^ (k + 1)
    isqrtFrom k n (if t * t ≤ n then t else r)

def isqrt (n : Nat) : Nat := isqrtFrom (Nat.log2 n / 2 + 1) n 0

def Fmt.sqrtFl (f : Fmt) : Fl → Nat
  | .nan => f.nanBits
  | .inf neg => if neg then f.nanBits else f.infBits false
  | .fin neg m e =>
    if m = 0 then f.sign neg
    else if neg then f.nanBits
    else
      let k : Nat := 2 * f.mant + 8
      let s : Nat := if (e - k) % 2 = 0 then k else k + 1
      let n := m * 2 ^ s
      let r := isqrt n
      let h := (e - s) / 2
      if r * r = n then f.round false r 1 h else f.round false (2 * r + 1) 1 (h - 1)

def Fl.neg : Fl → Fl
  | .fin n m e => .fin (!n) m e
  | .inf n => .inf (!n)
  | .nan => .nan

/-- `some` of the sign of a − b (−1, 0, 1); none if either is a NaN. -/
def flCmp : Fl → Fl → Option Int
  | .nan, _ => none
  | _, .nan => none
  | .inf a, .inf b => if a = b then some 0 else if a then some (-1) else some 1
  | .inf a, _ => if a then some (-1) else some 1
  | _, .inf b => if b then some 1 else some (-1)
  | .fin n1 m1 e1, .fin n2 m2 e2 => some ((flSum n1 m1 e1 (!n2) m2 e2).1.sign)

def d64 (w : Dword) : Fl := fmt64.dec w.toNat
def d32 (w : Word) : Fl := fmt32.dec w.toNat

def fadd (a b : Dword) : Dword := BitVec.ofNat 64 (fmt64.addFl (d64 a) (d64 b))
def fsub (a b : Dword) : Dword := BitVec.ofNat 64 (fmt64.addFl (d64 a) (d64 b).neg)
def fmul (a b : Dword) : Dword := BitVec.ofNat 64 (fmt64.mulFl (d64 a) (d64 b))
def fdiv (a b : Dword) : Dword := BitVec.ofNat 64 (fmt64.divFl (d64 a) (d64 b))
def fsqrt (a : Dword) : Dword := BitVec.ofNat 64 (fmt64.sqrtFl (d64 a))

/-- a < b; false with a NaN. -/
def flt (a b : Dword) : Bool := flCmp (d64 a) (d64 b) = some (-1)
def fle (a b : Dword) : Bool := match flCmp (d64 a) (d64 b) with
  | some c => c ≤ 0
  | none => false

def fabs (a : Dword) : Dword := a &&& 0x7FFFFFFFFFFFFFFF
def fneg (a : Dword) : Dword := a ^^^ 0x8000000000000000

/-- binary32 widened to binary64 (exact). -/
def f32to64 (a : Word) : Dword := BitVec.ofNat 64 (fmt64.enc (d32 a))

/-- binary64 rounded to binary32. -/
def f64to32 (a : Dword) : Word := BitVec.ofNat 32 (fmt32.enc (d64 a))

/-- An integer rounded to binary64. -/
def f64ofInt (i : Int) : Dword := BitVec.ofNat 64 (fmt64.round (i < 0) i.natAbs 1 0)

/-- The ratio i / d rounded to binary64. -/
def f64ofRatio (i : Int) (d : Nat) : Dword := BitVec.ofNat 64 (fmt64.round (i < 0) i.natAbs d 0)

/-- The ratio i / d rounded to binary32. -/
def f32ofRatio (i : Int) (d : Nat) : Word := BitVec.ofNat 32 (fmt32.round (i < 0) i.natAbs d 0)

/-- Neither a NaN nor an infinity. -/
def f64finite (a : Dword) : Bool := match d64 a with
  | .fin _ _ _ => true
  | _ => false

def f32finite (a : Word) : Bool := match d32 a with
  | .fin _ _ _ => true
  | _ => false

def f32nan (a : Word) : Bool := match d32 a with
  | .nan => true
  | _ => false

/-- The integer part of k × |a|, 0 for what is not finite. -/
def f64scaledNat (a : Dword) (k : Nat) : Nat := match d64 a with
  | .fin _ m e => if 0 ≤ e then m * k * 2 ^ e.toNat else m * k / 2 ^ (-e).toNat
  | _ => 0

/-- a clamped to [lo, hi]; a NaN becomes lo (log entry 82). -/
def fclamp (lo hi a : Dword) : Dword := if flt hi a then hi else if fle lo a then a else lo

/-- The quiet NaN of records (R122). -/
def qnan32 : Word := 0x7FC00000

end Sys2Proof
end

