-- ==== Sys2Proof/Machine/Bodies.lean ====
section
/-! DEFINITION. The bodies of plan entries: their fields, the length of each layout, what makes one malformed
(R70, R84, R85, R124, R134, R153, R166, R173, R186, R248, R249, R287, R342, R405, R468) and the targets each
names (R470). -/

namespace Sys2Proof.Machine

def bAt (b : List Byte) (o : Nat) : Nat := (b.getD o 0).toNat
def u16At (b : List Byte) (o : Nat) : Nat := bAt b o + 256 * bAt b (o + 1)
def u32At (b : List Byte) (o : Nat) : Nat := u16At b o + 65536 * u16At b (o + 2)
def u64At (b : List Byte) (o : Nat) : Nat := u32At b o + 4294967296 * u32At b (o + 4)
def w32At (b : List Byte) (o : Nat) : Word := BitVec.ofNat 32 (u32At b o)
def w64At (b : List Byte) (o : Nat) : Dword := BitVec.ofNat 64 (u64At b o)
def i32At (b : List Byte) (o : Nat) : Int := (w32At b o).toInt

def bits (v lo len : Nat) : Nat := v / 2 ^ lo % 2 ^ len

/-- `n` bytes from offset `o` are 0. -/
def zeroAt (b : List Byte) (o n : Nat) : Bool := ((b.drop o).take n).all (· = 0)

/-- A binary32 within [lo, hi]; false for a NaN. -/
def f32In (w : Word) (lo hi : Int) : Bool :=
  (match flCmp (d32 w) (.fin (lo < 0) lo.natAbs 0) with
   | some c => 0 ≤ c
   | none => false) &&
  (match flCmp (d32 w) (.fin (hi < 0) hi.natAbs 0) with
   | some c => c ≤ 0
   | none => false)

/-- a ≤ b for binary32 values. -/
def f32le (a b : Word) : Bool := match flCmp (d32 a) (d32 b) with
  | some c => c ≤ 0
  | none => false

def f32lt (a b : Word) : Bool := flCmp (d32 a) (d32 b) = some (-1)

/-! Channel entries (R124, R153, R186). -/

/-- Range of the drive value of an output mode (R127). -/
def outRange (mode : Nat) : Int × Int :=
  if mode = 10 then (-10, 10) else if mode = 11 then (0, 100) else (0, 24)

/-- Whether a UC CFG combination is allowed (R91, R95, R118); `c` is the channel.  A fast rate belongs to modes 5 and
6 alone, and an output mode ignores the other fields (R127). -/
def ucCfgOk (c cfg : Nat) : Bool :=
  let mode := bits cfg 28 4
  let rate := bits cfg 24 4
  if mode = 0 then rate ≤ 5
  else if mode ≤ 4 then rate ≤ 5 && !(mode = 3 && bits cfg 22 2 = 3)
  else if mode ≤ 6 then 8 ≤ rate && rate ≤ 13 && c < 8
  else 8 ≤ mode && mode ≤ 11

/-- Whether an LI CFG combination is allowed (R159, R182, R186). -/
def liCfgOk (cfg : Nat) : Bool :=
  bits cfg 28 4 ≤ 1 && bits cfg 24 4 ≤ 5 && !(bits cfg 22 1 = 1 && bits cfg 18 4 = 0)

def entDX (b : List Byte) : Nat := bits (bAt b 0x0E) 0 3
def entDT (b : List Byte) : Nat := bits (bAt b 0x0E) 4 2
def entNbiq (b : List Byte) : Nat := bAt b 0x0F
def entTsrc (b : List Byte) : Nat := u16At b 0x0C
def entOutOfs (b : List Byte) : Nat := u32At b 0x10
def entCharOfs (b : List Byte) : Nat := u32At b 0x14

/-- End of the biquads and coefficients. -/
def entCoefEnd (b : List Byte) : Nat := 0x18 + 40 * entNbiq b + 8 * ((entDX b + 1) * (entDT b + 1))

/-- Offset of coefficient c_ij. -/
def entCoef (b : List Byte) (i j : Nat) : Dword :=
  w64At b (0x18 + 40 * entNbiq b + 8 * (i * (entDT b + 1) + j))

/-- T_SRC codes of the table of R124; a loop channel may not name 0x0002 (R186). -/
def tsrcOk (loop : Bool) (t : Nat) : Bool :=
  t = 0 || t = 1 || (t = 2 && !loop) || (0x100 ≤ t && t < 0x100 + 32) || (0x200 ≤ t && t < 0x200 + 48)

/-- Characteristic block at `o` (R166): its end, if well formed. -/
def charEnd (b : List Byte) (o : Nat) : Option Nat :=
  let kind := bAt b o
  let n := bAt b (o + 1)
  if b.length < o + 0x20 ∨ u16At b (o + 2) ≠ 0 ∨ u32At b (o + 0x1C) ≠ 0 then none
  else if kind = 1 then
    if n = 0 ∧ f32lt (w32At b (o + 4)) (w32At b (o + 8)) = true
        ∧ f32In (w32At b (o + 0x14)) 0 1 = true ∧ f32le (w32At b (o + 0x14)) 0x3E4CCCCD = true
        ∧ f32In (w32At b (o + 0x18)) 0 1 = true ∧ f32le (w32At b (o + 0x18)) 0x3D4CCCCD = true
    then some (o + 0x20) else none
  else if kind = 2 then
    if 2 ≤ n ∧ n ≤ 32 ∧ zeroAt b (o + 4) 24 = true ∧ o + 0x20 + 8 * n ≤ b.length
        ∧ (List.range (n - 1)).all (fun i =>
            f32lt (w32At b (o + 0x20 + 8 * i)) (w32At b (o + 0x28 + 8 * i))) = true
    then some (o + 0x20 + 8 * n) else none
  else none

/-- Output block at `o` for an output mode (R153, R134). -/
def outBlockOk (b : List Byte) (o mode : Nat) : Bool :=
  let octl := u32At b o
  let fa := bits octl 24 2
  let ra := bAt b (o + 0x15)
  let (lo, hi) := outRange mode
  o + 32 ≤ b.length
    && bits octl 31 1 = 0 && bits octl 26 5 = 0 && bits octl 14 10 = 0 && bits octl 0 14 ≤ 10000
    && f32In (w32At b (o + 4)) lo hi && f32In (w32At b (o + 8)) lo hi && f32In (w32At b (o + 0x18)) lo hi
    && !f32lt (w32At b (o + 0x10)) (w32At b (o + 0x0C))
    && bAt b (o + 0x14) < 4 && ra ≤ 2 && u16At b (o + 0x16) = 0 && u32At b (o + 0x1C) = 0
    && !((mode = 10 || mode = 11) && (fa = 1 || fa = 2 || ra = 1))

/-- End of a channel entry's tables, if well formed (types 0x01 and 0x02). -/
def chanEnd (loop : Bool) (c : Nat) (b : List Byte) : Option Nat :=
  let cfg := u32At b 0
  let mode := bits cfg 28 4
  let core := entCoefEnd b
  let oo := entOutOfs b
  let co := entCharOfs b
  if b.length < 0x18 ∨ 4 < entNbiq b ∨ b.length < core ∨ tsrcOk loop (entTsrc b) = false
      ∨ bits (bAt b 0x0E) 3 1 ≠ 0 ∨ bits (bAt b 0x0E) 6 2 ≠ 0 then none
  else if loop = true ∧ (liCfgOk cfg = false ∨ bits cfg 0 17 ≠ 0 ∨ u32At b 8 ≠ 0 ∨ oo ≠ 0) then none
  else if loop = false ∧ (ucCfgOk c cfg = false ∨ bits cfg 0 18 ≠ 0 ∨ bits (u32At b 4) 20 12 ≠ 0
      ∨ (8 ≤ mode ↔ oo = 0)) then none
  else if oo ≠ 0 ∧ (oo < core ∨ outBlockOk b oo mode = false) then none
  else
    let e1 := if oo = 0 then core else oo + 32
    if co = 0 then some e1
    else if co < core then none
    else match charEnd b co with
      | none => none
      | some e => if oo ≠ 0 ∧ co < oo + 32 ∧ oo < e then none else some (max e1 e)

/-! Digital channels (R272, R287). -/

/-- Whether a DIO or DI CFG combination is allowed by the mode table (R271, R272). -/
def digCfgOk (di : Bool) (cfg : Nat) : Bool :=
  let mode := bits cfg 28 4
  mode ≤ (if di then 1 else 3) && (bits cfg 27 1 = 0 || mode = 1)
    && (di || ((bits cfg 25 2 = 0 || mode = 2) && (bits cfg 24 1 = 0 || mode = 3)))

def digBodyOk (di : Bool) (b : List Byte) : Bool :=
  let cfg := u32At b 0
  16 ≤ b.length && digCfgOk di cfg && (if di then bits cfg 0 27 = 0 else bits cfg 0 12 = 0)
    && u32At b 4 ≠ 0 && u32At b 4 < 65536
    && (if di then bAt b 8 = 0 && bAt b 9 = 0 else bAt b 8 ≤ 1 && bAt b 9 ≤ 1) && zeroAt b 10 6

/-! Alarm points (R248). -/

def ptKind (b : List Byte) : Nat := bAt b 0
def ptSrcType (b : List Byte) : Nat := bAt b 1
def ptSrc (b : List Byte) : Nat := u16At b 2
def ptGroup (b : List Byte) : Nat := bAt b 4
def ptSummary (b : List Byte) : Option Nat := if bits (bAt b 6) 0 1 = 1 then some (bAt b 5) else none
def ptLatch (b : List Byte) : Bool := bits (bAt b 6) 1 1 = 1
def ptNoInhibit (b : List Byte) : Bool := bits (bAt b 6) 2 1 = 1
def ptLevel (b : List Byte) : Bool := bits (bAt b 6) 3 1 = 1
def ptDir (b : List Byte) : Nat := bits (bAt b 6) 4 2
def ptBlockInv (b : List Byte) : Bool := bits (bAt b 6) 6 1 = 1
def ptActDio (b : List Byte) : Nat := bAt b 7
def ptLimit (b : List Byte) : Word := w32At b 8
def ptHyst (b : List Byte) : Word := w32At b 0x0C
def ptOnDelay (b : List Byte) : Nat := u32At b 0x10
def ptOffDelay (b : List Byte) : Nat := u32At b 0x14
def ptFaultDelay (b : List Byte) : Nat := u32At b 0x18
def ptRelease (b : List Byte) : Nat := u32At b 0x1C
def ptBlockType (b : List Byte) : Nat := bAt b 0x20
def ptRefType (b : List Byte) : Nat := bAt b 0x21
def ptBlockNum (b : List Byte) : Nat := u16At b 0x22
def ptRefCh (b : List Byte) : Nat := bAt b 0x24
def ptWindow (b : List Byte) : Nat := bAt b 0x25
def ptLogicOp (b : List Byte) : Nat := bAt b 0x26
def ptLogicK (b : List Byte) : Nat := bAt b 0x27

/-- Operands in use: type, inversion, number. -/
def ptOperands (b : List Byte) : List (Nat × Bool × Nat) :=
  ((List.range 8).map (fun i => (bAt b (0x28 + 4 * i), decide (bAt b (0x29 + 4 * i) = 1), u16At b (0x2A + 4 * i)))).filter
    (fun x => x.1 ≠ 0)

def pointOk (b : List Byte) : Bool :=
  let k := ptKind b
  let t := ptSrcType b
  let types := (List.range 8).map (fun i => bAt b (0x28 + 4 * i))
  let n := (ptOperands b).length
  72 ≤ b.length
    && ((1 ≤ k && k ≤ 6 && (t = 1 || t = 2)) || (k = 7 && (t = 3 || t = 4 || t = 5 || t = 7))
        || (k = 8 && ((1 ≤ t && t ≤ 4) || t = 6)))
    && ptOnDelay b ≤ 600000 && ptOffDelay b ≤ 600000 && ptFaultDelay b ≤ 600000 && ptRelease b ≤ 600000
    && f32le 0 (ptHyst b)
    && (if k = 6 then 1 ≤ ptWindow b && ptWindow b ≤ 16 else ptWindow b = 0)
    && (if k = 6 then ptDir b ≠ 0 else ptDir b = 0) && bits (bAt b 6) 7 1 = 0
    && (ptActDio b < 32 || ptActDio b = 0xFF)
    && [0, 3, 4, 8, 9].contains (ptBlockType b)
    && (if k = 5 then ptRefType b = 1 || ptRefType b = 2 else ptRefType b = 0)
    && ptLogicOp b ≤ 2
    && types.all (fun x => [0, 3, 4, 7, 8, 9].contains x)
    && (List.range 8).all (fun i => bAt b (0x29 + 4 * i) ≤ 1)
    && (types.take n).all (· ≠ 0)
    && !(ptLogicOp b = 2 && (ptLogicK b = 0 || n < ptLogicK b))
    && ptSummary b ≠ some (ptGroup b)

/-! Groups, call tables, patterns, roster and watch (R249). -/

def dioFieldOk (v : Nat) : Bool := v < 32 || v = 0xFF
def patFieldOk (v : Nat) : Bool := v < 64 || v = 0xFE || v = 0xFF

def groupOk (b : List Byte) : Bool :=
  16 ≤ b.length && dioFieldOk (bAt b 0) && patFieldOk (bAt b 1) && patFieldOk (bAt b 2) && patFieldOk (bAt b 3)
    && dioFieldOk (bAt b 4) && patFieldOk (bAt b 5) && (bAt b 6 < 16 || bAt b 6 = 0xFF) && dioFieldOk (bAt b 7)
    && bAt b 8 ≤ 1 && zeroAt b 9 7

def callTableOk (b : List Byte) : Bool :=
  8 ≤ b.length && u16At b 0 ≤ 1800 && u16At b 2 ≤ 1800 && dioFieldOk (bAt b 4) && dioFieldOk (bAt b 5)
    && patFieldOk (bAt b 6) && bAt b 7 = 0

def patternOk (b : List Byte) : Bool :=
  let p := u16At b 0
  8 ≤ b.length && 8 ≤ p && p ≤ 16000 && 1 ≤ u16At b 2 && u16At b 2 ≤ p && u16At b 4 < p && u16At b 6 = 0

def rosterOk (b : List Byte) : Bool :=
  let duty := bits (bAt b 0) 1 1 = 1
  32 ≤ b.length && bAt b 0 < 4 && dioFieldOk (bAt b 1) && dioFieldOk (bAt b 2) && dioFieldOk (bAt b 3)
    && patFieldOk (bAt b 4) && bAt b 5 < 16 && 60 ≤ u16At b 6 && u16At b 6 ≤ 3600 && u16At b 8 < u16At b 6
    && dioFieldOk (bAt b 0x0A) && !(duty && (bAt b 0x0B = 0 || 16 < bAt b 0x0B))
    && dioFieldOk (bAt b 0x0C) && dioFieldOk (bAt b 0x0D)
    && bAt b 0x0E < 16 && bAt b (0x10 + bAt b 0x0E) ≠ 0xFF && bAt b 0x0F = 0
    && (List.range 16).all (fun i => dioFieldOk (bAt b (0x10 + i)))

/-! HART allocations, rotations, panel areas, lanes, claim configuration, safety outputs. -/

/-- Turns of a HART allocation: kind, channel, walls (R173). -/
def hartTurns (b : List Byte) : List (Nat × Nat × Nat) :=
  (List.range (bAt b 0)).map (fun i => (bAt b (4 + 4 * i), bAt b (5 + 4 * i), u16At b (6 + 4 * i)))

def hartOk (wall : Nat) (b : List Byte) : Bool :=
  1 ≤ bAt b 0 && bAt b 0 ≤ 32 && 4 + 4 * bAt b 0 ≤ b.length && zeroAt b 1 3
    && (hartTurns b).all (fun (k, c, w) =>
      800 ≤ w * wall && ((k = 0 && c < 48) || (k = 1 && c < 32) || k = 0xFF))

def areaOk (b : List Byte) : Bool :=
  let x := u16At b 0
  let w := u16At b 4
  let h := u16At b 6
  16 ≤ b.length && x % 8 = 0 && w % 8 = 0 && 8 ≤ w && 8 ≤ h && x + w ≤ 1024 && u16At b 2 + h ≤ 768
    && bAt b 8 ≠ 0 && bAt b 8 < 32 && zeroAt b 9 7

def laneOk (b : List Byte) : Bool :=
  32 ≤ b.length && ((bAt b 0 = 1 && bAt b 1 < 32) || (bAt b 0 = 2 && bAt b 1 < 48))
    && bAt b 2 < 16 && bits (bAt b 2) 0 2 ≠ 0 && 1 ≤ bAt b 3 && bAt b 3 ≤ 16 && u32At b 0x1C ≤ 1000000

def claimOk (b : List Byte) : Bool := 16 ≤ b.length && bAt b 0 ≤ 1 && zeroAt b 1 3 && zeroAt b 8 8

def safeOutOk (target : Nat) (b : List Byte) : Bool :=
  16 ≤ b.length && 1 ≤ bAt b 8 && bAt b 8 ≤ 8 && bAt b 8 ≤ popcount (u64At b 0) 64
    && bAt b 9 ≤ (if target < 32 then 1 else 2) && u16At b 0x0A = 0

/-! Slot words (R70). -/

def swClass (w : Dword) : Nat := fld w 56 8
def swP (w : Dword) : Nat := fld w 48 8
def swA (w : Dword) : Nat := fld w 32 16
def swB (w : Dword) : Nat := fld w 16 16
def swT (w : Dword) : Nat := fld w 0 16

/-- Cycles of a slot word by class and P (R70). -/
def slotCycles (cls p : Nat) : Nat :=
  match cls with
  | 0x00 => 1 | 0x01 => p | 0x02 => 2 | 0x03 => 6 | 0x10 => 4 | 0x11 => 14 | 0x12 => 6 + 6 * p
  | 0x13 => 4 + 6 * p | 0x14 => 30 | 0x15 => 3 | 0x16 => 3 | 0x17 => 4 | 0x20 => 8 | 0x21 => 16
  | 0x22 => 12 | 0x23 => 4 + 2 * p | 0x24 => 18 | 0x25 => 14 | 0x26 => 5 | _ => 0

def wordCycles (w : Dword) : Nat := slotCycles (swClass w) (swP w)

/-- Class allowed on the engine, and P in its range (R70). -/
def slotWordOk (engine : Nat) (w : Dword) : Bool :=
  let c := swClass w
  let p := swP w
  (match c with
   | 0x00 => p = 0
   | 0x01 => 1 ≤ p && p ≤ 60
   | 0x02 => p = 0
   | 0x03 => p = 0
   | 0x12 => p ≤ 7
   | 0x13 => p ≤ 3
   | 0x16 => p ≤ 1
   | 0x23 => 1 ≤ p && p ≤ 8
   | _ => (c = 0x10 || c = 0x11 || c = 0x14 || c = 0x15 || c = 0x17
       || c = 0x20 || c = 0x21 || c = 0x22 || c = 0x24 || c = 0x25 || c = 0x26) && p = 0)
  && (c ≤ 0x03 || (c < 0x20) = (engine = 0))

/-- The engine of each slot word of an entry, in slot-record order. -/
def wordEngines (e : Entry) : List Nat := e.slots.flatMap (fun r => List.replicate r.words r.engine)

/-- The slot word of class `cls` that a command's operands spell (R70). -/
def slotWordOf (cls : Nat) (w : SlotWord) : Dword :=
  pack 64 [(56, cls), (48, w.p.toNat), (32, w.a.toNat), (16, w.b.toNat), (0, w.t.toNat)]

/-- Slot words of an entry placed at (engine, WI). -/
def wordsAt (e : Entry) (engine wi : Nat) : List Dword :=
  let rec go : List SlotRec → List Dword → List Dword
    | [], _ => []
    | r :: rs, ws =>
      (if r.engine = engine ∧ r.wi = wi then ws.take r.words else []) ++ go rs (ws.drop r.words)
  go e.slots e.words

/-- TILECMD words stand only where R468 allows them. -/
def tileCmdOk (e : Entry) (w : Dword) : Bool :=
  if swClass w = 0x16 then
    if swP w = 0 then
      e.ty = 0x0A && swT w = 0 &&
        (if e.target < 4 then swA w < 16 && swB w ≤ 1 else swA w < 8 && swB w = 0)
    else e.ty = 0x01 && swA w = e.target % 8 && swB w = 0 && swT w = 0
  else e.ty ≠ 0x0A

/-- REC at every wall index, and OUT for a driven DIO (R287): a word acts on the target of the entry that places it (log
entry 121), so these name the channel's own record and latch. -/
def digWordsOk (wall : Nat) (e : Entry) : Bool :=
  (List.range wall).all (fun wi =>
    ((wordsAt e 0 wi ++ wordsAt e 1 wi).any (fun w => swClass w = 0x03))
      && (!(e.ty = 3 && 2 ≤ bits (u32At e.body 0) 28 4) || (wordsAt e 1 wi).any (fun w => swClass w = 0x26)))

/-- End of the type's tables in the body, if they are well formed; a TYPE that the entry type table does not hold is
bad framing (FORMAT), the manual not saying whether FORMAT or OWNER reports it (log entry 122). -/
def bodyEnd (wall : Nat) (e : Entry) : Option Nat :=
  let b := e.body
  let ok (c : Bool) (n : Nat) : Option Nat := if c then some n else none
  match e.ty with
  | 0x01 => chanEnd false e.target b
  | 0x02 => chanEnd true e.target b
  | 0x03 => ok (digBodyOk false b) 16
  | 0x04 => ok (digBodyOk true b) 16
  | 0x05 => ok (pointOk b) 72
  | 0x06 => ok (groupOk b) 16
  | 0x07 => ok (callTableOk b) 8
  | 0x08 => ok (patternOk b) 8
  | 0x09 => ok (hartOk wall b) (4 + 4 * bAt b 0)
  | 0x0A => ok (8 ≤ b.length && bAt b 0 = e.target && bAt b 1 = 0 && u16At b 2 = e.words.length
      && u32At b 4 = 0 && e.slots.all (fun r => r.engine = 0)) 8
  | 0x0B => ok (areaOk b && e.slots.isEmpty) 16
  | 0x0C => ok (rosterOk b) 32
  | 0x20 => ok (laneOk b && e.slots.isEmpty) 32
  | 0x21 => ok (claimOk b && e.slots.isEmpty) 16
  | 0x22 => ok (safeOutOk e.target b && e.slots.isEmpty) 16
  | _ => none

/-- An entry free of the FORMAT faults that one entry can show (R467 and the chapters' rules). -/
def entryOk (wall : Nat) (e : Entry) : Bool :=
  (match bodyEnd wall e with
   | some n => n ≤ e.body.length && e.body.length ≤ n + 7 && zeroAt e.body n 7
   | none => false)
  && e.slots.all (fun r => r.engine ≤ 1 && r.wi < wall && r.words ≠ 0)
  && ((wordEngines e).zip e.words).all (fun (g, w) => slotWordOk g w && tileCmdOk e w)
  && (!(e.ty = 3 || e.ty = 4) || digWordsOk wall e)

/-- Targets an entry's body names (R470, R248, R249). -/
def bodyNames (e : Entry) : List (Nat × Nat) :=
  let b := e.body
  let dio (v : Nat) : List (Nat × Nat) := if v < 32 then [(3, v)] else []
  let di (v : Nat) : List (Nat × Nat) := if v < 32 then [(4, v)] else []
  let pat (v : Nat) : List (Nat × Nat) := if v < 64 then [(8, v)] else []
  let op (t n : Nat) : List (Nat × Nat) :=
    match t with
    | 3 => [(3, n)] | 4 => [(4, n)] | 7 => [(0x20, n)] | 8 => [(5, n)] | 9 => [(5, n)] | _ => []
  match e.ty with
  | 0x01 | 0x02 =>
    let t := entTsrc b
    if 0x200 ≤ t then [(2, t - 0x200)] else if 0x100 ≤ t then [(1, t - 0x100)] else []
  | 0x05 =>
    (match ptSrcType b with
     | 1 => [(1, ptSrc b)] | 2 => [(2, ptSrc b)] | 3 => [(3, ptSrc b)] | 4 => [(4, ptSrc b)]
     | 7 => [(0x20, ptSrc b)] | _ => [])
    ++ (match ptRefType b with
     | 1 => [(1, ptRefCh b)] | 2 => [(2, ptRefCh b)] | _ => [])
    ++ [(6, ptGroup b)] ++ (match ptSummary b with
     | some g => [(6, g)] | none => [])
    ++ dio (ptActDio b) ++ op (ptBlockType b) (ptBlockNum b)
    ++ (ptOperands b).flatMap (fun x => op x.1 x.2.2)
  | 0x06 => dio (bAt b 0) ++ pat (bAt b 1) ++ pat (bAt b 2) ++ pat (bAt b 3) ++ dio (bAt b 4) ++ pat (bAt b 5)
    ++ (if bAt b 6 < 16 then [(7, bAt b 6)] else []) ++ di (bAt b 7)
  | 0x07 => dio (bAt b 4) ++ dio (bAt b 5) ++ pat (bAt b 6)
  | 0x09 => (hartTurns b).flatMap (fun (k, c, _) => if k = 0 then [(2, c)] else if k = 1 then [(1, c)] else [])
  | 0x0C => di (bAt b 1) ++ di (bAt b 2) ++ dio (bAt b 3) ++ pat (bAt b 4) ++ [(7, bAt b 5)]
    ++ (if bits (bAt b 0) 1 1 = 1 then (List.range (bAt b 0x0B)).map (fun i => (4, bAt b 0x0A + i)) else [])
    ++ di (bAt b 0x0C) ++ di (bAt b 0x0D) ++ (List.range 16).flatMap (fun i => dio (bAt b (0x10 + i)))
  | 0x20 => [(bAt b 0, bAt b 1)]
  | 0x22 => (below 64 (fun i => (u64At b 0).testBit i)).map (fun i => (0x20, i))
  | _ => []

/-- Number of targets of a type (entry type table). -/
def typeRange : Nat → Nat
  | 0x01 => 32 | 0x02 => 48 | 0x03 => 32 | 0x04 => 32 | 0x05 => 2048 | 0x06 => 256 | 0x07 => 16
  | 0x08 => 64 | 0x09 => 8 | 0x0A => 10 | 0x0B => 32 | 0x0C => 1 | 0x20 => 64 | 0x21 => 1 | 0x22 => 64
  | _ => 0

end Sys2Proof.Machine
end

