-- ==== Sys2Proof/Machine/Hash.lean ====
section
/-! DEFINITION. CRC-32 (R38), SHA-256 and HMAC-SHA-256 (R38, R347, R387). -/

namespace Sys2Proof

/-- One bit of CRC-32, reflected polynomial 0xEDB8_8320. -/
def crcBit (c : Word) : Word := if c.getLsbD 0 then (c >>> 1) ^^^ 0xEDB88320 else c >>> 1

def crcByte (c : Word) (b : Byte) : Word := iterate8 crcBit (c ^^^ b.setWidth 32)
where
  iterate8 (f : Word → Word) (x : Word) : Word := f (f (f (f (f (f (f (f x)))))))

/-- CRC-32 of IEEE 802.3 (R38). -/
def crc32 (l : List Byte) : Word := l.foldl crcByte 0xFFFFFFFF ^^^ 0xFFFFFFFF

def shaK : List Word :=
  [0x428A2F98, 0x71374491, 0xB5C0FBCF, 0xE9B5DBA5, 0x3956C25B, 0x59F111F1, 0x923F82A4, 0xAB1C5ED5,
   0xD807AA98, 0x12835B01, 0x243185BE, 0x550C7DC3, 0x72BE5D74, 0x80DEB1FE, 0x9BDC06A7, 0xC19BF174,
   0xE49B69C1, 0xEFBE4786, 0x0FC19DC6, 0x240CA1CC, 0x2DE92C6F, 0x4A7484AA, 0x5CB0A9DC, 0x76F988DA,
   0x983E5152, 0xA831C66D, 0xB00327C8, 0xBF597FC7, 0xC6E00BF3, 0xD5A79147, 0x06CA6351, 0x14292967] ++
  [0x27B70A85, 0x2E1B2138, 0x4D2C6DFC, 0x53380D13, 0x650A7354, 0x766A0ABB, 0x81C2C92E, 0x92722C85,
   0xA2BFE8A1, 0xA81A664B, 0xC24B8B70, 0xC76C51A3, 0xD192E819, 0xD6990624, 0xF40E3585, 0x106AA070,
   0x19A4C116, 0x1E376C08, 0x2748774C, 0x34B0BCB5, 0x391C0CB3, 0x4ED8AA4A, 0x5B9CCA4F, 0x682E6FF3,
   0x748F82EE, 0x78A5636F, 0x84C87814, 0x8CC70208, 0x90BEFFFA, 0xA4506CEB, 0xBEF9A3F7, 0xC67178F2]

def shaInit : List Word := [0x6A09E667, 0xBB67AE85, 0x3C6EF372, 0xA54FF53A, 0x510E527F, 0x9B05688C, 0x1F83D9AB, 0x5BE0CD19]

/-- Big-endian words of a byte list. -/
def beWords : List Byte → List Word
  | a :: b :: c :: d :: r => (a ++ b ++ c ++ d) :: beWords r
  | _ => []

/-- Big-endian bytes of a word. -/
def beBytes (w : Word) : List Byte :=
  [w.extractLsb' 24 8, w.extractLsb' 16 8, w.extractLsb' 8 8, w.extractLsb' 0 8]

def shaS0 (x : Word) : Word := x.rotateRight 7 ^^^ x.rotateRight 18 ^^^ (x >>> 3)
def shaS1 (x : Word) : Word := x.rotateRight 17 ^^^ x.rotateRight 19 ^^^ (x >>> 10)

/-- Extends a message schedule held newest first. -/
def shaExtend : Nat → List Word → List Word
  | 0, w => w
  | n + 1, w =>
    shaExtend n ((shaS1 (w.getD 1 0) + w.getD 6 0 + shaS0 (w.getD 14 0) + w.getD 15 0) :: w)

def shaRound (h : List Word) (kw : Word) : List Word :=
  match h with
  | [a, b, c, d, e, f, g, hh] =>
    let t1 := hh + (e.rotateRight 6 ^^^ e.rotateRight 11 ^^^ e.rotateRight 25) + ((e &&& f) ^^^ (~~~e &&& g)) + kw
    let t2 := (a.rotateRight 2 ^^^ a.rotateRight 13 ^^^ a.rotateRight 22) +
      ((a &&& b) ^^^ (a &&& c) ^^^ (b &&& c))
    [t1 + t2, a, b, c, d + t1, e, f, g]
  | other => other

/-- Compresses one block of 16 words. -/
def shaBlock (h : List Word) (block : List Word) : List Word :=
  let w := (shaExtend 48 block.reverse).reverse
  let r := (List.zipWith (· + ·) shaK w).foldl shaRound h
  List.zipWith (· + ·) h r

/-- Compresses `n` blocks. -/
def shaBlocks : Nat → List Word → List Word → List Word
  | 0, h, _ => h
  | n + 1, h, w => shaBlocks n (shaBlock h (w.take 16)) (w.drop 16)

/-- Padding of a message of `n` bytes. -/
def shaPad (n : Nat) : List Byte :=
  0x80 :: List.replicate ((119 - n % 64) % 64) 0 ++ (leBytes 8 (8 * n)).reverse

def sha256 (m : List Byte) : List Byte :=
  let w := beWords (m ++ shaPad m.length)
  (shaBlocks (w.length / 16) shaInit w).flatMap beBytes

/-- HMAC-SHA-256 under a key of at most 64 bytes. -/
def hmacSha256 (key m : List Byte) : List Byte :=
  let k := key ++ List.replicate (64 - key.length) 0
  sha256 (k.map (· ^^^ 0x5C) ++ sha256 (k.map (· ^^^ 0x36) ++ m))

end Sys2Proof
end

