-- ==== Sys2Proof/Machine/Image.lean ====
section
/-! DEFINITION. Plan images: layout, framing and the checks of R39 and R52 in their order (ch. 2). -/

namespace Sys2Proof.Machine

/-! Header and directory (R35). -/

def imgMagic (b : List Byte) : Nat := u32At b 0
def imgWall (b : List Byte) : Nat := u16At b 6
def imgLen (b : List Byte) : Nat := u32At b 8
def imgId (b : List Byte) : Word := w32At b 0x0C
def imgBind (b : List Byte) : Word := w32At b 0x10
def imgBase (b : List Byte) (engine : Nat) : Nat := u16At b (0x14 + 2 * engine)
def imgMask (b : List Byte) : Nat := u16At b 0x28

def dirOfs (b : List Byte) (n : Nat) : Nat := u32At b (0x40 + 16 * n)
def dirLen (b : List Byte) (n : Nat) : Nat := u32At b (0x44 + 16 * n)
def dirCrc (b : List Byte) (n : Nat) : Word := w32At b (0x48 + 16 * n)
def dirGen (b : List Byte) (n : Nat) : Nat := bAt b (0x4C + 16 * n)
def dirKind (b : List Byte) (n : Nat) : Nat := bAt b (0x4D + 16 * n)

def imgSlice (b : List Byte) (o n : Nat) : List Byte := (b.drop o).take n

def blobOf (b : List Byte) (n : Nat) : List Byte := imgSlice b (dirOfs b n) (dirLen b n)

/-- Districts the directory presents. -/
def imgDistricts (b : List Byte) : List Nat := below 16 (fun n => dirKind b n ≠ 0)

/-- A blob that R35 places wholly within the image. -/
def blobInside (b : List Byte) (n : Nat) : Bool :=
  0x140 ≤ dirOfs b n && dirOfs b n + dirLen b n + 64 ≤ imgLen b && dirOfs b n + dirLen b n ≤ b.length

/-! Entry framing (R467). -/

def dwordsAt (b : List Byte) (o : Nat) : Nat → List Dword
  | 0 => []
  | n + 1 => w64At b o :: dwordsAt b (o + 8) n

/-- One entry from its bytes (exactly LEN of them), if the framing holds. -/
def parseEntry (district gen : Nat) (b : List Byte) : Option Entry :=
  let nref := u16At b 0x0C
  let nslot := u16At b 0x0E
  let refs := (List.range nref).map (fun i => (bAt b (16 + 4 * i), u16At b (18 + 4 * i)))
  let so := 16 + 4 * nref
  let slots := (List.range nslot).map (fun i =>
    ({ engine := bAt b (so + 8 * i), wi := u16At b (so + 8 * i + 2), pos := u16At b (so + 8 * i + 4),
       words := u16At b (so + 8 * i + 6) } : SlotRec))
  let nw := (slots.map (·.words)).sum
  let wo := so + 8 * nslot
  if bAt b 5 ≠ 0 ∨ b.length < wo + 8 * nw
      ∨ (List.range nref).any (fun i => bAt b (17 + 4 * i) ≠ 0) = true
      ∨ (List.range nslot).any (fun i => bAt b (so + 8 * i + 1) ≠ 0) = true then none
  else some
    { ty := bAt b 4, target := u16At b 6, district := district, gen := BitVec.ofNat 8 gen
      cost0 := u16At b 8, cost1 := u16At b 0x0A, refs := refs, slots := slots
      words := dwordsAt b wo nw, body := b.drop (wo + 8 * nw) }

/-- `n` entries from a byte list, and what is left. -/
def parseEntries (district gen : Nat) : Nat → List Byte → Option (List Entry × List Byte)
  | 0, b => some ([], b)
  | n + 1, b =>
    let len := u32At b 0
    if len < 16 ∨ len % 8 ≠ 0 ∨ b.length < len then none
    else
      match parseEntry district gen (b.take len) with
      | none => none
      | some e =>
        match parseEntries district gen n (b.drop len) with
        | none => none
        | some (es, r) => some (e :: es, r)

/-- The entries of a blob whose header agrees with its directory entry (R36). -/
def parseBlob (img : List Byte) (n : Nat) : Option (List Entry) :=
  let b := blobOf img n
  let cnt := u16At b 4
  if b.length < 16 ∨ bAt b 0 ≠ n ∨ bAt b 1 ≠ dirGen img n ∨ bAt b 2 ≠ dirKind img n ∨ bAt b 3 ≠ 0
      ∨ u16At b 6 ≠ 0 ∨ u32At b 0x0C ≠ 0 ∨ cnt = 0 ∨ 4095 < cnt then none
  else
    match parseEntries n (dirGen img n) cnt (b.drop 16) with
    | none => none
    | some (es, r) => if r.length = (if dirKind img n = 2 then 32 else 0) then some es else none

def blobCost (img : List Byte) (n engine : Nat) : Nat := u16At (blobOf img n) (8 + 2 * engine)

/-- Entries of every present district, in district order; a blob that does not parse gives none. -/
def imgEntries (img : List Byte) : List Entry :=
  (imgDistricts img).flatMap (fun n => (parseBlob img n).getD [])

def blobEntries (img : List Byte) (n : Nat) : List Entry := (parseBlob img n).getD []

/-! Slot lists (R469) and start cycles (R77). -/

/-- Insertion by (POS, district), later ones after earlier ones. -/
def insertWord (x : ListWord) : List ListWord → List ListWord
  | [] => [x]
  | y :: r => if x.pos < y.pos ∨ (x.pos = y.pos ∧ x.district < y.district) then x :: y :: r else y :: insertWord x r

/-- Words of entry `e` from position `pos` on. -/
def placeWords (e : Entry) : Nat → List Dword → List ListWord
  | _, [] => []
  | pos, w :: ws => { pos := pos, district := e.district, owner := (e.ty, e.target), word := w } :: placeWords e (pos + 1) ws

/-- The words that the records of entry `e` place at one engine and wall index. -/
def placeRecs (engine wi : Nat) (e : Entry) : List SlotRec → List Dword → List ListWord
  | [], _ => []
  | r :: rs, ws =>
    (if r.engine = engine ∧ r.wi = wi then placeWords e r.pos (ws.take r.words) else [])
      ++ placeRecs engine wi e rs (ws.drop r.words)

/-- An engine's list at a wall index, after the prologue and before the closing END: the words of every entry in
ascending POS, those of one POS by district and then in the order in which their entries were stepped (R469). -/
def engineList (es : List Entry) (engine wi : Nat) : List ListWord :=
  (es.flatMap (fun e => placeRecs engine wi e e.slots e.words)).foldl (fun acc x => insertWord x acc) []

/-- A word that writes into the square buffer (R77). -/
def writesSquare (w : Dword) : Bool :=
  swClass w = 0x03 || swClass w = 0x22 || swClass w = 0x24 || swClass w = 0x25

/-- No word of the list that writes the square starts before cycle 1,200 (R77). -/
def startsOk : Nat → List ListWord → Bool
  | _, [] => true
  | t, x :: r => !(writesSquare x.word && t < 1200) && startsOk (t + wordCycles x.word) r

def listsOk (wall base0 base1 : Nat) (es : List Entry) : Bool :=
  (List.range wall).all (fun wi =>
    startsOk (base0 - 1) (engineList es 0 wi) && startsOk (base1 - 1) (engineList es 1 wi))

/-! Update steps (R54). -/

/-- Classes in the order in which unnamed targets are retired (R54). -/
def retireOrder : List Nat := [5, 6, 0x0C, 7, 8, 0x0B, 9, 0x0A, 0x22, 0x20, 0x21, 1, 2, 3, 4]

def insertDesc (n : Nat) : List Nat → List Nat
  | [] => [n]
  | m :: r => if m < n then n :: m :: r else m :: insertDesc n r

/-- Retirements of the running targets of a district that a new version does not name. -/
def retirements (running new : List Entry) (district : Nat) : List DStep :=
  retireOrder.flatMap (fun ty =>
    ((running.filter (fun e => e.district = district && e.ty = ty
        && !new.any (fun f => f.ty = ty && f.target = e.target))).foldl
      (fun acc e => insertDesc e.target acc) []).map (fun t => DStep.retire ty t))

def updateSteps (running new : List Entry) (district : Nat) : List DStep :=
  new.map DStep.apply ++ retirements running new district

/-- The running entries after one step; what was stepped last stands last (R469). -/
def stepEntries (es : List Entry) : DStep → List Entry
  | .apply e => es.filter (fun x => !(x.ty = e.ty && x.target = e.target)) ++ [e]
  | .retire ty t => es.filter (fun x => !(x.ty = ty && x.target = t))

/-- Start cycles of the lists as they stand after each step (R77). -/
def stepsListsOk (wall base0 base1 : Nat) : List Entry → List DStep → Bool
  | es, [] => listsOk wall base0 base1 es
  | es, d :: r => listsOk wall base0 base1 es && stepsListsOk wall base0 base1 (stepEntries es d) r

/-! The checks of R39.  A failing check is its code and, where it concerns one, the district. -/

abbrev Fail := Option (Nat × Option Nat)

def failIf (c : Bool) (code : Nat) (ds : Option Nat) : Fail := if c then some (code, ds) else none

def firstFail : List Fail → Fail
  | [] => none
  | some f :: _ => some f
  | none :: r => firstFail r

/-- Slot positions of one image that overlap (R467). -/
def overlaps (es : List Entry) : Bool :=
  let rs := es.flatMap (·.slots)
  rs.zipIdx.any (fun (a, i) => rs.zipIdx.any (fun (c, j) =>
    i < j && a.engine = c.engine && a.wi = c.wi && a.pos < c.pos + c.words && c.pos < a.pos + a.words))

/-- Bytes outside the blobs that are not 0 (R35). -/
def strayBytes (img : List Byte) : Bool :=
  (imgSlice img 0x140 (imgLen img - 64 - 0x140)).zipIdx.any (fun (b, i) =>
    b ≠ 0 && !(imgDistricts img).any (fun n =>
      dirOfs img n ≤ i + 0x140 && i + 0x140 < dirOfs img n + dirLen img n))

/-- A voltage-mode channel whose safety designation holds ACTION 0 or 1 (R134). -/
def voltageTrip (es : List Entry) : Bool :=
  es.any (fun e => e.ty = 1 && (bits (u32At e.body 0) 28 4 = 10 || bits (u32At e.body 0) 28 4 = 11)
    && es.any (fun f => f.ty = 0x22 && f.target = 32 + e.target && bAt f.body 9 < 2))

/-- Check 0x02.  An image too short to have a trailer is left to check 0x03. -/
def checkFormat (img : List Byte) : Fail :=
  let wall := imgWall img
  firstFail (
    [failIf (u16At img 4 ≠ 3 || !zeroAt img 0x2A 22 || imgBase img 0 < 65 || imgBase img 1 < 65) 2 none]
    ++ (List.range 16).map (fun n =>
      failIf (2 < dirKind img n || u16At img (0x4E + 16 * n) ≠ 0
        || (dirKind img n ≠ 0) != (imgMask img).testBit n
        || (dirKind img n = 0 && (dirOfs img n ≠ 0 || dirLen img n ≠ 0))
        || (dirKind img n = 2 && 4 ≤ n) || (dirKind img n = 1 && n < 4)) 2 (some n))
    ++ ((imgDistricts img).filter (blobInside img)).map (fun n =>
      failIf (match parseBlob img n with
        | none => true
        | some es => !es.all (entryOk wall)) 2 (some n))
    ++ [failIf (overlaps (imgEntries img) || voltageTrip (imgEntries img) || strayBytes img
        || (0x180 ≤ imgLen img && !zeroAt img (imgLen img - 60) 28)
        || !listsOk wall (imgBase img 0) (imgBase img 1) (imgEntries img)) 2 none])

/-- Check 0x03: length and placement (R35); `room` is what the bank holds from the image's first block. -/
def checkLength (img : List Byte) (room : Nat) : Fail :=
  let l := imgLen img
  let ds := imgDistricts img
  firstFail (
    [failIf (l % 64 ≠ 0 || l < 0x180 || 0x1000000 < l || room < l) 3 none]
    ++ ds.map (fun n => failIf (dirOfs img n < 0x140 || dirOfs img n % 64 ≠ 0
        || l < dirOfs img n + dirLen img n + 64
        || ds.any (fun m => m < n && dirOfs img n < dirOfs img m + dirLen img m)) 3 (some n)))

/-- Checks 0x04 to 0x06. -/
def checkIntegrity (s : State) (img : List Byte) : Fail :=
  let l := imgLen img
  let ds := imgDistricts img
  firstFail (
    [failIf (crc32 (img.take (l - 64)) ≠ w32At img (l - 64)) 4 none]
    ++ ds.map (fun n => failIf
        (crc32 (if dirKind img n = 2 then (blobOf img n).take (dirLen img n - 32) else blobOf img n)
          ≠ dirCrc img n) 4 (some n))
    ++ [failIf (match s.plan.key with
        | none => true
        | some k => hmacSha256 k (img.take (l - 32)) ≠ imgSlice img (l - 32) 32) 5 none]
    ++ (ds.filter (fun n => dirKind img n = 2)).map (fun n => failIf (match s.safe.key with
        | none => true
        | some k => hmacSha256 k (imgSlice img (0x40 + 16 * n) 16 ++ (blobOf img n).take (dirLen img n - 32))
            ≠ (blobOf img n).drop (dirLen img n - 32)) 6 (some n)))

def samePair (e f : Entry) : Bool := e.ty = f.ty && e.target = f.target

/-- A reference that resolves: to an earlier entry of the same district, or to a target of another one (R37). -/
def refOk (earlier others : List Entry) (r : Nat × Nat) : Bool :=
  (earlier ++ others).any (fun e => e.ty = r.1 && e.target = r.2)

/-- References of one district's entries (R37, R470). -/
def refsOk (others : List Entry) : List Entry → List Entry → Bool
  | _, [] => true
  | earlier, e :: r =>
    e.refs.all (refOk earlier others) && (bodyNames e).all (fun x => e.refs.contains x)
      && refsOk others (earlier ++ [e]) r

/-- Checks 0x07 to 0x0B for a whole image. -/
def checkPlan (s : State) (img : List Byte) : Fail :=
  let ds := imgDistricts img
  let es := imgEntries img
  firstFail (
    [failIf (imgWall img < 8 || 4096 < imgWall img) 7 none,
     failIf (imgBind img ≠ 0 && imgBind img ≠ s.sys.serial) 8 none]
    ++ ds.map (fun n => failIf (dirGen img n = 0) 9 (some n))
    ++ ds.map (fun n => failIf
        ((blobEntries img n).zipIdx.any (fun (e, i) =>
          (0x20 ≤ e.ty) != (n < 4)
          || es.any (fun f => samePair e f && f.district ≠ n)
          || (blobEntries img n).zipIdx.any (fun (f, j) => i < j && samePair e f))) 10 (some n))
    ++ ds.map (fun n => failIf
        (!refsOk (es.filter (fun e => e.district ≠ n)) [] (blobEntries img n)) 11 (some n)))

/-- Cycles of an entry's own words at (engine, WI). -/
def ownCycles (e : Entry) (engine wi : Nat) : Nat := ((wordsAt e engine wi).map wordCycles).sum

def entryCost (e : Entry) (engine : Nat) : Nat := if engine = 0 then e.cost0 else e.cost1

/-- R47: entry COST covers its own words, and district COST the sum of its entries' COST at every WI. -/
def costsOk (img : List Byte) (n : Nat) : Bool :=
  let es := blobEntries img n
  [0, 1].all (fun g =>
    (List.range (imgWall img)).all (fun wi =>
      es.all (fun e => ownCycles e g wi ≤ entryCost e g)
        && ((es.filter (fun e => e.slots.any (fun r => r.engine = g && r.wi = wi))).map
            (fun e => entryCost e g)).sum ≤ blobCost img n g))

/-- Counted worst case of a full load (R47). -/
def imgWorst (img : List Byte) (g : Nat) : Nat :=
  imgBase img g + ((imgDistricts img).map (fun n => blobCost img n g)).sum

/-- A target number out of range, or a reserved system fault code (R39, R215). -/
def badNumber (es : List Entry) : Bool :=
  es.any (fun e => typeRange e.ty ≤ e.target || (e.ty = 5 && ptSrcType e.body = 6 && 22 ≤ ptSrc e.body))

def planMemory : Nat := 16777216

/-- The image-level checks of R39, in order. -/
def verifyImage (s : State) (img : List Byte) (room : Nat) : Fail :=
  firstFail
    ([failIf (imgMagic img ≠ 0x44504C4E) 1 none, checkFormat img, checkLength img room, checkIntegrity s img,
      checkPlan s img]
    ++ (imgDistricts img).map (fun n => failIf (!costsOk img n) 12 (some n))
    ++ [failIf (45000 < imgWorst img 0 || 45000 < imgWorst img 1) 12 none]
    ++ (imgDistricts img).map (fun n => failIf (badNumber (blobEntries img n)) 13 (some n))
    ++ [failIf (planMemory < ((imgDistricts img).map (dirLen img)).sum) 13 none])

/-! Checks of an update (R52). -/

def district (s : State) (n : Nat) : District := s.plan.districts.get {} n

/-- Cost counted for a district: the greater of old and new while UPDATING or MIXED (R53). -/
def distCost (d : District) (g : Nat) : Nat :=
  if g = 0 then max d.cost0 d.newCost0 else max d.cost1 d.newCost1

/-- Counted worst case with a new version of district `n` (R53). -/
def updWorst (s : State) (img : List Byte) (n g : Nat) : Nat :=
  (if g = 0 then s.plan.base0 else s.plan.base1)
    + ((List.range 16).map (fun m =>
        if m = n then max (distCost (district s m) g) (blobCost img n g) else distCost (district s m) g)).sum

/-- Plan memory in use, in blob bytes (R48). -/
def planUsed (s : State) : Nat := ((List.range 16).map (fun m => (district s m).len + (district s m).newLen)).sum

def ucMode (s : State) (c : Nat) : Nat := fld (s.ucs.get {} c).inForce.cfg 28 4

def inMaint (s : State) (m : Nat) : Bool := s.maint.on.get false m

/-- In maintenance by CHANNEL_MAINT, or for the time its tile restarts (R435). -/
def maintNow (s : State) (m : Nat) : Bool := inMaint s m || (decide (m < 80) && (s.tiles.get {} (m / 8)).restarting)

/-- Channels whose output mode an update changes and which are not in maintenance (R52). -/
def liveOutput (s : State) (img : List Byte) (n : Nat) : Bool :=
  let new := blobEntries img n
  (List.range 32).any (fun c =>
    !maintNow s c &&
    (match new.find? (fun e => e.ty = 1 && e.target = c) with
     | some e =>
       let m := bits (u32At e.body 0) 28 4
       m ≠ ucMode s c && (8 ≤ m || 8 ≤ ucMode s c)
     | none => s.plan.entries.any (fun e => e.ty = 1 && e.target = c && e.district = n
         && 8 ≤ bits (u32At e.body 0) 28 4 && bAt e.body (entOutOfs e.body + 0x15) = 0)))

/-- The checks of an update of district `n` (R52), `mixed` if it was MIXED, `peer` whether the peer has
verified the same image within 1 s. -/
def verifyUpdate (s : State) (img : List Byte) (room n : Nat) (mixed peer : Bool) : Fail :=
  let new := blobEntries img n
  let others := s.plan.entries.filter (fun e => e.district ≠ n)
  let steps := updateSteps s.plan.entries new n
  firstFail
    ([failIf (imgMagic img ≠ 0x44504C4E) 1 none, checkFormat img,
      failIf (!stepsListsOk s.plan.wall s.plan.base0 s.plan.base1 s.plan.entries steps) 2 (some n),
      checkLength img room, checkIntegrity s img,
      failIf (imgWall img ≠ s.plan.wall) 7 none,
      failIf (imgBind img ≠ 0 && imgBind img ≠ s.sys.serial) 8 none]
    ++ (imgDistricts img).map (fun m => failIf (dirGen img m = 0) 9 (some m))
    ++ [failIf (!mixed && dirKind img n ≠ 0 && BitVec.ofNat 8 (dirGen img n) = (district s n).gen) 9 (some n),
      failIf (dirKind img n = 0) 10 (some n),
      failIf (new.any (fun e => others.any (samePair e))) 10 (some n), checkPlan s img,
      failIf (!refsOk others [] new) 11 (some n),
      failIf (steps.any (fun d => match d with
        | .retire ty t => others.any (fun e => e.refs.contains (ty, t))
        | .apply _ => false)) 11 (some n),
      failIf (voltageTrip (others ++ new)) 11 (some n)]
    ++ (imgDistricts img).map (fun m => failIf (!costsOk img m) 12 (some m))
    ++ [failIf (45000 < imgWorst img 0 || 45000 < imgWorst img 1) 12 none,
      failIf (45000 < updWorst s img n 0 || 45000 < updWorst s img n 1) 12 (some n),
      failIf (badNumber (imgEntries img)) 13 none,
      failIf (planMemory < planUsed s + dirLen img n) 13 (some n),
      failIf (liveOutput s img n) 14 (some n),
      failIf (!isSolo s && !peer) 15 (some n)])

/-! Images in the NOR banks (R40). -/

def norBase (bank : Bool) (block : Nat) : Nat := (if bank then 33554432 else 0) + 65536 * block

def norRead (s : State) (a n : Nat) : List Byte := Mem.readN 0xFF s.plan.nor a n

/-- The image at an address: the bytes it declares, as far as the bank goes; the header alone without MAGIC. -/
def readImage (s : State) (bank : Bool) (block : Nat) : List Byte :=
  let h := norRead s (norBase bank block) 64
  if imgMagic h ≠ 0x44504C4E then h
  else norRead s (norBase bank block) (min (max 0x180 (imgLen h)) ((512 - block) * 65536))

def imgRoom (block : Nat) : Nat := (512 - block) * 65536

end Sys2Proof.Machine
end

