-- ==== Sys2Proof/Machine/Plan.lean ====
section
/-! DEFINITION. The commands of the PLAN page (R41 to R66) and the ends of what they start. -/

namespace Sys2Proof.Machine

/-- DATA of a plan event (R66). -/
def planEvent (code district gen count : Nat) (s : State) : State :=
  blockEv 0x11 code (district + gen * 2 ^ 8 + count % 65536 * 2 ^ 16) s

def updDistrict (n : Nat) (f : District → District) (s : State) : State :=
  { s with plan.districts := s.plan.districts.upd {} n f }

/-- Shows a verification's outcome in PLAN_LSTAT (R64). -/
def setLstat (op : Nat) (f : Fail) (s : State) : State :=
  { s with
    plan.lcode := BitVec.ofNat 8 ((f.map Prod.fst).getD 0)
    plan.lopc := BitVec.ofNat 8 op
    plan.lds := f.bind Prod.snd }

def argBank (arg : BitVec 24) : Bool := arg.getLsbD 9
def argBlock (arg : BitVec 24) : Nat := fld arg 0 9

/-- LOAD_PLAN (R46). -/
def loadPlan (req : Requester) (arg : BitVec 24) (s : State) : State :=
  issueCmd 0x11 req 0x01 arg (fun s =>
    if argOutside arg 0x3FF then .done .badArg 0 s
    else if claimed s || s.plan.state = .loading then .done .state 0 s
    else .hold { s with
      plan.state := .loading
      loader.back := s.plan.state
      loader.verifying := some { op := 1, bank := argBank arg, block := argBlock arg } }) s

def execLoadPlan (req : Requester) (arg : BitVec 24) (s : State) : Out := .next (loadPlan req arg s)

/-- The bank is being erased or programmed: its reads and verifications wait until that ends (R40). -/
def norBusy (s : State) (bank : Bool) : Bool := s.loader.norOp.any (fun o => o.bank = bank)

/-- Verification of a LOAD_PLAN ends (R39, R46): the image becomes the boot image, the previous one the alternate,
the journal clears, and the plan starts at the next boundary. -/
def execLoadPlanDone (s : State) : Out :=
  .next (
    match s.loader.verifying with
    | some v =>
      if v.op = 1 && !norBusy s v.bank then
        let img := readImage s v.bank v.block
        let r := verifyImage s img (imgRoom v.block)
        let s1 := setLstat 1 r { s with loader.verifying := none }
        match r with
        | some (c, _) => finishCmd 0x11 .denied c { s1 with plan.state := s1.loader.back }
        | none =>
          finishCmd 0x11 .ok (fld (imgId img) 0 24) { s1 with
            plan.boot := some (v.bank, v.block)
            plan.alt := s1.plan.boot
            plan.districts := ⟨s1.plan.districts.cells.map (fun c => (c.1, { c.2 with journal := none }))⟩
            loader.starting := some (v.bank, v.block)
            loader.archive := s1.loader.archive ++ [(v.bank, v.block)] }
      else s
    | none => s)

/-- STOP_PLAN (R46). -/
def stopPlan (req : Requester) (arg : BitVec 24) (s : State) : State :=
  issueCmd 0x11 req 0x02 arg (fun s =>
    if argOutside arg 1 then .done .badArg 0 s
    else
      match s.plan.state with
      | .noPlan => .done .ok 0 s
      | .stopped => .done .ok 0 s
      | .loading => .done .state 0 s
      | .running =>
        if claimed s && !(isSolo s && arg.getLsbD 0) then .done .state 0 s
        else .done .ok 0 { s with loader.stopping := some (claimed s) }) s

def execStopPlan (req : Requester) (arg : BitVec 24) (s : State) : Out := .next (stopPlan req arg s)

def argDistrict (arg : BitVec 24) : Nat := fld arg 20 4

/-- Begins the verification of an update of a district. -/
def beginUpdate (safety : Bool) (arg : BitVec 24) (s : State) : State :=
  let n := argDistrict arg
  let v : Verifying := { op := if safety then 1 else 3, bank := argBank arg, block := argBlock arg, district := n,
                         prev := (district s n).state }
  let s1 := updDistrict n (fun d => { d with state := .verifying }) s
  if safety then { s1 with loader.safeVerifying := some v } else { s1 with loader.verifying := some v }

/-- UPDATE_DISTRICT (R51, R52, R59). -/
def updateDistrict (req : Requester) (arg : BitVec 24) (s : State) : State :=
  issueCmd 0x11 req 0x03 arg (fun s =>
    let n := argDistrict arg
    if argOutside arg 0xF003FF then .done .badArg 0 s
    else if n < 4 then .done .denied 10 s
    else if (district s n).state = .updating then .done .busy 0 s
    else .hold (beginUpdate false arg s)) s

def execUpdateDistrict (req : Requester) (arg : BitVec 24) (s : State) : Out := .next (updateDistrict req arg s)

/-- Takes a verified update: UPDATING with its steps (R54).  A district that was MIXED occupies its old, its stopped and
its newest blob until it is IDLE: the manual speaks of an old and a new one (log entry 126). -/
def acceptUpdate (v : Verifying) (img : List Byte) (s : State) : State :=
  let n := v.district
  let steps := updateSteps s.plan.entries (blobEntries img n) n
  updDistrict n (fun d => { d with
    state := .updating, genTo := BitVec.ofNat 8 (dirGen img n), total := steps.length, done := 0, steps := steps
    ubank := v.bank, ublock := v.block, newCost0 := max (distCost d 0) (blobCost img n 0)
    newCost1 := max (distCost d 1) (blobCost img n 1), newLen := d.newLen + dirLen img n }) s

/-- Ends the verification of an update on a page (R52, R54, R349). -/
def endUpdateVerify (page : Nat) (v : Verifying) (peer : Bool) (s : State) : State :=
  let img := readImage s v.bank v.block
  let r := verifyUpdate s img (imgRoom v.block) v.district (v.prev = .mixed) peer
  let s1 := setLstat v.op.toNat r s
  match r with
  | some (c, _) => finishCmd page .denied c (updDistrict v.district (fun d => { d with state := v.prev }) s1)
  | none =>
    let s2 := acceptUpdate v img s1
    finishCmd page .ok (district s2 v.district).total s2

def execUpdateVerifyDone (safety peer : Bool) (s : State) : Out :=
  .next (
    if safety then
      match s.loader.safeVerifying with
      | some v => if norBusy s v.bank then s else endUpdateVerify 0x18 v peer { s with loader.safeVerifying := none }
      | none => s
    else
      match s.loader.verifying with
      | some v => if v.op = 3 && !norBusy s v.bank then endUpdateVerify 0x11 v peer { s with loader.verifying := none } else s
      | none => s)

/-- ABORT_UPDATE (R60, R61). -/
def abortUpdate (req : Requester) (arg : BitVec 24) (s : State) : State :=
  issueCmd 0x11 req 0x04 arg (fun s =>
    let n := fld arg 0 4
    let d := district s n
    if argOutside arg 0xF then .done .badArg 0 s
    else if d.state = .updating then
      .done .ok d.done (planEvent 2 n d.genTo.toNat d.done
        (updDistrict n (fun d => { d with state := .mixed, steps := [] }) s))
    else .done .state 0 s) s

def execAbortUpdate (req : Requester) (arg : BitVec 24) (s : State) : Out := .next (abortUpdate req arg s)

/-- VERIFY (R65). -/
def verifyCmd (req : Requester) (arg : BitVec 24) (s : State) : State :=
  issueCmd 0x11 req 0x05 arg (fun s =>
    if argOutside arg 0x3FF then .done .badArg 0 s
    else .hold { s with
      loader.verifying := some { op := 5, bank := argBank arg, block := argBlock arg } }) s

def execVerify (req : Requester) (arg : BitVec 24) (s : State) : Out := .next (verifyCmd req arg s)

def execVerifyDone (s : State) : Out :=
  .next (
    match s.loader.verifying with
    | some v =>
      if v.op = 5 && !norBusy s v.bank then
        let img := readImage s v.bank v.block
        let r := verifyImage s img (imgRoom v.block)
        let s1 := setLstat 5 r { s with loader.verifying := none }
        match r with
        | some (c, _) => finishCmd 0x11 .denied c s1
        | none => finishCmd 0x11 .ok (imgMask img) s1
      else s
    | none => s)

/-! NOR operations (R41, R42). -/

/-- Blocks an image occupies, from its first block. -/
def imgBlocks (s : State) (bank : Bool) (block : Nat) : Nat :=
  (min (max 1 (u32At (norRead s (norBase bank block + 8) 4) 0)) planMemory + 65535) / 65536

/-- Images no ERASE or PROGRAM may touch (R42): boot, alternate, journal sources, verified, applied or starting. -/
def heldImages (s : State) : List (Bool × Nat) :=
  s.plan.boot.toList ++ s.plan.alt.toList ++ s.loader.starting.toList
    ++ (s.loader.verifying.toList ++ s.loader.safeVerifying.toList).map (fun v => (v.bank, v.block))
    ++ s.plan.districts.cells.flatMap (fun (_, d) =>
        (d.journal.toList.map (fun j => (j.bank, j.block)))
          ++ (if d.state = .updating then [(d.ubank, d.ublock)] else []))

/-- Whether blocks [block, block + n) of a bank hold any of them. -/
def norHeld (s : State) (bank : Bool) (block n : Nat) : Bool :=
  (heldImages s).any (fun (b, k) => b = bank && k < block + n && block < k + imgBlocks s b k)

/-- ERASE (R41, R42). -/
def eraseCmd (req : Requester) (arg : BitVec 24) (s : State) : State :=
  issueCmd 0x11 req 0x06 arg (fun s =>
    let n := fld arg 16 8 + 1
    if argOutside arg 0xFF03FF || 512 < argBlock arg + n then .done .badArg 0 s
    else if s.loader.norOp.isSome then .done .busy 0 s
    else if norHeld s (argBank arg) (argBlock arg) n then .done .state 0 s
    else .done .ok 0 { s with
      plan.norBank := argBank arg
      loader.norOp := some { erase := true, bank := argBank arg, block := argBlock arg, count := n } }) s

def execErase (req : Requester) (arg : BitVec 24) (s : State) : Out := .next (eraseCmd req arg s)

/-- Whether [a, a + n) lies in shared SRAM or DRAM (spec/01). -/
def inRam (a n : Nat) : Bool :=
  (0x20000000 ≤ a && a + n ≤ 0x20200000) || (0x80000000 ≤ a && a + n ≤ 0x88000000)

/-- Bytes of the core address map. -/
def ramRead (s : State) (a n : Nat) : List Byte := Mem.readN 0 s.mem.main a n

def ramWrite (a : Nat) (l : List Byte) (s : State) : State :=
  { s with mem.main := Mem.writeN 0 s.mem.main a l }

/-- PROGRAM (R41, R42). -/
def programCmd (req : Requester) (arg : BitVec 24) (s : State) : State :=
  issueCmd 0x11 req 0x07 arg (fun s =>
    let len := s.plan.len.toNat
    let src := s.plan.src.toNat
    let start := norBase (argBank arg) (argBlock arg)
    let n := (len + 65535) / 65536
    if argOutside arg 0x3FF || len % 256 ≠ 0 || 0x1000000 < len || src % 4 ≠ 0 || !inRam src len
        || imgRoom (argBlock arg) < len then .done .badArg 0 s
    else if s.loader.norOp.isSome then .done .busy 0 s
    else if norHeld s (argBank arg) (argBlock arg) n || (norRead s start len).any (· ≠ 0xFF) then
      .done .state 0 s
    else .done .ok 0 { s with
      plan.norBank := argBank arg
      loader.norOp := some { bank := argBank arg, block := argBlock arg, count := n, src := src, len := len } }) s

def execProgram (req : Requester) (arg : BitVec 24) (s : State) : Out := .next (programCmd req arg s)

/-- `n` bytes the manual does not state. -/
def freeBytes (s : State) (n : Nat) : List Byte :=
  (List.range n).map (fun i => (Config.word (s.free + i)).setWidth 8)

/-- A NOR operation ends (R41); after a hardware failure the bytes it worked on hold free values.  PROGRAM takes its
source bytes as they stand when it ends: the manual does not say when it reads them (log entry 127). -/
def norDone (ok : Bool) (s : State) : State :=
  match s.loader.norOp with
  | none => s
  | some o =>
    let a := norBase o.bank o.block
    let n := if o.erase then 65536 * o.count else o.len
    let bytes := if ok then (if o.erase then List.replicate n 0xFF else ramRead s o.src n) else freeBytes s n
    let worn := if o.erase then
        (List.range o.count).foldl (fun t i =>
          t.upd 0 ((if o.bank then 512 else 0) + o.block + i) (· + 1)) s.plan.erases
      else s.plan.erases
    planEvent 5 0 0 (if ok then 0 else 6) { s with
      plan.nor := Mem.writeN 0xFF s.plan.nor a bytes
      plan.erases := worn
      plan.norLast := if ok then 0 else 6
      loader.norOp := none
      free := if ok then s.free else s.free + n }

end Sys2Proof.Machine
end

