-- ==== Sys2Proof/Machine/Gates.lean ====
section
/-! DEFINITION. Look-ups that every channel uses: plan entries, generations, claim gates, and the drive state of
each DIO and universal output (R130 to R133, R142, R273). -/

namespace Sys2Proof.Machine

/-- The running entry of a target. -/
def planEntry (s : State) (ty t : Nat) : Option Entry :=
  s.plan.entries.find? (fun e => e.ty = ty && e.target = t)

def planned (s : State) (ty t : Nat) : Bool := (planEntry s ty t).isSome

def entBody (e : Option Entry) : List Byte := match e with
  | some e => e.body
  | none => []

/-- Generation of a target, 0 for none (R49). -/
def genOf (s : State) (ty t : Nat) : Nat := match planEntry s ty t with
  | some e => e.gen.toNat
  | none => 0

/-- Channel entry type and target of analogue channel `c`: 0-31 UC, 32-79 LI. -/
def anaTy (c : Nat) : Nat := if c < 32 then 1 else 2
def anaTarget (c : Nat) : Nat := if c < 32 then c else c - 32

/-! Claim gates (R324): each stage has its own, in PD6. -/

/-- A gate of an output stage: open with PD6 off (R150, R324). -/
def gateDio (s : State) (n : Nat) : Bool := s.red.gates && domUp s 6 && !bitAt s.red.flt.dio n
def gateUc (s : State) (n : Nat) : Bool := s.red.gates && domUp s 6 && !bitAt s.red.flt.uc n
def gateLt (s : State) (tile : Nat) : Bool := s.red.gates && domUp s 6 && !bitAt s.red.flt.lt tile
def gateCan (s : State) (n : Nat) : Bool := s.red.gates && domUp s 6 && !bitAt s.red.flt.can n

/-- The gate of analogue channel `c`. -/
def gateAna (s : State) (c : Nat) : Bool := if c < 32 then gateUc s c else gateLt s ((c - 32) / 8)

def ucGet (s : State) (n : Nat) : UcChan := s.ucs.get {} n
def liGet (s : State) (n : Nat) : LiChan := s.lis.get {} n

/-- Default of a digital channel: a DIO's CFG resets with RETRY_T = 0x0A, a DI's to 0. -/
def digDefault (k : Nat) : DigChan := if k < 32 then {} else { cfg := 0, cfgF := 0 }
def digGet (s : State) (k : Nat) : DigChan := s.dig.chans.get (digDefault k) k
def dioGet (s : State) (n : Nat) : DioOut := s.dig.outs.get {} n

def updUc (n : Nat) (f : UcChan → UcChan) (s : State) : State := { s with ucs := s.ucs.upd {} n f }
def updLi (n : Nat) (f : LiChan → LiChan) (s : State) : State := { s with lis := s.lis.upd {} n f }
def updDig (k : Nat) (f : DigChan → DigChan) (s : State) : State :=
  { s with dig.chans := s.dig.chans.upd (digDefault k) k f }
def updDio (n : Nat) (f : DioOut → DioOut) (s : State) : State :=
  { s with dig.outs := s.dig.outs.upd {} n f }

def ucModeF (u : UcChan) : Nat := fld u.inForce.cfg 28 4
def ucIsOut (u : UcChan) : Bool := 8 ≤ ucModeF u && ucModeF u ≤ 11
def digMode (c : DigChan) : Nat := fld c.cfgF 28 4

/-- Number of a channel in the maintenance bank: UC 0-31, LI 32-79, DIO 80-111, DI 112-143. -/
def maintDio (n : Nat) : Nat := 80 + n
def maintDi (n : Nat) : Nat := 112 + n

/-! Tiles: 0-3 UT, 4-9 LT. -/

def tileGet (s : State) (t : Nat) : Tile := s.tiles.get {} t
def updTile (t : Nat) (f : Tile → Tile) (s : State) : State := { s with tiles := s.tiles.upd {} t f }

/-- Tile of analogue channel `c`. -/
def anaTile (c : Nat) : Nat := c / 8

/-- Page of a tile. -/
def tilePage (t : Nat) : Nat := 0x20 + t

/-- Whether a tile works: its domain is up and it is not restarting. -/
def tileUp (s : State) (t : Nat) : Bool := domUp s (if t < 4 then 4 else 5) && !(tileGet s t).restarting

/-! Safety outputs (R82): 0-31 DIO, 32-63 UC. -/

def safeOut (s : State) (o : Nat) : Option Entry := planEntry s 0x22 o

/-- The driver is held in its trip state: tripped, or until the boundary that follows. -/
def tripHeld (s : State) (o : Nat) : Bool := bitAt s.safe.outTrip o || bitAt s.safe.outHold o

/-! DIO drive state (R273, R286). -/

/-- Entry of a DIO, or its last one if it is retired. -/
def lastEntry (s : State) (ty t : Nat) : Option Entry :=
  (planEntry s ty t).orElse (fun _ => s.plan.retired.find? (fun e => e.ty = ty && e.target = t))

/-- The source of a DIO's drive state; `prot` is OVERLOAD or THERM (R273). -/
def dioSource (s : State) (n : Nat) (prot : Bool) : Nat :=
  if !gateDio s n then 0
  else if digMode (digGet s n) < 2 then 7
  else if prot then 1
  else if tripHeld s n then 2
  else if inMaint s (maintDio n) then (if bitAt (digGet s n).octlF 31 then 3 else 4)
  else if !planned s 3 n then 6
  else 5

def dioValue (s : State) (n source : Nat) : Bool :=
  match source with
  | 2 => match safeOut s n with
    | some e => bAt e.body 9 = 1
    | none => (dioGet s n).drive
  | 3 => bitAt (digGet s n).octlF 0
  | 4 => (dioGet s n).held
  | 5 => bitAt s.course.dioHeld n
  | 6 => bAt (entBody (lastEntry s 3 n)) 9 = 1
  | _ => false

/-- Field power has been back for 10 ms: outputs are judged (R422, R285). -/
def vfJudged (s : State) : Bool :=
  !s.sup.vfNone && (match s.sup.vfBack with
    | some c => decide (40 ≤ since s c)
    | none => true)

/-- Sets a drive state: a lamp switched on starts an inrush window, switching off starts a clamp (R275, R277), and a
driver whose gate opens is disconnected once no clamp runs (R285). -/
def dioSet (mode source : Nat) (drive : Bool) (o : DioOut) : DioOut :=
  let on := drive && !o.drive
  let clamp := if o.drive && !drive then true else o.clamp && !drive
  { o with
    source := BitVec.ofNat 3 source, drive := drive
    inrush := if on then mode = 3 else o.inrush && drive
    inrushUs := if on then 0 else o.inrushUs, inrushHeld := !on && o.inrushHeld
    clamp := clamp, connected := source ≠ 0 || (o.connected && clamp) }

/-- The inrush budget of 32 A (R278): where the channels in a window would together draw more, each is limited to its
share, but never below 1.0 A.  With 8 or fewer they cannot; with more, what the lamps would draw is not the part's, and
is free (log entry 139). -/
def inrushBudget (s : State) : State :=
  let k := ((List.range 32).filter (fun n => (dioGet s n).inrush)).length
  let limit := if 8 < k && bitAt (Config.word s.free) 0 then max 1000 (32000 / k) else 4000
  { s with
    dig.inrushLimit := limit, free := if 8 < k then s.free + 1 else s.free
    dig.outs := ⟨s.dig.outs.cells.map (fun c =>
      (c.1, { c.2 with inrushHeld := c.2.inrushHeld || (c.2.inrush && limit < 4000) }))⟩ }

/-- Re-selects the source of one DIO. -/
def dioResolve (n : Nat) (s : State) : State :=
  let o := dioGet s n
  let src := dioSource s n (o.overload || o.therm)
  updDio n (dioSet (digMode (digGet s n)) src (dioValue s n src)) s

/-! Universal output drive value (R130 to R133). -/

def f64LOW : Dword := f64ofRatio 7 2
def f64HIGH : Dword := f64ofRatio 216 10

/-- Span S of a mode in the unit of its drive value: mA, V, or % of VREFX (R127). -/
def outSpan (mode : Nat) : Dword :=
  if mode = 10 then f64ofInt 20 else if mode = 11 then f64ofInt 100 else f64ofInt 24

/-- Clamp to the range of R127. -/
def clampRange (mode : Nat) (v : Dword) : Dword :=
  fclamp (f64ofInt (outRange mode).1) (f64ofInt (outRange mode).2) v

/-- Clamp of a command or test value: range, then [OCLO, OCHI] (R131). -/
def clampCmd (u : UcChan) (v : Dword) : Dword :=
  fclamp (f32to64 u.inForce.oclo) (f32to64 u.inForce.ochi) (clampRange (ucModeF u) v)

/-- The source of a universal output's drive value (R130). -/
def ucSource (s : State) (n : Nat) : Nat :=
  let u := ucGet s n
  let latch := s.course.ucHeld.get (0, false) n
  let blockless := (planEntry s 1 n).all (fun e => entOutOfs e.body = 0)
  if !gateUc s n then 0
  else if u.out.therm then 1
  else if tripHeld s (32 + n) then 2
  else if latch.2 then 3
  else if inMaint s n then (if bitAt u.inForce.octl 31 then 4 else 5)
  else if blockless then 7
  else 6

/-- The output block of the channel's entry, or of its last one (R149, R153); empty where that holds none. -/
def outBlock (s : State) (n : Nat) : List Byte :=
  let b := entBody (lastEntry s 1 n)
  if entOutOfs b = 0 then [] else b.drop (entOutOfs b)

/-- RETIRE_ACT (R149): 0 OFF, 1 LOW, 2 FIXED; OFF without an output block (log entry 133). -/
def retireAct (s : State) (n : Nat) : Nat := bAt (outBlock s n) 0x15

def ucStart (s : State) (n : Nat) : Dword := f32to64 (w32At (outBlock s n) 4)

/-- The fault action (R133). -/
def faultValue (s : State) (n : Nat) : Dword :=
  let u := ucGet s n
  match fld u.inForce.octl 24 2 with
  | 1 => f64LOW
  | 2 => f64HIGH
  | 3 => clampRange (ucModeF u) (f32to64 u.inForce.ofix)
  | _ => u.out.faultHeld.getD (ucStart s n)

/-- The value a source asks for, before damping; none while the terminals are disconnected. -/
def ucTarget (s : State) (n source : Nat) : Option Dword :=
  let u := ucGet s n
  let m := ucModeF u
  match source with
  | 0 => none
  | 1 => some (if m = 8 ∨ m = 9 then f64LOW else 0)
  | 2 => match safeOut s (32 + n) with
    | some e => some (match bAt e.body 9 with
      | 0 => f64LOW
      | 1 => f64HIGH
      | _ => clampRange m (f32to64 (w32At e.body 0x0C)))
    | none => some u.out.drive
  | 3 => some (faultValue s n)
  | 4 => some (clampCmd u (f32to64 u.inForce.otest))
  | 5 => some u.out.maintHeld
  | 6 => some (clampCmd u (f32to64 (s.course.ucHeld.get (0, false) n).1))
  | _ => match retireAct s n with
    | 0 => none
    | 1 => some f64LOW
    | _ => some (clampRange m (f32to64 (w32At (outBlock s n) 0x18)))

/-- Factorial. -/
def fact : Nat → Nat
  | 0 => 1
  | n + 1 => (n + 1) * fact n

/-- 1 − e^(−1/n), from twenty terms of its series, rounded to binary64 (log entry 11). -/
def dampFraction (n : Nat) : Dword :=
  f64ofRatio ((List.range 20).foldl (fun (acc : Int) i =>
      let k := i + 1
      let t : Int := fact 20 / fact k * n ^ (20 - k)
      if k % 2 = 1 then acc + t else acc - t) 0) (fact 20 * n ^ 20)

/-- One boundary of damping from `d` towards `t` with time constant `tau` ms: the drive value, and whether damping
goes on (R142). -/
def dampStep (mode tau : Nat) (d t : Dword) : Dword × Bool :=
  if tau = 0 then (t, false)
  else
    let d' := fadd d (fmul (fsub t d) (dampFraction (4 * min tau 10000)))
    if fle (fabs (fsub t d')) (fdiv (outSpan mode) (f64ofInt 1000)) then (t, false) else (d', true)

/-- Re-selects the source of one universal output at once, without a boundary (a trip, THERM, a gate).  The protections
of PD6 act at once; for the other sources the output keeps its DAC code while its tile does not work (R147), and
commands and test values wait for the boundary. -/
def ucResolve (n : Nat) (s : State) : State :=
  let u := ucGet s n
  if ucIsOut u then
    let src := ucSource s n
    let waits := src = 4 || src = 6
    if 3 ≤ src && !tileUp s (n / 8) then
      updUc n (fun u => { u with out := { u.out with
        source := BitVec.ofNat 3 src, damping := false, drive := u.out.code } }) s
    else match ucTarget s n src with
    | some t =>
      updUc n (fun u => { u with out := { u.out with
        source := BitVec.ofNat 3 src, damping := u.out.damping && waits, owed := u.out.owed && waits
        drive := if waits then u.out.drive else t
        code := if 3 ≤ src && !waits then t else u.out.code } }) s
    | none => updUc n (fun u => { u with out := { u.out with source := BitVec.ofNat 3 src, damping := false } }) s
  else s

end Sys2Proof.Machine
end

