-- ==== Sys2Proof/Machine/Journal.lean ====
section
/-! DEFINITION. What feeds the log store (R390 to R393): the rings of the partitions, the alarm journal, the triggers
and samples of waveform captures, and the trend of published squares. -/

namespace Sys2Proof.Machine

/-- Bytes of an event record (R307). -/
def recBytes (e : EventRec) (seq : Word) : List Byte :=
  leBytes 4 seq.toNat ++ leBytes 4 e.cn.toNat ++ leBytes 8 e.ptp.toNat ++ [e.cls, e.code]
    ++ leBytes 2 e.source.toNat ++ leBytes 12 e.data.toNat

/-! Rings (R390). -/

def eraseBlock : Nat := 262144

def partSize (p : Nat) : Nat :=
  (match p with | 0 => 256 | 1 => 768 | 2 => 2048 | 3 => 768 | _ => 256) * 1048576

def logPart (s : State) (p : Nat) : LogPart := s.log.parts.get {} p
def updPart (p : Nat) (f : LogPart → LogPart) (s : State) : State := { s with log.parts := s.log.parts.upd {} p f }

/-- Bytes a partition's ring can hold (R400). -/
def partRoom (s : State) (p : Nat) : Nat := partSize p - (logPart s p).shrunk * eraseBlock

def itemBytes (l : List (Word × List Byte)) : Nat := (l.map (fun x => x.2.length)).sum

/-- Drops the oldest items until `n` bytes are free. -/
def dropOldest : Nat → List (Word × List Byte) → List (Word × List Byte)
  | _, [] => []
  | n, x :: r => if n ≤ x.2.length then r else dropOldest (n - x.2.length) r

/-- Overwrites the oldest erase blocks until `need` bytes fit. -/
def ringClear (room need : Nat) (x : LogPart) : LogPart :=
  iterate (fun x =>
    if x.size + need ≤ room then x
    else
      let l := dropOldest eraseBlock x.items
      { x with items := l, size := itemBytes l }) x.items.length x

/-- Writes one item as the newest: SEQ rises by 1. -/
def ringPut (p : Nat) (mk : Word → List Byte) (s : State) : State :=
  updPart p (fun x =>
    let b := mk (x.head + 1)
    let y := ringClear (partRoom s p) b.length x
    { y with head := x.head + 1, items := y.items ++ [(x.head + 1, b)], size := y.size + b.length }) s

/-- Items accepted and not committed (R396). -/
def uncommitted (s : State) (p : Nat) : List (Word × List Byte) :=
  (logPart s p).items.filter (fun x => 0 < (x.1 - (logPart s p).commit).toInt)

/-- Share of the buffer for a partition, bytes (R396). -/
def bufShare (p : Nat) : Nat :=
  match p with | 0 => 32768 | 1 => 16384 | 2 => 4096 | 3 => 12288 | _ => 0

def bufUsed (s : State) (p : Nat) : Nat := min (itemBytes (uncommitted s p)) (bufShare p)

/-- The store accepts records. -/
def logTakes (s : State) : Bool := domUp s 7 && s.log.ready

/-! The alarm journal (R391). -/

def journalRoom (s : State) : Bool := logTakes s && bufUsed s 0 + 32 ≤ bufShare 0

/-- A record reaches the journal feed: stored, or merged into its point's journal latch. -/
def journalTake (e : EventRec) (s : State) : State :=
  if journalRoom s && s.log.latches.cells.isEmpty then ringPut 0 (recBytes e) s
  else
    let p := e.source.toNat
    let l : OvLatch := { data := e.data, lost := satInc (s.log.latches.get {} p).lost }
    let s1 := { s with log.latches := s.log.latches.set p l }
    updPart 0 (fun x => { x with merged := satInc x.merged }) s1

/-- The next latched point: after the last one served, wrapping. -/
def journalNext (s : State) : Option Nat :=
  match s.log.latches.keys.find? (fun k => s.log.served < k) with
  | some k => some k
  | none => s.log.latches.keys.head?

/-- One SUMMARY while there is room. -/
def journalSummary (s : State) : State :=
  match journalNext s with
  | some p =>
    if journalRoom s then
      let l := s.log.latches.get {} p
      let e : EventRec :=
        { cn := s.course.cn, ptp := ptpNow s, cls := 1, code := 2, source := BitVec.ofNat 16 p
          data := (l.data &&& ~~~ (BitVec.ofNat 96 (0xFFFF * 2 ^ 64))) ||| BitVec.ofNat 96 (l.lost.toNat * 2 ^ 64) }
      ringPut 0 (recBytes e) { s with
        log.latches := s.log.latches.erase p, log.served := p, free := s.free + 1 }
    else s
  | none => s

/-- Empties the journal latches as far as there is room. -/
def journalServe (s : State) : State := iterate journalSummary s.log.latches.cells.length s

/-! Waveform captures (R393). -/

def capGet (s : State) (c : Nat) : CapBlk := s.log.caps.get {} c
def updCap (c : Nat) (f : CapBlk → CapBlk) (s : State) : State := { s with log.caps := s.log.caps.upd {} c f }

/-- Captures of UC`c` can be taken: EN = 1 in FAST_VOLTAGE or IEPE mode. -/
def capOn (s : State) (c : Nat) : Bool :=
  domUp s 7 && c < 8 && bitAt (capGet s c).cfgF 31 && (ucModeF (ucGet s c) = 5 || ucModeF (ucGet s c) = 6)

/-- Time from `b` to `a` in units of 1/65536 course. -/
def stampDiff (a b : Stamp) : Int := (a.cn - b.cn).toInt * 65536 + (a.sub.toNat : Int) - b.sub.toNat

/-- Units of 1/65536 course in `n` ms. -/
def msUnits (n : Nat) : Int := 262144 * n

/-- PTP time of a stamp of the last 8 s. -/
def ptpOf (s : State) (t : Stamp) : Dword :=
  s.ptp.time + BitVec.ofInt 64 (stampDiff t ⟨s.course.cn.setWidth 16, 0⟩ * 250000 / 65536)

/-- A trigger of UC`c`; one that arrives during a capture is ignored and counted. -/
def capTrigger (c : Nat) (t : Stamp) (s : State) : State :=
  if capOn s c then
    if (capGet s c).trig.isSome then { s with log.capMiss := satInc s.log.capMiss }
    else updCap c (fun x => { x with trig := some (t, ptpOf s t) }) s
  else s

/-- A fast sample joins the history: 256 ms of it, and what a capture being taken needs. -/
def capSample (c : Nat) (t : Stamp) (w : Word) (s : State) : State :=
  if capOn s c then
    updCap c (fun x =>
      let last := match x.trig with
        | some (g, _) => g
        | none => t
      { x with hist := x.hist.filter (fun h => stampDiff last h.1 ≤ msUnits 256) ++ [(t, w)] }) s
  else s

/-- Captures that wait for this point to become ACTIVE_UNACK. -/
def capAlarm (e : EventRec) (s : State) : State :=
  if fld e.data 13 3 = 1 then
    (List.range 8).foldl (fun s c =>
      let f := (capGet s c).cfgF
      if bitAt f 27 && fld f 16 11 = e.source.toNat then
        capTrigger c ⟨BitVec.ofNat 16 (fld e.data 48 16), BitVec.ofNat 16 (fld e.data 32 16)⟩ s
      else s) s
  else s

/-- Raises an alarm record: to the queues, to the journal and to the captures it triggers (R242, R391). -/
def raiseAlarm (p : Nat) (data : BitVec 96) (s : State) : State :=
  if domUp s 3 then
    let e : EventRec := { cn := s.course.cn, ptp := ptpNow s, cls := 1, code := 1, source := BitVec.ofNat 16 p, data := data }
    capAlarm e (journalTake e (raiseEv 1 1 p data s))
  else s

/-! Trend (R392). -/

/-- Takes one record of a channel into its second. -/
def trendRec (first out : Bool) (r : ARec) (a : TrendAcc) : TrendAcc :=
  let inv := bitAt r.status 14
  { values := if bitAt r.status 15 && !inv && (out || bitAt r.status 4) then a.values ++ [r.value] else a.values
    invalidSeen := a.invalidSeen || inv
    degraded := a.degraded || bitAt r.status 9
    genChanged := a.genChanged || (!first && a.gen ≠ r.gen)
    gen := r.gen }

def f32min (a b : Word) : Word := if fle (f32to64 a) (f32to64 b) then a else b
def f32max (a b : Word) : Word := if fle (f32to64 a) (f32to64 b) then b else a

/-- The 16 bytes of one channel. -/
def trendChan (a : TrendAcc) : List Byte :=
  let w : List Word := match a.values with
    | [] => [0x7FC00000, 0x7FC00000, 0x7FC00000]
    | v :: r => [r.foldl f32min v,
        f64to32 (fdiv (a.values.foldl (fun t x => fadd t (f32to64 x)) 0) (f64ofInt a.values.length)), r.foldl f32max v]
  w.flatMap (fun x => leBytes 4 x.toNat) ++ leBytes 2 a.values.length
    ++ [pack 8 [(0, b2n a.invalidSeen), (1, b2n a.degraded), (2, b2n a.genChanged)], a.gen]

/-- The trend record of a second. -/
def trendBytes (t : TrendBlk) (second : Dword) : List Byte :=
  leBytes 8 second.toNat ++ leBytes 4 t.cnFirst.toNat ++ leBytes 4 t.cnLast.toNat ++ leBytes 2 t.squares.toNat
    ++ leBytes 2 (b2n t.overrun + 2 * b2n t.notValid + 4 * b2n t.mirror) ++ List.replicate 12 0
    ++ (List.range 80).flatMap (fun c => trendChan (t.chans.get {} c))

/-- The second that was gathered ends: its record is formed, unless PD7 was off or the store not READY in it. -/
def trendEnd (s : State) : State :=
  let s1 := { s with log.trend := {} }
  match s.log.trend.second with
  | some x =>
    if s.log.trend.spoiled || s.log.trend.squares = 0 || !logTakes s then s1
    else ringPut 2 (fun _ => trendBytes s.log.trend x) s1
  | none => s1

/-- PTP second of a time. -/
def ptpSecond (t : Dword) : Dword := BitVec.ofNat 64 (t.toNat / 1000000000 * 1000000000)

/-- No record can be formed of the PTP second in progress. -/
def trendSpoil (s : State) : State :=
  { s with log.trend := { second := some (ptpSecond s.ptp.time), spoiled := true } }

/-- A published square is gathered. -/
def trendGather (q : Square) (s : State) : State :=
  let sec := ptpSecond (q.header.get 0 3 ++ q.header.get 0 2)
  let s1 := if s.log.trend.second = some sec then s else { trendEnd s with log.trend := { second := some sec } }
  let flags := q.header.get 0 4
  { s1 with log.trend :=
      let t := s1.log.trend
      let first := t.squares = 0
      { t with
        cnFirst := if first then q.cn else t.cnFirst
        cnLast := q.cn
        squares := t.squares + 1
        overrun := t.overrun || bitAt flags 0
        notValid := t.notValid || !bitAt flags 2
        mirror := t.mirror || bitAt flags 3
        spoiled := t.spoiled || !logTakes s
        chans := ⟨(List.range 80).map (fun c =>
          (c, trendRec first (c < 32 && ucIsOut (ucGet s c)) (q.ana.get {} c) (t.chans.get {} c)))⟩ } }

end Sys2Proof.Machine
end

