-- ==== Sys2Proof/Machine/Trip.lean ====
section
/-! DEFINITION. The trip path (R78 to R85, R350 to R359): lanes, the trip matrix and safety outputs. -/

namespace Sys2Proof.Machine

def laneGet (s : State) (n : Nat) : Lane := s.safe.lanes.get {} n

/-- Where a lane's tripped state is shown or used: with FAULT it is tripped (R359). -/
def laneTripped (l : Lane) : Bool := l.tripped || l.fault

def laneReleased (s : State) (n : Nat) : Bool := bitAt s.safe.relTl n
def outReleased (s : State) (o : Nat) : Bool := bitAt s.safe.relOut o

/-- Whether a lane counts as tripped in the matrix (R82, R352). -/
def laneCounts (s : State) (n : Nat) : Bool :=
  planned s 0x20 n && laneTripped (laneGet s n) && !laneReleased s n

/-- Whether the matrix, or FORCED, trips a safety output (R82, R352, R358). -/
def outTripped (s : State) (o : Nat) : Bool :=
  match safeOut s o with
  | some e =>
    s.safe.forced ||
      (!outReleased s o &&
        bAt e.body 8 ≤ ((List.range 64).filter (fun n => (u64At e.body 0).testBit n && laneCounts s n)).length)
  | none => false

/-- Tripped safety outputs now. -/
def tripMask (s : State) : Dword :=
  BitVec.ofNat 64 ((List.range 64).foldl (fun a o => if outTripped s o then a + 2 ^ o else a) 0)

/-- Drives a safety output after its tripped state has changed. -/
def tripDrive (o : Nat) (s : State) : State := if o < 32 then inrushBudget (dioResolve o s) else ucResolve (o - 32) s

/-- Re-evaluates the matrix: newly tripped outputs drive their trip state at once, and an output that ceases to be
tripped holds it until the boundary that follows (R82, R83). -/
def tripUpdate (s : State) : State :=
  let old := s.safe.outTrip
  let new := tripMask s
  let s1 := { s with
    safe.outTrip := new
    safe.outHold := (s.safe.outHold ||| (old &&& ~~~new)) &&& ~~~new }
  (below 64 (fun o => bitAt new o && !bitAt old o)).foldl (fun s o => tripDrive o s) s1

/-! Lane comparator. -/

/-- CONFIRM, LATCH and the INVALID policy of a lane's entry (R84). -/
def laneConfirm (b : List Byte) : Nat := bAt b 3
def laneLatch (b : List Byte) : Bool := bits (bAt b 2) 2 1 = 1
def lanePolicyTrip (b : List Byte) : Bool := bits (bAt b 2) 3 1 = 1

/-- A sample, or what counts as one, that is beyond a limit (R80). -/
def laneBeyond (b : List Byte) (l : Lane) : Lane :=
  if l.tripped then { l with count := 0 }
  else if laneConfirm b ≤ l.count + 1 then { l with tripped := true, count := 0 }
  else { l with count := l.count + 1 }

/-- A sample back inside on every enabled side (R80). -/
def laneInside (b : List Byte) (l : Lane) : Lane :=
  if l.tripped then
    if laneConfirm b ≤ l.count + 1 then
      (if laneLatch b then { l with count := laneConfirm b } else { l with tripped := false, count := 0 })
    else { l with count := l.count + 1 }
  else { l with count := 0 }

/-- Handling by the INVALID policy (R81). -/
def lanePolicy (b : List Byte) (l : Lane) : Lane :=
  if lanePolicyTrip b then laneBeyond b l else l

/-- One sample at a lane: counts, range tag, INVALID (R79 to R81).  `loop` selects the H limits alone.  A sample between
the two thresholds of a side that is already beyond counts as beyond for CONFIRM (log entry 130). -/
def laneSample (b : List Byte) (loop : Bool) (raw : Int) (tag : Nat) (invalid : Bool) (l : Lane) : Lane :=
  let l1 := { l with stale := false }
  if tag = 3 ∨ invalid = true then { lanePolicy b l1 with lastInside := false }
  else
    let high := loop || tag = 0
    let up := i32At b (if high then 0x04 else 0x0C)
    let lo := i32At b (if high then 0x08 else 0x10)
    let hy : Int := u32At b (if high then 0x14 else 0x18)
    let enU := bits (bAt b 2) 0 1 = 1
    let enL := bits (bAt b 2) 1 1 = 1
    let ub := enU && (if up ≤ raw then true else if raw < up - hy then false else l.upBeyond)
    let lb := enL && (if raw ≤ lo then true else if lo + hy < raw then false else l.loBeyond)
    let l2 := { l1 with upBeyond := ub, loBeyond := lb, lastInside := !(ub || lb) }
    if ub || lb then laneBeyond b l2 else laneInside b l2

/-- Lanes bound to analogue channel `c` (0-31 UC, 32-79 LI). -/
def lanesOf (s : State) (c : Nat) : List Nat :=
  below 64 (fun n => match planEntry s 0x20 n with
    | some e => bAt e.body 0 = anaTy c && bAt e.body 1 = anaTarget c
    | none => false)

/-- The trip channel: a sample of channel `c` reaches its lanes while the safety island is up (R78). -/
def tripChannel (c : Nat) (raw : Word) (tag : Nat) (invalid : Bool) (s : State) : State :=
  if domUp s 1 then
    let ls := lanesOf s c
    if ls.isEmpty then s
    else tripUpdate (ls.foldl (fun s n =>
      { s with
        safe.lanes := s.safe.lanes.upd {} n
          (laneSample (entBody (planEntry s 0x20 n)) (32 ≤ c) raw.toInt tag invalid) }) s)
  else s

/-- R81: no sample for STALE µs; one sample handled by the policy, repeated every STALE µs. -/
def execLaneStale (n : Fin 64) (s : State) : Out :=
  .next (
    match planEntry s 0x20 n.val with
    | some e =>
      if domUp s 1 then
        tripUpdate { s with
          safe.lanes := s.safe.lanes.upd {} n.val
            (fun l => { lanePolicy e.body l with stale := true, lastInside := false }) }
      else s
    | none => s)

/-- DATA of a SAFE event (R362). -/
def safeEvent (code target detail : Nat) (s : State) : State :=
  blockEv 0x18 code (target + detail % 65536 * 2 ^ 16) s

/-- Orders an active unit of a pair to yield at the next boundary (R339); an order already given stands. -/
def orderYield (cause : Nat) (s : State) : State :=
  if claimed s && !isSolo s && s.red.yieldNext.isNone then { s with red.yieldNext := some (BitVec.ofNat 3 cause) } else s

/-- R359: the two comparators of a lane disagree. -/
def execLaneFault (n : Fin 64) (s : State) : Out :=
  .next (
    if domUp s 1 then
      orderYield 4 (safeEvent 8 n.val 0 (tripUpdate
        { s with safe.lanes := s.safe.lanes.upd {} n.val (fun l => { l with fault := true }) }))
    else s)

/-- R358: 8 consecutive faulted courses with gates enabled. -/
def forceSet (s : State) : State :=
  safeEvent 6 0 s.safe.faultRun.toNat (tripUpdate { s with safe.forced := true })

def execForceSet (s : State) : Out :=
  .next (if domUp s 1 && 8 ≤ s.safe.faultRun.toNat && s.red.gates && !s.safe.forced then forceSet s else s)

end Sys2Proof.Machine
end

