-- ==== Sys2Proof/Machine/Universal.lean ====
section
/-! DEFINITION. Universal channels in the tile (ch. 04, 05): samples and ranging, excitation, IEPE, guard, cold
junction, open tests, thermal fold-back. -/

namespace Sys2Proof.Machine

/-- D of a rate code (R95). -/
def rateD (rate : Nat) : Nat := if 8 ≤ rate then 32 else 3

def ucRate (u : UcChan) : Nat := fld u.inForce.cfg 24 4

/-- DATA of a channel event (R126): channel in tile, generation, detail. -/
def chanEvent (c code detail : Nat) (s : State) : State :=
  blockEv (tilePage (anaTile c)) code
    (c % 8 + genOf s (anaTy c) (anaTarget c) * 2 ^ 8 + min detail 65535 * 2 ^ 16) s

/-- Path and tag of a sample and the ranging state after it (R98). -/
structure Ranged where
  low : Bool
  tag : BitVec 2
  nextLow : Bool
  ret : Nat

/-- Counts of a decimator word: rounded to nearest, ties to even, to 24 bits (R202). -/
def counts (w : Word) : Word :=
  let i := w.toInt
  let q := i / 256
  let r := i % 256
  BitVec.ofInt 32 (min 8388607 (if 128 < r ∨ (r = 128 ∧ q % 2 = 1) then q + 1 else q))

def rangeSample (inLow : Bool) (ret : Nat) (m : Conversion) : Ranged :=
  let h := (counts m.high).toInt.natAbs
  let l := (counts m.low).toInt.natAbs
  if m.ovlHigh && m.ovlLow then ⟨true, 3, true, 0⟩
  else if m.ovlHigh then ⟨true, 2, true, 0⟩
  else if !inLow then
    if 7864320 ≤ h then ⟨false, 0, true, 0⟩ else ⟨false, 0, false, 0⟩
  else if l * 80 ≤ 6291456 then
    if ret = 3 then ⟨true, 1, false, 0⟩ else ⟨true, 1, true, ret + 1⟩
  else ⟨true, 1, true, 0⟩

/-- Raw counts of an over-range sample, with the sign of the overload (R101). -/
def overRangeRaw (w : Word) : Word := if w.toInt < 0 then 0xFF800000 else 0x007FFFFF

/-- The spare that serves a role: its number, if any (R103). -/
def spareFor (t : Tile) (ch : Nat) (low : Bool) : Option Nat :=
  if t.spare0 = some ⟨ch, low⟩ then some 0
  else if t.spare1 = some ⟨ch, low⟩ then some 1
  else none

/-- The range-tag byte (R102). -/
def tagByte (tag : BitVec 2) (sp : Option Nat) : Byte :=
  pack 8 [(0, tag.toNat), (2, b2n sp.isSome), (3, sp.getD 0)]

/-- Status with VALID, INVALID and REASON, and further low bits (R122). -/
def mkStatus (reason low : Nat) : Half :=
  pack 16 [(15, 1), (14, b2n (reason ≠ 0)), (10, reason), (0, low)]

/-- First reason that applies, in the order given (R123, R165). -/
def firstReason : List (Bool × Nat) → Nat
  | [] => 0
  | (c, r) :: t => if c then r else firstReason t

/-- Full scale of a path of a universal input in the unit of x (R91). -/
def ucFullScale (u : UcChan) (low : Bool) : Dword :=
  let m := ucModeF u
  if m = 2 then (if low then f64ofInt 2 else f64ofRatio 25 1000)
  else if m = 3 then
    (if bitAt u.inForce.cfg 21 then (if low then f64ofInt 50000 else f64ofInt 625)
     else (if low then f64ofInt 12500 else f64ofRatio 15625 100))
  else if low then f64ofRatio 125 10 else f64ofRatio 15625 100000

/-- x of a decimator word: word × FS / 2^31, in binary64 (R202). -/
def xOf (w : Word) (fs : Dword) : Dword := fdiv (fmul (f64ofInt w.toInt) fs) (f64ofInt 2147483648)

/-- A sample joins the others that became ready in its course: least and greatest x, sum of squares, number (R113; the
order of the sum is log entry 39's). -/
def gatherFast (old : Option Sample) (v : Dword) (x : Sample) : Sample :=
  match old with
  | some o =>
    if o.fresh && o.count ≠ 0 then { x with
      minimum := if flt v o.minimum then v else o.minimum
      maximum := if flt o.maximum v then v else o.maximum
      sumSq := fadd o.sumSq (fmul v v), count := o.count + 1 }
    else { x with minimum := v, maximum := v, sumSq := fmul v v, count := 1 }
  | none => { x with minimum := v, maximum := v, sumSq := fmul v v, count := 1 }

/-- IEPE coupling still settling (R114). -/
def iepeSettling (s : State) (i : UcIn) : Bool :=
  match i.iepeUntil with
  | some c => 0 < (c - s.course.cn).toInt
  | none => false

/-- The settling of an IEPE coupling that has ended is over for good (R114). -/
def iepeBoundary (s : State) : State :=
  (List.range 32).foldl (fun s n =>
    let i := (ucGet s n).inp
    if i.iepeUntil.isSome && !iepeSettling s i then
      updUc n (fun u => { u with inp := { u.inp with iepeUntil := none } }) s
    else s) s

/-- Whether a universal input channel produces samples: its mode is an input mode and, where it drives the
field, its gate is enabled (R115). -/
def ucSamples (s : State) (n : Nat) : Bool :=
  let m := ucModeF (ucGet s n)
  1 ≤ m && m ≤ 6 && ((m ≠ 2 && m ≠ 3 && m ≠ 6) || gateUc s n)

/-- Puts a sample into the course island's latch while that island is up. -/
def latchSample (c : Nat) (x : Sample) (s : State) : State :=
  if domUp s 3 then { s with course.latch := s.course.latch.set c x } else s

/-- A sample of a universal input channel (R98, R101, R107, R109, R112, R117, R119).  In CURRENT mode the low path is
never overloaded (R93). -/
def sampleIn (n : Nat) (m : Conversion) (s : State) : State :=
  let u := ucGet s n
  let i := u.inp
  let t := tileGet s (n / 8)
  let r := rangeSample i.low i.ret { m with ovlLow := m.ovlLow && ucModeF u ≠ 2 }
  let word := if r.low then m.low else m.high
  let raw := if r.tag = 3 then overRangeRaw m.low else counts word
  let wires := fld u.inForce.cfg 22 2
  let sp := spareFor t (n % 8) r.low
  let reason := firstReason [
    (i.excFault || i.excMark ≠ 0, 3), (i.short || i.shortMark ≠ 0, 4), (i.openF, 5),
    (ucModeF u = 4 && t.cjFault, 6), (r.tag = 3, 7), (i.settle ≠ 0 || iepeSettling s i, 8)]
  let x : Sample :=
    { word := word, raw := raw, tag := tagByte r.tag sp
      status := mkStatus reason (if ucModeF u = 4 && t.cjDegraded then 32 else 0)
      stamp := stampNow s m.sub, fresh := true
      lead := if ucModeF u ≠ 3 then 0 else if wires = 0 then fld u.inForce.lead 0 20 else if wires = 1 then m.lead else 0 }
  let s1 := updUc n (fun u => { u with
    sticky := if r.tag = 3 then setBit u.sticky 4 true else u.sticky
    inp := { u.inp with
      low := r.nextLow, ret := r.ret, tag := r.tag, spare := sp.isSome
      excMark := u.inp.excMark - 1, shortMark := u.inp.shortMark - 1, settle := u.inp.settle - 1 } }) s
  latchSample n (gatherFast (s.course.latch.get? n) (xOf word (ucFullScale u r.low)) x)
    (tripChannel n raw r.tag.toNat (reason ≠ 0 || inMaint s n) s1)

/-- A course window of a universal output channel ends (R128, R151). -/
def sampleOut (n : Nat) (m : Conversion) (s : State) : State :=
  let sp := spareFor (tileGet s (n / 8)) (n % 8) true
  let x : Sample :=
    { word := m.low, raw := counts m.low, tag := tagByte 1 sp, status := mkStatus 0 0, stamp := stampNow s 0, fresh := true
      readback := m.out.readback }
  let s1 := updUc n (fun u => { u with
    win := some m.out
    inp := { u.inp with tag := 1, spare := sp.isSome }
    out := { u.out with settle := 0, temp := m.out.temp } }) s
  latchSample n x (tripChannel n (counts m.low) 1 (inMaint s n) s1)

/-- A sample or course window of a universal channel. -/
def sampleUc (n : Nat) (m : Conversion) (s : State) : State :=
  if tileUp s (n / 8) then
    let s1 := updTile (n / 8) (fun t => { t with temp := m.temp }) s
    if ucSamples s n then sampleIn n m s1
    else if ucIsOut (ucGet s n) then sampleOut n m s1
    else s1
  else s

/-! Excitation monitor, IEPE, guard. -/

/-- Modes whose excitation is monitored (R105). -/
def excMonitored (u : UcChan) : Bool :=
  let m := ucModeF u
  m = 3 || m = 6 || (m = 2 && fld u.inForce.lim 0 16 ≠ 0)

def updInp (n : Nat) (f : UcIn → UcIn) (s : State) : State := updUc n (fun u => { u with inp := f u.inp }) s

def ucSticky (n bit : Nat) (s : State) : State :=
  updUc n (fun u => { u with sticky := setBit u.sticky bit true }) s

/-- R105, R106: one 50 µs reading.  Where no reading is
taken (LIVE_ZERO written 0, the claim gates open), EXC_FAULT and SHORT keep their values (log entry 131). -/
def execExcMonitorReading (n : Fin 32) (reading : ExcReading) (s : State) : Out :=
  let permille := reading.permille
  let u := ucGet s n.val
  .next (
    if tileUp s (n.val / 8) && excMonitored u && gateUc s n.val then
      let lowRun := if permille.toNat < 900 then u.inp.excLow + 1 else 0
      let goodRun := if 950 ≤ permille.toNat then u.inp.excGood + 1 else 0
      let s1 := updInp n.val (fun i => { i with
        excmon := permille, excLow := lowRun, excGood := goodRun, bias := if ucModeF u = 6 then reading.bias else i.bias }) s
      if !u.inp.excFault && 2 ≤ lowRun then
        chanEvent n.val 1 permille.toNat (ucSticky n.val 0
          (updInp n.val (fun i => { i with excFault := true }) s1))
      else if u.inp.excFault && 20 ≤ goodRun then
        chanEvent n.val 2 0 (updInp n.val (fun i => { i with
          excFault := false, excMark := rateD (ucRate u)
          iepeUntil := if ucModeF u = 6
            then some (s.course.cn + (if bitAt u.inForce.cfg 18 then 2000 else 20000)) else i.iepeUntil }) s1)
      else s1
    else s)

/-- R106: the bias has been below 1.0 V for 1 ms. -/
def execIepeShortSet (n : Fin 32) (bias : Half) (s : State) : Out :=
  let u := ucGet s n.val
  .next (
    if tileUp s (n.val / 8) && ucModeF u = 6 && gateUc s n.val then
      let s1 := updInp n.val (fun i => { i with bias := bias, short := true }) s
      if u.inp.short then s1 else chanEvent n.val 3 bias.toNat (ucSticky n.val 1 s1)
    else s)

/-- R106, R114: the bias has been above 2.0 V for 1 ms. -/
def execIepeShortClear (n : Fin 32) (bias : Half) (s : State) : Out :=
  let u := ucGet s n.val
  .next (
    if tileUp s (n.val / 8) && ucModeF u = 6 && gateUc s n.val then
      if u.inp.short then
        chanEvent n.val 4 0 (updInp n.val (fun i => { i with
          bias := bias, short := false, shortMark := rateD (ucRate u)
          iepeUntil := some (s.course.cn + (if bitAt u.inForce.cfg 18 then 2000 else 20000)) }) s)
      else updInp n.val (fun i => { i with bias := bias }) s
    else s)

/-- R90: the guard buffer enters or leaves current limiting; without a guard it does not limit. -/
def execGrdLimit (n : Fin 32) (limiting : Bool) (s : State) : Out :=
  let u := ucGet s n.val
  .next (
    if tileUp s (n.val / 8) && bitAt u.inForce.cfg 20 && 1 ≤ ucModeF u && ucModeF u ≤ 6 then
      let s1 := updInp n.val (fun i => { i with grdLimit := limiting }) s
      if limiting && !u.inp.grdLimit then chanEvent n.val 7 0 (ucSticky n.val 3 s1) else s1
    else s)

/-! Cold junction (R111, R112). -/

/-- R112: the sensors of a universal tile are sampled and judged. -/
def execCjSample (t : Fin 4) (cja cjb : Half) (failA failB : Bool) (s : State) : Out :=
  let o := tileGet s t.val
  let n : Tile := { o with
    cja := cja, cjb := cjb, cjaFail := failA, cjbFail := failB, cjFault := failA && failB
    cjDegraded := (failA != failB) || (!failA && !failB && 500 < (cja.toInt - cjb.toInt).natAbs) }
  let word (x : Tile) : Nat := b2n x.cjDegraded + 2 * b2n x.cjFault + 4 * b2n x.cjaFail + 8 * b2n x.cjbFail
  .next (
    if tileUp s t.val then
      let s1 := { s with tiles := s.tiles.set t.val n }
      if word o = word n then s1 else blockEv (tilePage t.val) 8 (word n * 2 ^ 16) s1
    else s)

/-! Open tests (R109, R125). -/

/-- The modes in which an open test can run. -/
def openTestable (u : UcChan) : Bool := ucModeF u = 1 || ucModeF u = 4 || ucModeF u = 5

/-- Ends an OPEN_TEST command in progress on a channel ABORTED, and drops an ordered test (R125). -/
def abortOpenTest (n : Nat) (s : State) : State :=
  let i := (ucGet s n).inp
  let s1 := updInp n (fun i => { i with openOrder := false, openCmd := false }) s
  if i.openCmd then endIfRunning (tilePage (n / 8)) 2 .aborted 0 s1 else s1

/-- R125: OPEN_TEST.  One in progress when the claim gates open stays BUSY until a conversion with the test ends (log
entry 132). -/
def openTest (req : Requester) (t : Fin 4) (arg : BitVec 24) (s : State) : State :=
  issueCmd (tilePage t.val) req 2 arg (fun s =>
    let n := 8 * t.val + fld arg 0 3
    if argOutside arg 7 then .done .badArg 0 s
    else if !openTestable (ucGet s n) || !gateUc s n || (tileGet s t.val).restarting then .done .state 0 s
    else .hold (updInp n (fun i => { i with openCmd := true }) s)) s

def execOpenTest (req : Requester) (t : Fin 4) (arg : BitVec 24) (s : State) : Out := .next (openTest req t arg s)

/-- R109, R125: the conversion that holds a test ends, with the loop resistance measured.  A test in progress when the
claim gate opens stays BUSY (log entry 132). -/
def execOpenTestDone (n : Fin 32) (ohms : Nat) (s : State) : Out :=
  let u := ucGet s n.val
  let i := u.inp
  let lim := fld u.inForce.lim 16 16
  .next (
    if (i.openOrder || i.openCmd) && tileUp s (n.val / 8) && gateUc s n.val && openTestable u then
      let o := if lim = 0 then false else if lim * 1000 < ohms then true
        else if ohms < lim * 1000 then false else i.openF
      let s1 := updInp n.val (fun i => { i with
        openR := satNat 24 ohms, openValid := true, openOrder := false, openCmd := false, openF := o }) s
      let s2 := if o && !i.openF then chanEvent n.val 5 (ohms / 1000) (ucSticky n.val 2 s1)
        else if !o && i.openF then chanEvent n.val 6 (ohms / 1000) s1
        else s1
      if i.openCmd then endIfRunning (tilePage (n.val / 8)) 2 .ok (min ohms 0xFFFFFF) s2 else s2
    else s)

/-! Thermal fold-back of an output driver (R141), in PD6. -/

def execOutputThermSet (n : Fin 32) (temp : Half) (s : State) : Out :=
  let u := ucGet s n.val
  .next (
    if domUp s 6 && ucIsOut u then
      let s1 := updUc n.val (fun u => { u with
        osticky := setBit u.osticky 3 true, out := { u.out with therm := true, temp := temp } }) s
      let s2 := ucResolve n.val s1
      if u.out.therm then s2 else chanEvent n.val 0x0E (temp.toInt / 10).toNat s2
    else s)

def execOutputThermClear (n : Fin 32) (temp : Half) (s : State) : Out :=
  let u := ucGet s n.val
  .next (
    if domUp s 6 && ucIsOut u && u.out.therm then
      chanEvent n.val 0x0F (temp.toInt / 10).toNat (ucResolve n.val
        (updUc n.val (fun u => { u with out := { u.out with therm := false, direct := true, temp := temp } }) s))
    else s)

end Sys2Proof.Machine
end

