-- ==== Sys2Proof/Machine/Loop.lean ====
section
/-! DEFINITION. Loop inputs and HART (ch. 06): loop power, burdens, bands, samples, modems and transactions. -/

namespace Sys2Proof.Machine

def liMode (l : LiChan) : Nat := fld l.cfgF 28 4
def liMultidrop (l : LiChan) : Bool := bitAt l.cfgF 22
def liNdev (l : LiChan) : Nat := fld l.cfgF 18 4
def liUnjudged (l : LiChan) : Bool := bitAt l.cfgF 17 || liMultidrop l

/-- Sample current in µA, rounded down (R159). -/
def liCurrent (word : Word) : Int := word.toInt * 25000 / 2147483648

/-- NE 43 band of a sample (R162): 0 measurement, 1 saturated low, 2 saturated high, 3 fault low, 4 fault high,
5 not judged. -/
def liBand (l : LiChan) (word : Word) : Nat :=
  let v := word.toInt * 250
  let at_ (tenths : Int) : Int := tenths * 2147483648
  if liUnjudged l then 5
  else if v < at_ 36 then 3
  else if at_ 210 < v then 4
  else if v < at_ 38 then 1
  else if at_ 205 < v then 2
  else 0

/-- Whether the per-device current lies inside [PARK_LO, PARK_HI] (R182). -/
def liParkInside (l : LiChan) (word : Word) : Bool :=
  let v := word.toInt * 25000
  let d : Int := liNdev l * 2147483648
  (fld l.parkF 0 16 : Int) * d ≤ v && v ≤ (fld l.parkF 16 16 : Int) * d

/-- PARK_FAULT and its runs after a sample (R182). -/
def liPark (l : LiChan) (word : Word) : LiChan :=
  if liMultidrop l then
    if liParkInside l word then
      { l with parkIn := l.parkIn + 1, parkOut := 0, parkFault := l.parkFault && l.parkIn + 1 < 10 }
    else
      { l with
        parkOut := l.parkOut + 1, parkIn := 0, parkFault := l.parkFault || 10 ≤ l.parkOut + 1
        sticky := if 10 ≤ l.parkOut + 1 ∧ l.parkFault = false then setBit l.sticky 3 true else l.sticky }
  else l

def liEvent (n code detail : Nat) (s : State) : State := chanEvent (32 + n) code detail s

/-- A loop input produces samples: MODE LOOP and its burden's gate enabled (R184). -/
def liSamples (s : State) (n : Nat) : Bool := liMode (liGet s n) = 1 && gateLt s (n / 8)

/-- A sample of a loop input (R159 to R165), with the loop-power source as it stands (R157). -/
def sampleLi (n : Nat) (m : Conversion) (s : State) : State :=
  if tileUp s (4 + n / 8) && liSamples s n then
    let l := liGet s n
    let word := m.high
    let raw := if m.ovlHigh then overRangeRaw word else counts word
    let tag : BitVec 2 := if m.ovlHigh then 3 else 0
    let band := liBand l word
    let fault := band = 3 || band = 4
    let sp := spareFor (tileGet s (4 + n / 8)) (n % 8) false
    let l1 := liPark l word
    let reason := firstReason [
      (l.pwrShort || l.shortMark ≠ 0, 4), (l.burdenProt || l.burdenMark ≠ 0, 10), (fault, 9), (tag = 3, 7),
      (l.settle ≠ 0, 8)]
    let low := 8 * b2n (band = 1) + 4 * b2n (band = 2) + 2 * b2n (liMultidrop l) + b2n l1.parkFault
    let x : Sample :=
      { word := word, raw := raw, tag := tagByte tag sp, status := mkStatus reason low, stamp := stampNow s m.sub, fresh := true }
    let was := l.band = 3 || l.band = 4
    let st := setBit (if tag = 3 then setBit l1.sticky 6 true else l1.sticky) 0 (fault || bitAt l1.sticky 0)
    let s1 := updLi n (fun _ => { l1 with
      pwrVolt := m.pwrVolt, pwrCurrent := m.pwrCurrent
      sticky := st, band := BitVec.ofNat 4 band, current := BitVec.ofInt 16 (liCurrent word), tag := tag
      spare := sp.isSome, shortMark := l.shortMark - 1, burdenMark := l.burdenMark - 1, settle := l.settle - 1 }) s
    let micro (v : Int) : Nat := (BitVec.ofInt 16 v).toNat
    let cur := micro (liCurrent word)
    let per := micro (liCurrent word / (max 1 (liNdev l) : Nat))
    let s2 := if fault && !was then liEvent n 5 cur s1 else if !fault && was then liEvent n 6 cur s1 else s1
    let s3 := if l1.parkFault && !l.parkFault then liEvent n 7 per s2
      else if !l1.parkFault && l.parkFault then liEvent n 8 per s2 else s2
    latchSample (32 + n) x (tripChannel (32 + n) raw tag.toNat (reason ≠ 0 || inMaint s (32 + n))
      (updTile (4 + n / 8) (fun t => { t with temp := m.temp }) s3))
  else if tileUp s (4 + n / 8) && liMode (liGet s n) = 1 then
    updLi n (fun l => { l with pwrVolt := m.pwrVolt, pwrCurrent := m.pwrCurrent }) s
  else s

/-! Loop power (R157) and burdens (R158). -/

/-- Loop power is switched on: asked for, and not shut off. -/
def liPowered (l : LiChan) : Bool := liMode l = 1 && bitAt l.cfgF 23 && !(l.pwrShort && !l.pwrTrial)

def liRateD : Nat := 3

/-- R157: in limit for 1 ms, at first or within a trial. -/
def execLoopPwrShort (n : Fin 48) (current : Half) (s : State) : Out :=
  let l := liGet s n.val
  .next (
    if tileUp s (4 + n.val / 8) && liPowered l then
      let s1 := updLi n.val (fun l => { l with
        pwrShort := true, pwrTrial := false, pwrCurrent := current, sticky := setBit l.sticky 1 true }) s
      if l.pwrShort then s1 else liEvent n.val 1 current.toNat s1
    else s)

def execLoopPwrTrial (n : Fin 48) (s : State) : Out :=
  .next (
    if tileUp s (4 + n.val / 8) && (liGet s n.val).pwrShort then
      updLi n.val (fun l => { l with pwrTrial := true }) s
    else s)

/-- R157: the 10 ms trial ends; `limited` whether the source was in limit for 1 ms within it. -/
def execLoopPwrTrialEnd (n : Fin 48) (limited : Bool) (s : State) : Out :=
  let l := liGet s n.val
  .next (
    if tileUp s (4 + n.val / 8) && l.pwrShort && l.pwrTrial then
      if limited then updLi n.val (fun l => { l with pwrTrial := false }) s
      else liEvent n.val 2 0 (updLi n.val (fun l => { l with
        pwrTrial := false, pwrShort := false, shortMark := liRateD }) s)
    else s)

/-- The burden is closed: MODE LOOP, gate enabled, not opened by its protection. -/
def liBurdenClosed (s : State) (n : Nat) : Bool :=
  let l := liGet s n
  liMode l = 1 && gateLt s (n / 8) && !(l.burdenProt && !l.burdenTrial)

/-- R158: above 30 mA for 100 µs. -/
def execBurdenProt (n : Fin 48) (current : Half) (s : State) : Out :=
  let l := liGet s n.val
  .next (
    if tileUp s (4 + n.val / 8) && liBurdenClosed s n.val then
      let s1 := updLi n.val (fun l => { l with
        burdenProt := true, burdenTrial := false, sticky := setBit l.sticky 2 true }) s
      if l.burdenProt then s1 else liEvent n.val 3 current.toNat s1
    else s)

def execBurdenTrial (n : Fin 48) (s : State) : Out :=
  .next (
    if tileUp s (4 + n.val / 8) && (liGet s n.val).burdenProt then
      updLi n.val (fun l => { l with burdenTrial := true }) s
    else s)

/-- R158: the trial ends; `calm` whether the current stayed at or below 27 mA throughout. -/
def execBurdenTrialEnd (n : Fin 48) (calm : Bool) (s : State) : Out :=
  let l := liGet s n.val
  .next (
    if tileUp s (4 + n.val / 8) && l.burdenProt && l.burdenTrial then
      if calm then liEvent n.val 4 0 (updLi n.val (fun l => { l with
        burdenTrial := false, burdenProt := false, burdenMark := liRateD }) s)
      else updLi n.val (fun l => { l with burdenTrial := false }) s
    else s)

/-! HART (R170 to R189). -/

def modem (s : State) (m : Nat) : Modem := s.hart.modems.get {} m
def updModem (m : Nat) (f : Modem → Modem) (s : State) : State :=
  { s with hart.modems := s.hart.modems.upd {} m f }
def desc (s : State) (b : Nat) : HartDesc := s.hart.descs.get {} b
def updDesc (b : Nat) (f : HartDesc → HartDesc) (s : State) : State :=
  { s with hart.descs := s.hart.descs.upd {} b f }

/-- Analogue channel of a KIND and CH pair: 0 loop input, 1 universal channel. -/
def hartChan (kind ch : Nat) : Nat := if kind = 0 then 32 + ch else ch

def descChan (d : HartDesc) : Nat := hartChan (fld d.ctl 23 1) (fld d.ctl 16 6)

/-- Whether HART is available on a channel (R170). -/
def hartAble (s : State) (c : Nat) : Bool :=
  if c < 32 then ucModeF (ucGet s c) = 8 || ucModeF (ucGet s c) = 9
  else c < 80 && liMode (liGet s (c - 32)) = 1

/-- A descriptor becomes DONE (R177, R189). -/
def hartDone (b result : Nat) (s : State) : State :=
  let s1 := updDesc b (fun d => { d with state := .done, result := BitVec.ofNat 3 result, cn := s.course.cn }) s
  let s2 := { s1 with hart.queue := s1.hart.queue.filter (· ≠ b) }
  blockEv 0x2B 1 (b + result * 2 ^ 8 + (desc s2 b).rspLen.toNat * 2 ^ 16) s2

/-- The turn a modem is in, as its entry lists it. -/
def modemTurn (s : State) (m : Nat) : Nat × Nat × Nat :=
  (hartTurns (entBody (planEntry s 9 m))).getD (modem s m).turn (0xFF, 0, 0)

/-- Couples a modem to its turn's channel: idle if none, gated off, or held by another modem, a turn that `count` counts
(R175, R178). -/
def coupleModem (m : Nat) (count : Bool) (s : State) : State :=
  let t := modemTurn s m
  let c := hartChan t.1 t.2.1
  if t.1 = 0xFF then updModem m (fun x => { x with coupled := none }) s
  else if (List.range 8).any (fun k => k ≠ m && ((modem s k).coupled.map Fin.val) = some c) then
    updModem m (fun x => { x with
      coupled := none, conflict := if count then satInc x.conflict else x.conflict }) s
  else if h : c < 80 then
    updModem m (fun x => { x with coupled := if gateAna s c then some ⟨c, h⟩ else none }) s
  else s

/-- R174: the modem's turn cycle advances at WI 0; a transaction in progress keeps the modem (R176). -/
def hartAdvance (m : Nat) (s : State) : State :=
  let x := modem s m
  let ts := hartTurns (entBody (planEntry s 9 m))
  if ts.isEmpty then s
  else
    let turn := if x.fresh then 0 else if 1 < x.wallsLeft then x.turn else (x.turn + 1) % ts.length
    let left := if !x.fresh && 1 < x.wallsLeft then x.wallsLeft - 1 else (ts.getD turn (0xFF, 0, 0)).2.2
    let moved := x.fresh || x.wallsLeft ≤ 1
    let s1 := updModem m (fun x => { x with turn := turn, wallsLeft := left, fresh := false }) s
    if moved && x.active.isNone then coupleModem m true s1 else s1

/-- The transaction of a modem ends; the modem then takes up the turn in progress, which counts in CONFLICT where the
channel is held (R175, R176). -/
def hartEnd (m b result : Nat) (s : State) : State :=
  coupleModem m true (updModem m (fun x => { x with
    active := none, tx := false, cd := false, retryWait := false, frame := [], txLeft := 0 })
    (hartDone b result s))

/-- The claim gates have enabled or disconnected the channels: modems in no transaction couple or uncouple (R178; log
entry 134). -/
def hartRegate (s : State) : State :=
  (List.range 8).foldl (fun s m => if (modem s m).active.isNone then coupleModem m false s else s) s

/-- RT1 and RT2 in ms (R171). -/
def hartRt1 (s : State) : Nat := if bitAt s.hart.cfg 0 then 380 else 305

/-- Preamble characters: other values act as the nearer limit. -/
def hartPre (s : State) : Nat := max 5 (min 20 (fld s.hart.cfg 8 5))

/-- Whether T_req + RT1 + RT2 of the turn remains (R176), in µs × 1200. -/
def hartFits (s : State) (m b : Nat) : Bool :=
  let left := (modem s m).wallsLeft * s.plan.wall - s.course.wi
  let chars := hartPre s + fld (desc s b).ctl 0 9 + 1
  chars * 11000000 + (hartRt1 s + 75) * 1200000 ≤ left * 300000

/-- The frame of a request (R171): preamble, request bytes, longitudinal parity of these. -/
def hartFrame (s : State) (b : Nat) : List Byte :=
  let d := desc s b
  let req := ramRead s d.req.toNat (fld d.ctl 0 9)
  List.replicate (hartPre s) 0xFF ++ req ++ [req.foldl (· ^^^ ·) 0]

/-- Courses that `n` characters of 11 bits take at 1200 bit/s, rounded up. -/
def hartCourses (n : Nat) : Nat := (n * 110 + 2) / 3

/-- A modem begins to send the frame of descriptor `b`. -/
def hartSend (m b : Nat) (s : State) : State :=
  let f := hartFrame s b
  updModem m (fun x => { x with
    active := some b, tx := true, cd := false, retryWait := false, frame := f, txLeft := hartCourses f.length }) s

/-- One course less to send and to defer; a coupled modem that does not send may hold a carrier, that of a response or
of foreign traffic, which the step that ends it does not announce (CD; log entry 135). -/
def hartBoundary (s : State) : State :=
  let s1 := (List.range 8).foldl (fun s m =>
    let x := modem s m
    let tx := x.tx && 1 < x.txLeft
    if x.coupled.isSome || x.tx || x.cd || x.deferLeft ≠ 0 then updModem m (fun x => { x with
      txLeft := x.txLeft - 1, tx := tx, deferLeft := x.deferLeft - 1
      cd := x.coupled.isSome && !tx && !x.retryWait && bitAt (Config.word s.free) m }) s
    else s) s
  { s1 with free := s1.free + 1 }

/-- The first queued descriptor of a channel. -/
def hartNext (s : State) (c : Nat) : Option Nat := s.hart.queue.find? (fun b => descChan (desc s b) = c)

def execHartTransactionStart (m : Fin 8) (s : State) : Out :=
  let x := modem s m.val
  .next (
    match x.coupled with
    | some c =>
      match hartNext s c.val with
      | some b =>
        if domUp s 3 && x.active.isNone && x.deferLeft = 0 && gateAna s c.val && hartFits s m.val b then
          hartSend m.val b
            (updDesc b (fun d => { d with state := .active, tries := 0 })
              { s with hart.queue := s.hart.queue.filter (· ≠ b) })
        else s
      | none => s
    | none => s)

/-- A try fails: RT2 and another one, or the end with `result` (R171, R177). -/
def hartFail (m result : Nat) (s : State) : State :=
  let x := modem s m
  match x.active with
  | some b =>
    if x.retryWait then s
    else if (desc s b).tries < fld (desc s b).ctl 24 2 then
      updModem m (fun x => { x with tx := false, cd := false, txLeft := 0, retryWait := true }) s
    else hartEnd m b result s
  | none => s

def execHartRt1Expiry (m : Fin 8) (s : State) : Out := .next (hartFail m.val 1 s)

def execHartRetry (m : Fin 8) (s : State) : Out :=
  let x := modem s m.val
  .next (
    match x.active with
    | some b =>
      if x.retryWait then
        hartSend m.val b
          (updDesc b (fun d => { d with tries := d.tries + 1 }) s)
      else s
    | none => s)

/-- A received character in the order of its bits: start bit, eight data bits, odd parity, stop bit (R171). -/
def hartCharOk (c : BitVec 11) : Bool :=
  !c.getLsbD 0 && c.getLsbD 10 && (List.range 9).foldl (fun a i => a != c.getLsbD (1 + i)) false

def hartByte (c : BitVec 11) : Byte := c.extractLsb' 1 8

/-- Parity and framing of every character, and the longitudinal parity of the body (R171; log entry 136). -/
def hartPasses (lead chars : List (BitVec 11)) : Bool :=
  (lead ++ chars).all hartCharOk && 2 ≤ chars.length && (chars.map hartByte).foldl (· ^^^ ·) 0 = 0

/-- R171: the characters of a response, its preamble `lead` first; what passes is stored from the delimiter through the
data. -/
def execHartResponse (m : Fin 8) (lead chars : List (BitVec 11)) (s : State) : Out :=
  let x := modem s m.val
  let bytes := ((chars.map hartByte).dropLast).take 264
  .next (
    match x.active with
    | some b =>
      if x.retryWait then s
      else if hartPasses lead chars then
        let a := (desc s b).rsp.toNat
        let s1 := if inRam a 264 then
            ramWrite a bytes s
          else s
        hartEnd m.val b 0 (updDesc b (fun d => { d with rspLen := BitVec.ofNat 9 bytes.length }) s1)
      else hartFail m.val 2 s
    | none => s)

/-- R172: a frame outside the modem's own transaction is discarded and counted, and requests are deferred for RT1. -/
def execHartForeignFrame (m : Fin 8) (s : State) : Out :=
  let x := modem s m.val
  .next (
    if x.coupled.isSome && x.active.isNone then
      updModem m.val (fun x => { x with
        foreign := satInc x.foreign, cd := false, deferLeft := 4 * hartRt1 s }) s
    else s)

/-- Whether a channel is in a turn of a running allocation. -/
def hartInTurn (s : State) (c : Nat) : Bool :=
  (List.range 8).any (fun m => (hartTurns (entBody (planEntry s 9 m))).any
    (fun t => t.1 ≠ 0xFF && hartChan t.1 t.2.1 = c))

/-- R188: SUBMIT. -/
def submitCmd (req : Requester) (arg : BitVec 24) (s : State) : State :=
  issueCmd 0x2B req 1 arg (fun s =>
    let b := fld arg 0 4
    let d := desc s b
    let len := fld d.ctl 0 9
    let c := descChan d
    if argOutside arg 0xF then .done .badArg 0 s
    else if d.state ≠ .free then .done .state 0 s
    else if len < 4 || 263 < len then .done .badArg 0 s
    else if !hartAble s c || !gateAna s c then .done .state 0 s
    else if hartInTurn s c then
      .done .ok 0 (updDesc b (fun d => { d with state := .queued, tries := 0, rspLen := 0, result := 0 })
        { s with hart.queue := s.hart.queue ++ [b] })
    else .done .ok 0 (hartDone b 5 (updDesc b (fun d => { d with rspLen := 0, tries := 0 }) s))) s

def execSubmit (req : Requester) (arg : BitVec 24) (s : State) : Out := .next (submitCmd req arg s)

def hartCancel (req : Requester) (arg : BitVec 24) (s : State) : State :=
  issueCmd 0x2B req 2 arg (fun s =>
    let b := fld arg 0 4
    if argOutside arg 0xF then .done .badArg 0 s
    else if (desc s b).state = .queued then .done .ok 0 (hartDone b 4 s)
    else .done .state 0 s) s

def execHartCancel (req : Requester) (arg : BitVec 24) (s : State) : Out := .next (hartCancel req arg s)

def hartRelease (req : Requester) (arg : BitVec 24) (s : State) : State :=
  issueCmd 0x2B req 3 arg (fun s =>
    let b := fld arg 0 4
    if argOutside arg 0xF then .done .badArg 0 s
    else if (desc s b).state = .done then
      .done .ok 0 (updDesc b (fun d => { d with state := .free }) s)
    else .done .state 0 s) s

def execRelease (req : Requester) (arg : BitVec 24) (s : State) : Out := .next (hartRelease req arg s)

/-- R188: CTL (0), REQ (1) or RSP (2) of a descriptor, taken only while it is FREE. -/
def hartDescWrite (b : Fin 16) (reg : Fin 3) (value : Word) (s : State) : State :=
  pageWriteIf 0x2B (fun s =>
    if (desc s b.val).state = .free then
      (updDesc b.val (fun d => match reg with
        | 0 => { d with ctl := value &&& 0x03BF01FF }
        | 1 => { d with req := value }
        | 2 => { d with rsp := value }) s, true)
    else (setSticky 0x2B 1 s, false)) s

def execHartDescWrite (b : Fin 16) (reg : Fin 3) (value : Word) (s : State) : Out :=
  .next (hartDescWrite b reg value s)

/-- ACTIVE transactions of the channels that `p` names end ABORTED, and QUEUED ones too if `queued` (R179). -/
def hartAbort (p : Nat → Bool) (queued : Bool) (s : State) : State :=
  let s1 := (List.range 8).foldl (fun s m =>
    match (modem s m).active with
    | some b => if p (descChan (desc s b)) then hartEnd m b 3 s else s
    | none => s) s
  if queued then
    (s1.hart.queue.filter (fun b => p (descChan (desc s1 b)))).foldl (fun s b => hartDone b 3 s) s1
  else s1

/-- Queued transactions of channels in no turn end NO_TURN (R179). -/
def hartNoTurn (s : State) : State :=
  (s.hart.queue.filter (fun b => !hartInTurn s (descChan (desc s b)))).foldl (fun s b => hartDone b 5 s) s

end Sys2Proof.Machine
end

