-- ==== Sys2Proof/Machine/Cal.lean ====
section
/-! DEFINITION. Calibration (ch. 07): references, spare-path rotation, warm-up, field calibration. -/

namespace Sys2Proof.Machine

def tileCal (s : State) (t : Nat) : TileCal := s.tileCal.get {} t
def updTileCal (t : Nat) (f : TileCal → TileCal) (s : State) : State :=
  { s with tileCal := s.tileCal.upd {} t f }

def conv (s : State) (t c : Nat) : Converter := (tileCal s t).convs.get {} c
def updConv (t c : Nat) (f : Converter → Converter) (s : State) : State :=
  updTileCal t (fun x => { x with convs := x.convs.upd {} c f }) s

/-- Converters of a tile: 0 to 15 the paths (2 × channel + path) or 0 to 7 a loop tile's channels, 16 and 17 the
spares (R468, R211). -/
def convKeys (t : Nat) : List Nat := if t < 4 then List.range 18 else List.range 8 ++ [16]

/-- Calibration age in walls (R200). -/
def convAge (s : State) (t c : Nat) : Nat := (tileCal s t).walls - (conv s t c).mark

/-- A CAL event (R211). -/
def calEvent (code tile detail : Nat) (s : State) : State := blockEv 0x2A code (tile + detail * 2 ^ 16) s

/-! Transfer comparison and cross-check. -/

/-- XFER_FAIL clears after 3 consecutive comparisons within 10 ppm of the last good value (R195). -/
def xferJudge (good : Bool) (x : TileCal) : TileCal :=
  if !x.xferFail || !good then { x with xferOk := 0 }
  else { x with xferFail := decide (x.xferOk + 1 < 3), xferOk := if x.xferOk + 1 < 3 then x.xferOk + 1 else 0 }

/-- R195, R210: at the end of a wall a tile's transfer standard is compared; `value` is the new assigned value in
0.01 ppm from nominal.  A tile that owes a COMMIT takes it whatever its step. -/
def execTransferComparison (t : Fin 10) (value : Int) (s : State) : Out :=
  let x := tileCal s t.val
  let step := match x.transfer with
    | some v => (value - v).natAbs
    | none => 0
  .next (
    if tileUp s t.val && domUp s 3 then
      if x.owesCommit || x.transfer.isNone then
        updTileCal t.val (fun x => { xferJudge (decide (step ≤ 1000)) x with
          transfer := some value, owesCommit := false
          commitTransfer := if x.commitTransfer.isNone || x.owesCommit then some value else x.commitTransfer }) s
      else if x.xferFail then
        updTileCal t.val (fun x =>
          let y := xferJudge (decide (step ≤ 1000)) x
          { y with transfer := if y.xferFail then x.transfer else some value }) s
      else if 1000 < step then
        calEvent 5 t.val (min (step / 10) 65535) (updTileCal t.val (fun x => { x with xferFail := true, xferOk := 0 }) s)
      else updTileCal t.val (fun x => { x with transfer := some value }) s
    else s)

def insertInt (n : Int) : List Int → List Int
  | [] => [n]
  | m :: r => if n ≤ m then n :: m :: r else m :: insertInt n r

/-- Twice the median of the ten changes of the transfer values since the last COMMIT (R197). -/
def transferMedian2 (s : State) : Int :=
  let l := ((List.range 10).map (fun t =>
    match (tileCal s t).transfer, (tileCal s t).commitTransfer with
    | some v, some b => v - b
    | _, _ => 0)).foldl (fun a v => insertInt v a) []
  l.getD 4 0 + l.getD 5 0

/-- CULPRIT (R197). -/
def culprit (s : State) (d : Int) : BitVec 2 :=
  let m2 := (transferMedian2 s).natAbs
  if d.natAbs ≤ m2 then 1 else if 2 * m2 < d.natAbs then 2 else 0

/-- R196, R197: the ratio REFA to 2 × REFB of the wall, in 0.01 ppm from nominal. -/
def execRefCrosscheck (ratio : Int) (s : State) : Out :=
  let d := ratio - s.cal.ratioBase
  .next (
    if domUp s 3 then
      let s1 := { s with cal.ratioLast := ratio, cal.diff := BitVec.ofInt 24 d, cal.culprit := culprit s d }
      if 2000 < d.natAbs then
        let s2 := { s1 with cal.refDisagree := true, cal.okWalls := 0 }
        if s.cal.refDisagree then s2 else calEvent 1 0xF (min (d.natAbs / 10) 65535) s2
      else if s.cal.refDisagree then
        if 1500 < d.natAbs then { s1 with cal.okWalls := 0 }
        else if s.cal.okWalls + 1 < 3 then { s1 with cal.okWalls := s.cal.okWalls + 1 }
        else calEvent 2 0xF (d.natAbs / 10) { s1 with cal.okWalls := 0, cal.refDisagree := false }
      else s1
    else s)

/-! Rotation (R198 to R201). -/

/-- The role of converter `c` of a tile. -/
def convRole (t c : Nat) : SpareRole := if t < 4 then ⟨c / 2, c % 2 = 1⟩ else ⟨c, false⟩

/-- Channel in tile of a path converter. -/
def convChan (t c : Nat) : Nat := if t < 4 then c / 2 else c

/-- MODE in force of a tile's channel. -/
def tileMode (s : State) (t k : Nat) : Nat :=
  if t < 4 then ucModeF (ucGet s (8 * t + k)) else liMode (liGet s (8 * (t - 4) + k))

def setSpare (t sp : Nat) (r : Option SpareRole) (s : State) : State :=
  updTile t (fun x => if sp = 0 then { x with spare0 := r } else { x with spare1 := r }) s

/-- The spare serves a path out of service for good (R201). -/
def spareTaken (s : State) (t sp : Nat) : Bool :=
  (tileCal s t).convs.cells.any (fun c => c.2.served = some sp)

/-- Whether a turn of converter `c` with spare `sp` may run: none of them out of service, the spare free for
rotation, the channel not in the open session (R201, R209). -/
def turnAllowed (s : State) (t c sp : Nat) : Bool :=
  !(conv s t c).out
    && !(s.cal.session ≠ 0 && t < 4 && s.cal.ch = 8 * t + convChan t c)
    && (tileMode s t (convChan t c) = 0 || (!(conv s t (16 + sp)).out && !spareTaken s t sp))

/-- Key of a turn: the spare, or for a path of an OFF channel 2 + converter. -/
def startTurn (t c sp : Nat) (s : State) : State :=
  if turnAllowed s t c sp then
    if tileMode s t (convChan t c) = 0 then
      updTileCal t (fun x => { x with turns := x.turns.set (2 + c) { conv := c, step := 4, solo := true } }) s
    else updTileCal t (fun x => { x with turns := x.turns.set sp { conv := c, step := 1 } }) s
  else s

/-- R199: a rotation order: started, held, or dropped and counted. -/
def rotationOrder (t c sp : Nat) (s : State) : State :=
  if tileUp s t then
    let x := tileCal s t
    if (x.turns.get? sp).isNone then startTurn t c sp s
    else if (x.held.get? sp).isNone then updTileCal t (fun x => { x with held := x.held.set sp c }) s
    else { s with cal.dropped := satInc s.cal.dropped }
  else s

/-- A turn ends; the order its spare holds starts (R199). -/
def endTurn (t key : Nat) (s : State) : State :=
  let h := (tileCal s t).held.get? key
  let s1 := updTileCal t (fun x => { x with turns := x.turns.erase key, held := x.held.erase key }) s
  match h with
  | some c => startTurn t c key s1
  | none => s1

/-- Whether a calibration lies within 10 ppm of gain and 5 ppm of offset of the previous one (R201). -/
def calAccepted (x : Converter) (gain offset : Int) : Bool :=
  match x.consts with
  | some (g, o) => (gain - g).natAbs ≤ 1000 && (offset - o).natAbs ≤ 500
  | none => true

/-- A calibration of converter `c` ends: age 0, constants taken or rejected; two rejections put it out of service
(R200, R201). -/
def calibrate (t c : Nat) (gain offset : Int) (s : State) : State :=
  let x := conv s t c
  let ok := calAccepted x gain offset
  let s1 := updConv t c (fun x => { x with
    mark := (tileCal s t).walls, overdue := false
    consts := if ok then some (gain, offset) else x.consts
    rejects := if ok then 0 else x.rejects + 1
    out := x.out || (!ok && 2 ≤ x.rejects + 1) }) s
  if !x.out && (conv s1 t c).out then
    calEvent 3 t ((if 4 ≤ t && c < 8 then 2 * c else c)) s1
  else s1

/-- R198, R201: the step in progress of a turn ends.  `gain` and `offset` are the constants a calibration step
measured, in 0.01 ppm. -/
def execRotationStepEnd (t : Fin 10) (key : Fin 18) (gain offset : Int) (s : State) : Out :=
  .next (
    match (tileCal s t.val).turns.get? key.val with
    | none => s
    | some u =>
      let move (n : Nat) (s : State) : State := updTileCal t.val (fun x => { x with
        turns := x.turns.set key.val { u with step := n } }) s
      if u.step = 1 then
        let s1 := calibrate t.val (16 + key.val) gain offset s
        if (conv s1 t.val (16 + key.val)).out then endTurn t.val key.val s1 else move 2 s1
      else if u.step = 2 then move 4 (setSpare t.val key.val (some (convRole t.val u.conv)) s)
      else if u.step = 4 then
        let s1 := calibrate t.val u.conv gain offset s
        if u.solo then endTurn t.val key.val s1
        else if (conv s1 t.val u.conv).out then
          endTurn t.val key.val (updConv t.val u.conv (fun x => { x with served := some key.val }) s1)
        else move 5 s1
      else endTurn t.val key.val (setSpare t.val key.val none s))

/-- R200: a converter's age exceeds 64 walls. -/
def execCalOverdue (t : Fin 10) (c : Fin 18) (s : State) : Out :=
  let age := convAge s t.val c.val
  .next (
    if domUp s 3 && (convKeys t.val).contains c.val && 64 < age && !(conv s t.val c.val).overdue then
      calEvent 4 t.val (min age 65535) (updConv t.val c.val (fun x => { x with overdue := true }) s)
    else s)

/-- A tile's domain comes up, or the tile restarts: rotation starts anew (R200, R201). -/
def resetTileCal (t : Nat) (s : State) : State :=
  updTile t (fun x => { x with spare0 := none, spare1 := none })
    (updTileCal t (fun x => { x with walls := 0, convs := {}, turns := {}, held := {} }) s)

/-! Warm-up and age of the field calibration. -/

/-- R194: the count of a tile reaches 0. -/
def execWarmupDone (t : Fin 10) (s : State) : Out :=
  .next (
    if (tileGet s t.val).warm && (tileGet s t.val).warmLeft = 0 then
      calEvent 6 t.val 0 (updTile t.val (fun x => { x with warm := false }) s)
    else s)

/-- CAL_AGED (R190). -/
def calAged (s : State) : Bool := s.cal.aged || !s.cal.dateValid

/-- Event 0x07 where CAL_AGED has become set since `before` (R211). -/
def agedEvent (before s : State) : State :=
  if !calAged before && calAged s then calEvent 7 0xF s.cal.days.toNat s else s

/-- R190: more than 365 days since the last COMMIT; `days` is what the calendar now gives. -/
def execCalAged (days : Half) (s : State) : Out :=
  .next (
    if 365 < days.toNat && s.cal.days.toNat ≤ days.toNat then
      agedEvent s { s with cal.days := days, cal.aged := true }
    else s)

/-- DAYS after one course more: a day is 86,400 s of 4,000 courses (R211; log entry 137). -/
def daysBoundary (s : State) : State :=
  if s.cal.dayCourses + 1 < 345600000 then { s with cal.dayCourses := s.cal.dayCourses + 1 }
  else { s with cal.dayCourses := 0, cal.days := satInc s.cal.days }

/-- What the records of the course that begins carry of REF_DISAGREE and of a COMMIT (R196, R210). -/
def calBoundary (s : State) : State :=
  { s with
    cal.refMark := s.cal.refDisagree
    tileCal := ⟨s.tileCal.cells.map (fun c => (c.1, { c.2 with owedMark := c.2.owesCommit }))⟩ }

/-! Accuracy bits of a record (R190). -/

/-- The converters that serve a channel now: its paths, or the spares in their roles. -/
def servingConvs (s : State) (c : Nat) : List Nat :=
  let t := anaTile c
  let serve (path : Nat) (low : Bool) : Nat := match spareFor (tileGet s t) (c % 8) low with
    | some sp => 16 + sp
    | none => path
  if 32 ≤ c then [serve (c % 8) false]
  else if ucIsOut (ucGet s c) then [serve (2 * (c % 8) + 1) true]
  else [serve (2 * (c % 8)) false, serve (2 * (c % 8) + 1) true]

/-- Bits [9:6] of the record of analogue channel `c`, but for what its T source adds. -/
def accuracyBits (s : State) (c : Nat) : Nat :=
  let t := anaTile c
  let temp := (tileGet s t).temp.toInt
  let refs := s.cal.refDisagree && s.cal.refMark
  let degraded := refs || (servingConvs s c).any (fun k => (conv s t k).overdue)
    || (tileCal s t).xferFail || temp < -2500 || 8500 < temp
    || ((tileCal s t).owesCommit && (tileCal s t).owedMark)
  512 * b2n degraded + 256 * b2n refs + 128 * b2n (tileGet s t).warm
    + 64 * b2n (calAged s)

/-! Field calibration (R207 to R210). -/

def sessionOpen (req : Requester) (arg : BitVec 24) (s : State) : State :=
  issueCmd 0x2A req 1 arg (fun s =>
    let n := fld arg 0 5
    if argOutside arg 0x1F then .done .badArg 0 s
    else if s.cal.session ≠ 0 || !inMaint s n || (tileGet s (n / 8)).warm || s.cal.refDisagree then .done .state 0 s
    else .done .ok 0 { s with
      cal.session := 1, cal.ch := n, cal.savedCfg := (ucGet s n).regs.cfg
      cal.v10 := {}, cal.r100 := {}, cal.r10k := {} }) s

def execSessionOpen (req : Requester) (arg : BitVec 24) (s : State) : Out := .next (sessionOpen req arg s)

/-- Nominal value of a point: 10 V, 100 Ω, 10 kΩ. -/
def calNominal (p : Nat) : Int := if p = 0 then 10 else if p = 1 then 100 else 10000

/-- CAL_CERT within 100 ppm of the point's nominal value. -/
def certOk (s : State) (p : Nat) : Bool :=
  let cert : Dword := s.cal.certHi ++ s.cal.certLo
  fle (fabs (fsub cert (f64ofInt (calNominal p)))) (f64ofRatio (calNominal p) 10000)

/-- CFG of the session channel for a point (R209): VOLTAGE, or RESISTANCE 4-wire with an excitation, and for a
channel at a fast rate a normal rate, that the manual does not state. -/
def sessionCfg (s : State) (p : Nat) : Word :=
  let old := (ucGet s s.cal.ch).regs.cfg
  let f := Config.word s.free
  let rate := if fld old 24 4 ≤ 5 then fld old 24 4 else fld f 8 8 % 6
  pack 32 [(28, if p = 0 then 1 else 3), (24, rate), (22, if p = 0 then 0 else 2),
    (21, if p = 0 then 0 else fld f 0 1), (18, fld old 18 3)]

def measureCmd (req : Requester) (arg : BitVec 24) (s : State) : State :=
  issueCmd 0x2A req 2 arg (fun s =>
    let p := fld arg 0 2
    if argOutside arg 3 || p = 3 || !certOk s p then .done .badArg 0 s
    else if s.cal.session ≠ 1 || (p ≠ 0 && !gateUc s s.cal.ch) then .done .state 0 s
    else
      let cfg := sessionCfg s p
      .hold (updUc s.cal.ch (fun u => { u with regs := { u.regs with cfg := cfg } })
        { s with cal.session := 2, cal.measuring := p, free := s.free + 1 })) s

def execMeasure (req : Requester) (arg : BitVec 24) (s : State) : Out := .next (measureCmd req arg s)

def setPoint (p : Nat) (x : CalPoint) (s : State) : State :=
  if p = 0 then { s with cal.v10 := x } else if p = 1 then { s with cal.r100 := x } else { s with cal.r10k := x }

/-- R209: the measurement ends with its deviation, or too noisy. -/
def execMeasureDone (ok : Bool) (dev : BitVec 24) (s : State) : Out :=
  .next (
    if s.cal.session = 2 then
      let s1 := setPoint s.cal.measuring (if ok then ⟨true, dev⟩ else {}) { s with cal.session := 1 }
      endIfRunning 0x2A 2 (if ok then .ok else .hwFault) (if ok then dev.toNat else 0) s1
    else s)

def commitCmd (req : Requester) (arg : BitVec 24) (s : State) : State :=
  issueCmd 0x2A req 3 arg (fun s =>
    if arg ≠ 0 then .done .badArg 0 s
    else if !(s.cal.v10.valid && s.cal.r100.valid && s.cal.r10k.valid) then .done .state 0 s
    else if [s.cal.v10, s.cal.r100, s.cal.r10k].any (fun p => 5000 < p.dev.toInt.natAbs) then .done .denied 1 s
    else .hold s) s

def execCommit (req : Requester) (arg : BitVec 24) (s : State) : Out := .next (commitCmd req arg s)

/-- Closes the session: measurements discarded, the channel's CFG restored (R209). -/
def closeSession (s : State) : State :=
  updUc s.cal.ch (fun u => { u with regs := { u.regs with cfg := s.cal.savedCfg } })
    { s with cal.session := 0, cal.v10 := {}, cal.r100 := {}, cal.r10k := {} }

/-- Whole number nearest to a / b. -/
def roundDiv (a : Int) (b : Nat) : Int := (2 * a + b) / (2 * b)

/-- New drift rate in 0.001 ppm per year: the old one less the deviation, in 0.01 ppm, over the interval in days
(R207). -/
def newRate (old : Half) (dev : Int) (days : Nat) : Int :=
  old.toInt - roundDiv (dev * 10 * 36525) (100 * days)

/-- An assigned value after `days` at its rate while prediction is active (R207). -/
def assigned (s : State) (a : Dword) (rate : Half) (days : Nat) : Dword :=
  if s.cal.pred then
    fmul a (fadd (f64ofInt 1) (f64ofRatio (rate.toInt * days * 100) (36525 * 1000000000)))
  else a

/-- Multiplied by (1 − deviation), the deviation in 0.01 ppm (R210). -/
def lessDev (a : Dword) (dev : BitVec 24) : Dword :=
  fmul a (fsub (f64ofInt 1) (f64ofRatio dev.toInt 100000000))

/-- Takes new drift rates from deviations over `d` days; a rate above 5 ppm per year is not taken, and prediction stops
(R207). -/
def takeRates (da d100 d10k : Int) (d : Nat) (s : State) : State :=
  let old (r : Half) : Half := if s.cal.pred then r else 0
  let a := newRate (old s.cal.rateA) da d
  let b := newRate (old s.cal.rate100) d100 d
  let c := newRate (old s.cal.rate10k) d10k d
  if [a, b, c].any (fun r => 5000 < r.natAbs) then { s with cal.pred := false, cal.predBase := false }
  else { s with
    cal.pred := true, cal.rateA := BitVec.ofInt 16 a, cal.rate100 := BitVec.ofInt 16 b
    cal.rate10k := BitVec.ofInt 16 c }

/-- Ageing prediction at a COMMIT (R207): on `day` if the RTC is valid, `days` after the one before if both dates are.
It starts with the first COMMIT at least 365 days after one since it last stopped: from the deviations since the COMMIT
just before where that lies 365 days back, else from those since the first (log entry 138). -/
def predict (day : Option Half) (days : Option Nat) (s : State) : State :=
  let far := days.filter (365 ≤ ·)
  let s1 := { s with
    cal.devA := s.cal.devA + s.cal.v10.dev.toInt, cal.dev100 := s.cal.dev100 + s.cal.r100.dev.toInt
    cal.dev10k := s.cal.dev10k + s.cal.r10k.dev.toInt }
  let last (d : Nat) : State := takeRates s.cal.v10.dev.toInt s.cal.r100.dev.toInt s.cal.r10k.dev.toInt d s1
  if s.cal.pred then (match far with
    | some d => last d
    | none => s1)
  else if s.cal.predBase then (match far, day with
    | some d, _ => last d
    | none, some d =>
      let n := d.toNat - s.cal.predDay.toNat
      if 365 ≤ n then takeRates s1.cal.devA s1.cal.dev100 s1.cal.dev10k n s1 else s1
    | none, none => s1)
  else (match day with
    | some d => { s with cal.predBase := true, cal.predDay := d, cal.devA := 0, cal.dev100 := 0, cal.dev10k := 0 }
    | none => s)

/-- R210: COMMIT finishes on the RTC's date `day`, in days since 2000-01-01. -/
def execCommitDone (day : Half) (s : State) : Out :=
  .next (
    match (hdr s 0x2A).run with
    | some r =>
      if r.op = 3 then
        let days := if s.cal.dateValid && s.sup.rtcValid then some (day.toNat - s.cal.lastDay.toNat) else none
        let since := days.getD s.cal.days.toNat
        let a := lessDev (assigned s s.cal.aRef s.cal.rateA since) s.cal.v10.dev
        let b := lessDev (assigned s s.cal.a100 s.cal.rate100 since) s.cal.r100.dev
        let c := lessDev (assigned s s.cal.a10k s.cal.rate10k since) s.cal.r10k.dev
        let s1 := predict (if s.sup.rtcValid then some day else none) days s
        let s2 := { s1 with
          cal.aRef := a, cal.a100 := b, cal.a10k := c, cal.ratioBase := s.cal.ratioLast
          cal.days := 0, cal.dayCourses := 0, cal.dateValid := s.sup.rtcValid
          cal.lastDay := if s.sup.rtcValid then day else s.cal.lastDay
          cal.aged := false }
        let s3 := (List.range 10).foldl (fun s t => updTileCal t (fun x => { x with owesCommit := true }) s) s2
        finishCmd 0x2A .ok 0 (agedEvent s (calEvent 8 0xF (b2n s3.cal.pred) (closeSession s3)))
      else s
    | none => s)

def sessionClose (req : Requester) (arg : BitVec 24) (s : State) : State :=
  issueCmd 0x2A req 4 arg (fun s =>
    if arg ≠ 0 then .done .badArg 0 s
    else if s.cal.session = 0 then .done .state 0 s
    else .done .ok 0 (closeSession s)) s

def execSessionClose (req : Requester) (arg : BitVec 24) (s : State) : Out := .next (sessionClose req arg s)

end Sys2Proof.Machine
end

