-- ==== Sys2Proof/Machine/Digital.lean ====
section
/-! DEFINITION. Digital channels (ch. 10): debounce, wire break, driver protection, lamps, readback. -/

namespace Sys2Proof.Machine

/-- Page of digital channel `k`: 0-31 DIO, 32-63 DI. -/
def digPage (k : Nat) : Nat := if k < 32 then 0x30 else 0x31

/-- DATA of a digital event (R289), in the format of R126: channel in bits [4:0], generation in bits [15:8] (R49), detail
from bit 16. -/
def digData (s : State) (k detail : Nat) : Nat :=
  k % 32 + genOf s (if k < 32 then 3 else 4) (k % 32) * 2 ^ 8 + detail * 2 ^ 16

def digEvent (k code detail : Nat) (s : State) : State := blockEv (digPage k) code (digData s k detail) s

def digSticky (k bit : Nat) (s : State) : State :=
  updDig k (fun c => { c with sticky := setBit c.sticky bit true }) s

/-- DEB in force; 0 acts as 1 (R267). -/
def digDeb (c : DigChan) : Nat := max 1 (fld c.debF 0 16)

/-- Raises an event whose CN is that of the stamp (R289). -/
def raiseEvAt (cn : Word) (cls code source : Nat) (data : BitVec 96) (s : State) : State :=
  if domUp s 3 then
    { s with
      evq.inflight := s.evq.inflight ++
        [{ cn := cn, ptp := ptpNow s, cls := BitVec.ofNat 8 cls, code := BitVec.ofNat 8 code,
           source := BitVec.ofNat 16 source, data := data }]
      free := s.free + 1 }
  else s

/-- The raw level at a terminal voltage, in mV (R266). -/
def rawLevel (mv : Int) (was : Bool) : Bool := if 11000 ≤ mv then true else if mv ≤ 5000 then false else was

/-- The input current in µA at a terminal voltage in mV: 2.2 kΩ below the part's current limit, which lies `limit` µA above
2.0 mA and not above 3.0 mA (R266). -/
def inputCurrent (limit : Fin 1001) (mv : Int) : Half := BitVec.ofNat 16 (min (mv.toNat * 10 / 22) (2000 + limit.val))

/-- R267, R271: DEB consecutive samples with the terminal at `mv`; the run's first sample was sample `idx` of its course.
As its last sample is the present one, DEB fixes how many courses back that course lies. -/
def execDebounceComplete (k : Fin 64) (mv : Int) (limit : Fin 1001) (idx : Fin 250) (s0 : State) : Out :=
  let c := digGet s0 k.val
  let level := rawLevel mv c.raw
  let cn := s0.course.cn - BitVec.ofNat 32 ((digDeb c - 1 + idx.val) / 250)
  let s := if 32 ≤ k.val && digMode c = 1 && !bitAt c.cfgF 27 then
      updDig k.val (fun c => { c with current := inputCurrent limit mv }) s0
    else s0
  let st : Stamp := ⟨cn.setWidth 16, BitVec.ofNat 16 (idx.val * 65536 / 250)⟩
  .next (
    if domUp s 6 && digMode c ≠ 0 then
      if c.brk then updDig k.val (fun c => { c with raw := level }) s
      else if c.inp = level then updDig k.val (fun c => { c with raw := level, settling := false }) s
      else
        let s1 := updDig k.val (fun c => { c with
          raw := level, inp := level, settling := false, stamp := st, changes := c.changes + 1 }) s
        raiseEvAt cn 2 1 (digPage k.val)
          (BitVec.ofNat 96 (digData s k.val (b2n level) + st.sub.toNat * 2 ^ 32)) s1
    else s0)

/-- R269: a 100 µs window ends with its average current in µA. -/
def execWireBreakWindow (k : Fin 64) (avg : Half) (s : State) : Out :=
  let c := digGet s k.val
  let need := (digDeb c + 99) / 100
  .next (
    if domUp s 6 && digMode c = 1 && bitAt c.cfgF 27 then
      let lo := if avg.toNat < 500 then c.wbLow + 1 else 0
      let hi := if 600 ≤ avg.toNat then c.wbHigh + 1 else 0
      let s1 := updDig k.val (fun c => { c with current := avg, wbLow := lo, wbHigh := hi }) s
      if !c.brk && need ≤ lo then
        digEvent k.val 2 1 (digSticky k.val (if k.val < 32 then 7 else 0)
          (updDig k.val (fun c => { c with brk := true }) s1))
      else if c.brk && need ≤ hi then
        digEvent k.val 2 0 (updDig k.val (fun c => { c with brk := false }) s1)
      else s1
    else s)

/-! Driver protection (R275 to R278). -/

def dioMode (s : State) (n : Nat) : Nat := digMode (digGet s n)

/-- A driven channel whose gate is enabled and whose field supply is present. -/
def dioLive (s : State) (n : Nat) : Bool := gateDio s n && 2 ≤ dioMode s n && !s.sup.vfNone

/-- A live channel whose output is judged: field power has been back for 10 ms (R285). -/
def dioJudged (s : State) (n : Nat) : Bool := dioLive s n && vfJudged s

def dioRetryN (s : State) (n : Nat) : Nat := fld (digGet s n).cfgF 20 4

/-- A learning period in which DARK or OVERLOAD occurs is discarded (R280). -/
def discardLearning (o : DioOut) : DioOut := if o.learned then o else { o with progress := 0, learnT := 0 }

/-- R275: the driver has been in limit for 2 ms outside an inrush window. -/
def execOverloadTrip (n : Fin 32) (s : State) : Out :=
  let o := dioGet s n.val
  .next (
    if dioLive s n.val && o.drive && !o.inrush then
      let last := dioRetryN s n.val ≤ o.retries
      let s1 := digSticky n.val 6 (updDio n.val (fun o => { discardLearning o with
        overload := true, latched := last, offSeen := false }) s)
      let s2 := digEvent n.val 3 (dioRetryN s n.val - o.retries) s1
      dioResolve n.val (if last then digEvent n.val 4 0 (digSticky n.val 0 s2) else s2)
    else s)

/-- R275: RETRY_T expires. -/
def execOverloadRetry (n : Fin 32) (s : State) : Out :=
  let o := dioGet s n.val
  .next (
    if dioLive s n.val && o.overload && !o.latched then
      inrushBudget (dioResolve n.val (updDio n.val (fun o => { o with overload := false, retries := o.retries + 1 }) s))
    else s)

/-- R275: 10 s without limiting. -/
def execRetryCountRestart (n : Fin 32) (s : State) : Out :=
  let o := dioGet s n.val
  .next (if dioLive s n.val && o.drive && !o.overload then updDio n.val (fun o => { o with retries := 0 }) s else s)

/-- R275, R278: the inrush window ends, and the budget is shared anew. -/
def execInrushWindowEnd (n : Fin 32) (s : State) : Out :=
  .next (inrushBudget (updDio n.val (fun o => { o with inrush := false }) s))

/-- R276: 165 °C, in hardware in PD6. -/
def execDioThermSet (n : Fin 32) (temp : Half) (s : State) : Out :=
  .next (
    if domUp s 6 then
      let s1 := updDio n.val (fun o => { o with therm := true, temp := temp }) s
      let s2 := dioResolve n.val s1
      if (dioGet s n.val).therm then s2 else digEvent n.val 5 1 (digSticky n.val 4 s2)
    else s)

/-- R276: cooled to 145 °C. -/
def execDioThermClear (n : Fin 32) (temp : Half) (s : State) : Out :=
  .next (
    if domUp s 6 && (dioGet s n.val).therm then
      digEvent n.val 5 0 (dioResolve n.val (updDio n.val (fun o => { o with therm := false, temp := temp }) s))
    else s)

/-- R277: the terminal has risen back above −1.0 V; `term` in 10 mV.  A driver whose gate has opened is disconnected
(R285). -/
def execClampEnd (n : Fin 32) (term : Half) (s : State) : Out :=
  .next (
    if domUp s 6 then updDio n.val (fun o => { o with
      clamp := false, connected := o.source ≠ 0, term := term }) s else s)

/-- R278: the 1 s average of the sum of all DIO currents, mA. -/
def execTotalOver (avg : Half) (s : State) : Out :=
  let isOver := 8000 < avg.toNat
  .next (
    if domUp s 6 then
      let s1 := { s with dig.total := avg, dig.totalOver := isOver }
      if isOver && !s.dig.totalOver then blockEv 0x30 0x0B (avg.toNat * 2 ^ 16) s1 else s1
    else s)

/-! Open wire (R279). -/

/-- Whether the check of the present drive state is configured. -/
def openChecked (s : State) (n : Nat) : Bool :=
  let c := digGet s n
  dioMode s n = 2 && (if (dioGet s n).drive then bitAt c.cfgF 25 else bitAt c.cfgF 26)

def execOpenWireSet (n : Fin 32) (s : State) : Out :=
  .next (
    if dioJudged s n.val && openChecked s n.val && !(dioGet s n.val).openW then
      digEvent n.val 6 1 (digSticky n.val 5 (updDio n.val (fun o => { o with openW := true }) s))
    else s)

def execOpenWireClear (n : Fin 32) (s : State) : Out :=
  .next (
    if dioJudged s n.val && openChecked s n.val && (dioGet s n.val).openW then
      digEvent n.val 6 0 (updDio n.val (fun o => { o with openW := false }) s)
    else s)

/-! Lamps (R280, R281). -/

/-- R280: 10 s of on time; `current` is the mean scaled to 24 V, mA. -/
def execLampLearned (n : Fin 32) (current : Half) (s : State) : Out :=
  .next (
    if dioLive s n.val && dioMode s n.val = 3 && !(dioGet s n.val).learned then
      digEvent n.val 0x0A current.toNat (updDio n.val (fun o => { o with
        learned := true, progress := 100, learnT := 0, iL := current }) s)
    else s)

/-- A lamp is judged: in on phases outside the inrush window only (R281). -/
def lampJudged (s : State) (n : Nat) : Bool :=
  dioJudged s n && dioMode s n = 3 && !((dioGet s n).drive && (dioGet s n).inrush)

/-- R281: DARK, judged in the present drive state. -/
def execDarkSet (n : Fin 32) (s : State) : Out :=
  let off := !(dioGet s n.val).drive
  .next (
    if lampJudged s n.val && !(dioGet s n.val).dark then
      digEvent n.val 7 (1 + 2 * b2n off) (digSticky n.val 3 (updDio n.val (fun o => { discardLearning o with
        dark := true, darkOff := off }) s))
    else s)

/-- R281: recovery for 1 ms; a DARK set in an on phase is cleared only by an on phase. -/
def execDarkClear (n : Fin 32) (s : State) : Out :=
  let o := dioGet s n.val
  .next (
    if lampJudged s n.val && o.dark && (o.drive || o.darkOff) then
      digEvent n.val 7 (2 * b2n (!o.drive)) (updDio n.val (fun o => { o with dark := false }) s)
    else s)

/-- R281: below 60 %, or at least 65 %, of I_E for 100 ms. -/
def execLampDegraded (n : Fin 32) (degraded : Bool) (s : State) : Out :=
  let o := dioGet s n.val
  .next (
    if lampJudged s n.val && o.drive && o.learned && o.degraded ≠ degraded then
      let s1 := updDio n.val (fun o => { o with degraded := degraded }) s
      digEvent n.val 8 (b2n degraded) (if degraded then digSticky n.val 2 s1 else s1)
    else s)

/-- R282, R283: the raw level disagrees, or agrees again, with the drive state, or in a unit whose gate is not
enabled with the peer's command; a demagnetisation clamp that runs is not counted. -/
def execDioReadback (n : Fin 32) (mismatch : Bool) (s : State) : Out :=
  let o := dioGet s n.val
  let peer := !gateDio s n.val
  .next (
    if domUp s 6 && 2 ≤ dioMode s n.val && vfJudged s && o.readback ≠ mismatch && !(mismatch && o.clamp) then
      let s1 := updDio n.val (fun o => { o with readback := mismatch }) s
      digEvent n.val 9 (b2n mismatch + 2 * b2n peer) (if mismatch then digSticky n.val 1 s1 else s1)
    else s)

/-! Commands of R288. -/

def outReset (req : Requester) (arg : BitVec 24) (s : State) : State :=
  issueCmd 0x30 req 2 arg (fun s =>
    let n := fld arg 0 5
    if argOutside arg 0x1F then .done .badArg 0 s
    else if dioMode s n < 2 then .done .state 0 s
    else if (dioGet s n).latched then
      .done .ok 0 (dioResolve n (updDio n (fun o => { o with latched := false, overload := false, retries := 0 }) s))
    else .done .ok 0 s) s

def execOutReset (req : Requester) (arg : BitVec 24) (s : State) : Out := .next (outReset req arg s)

def relearn (req : Requester) (arg : BitVec 24) (s : State) : State :=
  issueCmd 0x30 req 3 arg (fun s =>
    let n := fld arg 0 5
    if argOutside arg 0x1F then .done .badArg 0 s
    else if dioMode s n ≠ 3 then .done .state 0 s
    else .done .ok 0 (updDio n (fun o => { o with learned := false, progress := 0, learnT := 0, iL := 0 }) s)) s

def execRelearn (req : Requester) (arg : BitVec 24) (s : State) : Out := .next (relearn req arg s)

/-! Configuration writes (R271, R285). -/

/-- A write to a digital CFG: dropped with MODE_LOCK or CFG_REJ, or taken for the next course. -/
def digCfgWrite (k : Nat) (value : Word) (s : State) : State :=
  pageWriteIf (digPage k) (fun s =>
    let c := digGet s k
    let di := !decide (k < 32)
    let reject (bit : Nat) : State × Bool :=
      let s1 := digSticky k bit s
      let st := (digGet s1 k).sticky
      (digEvent k 0x0C (if di then 2 * fld st 1 2 else fld st 8 3) s1, false)
    if !inMaint s (80 + k) && fld value 28 4 ≠ digMode c then reject (if di then 1 else 9)
    else if !digCfgOk di value.toNat then reject (if di then 2 else 10)
    else (updDig k (fun c => { c with cfg := value &&& (if di then 0xF8000000 else 0xFFFFF000) }) s, true)) s

def execDigitalCfgWrite (k : Fin 64) (value : Word) (s : State) : Out := .next (digCfgWrite k.val value s)

/-- A write to a DIO's OCTL; TEST = 1 outside maintenance is dropped (R285). -/
def dioOctlWrite (n : Nat) (value : Word) (s : State) : State :=
  pageWriteIf 0x30 (fun s =>
    if bitAt value 31 && !inMaint s (maintDio n) then
      let s1 := digSticky n 8 s
      (digEvent n 0x0C (fld (digGet s1 n).sticky 8 3) s1, false)
    else (updDig n (fun c => { c with octl := value &&& 0x80000001 }) s, true)) s

/-- A write to a UC's OCTL; TEST = 1 outside maintenance is dropped (R146). -/
def ucOctlWrite (n : Nat) (value : Word) (s : State) : State :=
  pageWriteIf (tilePage (n / 8)) (fun s =>
    if bitAt value 31 && !maintNow s n then
      (updUc n (fun u => { u with osticky := setBit u.osticky 0 true }) s, false)
    else (updUc n (fun u => { u with regs := { u.regs with octl := value &&& 0x83003FFF } }) s, true)) s

/-- A write of OCTL on a universal channel (`uc`) or a DIO. -/
def execOutputTestWrite (uc : Bool) (n : Fin 32) (value : Word) (s : State) : Out :=
  .next (if uc then ucOctlWrite n.val value s else dioOctlWrite n.val value s)

/-- R270: bits [9:2] of a digital record's STATUS, for a channel's kind and mode. -/
def digFaultBits (s : State) (k : Nat) : Nat :=
  let c := digGet s k
  let m := digMode c
  let o : DioOut := if k < 32 then dioGet s k else {}
  512 * b2n (m = 1 && c.brk) + 256 * b2n (2 ≤ m && o.overload) + 128 * b2n (m = 2 && o.openW)
    + 64 * b2n (2 ≤ m && o.therm) + 32 * b2n (m = 3 && o.dark) + 16 * b2n (m = 3 && o.degraded)
    + 8 * b2n (2 ≤ m && o.readback) + 4 * b2n (2 ≤ m && o.latched)

end Sys2Proof.Machine
end

