-- ==== Sys2Proof/Machine/Alarm.lean ====
section
/-! DEFINITION. Alarm points and groups (ch. 08): sources, comparators, delays, states, lamps, first-out,
acknowledgement. -/

namespace Sys2Proof

/-- STATE codes of R225. -/
def PState.code : PState → Nat
  | .normal => 0 | .activeUnack => 1 | .activeAck => 2 | .clearedUnack => 3 | .blocked => 4 | .inhibited => 5
  | .outOfService => 6 | .fault => 7

/-- The suppressing states (R224). -/
def PState.suppressing : PState → Bool
  | .blocked => true | .inhibited => true | .outOfService => true | _ => false

/-- PEND of R225. -/
def Point.pend (x : Point) : Bool := x.onT.isSome || x.offT.isSome || x.faultT.isSome || x.relT.isSome

end Sys2Proof

namespace Sys2Proof.Machine

def pointGet (s : State) (p : Nat) : Point := s.alarm.points.get {} p
def updPoint (p : Nat) (f : Point → Point) (s : State) : State :=
  { s with alarm.points := s.alarm.points.upd {} p f }
def groupGet (s : State) (g : Nat) : Group := s.alarm.groups.get {} g
def updGroup (g : Nat) (f : Group → Group) (s : State) : State :=
  { s with alarm.groups := s.alarm.groups.upd {} g f }

def ptBody (s : State) (p : Nat) : List Byte := entBody (planEntry s 5 p)
def grpBody (s : State) (g : Nat) : List Byte := entBody (planEntry s 6 g)

/-- Planned points, in number order. -/
def plannedPoints (s : State) : List Nat :=
  s.plan.entries.foldl (fun acc e => if e.ty = 5 then
    (let rec ins : List Nat → List Nat
      | [] => [e.target]
      | m :: r => if e.target < m then e.target :: m :: r else m :: ins r
     ins acc) else acc) []

/-- A time in ms, in courses (R214). -/
def msCourses (ms : Nat) : Nat := 4 * ms

/-! Sources (R215, R216). -/

/-- Class of a source, worst first. -/
inductive SrcClass where
  | maint | settling | bad | good
  deriving DecidableEq, Repr

def SrcClass.rank : SrcClass → Nat
  | .maint => 0 | .settling => 1 | .bad => 2 | .good => 3

def SrcClass.worst (a b : SrcClass) : SrcClass := if a.rank ≤ b.rank then a else b

/-- Class by a record's status (R216). -/
def statusClass (st : Half) : SrcClass :=
  let reason := fld st 10 4
  if reason = 2 then .maint else if reason = 8 then .settling
  else if bitAt st 15 && !bitAt st 14 then .good else .bad

def chanCtx (s : State) (c : Nat) : ChanCtx := s.course.ctx.get {} c

/-- Class of an analogue channel's record of the course. -/
def anaClass (s : State) (c : Nat) : SrcClass :=
  if tileUp s (anaTile c) then statusClass (chanCtx s c).status else .maint

/-- A digital channel in the snapshot: 0-31 DIO, 32-63 DI. -/
def digSnap (s : State) (k : Nat) : DSnap := s.course.snap.dig.get {} k

def digClass (s : State) (k : Nat) : SrcClass :=
  if domUp s 6 then statusClass (digSnap s k).status else .maint

/-- Channel-fault source of an analogue channel (R108, R152, R163). -/
def anaFault (s : State) (c : Nat) : Bool :=
  let st := (chanCtx s c).status
  let r := fld st 10 4
  if 32 ≤ c then bitAt st 15 && (r = 4 || r = 7 || r = 9 || r = 10) || (bitAt st 0 && bitAt st 15)
  else if ucIsOut (ucGet s c) then
    let o := (ucGet s c).out
    o.readback || o.compliance || o.therm || o.openLoop
  else bitAt st 15 && 3 ≤ r && r ≤ 7

/-- Channel-fault source of a digital channel, from its snapshot (R284). -/
def digFault (s : State) (k : Nat) : Bool :=
  let st := (digSnap s k).status
  let m := digMode (digGet s k)
  if m = 1 then bitAt st 9
  else if 2 ≤ m then
    bitAt st 8 || bitAt st 6 || bitAt st 3 || (m = 2 && bitAt st 7)
      || (m = 3 && (bitAt st 5 || (bitAt st 4 && bitAt (digGet s k).cfgF 24)))
  else false

def qOverload (s : State) : Bool := s.evq.queues.cells.any (fun c => c.2.overload)

/-- Streets and claim line that are missing (R320, R321). -/
def missingPaths (s : State) : Nat := b2n (!s.red.streetA.present) + b2n (!s.red.streetB.present) + b2n (!s.red.claimLine)

def roster (s : State) : Option Entry := planEntry s 0x0C 0
def rosterBody (s : State) : List Byte := entBody (roster s)
def rosterDutyDi (s : State) : Bool := bits (bAt (rosterBody s) 0) 1 1 = 1

/-- DISC_STATE (R15); a standby in step reads 1 (R332). -/
def discState (s : State) : Nat :=
  if s.red.state = .standby && s.red.inStep then 1
  else if s.clk.en then (if s.clk.holdover then 2 else 1) else 0

/-- System fault sources (R215). -/
def sysFault (s : State) (code : Nat) : Bool :=
  match code with
  | 0 => s.course.faultSeen && since s s.course.faultCn < 4000
  | 1 => s.cal.refDisagree
  | 2 => (List.range 10).any (fun t => (tileCal s t).convs.cells.any (fun c => c.2.out))
  | 3 => (List.range 10).any (fun t => (tileCal s t).convs.cells.any (fun c => c.2.overdue))
  | 4 => (List.range 10).any (fun t => (tileCal s t).xferFail)
  | 5 => calAged s
  | 6 => (s.red.role = .a || s.red.role = .b) && 1 ≤ missingPaths s && missingPaths s ≤ 2
  | 7 => (s.red.role = .a || s.red.role = .b) && s.red.peerLost
  | 8 => s.sup.vf1Fault
  | 9 => s.sup.vf2Fault
  | 10 => s.sup.vsUv
  | 11 => s.sup.holdupLow
  | 12 => s.sys.variant = .p && s.panel.crack
  | 13 => qOverload s
  | 14 => s.log.fault
  | 15 => s.log.wearWarned
  | 16 => match s.sys.dramCn with
    | some c => since s c < 4000
    | none => false
  | 17 => s.alarm.call.selFault
  | 18 => s.alarm.call.tables.cells.any (fun c => c.2.xferFail)
  | 19 => discState s = 2
  | 20 => (List.range 16).any (fun n => (district s n).state = .mixed)
  | 21 => s.alarm.call.phase = .expired
  | _ => false

/-- ACTIVE and COND of a point as others use them (R219). -/
def pointActive (s : State) (p : Nat) : Bool :=
  planned s 5 p && ((pointGet s p).state = .activeUnack || (pointGet s p).state = .activeAck)

def pointCond (s : State) (p : Nat) : Bool := planned s 5 p && (pointGet s p).cond

/-- Class and value of a LOGIC operand or block source (R219, R223). -/
def operand (s : State) (ty n : Nat) : SrcClass × Bool :=
  match ty with
  | 3 => (digClass s n, (digSnap s n).inp)
  | 4 => (digClass s (32 + n), (digSnap s (32 + n)).inp)
  | 7 => (if bitAt s.course.snap.tlStale n then .bad else .good, bitAt s.course.snap.tlTrip n)
  | 8 => (.good, pointActive s n)
  | 9 => (.good, pointCond s n)
  | _ => (.good, false)

/-- The LOGIC expression of a point (R219). -/
def logicValue (s : State) (b : List Byte) : Bool :=
  let vs := (ptOperands b).map (fun x => (operand s x.1 x.2.2).2 != x.2.1)
  match ptLogicOp b with
  | 0 => vs.all id
  | 1 => vs.any id
  | _ => ptLogicK b ≤ (vs.filter id).length

/-- Class of a point's source (R216).  For a FAULT point on a channel a bad record is what it watches, not a bad
source (log entry 18). -/
def ptClass (s : State) (b : List Byte) : SrcClass :=
  let c : SrcClass := match ptSrcType b with
    | 1 => anaClass s (ptSrc b)
    | 2 => anaClass s (32 + ptSrc b)
    | 3 => digClass s (ptSrc b)
    | 4 => digClass s (32 + ptSrc b)
    | 5 => (ptOperands b).foldl (fun a x => a.worst (operand s x.1 x.2.2).1) .good
    | 6 => .good
    | _ => if bitAt s.course.snap.tlStale (ptSrc b) then .bad else .good
  let d := if ptKind b = 5 then
      c.worst (anaClass s (if ptRefType b = 1 then ptRefCh b else 32 + ptRefCh b))
    else c
  if ptKind b = 8 && d = .bad then .good else d

/-- Class of an evaluation of a point with cells `x`: for RATE the source at both ends of the window counts (R216). -/
def evalClass (s : State) (b : List Byte) (x : Point) : SrcClass :=
  if ptKind b = 6 && x.window.length = ptWindow b + 1 && (x.window.headD (0, false)).2 then (ptClass s b).worst .settling
  else ptClass s b

/-- Value of an analogue source, and its stamp. -/
def anaValue (s : State) (ty n : Nat) : Word := (chanCtx s (if ty = 1 then n else 32 + n)).value

/-- Time stamp of a point's source record (R231). -/
def ptStamp (s : State) (b : List Byte) : Stamp :=
  match ptSrcType b with
  | 1 => (chanCtx s (ptSrc b)).smp.stamp
  | 2 => (chanCtx s (32 + ptSrc b)).smp.stamp
  | 3 => (digSnap s (ptSrc b)).stamp
  | 4 => (digSnap s (32 + ptSrc b)).stamp
  | _ => stampNow s 0

/-! State word, events and transitions (R225, R226, R242). -/

/-- The groups a point belongs to. -/
def ptGroups (b : List Byte) : List Nat := ptGroup b :: (ptSummary b).toList

def firstOut (s : State) (p : Nat) : Bool :=
  (ptGroups (ptBody s p)).any (fun g => ((groupGet s g).fo.map Prod.fst) = some p)

/-- State word of a planned point whose cells are `x` (R225). -/
def ptWordOf (s : State) (p : Nat) (x : Point) : Half :=
  if planned s 5 p then
    pack 16 [(13, x.state.code), (12, b2n x.cond), (11, b2n x.pend), (10, b2n (firstOut s p)), (9, b2n x.srcBad),
      (8, b2n x.sounding), (0, genOf s 5 p)]
  else 0

def ptWord (s : State) (p : Nat) : Half := ptWordOf s p (pointGet s p)

/-- State word of a point before the evaluation in progress: COND as it was before the comparator word. -/
def evalWord (s : State) (p : Nat) : Half :=
  let x := pointGet s p
  ptWordOf s p { x with cond := x.condWas }

/-- Raises the alarm record of a point whose state word was `old` (R242). -/
def alarmRecord (p : Nat) (old new : Half) (cause by_ : Nat) (s : State) : State :=
  let x := pointGet s p
  let data : BitVec 96 := BitVec.ofNat 96 (new.toNat + x.count.toNat * 2 ^ 16 + x.time.word.toNat * 2 ^ 32
    + old.toNat * 2 ^ 64 + cause * 2 ^ 80 + by_ * 2 ^ 88)
  raiseAlarm p data { s with
    alarm.raised := s.alarm.raised ++
      [{ cn := s.course.cn, cls := 1, code := 1, source := BitVec.ofNat 16 p, data := data }] }

/-- Changes a point's STATE from the state word `old`: entering ACTIVE_UNACK sounds and counts (R226), and every change
is recorded. -/
def ptTo (p : Nat) (st : PState) (time : Stamp) (cause by_ : Nat) (old : Half) (s : State) : State :=
  let s1 := updPoint p (fun x => { x with
    state := st, time := time
    sounding := x.sounding || st = .activeUnack
    rose := x.rose || st = .activeUnack
    count := if st = .activeUnack then satInc x.count else x.count }) s
  alarmRecord p old (ptWord s1 p) cause by_ s1

/-! Suppression (R223, R224). -/

/-- Blocking of a point after this evaluation (R221, R223). -/
def blockStep (s : State) (b : List Byte) (x : Point) : Point :=
  if ptBlockType b = 0 then { x with blocking := false, relT := none }
  else
    let o := operand s (ptBlockType b) (ptBlockNum b)
    let inp := if o.1 = .bad then x.blockIn else o.2 != ptBlockInv b
    if inp then { x with blockIn := true, blocking := true, relT := none }
    else if x.blocking then
      let start := x.relT.getD s.course.cn
      if msCourses (ptRelease b) ≤ since s start then { x with blockIn := false, blocking := false, relT := none }
      else { x with blockIn := false, relT := some start }
    else { x with blockIn := false }

/-- The suppressing state at this evaluation, if any (R224). -/
def suppression (s : State) (b : List Byte) (x : Point) : Option PState :=
  if ptClass s b = .maint then some .outOfService
  else if x.inhibit then some .inhibited
  else if (blockStep s b x).blocking then some .blocked
  else none

/-! Comparator words (R217 to R220). -/

/-- Whether a point's source is a multidrop loop channel (R220). -/
def ptMultidrop (s : State) (b : List Byte) : Bool :=
  ptSrcType b = 2 && ptKind b ≤ 6 && liMultidrop (liGet s (ptSrc b))

/-- Set at or above the limit, clear below limit less hysteresis, else as before. -/
def hystHigh (x lim hyst : Dword) (prev : Bool) : Bool :=
  if fle lim x then true else if flt x (fsub lim hyst) then false else prev

def hystLow (x lim hyst : Dword) (prev : Bool) : Bool :=
  if fle x lim then true else if flt (fadd lim hyst) x then false else prev

/-- COND of a point with a good source (R217). -/
def compareCond (s : State) (b : List Byte) (x : Point) (prev : Bool) : Bool :=
  let v := f32to64 (anaValue s (ptSrcType b) (ptSrc b))
  let lim := f32to64 (ptLimit b)
  let hy := f32to64 (ptHyst b)
  if ptMultidrop s b then false
  else match ptKind b with
    | 1 => hystHigh v lim hy prev
    | 3 => hystHigh v lim hy prev
    | 2 => hystLow v lim hy prev
    | 4 => hystLow v lim hy prev
    | 5 => hystHigh (fabs (fsub v (f32to64 (anaValue s (ptRefType b) (ptRefCh b))))) lim hy prev
    | 6 => match x.rate with
      | some r => hystHigh (match ptDir b with
          | 1 => r
          | 2 => fneg r
          | _ => fabs r) lim hy prev
      | none => false
    | 7 => match ptSrcType b with
      | 5 => x.logic
      | 7 => bitAt s.course.snap.tlTrip (ptSrc b)
      | t => (operand s t (ptSrc b)).2 = ptLevel b
    | _ => match ptSrcType b with
      | 1 => anaFault s (ptSrc b)
      | 2 => anaFault s (32 + ptSrc b)
      | 3 => digFault s (ptSrc b)
      | 4 => digFault s (32 + ptSrc b)
      | _ => sysFault s (ptSrc b)

/-- CMP: COND of an evaluation that is neither suppressed nor skipped (R217, R222, R224). -/
def cmpWord (p : Nat) (s : State) : State :=
  let b := ptBody s p
  let x := pointGet s p
  if planned s 5 p && (suppression s b x).isNone && evalClass s b x = .good then
    updPoint p (fun x => { x with
      cond := compareCond s b x (x.cond && !x.state.suppressing), condWas := x.cond }) s
  else s

/-- Evaluation period of a point, in courses: the wall shared among the wall indices that hold its words. -/
def evalPeriod (s : State) (p : Nat) : Nat :=
  match planEntry s 5 p with
  | some e => s.plan.wall / max 1 ((List.range s.plan.wall).filter (fun wi =>
      (wordsAt e 1 wi).any (fun w => swClass w = 0x21))).length
  | none => 0

/-- The window of a RATE point and its rate in units per second (R218); a settling evaluation takes its place in it
(log entry 140). -/
def rateWindow (p : Nat) (s : State) : State :=
  let b := ptBody s p
  let x := pointGet s p
  if planned s 5 p then
    if (suppression s b x).isSome || ptClass s b = .bad then
      updPoint p (fun x => { x with window := [], rate := none }) s
    else
      let n := ptWindow b
      let v := anaValue s (ptSrcType b) (ptSrc b)
      let w0 := if x.state.suppressing then [] else x.window
      let w := (w0 ++ [(v, decide (ptClass s b = .settling))]).drop (w0.length - n)
      let r := if w.length = n + 1 then
          some (fdiv (fsub (f32to64 v) (f32to64 (w.headD (0, false)).1)) (f64ofRatio (n * evalPeriod s p) 4000))
        else none
      updPoint p (fun x => { x with window := w, rate := r }) s
  else s

/-- RATE: the comparator word of a RATE point; it forms the rate and judges COND from it (R213, R217, R218). -/
def rateWord (p : Nat) (s : State) : State :=
  if ptKind (ptBody s p) = 6 then cmpWord p (rateWindow p s) else rateWindow p s

/-- LOGIC: the comparator word of a point with a LOGIC source; it combines the operands and judges COND from the
result (R213, R217, R219). -/
def logicWord (p : Nat) (s : State) : State :=
  if planned s 5 p then
    let s1 := updPoint p (fun x => { x with logic := logicValue s (ptBody s p) }) s
    if ptSrcType (ptBody s p) = 5 then cmpWord p s1 else s1
  else s

/-! Delays (R221, R222, R226). -/

/-- The delay that confirms an active condition: the fault delay for a FAULT point on a channel (R108). -/
def ptOnCourses (b : List Byte) : Nat :=
  msCourses (if ptKind b = 8 && ptSrcType b ≤ 4 then ptFaultDelay b else ptOnDelay b)

/-- The on-delay is confirmed. -/
def onConfirmed (p : Nat) (old : Half) (s : State) : State :=
  ptTo p .activeUnack (ptStamp s (ptBody s p)) 0 0 old (updPoint p (fun x => { x with onT := none }) s)

/-- The off-delay is confirmed. -/
def offConfirmed (p : Nat) (old : Half) (s : State) : State :=
  let b := ptBody s p
  ptTo p (if (pointGet s p).state = .activeUnack && ptLatch b then .clearedUnack else .normal) (ptStamp s b) 0 0 old
    (updPoint p (fun x => { x with offT := none }) s)

/-- The fault is confirmed: SRC_BAD, and FAULT from NORMAL or CLEARED_UNACK. -/
def faultConfirmed (p : Nat) (old : Half) (s : State) : State :=
  let s1 := updPoint p (fun x => { x with srcBad := true, faultT := none, onT := none, offT := none }) s
  let st := (pointGet s p).state
  if st = .normal || st = .clearedUnack then ptTo p .fault (ptStamp s (ptBody s p)) 0 0 old s1 else s1

/-- Evaluation with a bad source. -/
def delayBad (p : Nat) (old : Half) (s : State) : State :=
  let b := ptBody s p
  let x := pointGet s p
  if x.srcBad then
    if x.state = .clearedUnack then ptTo p .fault (ptStamp s b) 0 0 old s else s
  else
    let start := x.faultT.getD s.course.cn
    if msCourses (ptFaultDelay b) ≤ since s start then faultConfirmed p old s
    else updPoint p (fun x => { x with faultT := some start }) s

/-- The timers and the state under a good source, COND standing as the comparator word left it. -/
def delayRun (p : Nat) (old : Half) (s : State) : State :=
  let b := ptBody s p
  let x := pointGet s p
  if x.state = .normal || x.state = .clearedUnack then
    if x.cond then
      let start := x.onT.getD s.course.cn
      if ptOnCourses b ≤ since s start then onConfirmed p old s
      else updPoint p (fun x => { x with onT := some start }) s
    else updPoint p (fun x => { x with onT := none }) s
  else if x.state = .activeUnack || x.state = .activeAck then
    if x.cond then updPoint p (fun x => { x with offT := none }) s
    else
      let start := x.offT.getD s.course.cn
      if msCourses (ptOffDelay b) ≤ since s start then offConfirmed p old s
      else updPoint p (fun x => { x with offT := some start }) s
  else s

/-- A change to NORMAL with which the point is evaluated at once: its record shows COND as `c`, and the evaluation finds
COND as the comparator word left it. -/
def toNormal (p cause : Nat) (c : Bool) (old : Half) (s : State) : State :=
  let cond := (pointGet s p).cond
  updPoint p (fun x => { x with cond := cond, condWas := c })
    (ptTo p .normal (ptStamp s (ptBody s p)) cause 0 old (updPoint p (fun x => { x with cond := c }) s))

/-- Evaluation with a good source. -/
def delayGood (p : Nat) (old : Half) (s : State) : State :=
  let x := pointGet s p
  let s1 := updPoint p (fun x => { x with faultT := none, srcBad := false }) s
  if x.state = .fault then
    let s2 := toNormal p 0 x.condWas old s1
    delayRun p (evalWord s2 p) s2
  else delayRun p old s1

/-- DELAY: suppression, timers and state of a point (R221 to R226). -/
def delayWord (p : Nat) (s : State) : State :=
  let b := ptBody s p
  if planned s 5 p then
    let sup := suppression s b (pointGet s p)
    let old := evalWord s p
    let s1 := updPoint p (blockStep s b) s
    updPoint p (fun x => { x with condWas := x.cond }) (match sup with
    | some st =>
      if (pointGet s1 p).state = st then
        updPoint p (fun x => { x with cond := false }) s1
      else
        let s2 := updPoint p (fun x => { x with
          state := st, time := ptStamp s b, cond := false, srcBad := false, sounding := false
          onT := none, offT := none, faultT := none, relT := none, window := [], rate := none }) s1
        alarmRecord p old (ptWord s2 p) 3 0 s2
    | none =>
      let left := (pointGet s1 p).state.suppressing
      let s2 := if left then toNormal p 4 false old s1 else s1
      let old2 := if left then evalWord s2 p else old
      match evalClass s b (pointGet s p) with
      | .settling => s2
      | .bad => delayBad p old2 s2
      | _ => delayGood p old2 s2)
  else s

/-! The delay ends as commands of their own: nothing unless the timer has run. -/

/-- Whether a timer that began at `t` has run `d` courses. -/
def ran (s : State) (t : Option Word) (d : Nat) : Bool :=
  match t with
  | some c => d ≤ since s c
  | none => false

def execOnDelayConfirmed (p : Fin 2048) (s : State) : Out :=
  let x := pointGet s p.val
  .next (
    if planned s 5 p.val && (x.state = .normal || x.state = .clearedUnack) && x.cond
        && ran s x.onT (ptOnCourses (ptBody s p.val)) then onConfirmed p.val (ptWord s p.val) s
    else s)

def execOffDelayConfirmed (p : Fin 2048) (s : State) : Out :=
  let x := pointGet s p.val
  .next (
    if planned s 5 p.val && (x.state = .activeUnack || x.state = .activeAck) && !x.cond
        && ran s x.offT (msCourses (ptOffDelay (ptBody s p.val))) then offConfirmed p.val (ptWord s p.val) s
    else s)

def execFaultDelayConfirmed (p : Fin 2048) (s : State) : Out :=
  let x := pointGet s p.val
  .next (
    if planned s 5 p.val && !x.srcBad && !x.state.suppressing
        && ran s x.faultT (msCourses (ptFaultDelay (ptBody s p.val))) then faultConfirmed p.val (ptWord s p.val) s
    else s)

/-- R223: the release delay has run with the block input false; the point leaves BLOCKED at its evaluation. -/
def execReleaseDelayEnd (p : Fin 2048) (s : State) : Out :=
  let x := pointGet s p.val
  .next (
    if planned s 5 p.val && x.blocking && !x.blockIn && ran s x.relT (msCourses (ptRelease (ptBody s p.val))) then
      updPoint p.val (fun x => { x with blocking := false, relT := none }) s
    else s)

/-! Groups (R228 to R231). -/

/-- Members of a group, in number order. -/
def members (s : State) (g : Nat) : List Nat :=
  (plannedPoints s).filter (fun p => (ptGroups (ptBody s p)).contains g)

/-- An ALARM event (R245). -/
def alarmEvent (code group point : Nat) (s : State) : State := blockEv 0x13 code (group + point * 2 ^ 16) s

/-- Empties a first-out latch. -/
def emptyFo (g : Nat) (s : State) : State :=
  match (groupGet s g).fo with
  | some (p, _) => alarmEvent 0x12 g p (updGroup g (fun x => { x with fo := none }) s)
  | none => s

/-- Age of a stamp within the present course's past, for choosing the earliest. -/
def stampAge (s : State) (t : Stamp) : Nat :=
  (s.course.cn.setWidth 16 - t.cn).toNat * 65536 + (65535 - t.sub.toNat)

/-- The first member to have become ACTIVE_UNACK in this course: earliest stamp, then lowest number (R231). -/
def firstRisen (s : State) (l : List Nat) : Option Nat :=
  (l.filter (fun p => (pointGet s p).rose && (pointGet s p).state = .activeUnack)).foldl (fun best p =>
    match best with
    | none => some p
    | some q => if stampAge s (pointGet s q).time < stampAge s (pointGet s p).time then some p else some q) none

def callTab (s : State) (t : Nat) : CallTab := s.alarm.call.tables.get {} t

/-- STAGE of a table: the higher of its alarm and watch stages (R234). -/
def tabStage (x : CallTab) : Nat := max x.stage x.wstage

/-- STAGE of a group's call table, 0 if it names none (R228). -/
def groupStage (s : State) (g : Nat) : Nat :=
  let t := bAt (grpBody s g) 6
  if planned s 6 g && t < 16 then tabStage (callTab s t) else 0

/-- GROUP: the state word of a group but for GEN, lamp, horn and stage with it, and its first-out latch (R228, R231). -/
def groupWord (g : Nat) (s : State) : State :=
  if planned s 6 g then
    let ms := members s g
    let any (f : Point → Bool) : Bool := ms.any (fun p => f (pointGet s p))
    let quiet (x : Point) : Bool := x.state = .normal || x.state = .fault || x.state.suppressing
    let s1 := if bits (bAt (grpBody s g) 8) 0 1 = 1 && ms.all (fun p => quiet (pointGet s p)) then emptyFo g s else s
    let s2 := updGroup g (fun x => { x with
      lamp := if any (·.state = .activeUnack) then 2 else if any (·.state = .clearedUnack) then 3
        else if any (·.state = .activeAck) then 1 else 0
      horn := any (·.sounding)
      anyFault := any (fun x => x.state = .fault || x.srcBad)
      anySuppr := any (·.state.suppressing), stage := groupStage s g }) s1
    match (groupGet s2 g).fo, firstRisen s2 ms with
    | none, some p =>
      alarmEvent 0x11 g p (updGroup g (fun x => { x with fo := some (p, (pointGet s2 p).time) }) s2)
    | _, _ => s2
  else s

/-- A pattern in course `cn` (R229). -/
def patternOn (s : State) (cn : Word) (i : Nat) : Bool :=
  if i = 0xFE then true
  else match planEntry s 8 i with
    | some e => (cn.toNat + u16At e.body 4) % u16At e.body 0 < u16At e.body 2
    | none => false

/-- DIOs that groups and points demand (R230). -/
def alarmDemands (s : State) : List Nat :=
  (s.plan.entries.filterMap (fun e =>
    if e.ty = 5 && ptActDio e.body < 32 && pointActive s e.target then some (ptActDio e.body) else none))
  ++ s.plan.entries.flatMap (fun e =>
    if e.ty = 6 then
      let x := groupGet s e.target
      let pat := match x.lamp.toNat with
        | 1 => bAt e.body 3 | 2 => bAt e.body 1 | 3 => bAt e.body 2 | _ => 0xFF
      (if bAt e.body 0 < 32 && patternOn s s.course.cn pat then [bAt e.body 0] else [])
        ++ (if x.horn && bAt e.body 4 < 32 && patternOn s s.course.cn (bAt e.body 5) then [bAt e.body 4] else [])
    else [])

/-! Acknowledgement (R227, R232). -/

/-- Acknowledges one point; true if its state changed. -/
def ackPoint (p : Nat) (cause by_ : Nat) (s : State) : State × Bool :=
  let x := pointGet s p
  let quiet (s : State) : State := updPoint p (fun x => { x with sounding := false }) s
  if planned s 5 p then
    match x.state with
    | .activeUnack => (ptTo p .activeAck (stampNow s 0) cause by_ (ptWord s p) (quiet s), true)
    | .clearedUnack => (ptTo p (if x.srcBad then .fault else .normal) (stampNow s 0) cause by_ (ptWord s p) (quiet s), true)
    | _ => (s, false)
  else (s, false)

/-- Acknowledges several points; the number that changed. -/
def ackPoints (cause by_ : Nat) (l : List Nat) (s : State) : State × Nat :=
  l.foldl (fun (a : State × Nat) p =>
    let r := ackPoint p cause by_ a.1
    (r.1, a.2 + b2n r.2)) (s, 0)

/-- SILENCE: clears SOUNDING everywhere; the number cleared. -/
def silenceAll (s : State) : State × Nat :=
  let l := (plannedPoints s).filter (fun p => (pointGet s p).sounding)
  (alarmEvent 0x10 0 0 (l.foldl (fun s p => updPoint p (fun x => { x with sounding := false }) s) s), l.length)

/-- BY of R242 for a requester; the manual gives the safety firmware no code. -/
def byCode (req : Requester) (s : State) : Nat :=
  if req = .safe then (Config.word s.free).toNat % 256 else Requester.code req

/-- What the command of the ALARM page does at the boundary (R244). -/
def applyAlarmCmd (op : Nat) (arg : BitVec 24) (req : Requester) (s : State) : CmdEnd :=
  let p := fld arg 0 11
  let g := fld arg 0 8
  let mask : Nat := match op with
    | 1 => 0x7FF | 2 => 0xFF | 5 => 0x107FF | 6 => 0xFF | _ => 0
  let by_ := byCode req s
  let s' := if req = .safe then { s with free := s.free + 1 } else s
  if !claimed s then .done .state 0 s
  else if argOutside arg mask then .done .badArg 0 s
  else match op with
    | 1 => if planned s 5 p then
        let r := ackPoint p 1 by_ s'
        .done .ok (b2n r.2) r.1
      else .done .badArg 0 s
    | 2 => if planned s 6 g then
        let r := ackPoints 1 by_ (members s g) s'
        .done .ok r.2 r.1
      else .done .badArg 0 s
    | 3 =>
      let r := ackPoints 1 by_ (plannedPoints s) s'
      .done .ok r.2 r.1
    | 4 =>
      let r := silenceAll s
      .done .ok r.2 r.1
    | 5 =>
      if !planned s 5 p then .done .badArg 0 s
      else if ptNoInhibit (ptBody s p) then .done .state 0 s
      else .done .ok 0 (updPoint p (fun x => { x with inhibit := bitAt arg 16 }) s)
    | _ =>
      if !planned s 6 g then .done .badArg 0 s
      else if (members s g).any (fun p => (pointGet s p).state = .activeUnack) then .done .state 0 s
      else match (groupGet s g).fo with
        | none => .done .ok 0x800 s
        | some (q, _) => .done .ok q (emptyFo g s)

/-- A command of the ALARM page is taken, to be applied at the next boundary (R232, R244). -/
def alarmCmd (op : Nat) (req : Requester) (arg : BitVec 24) (s : State) : State :=
  issueCmd 0x13 req op arg (fun s => .hold s) s

def execAckPoint (req : Requester) (arg : BitVec 24) (s : State) : Out := .next (alarmCmd 1 req arg s)
def execAckGroup (req : Requester) (arg : BitVec 24) (s : State) : Out := .next (alarmCmd 2 req arg s)
def execAckAll (req : Requester) (arg : BitVec 24) (s : State) : Out := .next (alarmCmd 3 req arg s)
def execSilence (req : Requester) (arg : BitVec 24) (s : State) : Out := .next (alarmCmd 4 req arg s)
def execInhibit (req : Requester) (arg : BitVec 24) (s : State) : Out := .next (alarmCmd 5 req arg s)
def execResetFirstOut (req : Requester) (arg : BitVec 24) (s : State) : Out := .next (alarmCmd 6 req arg s)

/-- Points in a state, for the counts of the ALARM page. -/
def countPoints (s : State) (f : PState → Bool) : Nat :=
  ((plannedPoints s).filter (fun p => f (pointGet s p).state)).length

end Sys2Proof.Machine
end

