-- ==== Sys2Proof/Machine/Icu.lean ====
section
/-! DEFINITION. The interrupt controller (ch. 11): sources, moderation, presentation, claiming and completing. -/

namespace Sys2Proof.Machine

/-- Key of a source in `IcuBlk.srcs`: shared sources by ID, private ones above 1000. -/
def icuKey : IcuId → Nat
  | .shared s => 16 + s.val
  | .priv t i => 1000 + 16 * t.val + i.val

/-- ID of the source under a key. -/
def icuIdOf (key : Nat) : Nat := if 1000 ≤ key then (key - 1000) % 16 else key

/-- Key of ID `id` as target `t` claims it. -/
def icuKeyOf (t id : Nat) : Nat := if id < 16 then 1000 + 16 * t + id else id

def icuSrc (b : IcuBlk) (key : Nat) : IcuSrc := b.srcs.get {} key

def icuTgt (b : IcuBlk) (t : Nat) : IcuTarget := b.targets.get {} t

/-- The target a source belongs to. -/
def icuTargetOf (b : IcuBlk) (key : Nat) : Nat :=
  if 1000 ≤ key then (key - 1000) / 16 else (icuSrc b key).target

/-- Tier boundaries TB1 to TB7 (R293). -/
def icuBounds (b : IcuBlk) : List Nat :=
  [fld b.tiers0 0 8, fld b.tiers0 8 8, fld b.tiers0 16 8, fld b.tiers0 24 8,
   fld b.tiers1 0 8, fld b.tiers1 8 8, fld b.tiers1 16 8]

/-- Tier of a priority: the boundaries that are not 0 and at or below it (R293). -/
def icuTier (b : IcuBlk) (p : Nat) : Nat := ((icuBounds b).filter (fun t => t ≠ 0 ∧ t ≤ p)).length

/-- Top of a target's stack, the fault slot above the rest (R298). -/
def icuTop (g : IcuTarget) : Option (Nat × Byte) :=
  if g.faultActive then some (11, 0xFF) else g.stack.head?

/-- Running tier (R293). -/
def icuRunTier (b : IcuBlk) (g : IcuTarget) : Nat :=
  max (icuTier b g.thresh.toNat) (match icuTop g with
    | some (_, p) => icuTier b p.toNat
    | none => 0)

/-- Hold-off group of a shared source (R305). -/
def icuGroup (key : Nat) : Nat := (key - 16) / 8

def icuHeld (b : IcuBlk) (key : Nat) : Bool := key < 1000 && b.holding.get false (icuGroup key)

/-- Whether a maskable source is presentable to target `t` (R293, R298). -/
def icuPresentable (b : IcuBlk) (t key : Nat) : Bool :=
  let x := icuSrc b key
  let g := icuTgt b t
  x.pending && x.en && icuTargetOf b key = t && !icuHeld b key && g.stack.length < 16
    && icuRunTier b g < icuTier b x.prio.toNat

/-- Whether source `a` is selected ahead of `c`: tier, then PRIO, then the lower ID (R294). -/
def icuAhead (b : IcuBlk) (a c : Nat) : Bool :=
  let pa := (icuSrc b a).prio.toNat
  let pc := (icuSrc b c).prio.toNat
  if icuTier b pa ≠ icuTier b pc then icuTier b pc < icuTier b pa
  else if pa ≠ pc then pc < pa
  else icuIdOf a < icuIdOf c

/-- The maskable source that target `t` selects (R294). -/
def icuSelect (b : IcuBlk) (t : Nat) : Option Nat :=
  b.srcs.keys.foldl (fun best k =>
    if icuPresentable b t k then
      match best with
      | some c => if icuAhead b k c then some k else some c
      | none => some k
    else best) none

/-- What CLAIM would return now: STACK_FAULT ahead of every other source (R294, R298). -/
def icuPeek (b : IcuBlk) (t : Nat) : Option Nat :=
  let g := icuTgt b t
  if g.faultPending && !g.faultActive then some (1000 + 16 * t + 11) else icuSelect b t

/-- Request line of a target (R294). -/
def icuReq (b : IcuBlk) (t : Nat) : Bool := (icuPeek b t).isSome

/-- An asserted line wakes a sleeping core (R303). -/
def icuWake (b : IcuBlk) : IcuBlk :=
  [0, 1, 2, 3].foldl (fun b t =>
    if (icuTgt b t).sleep && icuReq b t then
      { b with targets := b.targets.upd {} t (fun g => { g with sleep := false }) }
    else b) b

/-- One occurrence of a source through its coalescing (R292, R304). -/
def icuOccur (key : Nat) (b : IcuBlk) : IcuBlk :=
  let x := icuSrc b key
  let n := x.counted + 1
  let y := if max 1 x.count.toNat ≤ n
    then { x with pending := true, counted := 0, timer := false }
    else { x with counted := n, timer := x.time ≠ 0 }
  icuWake { b with srcs := b.srcs.set key y }

/-- A rejected EOI or a stack error: STACK_FAULT becomes pending at a target, and FAULT.COUNT counts it (R297, R298). -/
def icuPendFault (t : Nat) (b : IcuBlk) : IcuBlk :=
  icuWake { b with targets := b.targets.upd {} t (fun g => { g with
    faultPending := true, faultCount := satInc g.faultCount }) }

/-- The level of a page interrupt (R291). -/
def pageLevel (s : State) (p : Nat) : Bool :=
  (match pageDom s p with
   | some d => domUp s d
   | none => false) && hdrLevel (hdr s p)

/-- Whether an occurrence of a source is on its way to the ICU: an edge of its page's level, a course boundary, a
publication, a record written into the target's queue (R290 to R292). -/
def icuOnWay (s : State) : IcuId → Bool
  | .shared g => g.val < 0x50 && (pageInfo s.sys.variant g.val).isSome && (hdr s g.val).edges ≠ 0
  | .priv t i =>
    if i.val = 8 then s.course.pulses.get 0 t.val ≠ 0
    else if i.val = 9 then s.square.pulses.get 0 t.val ≠ 0
    else if i.val = 12 then (s.evq.queues.get {} t.val).pulses ≠ 0
    else false

/-- One occurrence on its way less. -/
def icuArrive (src : IcuId) (s : State) : State :=
  match src with
  | .shared g => updHdr g.val (fun h => { h with edges := h.edges - 1 }) s
  | .priv t i =>
    if i.val = 8 then { s with course.pulses := s.course.pulses.upd 0 t.val (· - 1) }
    else if i.val = 9 then { s with square.pulses := s.square.pulses.upd 0 t.val (· - 1) }
    else { s with evq.queues := s.evq.queues.upd {} t.val (fun q => { q with pulses := q.pulses - 1 }) }

/-- The application island comes up: the ICU sees what occurs from now on. -/
def icuFresh (s : State) : State :=
  { s with
    hdrs := ⟨s.hdrs.cells.map (fun c => (c.1, { c.2 with edges := 0 }))⟩, course.pulses := {}, square.pulses := {}
    evq.queues := ⟨s.evq.queues.cells.map (fun c => (c.1, { c.2 with pulses := 0 }))⟩ }

/-- The stack error of a target, private source 11. -/
def stackError : IcuId → Option Nat
  | .priv t i => if i.val = 11 then some t.val else none
  | .shared _ => none

/-- An occurrence reaches the ICU (R290 to R292, R306), or a target has a stack error (R298). -/
def execIcuSourceOccurrence (src : IcuId) (s : State) : Out :=
  .next (
    if domUp s 2 then
      match stackError src with
      | some t => { s with icu := icuPendFault t s.icu }
      | none => if icuOnWay s src then { icuArrive src s with icu := icuOccur (icuKey src) s.icu } else s
    else s)

/-- R304: TIME has passed since the first occurrence counted. -/
def execCoalesceTimeout (src : IcuId) (s : State) : Out :=
  let x := icuSrc s.icu (icuKey src)
  .next (
    if domUp s 2 && x.counted ≠ 0 && x.timer then
      { s with icu := icuWake { s.icu with
          srcs := s.icu.srcs.set (icuKey src) { x with pending := true, counted := 0, timer := false } } }
    else s)

/-- R305: the group's timer ends and its sources are presentable again. -/
def execHoldoffEnd (g : Fin 32) (s : State) : Out :=
  .next { s with icu := icuWake { s.icu with holding := s.icu.holding.set g.val false } }

/-- R290: each 1 written to ICU_t_SWI is an occurrence of that software interrupt. -/
def icuSwi (t : Fin 5) (value : Word) (s : State) : State :=
  pageWrite (9 + t.val) (fun s =>
    { s with
      icu := (below 8 (fun i => bitAt value i)).foldl
        (fun b i => icuOccur (1000 + 16 * t.val + i) b) s.icu }) s

def execIcuSwi (t : Fin 5) (value : Word) (s : State) : Out := .next (icuSwi t value s)

/-- The requester that is a target (R299). -/
def icuOwner : Nat → Requester
  | 0 => .a0 | 1 => .a1 | 2 => .a2 | 3 => .a3 | _ => .host

/-- Claims the source under `key` for target `t`: pending clears, the stack grows, the group's hold-off
starts, and no other target keeps a latched selection of it (R296, R298, R305). -/
def icuTake (t key : Nat) (b : IcuBlk) : IcuBlk :=
  if key = 1000 + 16 * t + 11 then
    { b with
      targets := b.targets.upd {} t
        (fun g => { g with faultPending := false, faultActive := true }) }
  else
    let x := icuSrc b key
    let b1 := { b with
      srcs := b.srcs.set key { x with pending := false }
      targets := [0, 1, 2, 3, 4].foldl (fun ts i =>
        if (ts.get ({} : IcuTarget) i).window.map Prod.fst = some key
        then ts.upd {} i (fun g => { g with window := none }) else ts)
        (b.targets.upd {} t (fun g => { g with stack := (icuIdOf key, x.prio) :: g.stack })) }
    if key < 1000 ∧ (b.hold.get 0 (icuGroup key)).toNat ≠ 0
    then { b1 with holding := b1.holding.set (icuGroup key) true } else b1

/-- A selection latched before a write that withdrew its source, while it may still be returned (R300, R301); a free
choice says whether it is.  STACK_FAULT goes ahead of it (R298). -/
def icuLate (s : State) (t : Nat) : Option Nat :=
  let g := icuTgt s.icu t
  match g.window with
  | some (k, _) =>
    if (icuSrc s.icu k).pending && bitAt (Config.word s.free) 0 && g.stack.length < 16 && !(g.faultPending && !g.faultActive)
    then some k else none
  | none => none

/-- What a CLAIM read returns at this moment (R296). -/
def icuWould (s : State) (t : Nat) : Option Nat := (icuLate s t).orElse (fun _ => icuPeek s.icu t)

/-- A CLAIM read by the target (R296), whose core is awake. -/
def icuClaim (t : Nat) (s : State) : State :=
  let s1 := { s with
    icu.targets := s.icu.targets.upd {} t (fun g => { g with window := none, sleep := false })
    free := s.free + 1 }
  match icuWould s t with
  | some k => { s1 with icu := icuTake t k s1.icu, resp := { words := [BitVec.ofNat 32 (icuIdOf k)] } }
  | none => { s1 with resp := { words := [0x3FF] } }

/-- What PEEK reads: what CLAIM would return (R296). -/
def icuPeekId (s : State) (t : Nat) : Nat :=
  match icuWould s t with
  | some k => icuIdOf k
  | none => 0x3FF

/-- Cores A0 to A3 sleep as their firmware decides, but never with their request line asserted (R303; log entry 141). -/
def icuSleep (s : State) : State :=
  { s with
    icu.targets := [0, 1, 2, 3].foldl (fun ts t => ts.upd {} t (fun g => { g with
      sleep := bitAt (Config.word s.free) t && !icuReq s.icu t })) s.icu.targets
    free := s.free + 1 }

def icuClaimRead (req : Requester) (t : Fin 5) (s : State) : State :=
  if domUp s 2 then
    if req = icuOwner t.val then icuClaim t.val s
    else { s with resp := { words := [BitVec.ofNat 32 (icuPeekId s t.val)] } }
  else offAccess 2 { s with resp := { words := [0] } }

def execIcuClaim (req : Requester) (t : Fin 5) (s : State) : Out := .next (icuClaimRead req t s)

/-- Pops the top of the stack; a level still asserted at its EOI occurs anew (R292, R297). -/
def icuPop (t id : Nat) (s : State) : State :=
  if id = 11 then
    { s with
      icu := icuWake { s.icu with
        targets := s.icu.targets.upd {} t (fun g => { g with faultActive := false }) } }
  else
    let b := { s.icu with targets := s.icu.targets.upd {} t (fun g => { g with stack := g.stack.tail }) }
    if 16 ≤ id ∧ id < 96 ∧ pageLevel s (id - 16) = true then { s with icu := icuOccur id b }
    else { s with icu := icuWake b }

/-- A rejected EOI (R297, R360). -/
def icuReject (t id : Nat) (s : State) : State :=
  let top := match icuTop (icuTgt s.icu t) with
    | some (i, _) => i
    | none => 0x3FF
  let s1 := { s with icu := icuPendFault t { s.icu with targets := s.icu.targets.upd {} t (fun g =>
    { g with rej := BitVec.ofNat 10 id, top := BitVec.ofNat 10 top }) } }
  let s2 := if domUp s 1 then { s1 with safe.stackFaults := satInc s1.safe.stackFaults } else s1
  raiseEv 5 1 (9 + t) (BitVec.ofNat 96 (id + top * 2 ^ 16)) s2

/-- An EOI write (R297, R299).  The manual does not say whether PG_SYNC counts a rejected EOI, which leaves the stack as
it was; here it does not (log entry 125). -/
def icuEoi (req : Requester) (t : Fin 5) (value : Word) (s : State) : State :=
  let id := fld value 0 10
  pageWriteIf (9 + t.val) (fun s =>
    if req ≠ icuOwner t.val then (setSticky (9 + t.val) 8 s, false)
    else if id = 0x3FF then (s, false)
    else if (icuTop (icuTgt s.icu t.val)).map Prod.fst = some id then (icuPop t.val id s, true)
    else (icuReject t.val id s, false)) s

def execIcuEoi (req : Requester) (t : Fin 5) (value : Word) (s : State) : Out :=
  .next (icuEoi req t value s)

/-- Every target's stack and fault slot empty (R295). -/
def icuIdle (b : IcuBlk) : Bool :=
  [0, 1, 2, 3, 4].all (fun t => (icuTgt b t).stack.isEmpty && !(icuTgt b t).faultActive)

/-- A write to ICU_TIERS0 (`hi` false) or ICU_TIERS1 (R295). -/
def icuTiersWrite (hi : Bool) (value : Word) (s : State) : State :=
  pageWriteIf 8 (fun s =>
    if icuIdle s.icu then
      ({ s with icu := icuWake (if hi then { s.icu with tiers1 := value &&& 0x00FFFFFF }
          else { s.icu with tiers0 := value }) }, true)
    else (setSticky 8 8 s, false)) s

def execIcuTiersWrite (hi : Bool) (value : Word) (s : State) : Out := .next (icuTiersWrite hi value s)

/-- A write of EN, TARGET (5 to 7 leave it) and PRIO to a source; a selection made before the write that clears EN
or moves the source stays latched (R300, R301).  A private source has no TARGET. -/
def icuSrcCfg (req : Requester) (key : Nat) (value : Word) (b : IcuBlk) : IcuBlk :=
  let x := icuSrc b key
  let cur := icuTargetOf b key
  let tgt := if key < 1000 && fld value 16 3 ≤ 4 then fld value 16 3 else x.target
  let moved := key < 1000 && tgt ≠ x.target
  let off := x.en && !bitAt value 31
  let ts := if icuPeek b cur = some key && (off || moved) then
      b.targets.upd {} cur (fun g => { g with window := some (key, if off then some req else none) })
    else if bitAt value 31 && !moved then [0, 1, 2, 3, 4].foldl (fun ts i =>
        if (ts.get ({} : IcuTarget) i).window.map Prod.fst = some key
        then ts.upd {} i (fun g => { g with window := none }) else ts) b.targets
    else b.targets
  icuWake { b with
    srcs := b.srcs.set key { x with en := bitAt value 31, target := tgt, prio := BitVec.ofNat 8 (fld value 0 8) }
    targets := ts }

def icuSrcCfgWrite (req : Requester) (i : Fin 256) (value : Word) (s : State) : State :=
  pageWrite 8 (fun s => { s with icu := icuSrcCfg req (16 + i.val) value s.icu }) s

def execIcuSrcCfgWrite (req : Requester) (i : Fin 256) (value : Word) (s : State) : Out :=
  .next (icuSrcCfgWrite req i value s)

/-- A read of the common page by the writer that cleared an EN returns only once the window has closed (R300). -/
def icuCommonRead (req : Requester) (b : IcuBlk) : IcuBlk :=
  { b with targets := [0, 1, 2, 3, 4].foldl (fun ts i =>
      if (ts.get ({} : IcuTarget) i).window.bind Prod.snd = some req
      then ts.upd {} i (fun g => { g with window := none }) else ts) b.targets }

end Sys2Proof.Machine
end

