-- ==== Sys2Proof/Machine/Call.lean ====
section
/-! DEFINITION. Engineer calls, duty and the watch function (R233 to R241, R246, R247). -/

namespace Sys2Proof.Machine

def updCall (f : CallBlk → CallBlk) (s : State) : State := { s with alarm.call := f s.alarm.call }
def updTab (t : Nat) (f : CallTab → CallTab) (s : State) : State :=
  updCall (fun c => { c with tables := c.tables.upd {} t f }) s

def tabBody (s : State) (t : Nat) : List Byte := entBody (planEntry s 7 t)

/-- A time in seconds, in courses (R214). -/
def secCourses (n : Nat) : Nat := 4000 * n

/-- State word of a planned group, as its GROUP word last set it (R228). -/
def groupWordOf (s : State) (g : Nat) : Half :=
  if planned s 6 g then
    let x := groupGet s g
    pack 16 [(14, x.lamp.toNat), (13, b2n x.horn), (12, b2n x.fo.isSome), (11, b2n x.anyFault),
      (10, b2n x.anySuppr), (8, x.stage), (0, genOf s 6 g)]
  else 0

/-- A CALL event (R247). -/
def callEvent (code table detail : Nat) (s : State) : State := blockEv 0x14 code (table + detail * 2 ^ 16) s

/-- Changes a table and raises the stage event if STAGE or WATCH changes; transfers end with stage 1, XFER_FAIL with
the return to idle (R234, R236, R247). -/
def setTab (t : Nat) (x : CallTab) (s : State) : State :=
  let o := callTab s t
  let y : CallTab := { x with xferFail := x.xferFail && tabStage x ≠ 0 }
  let s1 := updTab t (fun _ => y) s
  let s2 := if tabStage y = 2 then s1
    else updCall (fun c => { c with xfers := c.xfers.filter (fun f => f.table ≠ t) }) s1
  if tabStage o ≠ tabStage y ∨ decide (o.stage < o.wstage) ≠ decide (y.stage < y.wstage) then
    callEvent 1 t (tabStage y + 4 * b2n (decide (y.stage < y.wstage))) s2
  else s2

/-- Whether a point of a group that names the table is ACTIVE_UNACK (R234). -/
def tabCalled (s : State) (t : Nat) : Bool :=
  (plannedPoints s).any (fun p => (pointGet s p).state = .activeUnack
    && (ptGroups (ptBody s p)).any (fun g => planned s 6 g && bAt (grpBody s g) 6 = t))

/-- Stage 1 begins: the duty engineer is called. -/
def callStage1 (t : Nat) (s : State) : State :=
  setTab t { callTab s t with stage := 2, start := s.course.cn } s

/-- Stage 2 begins: all engineers are called. -/
def callStage2 (t : Nat) (s : State) : State :=
  setTab t { callTab s t with stage := 3, start := s.course.cn } s

def stage1Due (s : State) (t : Nat) : Bool :=
  (callTab s t).stage = 1 && secCourses (u16At (tabBody s t) 0) ≤ since s (callTab s t).start

def stage2Due (s : State) (t : Nat) : Bool :=
  (callTab s t).stage = 2 && secCourses (u16At (tabBody s t) 2) ≤ since s (callTab s t).start

/-- The alarm part of a table (R234). -/
def callAlarm (t : Nat) (s : State) : State :=
  if tabCalled s t then
    let s1 := if (callTab s t).stage = 0 then setTab t { callTab s t with stage := 1, start := s.course.cn } s else s
    let s2 := if stage1Due s1 t then callStage1 t s1 else s1
    if stage2Due s2 t then callStage2 t s2 else s2
  else if (callTab s t).stage = 0 then s
  else setTab t { callTab s t with stage := 0, start := s.course.cn } s

/-! Duty and transfers (R233, R235, R236). -/

def cabin (s : State) (e : Nat) : Nat := if (roster s).isSome then bAt (rosterBody s) (0x10 + e) else 0xFF

/-- Readback of an engineer's cabin output in the snapshot. -/
def cabinOn (s : State) (e : Nat) : Bool := cabin s e < 32 && (digSnap s (cabin s e)).inp

/-- A transfer runs out of time: both outputs stay demanded (R236). -/
def xferFails (t : Nat) (s : State) : State :=
  let c := s.alarm.call
  let due (f : Xfer) : Bool := f.table = t && !f.failed && 40 ≤ since s f.start && !cabinOn s f.new
  if c.xfers.any due then
    callEvent 3 t c.duty (updTab t (fun x => { x with xferFail := true })
      (updCall (fun c => { c with xfers := c.xfers.map (fun f => if due f then { f with failed := true } else f) }) s))
  else s

/-- Ends or fails the transfers of a table (R236). -/
def callXfer (t : Nat) (s : State) : State :=
  xferFails t (updCall (fun c => { c with
    xfers := c.xfers.filter (fun f => !(f.table = t && !f.failed && cabinOn s f.new)) }) s)

/-- CALL: a table's alarm stage and its transfers. -/
def callWord (t : Nat) (s : State) : State :=
  if planned s 7 t then callXfer t (callAlarm t s) else s

/-- DUTY changes at a boundary; tables in stage 1 begin a transfer (R236). -/
def setDuty (e : Nat) (s : State) : State :=
  let c := s.alarm.call
  if e = c.duty then s
  else
    let ts := below 16 (fun t => planned s 7 t && tabStage (callTab s t) = 2)
    callEvent 2 0 (e + c.duty * 2 ^ 4) (updCall (fun c => { c with
      duty := e
      xfers := c.xfers ++ ts.map (fun t => { table := t, old := c.duty, new := e, start := s.course.cn }) }) s)

/-- A transfer is in progress. -/
def xferBusy (s : State) : Bool := s.alarm.call.xfers.any (fun f => !f.failed)

/-! The watch (R238 to R240). -/

def watchTable (s : State) : Nat := bAt (rosterBody s) 5
def watchEn (s : State) : Bool := bits (bAt (rosterBody s) 0) 0 1 = 1
def enableDi (s : State) : Nat := bAt (rosterBody s) 2

def WatchPhase.num : WatchPhase → Nat
  | .off => 0 | .running => 1 | .prewarn => 2 | .expired => 3

/-- Changes the watch phase; leaving EXPIRED ends the watch stage. -/
def setPhase (ph : WatchPhase) (s : State) : State :=
  let t := watchTable s
  let s1 := if s.alarm.call.phase = ph then s
    else callEvent 4 t (WatchPhase.num ph) (updCall (fun c => { c with phase := ph }) s)
  let x := callTab s1 t
  if ph = .expired then
    if x.wstage = 0 && planned s 7 t then setTab t { x with wstage := 2, wstart := s.course.cn } s1 else s1
  else if x.wstage = 0 then s1
  else setTab t { x with wstage := 0, wstart := s.course.cn } s1

/-- RUNNING begins now. -/
def startWatch (s : State) : State :=
  setPhase .running (updCall (fun c => { c with watchStart := s.course.cn }) s)

def watchRan (s : State) (d : Nat) : Bool := secCourses d ≤ since s s.alarm.call.watchStart

def prewarnDue (s : State) : Bool :=
  watchEn s && s.alarm.call.phase = .running && watchRan s (u16At (rosterBody s) 6 - u16At (rosterBody s) 8)

def expiryDue (s : State) : Bool :=
  watchEn s && (s.alarm.call.phase = .running || s.alarm.call.phase = .prewarn) && watchRan s (u16At (rosterBody s) 6)

def watch2Due (s : State) : Bool :=
  watchEn s && s.alarm.call.phase = .expired && (callTab s (watchTable s)).wstage = 2 && planned s 7 (watchTable s)
    && secCourses (u16At (tabBody s (watchTable s)) 2) ≤ since s (callTab s (watchTable s)).wstart

/-- Watch stage 2: all engineers are called. -/
def watchStage2 (s : State) : State :=
  let t := watchTable s
  setTab t { callTab s t with wstage := 3, wstart := s.course.cn } s

/-- The roster's CALL word: the watch's phases. -/
def watchWord (s : State) : State :=
  if (roster s).isSome then
    let s1 := if expiryDue s then setPhase .expired s else if prewarnDue s then setPhase .prewarn s else s
    if watch2Due s1 then watchStage2 s1 else s1
  else s

/-- The watch is switched on or off at a boundary (R238 to R240). -/
def applyWatch (on : Bool) (s : State) : State :=
  if (roster s).isSome && watchEn s && on then
    if s.alarm.call.phase = .off then startWatch s else s
  else if s.alarm.call.phase = .off then s else setPhase .off s

/-- A step of the roster, under which the watch named table `was`: a roster without WATCH_EN has no watch, and the watch
stage goes over to the table it names now (R238, R239). -/
def watchStep (was : Nat) (s : State) : State :=
  let o := callTab s was
  let t := watchTable s
  let s1 := if o.wstage ≠ 0 && (was ≠ t || !watchEn s) then
      setTab was { o with wstage := 0, wstart := s.course.cn } s
    else s
  if !watchEn s then (if s.alarm.call.phase = .off then s1 else setPhase .off s1)
  else if was ≠ t && s.alarm.call.phase = .expired && planned s 7 t then
    setTab t { callTab s1 t with wstage := 2, wstart := if o.wstage = 0 then s.course.cn else o.wstart } s1
  else s1

/-- A table is retired: its call, its transfers and its demands end. -/
def retireTable (t : Nat) (s : State) : State :=
  updCall (fun c => { c with tables := c.tables.erase t, xfers := c.xfers.filter (fun f => f.table ≠ t) }) s

/-! The stage changes as commands of their own: nothing unless their time has passed. -/

def execCallStage1 (t : Fin 16) (s : State) : Out :=
  .next (if planned s 7 t.val && tabCalled s t.val && stage1Due s t.val then callStage1 t.val s else s)

def execCallStage2 (t : Fin 16) (s : State) : Out :=
  .next (if planned s 7 t.val && tabCalled s t.val && stage2Due s t.val then callStage2 t.val s else s)

def execCallXferFail (t : Fin 16) (s : State) : Out :=
  .next (if planned s 7 t.val then xferFails t.val s else s)

def execWatchPrewarn (s : State) : Out :=
  .next (if (roster s).isSome && prewarnDue s && !expiryDue s then setPhase .prewarn s else s)

def execWatchExpired (s : State) : Out :=
  .next (if (roster s).isSome && expiryDue s then setPhase .expired s else s)

def execWatchStage2 (s : State) : Out :=
  .next (if (roster s).isSome && watch2Due s then watchStage2 s else s)

/-! Demands (R230, R235, R238). -/

/-- DIOs that call tables and the watch demand. -/
def callDemands (s : State) : List Nat :=
  let c := s.alarm.call
  ((List.range 16).flatMap (fun t =>
    let b := tabBody s t
    let st := tabStage (callTab s t)
    if planned s 7 t && 2 ≤ st && patternOn s s.course.cn (bAt b 6) then
      [bAt b 4] ++ (if st = 3 then bAt b 5 :: (List.range 16).map (cabin s)
        else cabin s c.duty :: (c.xfers.filter (fun f => f.table = t)).flatMap (fun f =>
          cabin s f.old :: (if f.failed then [cabin s f.new] else [])))
    else [])
  ++ (if (c.phase = .prewarn || c.phase = .expired) && (roster s).isSome
        && patternOn s s.course.cn (bAt (rosterBody s) 4) then [bAt (rosterBody s) 3] else [])).filter (· < 32)

def maskOf (l : List Nat) : Word := l.foldl (fun w n => setBit w n true) 0

/-- ALARM_DEMAND and CALL_OUT. -/
def callOut (s : State) : Word := maskOf (callDemands s)
def alarmDemand (s : State) : Word := maskOf (alarmDemands s) ||| callOut s

/-! Commands (R246). -/

/-- What the command of the CALL page does at the boundary. -/
def applyCallCmd (op : Nat) (arg : BitVec 24) (s : State) : CmdEnd :=
  let c := s.alarm.call
  let mask : Nat := match op with
    | 1 => 0xF | 2 => 1 | _ => 0
  let e := fld arg 0 4
  if !claimed s then .done .state 0 s
  else if argOutside arg mask then .done .badArg 0 s
  else match op with
    | 1 =>
      if (roster s).isNone then .done .badArg 0 s
      else if rosterDutyDi s || xferBusy s then .done .state 0 s
      else if cabin s e = 0xFF then .done .badArg 0 s
      else .done .ok c.duty (setDuty e s)
    | 2 =>
      if (roster s).isNone || !watchEn s || enableDi s ≠ 0xFF then .done .state 0 s
      else
        let s1 := updCall (fun c => { c with watchOn := bitAt arg 0 }) s
        .done .ok 0 (applyWatch (bitAt arg 0) s1)
    | _ =>
      if c.phase = .off then .done .state 0 s
      else .done .ok 0 (startWatch s)

def callCmd (op : Nat) (req : Requester) (arg : BitVec 24) (s : State) : State :=
  issueCmd 0x14 req op arg (fun s => .hold s) s

def execSetDuty (req : Requester) (arg : BitVec 24) (s : State) : Out := .next (callCmd 1 req arg s)
def execWatchEnable (req : Requester) (arg : BitVec 24) (s : State) : Out := .next (callCmd 2 req arg s)
def execWatchReset (req : Requester) (arg : BitVec 24) (s : State) : Out := .next (callCmd 3 req arg s)

/-! At a boundary (R232, R233, R239, R240). -/

/-- What a command of the ALARM or CALL page held in BUSY does at this boundary. -/
def runHeld (page : Nat) (apply : Nat → BitVec 24 → Requester → State → CmdEnd) (s : State) : State :=
  match (hdr s page).run with
  | some r =>
    match apply r.op.toNat r.arg r.by_ s with
    | .done st res s' => finishCmd page st res s'
    | .hold s' => s'
  | none => s

/-- Presses seen in the last snapshot, applied now (R232, R239). -/
def applyPresses (s : State) : State :=
  let ds := s.alarm.presses
  let r := rosterBody s
  let hit (d : Nat) : Bool := d < 32 && ds.contains d
  let named (o : Nat) : Bool := (roster s).isSome && hit (bAt r o)
  let gs := (s.plan.entries.filter (fun e => e.ty = 6 && hit (bAt e.body 7))).map (·.target)
  let s1 := gs.foldl (fun s g => (ackPoints 2 6 (members s g) s).1) { s with alarm.presses := [] }
  let s2 := if named 0x0C then (ackPoints 2 6 (plannedPoints s1) s1).1 else s1
  let s3 := if named 0x0D then (silenceAll s2).1 else s2
  if named 1 && s.alarm.call.phase ≠ .off then startWatch s3 else s3

/-- Everything a boundary applies to alarms and calls before the new course runs; presses and the selector act in
the unit that holds a claim (log entry 19). -/
def alarmBoundary (s : State) : State :=
  let s1 := runHeld 0x13 applyAlarmCmd s
  let s2 := runHeld 0x14 (fun op arg _ => applyCallCmd op arg) s1
  let s3 := if claimed s2 then applyPresses s2 else { s2 with alarm.presses := [] }
  let s4 := if claimed s3 && (roster s3).isSome && enableDi s3 ≠ 0xFF then applyWatch s3.alarm.call.enableLast s3 else s3
  let s5 := match s4.alarm.call.selNew with
    | some e => if claimed s4 && rosterDutyDi s4 then setDuty e s4 else s4
    | none => s4
  updCall (fun c => { c with selNew := none }) s5

/-- A press between two snapshots (R232). -/
def pressed (old new : DSnap) : Bool := (!old.inp && new.inp) || 2 ≤ new.changes

/-- Without a selector there is no SEL_FAULT (R233). -/
def noSelector (s : State) : State :=
  if s.alarm.call.selFault then
    callEvent 5 0 0 (updCall (fun c => { c with selFault := false, selNew := none }) s)
  else s

/-- What the new snapshot shows: presses, the selector and ENABLE_DI (R232, R233, R240). -/
def alarmCapture (s : State) : State :=
  let press := below 32 (fun d => planned s 4 d && pressed (s.course.prevIn.get {} (32 + d)) (digSnap s (32 + d)))
  let r := rosterBody s
  let s1 := { s with alarm.presses := press }
  if (roster s).isSome then
    let en := enableDi s
    let s2 := if en < 32 && digClass s (32 + en) ≠ .bad then
        updCall (fun c => { c with enableLast := (digSnap s (32 + en)).inp }) s1
      else s1
    if rosterDutyDi s then
      let ds := (List.range (bAt r 0x0B)).map (fun i => 32 + bAt r 0x0A + i)
      let on := (List.range (bAt r 0x0B)).filter (fun i => (digSnap s (32 + bAt r 0x0A + i)).inp)
      let bad := ds.any (fun k => digClass s k = .bad) || on.length ≠ 1
      let s3 := if bad ≠ s.alarm.call.selFault then callEvent 5 0 (b2n bad) s2 else s2
      updCall (fun c => { c with selFault := bad, selNew := if bad then none else on.head? }) s3
    else noSelector s2
  else noSelector s1

end Sys2Proof.Machine
end

