-- ==== Sys2Proof/Machine/Engine.lean ====
section
/-! DEFINITION. The slot words of E0 and E1 (R67 to R72, R202 to R205, R471, R166 to R169). -/

namespace Sys2Proof.Machine

def engine (s : State) (e : Nat) : Engine := if e = 0 then s.course.e0 else s.course.e1

def updEngine (e : Nat) (f : Engine → Engine) (s : State) : State :=
  if e = 0 then { s with course.e0 := f s.course.e0 } else { s with course.e1 := f s.course.e1 }

/-- Whether an engine still walks its list: a plan runs, END not reached, the course not faulted. -/
def engineRuns (s : State) (e : Nat) : Bool :=
  domUp s 3 && s.course.run && !(engine s e).ended && !s.course.faulted

/-- Counts one word of `cost` cycles. -/
def tick (e cost : Nat) (s : State) : State :=
  updEngine e (fun x => { x with pos := x.pos + 1, cycles := x.cycles + cost }) s

/-- The word that engine `e` executes next: of its list for this WI, the one at its position; none at the closing END
(R67, R469). -/
def nextWord (s : State) (e : Nat) : Option ListWord :=
  (engineList s.plan.entries e s.course.wi)[(engine s e).pos]?

/-- Whether a word of class `cls` with operands `w` is due: the list's next word spells them, and it stands in the entry
(TYPE and TARGET) `own`, where the word acts on its entry's target (R70; log entry 121). -/
def wordDue (s : State) (e cls : Nat) (own : Option (Nat × Nat)) (w : SlotWord) : Bool :=
  (nextWord s e).any (fun x => x.word = slotWordOf cls w && own.all (fun o => x.owner = o))

/-- The engine runs and the word is due. -/
def wordRuns (s : State) (e cls : Nat) (own : Option (Nat × Nat)) (w : SlotWord) : Bool :=
  engineRuns s e && wordDue s e cls own w

/-- One slot word: its work, its cycles and its position; nothing where the list does not have it next. -/
def slotWord (e cls : Nat) (own : Option (Nat × Nat)) (w : SlotWord) (f : State → State) (s : State) : State :=
  if wordRuns s e cls own w then tick e (slotCycles cls w.p.toNat) (f s) else s

/-- Whether END is due: the list has been walked, or its next word is an END. -/
def endDue (s : State) (e : Nat) : Bool := (nextWord s e).all (fun x => swClass x.word = 0)

/-- The entry (TYPE and TARGET) of channel 0 to 143: UC and LI, then DIO and DI. -/
def chanOwner (c : Nat) : Nat × Nat :=
  if c < 80 then (anaTy c, anaTarget c) else if c < 112 then (3, c - 80) else (4, c - 112)

/-! Cells (R71). -/

def cellGet (s : State) (e a : Nat) : Dword := ((engine s e).cells.get {} (a % 16384)).val

def cellSet (e a : Nat) (v : Dword) (s : State) : State :=
  updEngine e (fun x => { x with cells := x.cells.set (a % 16384) ⟨v, s.course.cn⟩ }) s

/-! Both engines. -/

def execEnd (e : Fin 2) (s : State) : Out :=
  .next (if engineRuns s e.val && endDue s e.val then
      updEngine e.val (fun x => { x with ended := true, cycles := x.cycles + 1 }) s
    else s)

def execIdle (e : Fin 2) (w : SlotWord) (s : State) : Out := .next (slotWord e.val 0x01 none w id s)

def execMove (e : Fin 2) (w : SlotWord) (s : State) : Out :=
  .next (slotWord e.val 0x02 none w (fun s => cellSet e.val w.b.toNat (cellGet s e.val w.a.toNat) s) s)

/-! Channels in E0. -/

def updCtx (c : Nat) (f : ChanCtx → ChanCtx) (s : State) : State :=
  { s with course.ctx := s.course.ctx.upd {} c f }

def chanBody (s : State) (c : Nat) : List Byte := entBody (planEntry s (anaTy c) (anaTarget c))

/-- Output-mode channel. -/
def chanIsOut (s : State) (c : Nat) : Bool := c < 32 && ucIsOut (ucGet s c)

/-- SETTLING of a channel that no sample has ended yet. -/
def chanSettling (s : State) (c : Nat) : Bool :=
  if c < 32 then
    (if ucIsOut (ucGet s c) then (ucGet s c).out.settle ≠ 0
     else (ucGet s c).inp.settle ≠ 0 || iepeSettling s (ucGet s c).inp)
  else (liGet s (c - 32)).settle ≠ 0

/-- REASON of the record of a channel that holds sample `x`, as things stand: NO_DATA first, but for a tile that is off
or restarting (R122, R123, R165, R434, R435). -/
def chanReason (s : State) (c : Nat) (x : Sample) : Nat :=
  if !tileUp s (anaTile c) then 2
  else if !bitAt x.status 15 then 1
  else if inMaint s c then 2
  else if fld x.status 10 4 ≠ 0 then fld x.status 10 4
  else if chanSettling s c then 8
  else 0

/-- Low status bits of a record: an output's DAMPING and override bits (R151), an input's own. -/
def chanLow (s : State) (c : Nat) (x : Sample) : Nat :=
  if chanIsOut s c then
    let o := (ucGet s c).out
    let src := o.source.toNat
    32 * b2n o.damping + 8 * b2n o.readback + 4 * b2n o.compliance + 2 * b2n o.therm
      + b2n (src = 1 || src = 2 || src = 3 || src = 7)
  else if 32 ≤ c then fld x.status 0 4
  else 32 * fld x.status 5 1

/-- Status of a record with its reason and accuracy bits; NEW is added by REC. -/
def chanStatus (s : State) (c reason : Nat) (degraded : Bool) (x : Sample) : Half :=
  let valid := bitAt x.status 15 || !tileUp s (anaTile c)
  pack 16 [(15, b2n valid), (14, b2n (reason ≠ 0)), (10, reason), (0, chanLow s c x)]
    ||| BitVec.ofNat 16 (accuracyBits s c) ||| (if degraded then 512 else 0)

/-- Full scale of a path in the unit of x (R91); a loop input has ±25.0 mA. -/
def fullScale (s : State) (c : Nat) (low : Bool) : Dword :=
  if 32 ≤ c then f64ofRatio 25 1000 else ucFullScale (ucGet s c) low

/-- x of a sample: leads subtracted in RESISTANCE mode (R94); the readback of an output. -/
def sampleX (s : State) (c : Nat) (x : Sample) : Dword :=
  if chanIsOut s c then f32to64 x.readback
  else
    let fs := fullScale s c (fld x.tag 0 2 ≠ 0)
    let v := xOf x.word fs
    if x.lead = 0 then v else fsub v (f64ofRatio x.lead 1000)

/-- A value with its status, as one cell holds them for E1 and for OUT. -/
def valueCell (v : Word) (st : Half) : Dword := pack 64 [(0, v.toNat), (32, st.toNat)]

/-- FETCH: a new sample of the snapshot into the channel's cells, or the last one fetched again (R96): x at B, and for a
fast mode the minimum, maximum and mean square of the course's samples after it (R113).  An output's value is its
readback (R151). -/
def fetchWord (c : Nat) (w : SlotWord) (s : State) : State :=
  let n := s.course.snap.ana.get {} c
  let x := if n.fresh then n else (chanCtx s c).smp
  let r := chanReason s c x
  let s1 := updCtx c (fun k => { k with smp := x, got := n.fresh }) s
  let s2 := cellSet 0 w.b.toNat (sampleX s c x) s1
  if chanIsOut s c then
    updCtx c (fun k => { k with
      value := if r = 1 then qnan32 else x.readback, status := chanStatus s c r false x
      lastGood := if r = 0 then some x.readback else k.lastGood }) s2
  else if c < 8 && (ucModeF (ucGet s c) = 5 || ucModeF (ucGet s c) = 6) then
    cellSet 0 (w.b.toNat + 3) (fdiv x.sumSq (f64ofInt (max 1 x.count)))
      (cellSet 0 (w.b.toNat + 2) x.maximum (cellSet 0 (w.b.toNat + 1) x.minimum s2))
  else s2

/-- FETCH of digital channel `k`: the state of the snapshot with its status. -/
def fetchDigital (k : Nat) (w : SlotWord) (s : State) : State :=
  let d := digSnap s k
  cellSet 0 w.b.toNat (valueCell (BitVec.ofNat 32 (b2n d.inp)) d.status) s

/-- Whether the channel's filter sections advance: a new sample not marked INVALID (R471). -/
def filterAdvances (s : State) (c : Nat) : Bool :=
  (chanCtx s c).got && chanReason s c (chanCtx s c).smp = 0

/-- FILTER: input at A; y1, y2, u1, u2 at B to B + 3, y1 being the output (R471). -/
def filterWord (c : Nat) (w : SlotWord) (s : State) : State :=
  if filterAdvances s c then
    let b := chanBody s c
    let k (i : Nat) : Dword := w64At b (w.t.toNat + 8 * i)
    let cell (i : Nat) : Dword := cellGet s 0 (w.b.toNat + i)
    let u := cellGet s 0 w.a.toNat
    let y := fsub (fsub (fadd (fadd (fmul (k 0) u) (fmul (k 1) (cell 2))) (fmul (k 2) (cell 3)))
      (fmul (k 3) (cell 0))) (fmul (k 4) (cell 1))
    cellSet 0 w.b.toNat y (cellSet 0 (w.b.toNat + 1) (cell 0)
      (cellSet 0 (w.b.toNat + 3) (cell 2) (cellSet 0 (w.b.toNat + 2) u s)))
  else s

/-- Horner's rule: coefficients highest first. -/
def horner (x : Dword) : List Dword → Dword
  | [] => 0
  | c :: r => r.foldl (fun a k => fadd (fmul a x) k) c

/-- LIN: row j of the polynomial, coefficients from T in steps of DT + 1, degree P (R203). -/
def linWord (c : Nat) (w : SlotWord) (s : State) : State :=
  let b := chanBody s c
  let n := w.p.toNat
  let ks := (List.range (n + 1)).map (fun i => w64At b (w.t.toNat + 8 * (n - i) * (entDT b + 1)))
  cellSet 0 w.b.toNat (horner (cellGet s 0 w.a.toNat) ks) s

/-- Cold-junction temperature of a universal channel in 0.01 °C × 7 (R111, R112). -/
def cjTimes7 (t : Tile) (k : Nat) : Int :=
  if t.cjaFail then 7 * t.cjb.toInt
  else if t.cjbFail then 7 * t.cja.toInt
  else 7 * t.cja.toInt + (t.cjb.toInt - t.cja.toInt) * k

/-- The T value of a channel: value, whether the source holds no good one (R190, R112), and whether the record has no
data for it (R205).  Without a T source the manual gives T no value. -/
def tValue (s : State) (c : Nat) : Dword × Bool × Bool :=
  let src := entTsrc (chanBody s c)
  let t := tileGet s (anaTile c)
  if src = 0 then (Config.dword s.free, false, false)
  else if src = 1 then (f64ofRatio t.temp.toInt 100, false, false)
  else if src = 2 then (f64ofRatio (cjTimes7 t (c % 8)) 700, t.cjFault, false)
  else
    let k := chanCtx s (if 0x200 ≤ src then 32 + (src - 0x200) else src - 0x100)
    if bitAt k.status 15 && !bitAt k.status 14 then (f32to64 k.value, false, false)
    else match k.lastGood with
      | some v => (f32to64 v, true, false)
      | none => (0, true, true)

/-- LINSUM: rows A to A + P combined in T (R203). -/
def linsumWord (c : Nat) (w : SlotWord) (s : State) : State :=
  let n := w.p.toNat
  let rows := (List.range (n + 1)).map (fun j => cellGet s 0 (w.a.toNat + (n - j)))
  cellSet 0 w.b.toNat (horner (tValue s c).1 rows) { s with free := s.free + 1 }

/-- The table of a characteristic: x and y of each point. -/
def charPoints (b : List Byte) (o : Nat) : List (Dword × Dword) :=
  (List.range (bAt b (o + 1))).map (fun i =>
    (f32to64 (w32At b (o + 0x20 + 8 * i)), f32to64 (w32At b (o + 0x24 + 8 * i))))

/-- Linear interpolation between the points around u (R168). -/
def interpolate (u : Dword) : List (Dword × Dword) → Dword
  | [] => u
  | [p] => p.2
  | p :: q :: r =>
    if fle u p.1 then p.2
    else if flt u q.1 then fadd p.2 (fdiv (fmul (fsub q.2 p.2) (fsub u p.1)) (fsub q.1 p.1))
    else interpolate u (q :: r)

/-- CHAR: square root with cut-off, or table (R167 to R169). -/
def charWord (c : Nat) (w : SlotWord) (s : State) : State :=
  let b := chanBody s c
  let o := w.t.toNat
  let u := cellGet s 0 w.a.toNat
  if !(chanCtx s c).got || !f64finite u || chanReason s c (chanCtx s c).smp ≠ 0 then cellSet 0 w.b.toNat u s
  else if bAt b o = 2 then cellSet 0 w.b.toNat (interpolate u (charPoints b o)) s
  else
    let p (i : Nat) : Dword := f32to64 (w32At b (o + 4 + 4 * i))
    let f := fdiv (fsub u (p 0)) (fsub (p 1) (p 0))
    let cut := if (chanCtx s c).cutOff then flt f (fadd (p 4) (p 5)) else flt f (p 4)
    let v := if cut then p 2 else fadd (p 2) (fmul (fsub (p 3) (p 2)) (fsqrt f))
    cellSet 0 w.b.toNat v (updCtx c (fun k => { k with cutOff := cut }) s)

/-- A binary64 result that a binary32 record can hold (R204). -/
def fits32 (v : Dword) : Bool := f64finite v && fle (fabs v) (f32to64 0x7F7FFFFF)

/-- Value of a multidrop loop channel: the loop current divided by NDEV, in mA (R182). -/
def multidropValue (s : State) (c : Nat) (x : Sample) : Dword :=
  fdiv (xOf x.word (f64ofInt 25)) (f64ofInt (liNdev (liGet s (c - 32))))

/-- CVT: binary32 value with the status merged; an INVALID sample holds the last good value, and where no new sample
arrived the value is the last record's (R96, R203 to R205).  Of the reasons that apply the first of R123 shows: NO_DATA
for want of a T value before all but a tile that is off, OVER_RANGE before SETTLING.  An output keeps its readback
(R151). -/
def cvtWord (c : Nat) (w : SlotWord) (s : State) : State :=
  let k := chanCtx s c
  let x := k.smp
  let t := tValue s c
  let r0 := chanReason s c x
  let noT := t.2.2 && tileUp s (anaTile c)
  let v := if 32 ≤ c && liMultidrop (liGet s (c - 32)) then multidropValue s c x else cellGet s 0 w.a.toNat
  let same := !k.got && r0 = 0
  let r := if same then fld k.status 10 4 else if noT then 1 else if (r0 = 0 || r0 = 8) && !fits32 v then 7 else r0
  let good := if r = 0 && !same then some (f64to32 v) else k.lastGood
  let value := if same then k.value else if bitAt x.status 15 || !tileUp s (anaTile c) then good.getD qnan32 else qnan32
  let st := chanStatus s c r t.2.1 x
  let out := k.status ||| (if t.2.1 then 512 else 0)
  if chanIsOut s c then cellSet 0 w.b.toNat (valueCell k.value out) (updCtx c (fun k => { k with status := out }) s)
  else cellSet 0 w.b.toNat (valueCell value st)
    (updCtx c (fun k => { k with lastGood := good, value := value, status := st }) s)

def execFetch (c : Fin 144) (w : SlotWord) (s : State) : Out :=
  .next (slotWord 0 0x10 (some (chanOwner c.val)) w
    (if c.val < 80 then fetchWord c.val w else fetchDigital (c.val - 80) w) s)
def execFilter (c : Fin 80) (w : SlotWord) (s : State) : Out := 
  .next (slotWord 0 0x11 (some (chanOwner c.val)) w (filterWord c.val w) s)
def execLin (c : Fin 80) (w : SlotWord) (s : State) : Out :=
  .next (slotWord 0 0x12 (some (chanOwner c.val)) w (linWord c.val w) s)
def execLinsum (c : Fin 80) (w : SlotWord) (s : State) : Out :=
  .next (slotWord 0 0x13 (some (chanOwner c.val)) w (linsumWord c.val w) s)
def execChar (c : Fin 80) (w : SlotWord) (s : State) : Out := 
  .next (slotWord 0 0x14 (some (chanOwner c.val)) w (charWord c.val w) s)
def execCvt (c : Fin 80) (w : SlotWord) (s : State) : Out := 
  .next (slotWord 0 0x15 (some (chanOwner c.val)) w (cvtWord c.val w) s)

/-! Records (R252, R261, R262). -/

/-- The analogue record of channel `c` from its cells; where no new sample arrived, the raw field, tag and time of its
last record stand (R96). -/
def anaRecord (s : State) (c : Nat) : ARec :=
  let k := chanCtx s c
  let old := s.square.work.ana.get {} c
  { value := k.value, raw := if bitAt k.status 15 then (if k.got then k.smp.raw else old.raw) else 0
    status := k.status ||| (if k.got && bitAt k.smp.status 15 then 16 else 0)
    tag := if k.got then k.smp.tag else old.tag
    gen := BitVec.ofNat 8 (genOf s (anaTy c) (anaTarget c)), time := if k.got then k.smp.stamp else old.time }

/-- The digital record of channel `k` from the snapshot; CMD is what its latch holds now. -/
def digRecord (s : State) (k : Nat) : DRec :=
  let d := digSnap s k
  { inp := d.inp, cmd := k < 32 && bitAt s.course.dioLatch k, trip := k < 32 && bitAt s.course.snap.toDio k
    gen := BitVec.ofNat 8 (genOf s (if k < 32 then 3 else 4) (k % 32)), status := d.status, time := d.stamp }

/-- REC: record 0 to 79 of an analogue channel, 80 to 143 of a digital one, in the square's working records; only
for a planned target. -/
def recWord (r : Nat) (s : State) : State :=
  if r < 80 then
    if planned s (anaTy r) (anaTarget r) then
      { s with square.work.ana := s.square.work.ana.set r (anaRecord s r) }
    else s
  else if planned s (if r < 112 then 3 else 4) ((r - 80) % 32) then
    { s with square.work.dig := s.square.work.dig.set (r - 80) (digRecord s (r - 80)) }
  else s

def execRec (e : Fin 2) (r : Fin 144) (w : SlotWord) (s : State) : Out :=
  .next (slotWord e.val 0x03 (some (chanOwner r.val)) w (recWord r.val) s)

/-! Orders to tiles and modems. -/

def execTilecmdRotation (t : Fin 10) (w : SlotWord) (s : State) : Out :=
  .next (slotWord 0 0x16 (some (0x0A, t.val)) w (rotationOrder t.val w.a.toNat w.b.toNat) s)

/-- R109: an open test is ordered for the channel's next conversion, where one can run. -/
def execTilecmdOpenTest (c : Fin 32) (w : SlotWord) (s : State) : Out :=
  .next (slotWord 0 0x16 (some (1, c.val)) w (fun s =>
    if openTestable (ucGet s c.val) && gateUc s c.val && tileUp s (c.val / 8) then
      updInp c.val (fun i => { i with openOrder := true }) s
    else s) s)

def execHart (m : Fin 8) (w : SlotWord) (s : State) : Out :=
  .next (slotWord 0 0x17 (some (9, m.val)) w (hartAdvance m.val) s)

/-! E1. -/

def execCmp (p : Fin 2048) (w : SlotWord) (s : State) : Out :=
  .next (slotWord 1 0x20 (some (5, p.val)) w (cmpWord p.val) s)
def execRate (p : Fin 2048) (w : SlotWord) (s : State) : Out :=
  .next (slotWord 1 0x21 (some (5, p.val)) w (rateWord p.val) s)
def execDelay (p : Fin 2048) (w : SlotWord) (s : State) : Out :=
  .next (slotWord 1 0x22 (some (5, p.val)) w (delayWord p.val) s)
def execLogic (p : Fin 2048) (w : SlotWord) (s : State) : Out :=
  .next (slotWord 1 0x23 (some (5, p.val)) w (logicWord p.val) s)
def execGroup (g : Fin 256) (w : SlotWord) (s : State) : Out :=
  .next (slotWord 1 0x24 (some (6, g.val)) w (groupWord g.val) s)

/-- CALL of table `t`, or with 16 of the roster. -/
def execCall (t : Fin 17) (w : SlotWord) (s : State) : Out :=
  .next (slotWord 1 0x25 (some (if t.val < 16 then (7, t.val) else (0x0C, 0))) w
    (if t.val < 16 then callWord t.val else watchWord) s)

/-- OUT: a DIO's command, REST XOR demand (R274), or a universal output's, from the cell at A (R133). -/
def outWord (n : Nat) (w : SlotWord) (s : State) : State :=
  if n < 32 then
    if planned s 3 n then
      let rest := bAt (entBody (planEntry s 3 n)) 8 = 1
      { s with course.dioLatch := setBit s.course.dioLatch n (rest != bitAt (alarmDemand s) n) }
    else s
  else
    let c := n - 32
    let cell := cellGet s 0 w.a.toNat
    let st : Half := BitVec.ofNat 16 (fld cell 32 16)
    let mask := bAt (outBlock s c) 0x14
    let flag := (mask.testBit 0 && bitAt st 14) || (mask.testBit 1 && !bitAt st 15)
    if planned s 1 c then
      { s with course.ucLatch := s.course.ucLatch.set c (BitVec.ofNat 32 (fld cell 0 32), flag) }
    else s

def execOut (n : Fin 64) (w : SlotWord) (s : State) : Out := 
  .next (slotWord 1 0x26 (some (if n.val < 32 then (3, n.val) else (1, n.val - 32))) w (outWord n.val w) s)

end Sys2Proof.Machine
end

