-- ==== Sys2Proof/Machine/Square.lean ====
section
/-! DEFINITION. The square: buffers, readers, window and publication (ch. 09, R76). -/

namespace Sys2Proof.Machine

/-! Contents (R250, R260 to R263). -/

def arecWord (r : ARec) (i : Nat) : Word :=
  match i with
  | 0 => r.value
  | 1 => r.raw
  | 2 => pack 32 [(0, r.status.toNat), (16, r.tag.toNat), (24, r.gen.toNat)]
  | _ => r.time.word

def drecWord (r : DRec) (i : Nat) : Word :=
  match i with
  | 0 => pack 32 [(0, b2n r.inp), (1, b2n r.cmd), (2, b2n r.trip), (8, r.gen.toNat), (16, r.status.toNat)]
  | _ => r.time.word

/-- Two 16-bit words of a block, the even one low. -/
def halfPair (t : Tab Half) (i : Nat) : Word := pack 32 [(0, (t.get 0 i).toNat), (16, (t.get 0 (i + 1)).toNat)]

/-- The word of a square at window offset `o`, a multiple of 4. -/
def squareWord (q : Square) (o : Nat) : Word :=
  if o < 0x80 then q.header.get 0 (o / 4)
  else if o < 0x580 then arecWord (q.ana.get {} ((o - 0x80) / 16)) (o % 16 / 4)
  else if o < 0x780 then drecWord (q.dig.get {} ((o - 0x580) / 8)) (o % 8 / 4)
  else if o < 0x980 then halfPair q.groups ((o - 0x780) / 2)
  else if o < 0x9C0 then q.call.get 0 ((o - 0x980) / 4)
  else if o < 0x1000 then 0
  else if o < 0x2000 then halfPair q.points ((o - 0x1000) / 2)
  else 0

/-- The square a buffer holds; without one, the empty square (R256). -/
def bufSquare (s : State) (b : Option Nat) : Square :=
  match b with
  | some i => s.square.bufs.get {} i
  | none => {}

def readerGet (s : State) (r : Nat) : Reader := s.square.readers.get {} r
def updReader (r : Nat) (f : Reader → Reader) (s : State) : State :=
  { s with square.readers := s.square.readers.upd {} r f }

/-- Buffers that readers hold (R251). -/
def heldBuf (s : State) (b : Nat) : Bool :=
  (List.range 6).any (fun r => (readerGet s r).pin = some (some b)
    || ((readerGet s r).latch.map Prod.fst) = some (some b))

/-! Pins and window reads (R254 to R257). -/

/-- A write to SQUARE_PIN. -/
def squarePin (req : Requester) (value : Word) (s : State) : State :=
  pageWrite 0x12 (updReader req.reader (fun _ =>
    { pin := if bitAt value 0 then some s.square.newest else none, latch := none })) s

def execSquarePin (req : Requester) (value : Word) (s : State) : Out := .next (squarePin req value s)

/-- The word a reader's aligned window read returns, and the state after it (R255, R257). -/
def windowRead (req : Requester) (o : Nat) (s : State) : State × Word :=
  let r := readerGet s req.reader
  if domUp s 3 then
    match r.pin with
    | some b => (s, squareWord (bufSquare s b) o)
    | none =>
      if o < 0x2000 && o % 16 = 0 then
        (updReader req.reader (fun r => { r with latch := some (s.square.newest, o / 16) }) s,
          squareWord (bufSquare s s.square.newest) o)
      else match r.latch with
        | some (b, k) =>
          if k = o / 16 then (s, squareWord (bufSquare s b) o)
          else (s, squareWord (bufSquare s s.square.newest) o)
        | none => (s, squareWord (bufSquare s s.square.newest) o)
  else (offAccess 3 s, 0)

/-- The addressed bytes of a word (R17). -/
def narrow (w : Word) (a size : Nat) : Word :=
  BitVec.ofNat 32 (w.toNat / 2 ^ (8 * (a % 4)) % 2 ^ (8 * size))

/-- A read of `size` bytes (1, 2 or 4) at address `a` of a page or window whose aligned 32-bit reads `rd` answers: an
unaligned 32-bit read returns 0 without side effect, a narrower read the addressed bytes (R17; log entry 35). -/
def readN (rd : Nat → State → State × Word) (a size : Nat) (s : State) : State × Word :=
  if size = 4 ∧ a % 4 ≠ 0 then (s, 0)
  else
    let r := rd (a / 4 * 4) s
    (r.1, if size = 4 then r.2 else narrow r.2 a size)

/-- A read of `size` bytes (1, 2 or 4) at window offset `a` (R17, R250). -/
def windowReadN (req : Requester) (a size : Nat) (s : State) : State × Word := readN (windowRead req) a size s

def setResp (l : List Word) (s : State) : State := { s with resp := { words := l } }

def execSquareWindowRead (req : Requester) (a : BitVec 24) (size : Fin 3) (s : State) : Out :=
  let r := windowReadN req a.toNat (2 ^ size.val) s
  .next (setResp [r.2] r.1)

/-- R250: a write to the window is dropped. -/
def windowWrite (s : State) : State := if domUp s 3 then setSticky 0x12 8 s else offAccess 3 s

def execSquareWindowWrite (_req : Requester) (_a : BitVec 24) (_value : Word) (s : State) : Out :=
  .next (windowWrite s)

/-! Closing and publication (R76, R251, R252, R259). -/

/-- A buffer for the course in progress: one that is neither held nor the newest; the manual does not say which. -/
def takeBuffer (s : State) : State :=
  let l := below 8 (fun b => s.square.newest ≠ some b && !heldBuf s b)
  { s with
    square.writing := l[(Config.word s.free).toNat % l.length]?
    free := s.free + 1 }

/-- Publishes the closed square; every target of the ICU has a SQUARE pulse (R290). -/
def publish (q : Square) (s : State) : State :=
  let s1 := if s.square.writing.isSome then s else takeBuffer s
  let b := s1.square.writing.getD 0
  let q' := { q with header := q.header.set 25 s1.square.prevCn }
  trendGather q' { s1 with
    square.bufs := s1.square.bufs.set b q'
    square.newest := some b
    square.writing := none
    square.count := s1.square.count + 1
    square.pulses := pulseAll s1.square.pulses
    square.prevCn := q.cn
    square.closed := none }

/-- The square publisher: square N becomes the newest, and the buffer of course N + 1 is taken; none is published while
the plan's state is not RUNNING (R259). -/
def squarePublish (s : State) : State :=
  let s1 := match s.square.closed with
    | some q => if s.plan.state = .running then publish q s else { s with square.closed := none }
    | none => s
  if s1.course.run && s1.square.writing.isNone then takeBuffer s1 else s1

def execSquarePublish (s : State) : Out := .next (if domUp s 3 then squarePublish s else s)

/-- Header fields that describe the state at B(N) (R260). -/
def headerAtStart (s : State) : Tab Word :=
  let dsWord (f : District → Byte) (k : Nat) : Word :=
    pack 32 ((List.range 4).map (fun i => (8 * i, (f (district s (4 * k + i))).toNat)))
  let dst (k : Nat) : Word := pack 32 ((List.range 8).map (fun i =>
    (4 * i, match (district s (8 * k + i)).state with
      | .absent => 0 | .idle => 1 | .verifying => 2 | .updating => 3 | .mixed => 4)))
  let flags : Word := pack 32 [(16, s.red.own.toNat), (4, b2n s.red.gates),
    (3, b2n (s.red.state = .standby)), (2, b2n (s.ptp.valid && s.ptp.synced)), (1, 1)]
  ⟨[(0, s.course.cn), (1, pack 32 [(0, s.course.wi), (16, s.plan.wall)]), (2, s.ptp.time.setWidth 32),
    (3, (s.ptp.time >>> 32).setWidth 32), (4, flags), (5, s.plan.id)]
    ++ (List.range 4).map (fun k => (6 + k, dsWord (·.gen) k))
    ++ (List.range 4).map (fun k => (10 + k, dsWord (·.genTo) k))
    ++ [(14, dst 0), (15, dst 1),
      (16, s.course.snap.tlTrip.setWidth 32), (17, (s.course.snap.tlTrip >>> 32).setWidth 32),
      (18, s.course.snap.tlStale.setWidth 32), (19, (s.course.snap.tlStale >>> 32).setWidth 32),
      (20, s.course.snap.toDio), (21, s.course.snap.toUc)]⟩

/-- The call block (R263). -/
def callBlock (s : State) : Tab Word :=
  let c := s.alarm.call
  let ros := (roster s).isSome
  let tw (t : Nat) : Nat :=
    if planned s 7 t then
      let x := callTab s t
      tabStage x * 16384 + b2n (decide (x.stage < x.wstage)) * 8192 + b2n (x.xferFail && ros) * 4096 + 2048
    else 0
  ⟨(List.range 8).map (fun k => (k, pack 32 [(0, tw (2 * k)), (16, tw (2 * k + 1))]))
    ++ [(8, if ros then pack 32 [(31, b2n (rosterDutyDi s)), (30, b2n c.selFault), (29, b2n (xferBusy s)), (0, c.duty)]
          else 0),
      (9, if ros then pack 32 [(30, WatchPhase.num c.phase)] else 0), (10, alarmDemand s)]⟩

/-- Closes the buffer of the course that ends (R76): its records, state words and the rest of its header. -/
def closeSquare (s : State) : Square :=
  let w := s.square.work
  let active := countPoints s (fun p => p = .activeUnack || p = .activeAck)
  let unack := countPoints s (fun p => p = .activeUnack || p = .clearedUnack)
  let faults := (List.range 22).foldl (fun a n => a + b2n (sysFault s n) * 2 ^ n) 0
  { cn := s.course.cn
    header := (((w.header.set 4 (w.header.get 0 4 ||| (if s.course.prevFaulted then 1 else 0))).set 22
      (BitVec.ofNat 32 faults)).set 23 (pack 32 [(16, s.course.e1.cycles), (0, s.course.e0.cycles)])).set 24
      (pack 32 [(16, active), (0, unack)])
    ana := w.ana
    dig := ⟨w.dig.cells.map (fun c =>
      (c.1, if c.1 < 32 then { c.2 with cmd := bitAt s.course.dioLatch c.1 } else c.2))⟩
    groups := ⟨((List.range 256).filter (planned s 6)).map (fun g => (g, groupWordOf s g))⟩
    call := callBlock s
    points := ⟨(plannedPoints s).map (fun p => (p, ptWord s p))⟩ }

end Sys2Proof.Machine
end

