-- ==== Sys2Proof/Machine/Stepping.lean ====
section
/-! DEFINITION. What a step of a plan does to its target, and how channels take their configuration (R8, R28, R55 to
R57, R118, R148, R149, R241, R286, R350, R409). -/

namespace Sys2Proof.Machine

/-! Registers that an entry sets. -/

def ucEntryRegs (old : UcRegs) (e : Entry) : UcRegs :=
  let b := e.body
  let o := entOutOfs b
  let r := { old with cfg := w32At b 0, lead := w32At b 4, lim := w32At b 8 }
  if o = 0 then r
  else { r with
    octl := w32At b o, ofix := w32At b (o + 8), oclo := w32At b (o + 0x0C), ochi := w32At b (o + 0x10) }

/-- CFG with MODE = 0. -/
def modeOff (cfg : Word) : Word := cfg &&& 0x0FFFFFFF

/-- Registers of a universal channel as its plan leaves them, over `old`: its entry's values, the output mode of a
retirement action other than OFF, or MODE OFF (R121, R149). -/
def ucPlanRegs (s : State) (n : Nat) (old : UcRegs) : UcRegs :=
  match planEntry s 1 n with
  | some e => ucEntryRegs old e
  | none =>
    match lastEntry s 1 n with
    | some e =>
      if entOutOfs e.body ≠ 0 ∧ bAt e.body (entOutOfs e.body + 0x15) ≠ 0 then ucEntryRegs old e
      else { old with cfg := modeOff old.cfg }
    | none => { old with cfg := modeOff old.cfg }

def updCtxOf (c : Nat) (f : ChanCtx → ChanCtx) (s : State) : State :=
  { s with course.ctx := s.course.ctx.upd {} c f }

/-- A new series of an analogue channel begins: no good value yet (R122). -/
def newSeries (c : Nat) (s : State) : State := updCtxOf c (fun k => { k with lastGood := none, cutOff := true }) s

/-- Forgets the samples of a channel that is OFF, retired or newly planned: its records have no data. -/
def dropSamples (c : Nat) (s : State) : State :=
  { s with
    course.latch := s.course.latch.erase c
    course.snap.ana := s.course.snap.ana.erase c
    course.ctx := s.course.ctx.upd {} c (fun k => { k with smp := {}, got := false }) }

/-! Taking a configuration (R118, R119, R148, R271). -/

/-- Ranging starts in HIGH (R100). -/
def rangeReset (i : UcIn) : UcIn := { i with low := false, ret := 0 }

/-- Samples are SETTLING until a whole window lies after the change. -/
def settleUc (n : Nat) (s : State) : State :=
  updUc n (fun u =>
    if ucIsOut u then { u with out := { u.out with settle := 1 } }
    else { u with inp := { u.inp with settle := rateD (ucRate u) } }) s

/-- IEPE coupling settles for 5.0 s or 0.5 s from now (R114). -/
def iepeEnd (s : State) (cfg : Word) : Word := s.course.cn + (if bitAt cfg 18 then 2000 else 20000)

/-- A new mode is taken into a universal channel.  OPEN and OPENR keep their values (R125); START governs a new output mode
until the next boundary, and a damping owed to the channel's leaving maintenance goes on from it (R143, R148). -/
def ucNewMode (n : Nat) (s : State) : State :=
  let u := ucGet s n
  let m := ucModeF u
  let start := ucStart s n
  let s1 := newSeries n (abortOpenTest n (updUc n (fun u => { u with
    inp := { rangeReset u.inp with
      excFault := false, excLow := 0, excGood := 0, excMark := 0, short := false, shortMark := 0
      grdLimit := false, iepeUntil := if m = 6 then some (iepeEnd s u.inForce.cfg) else none }
    out := if ucIsOut u then { u.out with
        drive := start, prevDrive := start, code := start, starting := true, damping := false, begun := false
        flag := false, faultHeld := none
        readback := false, rbBad := 0, rbGood := 0, compliance := false, headLow := 0, headGood := 0
        vrefBad := false, vrefGood := 0, openLoop := false, olBad := 0, olGood := 0 }
      else { u.out with damping := false, owed := false } }) s))
  if m = 0 then dropSamples n s1 else s1

/-- The registers of a universal channel govern from this boundary (R8, R118). -/
def ucTake (n : Nat) (s : State) : State :=
  let u := ucGet s n
  let old := u.inForce
  let new := u.regs
  let modeCh := fld old.cfg 28 4 ≠ fld new.cfg 28 4
  let rateCh := fld old.cfg 24 4 ≠ fld new.cfg 24 4
  let s1 := updUc n (fun u => { u with
    inForce := new
    inp := { u.inp with
      grdLimit := u.inp.grdLimit && bitAt new.cfg 20, openF := u.inp.openF && fld new.lim 16 16 ≠ 0
      openValid := u.inp.openValid && old.cfg = new.cfg } }) s
  if modeCh then settleUc n (ucNewMode n s1)
  else if ucIsOut u || fld old.cfg 19 13 = fld new.cfg 19 13 then s1
  else settleUc n (if rateCh then updInp n rangeReset s1 else s1)

def liNewMode (n : Nat) (s : State) : State :=
  let s1 := newSeries (32 + n) (updLi n (fun l => { l with
    pwrShort := false, pwrTrial := false, burdenProt := false, burdenTrial := false, shortMark := 0, burdenMark := 0
    parkFault := false, parkOut := 0, parkIn := 0 }) s)
  if liMode (liGet s n) = 0 then dropSamples (32 + n) s1 else s1

/-- The registers of a loop input govern from this boundary. -/
def liTake (n : Nat) (s : State) : State :=
  let l := liGet s n
  let s1 := updLi n (fun l => { l with cfgF := l.cfg, parkF := l.park }) s
  let modeCh := fld l.cfg 28 4 ≠ fld l.cfgF 28 4
  if modeCh || fld l.cfg 23 9 ≠ fld l.cfgF 23 9 then
    updLi n (fun l => { l with settle := liRateD }) (if modeCh then liNewMode n s1 else s1)
  else s1

/-- The registers of a digital channel govern from this boundary (R271, R280, R285). -/
def digTake (k : Nat) (s : State) : State :=
  let c := digGet s k
  let modeCh := fld c.cfg 28 4 ≠ fld c.cfgF 28 4
  let settle := modeCh || fld c.cfg 27 1 ≠ fld c.cfgF 27 1 || c.deb ≠ c.debF
  let s1 := updDig k (fun c => { c with
    cfgF := c.cfg, debF := c.deb, octlF := c.octl
    settling := c.settling || settle
    stamp := if modeCh then {} else c.stamp
    brk := c.brk && fld c.cfg 27 1 = 1 }) s
  if modeCh && k < 32 then updDio k (fun o => { o with learned := false, progress := 0, learnT := 0, iL := 0 }) s1 else s1

/-! Deferral (R57). -/

/-- The island or tile of a channel (maintenance number `m`) works. -/
def chanUp (s : State) (m : Nat) : Bool := if m < 80 then tileUp s (anaTile m) else domUp s 6

/-- Sets the registers of a channel from its plan, over what they hold. -/
def loadPlanRegs (m : Nat) (s : State) : State :=
  if m < 32 then updUc m (fun u => { u with regs := ucPlanRegs s m u.regs }) s
  else if m < 80 then
    let n := m - 32
    updLi n (fun l => match planEntry s 2 n with
      | some e => { l with cfg := w32At e.body 0, park := w32At e.body 4 }
      | none => { l with cfg := modeOff l.cfg }) s
  else
    let k := m - 80
    let e := if k < 32 then lastEntry s 3 k else planEntry s 4 (k - 32)
    updDig k (fun c => match e with
      | some e => { c with cfg := w32At e.body 0, deb := w32At e.body 4 }
      | none => if k < 32 then c else { c with cfg := modeOff c.cfg }) s

/-- A step has given a channel new plan values: taken now, or when the channel leaves maintenance; a tile or island
that is off or restarting takes them when it comes up. -/
def givePlanRegs (m : Nat) (s : State) : State :=
  if !chanUp s m then s
  else if inMaint s m then
    { s with maint.owed := if s.maint.owed.contains m then s.maint.owed else s.maint.owed ++ [m] }
  else loadPlanRegs m s

/-! Steps by type. -/

/-- Record number of a channel's maintenance number: the same. -/
def eraseRecord (m : Nat) (s : State) : State :=
  if m < 80 then { s with square.work.ana := s.square.work.ana.erase m }
  else { s with square.work.dig := s.square.work.dig.erase (m - 80) }

/-- A universal or loop channel's entry is stepped; `was` whether it was planned before.  A record that stands carries the
new generation from this course on (R55, R264). -/
def stepAna (c : Nat) (was : Bool) (s : State) : State :=
  let s0 := { s with square.work.ana := match s.square.work.ana.get? c with
    | some r => s.square.work.ana.set c { r with gen := BitVec.ofNat 8 (genOf s (anaTy c) (anaTarget c)) }
    | none => s.square.work.ana }
  let s1 := updCtxOf c (fun k => { k with cutOff := true }) s0
  let s2 := if was then s1 else newSeries c (dropSamples c
    (if c < 32 then updUc c (fun u => { u with out := { u.out with begun := false, flag := false, faultHeld := none } }) s1
     else s1))
  let hp (s : State) : Bool := c < 32 && ucModeF (ucGet s c) = 6
    && bitAt (ucGet s c).regs.cfg 18 ≠ bitAt (ucGet s c).inForce.cfg 18
  let s3 := givePlanRegs c s2
  if chanUp s3 c && !inMaint s3 c && hp s3 then settleUc c s3 else s3

def stepDig (k : Nat) (was : Bool) (s : State) : State :=
  givePlanRegs (80 + k) (if was then s else updDig k (fun c => { c with stamp := {} }) s)

/-- A point's entry is stepped (R241, R223); `old` is the body it had, if planned. -/
def stepPoint (p : Nat) (old : Option (List Byte)) (oldWord : Half) (s : State) : State :=
  let b := ptBody s p
  let same := match old with
    | some o => ptKind o = ptKind b && ptSrcType o = ptSrcType b && ptSrc o = ptSrc b
    | none => false
  let blocked := ptBlockType b ≠ 0
  if same then
    updPoint p (fun x => { x with window := [], rate := none, blockIn := blocked, blocking := blocked, relT := none }) s
  else
    let was := (pointGet s p).state
    let s1 := updPoint p (fun _ => { blockIn := blocked, blocking := blocked, time := stampNow s 0 }) s
    if old.isSome && was ≠ .normal then alarmRecord p oldWord (ptWord s1 p) 5 0 s1 else s1

/-- A point is retired (R241): every latch that holds it empties, that of a group it has left among them. -/
def retirePoint (p : Nat) (oldWord : Half) (s : State) : State :=
  let x := pointGet s p
  let s1 := (s.alarm.groups.cells.map Prod.fst).foldl (fun s g =>
    if ((groupGet s g).fo.map Prod.fst) = some p then emptyFo g s else s) s
  let s2 := if x.state = .normal then s1
    else alarmRecord p oldWord 0 6 0 (updPoint p (fun x => { x with time := stampNow s 0 }) s1)
  { s2 with alarm.points := s2.alarm.points.erase p }

/-- A lane or output is no longer released, and no request for it is held. -/
def endRelease (output : Bool) (n : Nat) (s : State) : State :=
  { s with
    safe.relTl := if output then s.safe.relTl else setBit s.safe.relTl n false
    safe.relOut := if output then setBit s.safe.relOut n false else s.safe.relOut
    safe.relNext := s.safe.relNext.map (fun w =>
      if output then (w.1, setBit w.2 n false) else (setBit w.1 n false, w.2))
    safe.asks := s.safe.asks.filter (fun a => !(a.output = output && a.target = n))
    safe.relPend := match s.safe.relPend with
      | some p => if p.output = output && p.target = n then none else some p
      | none => none }

/-- A lane's entry is stepped (R350); `old` is the body it had, if planned. -/
def stepLane (n : Nat) (old : Option (List Byte)) (s : State) : State :=
  let b := entBody (planEntry s 0x20 n)
  let same := match old with
    | some o => bAt o 0 = bAt b 0 && bAt o 1 = bAt b 1
    | none => false
  if same then
    tripUpdate { s with safe.lanes := s.safe.lanes.upd {} n (fun l =>
      if l.tripped then { l with count := 0 } else { l with count := 0, upBeyond := false, loBeyond := false }) }
  else tripUpdate (endRelease false n { s with safe.lanes := s.safe.lanes.upd {} n (fun l => { fault := l.fault }) })

/-- Drops a panel area's pending update (R409). -/
def dropPanelPend (k : Nat) (s : State) : State :=
  if (s.panel.areas.get {} k).pend.isSome then
    setSticky 0x41 9 { s with
      panel.areas := s.panel.areas.upd {} k (fun a => { a with pend := none, lost := satInc a.lost }) }
  else s

/-- The roster is first planned, or planned again: DUTY takes DUTY_INIT (R233). -/
def initCall (s : State) : State :=
  { s with alarm.call := { duty := bAt (rosterBody s) 0x0E, tables := s.alarm.call.tables } }

/-- RED_CFG and RED_PEERSN from the claim configuration (R342). -/
def claimConfig (s : State) : State :=
  let b := entBody (planEntry s 0x21 0)
  if domUp s 1 then { s with red.cfg := BitVec.ofNat 32 (bAt b 0), red.peerSn := w32At b 4 } else s

/-- One step: the entries change, and its target follows. -/
def applyStep (d : DStep) (s : State) : State :=
  match d with
  | .apply e =>
    let old := planEntry s e.ty e.target
    let was := old.isSome
    let word := if e.ty = 5 then ptWord s e.target else 0
    let s1 := { s with
      plan.entries := stepEntries s.plan.entries d
      plan.retired := s.plan.retired.filter (fun x => !(x.ty = e.ty && x.target = e.target)) }
    match e.ty with
    | 0x01 => stepAna e.target was s1
    | 0x02 => stepAna (32 + e.target) was s1
    | 0x03 => stepDig e.target was s1
    | 0x04 => stepDig (32 + e.target) was s1
    | 0x05 => stepPoint e.target (old.map (·.body)) word s1
    | 0x06 => if was then s1 else { s1 with alarm.groups := s1.alarm.groups.erase e.target }
    | 0x07 => if was then s1 else updTab e.target (fun _ => {}) s1
    | 0x09 => hartNoTurn (updModem e.target (fun m => { m with fresh := true }) s1)
    | 0x0C => if was then watchStep (watchTable s) s1 else initCall s1
    | 0x20 => stepLane e.target (old.map (·.body)) s1
    | 0x21 => claimConfig s1
    | 0x22 => tripUpdate s1
    | _ => s1
  | .retire ty t =>
    match planEntry s ty t with
    | none => s
    | some e =>
      let word := if ty = 5 then ptWord s t else 0
      let s0 := if ty = 0x0C then applyWatch false s else s
      let s1 := { s0 with
        plan.entries := stepEntries s0.plan.entries d
        plan.retired := if ty = 1 || ty = 3 then s0.plan.retired ++ [e] else s0.plan.retired }
      match ty with
      | 0x01 => hartAbort (· = t) true (givePlanRegs t (eraseRecord t (newSeries t (dropSamples t s1))))
      | 0x02 => hartAbort (· = 32 + t) true
          (givePlanRegs (32 + t) (eraseRecord (32 + t) (newSeries (32 + t) (dropSamples (32 + t) s1))))
      | 0x03 => givePlanRegs (80 + t) (eraseRecord (80 + t) s1)
      | 0x04 => givePlanRegs (112 + t) (eraseRecord (112 + t) s1)
      | 0x05 => retirePoint t word s1
      | 0x06 => { s1 with alarm.groups := s1.alarm.groups.erase t }
      | 0x07 => retireTable t s1
      | 0x09 =>
        hartNoTurn (updModem t (fun m => { m with
          fresh := true, coupled := if m.active.isSome then m.coupled else none }) s1)
      | 0x0B => dropPanelPend t s1
      | 0x0C => { s1 with alarm.call := {
          tables := ⟨s1.alarm.call.tables.cells.map (fun c => (c.1, { c.2 with xferFail := false }))⟩ } }
      | 0x20 => tripUpdate (endRelease false t
          { s1 with safe.lanes := s1.safe.lanes.upd {} t (fun l => { fault := l.fault }) })
      | 0x21 => claimConfig s1
      | 0x22 => endRelease true t (tripUpdate s1)
      | _ => s1

/-! Plan start (R32, R43, R46). -/

/-- A district as its source image gives it. -/
def districtFrom (s : State) (bank : Bool) (block n : Nat) : District :=
  let img := readImage s bank block
  if dirKind img n = 0 then { journal := (district s n).journal }
  else
    { state := .idle, gen := BitVec.ofNat 8 (dirGen img n), genTo := BitVec.ofNat 8 (dirGen img n)
      bank := bank, block := block, cost0 := blobCost img n 0, cost1 := blobCost img n 1, len := dirLen img n
      journal := (district s n).journal }

/-- Registers of every channel whose tile or island works, from the plan. -/
def reloadAll (s : State) : State :=
  (List.range 144).foldl (fun s m => if chanUp s m then loadPlanRegs m s else s) { s with maint.owed := [] }

/-- TIME of a digital channel that `before` had not planned begins at 0 (R262). -/
def freshStamps (before s : State) : State :=
  let new (k : Nat) : Bool :=
    let ty := if k < 32 then 3 else 4
    !planned before ty (k % 32) && planned s ty (k % 32)
  { s with dig.chans := ⟨s.dig.chans.cells.map (fun c => (c.1, if new c.1 then { c.2 with stamp := {} } else c.2))⟩ }

/-- A plan starts at a boundary: the image `(bank, block)`, but the districts of `src` from their own sources. -/
def startPlan (bank : Bool) (block : Nat) (src : List (Nat × Bool × Nat)) (s : State) : State :=
  let img := readImage s bank block
  let at_ (n : Nat) : Bool × Nat := match src.find? (fun x => x.1 = n) with
    | some (_, b, k) => (b, k)
    | none => (bank, block)
  let ds := (List.range 16).map (fun n => (n, districtFrom s (at_ n).1 (at_ n).2 n))
  let es := (List.range 16).flatMap (fun n => blobEntries (readImage s (at_ n).1 (at_ n).2) n)
  let kept := (s.plan.retired ++ s.plan.entries.filter (fun e => e.ty = 1 || e.ty = 3)).filter
    (fun x => !es.any (fun e => e.ty = x.ty && e.target = x.target))
  let s1 := { s with
    plan.state := .running, plan.wall := imgWall img, plan.id := imgId img
    plan.base0 := imgBase img 0, plan.base1 := imgBase img 1
    plan.entries := es, plan.retired := kept, plan.districts := ⟨ds⟩
    course.run := true, course.wi := s.course.cn.toNat % max 1 (imgWall img)
    course.ctx := {}, course.latch := {}, course.snap.ana := {}
    square.work := {}
    alarm.points := ⟨(es.filter (fun e => e.ty = 5)).foldl (fun t e =>
      Tab.place t e.target ({ blockIn := decide (ptBlockType e.body ≠ 0)
                              blocking := decide (ptBlockType e.body ≠ 0) } : Point)) []⟩
    alarm.groups := {}, alarm.call := {}, alarm.presses := []
    safe.lanes := ⟨s.safe.lanes.cells.map (fun c => (c.1, { fault := c.2.fault }))⟩ }
  let s2 := freshStamps s (if (roster s1).isSome then initCall s1 else s1)
  let s3 := (List.range 8).foldl (fun s m => updModem m (fun x => { x with fresh := true }) s) s2
  claimConfig (tripUpdate (hartNoTurn (reloadAll s3)))

/-! A domain or tile comes up (R28, R434, R435). -/

/-- What the tile of a universal channel keeps over its reset: OPEN and OPENR (R125). -/
def inpKept (i : UcIn) : UcIn := { openF := i.openF, openR := i.openR, openValid := i.openValid }

/-- What the output stage in PD6 keeps of a channel while its tile is reset: its code, its sources and its thermal
protection (R141, R147); the tile's registers of it are at reset (R6). -/
def outKept (o : UcOut) : UcOut :=
  { drive := o.drive, prevDrive := o.prevDrive, source := o.source, code := o.code, maintHeld := o.maintHeld, flag := o.flag
    faultHeld := o.faultHeld, begun := o.begun, supply := o.supply, temp := o.temp, therm := o.therm, tau := o.tau }

/-- A tile's registers at their reset values, then the plan's. -/
def tileRegs (t : Nat) (s : State) : State :=
  (List.range 8).foldl (fun s k =>
    let m := 8 * t + k
    let s1 := loadPlanRegs m { (if m < 32 then updUc m (fun u => { inp := inpKept u.inp, out := outKept u.out }) s
        else updLi (m - 32) (fun _ => {}) s) with
      maint.owed := s.maint.owed.filter (· ≠ m) }
    if m < 32 then updUc m (fun u => { u with inForce := u.regs }) s1
    else updLi (m - 32) (fun l => { l with cfgF := l.cfg, parkF := l.park }) s1) s

/-- The channels of a tile that has come up take their plan values and are SETTLING; outputs are damped from the held
value; TEST stays 1 only in maintenance (R119, R143, R146). -/
def tileTake (t : Nat) (s : State) : State :=
  (List.range 8).foldl (fun s k =>
    let m := 8 * t + k
    if m < 32 then
      let s1 := updUc m (fun u =>
        let r := { u.regs with octl := setBit u.regs.octl 31 (bitAt u.regs.octl 31 && inMaint s m) }
        { u with regs := r, inForce := r }) s
      let u := ucGet s1 m
      settleUc m (updUc m (fun u => { u with
        out := { u.out with owed := ucIsOut u }
        inp := { rangeReset u.inp with
          iepeUntil := if ucModeF u = 6 then some (iepeEnd s u.inForce.cfg) else none } })
        (if ucModeF u = 0 then dropSamples m s1 else s1))
    else
      let s1 := updLi (m - 32) (fun l => { l with cfgF := l.cfg, parkF := l.park, settle := liRateD }) s
      if liMode (liGet s1 (m - 32)) = 0 then dropSamples m s1 else s1) s

end Sys2Proof.Machine
end

