-- ==== Sys2Proof/Machine/Can.lean ====
section
/-! DEFINITION. The CAN controllers (R372 to R380): message RAM, reception, transmission, error states, gates. -/

namespace Sys2Proof.Machine

def canGet (s : State) (n : Nat) : CanBlk := s.cans.get {} n
def updCan (n : Nat) (f : CanBlk → CanBlk) (s : State) : State := { s with cans := s.cans.upd {} n f }

def canPage (n : Nat) : Nat := 0x38 + n

/-- Data size of a region by its code. -/
def canDs (code : Nat) : Nat := match code with
  | 0 => 8 | 1 => 16 | 2 => 32 | _ => 64

/-- Regions of the message RAM (R374). -/
def sbDs (l : Word) : Nat := canDs (fld l 28 2)
def rbDs (l : Word) : Nat := canDs (fld l 30 2)
def qDs (l : Word) : Nat := canDs (fld l 26 2)
def qLen (l : Word) (k : Nat) : Nat := if k = 0 then fld l 0 6 else fld l 8 6
def sbAddr (l : Word) (b : Nat) : Nat := b * (12 + sbDs l)
def rbAddr (l : Word) (b : Nat) : Nat := 32 * (12 + sbDs l) + b * (12 + rbDs l)
def qAddr (l : Word) (k i : Nat) : Nat :=
  32 * (12 + sbDs l) + 64 * (12 + rbDs l) + ((if k = 0 then 0 else qLen l 0) + i) * (12 + qDs l)

/-- Bytes the regions need. -/
def canUse (l : Word) : Nat := qAddr l 1 (qLen l 1)

def canRam32 (c : CanBlk) (a : Nat) : Word := BitVec.ofNat 32 (leNat (Mem.readN 0 c.ram a 4))
def canRamSet (a : Nat) (l : List Byte) (c : CanBlk) : CanBlk := { c with ram := Mem.writeN 0 c.ram a l }

/-- Status of a send box, in its element's word 1 (R378). -/
def setSb (b st : Nat) (c : CanBlk) : CanBlk :=
  canRamSet (sbAddr c.layout b + 5) [BitVec.ofNat 8 st] c

/-! Events (R388, R389). -/

def canSticky (n bit : Nat) (s : State) : State := setSticky (canPage n) bit s

/-- A new controller state. -/
def canState (n : Nat) (st : BitVec 2) (s : State) : State :=
  if (canGet s n).state = st then s
  else blockEv (canPage n) 1 (st.toNat * 2 ^ 16) (canSticky n 11 (updCan n (fun c => { c with state := st }) s))

/-- State by the error counters (R372). -/
def canByCounts (c : CanBlk) : BitVec 2 :=
  if 2 ≤ c.state.toNat then c.state else if 127 < c.tec.toNat || 127 < c.recv.toNat then 1 else 0

def canJudge (n : Nat) (s : State) : State := canState n (canByCounts (canGet s n)) s

/-- Ends every pending box NOT_ACTIVE. -/
def canEndAll (n : Nat) (s : State) : State :=
  let c := canGet s n
  if c.pend = 0 then s
  else
    let bs := below 32 (fun b => bitAt c.pend b)
    canSticky n 10 (updCan n (fun c => { bs.foldl (fun c b => setSb b 6 c) c with pend := 0, late := none }) s)

/-- Transmit gates after a change of the claim gates; `takeover` whether a takeover enabled them (R380). -/
def canGates (takeover : Bool) (s : State) : State :=
  if domUp s 7 then
    (List.range 4).foldl (fun s n =>
      let g := gateCan s n
      if (canGet s n).gate = g then s
      else
        let s1 := blockEv (canPage n) 2 (b2n g * 2 ^ 16) (canSticky n 11
          (updCan n (fun c => { c with gate := g, integrated := !(g && takeover) }) s))
        if g then s1 else canEndAll n s1) s
  else s

/-! Reception (R375 to R377). -/

/-- Data bytes by data length code. -/
def canLen (kind dlc : Nat) : Nat :=
  if dlc ≤ 8 then dlc
  else if kind < 2 then 8
  else match dlc with
    | 9 => 12 | 10 => 16 | 11 => 20 | 12 => 24 | 13 => 32 | 14 => 48 | _ => 64

def frameWord0 (f : CanFrame) : Word := pack 32 [(31, b2n f.ext), (0, f.ident.toNat)]

/-- Element words 1 and 2 and the data, as stored in an element of data size `ds`. -/
def frameBytes (s : State) (f : CanFrame) (ds mark : Nat) : List Byte :=
  let kind := f.kind.toNat
  let n := canLen kind f.dlc.toNat
  let d := if kind = 1 then [] else f.data.take n
  let w1 := pack 32 [(30, kind), (29, b2n f.passive), (24, f.dlc.toNat), (16, n), (8, mark),
    (7, b2n (decide (ds < d.length)))]
  leBytes 4 w1.toNat ++ leBytes 4 (stampNow s f.sub).word.toNat ++ d.take ds

/-- The lowest-numbered enabled receive box that a frame matches. -/
def canBox (c : CanBlk) (f : CanFrame) : Option Nat :=
  (List.range 64).find? (fun b => bitAt c.rxen b && canRam32 c (rbAddr c.layout b) = frameWord0 f)

def canQueue (c : CanBlk) (k : Nat) : CanQueue := if k = 0 then c.q0 else c.q1
def setQueue (k : Nat) (q : CanQueue) (c : CanBlk) : CanBlk := if k = 0 then { c with q0 := q } else { c with q1 := q }

/-- Whether a queue accepts a frame. -/
def queueTakes (q : CanQueue) (f : CanFrame) : Bool :=
  bitAt q.accept 31 = f.ext && ((f.ident ^^^ q.accept.setWidth 29) &&& q.mask.setWidth 29) = 0

/-- Stores a frame in a receive box. -/
def storeBox (n b : Nat) (f : CanFrame) (s : State) : State :=
  let c := canGet s n
  let a := rbAddr c.layout b
  let seq := (fld (canRam32 c (a + 4)) 8 8 + 1) % 256
  canSticky n 8 (updCan n (fun c =>
    canRamSet (a + 4) (frameBytes s f (rbDs c.layout) seq) { c with nd := setBit c.nd b true }) s)

/-- Stores a frame at the end of a queue with room. -/
def queueAppend (n k : Nat) (f : CanFrame) (s : State) : State :=
  let c := canGet s n
  let q := canQueue c k
  let i := (q.next + q.count) % max 1 (qLen c.layout k)
  let st := q.stored + 1
  canSticky n 9 (updCan n (fun c =>
    canRamSet (qAddr c.layout k i) (leBytes 4 (frameWord0 f).toNat ++ frameBytes s f (qDs c.layout) st.toNat)
      (setQueue k { q with count := q.count + 1, stored := st } c)) s)

/-- A frame for queue `k`: stored, dropped, or put in place of the oldest (R377). -/
def storeQueue (n k : Nat) (f : CanFrame) (s : State) : State :=
  let c := canGet s n
  let q := canQueue c k
  let len := qLen c.layout k
  if q.count < len then queueAppend n k f s
  else
    let s1 := canSticky n 12 (updCan n (setQueue k { q with lost := satInc q.lost }) s)
    if bitAt c.cfg (27 - k) ∧ q.count ≠ 0 then
      queueAppend n k f (updCan n (setQueue k { q with
        lost := satInc q.lost, next := (q.next + 1) % max 1 len, count := q.count - 1 }) s1)
    else s1

/-- The receive error counter after a frame received without error (ISO 11898-1): one less, or from above 127 to a
value from 119 to 127 that the standard does not fix. -/
def recAfterGood (s : State) (r : Byte) : Byte :=
  if r = 0 then 0 else if r.toNat ≤ 127 then r - 1 else BitVec.ofNat 8 (119 + (Config.word s.free).toNat % 9)

/-- On the bus: enabled and not bus-off. -/
def canOn (c : CanBlk) : Bool := bitAt c.cfg 31 && c.state.toNat < 2

def execCanFrameReceive (n : Fin 4) (f : CanFrame) (s : State) : Out :=
  let c := canGet s n.val
  .next (
    if domUp s 7 && canOn c then
      let s1 := match canBox c f with
        | some b => storeBox n.val b f s
        | none =>
          if queueTakes c.q0 f then storeQueue n.val 0 f s
          else if queueTakes c.q1 f then storeQueue n.val 1 f s
          else updCan n.val (fun c => { c with noMatch := satInc c.noMatch }) s
      if c.gate then
        canJudge n.val { updCan n.val (fun c => { c with recv := recAfterGood s c.recv }) s1 with free := s1.free + 1 }
      else s1
    else s)

/-- R372: a frame being received fails a check. -/
def execCanRxError (n : Fin 4) (s : State) : Out :=
  let c := canGet s n.val
  .next (
    if domUp s 7 && canOn c then
      canJudge n.val (updCan n.val (fun c => { c with
        errors := satInc c.errors, recv := if c.gate then satInc c.recv else c.recv }) s)
    else s)

/-- R377: FREE of queue `k`; one with another arrival number is ignored, and not counted (R22). -/
def canFree (n k : Nat) (value : Word) (s : State) : State :=
  pageWriteIf (canPage n) (fun s =>
    let c := canGet s n
    let q := canQueue c k
    if q.count ≠ 0 ∧ fld (canRam32 c (qAddr c.layout k q.next + 4)) 8 8 = fld value 0 8 then
      (updCan n (setQueue k { q with next := (q.next + 1) % max 1 (qLen c.layout k), count := q.count - 1 }) s, true)
    else (s, false)) s

def execCanQueueFree (n : Fin 4) (k : Fin 2) (value : Word) (s : State) : Out := .next (canFree n.val k.val value s)

/-! Transmission (R378, R379). -/

/-- Header of a send box: identifier, KIND and BYTES. -/
def sbIdent (c : CanBlk) (b : Nat) : Nat := fld (canRam32 c (sbAddr c.layout b)) 0 29
def sbKind (c : CanBlk) (b : Nat) : Nat := fld (canRam32 c (sbAddr c.layout b + 4)) 30 2
def sbBytes (c : CanBlk) (b : Nat) : Nat := fld (canRam32 c (sbAddr c.layout b + 4)) 16 7

/-- One box requested. -/
def sendBox (c : CanBlk) (b : Nat) : CanBlk :=
  if bitAt c.pend b then c
  else if !bitAt c.cfg 31 || !c.gate then setSb b 6 c
  else if sbDs c.layout < sbBytes c b || (sbKind c b < 2 && 8 < sbBytes c b) then setSb b 7 c
  else setSb b 1 { c with pend := setBit c.pend b true }

def canSend (n : Nat) (value : Word) (s : State) : State :=
  pageWrite (canPage n) (updCan n (fun c => (below 32 (fun b => bitAt value b)).foldl sendBox c)) s

def execCanSend (n : Fin 4) (value : Word) (s : State) : Out := .next (canSend n.val value s)

/-- The box the controller sends next: the lowest identifier, then the lowest box. -/
def canNext (c : CanBlk) : Option Nat :=
  match c.late with
  | some b => some b
  | none => (below 32 (fun b => bitAt c.pend b)).foldl (fun best b =>
      match best with
      | none => some b
      | some a => if sbIdent c b < sbIdent c a then some b else some a) none

/-- A pending box ends with a status. -/
def endBox (n b st : Nat) (s : State) : State :=
  canSticky n 10 (updCan n (fun c => setSb b st { c with
    pend := setBit c.pend b false, late := if c.late = some b then none else c.late }) s)

/-- R379: WITHDRAW.  Whether the next box is already in arbitration is a free choice. -/
def canWithdraw (n : Nat) (value : Word) (s : State) : State :=
  pageWrite (canPage n) (fun s =>
    let c := canGet s n
    let started := if c.late.isSome || (c.integrated && c.gate && bitAt (Config.word s.free) 0) then canNext c else none
    (below 32 (fun b => bitAt value b && bitAt c.pend b)).foldl (fun s b =>
      if started = some b then updCan n (fun c => { c with late := some b }) s else endBox n b 3 s)
      { s with free := s.free + 1 }) s

def execCanWithdraw (n : Fin 4) (value : Word) (s : State) : Out := .next (canWithdraw n.val value s)

/-- The controller may transmit. -/
def canMaySend (c : CanBlk) : Bool := canOn c && c.gate && c.integrated

/-- The next length an FD frame can carry. -/
def fdLen (n : Nat) : Nat :=
  if n ≤ 8 then n else ([12, 16, 20, 24, 32, 48, 64].find? (fun l => n ≤ l)).getD 64

/-- The frame of a send box. -/
def boxFrame (c : CanBlk) (b : Nat) : CanFrame :=
  let a := sbAddr c.layout b
  let w0 := canRam32 c a
  let kind := sbKind c b
  let n := if kind < 2 then sbBytes c b else fdLen (sbBytes c b)
  let dlc := if n ≤ 8 then n else match n with
    | 12 => 9 | 16 => 10 | 20 => 11 | 24 => 12 | 32 => 13 | 48 => 14 | _ => 15
  { ext := bitAt w0 31, ident := w0.setWidth 29, kind := BitVec.ofNat 2 kind, passive := c.state = 1
    dlc := BitVec.ofNat 4 dlc
    data := if kind = 1 then []
      else Mem.readN 0 c.ram (a + 12) (sbBytes c b) ++ List.replicate (n - sbBytes c b) 0 }

/-- R378: a frame is transmitted and acknowledged; `sub` is the offset of its start. -/
def execCanFrameSent (n : Fin 4) (sub : Half) (s : State) : Out :=
  let c := canGet s n.val
  .next (
    match canNext c with
    | some b =>
      if domUp s 7 && canMaySend c then
        let s1 := updCan n.val (fun c => canRamSet (sbAddr c.layout b + 8) (leBytes 4 (stampNow s sub).word.toNat)
          { c with
            sent := c.sent ++ [{ boxFrame c b with sub := sub }], tec := c.tec - (if c.tec = 0 then 0 else 1)
            loopDly := if 2 ≤ sbKind c b && bitAt c.dbit 31 then (Config.word s.free).setWidth 7 else c.loopDly })
          { s with free := s.free + 1 }
        canJudge n.val (endBox n.val b (if c.late = some b then 4 else 2) s1)
      else s
    | none => s)

/-- R378, R379: a frame loses arbitration (`arb`) or meets an error. -/
def execCanTxError (n : Fin 4) (arb : Bool) (s : State) : Out :=
  let c := canGet s n.val
  .next (
    match canNext c with
    | some b =>
      if domUp s 7 && canMaySend c then
        let off := !arb && 255 < c.tec.toNat + 8
        let s1 := if arb then s
          else updCan n.val (fun c => { c with errors := satInc c.errors, tec := satNat 8 (c.tec.toNat + 8) }) s
        let s2 := if c.late = some b then endBox n.val b 3 s1
          else if bitAt c.cfg 28 then endBox n.val b 5 s1
          else s1
        if off then canState n.val 2 s2 else canJudge n.val s2
      else s
    | none => s)

/-- R372: bus-off ends. -/
def execCanBusOffRecovery (n : Fin 4) (s : State) : Out :=
  .next (
    if domUp s 7 && (canGet s n.val).state = 2 then
      canState n.val 0 (updCan n.val (fun c => { c with tec := 0, recv := 0 }) s)
    else s)

/-- R380: 11 recessive bits after the gate was enabled by takeover. -/
def execCanBusIntegrated (n : Fin 4) (s : State) : Out :=
  .next (
    if domUp s 7 && (canGet s n.val).gate then updCan n.val (fun c => { c with integrated := true }) s else s)

/-! Configuration and message RAM (R373, R374, R378). -/

/-- SPQ at least 2 and below BITQ, from the fields less 1. -/
def timingOk (bitq spq : Nat) : Bool := 1 ≤ spq && spq < bitq

/-- NBIT (0), DBIT (1) or LAYOUT (2). -/
def canCfgWrite (n : Nat) (reg : Fin 3) (value : Word) (s : State) : State :=
  pageWriteIf (canPage n) (fun s =>
    let ok := !bitAt (canGet s n).cfg 31 && (match reg with
      | 0 => timingOk (fld value 16 8) (fld value 8 8)
      | 1 => timingOk (fld value 10 6) (fld value 4 6)
      | 2 => canUse value ≤ 8192)
    if ok then
      (updCan n (fun c => match reg with
        | 0 => { c with nbit := value &&& 0xFFFFFF7F }
        | 1 => { c with dbit := value &&& 0xFF1FFFFF }
        | 2 => { c with layout := value &&& 0xFC003F3F }) s, true)
    else (canSticky n 14 s, false)) s

def execCanCfgWrite (n : Fin 4) (reg : Fin 3) (value : Word) (s : State) : Out :=
  .next (canCfgWrite n.val reg value s)

/-- CFG of a controller: EN switches it on and off the bus. -/
def canEnWrite (n : Nat) (value : Word) (s : State) : State :=
  pageWrite (canPage n) (fun s =>
    let was := bitAt (canGet s n).cfg 31
    let s1 := updCan n (fun c => { c with cfg := value &&& 0xFE000000 }) s
    if was && !bitAt value 31 then canState n 3 (canEndAll n s1)
    else if !was && bitAt value 31 then canState n 0 (updCan n (fun c => { c with tec := 0, recv := 0 }) s1)
    else s1) s

/-- The element of a pending send box that holds RAM byte `a`. -/
def pendingAt (c : CanBlk) (a : Nat) : Bool :=
  (List.range 32).any (fun b => bitAt c.pend b && sbAddr c.layout b ≤ a && a < sbAddr c.layout (b + 1))

/-- A write of the 32-bit word `w` of the message RAM. -/
def canRamWrite (n w : Nat) (value : Word) (s : State) : State :=
  if domTakes s 7 then
    if pendingAt (canGet s n) (4 * w) then canSticky n 13 s
    else updCan n (canRamSet (4 * w) (leBytes 4 value.toNat)) s
  else offAccess 7 s

def execCanMsgramWrite (n : Fin 4) (w : Fin 2048) (value : Word) (s : State) : Out :=
  .next (canRamWrite n.val w.val value s)

end Sys2Proof.Machine
end

