-- ==== Sys2Proof/Machine/Evq.lean ====
section
/-! DEFINITION. The event queues (ch. 11): arrival of records, overload, popping, disabling. -/

namespace Sys2Proof.Machine

def evqGet (s : State) (q : Nat) : EvQueue := s.evq.queues.get {} q

def evqFill (q : EvQueue) : Nat := q.recs.length

/-- Whether a queue selects a record by its CLASS and SOURCE (R309). -/
def evqSelects (q : EvQueue) (e : EventRec) : Bool :=
  let p := e.source.toNat
  if e.cls = 1 then q.alarms
  else if p < 0x20 then bitAt q.pages0 p
  else if p < 0x40 then bitAt q.pages1 (p - 0x20)
  else if p < 0x50 then bitAt q.pages2 (p - 0x40)
  else false

/-- Fill below 512: since which course (R314). -/
def evqLow (cn : Word) (q : EvQueue) : EvQueue :=
  if evqFill q < 512 then
    match q.lowSince with
    | some _ => q
    | none => { q with lowSince := some cn }
  else { q with lowSince := none }

/-- Writes one record: SEQ, high-water mark, OVERLOAD at 768, EVQ pulse (R310, R314, R290). -/
def evqPut (cn : Word) (e : EventRec) (q : EvQueue) : EvQueue :=
  let r := q.recs ++ [{ e with seq := q.seq }]
  evqLow cn { q with
    recs := r, seq := q.seq + 1, hwm := max q.hwm r.length, pulses := q.pulses + 1
    overload := q.overload || 768 ≤ r.length }

/-- The next latched point to serve: after the last one served, wrapping (R313). -/
def evqNextPoint (q : EvQueue) : Option Nat :=
  match q.latches.keys.find? (fun k => q.served < k) with
  | some k => some k
  | none => q.latches.keys.head?

/-- Writes the SUMMARY of the next latched point while there is room (R313). -/
def evqSummary (cn : Word) (ptp : Dword) (q : EvQueue) : EvQueue :=
  match evqNextPoint q with
  | some p =>
    if evqFill q < 1024 then
      let l := q.latches.get {} p
      evqPut cn { cn := cn, ptp := ptp, cls := 1, code := 2, source := BitVec.ofNat 16 p,
                  data := (l.data &&& ~~~ (BitVec.ofNat 96 (0xFFFF * 2 ^ 64)))
                    ||| BitVec.ofNat 96 (l.lost.toNat * 2 ^ 64) }
        { q with latches := q.latches.erase p, served := p, summaries := satInc q.summaries }
    else q
  | none => q

/-- Fills freed room: the EPOCH marker first, then summaries, then the SHED marker (R315, R313, R312). -/
def evqServe (cn : Word) (ptp : Dword) (q : EvQueue) : EvQueue :=
  let q1 := match q.epoch with
    | some (new, old) =>
      if evqFill q < 1024 then
        evqPut cn { cn := cn, ptp := ptp, cls := 6, code := 2,
                    data := BitVec.ofNat 96 (new.toNat + old.toNat * 2 ^ 16) } { q with epoch := none }
      else q
    | none => q
  if q1.epoch.isSome then q1
  else
    let q2 := iterate (evqSummary cn ptp) q1.latches.cells.length q1
    if q2.shed ≠ 0 ∧ evqFill q2 < 768 then
      evqPut cn { cn := cn, ptp := ptp, cls := 6, code := 1,
                  data := BitVec.ofNat 96 (q2.shed + q2.firstShed.toNat * 2 ^ 32 + q2.lastShed.toNat * 2 ^ 64) }
        { q2 with shed := 0 }
    else q2

/-- An alarm record: written, or merged into its point's overflow latch (R313, R315). -/
def evqAlarm (cn : Word) (e : EventRec) (q : EvQueue) : EvQueue :=
  if evqFill q < 1024 ∧ q.latches.cells = [] ∧ q.epoch = none then evqPut cn e q
  else
    let p := e.source.toNat
    let lost := match q.latches.get? p with
      | some l => satInc l.lost
      | none => 1
    { q with latches := q.latches.set p { data := e.data, lost := lost } }

/-- A non-alarm record: written, or shed (R312, R315). -/
def evqOther (cn : Word) (e : EventRec) (q : EvQueue) : EvQueue :=
  if evqFill q < 768 ∧ q.epoch = none then evqPut cn e q
  else { q with
    firstShed := if q.shed = 0 then e.cn else q.firstShed
    lastShed := e.cn, shed := q.shed + 1, shedTotal := satInc q.shedTotal }

/-- A record reaching one queue. -/
def evqWrite (cn : Word) (e : EventRec) (q : EvQueue) : EvQueue :=
  if q.en && evqSelects q e then
    if e.cls = 1 then evqAlarm cn e q else evqOther cn e q
  else q

/-- Sets EVQ_PG_STICKY.OVERLOAD when a queue has become overloaded (R314, R318). -/
def evqNote (old new : EvQueue) (s : State) : State :=
  if new.overload && !old.overload then setSticky 0x15 8 s else s

/-- Replaces one queue, serving freed room. -/
def evqReplace (q : Nat) (f : EvQueue → EvQueue) (s : State) : State :=
  let old := evqGet s q
  let new := evqServe s.course.cn (ptpNow s) (evqLow s.course.cn (f old))
  evqNote old new { s with evq.queues := s.evq.queues.set q new, free := s.free + 1 }

/-- Whether the record at place `k` may reach the course island before those ahead of it: alarm records keep
their order, and CN never falls by more than 1 (R310). -/
def evqMayPass (l : List EventRec) (k : Nat) : Bool :=
  match l[k]? with
  | some e => (l.take k).all (fun x => !(x.cls = 1 && e.cls = 1) && (e.cn - x.cn).toNat ≤ 1)
  | none => false

/-- A record reaches the course island and every enabled queue that selects it. -/
def evqArrive (e : EventRec) (s : State) : State :=
  [0, 1, 2, 3, 4].foldl (fun s q => evqReplace q (evqWrite s.course.cn e) s) s

/-- R310: a record on its way reaches the course island; records reach it one by one (log entry 142). -/
def execEventRecordArrival (k : Nat) (s : State) : Out :=
  let i := if evqMayPass s.evq.inflight k then k else 0
  .next (
    match s.evq.inflight[i]? with
    | some e =>
      if domUp s 3 then evqArrive e { s with evq.inflight := s.evq.inflight.eraseIdx i } else s
    | none => s)

/-- At a boundary every record raised before the course that ends has arrived, so that no marker or SUMMARY of the course
that begins stands in a queue more than one course ahead of a record (R310). -/
def evqDrain (s : State) : State :=
  let late (e : EventRec) : Bool := e.cn ≠ s.course.cn && e.cn ≠ s.course.cn - 1
  (s.evq.inflight.filter late).foldl (fun s e => evqArrive e s)
    { s with evq.inflight := s.evq.inflight.filter (fun e => !late e) }

/-- The owner of a queue (R311). -/
def evqOwner : Nat → Requester
  | 0 => .a0 | 1 => .a1 | 2 => .a2 | 3 => .a3 | _ => .host

/-- R311: POP by the owner; any other requester's POP is dropped with POP_REJ. -/
def evqPop (req : Requester) (q : Fin 5) (value : Word) (s : State) : State :=
  pageWriteIf 0x15 (fun s =>
    if req = evqOwner q.val then
      (evqReplace q.val (fun x => { x with recs := x.recs.drop (fld value 0 11) }) s, true)
    else (setSticky 0x15 9 s, false)) s

def execEvqPop (req : Requester) (q : Fin 5) (value : Word) (s : State) : Out := .next (evqPop req q value s)

/-- R314: OVERLOAD clears after 4,000 courses below 512 with nothing latched or shed. -/
def execEvqOverloadClear (q : Fin 5) (s : State) : Out :=
  let x := evqGet s q.val
  .next (
    if domUp s 3 && x.overload && x.latches.cells.isEmpty && x.shed = 0 &&
        (match x.lowSince with
         | some c => decide (4000 ≤ since s c)
         | none => false)
    then { s with evq.queues := s.evq.queues.set q.val { x with overload := false } }
    else s)

/-- A write to CTL: EN = 0 empties the queue (R316); EN rising starts its counts (R314). -/
def evqCtl (value : Word) (cn : Word) (x : EvQueue) : EvQueue :=
  if bitAt value 31 then
    if x.en then { x with alarms := bitAt value 30 }
    else { x with
      en := true, alarms := bitAt value 30, hwm := x.recs.length, shedTotal := 0, summaries := 0
      lowSince := some cn }
  else { x with
    en := false, alarms := bitAt value 30, recs := [], latches := {}, shed := 0, shedTotal := 0
    summaries := 0, overload := false, epoch := none, lowSince := some cn }

def evqCtlWrite (q : Fin 5) (value : Word) (s : State) : State :=
  pageWrite 0x15 (fun s =>
    { s with evq.queues := s.evq.queues.upd {} q.val (evqCtl value s.course.cn) }) s

def execEvqDisable (q : Fin 5) (alarms : Bool) (s : State) : Out :=
  .next (evqCtlWrite q (if alarms then 0x40000000 else 0) s)

end Sys2Proof.Machine
end

