-- ==== Sys2Proof/Machine/Maint.lean ====
section
/-! DEFINITION. Channel maintenance, configuration writes and tile restarts (R125, R117, R118, R288, R435, R436),
CLEAR_PEAK (R87). -/

namespace Sys2Proof.Machine

/-- Pages with CHANNEL_MAINT: 0-3 UT, 4-9 LT, 10 DIO, 11 DI. -/
def maintPage (p : Nat) : Nat := if p < 10 then tilePage p else 0x30 + (p - 10)

/-- Maintenance number of channel `k` of such a page. -/
def maintNum (p k : Nat) : Nat := if p < 10 then 8 * p + k else if p = 10 then maintDio k else maintDi k

/-- A lane that the safety partition has not released watches analogue channel `c`. -/
def boundUnreleased (s : State) (c : Nat) : Bool := (lanesOf s c).any (fun n => !laneReleased s n)

/-- The safety partition guards the channel: an unreleased lane or safety output (R125, R146, R285). -/
def guarded (s : State) (m : Nat) : Bool :=
  (m < 80 && boundUnreleased s m)
    || (m < 32 && (safeOut s (32 + m)).isSome && !outReleased s (32 + m))
    || (80 ≤ m && m < 112 && (safeOut s (m - 80)).isSome && !outReleased s (m - 80))

/-- A step still to come changes the output mode of universal channel `n` (R62). -/
def modeStepLeft (s : State) (n : Nat) : Bool :=
  (List.range 16).any (fun d =>
    (district s d).state = .updating && (district s d).steps.any (fun st => match st with
      | .apply e =>
        let m := bits (u32At e.body 0) 28 4
        e.ty = 1 && e.target = n && m ≠ ucMode s n && (8 ≤ m || 8 ≤ ucMode s n)
      | .retire ty t => ty = 1 && t = n && (match planEntry s 1 n with
        | some e => entOutOfs e.body ≠ 0 && bAt e.body (entOutOfs e.body + 0x15) = 0
        | none => false)))

/-- CHANNEL_MAINT (R125, R288). -/
def channelMaint (req : Requester) (p : Fin 12) (arg : BitVec 24) (s : State) : State :=
  issueCmd (maintPage p.val) req 1 arg (fun s =>
    let k := fld arg 0 (if p.val < 10 then 3 else 5)
    let m := maintNum p.val k
    let enter := bitAt arg 8
    if argOutside arg (if p.val < 10 then 0x107 else 0x11F) then .done .badArg 0 s
    else if enter = inMaint s m then .done .ok 0 s
    else if enter && guarded s m then .done .state 0 s
    else if !enter && m < 32 && modeStepLeft s m then .done .state 0 s
    else .done .ok 0 { s with maint.asked := s.maint.asked ++ [(m, enter)] }) s

def execChannelMaint (req : Requester) (p : Fin 12) (arg : BitVec 24) (s : State) : Out :=
  .next (channelMaint req p arg s)

/-- A channel leaves maintenance: owed plan values are taken, TEST is 0, ranging and SETTLING start anew, an output is
damped (R119, R143, R146, R285, R100, R167). -/
def leaveMaint (m : Nat) (s : State) : State :=
  let owed := s.maint.owed.contains m
  let s1 := { s with
    maint.on := s.maint.on.set m false
    maint.owed := s.maint.owed.filter (· ≠ m) }
  let s2 := if owed && chanUp s1 m then loadPlanRegs m s1 else s1
  if m < 32 then
    let s3 := updCtxOf m (fun k => { k with cutOff := true }) (updUc m (fun u => { u with
      regs := { u.regs with octl := setBit u.regs.octl 31 false }
      inp := rangeReset u.inp
      out := { u.out with owed := 8 ≤ fld u.regs.cfg 28 4 && fld u.regs.cfg 28 4 ≤ 11 } }) s2)
    if ucIsOut (ucGet s3 m) then s3 else settleUc m s3
  else if m < 80 then
    updCtxOf m (fun k => { k with cutOff := true }) (updLi (m - 32) (fun l => { l with settle := liRateD }) s2)
  else
    updDig (m - 80) (fun c => { c with octl := setBit c.octl 31 false, settling := true }) s2

/-- A channel enters maintenance: the drive state or value in effect is held (R130, R273). -/
def enterMaint (m : Nat) (s : State) : State :=
  let s1 := { s with maint.on := s.maint.on.set m true }
  if m < 32 then updUc m (fun u => { u with out := { u.out with maintHeld := u.out.drive } }) s1
  else if 80 ≤ m ∧ m < 112 then updDio (m - 80) (fun o => { o with held := o.drive }) s1
  else s1

/-- The requests of the course that ended take effect, in their order. -/
def maintBoundary (s : State) : State :=
  s.maint.asked.foldl (fun s x =>
    if inMaint s x.1 = x.2 then s else if x.2 then enterMaint x.1 s else leaveMaint x.1 s)
    { s with maint.asked := [] }

/-! Configuration of analogue channels (R117, R118). -/

/-- A write to the CFG of a universal channel. -/
def ucCfgWrite (n : Nat) (value : Word) (s : State) : State :=
  pageWriteIf (tilePage (n / 8)) (fun s =>
    let u := ucGet s n
    let reject (bit : Nat) : State × Bool :=
      let s1 := ucSticky n bit s
      (chanEvent n 9 (fld (ucGet s1 n).sticky 5 2) s1, false)
    if !maintNow s n && fld value 28 4 ≠ ucModeF u then reject 5
    else if !ucCfgOk n value.toNat then reject 6
    else (updUc n (fun u => { u with regs := { u.regs with cfg := value &&& 0xFFFC0000 } }) s, true)) s

/-- A write to the CFG of a loop input. -/
def liCfgWrite (n : Nat) (value : Word) (s : State) : State :=
  pageWriteIf (tilePage (4 + n / 8)) (fun s =>
    let l := liGet s n
    let reject (bit : Nat) : State × Bool :=
      let s1 := updLi n (fun l => { l with sticky := setBit l.sticky bit true }) s
      (liEvent n 9 (fld (liGet s1 n).sticky 4 2) s1, false)
    if !maintNow s (32 + n) && fld value 28 4 ≠ liMode l then reject 4
    else if !liCfgOk value.toNat then reject 5
    else (updLi n (fun l => { l with cfg := value &&& 0xFFFE0000 }) s, true)) s

def execChannelCfgWrite (c : Fin 80) (value : Word) (s : State) : Out :=
  .next (if c.val < 32 then ucCfgWrite c.val value s else liCfgWrite (c.val - 32) value s)

/-! Tile restart (R435, R436). -/

/-- The PD4 and PD5 row of R431 for the channels of a tile: an unreleased lane or designated universal output, or the
channel of the open calibration session. -/
def tileGuarded (s : State) (t : Nat) : Bool :=
  (List.range 8).any (fun k => guarded s (8 * t + k) || (s.cal.session ≠ 0 && t < 4 && s.cal.ch = 8 * t + k))

/-- Before start-up step 9, or with the supply-loss signal raised. -/
def notInService (s : State) : Bool := s.sup.supplyLoss || s.sys.step < 9

def tileRestart (req : Requester) (t : Fin 10) (arg : BitVec 24) (s : State) : State :=
  issueCmd (tilePage t.val) req 0x10 arg (fun s =>
    if arg ≠ 0 then .done .badArg 0 s
    else if notInService s || tileGuarded s t.val then .done .state 0 s
    else .hold (updTile t.val (fun x => { x with restartAsked := true }) s)) s

/-- A TILE_RESTART of a tile whose domain is off is dropped as any write to it (R26). -/
def execTileRestart (req : Requester) (t : Fin 10) (arg : BitVec 24) (s : State) : Out :=
  .next (tileRestart req t arg s)

/-- Universal channels of a tile end their open tests ABORTED. -/
def abortTileTests (t : Nat) (s : State) : State :=
  if t < 4 then (List.range 8).foldl (fun s k => abortOpenTest (8 * t + k) s) s else s

/-- The tile's logic is reset at a boundary: ACTIVE transactions and open tests are aborted. -/
def restartTile (t : Nat) (s : State) : State :=
  updTile t (fun x => { x with restarting := true, restartAsked := false })
    (hartAbort (fun c => anaTile c = t) false (abortTileTests t s))

/-- Converters out of service return; constants and ages stay (R201, R435). -/
def convsBack (t : Nat) (s : State) : State :=
  updTileCal t (fun x => { x with
    turns := {}, held := {}
    convs := ⟨x.convs.cells.map (fun c => (c.1, { c.2 with out := false, rejects := 0, served := none }))⟩ })
    (updTile t (fun x => { x with spare0 := none, spare1 := none }) s)

/-- R435: the tile is back with its plan values; its channels leave the restart at the next boundary. -/
def execTileRestartDone (t : Fin 10) (s : State) : Out :=
  .next (
    if (tileGet s t.val).restarting && !(tileGet s t.val).back && domUp s (if t.val < 4 then 4 else 5) then
      endIfRunning (tilePage t.val) 0x10 .ok 0
        (updTile t.val (fun x => { x with back := true }) (convsBack t.val (tileRegs t.val s)))
    else s)

/-- Tiles at a boundary: restarts asked for begin, restarts that are done end. -/
def tilesBoundary (s : State) : State :=
  (List.range 10).foldl (fun s t =>
    let x := tileGet s t
    if x.back then tileTake t (updTile t (fun x => { x with restarting := false, back := false }) s)
    else if x.restartAsked then restartTile t s
    else s) s

/-! COURSE page. -/

def clearPeakCmd (req : Requester) (arg : BitVec 24) (s : State) : State :=
  issueCmd 0x10 req 1 arg (fun s =>
    if arg ≠ 0 then .done .badArg 0 s
    else .done .ok 0 { s with course.clearPeak := true }) s

def execClearPeak (req : Requester) (arg : BitVec 24) (s : State) : Out := .next (clearPeakCmd req arg s)

end Sys2Proof.Machine
end

