-- ==== Sys2Proof/Machine/Outputs.lean ====
section
/-! DEFINITION. Outputs at a course boundary (ch. 05, R273 to R275, R285): readback, compliance, supply, drive values,
damping, and the drive states of DIO channels. -/

namespace Sys2Proof.Machine

def updOut (n : Nat) (f : UcOut → UcOut) (s : State) : State := updUc n (fun u => { u with out := f u.out }) s

def ucOSticky (n bit : Nat) (s : State) : State :=
  updUc n (fun u => { u with osticky := setBit u.osticky bit true }) s

/-- `k` ten-thousandths of S. -/
def spanPart (mode k : Nat) : Dword := fdiv (fmul (outSpan mode) (f64ofInt k)) (f64ofInt 10000)

/-! Readback (R135, R136). -/

/-- Mismatch of the readback with the drive value over the window. -/
def rbDiff (u : UcChan) (w : OutWindow) : Dword := fabs (fsub (f32to64 w.readback) u.out.drive)

/-- One compared course. -/
def readbackStep (n : Nat) (w : OutWindow) (s : State) : State :=
  let u := ucGet s n
  let m := ucModeF u
  let o := u.out
  if flt (spanPart m 5) (fabs (fsub o.drive o.prevDrive)) || o.compliance || o.therm then s
  else
    let bad := flt (spanPart m 5) (rbDiff u w)
    let nb := if bad then o.rbBad + 1 else 0
    let ng := if bad then 0 else o.rbGood + 1
    let s1 := updOut n (fun o => { o with rbBad := nb, rbGood := ng }) s
    if !o.readback && 8 ≤ nb then
      chanEvent n 0x0A (f64scaledNat (fdiv (rbDiff u w) (outSpan m)) 10000)
        (ucOSticky n 1 (updOut n (fun o => { o with readback := true }) s1))
    else if o.readback && 8 ≤ ng then chanEvent n 0x0B 0 (updOut n (fun o => { o with readback := false }) s1)
    else s1

/-! Compliance and open loop (R129, R138 to R140). -/

/-- Headroom of a window, mV. -/
def headroom (w : OutWindow) : Int := w.supply - w.term

/-- A window that counts towards setting COMPLIANCE, and one that counts towards clearing it. -/
def windowLow (m : Nat) (w : OutWindow) : Bool :=
  if m = 8 then headroom w < 1500
  else if m = 9 then w.term < 4000
  else w.limited

def windowGood (m : Nat) (w : OutWindow) : Bool :=
  if m = 8 then 2000 ≤ headroom w
  else if m = 9 then 4000 ≤ w.term
  else !w.limited

/-- VREFX within 1 to 12 V, and outside 0.9 to 12.5 V (R129). -/
def vrefIn (w : OutWindow) : Bool := 1000 ≤ w.vrefx && w.vrefx ≤ 12000
def vrefOut (w : OutWindow) : Bool := w.vrefx < 900 || 12500 < w.vrefx

/-- The condition of R129 after a window: it stands until VREFX has been back for 8 courses. -/
def vrefBadAfter (m : Nat) (w : OutWindow) (o : UcOut) : Bool :=
  m = 11 && (vrefOut w || (o.vrefBad && !(vrefIn w && 8 ≤ o.vrefGood + 1)))

def complianceStep (n : Nat) (w : OutWindow) (s : State) : State :=
  let u := ucGet s n
  let m := ucModeF u
  let o := u.out
  let bad := vrefBadAfter m w o
  let nl := if windowLow m w || bad then o.headLow + 1 else 0
  let ng := if windowGood m w && (!bad || vrefIn w) then o.headGood + 1 else 0
  let s1 := updOut n (fun o => { o with
    headLow := nl, headGood := ng, vrefGood := if vrefIn w then o.vrefGood + 1 else 0, vrefBad := bad }) s
  let detail := (headroom w).toNat
  if !o.compliance && 2 ≤ nl then
    chanEvent n 0x0C detail (ucOSticky n 2 (updOut n (fun o => { o with compliance := true }) s1))
  else if o.compliance && 8 ≤ ng then chanEvent n 0x0D detail (updOut n (fun o => { o with compliance := false }) s1)
  else s1

/-- OPEN_LOOP; COMPLIANCE is that in effect after the window. -/
def openLoopStep (n : Nat) (w : OutWindow) (s : State) : State :=
  let u := ucGet s n
  let o := u.out
  let rb := f32to64 w.readback
  let small := flt rb (f64ofRatio 2 10)
  if ucModeF u = 8 ∨ ucModeF u = 9 then
    let nb := if fle (f64ofInt 3) o.drive && small && o.compliance then o.olBad + 1 else 0
    let ng := if small then 0 else o.olGood + 1
    let s1 := updOut n (fun o => { o with olBad := nb, olGood := ng }) s
    let detail := f64scaledNat rb 1000
    if !o.openLoop && 8 ≤ nb then
      chanEvent n 0x10 detail (ucOSticky n 4 (updOut n (fun o => { o with openLoop := true }) s1))
    else if o.openLoop && 8 ≤ ng then chanEvent n 0x11 detail (updOut n (fun o => { o with openLoop := false }) s1)
    else s1
  else s

/-- What the window that has ended shows, and the checks on it while the gate is enabled (R144). -/
def ucJudge (n : Nat) (s : State) : State :=
  match (ucGet s n).win with
  | some w =>
    let m := ucModeF (ucGet s n)
    let s1 := updUc n (fun u => { u with
      win := none
      out := { u.out with
        rb := w.readback, term := BitVec.ofInt 16 w.term
        vrefx := if m = 11 then BitVec.ofNat 16 w.vrefx else 0 } }) s
    if gateUc s n && vfJudged s then openLoopStep n w (complianceStep n w (readbackStep n w s1)) else s1
  | none => s

/-! The new drive value (R129 to R133, R137, R142). -/

/-- Supply target, mV (R137, R138); `prev` is the window before. -/
def supplyTarget (m : Nat) (o : UcOut) (d : Dword) (w : Option OutWindow) : Nat :=
  if m = 9 then 0
  else
    let low := o.compliance || (match w with
      | some w => decide (headroom w < 1500)
      | none => false)
    let lim (x : Nat) : Nat := max 5000 (min 28000 x)
    if low then 28000
    else if m = 8 then
      let rb := f32to64 o.rb
      if flt rb (f64ofInt 1) then lim (o.term.toInt.toNat + 4500)
      else lim (f64scaledNat (fmul (fdiv (f64ofInt o.term.toInt) rb) d) 1 + 2500)
    else if m = 10 then lim (f64scaledNat d 1000 + 2500)
    else lim (f64scaledNat d o.vrefx.toNat / 100 + 2500)

/-- Whether a source's value was clamped (R131). -/
def clamped (s : State) (n source : Nat) : Bool :=
  let u := ucGet s n
  let chk (w : Word) (v : Dword) : Bool := f32to64 w ≠ v
  if source = 4 then chk u.inForce.otest (clampCmd u (f32to64 u.inForce.otest))
  else if source = 6 then
    let c := (s.course.ucHeld.get (0, false) n).1
    chk c (clampCmd u (f32to64 c))
  else if source = 3 ∧ fld u.inForce.octl 24 2 = 3 then
    chk u.inForce.ofix (clampRange (ucModeF u) (f32to64 u.inForce.ofix))
  else false

/-- A retirement with action OFF: MODE becomes OFF (R149). -/
def retireOff (n : Nat) (s : State) : State :=
  ucTake n (updUc n (fun u => { u with regs := { u.regs with cfg := modeOff u.regs.cfg } }) s)

/-- The drive value of a boundary and whether damping goes on, from the source, the target and the output's state: 0 V
without a usable VREFX (R129), START after a change of mode (R148), damped under R142 and R143, or the target. -/
def nextDrive (u : UcChan) (src : Nat) (t : Dword) : Dword × Bool :=
  let o := u.out
  let damp := (src = 4 && !o.direct) || (src = 6 && o.owed)
  if 3 ≤ src && o.starting then (o.drive, o.owed)
  else if ucModeF u = 11 && o.vrefBad then (0, damp)
  else if damp then dampStep (ucModeF u) (o.tau.getD (fld u.inForce.octl 0 14)) o.drive t
  else (t, false)

/-- Source, drive value, damping and supply of one universal output at a boundary.  The drive value before the fault flag
is held as long as the flag is present, whatever source overrides it (R133). -/
def ucDrive (n : Nat) (win : Option OutWindow) (s : State) : State :=
  let u := ucGet s n
  let o := u.out
  let src := ucSource s n
  let flag := (s.course.ucHeld.get (0, false) n).2
  let held := if flag then (if o.flag then o.faultHeld else if o.begun then some o.drive else none) else none
  let s1 := updOut n (fun o => { o with
    flag := flag, faultHeld := held, prevDrive := o.drive, source := BitVec.ofNat 3 src }) s
  match ucTarget s1 n src with
  | none =>
    let s2 := updOut n (fun o => { o with damping := false, owed := false, direct := false, starting := false }) s1
    if src = 7 then retireOff n s2 else s2
  | some t =>
    let r := nextDrive u src t
    let s2 := updOut n (fun o => { o with
      drive := r.1, code := if 3 ≤ src then r.1 else o.code
      damping := r.2 && !o.starting && !(ucModeF u = 11 && o.vrefBad), owed := src = 6 && r.2
      direct := false, starting := false, tau := if r.2 then o.tau else none, begun := o.begun || src ≠ 3
      supply := BitVec.ofNat 16 (supplyTarget (ucModeF u) o r.1 win) }) s1
    if clamped s1 n src then ucOSticky n 5 s2 else s2

/-- The last synchronised supply of a channel (R144). -/
def syncedSupply (s : State) (n : Nat) : Option Nat :=
  s.sync.applied.bind (fun m => (m.outs.find? (fun o => o.uc.val = n)).map (·.supply))

/-- One universal output at a boundary.  While its tile is off or restarting, checks and supply stop and the output
stage keeps its code (R147); THERM and trips act at once in PD6. -/
def ucBoundary (n : Nat) (s : State) : State :=
  if ucIsOut (ucGet s n) && domUp s 6 then
    if tileUp s (n / 8) then
      let win := (ucGet s n).win
      let s1 := ucDrive n win (ucJudge n s)
      if gateUc s1 n then s1
      else match syncedSupply s1 n with
        | some v => updOut n (fun o => { o with supply := BitVec.ofNat 16 v }) s1
        | none => s1
    else updOut n (fun o => { o with prevDrive := o.drive }) (ucResolve n s)
  else s

/-! DIO (R273, R275, R285). -/

/-- The command that protection overrides. -/
def dioCommand (s : State) (n : Nat) : Bool := dioValue s n (dioSource s n false)

/-- What one course more does to an inrush window and to learning.  A window lasts 20 ms, and one that the budget has
limited at most 100 ms (R275, R278); on time outside windows counts towards the 10 s of learning (R280). -/
def dioTime (counts : Bool) (o : DioOut) : DioOut :=
  let us := o.inrushUs + 250
  let t := if counts && o.drive && !o.inrush && !o.learned then o.learnT + 1 else o.learnT
  { o with
    inrush := o.inrush && us < 100000 && (o.inrushHeld || us < 20000)
    inrushUs := if o.inrush then us else o.inrushUs
    learnT := t, progress := if o.learned then o.progress else BitVec.ofNat 8 (min 100 (t / 400)) }

/-- One DIO at a boundary: overload states after the command, and the source. -/
def dioBoundary (n : Nat) (s : State) : State :=
  let cmd := dioCommand s n
  let s0 := updDio n (dioTime (dioJudged s n && dioMode s n = 3)) s
  let s1 := updDio n (fun o =>
    if o.overload && !o.latched && !cmd then { o with overload := false, retries := 0 }
    else if o.latched && !cmd then { o with offSeen := true }
    else if o.latched && o.offSeen then { o with latched := false, overload := false, retries := 0, offSeen := false }
    else o) s0
  dioResolve n s1

/-- Every output at a boundary, the commands in the holding latches being those that now apply. -/
def outputsBoundary (s : State) : State :=
  let s1 := (List.range 32).foldl (fun s n => ucBoundary n s) s
  if domUp s1 6 then inrushBudget ((List.range 32).foldl (fun s n => dioBoundary n s) s1) else s1

end Sys2Proof.Machine
end

