-- ==== Sys2Proof/Machine/Red.lean ====
section
/-! DEFINITION. The redundant pair (ch. 12): links, claims, gates, election, yield, takeover, state sync. -/

namespace Sys2Proof.Machine

def Role.num : Role → Nat
  | .none => 0 | .a => 1 | .b => 2 | .solo => 3

/-- Strapped A or B. -/
def inPair (s : State) : Bool := s.red.role = .a || s.red.role = .b

/-- READY (R329). -/
def redReady (s : State) : Bool := domUp s 1 && domUp s 3 && domUp s 6 && s.plan.state = .running

/-- This unit may raise a claim: straps, no conflict (R327, R330, R331, R338). -/
def mayClaim (s : State) : Bool := s.red.role ≠ .none && !s.red.roleConflict && !s.red.conflict && !s.red.wrongSerial

/-- A RED event with its detail (R344); the page is in PD1. -/
def redEvent (code detail : Nat) (s : State) : State := blockEv 0x48 code (detail * 2 ^ 16) s

/-! Gates (R324, R341). -/

/-- Applies the gates' present state to every universal output. -/
def gatesApplyUc (s : State) : State := (List.range 32).foldl (fun s n => ucResolve n s) s

/-- Applies the gates' present state to every stage. -/
def gatesApply (s : State) : State :=
  let s1 := gatesApplyUc s
  if domUp s 6 then (List.range 32).foldl (fun s n => dioResolve n s) s1 else s1

/-- DIOs whose gate a takeover enables take the synchronised drive states, which a channel in maintenance holds; the
protections and trips of this unit go before (R283, R341). -/
def dioTake (drive : Word) (s : State) : State :=
  if domUp s 6 then
    (List.range 32).foldl (fun s n =>
      let o := dioGet s n
      let src := dioSource s n (o.overload || o.therm)
      if 3 ≤ src && src ≤ 6 then
        updDio n (fun o => { dioSet (digMode (digGet s n)) src (bitAt drive n) o with
          held := if src ≤ 4 then bitAt drive n else o.held }) s
      else dioResolve n s) s
  else s

/-- All gates are disabled: stages disconnect, HART and CAN transmission end (R324, R179, R380). -/
def gatesOpen (s : State) : State :=
  if s.red.gates then
    canGates false (hartRegate (hartAbort (fun _ => true) true (gatesApply { s with
      red.gates := false, red.slots := 0 })))
  else { s with red.slots := 0 }

/-- The claim falls to 0 and the gates are disabled; a SWITCHOVER that waits for its boundary ends ABORTED (R445). -/
def dropClaim (s : State) : State :=
  endIfRunning 0x48 1 .aborted 0 (gatesOpen { s with red.own := 0, red.taking := false, red.yieldNext := none })

/-- The unit is standby: claim 0, gates disabled, syncs are loaded anew, and its own change list is at an end. -/
def becomeStandby (s : State) : State :=
  { dropClaim s with
    red.state := .standby, red.inStep := false
    sync.newest := none, sync.applied := none, sync.loaded := none, sync.okRun := 0, sync.ok := false, sync.seen := []
    sync.unacked := [] }

/-- No claim is possible. -/
def becomeIdle (s : State) : State := { dropClaim s with red.state := .idle }

/-- Raises the claim from 0 (R326). -/
def raiseClaim (epoch : Half) (s : State) : State :=
  { s with red.own := epoch, red.slots := 0, red.state := if isSolo s then .solo else .active, red.quiet := 0 }

/-- Input channels that the claim gates gate: CURRENT, RESISTANCE, IEPE and the sink of loop inputs (R115, R185). -/
def gatedInput (s : State) (c : Nat) : Bool :=
  if c < 32 then (let m := ucModeF (ucGet s c); m = 2 || m = 3 || m = 6) else liMode (liGet s (c - 32)) = 1

/-- Samples of gated input channels are SETTLING until a whole window lies after the gate was enabled (R116, R185). -/
def settleGated (s : State) : State :=
  (List.range 80).foldl (fun s c =>
    if gatedInput s c then
      if c < 32 then settleUc c s else updLi (c - 32) (fun l => { l with settle := liRateD }) s
    else s) s

/-- A channel holds a record of the last sync, and its value until a sample gives another (R116, R185). -/
def seedRecord (c : Nat) (r : ARec) (s : State) : State :=
  updCtxOf c (fun k => { k with
    smp := { k.smp with raw := r.raw, tag := r.tag, status := 0x8000, stamp := r.time }
    lastGood := if r.value = qnan32 then none else some r.value, value := r.value })
    { s with square.work.ana := s.square.work.ana.set c r }

/-- Gated input channels hold the last synchronised records that have data. -/
def seedGated (m : SyncMsg) (s : State) : State :=
  m.records.cells.foldl (fun s x =>
    if x.1 < 80 && planned s (anaTy x.1) (anaTarget x.1) && gatedInput s x.1 && bitAt x.2.status 15 then
      seedRecord x.1 x.2 s
    else s) s

/-- Universal outputs start from START, damped (R143). -/
def outputsFromStart (s : State) : State :=
  (List.range 32).foldl (fun s n =>
    if ucIsOut (ucGet s n) then
      updOut n (fun o => { o with
        drive := ucStart s n, prevDrive := ucStart s n, code := ucStart s n, damping := true, owed := true
        starting := false, direct := false, settle := 1 }) s
    else s) s

/-- Outputs start from the values of the last sync loaded (R145). -/
def outputsFromSync (m : SyncMsg) (s : State) : State :=
  m.outs.foldl (fun s o =>
    if ucIsOut (ucGet s o.uc.val) then
      updOut o.uc.val (fun x => { x with
        drive := o.drive, prevDrive := o.drive, code := o.drive, damping := o.damping, owed := o.damping
        starting := false, direct := false, tau := if o.damping then some o.tau else none
        begun := true }) s
    else s) s

/-- An EPOCH marker goes to every enabled queue ahead of any other record (R315). -/
def epochMarkers (new old : Half) (s : State) : State :=
  [0, 1, 2, 3, 4].foldl (fun s q =>
    if (evqGet s q).en then evqReplace q (fun x => { x with epoch := some (new, old) }) s else s) s

/-- A takeover opens no inrush window (R283). -/
def noInrush (s : State) : State :=
  (List.range 32).foldl (fun s n => updDio n (fun o => { o with inrush := false }) s) s

/-- The gates of this unit are enabled, by takeover or by the election (R326, R341). -/
def gatesClose (s : State) : State :=
  let take := s.red.taking
  let s1 := { s with red.gates := true, red.taking := false }
  if take then
    let s2 := { s1 with red.takeCn := s.course.cn }
    let s3 := match s.sync.applied with
      | some m => dioTake m.dioDrive (gatesApplyUc (settleGated (seedGated m (outputsFromSync m s2))))
      | none => gatesApply (settleGated s2)
    canGates true (hartRegate (noInrush
      (if domUp s 3 then epochMarkers s.red.own (s.red.own - 1) s3 else s3)))
  else canGates false (hartRegate (gatesApply (settleGated (outputsFromStart s1))))

/-! Links (R319 to R323). -/

def street (s : State) (b : Bool) : Street := if b then s.red.streetB else s.red.streetA
def updStreet (b : Bool) (f : Street → Street) (s : State) : State :=
  if b then { s with red.streetB := f s.red.streetB } else { s with red.streetA := f s.red.streetA }

/-- Event of a link that changes (R344). -/
def linkEvent (s : State) : State :=
  redEvent 3 (b2n s.red.streetA.present + 2 * b2n s.red.streetB.present + 4 * b2n s.red.claimLine) s

/-- PEER_LOST as it now stands, with its event (R323). -/
def judgePeerLost (s : State) : State :=
  let v := inPair s && ((!s.red.streetA.present && !s.red.streetB.present && !s.red.claimLine) || s.red.alone)
  if v = s.red.peerLost then s else redEvent 4 (b2n v) { s with red.peerLost := v }

/-- Another unit is there where none may be: both claims go to 0 for good (R327, R330). -/
def roleConflict (peer : Role) (s : State) : State :=
  if s.red.roleConflict then s
  else redEvent 5 (Role.num peer) (becomeIdle { s with red.roleConflict := true, red.conflict := true })

/-- The heartbeat this unit sends (R319); how far its last boundary lies back is free. -/
def ownHeartbeat (s : State) : Heartbeat :=
  { serial := s.sys.serial, role := s.red.role, claim := s.red.own, cn := s.course.cn
    phase := BitVec.ofNat 16 (Config.subCourse s.free), synced := s.sync.last, ready := redReady s
    fault := s.course.prevFaulted || s.course.faulted }

/-- A sent heartbeat whose echo has not come is not good. -/
def notGood (x : Street) : Street := { x with missed := satInc x.missed, goodRun := 0 }

def sendOn (x : Street) : Street := if x.waiting then notGood x else { x with waiting := true }

/-- R319: a heartbeat goes out on each street; a SOLO unit sends none (R330). -/
def execHeartbeatSend (s : State) : Out :=
  .next (
    if domUp s 1 && !isSolo s then
      updStreet false sendOn (updStreet true sendOn { s with red.hbSent := some (ownHeartbeat s), free := s.free + 1 })
    else s)

/-- A heartbeat from an accepted peer. -/
def peerSeen (h : Heartbeat) (s : State) : State :=
  judgePeerLost { s with
    red.peerReady := h.ready, red.peerFault := h.fault, red.peerCn := h.cn, red.peerRole := h.role, red.alone := false
    red.wrongSerial := false, red.peerSynced := h.synced
    red.conflict := s.red.roleConflict
    red.peerEpoch := if h.claim = 0 then s.red.peerEpoch else h.claim }

/-- R319: a heartbeat is received: checked, echoed, and the peer's state taken (R327, R330, R331). -/
def execHeartbeatReceive (st : Bool) (h : Heartbeat) (s : State) : Out :=
  .next (
    if domUp s 1 then
      if !h.crcOk then updStreet st notGood s
      else if isSolo s then roleConflict h.role s
      else
        let s1 := updStreet st (fun x => { x with echo := some h }) s
        if s.red.peerSn ≠ 0 && h.serial ≠ s.red.peerSn then
          if s.red.wrongSerial then s1
          else redEvent 5 (Role.num h.role) { s1 with red.wrongSerial := true, red.conflict := true }
        else if inPair s && h.role = s.red.role then roleConflict h.role s1
        else peerSeen h s1
    else s)

/-- R319: the echo of a sent heartbeat returns after `rtt` times 10 ns; it is good within 2 µs. -/
def execEchoReceive (st : Bool) (rtt : Nat) (s : State) : Out :=
  .next (
    if domUp s 1 && (street s st).waiting then
      updStreet st (fun x =>
        let y := { x with waiting := false, rtt := satNat 8 rtt }
        if rtt ≤ 200 then { y with goodRun := x.goodRun + 1 } else notGood y) s
    else s)

/-- Takes over (R338). -/
def takeOver (cause : Nat) (s : State) : State :=
  let epoch := s.red.peerEpoch + 1
  redEvent 1 epoch.toNat (raiseClaim epoch { s with
    red.takeCause := BitVec.ofNat 8 cause, red.takeCount := satInc s.red.takeCount, red.taking := true })

/-- A standby that is ready and free of conflict takes over (R338). -/
def mayTakeOver (s : State) : Bool := s.red.state = .standby && redReady s && mayClaim s

/-- R320: 100 µs without a good heartbeat. -/
def execStreetMissing (st : Bool) (s : State) : Out :=
  .next (
    if domUp s 1 && (street s st).present then
      let s1 := judgePeerLost (linkEvent (updStreet st (fun x => { x with present := false, goodRun := 0 })
        { s with red.quiet := 0 }))
      if !s1.red.streetA.present && !s1.red.streetB.present && mayTakeOver s1 then takeOver 0 s1 else s1
    else s)

/-- R320: 50 consecutive good heartbeats. -/
def execStreetPresent (st : Bool) (s : State) : Out :=
  .next (
    if domUp s 1 && !(street s st).present && 50 ≤ (street s st).goodRun then
      judgePeerLost (linkEvent (updStreet st (fun x => { x with present := true }) s))
    else s)

/-! Claim line (R321, R325 to R327). -/

/-- R321, R326: the unit's slot; slots that carry a new claim above the peer's are counted. -/
def execClaimFrameSend (s : State) : Out :=
  .next (
    if inPair s then
      { s with
        red.frameSent := some (s.red.own, s.red.role)
        red.slots := if s.red.own ≠ 0 && !s.red.gates then (if s.red.peer < s.red.own then s.red.slots + 1 else 0)
          else s.red.slots }
    else s)

/-- The peer's claim as a valid frame gives it (R321). -/
def peerShows (c : Half) (s : State) : State :=
  let s1 := { s with
    red.peer := c, red.claimLine := true, red.alone := false, red.quiet := if c = 0 then s.red.quiet else 0
    red.peerEpoch := if c = 0 then s.red.peerEpoch else c }
  judgePeerLost (if s.red.claimLine then s1 else linkEvent s1)

/-- A valid frame with claim `c` from the peer (R324, R325, R327, R329). -/
def peerClaim (c : Half) (s : State) : State :=
  let s2 := peerShows c s
  if s2.red.own ≠ 0 && s2.red.own < c then redEvent 8 c.toNat (becomeStandby s2)
  else if s2.red.own ≠ 0 && s2.red.own = c then (if s.red.role = .b then becomeStandby s2 else gatesOpen s2)
  else if s2.red.state = .electing && s2.red.election && c ≠ 0 then becomeStandby s2
  else s2

/-- R321: a claim frame is received; one that fails its checks is discarded. -/
def execClaimFrameReceive (c : Half) (role : Role) (ok : Bool) (s : State) : Out :=
  .next (
    if !ok then s
    else if isSolo s then roleConflict role s
    else if inPair s && role = s.red.role then roleConflict role (peerShows c s)
    else peerClaim c s)

/-- R321: no valid frame for 50 µs. -/
def execClaimLineMissing (s : State) : Out :=
  .next (
    if s.red.claimLine then
      judgePeerLost (linkEvent { s with red.claimLine := false, red.peer := 0 })
    else s)

/-- R326, R329: the claim has been sent in 4 slots with a lower peer claim; a SOLO unit sends none and uses no peer
claim. -/
def execGateEnable (s : State) : Out :=
  .next (
    if domUp s 6 && claimed s && !s.red.gates && (isSolo s || (4 ≤ s.red.slots && s.red.peer < s.red.own)) then
      gatesClose s
    else s)

/-- The bit of a stage: 0-31 DIO, 32-63 UC, 64-69 LT, 70-73 CAN. -/
def gateFltSet (i : Nat) (f : GateFlt) : GateFlt :=
  if i < 32 then { f with dio := setBit f.dio i true }
  else if i < 64 then { f with uc := setBit f.uc (i - 32) true }
  else if i < 70 then { f with lt := setBit f.lt (i - 64) true }
  else { f with can := setBit f.can (i - 70) true }

/-- R324: the two comparators of a stage's gate disagree; the stage is disconnected with its HART traffic (R178, R179). -/
def execGateFault (stage : Fin 74) (s : State) : Out :=
  let i := stage.val
  .next (
    if domUp s 6 then
      let s1 := { s with red.flt := gateFltSet i s.red.flt, red.fltReg := gateFltSet i s.red.fltReg }
      let s2 := hartRegate (hartAbort (fun c => gateAna s c && !gateAna s1 c) true (gatesApply s1))
      orderYield 2 (redEvent 6 i (canGates false s2))
    else s)

/-- R328: an epoch above 0xFF00 is renumbered. -/
def execEpochRenumber (s : State) : Out :=
  .next (
    if s.red.state = .active && 0xFF00 < s.red.own.toNat && s.red.peer = 0 && 4000 ≤ s.red.quiet then
      let s1 := { s with red.own := 1, red.quiet := 0 }
      if domUp s 3 then epochMarkers 1 s.red.own s1 else s1
    else s)

/-- An election begins (R329); a unit that cannot claim is idle. -/
def startElection (s : State) : State :=
  if claimed s then s
  else if s.red.role = .none then { s with red.state := .idle, red.strapFault := true }
  else if s.red.roleConflict then { s with red.state := .idle }
  else if redReady s then { s with red.state := .electing, red.election := true }
  else { s with red.state := .idle }

/-- R329: the role's window ends without a peer's claim. -/
def execElectionWindowEnd (s : State) : Out :=
  .next (
    if s.red.state = .electing && s.red.election && redReady s && mayClaim s && (isSolo s || s.red.peer = 0) then
      let seen := s.red.streetA.present || s.red.streetB.present || s.red.claimLine
      judgePeerLost (raiseClaim 1 { s with red.election := false, red.alone := inPair s && !seen })
    else s)

/-! Yield (R339, R343). -/

/-- Yields with a cause: claim 0 at once, then the message. -/
def yieldNow (cause : BitVec 3) (s : State) : State :=
  redEvent 2 cause.toNat { becomeStandby s with sync.yieldSent := some cause }

/-- At a boundary: an order to yield is carried out, and a SWITCHOVER ends OK. -/
def yieldBoundary (s : State) : State :=
  match s.red.yieldNext with
  | some c => if claimed s then yieldNow c (endIfRunning 0x48 1 .ok 0 s) else { s with red.yieldNext := none }
  | none => s

/-- R338: a yield message from the active unit. -/
def execYieldMessageReceive (_st : Bool) (cause : BitVec 3) (s : State) : Out :=
  .next (if domUp s 1 && mayTakeOver s then takeOver cause.toNat s else s)

def switchover (req : Requester) (arg : BitVec 24) (s : State) : State :=
  issueCmd 0x48 req 1 arg (fun s =>
    if arg ≠ 0 then .done .badArg 0 s
    else if !bitAt s.red.cfg 0 || s.red.state ≠ .active || !s.red.peerReady || s.red.peerFault
        || !s.red.streetA.present || !s.red.streetB.present || s.sync.ackRun < 4000 then .done .state 0 s
    else .hold (orderYield 3 s)) s

def execSwitchover (req : Requester) (arg : BitVec 24) (s : State) : Out := .next (switchover req arg s)

def clearCounts (req : Requester) (arg : BitVec 24) (s : State) : State :=
  issueCmd 0x48 req 2 arg (fun s =>
    if arg ≠ 0 then .done .badArg 0 s
    else .done .ok 0 { s with
      red.streetA := { s.red.streetA with missed := 0 }, red.streetB := { s.red.streetB with missed := 0 }
      sync.lost := 0, red.takeCount := 0 }) s

def execClearCounts (req : Requester) (arg : BitVec 24) (s : State) : Out := .next (clearCounts req arg s)

/-! The state sync (R333 to R337). -/

/-- R333: a sync arrives on a street; the first complete and correct copy counts. -/
def execStateSyncReceive (_st : Bool) (ok : Bool) (m : SyncMsg) (s : State) : Out :=
  let y := s.sync
  .next (
    if domUp s 1 && domUp s 3 && s.red.state = .standby && ok && (y.newest.isNone || 0 < (m.cn - y.last).toInt) then
      let gap := if y.newest.isNone then 0 else (m.cn - y.last).toNat - 1
      let run := if y.newest.isSome && gap = 0 then y.okRun + 1 else 1
      let new := m.transitions.filter (fun e => !y.seen.contains e)
      let held := match y.newest with
        | some o => if y.loaded = some o.cn then [] else o.transitions
        | none => []
      { s with
        sync.newest := some { m with transitions := held ++ new }
        sync.seen := m.transitions, sync.last := m.cn, sync.okRun := run, sync.ok := (y.ok && gap = 0) || 8 ≤ run
        sync.lost := satNat 16 (y.lost.toNat + gap)
        sync.lostRecent := (if gap = 0 then [] else [(s.course.cn, gap)]) ++ y.lostRecent.filter (fun x => since s x.1 < 4000)
        red.peerEpoch := m.epoch }
    else s)

/-- Output part of the sync of this unit. -/
def outSyncs (s : State) : List OutSync :=
  ((List.finRange 32).filter (fun n => ucIsOut (ucGet s n.val))).map (fun n =>
    let u := ucGet s n.val
    { uc := n, drive := u.out.drive, target := (ucTarget s n.val u.out.source.toNat).getD u.out.drive
      damping := u.out.damping || u.out.owed, tau := u.out.tau.getD (fld u.inForce.octl 0 14), supply := u.out.supply.toNat })

/-- Entries of a change list that one sync holds (R333). -/
def changeRoom : Nat := 172

/-- The change list: what no sync that the peer reports as received has carried yet, oldest first, each entry with the
course of the first sync that carried it (R334). -/
def changeList (s : State) : List (EventRec × Option Word) :=
  s.sync.unacked.filter (fun x => x.2.all (fun c => 0 < (c - s.red.peerSynced).toInt))
    ++ s.alarm.raised.map (fun e => (e, none))

/-- The sync of the course that has just closed (R333, R334). -/
def buildSync (q : Square) (s : State) : State :=
  let waiting := changeList s
  let m : SyncMsg := {
    cn := q.cn, wi := s.course.wi, epoch := s.red.own, faulted := s.course.faulted
    gateFault := decide (s.red.flt ≠ {}), records := q.ana, dioCmd := s.course.dioLatch
    dioDrive := BitVec.ofNat 32 ((List.range 32).foldl (fun a n => a + b2n (dioGet s n).drive * 2 ^ n) 0)
    outs := outSyncs s, points := s.alarm.points, groups := s.alarm.groups, call := s.alarm.call
    districts := ((List.finRange 16).filter (fun d => (district s d.val).state ≠ .absent)).map (fun d =>
      let x := district s d.val
      { district := d, updating := x.state = .updating, gen := x.gen, genTo := x.genTo, done := x.done })
    transitions := (waiting.take changeRoom).map Prod.fst
    hartTurns := (List.range 8).map (fun m => (m, (modem s m).turn, (modem s m).wallsLeft))
    lamps := ((List.range 32).filter (fun n => (dioGet s n).learned)).map (fun n => (n, (dioGet s n).iL.toNat)) }
  { s with
    sync.out := some m
    sync.unacked := (waiting.take changeRoom).map (fun x => (x.1, some (x.2.getD q.cn))) ++ waiting.drop changeRoom
    sync.backlog := satNat 16 (waiting.length - changeRoom)
    sync.sent := q.cn }

/-- Universal channels whose records a standby mirrors (R336). -/
def mirrorsRecord (s : State) (c : Nat) : Bool :=
  32 ≤ c || (let m := ucModeF (ucGet s c)
    m = 2 || m = 3 || m = 6 || 8 ≤ m)

/-- Turn positions of the modems (R174): those of the sync's course, advanced over the walls that have begun since. -/
def loadTurns (m : SyncMsg) (s : State) : State :=
  let walls := (m.wi + (s.course.cn - 1 - m.cn).toNat) / max 1 s.plan.wall
  m.hartTurns.foldl (fun s t =>
    if (modem s t.1).fresh then s
    else iterate (hartAdvance t.1) walls (updModem t.1 (fun x => { x with turn := t.2.1, wallsLeft := t.2.2 }) s)) s

/-- Learned lamp currents: a lamp that the active unit has not learned, or learns anew, is not learned here (R280). -/
def loadLamps (m : SyncMsg) (s : State) : State :=
  (List.range 32).foldl (fun s n =>
    match m.lamps.find? (fun t => t.1 = n) with
    | some t => updDio n (fun o => { o with learned := true, progress := 100, iL := BitVec.ofNat 16 t.2 }) s
    | none =>
      if (dioGet s n).learned then updDio n (fun o => { o with learned := false, progress := 0, learnT := 0, iL := 0 }) s
      else s) s

/-- R335: the newest sync is loaded at a boundary; its transitions raise their alarm records. -/
def loadSync (s : State) : State :=
  match s.sync.newest with
  | some m =>
    if s.red.state ≠ .standby || s.sync.loaded = some m.cn then s
    else
      let s1 := { s with
        alarm.points := m.points, alarm.groups := m.groups, alarm.call := m.call
        course.dioLatch := m.dioCmd, course.dioHeld := m.dioCmd
        course.ucLatch := m.outs.foldl (fun t o => t.set o.uc.val (f64to32 o.target, false)) s.course.ucLatch
        course.ucHeld := m.outs.foldl (fun t o => t.set o.uc.val (f64to32 o.target, false)) s.course.ucHeld
        sync.loaded := some m.cn, sync.applied := some m }
      m.transitions.foldl (fun s e => raiseAlarm e.source.toNat e.data s) (loadLamps m (loadTurns m s1))
  | none => s

/-- Steps the sync of the active unit shows as applied of the update in progress in district `n` (R337). -/
def syncedSteps (s : State) (n : Nat) : Nat :=
  let x := district s n
  match s.sync.newest.bind (fun m => m.districts.find? (fun d => d.district.val = n)) with
  | some d => if d.genTo ≠ x.genTo then 0 else if d.updating then d.done else if d.gen = x.genTo then x.total else d.done
  | none => 0

/-- The square of a standby takes the active unit's records, words and call block of course N − 1 from its sync, or
carries over what it had (R336). -/
def mirrorSquare (own : Square) (s : State) : Square :=
  let last := bufSquare s s.square.newest
  let pick (recs : Tab ARec) : Tab ARec := ⟨(List.range 80).filterMap (fun c =>
    ((if mirrorsRecord s c then recs.get? c else own.ana.get? c).map (fun r => (c, r))))⟩
  let kept : Square := { own with ana := pick last.ana, points := last.points, groups := last.groups, call := last.call }
  match s.sync.newest with
  | some m =>
    if m.cn + 1 = own.cn then
      let q := closeSquare { s with alarm.points := m.points, alarm.groups := m.groups, alarm.call := m.call }
      { own with
        ana := pick m.records
        points := q.points, groups := q.groups, call := q.call
        dig := ⟨own.dig.cells.map (fun c => (c.1, if c.1 < 32 then { c.2 with cmd := bitAt m.dioCmd c.1 } else c.2))⟩ }
    else kept
  | none => kept

/-- A standby whose course ends without the sync of the course before it has arrived: SYNC_OK falls until 8 syncs have
arrived in a row (R336). -/
def syncMissed (s : State) : State :=
  if s.red.state = .standby && s.sync.newest.map (fun m => m.cn + 1) ≠ some s.course.cn then
    { s with sync.ok := false, sync.okRun := 0 }
  else s

/-- Counts of the pair at a boundary that ends course `cn`: quiet courses of the peer (R328), syncs the standby has
reported (R343). -/
def pairCounts (cn : Word) (s : State) : State :=
  let quiet := s.red.peer = 0 && s.red.claimLine && s.red.streetA.present && s.red.streetB.present && 0xFF00 < s.red.own.toNat
  let acked := s.red.peerSynced = cn - 1 || s.red.peerSynced = cn
  { s with
    red.quiet := if quiet then s.red.quiet + 1 else 0
    sync.ackRun := if s.red.state = .active && acked then s.sync.ackRun + 1 else 0 }

end Sys2Proof.Machine
end

