-- ==== Sys2Proof/Machine/Safe.lean ====
section
/-! DEFINITION. The safety partition (ch. 13): updates of safety districts, releases, resets of lanes, watchdog and
lockstep, access violations. -/

namespace Sys2Proof.Machine

/-! Access violations (R345, R346). -/

/-- A write by A0 to A3 or HOST to an SW field: dropped and reported. -/
def accessViolation (page off : Nat) (req : Requester) (value : Word) (s : State) : State :=
  let s1 := setSticky page 0 s
  let s2 := if domUp s 1 then { s1 with
      safe.accReq := BitVec.ofNat 8 req.code, safe.accPage := BitVec.ofNat 8 page
      safe.accOff := BitVec.ofNat 12 off, safe.accCnt := satInc s1.safe.accCnt }
    else s1
  raiseEv 4 1 page (BitVec.ofNat 96 (off + req.code * 2 ^ 24 + value.toNat * 2 ^ 32)) s2

/-! Updates of safety districts (R349). -/

def updateSafety (req : Requester) (arg : BitVec 24) (s : State) : State :=
  issueCmd 0x18 req 1 arg (fun s =>
    let n := argDistrict arg
    if argOutside arg 0xF003FF || 3 < n then .done .badArg 0 s
    else if (district s n).state = .updating then .done .busy 0 s
    else .hold (beginUpdate true arg s)) s

def execUpdateSafetyDistrict (req : Requester) (arg : BitVec 24) (s : State) : Out := .next (updateSafety req arg s)

/-! Releases (R351 to R354). -/

/-- A target is planned or designated. -/
def relKnown (s : State) (output : Bool) (n : Nat) : Bool := planned s (if output then 0x22 else 0x20) n

def relReleased (s : State) (output : Bool) (n : Nat) : Bool := if output then outReleased s n else laneReleased s n

/-- The target is tripped. -/
def relTripped (s : State) (output : Bool) (n : Nat) : Bool :=
  if output then bitAt s.safe.outTrip n else laneTripped (laneGet s n)

/-- A release has been accepted and waits for the boundary. -/
def relAsked (s : State) (output : Bool) (n : Nat) : Bool :=
  s.safe.asks.any (fun a => a.release && a.output = output && a.target = n)

/-- The 30 s of a pending release have not passed. -/
def relLive (p : RelPend) : Bool := p.age ≤ 120000

/-- RELEASE_LANE (`output` false) or RELEASE_OUTPUT; a pending release whose 30 s have passed has lapsed (R351). -/
def releaseCmd (output : Bool) (req : Requester) (arg : BitVec 24) (s : State) : State :=
  issueCmd 0x18 req (if output then 4 else 2) arg (fun s =>
    let n := fld arg 0 6
    if argOutside arg 0x3F || !relKnown s output n then .done .badArg 0 s
    else if relReleased s output n || relAsked s output n then .done .ok 2 s
    else if relTripped s output n || s.safe.forced then .done .state 0 s
    else match s.safe.relPend with
      | some p =>
        if relLive p then
          if p.output ≠ output || p.target ≠ n then .done .state 0 s
          else if p.req = req then .done .ok 1 s
          else .done .ok 2 { s with
            safe.relPend := none
            safe.asks := s.safe.asks ++ [{ release := true, output := output, target := n, req := req }] }
        else .done .ok 1 (safeEvent 5 p.target (b2n p.output) { s with
          safe.relPend := some { req := req, output := output, target := n } })
      | none => .done .ok 1 { s with safe.relPend := some { req := req, output := output, target := n } }) s

def execReleaseLane (req : Requester) (arg : BitVec 24) (s : State) : Out := .next (releaseCmd false req arg s)
def execReleaseOutput (req : Requester) (arg : BitVec 24) (s : State) : Out := .next (releaseCmd true req arg s)

/-- What keeps a target from being restored (R353). -/
def restoreBarred (s : State) (output : Bool) (n : Nat) : Bool :=
  if output then maintNow s (if n < 32 then maintDio n else n - 32)
  else
    let b := entBody (planEntry s 0x20 n)
    let c := if bAt b 0 = 1 then bAt b 1 else 32 + bAt b 1
    laneTripped (laneGet s n) || inMaint s c || !tileUp s (anaTile c)

def restoreCmd (output : Bool) (req : Requester) (arg : BitVec 24) (s : State) : State :=
  issueCmd 0x18 req (if output then 5 else 3) arg (fun s =>
    let n := fld arg 0 6
    if argOutside arg 0x3F then .done .badArg 0 s
    else if !relReleased s output n || restoreBarred s output n then .done .state 0 s
    else .done .ok 0 { s with
      safe.asks := s.safe.asks ++ [{ release := false, output := output, target := n, req := req }] }) s

def execRestoreLane (req : Requester) (arg : BitVec 24) (s : State) : Out := .next (restoreCmd false req arg s)
def execRestoreOutput (req : Requester) (arg : BitVec 24) (s : State) : Out := .next (restoreCmd true req arg s)

/-- R351: 30 s have passed. -/
def execReleaseLapsed (s : State) : Out :=
  .next (
    match s.safe.relPend with
    | some p =>
      if domUp s 1 && 120000 ≤ p.age then
        safeEvent 5 p.target (b2n p.output) { s with safe.relPend := none }
      else s
    | none => s)

/-- One accepted release or restore takes effect at a boundary. -/
def applyAsk (s : State) (a : RelAsk) : State :=
  let s1 := if a.output then { s with safe.relOut := setBit s.safe.relOut a.target a.release }
    else { s with
      safe.relTl := setBit s.safe.relTl a.target a.release
      safe.lanes := if a.release then s.safe.lanes else s.safe.lanes.upd {} a.target (fun l => { l with count := 0 }) }
  safeEvent ((if a.release then 1 else 2) + (if a.output then 2 else 0)) a.target a.req.code s1

/-! Lane reset and forced trip (R355, R358). -/

/-- RESET_LANE and FORCE_RESET are taken here and act at the boundary; UPDATE ends by its verification. -/
def resetLane (req : Requester) (arg : BitVec 24) (s : State) : State :=
  issueCmd 0x18 req 6 arg (fun s => if argOutside arg 0x7F then .done .badArg 0 s else .hold s) s

def execResetLane (req : Requester) (arg : BitVec 24) (s : State) : Out := .next (resetLane req arg s)

/-- A lane that RESET_LANE clears. -/
def resettable (s : State) (n : Nat) : Bool :=
  let l := laneGet s n
  match planEntry s 0x20 n with
  | some e => l.tripped && laneLatch e.body && l.lastInside && !l.stale
  | none => false

/-- RESET_LANE as judged at a boundary. -/
def applyResetLane (arg : BitVec 24) (s : State) : CmdEnd :=
  let all := bitAt arg 6
  let ns := below 64 (fun n => resettable s n && (all || n = fld arg 0 6))
  if ns.isEmpty && !all then .done .state 0 s
  else .done .ok ns.length (ns.foldl (fun s n =>
    { s with safe.lanes := s.safe.lanes.upd {} n (fun l => { l with tripped := false, count := 0 }) }) s)

def forceResetCmd (req : Requester) (arg : BitVec 24) (s : State) : State :=
  issueCmd 0x18 req 7 arg (fun s =>
    if arg ≠ 0 then .done .badArg 0 s
    else if s.course.faultSeen && since s s.course.faultCn < 4000 then .done .state 0 s
    else .done .ok 0 { s with safe.forceReset := some req }) s

def execForceReset (req : Requester) (arg : BitVec 24) (s : State) : Out := .next (forceResetCmd req arg s)

/-- What the safety partition does at a boundary: releases and restores, the reset of lanes, FORCE_RESET. -/
def safeBoundary (s : State) : State :=
  if domUp s 1 then
    let s0 := match s.safe.relNext with
      | some (tl, out) => { s with safe.relTl := tl, safe.relOut := out, safe.relNext := none }
      | none => s
    let s1 := s0.safe.asks.foldl applyAsk { s0 with safe.asks := [] }
    let s2 := match (hdr s1 0x18).run with
      | some r => if r.op = 6 then
          (match applyResetLane r.arg s1 with
            | .done st res x => finishCmd 0x18 st res x
            | .hold x => x)
        else s1
      | none => s1
    let s3 := match s2.safe.forceReset with
      | some req =>
        if s2.safe.forced then safeEvent 7 0 req.code { s2 with safe.forced := false, safe.forceReset := none }
        else { s2 with safe.forceReset := none }
      | none => s2
    tripUpdate s3
  else s

/-! Watchdog and lockstep (R356, R357). -/

/-- One course of 250 µs more since the last service and since a release was asked for. -/
def safeTick (s : State) : State :=
  { s with
    safe.unserved := s.safe.unserved + 1
    safe.relPend := s.safe.relPend.map (fun p => { p with age := p.age + 1 }) }

/-- The safety firmware's service. -/
def execWatchdogService (s : State) : Out :=
  .next (if domUp s 1 then { s with safe.unserved := 0 } else s)

/-- A domain's pages return to their reset values: header and PG_SYNC (R28). -/
def clearHdrs (d : Nat) (s : State) : State :=
  { s with hdrs := ⟨s.hdrs.cells.filter (fun c => pageDom s c.1 ≠ some d)⟩ }

/-- A domain has been switched (R438). -/
def domEvent (s : State) : State := blockEv 0 1 (s.sys.domOn.toNat * 2 ^ 16) s

/-- PD0 takes the claim away and holds PD1 in reset, its copy of the plan with it; `cause` 1 watchdog, 2 lockstep (R356; the
unit's state meanwhile, log entry 116). -/
def pd1Hold (cause : Nat) (s : State) : State :=
  let s0 := match s.loader.safeVerifying with
    | some v => updDistrict v.district (fun d => { d with state := v.prev }) { s with loader.safeVerifying := none }
    | none => s
  let s1 := if inPair s0 && (claimed s0 || s0.red.state = .standby) then becomeStandby s0 else becomeIdle s0
  let s2 := { s1 with
    sys.domOn := setBit s1.sys.domOn 1 false, sys.offSeen := setBit s1.sys.offSeen 1 false
    plan.entries := if domUp s1 3 then s1.plan.entries else []
    safe.pd1Reset := true, safe.lastCause := BitVec.ofNat 4 cause, safe.restarts := satInc s1.safe.restarts
    safe.outTrip := 0, safe.outHold := 0
    red.streetA := {}, red.streetB := {} }
  domEvent s2

def execWatchdogExpiry (s : State) : Out :=
  .next (if domUp s 1 && 4 ≤ s.safe.unserved then pd1Hold 1 s else s)

def execLockstepMismatch (s : State) : Out := .next (if domUp s 1 then pd1Hold 2 s else s)

/-- PD1 comes up: SAFE and RED registers at reset, but for what is kept without PD1 (R28, R347, R356): keys, restart
cause and count, the claim logic, straps and takeover count of PD0. -/
def pd1Up (s : State) : State :=
  let r := s.red
  let s1 := clearHdrs 1 { s with
    sys.domOn := setBit s.sys.domOn 1 true
    safe := { lastCause := s.safe.lastCause, restarts := s.safe.restarts, key := s.safe.key }
    red := { state := r.state, role := r.role, own := r.own, peer := r.peer, claimLine := r.claimLine, gates := r.gates
             slots := r.slots, conflict := r.roleConflict, roleConflict := r.roleConflict, strapFault := r.strapFault
             takeCount := r.takeCount, takeCause := r.takeCause, takeCn := r.takeCn, flt := r.flt
             peerEpoch := r.peerEpoch, frameSent := r.frameSent }
    sync := {} }
  judgePeerLost (claimConfig (tripUpdate s1))

/-- R357: PD1 restarts after 10 ms: releases, FORCED and LANE_FAULT are clear, and the election is entered anew. -/
def execPd1Restart (s : State) : Out :=
  .next (
    if s.safe.pd1Reset then safeEvent 9 0 s.safe.lastCause.toNat (startElection (domEvent (pd1Up s))) else s)

end Sys2Proof.Machine
end

