-- ==== Sys2Proof/Machine/Net.lean ====
section
/-! DEFINITION. Ethernet, PRP, PTP and the service port's keys (R363 to R371, R386 to R389). -/

namespace Sys2Proof.Machine

/-- A port; its factory MAC address is a value as stored (log entry 1). -/
def ethGet (s : State) (p : Nat) : EthBlk := s.eths.get {} p
def updEth (p : Nat) (f : EthBlk → EthBlk) (s : State) : State := { s with eths := s.eths.upd {} p f }
def ethPage (p : Nat) : Nat := 0x3C + p

def ringGet (s : State) (p q : Nat) : EthRing := (ethGet s p).rings.get {} q
def updRing (p q : Nat) (f : EthRing → EthRing) (s : State) : State :=
  updEth p (fun e => { e with rings := e.rings.upd {} q f }) s

/-- One more in ETHn_CNTj. -/
def ethCount (p j : Nat) (s : State) : State := updEth p (fun e => { e with cnt := e.cnt.upd 0 j satInc }) s

def prpOn (s : State) : Bool := bitAt (ethGet s 0).cfg 30

/-- Network-order values in a frame. -/
def beAt (b : List Byte) (o n : Nat) : Nat := ((b.drop o).take n).foldl (fun a x => a * 256 + x.toNat) 0
def beOut (n v : Nat) : List Byte := (leBytes n v).reverse

/-! Frames (R365, R366, R368). -/

def frTagged (b : List Byte) : Bool := beAt b 12 2 = 0x8100
/-- Offset of the Ethertype that follows a tag, if any. -/
def frTypeAt (b : List Byte) : Nat := if frTagged b then 16 else 12
def frType (b : List Byte) : Nat := beAt b (frTypeAt b) 2
def frDst (b : List Byte) : BitVec 48 := BitVec.ofNat 48 (beAt b 0 6)
def frSrc (b : List Byte) : BitVec 48 := BitVec.ofNat 48 (beAt b 6 6)
def frVid (b : List Byte) : Nat := beAt b 14 2 % 4096
def frPcp (b : List Byte) : Nat := beAt b 14 2 / 8192

/-- UDP destination port of an IPv4 or IPv6 datagram. -/
def frUdpPort (b : List Byte) : Option Nat :=
  let o := frTypeAt b + 2
  if frType b = 0x0800 ∧ beAt b (o + 9) 1 = 17 then some (beAt b (o + 4 * (beAt b o 1 % 16) + 2) 2)
  else if frType b = 0x86DD ∧ beAt b (o + 6) 1 = 17 then some (beAt b (o + 42) 2)
  else none

/-- Offset of the PTP message a frame carries, if it carries one. -/
def frPtpAt (b : List Byte) : Option Nat :=
  let o := frTypeAt b + 2
  if frType b = 0x88F7 then some o
  else match frUdpPort b with
    | some p =>
      if p = 319 ∨ p = 320 then some (if frType b = 0x0800 then o + 4 * (beAt b o 1 % 16) + 8 else o + 48) else none
    | none => none

/-- A PTP event message: message types 0 to 3. -/
def frPtpEvent (b : List Byte) : Bool := match frPtpAt b with
  | some o => beAt b o 1 % 16 < 4
  | none => false

/-- Frames for the keep queue alone. -/
def frKept (b : List Byte) : Bool := (frPtpAt b).isSome || frType b = 0x88FB

/-- Bytes of the LSDU, its trailer included (IEC 62439-3). -/
def frLsdu (b : List Byte) : Nat := b.length - (frTypeAt b + 2)

/-- Redundancy control trailer: sequence number and LAN identifier, if the frame has a valid one. -/
def frTrailer (b : List Byte) : Option (Half × Nat) :=
  let o := b.length - 6
  if 20 ≤ b.length ∧ beAt b (o + 4) 2 = 0x88FB ∧ beAt b (o + 2) 2 % 4096 = frLsdu b % 4096
      ∧ (beAt b (o + 2) 2 / 4096 = 0xA ∨ beAt b (o + 2) 2 / 4096 = 0xB) then
    some (BitVec.ofNat 16 (beAt b o 2), beAt b (o + 2) 2 / 4096)
  else none

/-- A frame with a trailer of its own. -/
def withTrailer (seq : Half) (lan : Nat) (b : List Byte) : List Byte :=
  b ++ beOut 2 seq.toNat ++ beOut 2 (lan * 4096 + (frLsdu b + 6) % 4096) ++ [0x88, 0xFB]

/-- LAN identifier of a port. -/
def portLan (p : Nat) : Nat := if p = 0 then 0xA else 0xB

/-- VIDs enabled on a port. -/
def vidEnabled (e : EthBlk) (vid : Nat) : Bool :=
  (List.range 4).any (fun k =>
    let w := e.vlan.get 0 k
    (bitAt w 15 && fld w 0 12 = vid) || (bitAt w 31 && fld w 16 12 = vid))
def anyVid (e : EthBlk) : Bool :=
  (List.range 4).any (fun k => bitAt (e.vlan.get 0 k) 15 || bitAt (e.vlan.get 0 k) 31)

/-- Own address, broadcast and multicast, or promiscuous. -/
def frForUs (e : EthBlk) (b : List Byte) : Bool :=
  bitAt e.cfg 26 || frDst b = e.mac || beAt b 0 1 % 2 = 1

/-! Descriptor rings (R367). -/

def ringLen (r : EthRing) : Nat :=
  let n := fld r.ctl 0 11
  if [16, 32, 64, 128, 256, 512, 1024].contains n then n else 16

/-- Address of descriptor `i` of a ring. -/
def descAt (r : EthRing) (i : Nat) : Nat := r.base.toNat + 16 * (i % ringLen r)

/-- A descriptor that the node may process: the ring in use, HEAD before TAIL, OWN set. -/
def descReady (s : State) (r : EthRing) : Bool :=
  bitAt r.ctl 31 && r.head ≠ r.tail && inRam (descAt r r.head.toNat) 16
    && leNat (ramRead s (descAt r r.head.toNat + 6) 2) / 32768 = 1

/-- HEAD after one descriptor. -/
def ringNext (r : EthRing) (i : Half) : Half := BitVec.ofNat 16 ((i.toNat + 1) % ringLen r)

/-- PTP time at 8 ns (R369). -/
def ptpStamp (s : State) : Dword := ptpNow s &&& ~~~(7 : Dword)

/-- Writes of mortar into memory that exists. -/
def dmaWrite (a : Nat) (l : List Byte) (s : State) : State := if inRam a l.length then ramWrite a l s else s

/-- Delivers a frame to queue `q` of port `p`; `lanB` whether the first copy came from ETH1. -/
def ethDeliver (p q : Nat) (lanB : Bool) (full : List Byte) (s : State) : State :=
  let e := ethGet s p
  let r := ringGet s p q
  let strip := frTagged full && bitAt e.cfg 27
  let b := if strip then full.take 12 ++ full.drop 16 else full
  let d := descAt r r.head.toNat
  if !descReady s r then
    setSticky (ethPage p) 10 (ethCount p 4 (updRing p q (fun r => { r with drop := satInc r.drop }) s))
  else if leNat (ramRead s (d + 4) 2) < b.length then updRing p q (fun r => { r with drop := satInc r.drop }) s
  else
    let ts := frPtpEvent full
    let flags := 16384 * b2n ts + 8192 * b2n lanB + (if strip then 1024 * frPcp full + 512 else 0)
    let s1 := dmaWrite (leNat (ramRead s d 4)) b s
    let s2 := dmaWrite (d + 4) (leBytes 2 b.length ++ leBytes 2 flags ++ (if ts then leBytes 8 (ptpStamp s).toNat else [])) s1
    setSticky (ethPage p) 8 (ethCount p 0 (updRing p q (fun r => { r with head := ringNext r r.head })
      { s2 with free := s2.free + 1 }))

/-- Receive queue of a frame. -/
def frQueue (e : EthBlk) (b : List Byte) : Nat :=
  if frKept b then 4 else if frTagged b then fld e.cfg (2 * frPcp b) 2 else 0

/-- The duplicate table with a new entry (R365). -/
def prpNote (src : BitVec 48) (seq : Half) (s : State) : State :=
  let t := if 1024 ≤ s.prp.table.length then s.prp.table.drop 1 else s.prp.table
  { s with prp.table := t ++ [(src, seq)] }

/-- A frame that has passed the checks of the wire, for port `p`'s filters and queues; it arrived on port `on`. -/
def ethAccept (p on : Nat) (b : List Byte) (s : State) : State :=
  let e := ethGet s p
  if frType b = 0x8808 || !frForUs e b then s
  else if frTagged b && anyVid e && !vidEnabled e (frVid b) then ethCount p 5 s
  else if prpOn s then
    match frTrailer b with
    | some (seq, lan) =>
      let s1 := if lan = portLan on then s else ethCount 0 7 s
      if s1.prp.table.contains (frSrc b, seq) then ethCount 0 6 s1
      else ethDeliver p (frQueue e b) (on = 1) b (prpNote (frSrc b) seq s1)
    | none => ethDeliver p (frQueue e b) (on = 1) b s
  else ethDeliver p (frQueue e b) false b s

/-- Length of a frame on the wire, FCS included, before its trailer. -/
def wireLen (s : State) (b : List Byte) : Nat :=
  b.length + 4 - (if prpOn s && (frTrailer b).isSome then 6 else 0)

/-- R365 to R368: a frame arrives on a port; `bytes` run from the destination address to what precedes the FCS. -/
def execEthFrameReceive (p : Fin 2) (f : EthFrame) (s : State) : Out :=
  .next (
    if domUp s 7 && bitAt (ethGet s p.val).cfg 31 then
      if !f.fcsOk then ethCount p.val 2 s
      else if wireLen s f.bytes < 64 || 1522 < wireLen s f.bytes then ethCount p.val 3 s
      else ethAccept (if prpOn s then 0 else p.val) p.val f.bytes s
    else s)

/-- Puts a frame on a port's wire. -/
def putWire (p : Nat) (b : List Byte) (s : State) : State := updEth p (fun e => { e with sent := e.sent ++ [b] }) s

/-- Sends on one port, or on both with a trailer in PRP mode; a port that is not enabled sends nothing. -/
def ethSend (p : Nat) (b : List Byte) (s : State) : State :=
  let put (p : Nat) (b : List Byte) (s : State) : State := if bitAt (ethGet s p).cfg 31 then putWire p b s else s
  if prpOn s then
    let q := s.prp.seq
    { put 1 (withTrailer q 0xB b) (put 0 (withTrailer q 0xA b) s) with prp.seq := q + 1 }
  else put p b s

/-- R366, R367: the next handed transmit descriptor of a port, queue 8 before 7, 6 and 5. -/
def execEthFrameTransmit (p : Fin 2) (s : State) : Out :=
  .next (
    if domUp s 7 && bitAt (ethGet s p.val).cfg 31 && !(p.val = 1 && prpOn s) then
      match [8, 7, 6, 5].find? (fun q => descReady s (ringGet s p.val q)) with
      | some q =>
        let r := ringGet s p.val q
        let d := descAt r r.head.toNat
        let flags := leNat (ramRead s (d + 6) 2)
        let ts := flags / 16384 % 2 = 1
        let b := ramRead s (leNat (ramRead s d 4)) (leNat (ramRead s (d + 4) 2))
        let s1 := dmaWrite (d + 6) (leBytes 2 (flags % 32768) ++ (if ts then leBytes 8 (ptpStamp s).toNat else []))
          (ethSend p.val b s)
        setSticky (ethPage p.val) 9 (ethCount p.val 1 (updRing p.val q (fun r => { r with head := ringNext r r.head })
          { s1 with free := s1.free + 1 }))
      | none => s
    else s)

/-- Supervision frame of a doubly attached node (IEC 62439-3). -/
def supervisionFrame (s : State) : List Byte :=
  let mac := beOut 6 (ethGet s 0).mac.toNat
  let b := [0x01, 0x15, 0x4E, 0x00, 0x01, 0x00] ++ mac ++ [0x88, 0xFB, 0x00, 0x01] ++ beOut 2 s.prp.supSeq.toNat
    ++ [20, 6] ++ mac ++ [0, 0]
  b ++ List.replicate (60 - b.length) 0

/-- R365: every 2,000 ms, on both ports. -/
def execPrpSupervisionSend (s : State) : Out :=
  .next (
    if domUp s 7 && prpOn s && bitAt (ethGet s 0).cfg 31 then
      ethSend 0 (supervisionFrame s) { s with prp.supSeq := s.prp.supSeq + 1 }
    else s)

/-- R365: the oldest entry of the duplicate table is 400 ms old. -/
def execPrpEntryExpiry (s : State) : Out := .next { s with prp.table := s.prp.table.drop 1 }

/-! Registers and links (R364, R367, R389). -/

/-- CFG of a port. -/
def ethCfgWrite (p : Nat) (value : Word) (s : State) : State :=
  pageWriteIf (ethPage p) (fun s =>
    let old := (ethGet s p).cfg
    let prpCh := p = 0 && bitAt value 30 ≠ bitAt old 30
    if bitAt old 31 && (prpCh || fld value 28 2 ≠ fld old 28 2) then (setSticky (ethPage p) 12 s, false)
    else (updEth p (fun e => { e with cfg := value &&& (if p = 0 then 0xFC00FFFF else 0xBC00FFFF) }) s, true)) s

def execEthCfgWrite (p : Fin 2) (value : Word) (s : State) : Out := .next (ethCfgWrite p.val value s)

/-- CTL of a ring: writing EN = 1 restarts it. -/
def ethCtlWrite (p q : Nat) (value : Word) (s : State) : State :=
  pageWrite (ethPage p) (updRing p q (fun r =>
    let r1 := { r with ctl := value &&& 0x800007FF }
    if bitAt value 31 then { r1 with head := 0, tail := 0 } else r1)) s

def execEthQueueCtlWrite (p : Fin 2) (q : Fin 9) (value : Word) (s : State) : Out :=
  .next (ethCtlWrite p.val q.val value s)

def execEthLinkChange (p : Fin 2) (link g1 mdix : Bool) (s : State) : Out :=
  .next (
    if domUp s 7 then
      let s1 := updEth p.val (fun e => { e with link := link, g1 := g1, mdix := mdix }) s
      if (ethGet s p.val).link = link then s1
      else blockEv (ethPage p.val) 1 ((b2n link + 2 * b2n g1) * 2 ^ 16) (setSticky (ethPage p.val) 11 s1)
    else s)

/-! PTP (R370, R371). -/

def ptpAsk (op : Nat) (req : Requester) (arg : BitVec 24) (s : State) : State :=
  issueCmd 0x3E req op arg (fun s =>
    if arg ≠ 0 then .done .badArg 0 s
    else .done .ok 0 { s with ptp.asked := s.ptp.asked ++ [(BitVec.ofNat 2 op, s.ptp.adjHi ++ s.ptp.adjLo)] }) s

def execPtpSet (req : Requester) (arg : BitVec 24) (s : State) : Out := .next (ptpAsk 1 req arg s)
def execPtpStep (req : Requester) (arg : BitVec 24) (s : State) : Out := .next (ptpAsk 2 req arg s)

/-- PTP time at a boundary: a course later, then set or stepped. -/
def ptpBoundary (s : State) : State :=
  s.ptp.asked.foldl (fun (s : State) (a : BitVec 2 × Dword) =>
    blockEv 0x3E 1 (a.1.toNat * 2 ^ 16) (setSticky 0x3E 8
      { s with ptp.time := if a.1 = 1#2 then a.2 else s.ptp.time + a.2 }))
    { s with ptp.time := s.ptp.time + 250000, ptp.asked := [] }

/-- A read of PTP_NOW_LO: latches the whole time for the requester. -/
def ptpNowRead (req : Requester) (s : State) : State × Word :=
  if domUp s 7 then
    let t := ptpNow s
    ({ s with ptp.now := s.ptp.now.set req.reader t, free := s.free + 1 }, t.setWidth 32)
  else (offAccess 7 s, 0)

def execPtpNowRead (req : Requester) (s : State) : Out :=
  let r := ptpNowRead req s
  .next (setResp [r.2] r.1)

/-- VALID changes. -/
def ptpValid (v : Bool) (s : State) : State :=
  if s.ptp.valid = v then s
  else blockEv 0x3E 2 (b2n v * 2 ^ 16) ((if v then id else setSticky 0x3E 9) { s with ptp.valid := v })

/-- R371: TMO has passed since SYNCED was written 1. -/
def execPtpValidExpiry (s : State) : Out := .next (if domUp s 7 && s.ptp.synced then ptpValid false s else s)

/-- A write of PTP_CTL. -/
def ptpCtlWrite (value : Word) (s : State) : State :=
  pageWrite 0x3E (fun s => ptpValid (bitAt value 31)
    { s with ptp.synced := bitAt value 31, ptp.tmo := BitVec.ofNat 8 (fld value 0 8) }) s

/-! Service port (R386, R387). -/

/-- The network island runs: PD7 is up, and no supply loss holds the island in reset (R426). -/
def netUp (s : State) : Bool := domUp s 7 && !s.sys.shedding

/-- Answers a transaction with a status byte. -/
def hostAnswer (st : Byte) (s : State) : State := { s with resp := { hostStatus := some st } }

/-- A transaction refused with FORMAT or DENIED is counted (R388). -/
def hostRefuse (st : Byte) (s : State) : State :=
  hostAnswer st (setSticky 0x49 9 { s with host.format := satInc s.host.format })

/-- R387: the plan key (0) or the safety key (1). -/
def execKeyInstall (n : Fin 2) (key mac : List Byte) (s : State) : Out :=
  let held := if n.val = 0 then s.plan.key else s.safe.key
  .next (
    if netUp s && s.host.usb then
      if key.length ≠ 32 || mac.length ≠ 32 then hostRefuse 0x5A s
      else
        let ok := match held with
          | some k => hmacSha256 k key = mac
          | none => mac = List.replicate 32 0
        if !ok || (n.val = 1 && (claimed s || !domUp s 1)) then hostRefuse 0x99 s
        else hostAnswer 0xC3 (if n.val = 0 then { s with plan.key := some key } else { s with safe.key := some key })
    else s)

/-- R386: a USB host configures the service port, or detaches. -/
def execServicePortConfigured (on : Bool) (s : State) : Out :=
  .next (if netUp s then { s with host.usb := on } else s)

/-- R384: nCS rises before the host's CRC is complete: nothing is done. -/
def execHostCsAbort (s : State) : Out := .next (if netUp s then { s with host.cs := false } else s)

end Sys2Proof.Machine
end

