-- ==== Sys2Proof/Machine/Log.lean ====
section
/-! DEFINITION. The log store (ch. 15): APPEND, LOG_READ, CAPTURE, commits, failures, start, archive; and SAMPLE_READY,
which feeds the trip lanes, the course and the captures. -/

namespace Sys2Proof.Machine

/-- DATA of a LOG event (R403). -/
def logEvent (code p detail : Nat) (s : State) : State := blockEv 0x40 code (p + detail * 2 ^ 16) s

/-- FAULT is set, with the bit of R403 that says why. -/
def logFault (p why : Nat) (s : State) : State :=
  if s.log.fault then s else logEvent 1 p why { s with log.fault := true }

/-! Samples (R95, R393). -/

/-- A word of a capture (R393): counts, INVALID and TAG of the sample the latch holds; a sample taken in maintenance is
INVALID (R117). -/
def capWord (maint : Bool) (x : Sample) : Word :=
  pack 32 [(8, x.raw.toNat % 2 ^ 24), (2, b2n (bitAt x.status 14 || maint)), (0, fld x.tag 0 2)]

/-- A decimator delivers a sample, or the window of an output channel. -/
def sampleReady (c : Nat) (m : Conversion) (s : State) : State :=
  if c < 32 then
    let s1 := sampleUc c m s
    if tileUp s (anaTile c) && ucSamples s c && domUp s 3 then
      let x := s1.course.latch.get {} c
      capSample c x.stamp (capWord (inMaint s c) x) s1
    else s1
  else sampleLi (c - 32) m s

def execSampleReady (c : Fin 80) (m : Conversion) (s : State) : Out := .next (sampleReady c.val m s)

/-! APPEND and READ (R395, R402). -/

/-- Cuts a list into records of 32 bytes. -/
def cut32 : Nat → List Byte → List (List Byte)
  | 0, _ => []
  | n + 1, b => b.take 32 :: cut32 n (b.drop 32)

def appendLog (req : Requester) (arg : BitVec 24) (s : State) : State :=
  issueCmd 0x40 req 1 arg (fun s =>
    let n := fld s.log.len 0 17
    let a := s.log.addr.toNat
    if arg ≠ 0 || n % 32 ≠ 0 || n < 32 || 4096 < n || a % 4 ≠ 0 || !inRam a n then .done .badArg 0 s
    else if !s.log.ready || s.sup.supplyLoss then .done .state 0 s
    else if bufShare 1 < bufUsed s 1 + n then .done .busy 0 s
    else
      .done .ok (fld ((logPart s 1).head + 1) 0 24) ((cut32 (n / 32) (ramRead s a n)).foldl (fun s r =>
        ringPut 1 (fun seq => leBytes 4 seq.toNat ++ r.drop 4) s) s)) s

def execAppend (req : Requester) (arg : BitVec 24) (s : State) : Out := .next (appendLog req arg s)

/-- Whole records from the front of a list that fit into `n` bytes, and whether one met was uncorrectable. -/
def takeRecords (bad : Option Word) : Nat → List (Word × List Byte) → List (Word × List Byte) × Bool
  | _, [] => ([], false)
  | n, x :: r =>
    if n < x.2.length then ([], false)
    else if bad = some x.1 then ([], true)
    else
      let t := takeRecords bad (n - x.2.length) r
      (x :: t.1, t.2)

/-- The items a READ starts at: RSEQ, or the oldest after it (R402). -/
def itemsFrom (s : State) (p : Nat) : List (Word × List Byte) :=
  (logPart s p).items.filter (fun x => 0 ≤ (x.1 - s.log.rseq).toInt)

/-- Bytes a READ copies, the SEQ it begins at, and whether it met an uncorrectable record. -/
def readBytes (s : State) (p : Nat) (bad : Option Word) : List Byte × Option Word × Bool :=
  let n := min (fld s.log.len 0 17) 65536
  if p < 3 then
    let t := takeRecords bad n (itemsFrom s p)
    (t.1.flatMap Prod.snd, t.1.head?.map Prod.fst, t.2)
  else
    match (itemsFrom s p).head? with
    | some x =>
      if bad = some x.1 then ([], none, true)
      else ((x.2.drop s.log.rofs.toNat).take n, some x.1, false)
    | none => ([], none, false)

/-- READ; `bad` is the SEQ of an uncorrectable record, if the flash holds one. -/
def readLog (req : Requester) (arg : BitVec 24) (bad : Option Word) (s : State) : State :=
  issueCmd 0x40 req 2 arg (fun s =>
    let p := fld arg 0 3
    let a := s.log.addr.toNat
    if argOutside arg 7 || 4 < p || a % 4 ≠ 0 || !inRam a (min (fld s.log.len 0 17) 65536) then .done .badArg 0 s
    else if !s.log.ready then .done .state 0 s
    else
      let r := readBytes s p bad
      let s1 := ramWrite a r.1 { s with log.rfirst := r.2.1.getD s.log.rfirst }
      if r.2.2 then .done .hwFault r.1.length (logFault p 1 s1) else .done .ok r.1.length s1) s

def execLogRead (req : Requester) (arg : BitVec 24) (bad : Option Word) (s : State) : Out :=
  .next (readLog req arg bad s)

/-! Captures (R393, R402). -/

def captureCmd (req : Requester) (arg : BitVec 24) (s : State) : State :=
  issueCmd 0x40 req 3 arg (fun s =>
    if argOutside arg 0xFF then .done .badArg 0 s
    else if (List.range 8).any (fun c => bitAt arg c && capOn s c) then
      .hold { s with log.capAsked := some (arg.setWidth 8) }
    else .done .state 0 s) s

def execCapture (req : Requester) (arg : BitVec 24) (s : State) : Out := .next (captureCmd req arg s)

/-- At a boundary: the configuration of the course that begins, and the CAPTURE command. -/
def logBoundary (s : State) : State :=
  let s1 := (List.range 8).foldl (fun s c => updCap c (fun x => { x with cfgF := x.cfg }) s) s
  match s1.log.capAsked with
  | some m =>
    let l := below 8 (fun c => bitAt m c && capOn s1 c)
    let hit := l.filter (fun c => (capGet s1 c).trig.isNone)
    endIfRunning 0x40 3 .ok (hit.foldl (fun a c => a + 2 ^ c) 0)
      (l.foldl (fun s c => capTrigger c (stampNow s 0) s) { s1 with log.capAsked := none })
  | none => s1

/-- Samples of a capture: from PRE ms before the trigger to POST tens of ms after it. -/
def capSpan (x : CapBlk) (t : Stamp) : List (Stamp × Word) :=
  x.hist.filter (fun h =>
    -(msUnits (min 250 (fld x.cfgF 8 8))) ≤ stampDiff h.1 t && stampDiff h.1 t ≤ msUnits (10 * fld x.cfgF 0 8))

/-- The bytes of a capture: its header and its samples. -/
def capBytes (s : State) (c : Nat) (x : CapBlk) (t : Stamp) (ptp : Dword) : List Byte :=
  let l := capSpan x t
  (List.range 64).map (Config.captureHeader c (genOf s 1 c) (ucRate (ucGet s c)) t.word ptp l.length
      (l.filter (fun h => stampDiff h.1 t < 0)).length)
    ++ l.flatMap (fun h => leBytes 4 h.2.toNat)

/-- The last sample of a capture is taken, or its channel takes no more. -/
def execCaptureComplete (c : Fin 8) (s : State) : Out :=
  let x := capGet s c.val
  .next (
    match x.trig with
    | some (t, ptp) =>
      if x.hist.any (fun h => msUnits (10 * fld x.cfgF 0 8) ≤ stampDiff h.1 t) || !capOn s c.val then
        let s1 := updCap c.val (fun x => { x with trig := none }) s
        if logTakes s then
          logEvent 4 3 c.val (ringPut 3 (fun _ => capBytes s c.val x t ptp) s1)
        else s1
      else s
    | none => s)

/-! Trend, commits, wear, failures (R392, R396, R400, R401). -/

/-- A PTP second ends. -/
def execTrendRecord (s : State) : Out := .next (trendEnd s)

/-- LOG_WEAR is true while REMAIN is below LEVEL. -/
def wearJudge (s : State) : State :=
  let w := decide (s.log.remain.toNat < fld s.log.wearlvl 0 10)
  let s1 := { s with log.wearWarned := w }
  if w && !s.log.wearWarned then logEvent 2 0 s.log.remain.toNat s1 else s1

/-- The next `n` accepted items of a partition are committed. -/
def commitItems (p n : Nat) (s : State) : State :=
  match ((uncommitted s p).take n).getLast? with
  | some x => updPart p (fun y => { y with commit := x.1 }) s
  | none => s

/-- A flash page is programmed and verified: its `n` items are committed.  `mean` and `top` are the mean and the
highest erase count of the blocks now. -/
def execLogCommit (p : Fin 5) (n mean top : Nat) (s : State) : Out :=
  .next (
    if domUp s 7 then
      wearJudge (journalServe { commitItems p.val n s with
        log.remain := BitVec.ofNat 16 (1000 - mean / 30), log.maxErase := satNat 16 top })
    else s)

/-- A block fails to program or erase, or (`silent`) the device does not answer. -/
def execLogBlockFailure (p : Fin 5) (silent : Bool) (s : State) : Out :=
  .next (
    if domUp s 7 then
      if silent then logFault p.val 4 s
      else if 0 < s.log.reserve then
        { s with log.reserve := s.log.reserve - 1, log.reserveLow := decide (s.log.reserve = 1) }
      else
        let s1 := updPart p.val (fun x => { x with shrunk := x.shrunk + 1 }) { s with log.reserveLow := true }
        logFault p.val 2 (updPart p.val (ringClear (partRoom s1 p.val) 0) s1)
    else s)

/-! Start and stop of the store (R398, R399). -/

/-- Pages of one partition whose CRC fails at start-up: (first SEQ, records a page holds). -/
def discardPages (p : Nat) (l : List (Word × Nat)) (s : State) : State :=
  if l.isEmpty then s
  else
    logEvent 5 p l.length (l.foldl (fun s x => updPart p (fun y =>
      let keep := y.items.filter (fun i => x.2 ≤ (i.1 - x.1).toNat)
      let last := x.1 + BitVec.ofNat 32 x.2 - 1
      { y with
        items := keep, size := itemBytes keep, discarded := satInc y.discarded
        head := if 0 < (last - y.head).toInt then last else y.head }) s) s)

/-- The store reads READY; `bad` lists the pages discarded, by partition. -/
def execLogReady (bad : List (Fin 5 × Word × Nat)) (s : State) : Out :=
  .next (
    if domUp s 7 && !s.log.ready then
      let s1 := (List.range 5).foldl (fun s p =>
        discardPages p ((bad.filter (fun x => x.1.val = p)).map Prod.snd) s) s
      let s2 := (List.range 5).foldl (fun s p => updPart p (fun y => { y with commit := y.head }) s) s1
      wearJudge (trendSpoil (journalServe { s2 with log.ready := true }))
    else s)

/-- Everything accepted is committed. -/
def commitAll (s : State) : State :=
  (List.range 5).foldl (fun s p => updPart p (fun y => { y with commit := y.head }) s) s

/-- The store stops with PD7: the buffer is committed; without the flush reserve of a supply loss the manual does not
say whether it is (R397). -/
def logStop (s : State) : State :=
  let lost := s.log.lossRisk && bitAt (Config.word s.free) 0
  let s1 := if lost then (List.range 5).foldl (fun s p => updPart p (fun y =>
      let keep := y.items.filter (fun x => (x.1 - y.commit).toInt ≤ 0)
      { y with items := keep, size := itemBytes keep }) s) s
    else commitAll s
  let c := s1.log
  trendSpoil { s1 with
    free := s.free + 1
    log := { reserve := c.reserve, remain := c.remain, maxErase := c.maxErase
             wearWarned := c.wearWarned, latches := c.latches, served := c.served
             parts := ⟨c.parts.cells.map (fun x => (x.1, { x.2 with merged := 0 }))⟩ } }

/-! The plan archive (R394). -/

/-- TAG of an image's bytes. -/
def imgTag (b : List Byte) : List Byte := b.drop (b.length - 32)

def imageBytes (s : State) (x : Bool × Nat) : List Byte :=
  let b := readImage s x.1 x.2
  b.take (imgLen b)

/-- Whether an archived image is the boot image, the alternate or the source of a journalled district. -/
def archiveKept (s : State) (b : List Byte) : Bool :=
  (s.plan.boot.toList ++ s.plan.alt.toList
    ++ s.plan.districts.cells.flatMap (fun (_, d) => d.journal.toList.map (fun j => (j.bank, j.block)))).any
      (fun x => imgTag (imageBytes s x) = imgTag b)

/-- The ring after the oldest images that may go have made room, if enough of them may. -/
def archiveFit (kept : List Byte → Bool) (room need : Nat) : Nat → List (Word × List Byte) → Option (List (Word × List Byte))
  | 0, l => if itemBytes l + need ≤ room then some l else none
  | n + 1, l =>
    if itemBytes l + need ≤ room then some l
    else match l.findIdx? (fun x => !kept x.2) with
      | some i => archiveFit kept room need n (l.eraseIdx i)
      | none => none

def archiveImage (x : Bool × Nat) (s : State) : State :=
  let b := imageBytes s x
  let y := logPart s 4
  if y.items.any (fun i => imgTag i.2 = imgTag b) then s
  else
    match archiveFit (archiveKept s) (partRoom s 4) b.length y.items.length y.items with
    | some l =>
      let s1 := ringPut 4 (fun _ => b) (updPart 4 (fun y => { y with items := l, size := itemBytes l }) s)
      logEvent 3 4 (fld (logPart s1 4).head 0 16) (updPart 4 (fun y => { y with commit := y.head }) s1)
    | none => updPart 4 (fun y => { y with merged := satInc y.merged }) s

/-- The source image of the oldest load or completed update not yet archived is copied. -/
def execPlanArchive (s : State) : Out :=
  .next (
    match s.loader.archive with
    | x :: r => if logTakes s then archiveImage x { s with loader.archive := r } else s
    | [] => s)

end Sys2Proof.Machine
end

