-- ==== Sys2Proof/Machine/Panel.lean ====
section
/-! DEFINITION. The annunciator panel (ch. 16): updates, gates, banner, clears and redraws, glass and crack loop. -/

namespace Sys2Proof.Machine

def area (s : State) (k : Nat) : PanelArea := s.panel.areas.get {} k
def updArea (k : Nat) (f : PanelArea → PanelArea) (s : State) : State :=
  { s with panel.areas := s.panel.areas.upd {} k f }

/-- DATA of a PANEL event (R419); `detail` stands in bits [31:16]. -/
def panelEvent (code k detail : Nat) (s : State) : State := blockEv 0x41 code (k + detail * 2 ^ 16) s

/-- The panel exists and its island is up (R1). -/
def panelUp (s : State) : Bool := s.sys.variant = .p && domUp s 7

/-! Areas and pixels (R404 to R406). -/

/-- Rectangle of an area: x, y, width, height. -/
structure Rect where
  x : Nat
  y : Nat
  w : Nat
  h : Nat
  deriving DecidableEq, Repr

def areaBody (s : State) (k : Nat) : List Byte := entBody (planEntry s 0x0B k)

def areaRect (s : State) (k : Nat) : Rect :=
  let b := areaBody s k
  ⟨u16At b 0, u16At b 2, u16At b 4, u16At b 6⟩

def wholePanel : Rect := ⟨0, 0, 1024, 768⟩
def bannerStrip (s : State) : Rect := ⟨0, if s.panel.pos then 672 else 0, 1024, 96⟩

/-- A requester in OWNERS. -/
def mayUpdate (s : State) (k : Nat) (req : Requester) : Bool :=
  req ≠ .safe && bitAt (BitVec.ofNat 8 (bAt (areaBody s k) 8)) req.reader

/-- Address of the first byte of row `r`. -/
def rowAt (x y r : Nat) : Nat := (y + r) * 512 + x / 2

/-- Bytes of a rectangle, row by row. -/
def readRect (m : Mem) (r : Rect) : List Byte :=
  (List.range r.h).flatMap (fun i => Mem.readN 0xFF m (rowAt r.x r.y i) (r.w / 2))

def writeRect (x y w : Nat) : Nat → Mem → List Byte → Mem
  | 0, m, _ => m
  | n + 1, m, b => writeRect x (y + 1) w n (Mem.writeN 0xFF m (rowAt x y 0) (b.take (w / 2))) (b.drop (w / 2))

/-- What a fast update shows of two pixels. -/
def fastByte (b : Byte) : Byte :=
  pack 8 [(0, if fld b 0 4 < 8 then 0 else 15), (4, if fld b 4 4 < 8 then 0 else 15)]

/-- A panel that is black throughout. -/
def blackPanel : Mem := ⟨(List.range 393216).map (fun i => (i, 0))⟩

/-! Waveforms and energy (R410, R412). -/

/-- Frame time of a band, ms. -/
def frameMs (band : Nat) : Nat :=
  match band with | 0 => 40 | 1 => 30 | 2 => 20 | 3 => 15 | 4 => 12 | _ => 10

def waveMs (band : Nat) (fast : Bool) : Nat := frameMs band * (if fast then 26 else 65)

/-- E of an update, mJ, rounded up. -/
def panelEnergy (ms pixels : Nat) : Nat := (ms * (3932160 + 18 * pixels) + 78643199) / 78643200

/-- Band of a temperature in 0.01 °C, without hysteresis. -/
def bandOf (t : Int) : Nat := min 11 ((t + 2000) / 750).toNat

/-- Band after a reading: a higher band at its boundary, a lower one 0.5 K below it. -/
def bandNext (band : Nat) (t : Int) : Nat :=
  if band < bandOf t then bandOf t else if bandOf (t + 50) < band then bandOf (t + 50) else band

/-- Updates that run. -/
def panelRuns (s : State) : List PanelRun := (List.range 34).filterMap (fun k => (area s k).run)

/-- Energy still due to one update. -/
def runDue (s : State) (r : PanelRun) : Nat :=
  match r.start with
  | none => r.energy
  | some c =>
    let all := 4 * r.dur
    (r.energy * (all - since s c) + all - 1) / max 1 all

/-- C of R412. -/
def panelDue (s : State) : Nat := ((panelRuns s).map (runDue s)).sum

/-- The gate of R412 for an update of energy `e`. -/
def holdupGate (s : State) (e : Nat) : Bool :=
  panelDue s + e ≤ 600 && panelDue s + e + 900 ≤ s.sup.avail.toNat

/-- The flush reserve is not held (R425). -/
def flushRisk (s : State) : Bool := s.sup.avail.toNat < panelDue s + 750

def runOverlaps (r : Rect) (u : PanelRun) : Bool :=
  r.x < u.x + u.w && u.x < r.x + r.w && r.y < u.y + u.h && u.y < r.y + r.h

/-- Gates of R408 that hold for every drive. -/
def driveGate (s : State) (e : Nat) : Bool :=
  s.panel.ready && !s.panel.crack && !s.panel.cold && !s.sup.supplyLoss && holdupGate s e

def pendEnergy (s : State) (k : Nat) : Nat :=
  let r := areaRect s k
  panelEnergy (waveMs s.panel.band ((area s k).pend.getD false)) (r.w * r.h)

/-- A pending update of area `k` could start now (R408). -/
def canStart (s : State) (k : Nat) : Bool :=
  k < 32 && (area s k).pend.isSome && (area s k).run.isNone
    && !(panelRuns s).any (runOverlaps (areaRect s k)) && decide ((panelRuns s).length < 4)
    && s.panel.clears = 0 && s.panel.redraws = 0 && driveGate s (pendEnergy s k)

/-- No other update that could start has waited longer. -/
def firstToStart (s : State) (k : Nat) : Bool :=
  (List.range 32).all (fun j => j = k || !canStart s j || (area s k).since < (area s j).since
    || ((area s k).since = (area s j).since && k < j))

/-- Begins an update: the intent record first, then the copy (R415, R406). -/
def beginRun (k : Nat) (r : Rect) (fast : Bool) (pix : List Byte) (s : State) : State :=
  let ms := waveMs s.panel.band fast
  updArea k (fun a => { a with
    pend := none
    run := some { fast := fast, x := r.x, y := r.y, w := r.w, h := r.h, band := s.panel.band
                  energy := panelEnergy ms (r.w * r.h), dur := ms, pix := pix } })
    { s with panel.intent := if s.panel.intent.contains k then s.panel.intent else s.panel.intent ++ [k] }

/-! Commands (R407, R413, R417, R418). -/

/-- UPDATE and CLEAR_PANEL are refused. -/
def panelBarred (s : State) : Bool := s.sup.supplyLoss || s.panel.crack

def panelUpdate (req : Requester) (arg : BitVec 24) (s : State) : State :=
  issueCmd 0x41 req 1 arg (fun s =>
    let k := fld arg 0 5
    let a := area s k
    if argOutside arg 0x11F || !planned s 0x0B k then .done .badArg 0 s
    else if !mayUpdate s k req then .done .denied 0 s
    else if panelBarred s then .done .state 0 s
    else
      let s0 := dropPanelPend k s
      let s1 := updArea k (fun a => { a with pend := some (bitAt arg 8), since := s0.panel.ticket })
        { s0 with panel.ticket := s0.panel.ticket + 1 }
      .done .ok (if a.pend.isSome then 2 else if canStart s1 k && firstToStart s1 k then 0 else 1) s1) s

def execPanelUpdate (req : Requester) (arg : BitVec 24) (s : State) : Out := .next (panelUpdate req arg s)

def panelCancel (req : Requester) (arg : BitVec 24) (s : State) : State :=
  issueCmd 0x41 req 2 arg (fun s =>
    let k := fld arg 0 5
    if argOutside arg 0x1F || !planned s 0x0B k then .done .badArg 0 s
    else .done .ok (b2n (area s k).pend.isSome) (updArea k (fun a => { a with pend := none }) s)) s

def execPanelCancel (req : Requester) (arg : BitVec 24) (s : State) : Out := .next (panelCancel req arg s)

/-- Drops every pending update, counted in LOST. -/
def dropAllPend (s : State) : State := (List.range 32).foldl (fun s k => dropPanelPend k s) s

def clearPanel (req : Requester) (arg : BitVec 24) (s : State) : State :=
  issueCmd 0x41 req 3 arg (fun s =>
    if arg ≠ 0 then .done .badArg 0 s
    else if panelBarred s then .done .state 0 s
    else
      let s1 := dropAllPend s
      .done .ok 0 { s1 with panel.clears := if s1.panel.clears = 0 then 2 else s1.panel.clears }) s

def execClearPanel (req : Requester) (arg : BitVec 24) (s : State) : Out := .next (clearPanel req arg s)

/-! Starts, copies and ends (R406, R408, R415). -/

/-- A drive of the whole panel starts, once nothing else runs. -/
def startWhole (s : State) : State :=
  if (panelRuns s).isEmpty && driveGate s (panelEnergy (waveMs s.panel.band false) 786432) then
    beginRun 33 wholePanel false [] s
  else s

/-- Area `k` starts its pending update; 33 is the next drive of a CLEAR_PANEL. -/
def execPanelUpdateStart (k : Fin 34) (s : State) : Out :=
  .next (
    if panelUp s then
      if k.val = 33 then (if s.panel.clears ≠ 0 && s.panel.redraws = 0 then startWhole s else s)
      else if canStart s k.val && firstToStart s k.val then
        let r := areaRect s k.val
        beginRun k.val r ((area s k.val).pend.getD false) (readRect s.panel.frame r) s
      else s
    else s)

/-- The start-up redraw begins its next drive. -/
def execPanelRedraw (s : State) : Out :=
  .next (if panelUp s && s.panel.redraws ≠ 0 then startWhole s else s)

/-- The copy ends: the target image holds the pixels, and the drive begins. -/
def execPanelCopyDone (k : Fin 34) (s : State) : Out :=
  .next (
    if panelUp s then
      match (area s k.val).run with
      | some r =>
        if r.start.isSome then s
        else
          let s1 := updArea k.val (fun a => { a with run := some { r with start := some s.course.cn } }) s
          if k.val = 33 then
            if s.panel.redraws = 0 then { s1 with panel.target := {} } else s1
          else { s1 with panel.target := writeRect r.x r.y r.w r.h s.panel.target r.pix }
      | none => s
    else s)

/-- What the glass shows after an update. -/
def showRun (r : PanelRun) (s : State) : State :=
  { s with panel.glassImg := writeRect r.x r.y r.w r.h s.panel.glassImg (if r.fast then r.pix.map fastByte else r.pix) }

/-- Rows of the banner strip that an update covers. -/
def coversStrip (s : State) (r : PanelRun) : Bool :=
  let b := bannerStrip s
  r.y ≤ b.y && b.y + b.h ≤ r.y + r.h

/-- An area's update is done. -/
def areaDone (k : Nat) (r : PanelRun) (s : State) : State :=
  panelEvent 1 k (b2n r.fast + 2 * r.band) { showRun r s with
    panel.last := some (s.ptp.valid, (ptpNow s).toNat / 1000000000)
    panel.banner := s.panel.banner && !coversStrip s r
    free := s.free + 1 }

/-- A drive of the whole panel is done. -/
def wholeDone (s : State) : State :=
  if s.panel.redraws ≠ 0 then
    let s1 := { s with
      panel.glassImg := if s.panel.redraws = 3 then blackPanel else if s.panel.redraws = 2 then {} else s.panel.target
      panel.redraws := s.panel.redraws - 1 }
    if s.panel.redraws = 1 then
      panelEvent 3 0 0 { s1 with
        panel.banner := s.panel.banner || s.panel.intent.contains 32, panel.intent := [] }
    else s1
  else if s.panel.clears = 2 then { s with panel.glassImg := blackPanel, panel.clears := 1 }
  else { s with
    panel.glassImg := {}, panel.clears := 0, panel.banner := false
    panel.intent := s.panel.intent.filter (· ≠ 33) }

/-- The waveform ends. -/
def execPanelUpdateDone (k : Fin 34) (s : State) : Out :=
  .next (
    if panelUp s then
      match (area s k.val).run with
      | some r =>
        if r.start.isNone then s
        else
          let s1 := setSticky 0x41 8 (updArea k.val (fun a => { a with run := none, doneCn := s.course.cn }) s)
          if k.val = 33 then wholeDone s1
          else
            let s2 := { s1 with panel.intent := s1.panel.intent.filter (· ≠ k.val) }
            if k.val = 32 then
              panelEvent 6 0 (b2n s.panel.pos) { showRun r s2 with panel.banner := true }
            else areaDone k.val r s2
      | none => s
    else s)

/-! The banner (R413, R414). -/

/-- SEC of PANEL_LAST: the last content update's second of the day. -/
def lastSec (s : State) : Nat :=
  match s.panel.last with
  | some (_, t) => (((t : Int) + s.panel.clkOfs.toInt) % 86400).toNat
  | none => 0

/-- The supply-loss signal is raised: no further update starts. -/
def panelLoss (s : State) : State :=
  if panelUp s then { dropAllPend s with panel.bannerOwed := true } else s

/-- The running updates are done: the banner starts, or is not drawn. -/
def execPanelBannerDraw (s : State) : Out :=
  .next (
    if panelUp s && s.panel.bannerOwed && (panelRuns s).isEmpty then
      let s1 := { s with panel.bannerOwed := false }
      if s.panel.crack || s.panel.cold || s.sup.avail.toNat < 450 then s1
      else
        beginRun 32 (bannerStrip s) true
          ((List.range 49152).map (Config.bannerByte (s.panel.last.map (fun x => (x.1, lastSec s))))) s1
    else s)

/-! Glass temperature and crack loop (R410, R417). -/

def execGlassTempRead (temp : Half) (s : State) : Out :=
  .next (
    if panelUp s then
      let cold := decide (temp.toInt < -2000)
      let s1 := { s with
        panel.glass := temp, panel.cold := cold, panel.band := bandNext s.panel.band temp.toInt }
      if cold = s.panel.cold then s1 else panelEvent 5 0 (b2n cold) s1
    else s)

/-- Whether a corrected reading is out of limits. -/
def loopBad (s : State) (meas : Half) : Bool :=
  meas = 0xFFFF || s.panel.loopRef.toNat < 10 * ((meas.toNat : Int) - s.panel.loopRef.toNat).natAbs

def execCrackLoopMeasure (meas : Half) (s : State) : Out :=
  .next (
    if panelUp s then
      let s1 := { s with panel.loopMeas := meas, panel.firstLoop := false }
      if loopBad s meas then
        if s.panel.crack then s1
        else
          let s2 := dropAllPend { s1 with panel.crack := true }
          panelEvent 2 0 meas.toNat
            ((List.range 34).foldl (fun s k => updArea k (fun a => { a with run := none }) s) s2)
      else if s.panel.firstLoop then { s1 with panel.crack := false }
      else s1
    else s)

/-! PD7 comes up, and goes off (R404, R411, R415, R416). -/

/-- `trimOk`: the trim map's CRC passes. -/
def panelStart (trimOk : Bool) (s : State) : State :=
  if s.sys.variant = .p then
    let p := s.panel
    let s1 := { s with panel :=
      { ready := true, trimBad := !trimOk, redraws := if p.intent.isEmpty then 0 else 3
        crack := p.crack, banner := p.banner, loopRef := p.loopRef
        clkOfs := p.clkOfs, pos := p.pos, last := p.last
        target := p.target, glassImg := p.glassImg, intent := p.intent } }
    if trimOk then s1 else panelEvent 4 0 0 s1
  else s

/-- Every running update is done before PD7 goes off (R416). -/
def panelQuiet (s : State) : Bool := (panelRuns s).isEmpty

end Sys2Proof.Machine
end

