-- ==== Sys2Proof/Machine/Power.lean ====
section
/-! DEFINITION. Power, start-up and repair in service (ch. 17), the clock (R13 to R15) and DRAM errors (R25). -/

namespace Sys2Proof.Machine

/-- Events of SYS and SUP (R438); `detail` stands in bits [31:16]. -/
def sysEvent (code detail : Nat) (s : State) : State := blockEv 0 code (detail * 2 ^ 16) s
def supEvent (code detail : Nat) (s : State) : State := blockEv 1 code (detail * 2 ^ 16) s

/-- IN_SERVICE: SOLO or active, with gates enabled. -/
def inService (s : State) : Bool := (s.red.state = .solo || s.red.state = .active) && s.red.gates

/-! What each domain keeps, and loses (R6, R28, R63, R472). -/

/-- Calibration data kept without power. -/
def calKept (c : CalBlk) : CalBlk :=
  { pred := c.pred, predBase := c.predBase, predDay := c.predDay, devA := c.devA, dev100 := c.dev100, dev10k := c.dev10k
    dateValid := c.dateValid, days := c.days, dayCourses := c.dayCourses, lastDay := c.lastDay
    rateA := c.rateA, rate100 := c.rate100, rate10k := c.rate10k, aRef := c.aRef, a100 := c.a100, a10k := c.a10k
    ratioBase := c.ratioBase, ratioLast := c.ratioLast, aged := c.aged }

/-- STATE of district `n`, or the STATE it had before the verification that runs on it. -/
def settledState (s : State) (n : Nat) (d : District) : DState :=
  if d.state = .verifying then
    ((((s.loader.verifying.filter (fun v => v.op = 3)).toList ++ s.loader.safeVerifying.toList).find?
      (fun v => v.district = n)).map (·.prev)).getD .idle
  else d.state

/-- Journal record of a district as PD3 leaves it: an update that had not completed is recorded as such (R43); a
district that has never completed one has no source to be recorded. -/
def journalKept (s : State) (n : Nat) (d : District) : Option JournalRec :=
  if (settledState s n d = .updating || settledState s n d = .mixed) && d.gen ≠ 0 then
    some { bank := d.bank, block := d.block, gen := d.gen, complete := false }
  else d.journal

/-- Plan data kept without power: NOR, keys, boot images, journal. -/
def planKept (s : State) : PlanBlk :=
  let p := s.plan
  { districts := ⟨p.districts.cells.map (fun c => (c.1, { journal := journalKept s c.1 c.2 }))⟩
    boot := p.boot, alt := p.alt, nor := p.nor, erases := p.erases, key := p.key }

def ethsReset (s : State) : Tab EthBlk := ⟨s.eths.cells.map (fun c => (c.1, { mac := c.2.mac }))⟩

/-- TERM of a CAN port is a latching relay. -/
def cansReset (s : State) : Tab CanBlk := ⟨s.cans.cells.map (fun c => (c.1, { cfg := c.2.cfg &&& 0x02000000 }))⟩

/-- The network island at its reset values; PTP time runs on (R370). -/
def netReset (s : State) : State :=
  { s with
    eths := ethsReset s, cans := cansReset s, prp := {}, host := {}
    ptp := { time := s.ptp.time } }

/-- Code flash, of the core address map. -/
def flashOnly (m : Mem) : Mem := ⟨m.cells.filter (fun c => c.1 < 0x01000000)⟩

/-- Lanes, claim configuration and safety outputs of a plan: the safety island works by them while PD3 is off (R81). -/
def safetyEntries (s : State) : List Entry := s.plan.entries.filter (fun e => 0x20 ≤ e.ty)

/-- What goes with PD3. -/
def courseOff (s : State) : State :=
  { s with
    course := {}, square := {}, alarm := {}, evq := {}, hart := {}, maint := {}, loader := {}
    cal := calKept s.cal, tileCal := ⟨s.tileCal.cells.map (fun c => (c.1, { c.2 with xferFail := false, xferOk := 0 }))⟩
    plan := { planKept s with entries := if domUp s 1 then safetyEntries s else [] }, log.latches := {} }

/-- The safety island's copy of the plan goes with PD1, unless PD3 holds the plan. -/
def safetyOff (s : State) : State := if domUp s 3 then s else { s with plan.entries := [] }

/-- What goes with a tile domain: transactions and tests in progress, and the drive of its outputs is held (R434). -/
def tilesOff (lo hi : Nat) (s : State) : State :=
  let s1 := (List.range' lo (hi - lo)).foldl (fun s t => abortTileTests t s) s
  let s2 := hartAbort (fun c => lo ≤ anaTile c && anaTile c < hi) false s1
  (List.range 32).foldl (fun s n => ucResolve n s) s2

/-- A domain goes off. -/
def domainDown (d : Nat) (s : State) : State :=
  let off := { s with
    sys.domOn := setBit s.sys.domOn d false, sys.offSeen := setBit s.sys.offSeen d false }
  let s1 := match d with
    | 1 =>
      let s0 := match off.loader.safeVerifying with
        | some v => updDistrict v.district (fun x => { x with state := v.prev }) { off with loader.safeVerifying := none }
        | none => off
      safetyOff { s0 with safe.outTrip := 0, safe.outHold := 0, red.streetA := {}, red.streetB := {} }
    | 2 => { off with icu := {}, mem := { main := flashOnly s.mem.main } }
    | 3 => courseOff off
    | 4 => tilesOff 0 4 off
    | 5 => tilesOff 4 10 off
    | 6 => gatesOpen off
    | 7 => netReset (logStop (dropAllPend { off with
        panel.areas := ⟨off.panel.areas.cells.map (fun c => (c.1, { c.2 with run := none }))⟩ }))
    | _ => off
  domEvent s1

/-- Distinct source images of the district journal (R43). -/
def journalImages (s : State) : List (Bool × Nat) :=
  (s.plan.districts.cells.filterMap (fun c => c.2.journal.map (fun j => (j.bank, j.block)))).eraseDups

/-- Start-up verifies each of them in full; PLAN_LSTAT shows the last verification (R39, R43). -/
def judgeJournal (s : State) : State :=
  (journalImages s).foldl (fun s x => setLstat 0 (verifyImage s (readImage s x.1 x.2) (imgRoom x.2)) s) s

/-- No image loads: no plan, and no lanes of one. -/
def noImage (s : State) : State := { s with plan.entries := [] }

/-- The boot images as start-up loads them (R43, R44): the boot image, or the alternate without the journal; the plan
starts at the next boundary. -/
def bootLoad (s : State) : State :=
  let judge (x : Bool × Nat) : Fail := verifyImage s (readImage s x.1 x.2) (imgRoom x.2)
  match s.plan.boot with
  | none => noImage s
  | some x =>
    let r := judge x
    let s1 := setLstat 0 r s
    match r with
    | none => judgeJournal { s1 with plan.state := .loading, loader.starting := some x }
    | some (c, _) =>
      let s2 := planEvent 4 0 0 c s1
      match s.plan.alt with
      | none => noImage s2
      | some y =>
        let r2 := judge y
        let s3 := setLstat 0 r2 s2
        match r2 with
        | none => { s3 with plan.state := .loading, loader.starting := some y }
        | some _ => noImage s3

/-- Registers and states of the field island come up (R28, R271, R286), its gates no longer forced (R324). -/
def fieldUp (s : State) : State :=
  let s1 := (List.range 64).foldl (fun s k => loadPlanRegs (80 + k) s) { s with
    dig := {}, red.flt := {}, red.fltReg := {} }
  (List.range 64).foldl (fun s k => updDig k (fun c => { c with
    cfgF := c.cfg, debF := c.deb, octlF := c.octl, settling := digMode { c with cfgF := c.cfg } ≠ 0 }) s) s1

/-- Tiles of a domain come up: warm-up, rotation and registers start anew (R190, R200, R28, R119, R143). -/
def tilesUp (lo hi : Nat) (s : State) : State :=
  (List.range' lo (hi - lo)).foldl (fun s t =>
    tileTake t (tileRegs t (resetTileCal t (updTile t (fun _ => {}) s)))) s

/-- A domain comes up; `trim`: the panel's trim map passes its check. -/
def domainUp (d : Nat) (trim : Bool) (s : State) : State :=
  let on := clearHdrs d { s with
    sys.domOn := setBit s.sys.domOn d true, sys.offSeen := setBit s.sys.offSeen d false }
  let s1 := match d with
    | 1 => pd1Up on
    | 2 => icuFresh on
    | 3 => bootLoad on
    | 4 => tilesUp 0 4 on
    | 5 => tilesUp 4 10 on
    | 6 => fieldUp on
    | 7 => panelStart trim on
    | _ => on
  domEvent s1

/-! Start-up (R428). -/

/-- Step 3: domains; without a plan to load, start-up halts there. -/
def startDomains (trim : Bool) (s : State) : State :=
  let s1 := [1, 2, 3, 7].foldl (fun s d => domainUp d trim s) s
  { s1 with sys.step := 3, sys.halt := if s1.loader.starting.isSome then 0 else 2 }

/-- Step 2: the reference check. -/
def startRefs (refs trim : Bool) (s : State) : State :=
  if refs then startDomains trim { s with sys.step := 2, sys.halt := 0 }
  else { s with sys.step := 1, sys.halt := 1 }

/-- DAYS when PD0 comes up with the RTC at `rtc` s since 1970 (2000-01-01 is day 10,957), if both dates are valid. -/
def daysNow (s : State) (rtc : Option Nat) : Half :=
  match rtc with
  | some t => if s.cal.dateValid then satNat 16 (t / 86400 - 10957 - s.cal.lastDay.toNat) else s.cal.days
  | none => s.cal.days

/-- VS first reaches 4.5 V: step 1, with the straps, the clock check and the RTC; then as far as the checks allow. -/
def execPowerOn (role : Role) (tcxo refs trim : Bool) (rtc : Option Nat) (s : State) : Out :=
  .next (
    if s.sys.step = 0 && s.sys.halt = 0 then
      let s1 := { s with
        sys.domOn := 0x01, red := { role := role }, clk.tcxoOk := tcxo, sys.cause := 0, sys.resets := 0
        sup.rtcValid := rtc.isSome, sup.rtcSec := rtc.getD 0
        cal.dateValid := s.cal.dateValid && rtc.isSome, cal.days := daysNow s rtc
        ptp.time := (match rtc with
          | some t => BitVec.ofNat 64 (t * 1000000000)
          | none => Config.dword s.free)
        free := s.free + 1 }
      let s2 := agedEvent s s1
      if tcxo then startRefs refs trim { s2 with sys.step := 1 }
      else supEvent 7 0 (setSticky 1 8 { s2 with sys.halt := 3 })
    else s)

/-- The check that halts start-up is repeated (R428). -/
def execRefCheckRetry (refs trim : Bool) (s : State) : Out :=
  .next (if s.sys.halt = 1 then startRefs refs trim s else s)

/-- Start-up at a boundary: what follows the plan, the first square, the election and the gates (steps 4 to 10).  The
tiles come up once the plan runs, so that their pages accept no write before its values (R28). -/
def startupBoundary (s : State) : State :=
  if s.sys.step = 3 && s.plan.state = .running then
    let s1 := [4, 5].foldl (fun s d => domainUp d true s) s
    { s1 with sys.step := 5, sys.halt := 0 }
  else if s.sys.step = 5 && s.square.count ≠ 0 then
    startElection { domainUp 6 true s with sys.step := 7 }
  else if s.sys.step = 7 && s.red.state ≠ .electing then { s with sys.step := 8 }
  else if s.sys.step = 8 && (s.red.own = 0 || s.red.gates) then
    sysEvent 2 s.sys.cause.toNat { s with sys.step := 9 }
  else if s.sys.step = 9 && (List.range 10).all (fun t => !(tileGet s t).warm) then { s with sys.step := 10 }
  else s

/-! Node reset (R429, R430). -/

/-- Switches off the domains that are on, in the order given. -/
def shed (l : List Nat) (s : State) : State := l.foldl (fun s d => if domUp s d then domainDown d s else s) s

/-- A switch of domains in progress is overtaken: its command ends ABORTED (R27, R445). -/
def endSwitch (s : State) : State :=
  match s.sys.switching with
  | some (_, on) => endIfRunning 0 (if on then 2 else 1) .aborted 0 { s with sys.switching := none, sys.domBusy := 0 }
  | none => s

/-- A node reset, with its cause; PD0 stays up.  Without a good TCXO the other domains stay in reset (R13). -/
def nodeReset (cause : Nat) (refs trim : Bool) (s : State) : State :=
  let s1 := shed [6, 5, 4, 3, 2, 1, 7] (becomeIdle (endSwitch s))
  let s2 := { s1 with
    sys.cause := BitVec.ofNat 8 cause, sys.resets := satInc s1.sys.resets, sys.resetAsked := none
    sys.shedding := false, safe.pd1Reset := false, sup.returned := false
    red.state := .electing, red.election := false }
  if s2.clk.tcxoOk then startRefs refs trim s2 else { s2 with sys.step := 0, sys.halt := 3 }

/-- A node reset that was asked for takes place (R437, R429). -/
def resetBoundary (refs trim : Bool) (s : State) : State :=
  match s.sys.resetAsked with
  | some c => nodeReset c.toNat refs trim s
  | none => s

/-- nRST has been low for 10 µs (R385). -/
def execHostReset (refs trim : Bool) (s : State) : Out :=
  .next (if netUp s && s.host.rstEn then nodeReset 2 refs trim s else s)

def resetCmd (req : Requester) (arg : BitVec 24) (s : State) : State :=
  issueCmd 0 req 3 arg (fun s =>
    if argOutside arg 1 then .done .badArg 0 s
    else if !bitAt arg 0 && inService s then .done .state 0 s
    else .done .ok 0 { s with sys.resetAsked := some 3 }) s

def execReset (req : Requester) (arg : BitVec 24) (s : State) : Out := .next (resetCmd req arg s)

/-- CORE_RESET: TCM cleared, ICU stack emptied. -/
def coreReset (req : Requester) (arg : BitVec 24) (s : State) : State :=
  issueCmd 0 req 4 arg (fun s =>
    let m := fld arg 0 4
    if argOutside arg 0xF || m = 0 then .done .badArg 0 s
    else
      .done .ok m (sysEvent 3 m ((below 4 (fun c => bitAt arg c)).foldl (fun s c =>
        { s with
          mem.tcm := s.mem.tcm.erase c
          icu.targets := s.icu.targets.upd {} c (fun t => { t with stack := [], sleep := false, window := none }) }) s))) s

def execCoreReset (req : Requester) (arg : BitVec 24) (s : State) : Out := .next (coreReset req arg s)

/-! Switching domains in service (R431 to R433). -/

/-- The PD4 and PD5 row of R431. -/
def domainGuarded (s : State) (d : Nat) : Bool :=
  (d = 4 && (List.range 4).any (tileGuarded s)) || (d = 5 && (List.range' 4 6).any (tileGuarded s))

/-- Domains a DOMAIN_OFF switches, in their order (R432). -/
def offList (s : State) (d : Nat) : List Nat :=
  (if d = 1 || d = 3 then [6, 5, 4].filter (domUp s) else []) ++ [d]

def maskOfDoms (l : List Nat) : Nat := l.foldl (fun a d => a + 2 ^ d) 0

def domainCmd (on : Bool) (req : Requester) (arg : BitVec 24) (s : State) : State :=
  issueCmd 0 req (if on then 2 else 1) arg (fun s =>
    let d := fld arg 0 3
    let quietClaim := s.red.own = 0 && (s.red.state = .standby || s.red.state = .idle)
    let barred := if on then (d = 4 || d = 5 || d = 6) && !(domUp s 1 && domUp s 3)
      else if d = 7 then false
      else if d = 4 || d = 5 then domainGuarded s d
      else !quietClaim || (offList s d).any (domainGuarded s)
    if argOutside arg 7 || d = 0 || d = 2 then .done .badArg 0 s
    else if domUp s d = on then .done .ok 0 s
    else if notInService s || barred then .done .state 0 s
    else
      let l := if on then [d] else offList s d
      let m := BitVec.ofNat 8 (maskOfDoms l)
      let s1 := { s with sys.switching := some (m, on), sys.domBusy := m }
      .hold (if d = 7 && !on then dropAllPend s1 else s1)) s

def execDomainOff (req : Requester) (arg : BitVec 24) (s : State) : Out := .next (domainCmd false req arg s)
def execDomainOn (req : Requester) (arg : BitVec 24) (s : State) : Out := .next (domainCmd true req arg s)

/-- A demagnetisation clamp of some DIO still stands (R277). -/
def anyClamp (s : State) : Bool := (List.range 32).any (fun n => (dioGet s n).clamp)

/-- The switch ends (R433); PD7 goes off only when the panel is quiet (R416), PD6 after every clamp (R277). -/
def execDomainSwitchDone (trim : Bool) (s : State) : Out :=
  .next (
    match s.sys.switching with
    | some (m, on) =>
      if !on && ((bitAt m 7 && !panelQuiet s) || (bitAt m 6 && anyClamp s)) then s
      else
        let l := [6, 5, 4, 3, 1, 7].filter (fun d => bitAt m d)
        let s0 := { s with sys.switching := none, sys.domBusy := 0 }
        let s1 := l.foldl (fun s d => if on then domainUp d trim s else domainDown d s) s0
        endIfRunning 0 (if on then 2 else 1) .ok m.toNat s1
    | none => s)

/-! VS and the supply-loss sequence (R420, R426, R427). -/

/-- A sample of VS below 4.3 V, mV. -/
def execVsUvSet (vs : Half) (s : State) : Out :=
  let s1 := { s with sup.vs := vs, sup.dip := !s.sup.supplyLoss }
  .next (
    if s.sup.vsUv then s1 else supEvent 1 1 (setSticky 1 10 { s1 with sup.vsUv := true }))

/-- VS has stayed below 4.3 V for 2 ms. -/
def execSupplyLoss (vs : Half) (s : State) : Out :=
  .next (
    if s.sup.vsUv && !s.sup.supplyLoss then
      let risk := flushRisk s
      let s0 := endSwitch s
      let s1 := supEvent 2 (vs.toNat / 10) (setSticky 1 9 { s0 with
        sup.vs := vs, sup.dip := false, sup.supplyLoss := true, sup.losses := satInc s.sup.losses
        sys.shedding := true, log.lossRisk := risk })
      let s2 := panelLoss s1
      let s3 := if s2.red.state = .active then yieldNow 4 s2
        else if claimed s2 then becomeIdle s2
        else gatesOpen s2
      netReset (shed [6, 5, 4, 3, 2, 1] s3)
    else s)

/-- The panel and the banner are done: PD7 goes off. -/
def execShedPd7Off (s : State) : Out :=
  .next (
    if s.sys.shedding && domUp s 7 && panelQuiet s && !s.panel.bannerOwed then
      { domainDown 7 s with sys.shedding := false }
    else s)

/-- VS is back at or above 4.3 V: a dip ends; `held`: it has been at or above 4.5 V for 100 ms, and VS_UV clears. -/
def execVsUvClear (vs : Half) (held : Bool) (s : State) : Out :=
  let s1 := { s with
    sup.vs := vs, sup.dip := false
    sup.dips := if s.sup.dip && !s.sup.supplyLoss then satInc s.sup.dips else s.sup.dips }
  .next (
    if held && s.sup.vsUv then
      supEvent 1 0 { s1 with
        sup.vsUv := false, sup.supplyLoss := false
        sup.returned := s.sup.returned || s.sup.supplyLoss }
    else s1)

/-- The flush and the panel are done after VS has returned: a node reset. -/
def execSupplyReturn (refs trim : Bool) (s : State) : Out :=
  .next (
    if s.sup.returned && panelQuiet s && !s.panel.bannerOwed then nodeReset 1 refs trim s else s)

/-- The block without power: what PD0 and the islands keep in non-volatile memory. -/
def powerless (s : State) : State :=
  { sys := { variant := s.sys.variant, serial := s.sys.serial, domOn := 0 }
    sup := { cap := s.sup.cap }
    plan := planKept s
    cal := calKept s.cal
    tileCal := ⟨s.tileCal.cells.map (fun c => (c.1,
      { commitTransfer := c.2.commitTransfer, owesCommit := c.2.owesCommit }))⟩
    safe := { lastCause := s.safe.lastCause, key := s.safe.key }
    eths := ethsReset s
    cans := cansReset s
    log := { s.log with ready := false }
    panel := { s.panel with ready := false }
    mem := { main := flashOnly s.mem.main }
    resp := s.resp
    free := s.free
    pending := s.pending }

/-- PD0 goes off: the node has no power. -/
def execHoldupExhausted (s : State) : Out :=
  .next (
    if s.sup.vsUv && s.sup.supplyLoss && !domUp s 7 then
      powerless s
    else s)

/-! Field supplies and the hold-up store (R421 to R423). -/

/-- VF1 (0) or VF2 (1) has been out of limits for 1 ms. -/
def execVfFaultSet (n : Fin 2) (mv : Half) (s : State) : Out :=
  let s1 := if n = 0 then { s with sup.vf1 := mv, sup.vf1Fault := true } else { s with sup.vf2 := mv, sup.vf2Fault := true }
  let was := if n = 0 then s.sup.vf1Fault else s.sup.vf2Fault
  .next (if was then s1 else supEvent (3 + n.val) 1 (setSticky 1 (11 + n.val) s1))

def execVfFaultClear (n : Fin 2) (mv : Half) (s : State) : Out :=
  let s1 := if n = 0 then { s with sup.vf1 := mv, sup.vf1Fault := false }
    else { s with sup.vf2 := mv, sup.vf2Fault := false }
  let was := if n = 0 then s.sup.vf1Fault else s.sup.vf2Fault
  .next (if was then supEvent (3 + n.val) 0 s1 else s1)

/-- Both supplies have been below 10 V for 1 ms. -/
def execVfNoneSet (s : State) : Out :=
  .next (if s.sup.vfNone then s else supEvent 5 1 (setSticky 1 13 { s with sup.vfNone := true }))

def execVfNoneClear (s : State) : Out :=
  .next (
    if s.sup.vfNone then supEvent 5 0 { s with sup.vfNone := false, sup.vfBack := some s.course.cn } else s)

/-- Usable energy, mJ, from the voltage in 10 mV and C in µF (R423). -/
def holdupEnergy (volt cap : Half) : Nat := cap.toNat * (volt.toNat * volt.toNat - 1210000) / 20000000

/-- A measurement of the store; `cap` when a charge from below 20 V has measured C. -/
def execHoldupMeasure (volt : Half) (charging : Bool) (cap : Option Half) (s : State) : Out :=
  let c := cap.getD s.sup.cap
  let e := holdupEnergy volt c
  let low := decide (e < 2000)
  let s1 := { s with
    sup.volt := volt, sup.cap := c, sup.charging := charging, sup.avail := satNat 16 e, sup.holdupLow := low }
  .next (if low = s.sup.holdupLow then s1 else supEvent 6 (b2n low) s1)

/-! The clock (R13 to R15). -/

/-- The TCXO stops or drifts. -/
def execClockFault (s : State) : Out :=
  .next (
    if s.clk.tcxoOk then
      let s1 := supEvent 7 0 (setSticky 1 8 (endSwitch s))
      let s2 := shed [6, 5, 4, 3, 2, 1, 7] (becomeIdle { s1 with log.lossRisk := true })
      { s2 with
        clk.tcxoOk := false, sys.halt := 3, sys.step := 0, sys.resetAsked := none, safe.pd1Reset := false }
    else s)

/-- The TCXO has been within limits for 100 ms. -/
def execClockHoldEnd (refs trim : Bool) (s : State) : Out :=
  .next (
    if s.sys.halt = 3 then
      startRefs refs trim { becomeIdle s with
        clk.tcxoOk := true, sys.cause := 4, sys.step := 1, red.state := .electing, red.election := false }
    else s)

/-- 2 s have passed without a TRIM write. -/
def execDiscHoldover (s : State) : Out :=
  .next (
    if s.clk.en && 8000 ≤ s.clk.trimAge then { s with clk.holdover := true } else s)

/-- The applied correction moves by at most 1 ppb per course (R14, R15). -/
def clockMove (s : State) : State :=
  let aim := if s.clk.en then s.clk.trim else 0
  let a := s.clk.applied
  if s.clk.en && s.clk.holdover then s
  else { s with clk.applied := if a < aim then a + 1 else if aim < a then a - 1 else a }

/-- The clock at a boundary: the courses since TRIM was written are counted in PD0, whether or not CN runs (R15). -/
def clockBoundary (s : State) : State := clockMove { s with clk.trimAge := s.clk.trimAge + 1 }

/-- A write to CLK_DISC. -/
def clkDiscWrite (value : Word) (s : State) : State :=
  pageWrite 2 (fun s =>
    let t := (BitVec.ofNat 16 (fld value 0 16)).toInt
    { s with
      clk.en := bitAt value 16, clk.trim := max (-5000) (min 5000 t), clk.holdover := false
      clk.trimAge := 0 }) s

/-! DRAM errors (R25, R360). -/

/-- A read of the DRAM by an application core meets an error that cannot be corrected. -/
def execDramDoubleBitError (s : State) : Out :=
  .next (
    if domUp s 2 then
      { s with
        sys.dbe := satInc s.sys.dbe, sys.dramCn := some s.course.cn
        safe.dramFaults := if domUp s 1 then satInc s.safe.dramFaults else s.safe.dramFaults
        resp := { busError := true } }
    else s)

def execDramSingleBitError (s : State) : Out :=
  .next (if domUp s 2 then { s with sys.sbe := satInc s.sys.sbe } else s)

end Sys2Proof.Machine
end

