-- ==== Sys2Proof/Machine/Course.lean ====
section
/-! DEFINITION. The course (R31 to R33, R55 to R60, R72 to R76, R332): its faults, its boundary, and the standby's
re-phasing. -/

namespace Sys2Proof.Machine

/-! Faults (R73, R74, R88). -/

/-- The word COURSE_FAULT; POS holds the low 14 bits of a longer position (log entry 123). -/
def faultWord (s : State) : Word :=
  pack 32 [(31, b2n s.course.fltEngine), (16, s.course.fltWi), (2, s.course.fltPos % 16384), (0, s.course.fltCause.toNat)]

/-- The course in progress is faulted by engine `e`: 1 OVERRUN, 2 SLOT_ECC, 3 ORDER. -/
def faultCourse (e : Nat) (cause : BitVec 2) (s : State) : State :=
  let s1 := setSticky 0x10 8 { s with
    course.faulted := true, course.fltEngine := decide (e ≠ 0), course.fltWi := s.course.wi
    course.fltPos := (engine s e).pos, course.fltCause := cause, course.faultCn := s.course.cn
    course.faultSeen := true, course.faults := satInc s.course.faults }
  let s2 := blockEv 0x10 1 ((faultWord s1).toNat + s.course.cn.toNat * 2 ^ 32) s1
  let s3 := if domUp s2 1 then { s2 with
      safe.faultRun := satInc s2.safe.faultRun, safe.courseFaults := satInc s2.safe.courseFaults }
    else s2
  orderYield 1 s3

/-- A course that runs and is not faulted. -/
def courseRuns (s : State) : Bool := domUp s 3 && s.course.run && !s.course.faulted

/-- An engine has not executed END. -/
def notEnded (s : State) : Bool := !(s.course.e0.ended && s.course.e1.ended)

/-- Cycle 49,600 (R73). -/
def courseOverrun (s : State) : State :=
  if courseRuns s && notEnded s then faultCourse (if s.course.e1.ended then 0 else 1) 1 s else s

def execCourseOverrun (s : State) : Out := .next (courseOverrun s)

/-- A memory error of engine `e` (0: one bit, corrected and counted; 1: uncorrectable), or (2) an order fault.  The plan
format holds no mark 'produced in the same course' (R71), so the report of an order fault is believed (log entry 129). -/
def execCourseFault (e : Fin 2) (kind : Fin 3) (s : State) : Out :=
  .next (
    if courseRuns s then
      if kind.val = 0 then { s with course.ecc1 := satInc s.course.ecc1 }
      else faultCourse e.val (if kind.val = 1 then 2 else 3) s
    else s)

/-! The course that ends (R30, R74, R76). -/

/-- Its square is closed while the plan's state is RUNNING (R259), and its commands stand in the holding latches; a
faulted one leaves neither, and its records go back to those of the square before (R252). -/
def endCourse (s : State) : State :=
  if !s.course.run then s
  else if s.course.faulted then
    { s with
      course.dioLatch := s.course.dioHeld, course.ucLatch := s.course.ucHeld, square.writing := none
      square.work := s.square.kept }
  else
    let s1 := if s.square.closed.isSome then squarePublish s else s
    let q := closeSquare s1
    { s1 with
      square.closed := if s1.plan.state ≠ .running then none
        else some (if s1.red.state = .standby then mirrorSquare q s1 else q)
      course.dioHeld := s1.course.dioLatch, course.ucHeld := s1.course.ucLatch
      safe.faultRun := 0 }

/-- The sync that an active unit of a pair sends of the course that ends; a standby whose course was faulted reports the
fault to the peer in a header without the other parts (R74; log entry 143). -/
def sendSync (s : State) : State :=
  if s.red.state = .active && inPair s && s.course.run then buildSync (s.square.closed.getD (closeSquare s)) s
  else if s.red.state = .standby && s.course.run && s.course.faulted then
    { s with sync.out := some { cn := s.course.cn, wi := s.course.wi, faulted := true } }
  else s

/-- An engine at the start of a course: its prologue has run (R469). -/
def engineStart (base : Nat) (ran clear : Bool) (x : Engine) : Engine :=
  let load := if ran then BitVec.ofNat 16 x.cycles else x.load
  { x with
    ended := false, pos := 0, cycles := base - 1, load := load
    peak := if clear then 0 else if ran && x.peak.toNat < load.toNat then load else x.peak }

def wallNext (s : State) : Nat := if s.course.wi + 1 < s.plan.wall then s.course.wi + 1 else 0

/-- A wall ends: every tile that works counts it (R200). -/
def wallEnd (s : State) : State :=
  (List.range 10).foldl (fun s t =>
    if tileUp s t then updTileCal t (fun x => { x with walls := x.walls + 1 }) s else s) s

/-- One course less of warm-up for every tile whose domain is up (R190). -/
def warmTick (s : State) : State :=
  (List.range 10).foldl (fun s t =>
    if domUp s (if t < 4 then 4 else 5) then updTile t (fun x => { x with warmLeft := x.warmLeft - 1 }) s else s) s

/-- CN, WI and the engines of the course that begins (R31, R32). -/
def nextCourse (s : State) : State :=
  let ran := s.course.run && !s.course.faulted
  let c := s.course
  let s1 := warmTick { s with
    course.cn := c.cn + 1
    course.wi := if c.run then wallNext s else c.wi
    course.prevFaulted := c.run && c.faulted
    course.faulted := false
    course.clearPeak := false
    course.e0 := engineStart s.plan.base0 ran c.clearPeak c.e0
    course.e1 := engineStart s.plan.base1 ran c.clearPeak c.e1
    alarm.raised := [] }
  if c.run && wallNext s = 0 then wallEnd s1 else s1

/-! Plans and districts at a boundary (R46, R43, R54 to R60). -/

/-- STOP_PLAN takes effect: L and WI read 0 while no plan runs; a LOAD_PLAN taken meanwhile goes on (R46, R64). -/
def stopBoundary (s : State) : State :=
  match s.loader.stopping with
  | some forced =>
    let s1 := { s with
      loader.stopping := none, loader.back := .stopped
      plan.state := if s.plan.state = .loading then .loading else .stopped
      plan.wall := 0, course.wi := 0, course.run := false, square.closed := none, square.writing := none }
    if forced then becomeIdle s1 else s1
  | none => s

/-- Journalled districts whose source verifies, if the image is the boot image. -/
def journalSources (s : State) (x : Bool × Nat) : List (Nat × Bool × Nat) :=
  if s.plan.boot = some x then
    s.plan.districts.cells.filterMap (fun c => c.2.journal.bind (fun j =>
      if (verifyImage s (readImage s j.bank j.block) (imgRoom j.block)).isNone then some (c.1, j.bank, j.block) else none))
  else []

/-- Districts that run from the source of their last completed update show it (R43). -/
def showRestored (src : List (Nat × Bool × Nat)) (s : State) : State :=
  src.foldl (fun s x =>
    match (district s x.1).journal with
    | some j =>
      if j.complete then s
      else planEvent 3 x.1 (district s x.1).gen.toNat 0 (updDistrict x.1 (fun d => { d with
        restored := true, journal := some { j with complete := true } }) s)
    | none => s) s

/-- A loaded plan starts (R46); a unit without a claim whose field is up elects anew (R329). -/
def startBoundary (s : State) : State :=
  match s.loader.starting with
  | some x =>
    let src := journalSources s x
    let s1 := showRestored src (startPlan x.1 x.2 src { s with loader.starting := none, square.closed := none })
    let s2 := { s1 with
      course.e0 := engineStart s1.plan.base0 false false s1.course.e0
      course.e1 := engineStart s1.plan.base1 false false s1.course.e1 }
    if domUp s2 6 && 7 ≤ s2.sys.step && (s2.red.state = .idle || s2.red.state = .electing) then startElection s2 else s2
  | none => s

/-- The last step of an update has been applied (R58). -/
def completeUpdate (n : Nat) (s : State) : State :=
  let d := district s n
  let img := readImage s d.ubank d.ublock
  let s1 := updDistrict n (fun d => { d with
    state := .idle, gen := d.genTo, restored := false, bank := d.ubank, block := d.ublock
    cost0 := blobCost img n 0, cost1 := blobCost img n 1, newCost0 := 0, newCost1 := 0
    len := dirLen img n, newLen := 0
    journal := some { bank := d.ubank, block := d.ublock, gen := d.genTo } }) s
  planEvent 1 n d.genTo.toNat d.total { s1 with loader.archive := s1.loader.archive ++ [(d.ubank, d.ublock)] }

/-- One step of a district's update. -/
def stepDistrict (n : Nat) (s : State) : State :=
  match (district s n).state, (district s n).steps with
  | .updating, st :: r =>
    let s1 := updDistrict n (fun d => { d with steps := r, done := d.done + 1 }) (applyStep st s)
    if r.isEmpty then completeUpdate n s1 else s1
  | _, _ => s

/-- Steps a boundary applies to a district: one, none after a course that overran, or in a standby those the active unit
has applied (R55, R63, R337).  An update goes on stepping after STOP_PLAN (log entry 128). -/
def stepsNow (s : State) (n : Nat) : Nat :=
  if s.red.state = .standby then syncedSteps s n - (district s n).done
  else if s.course.prevFaulted && s.course.fltCause = 1 then 0 else 1

def districtsBoundary (s : State) : State :=
  (List.range 16).foldl (fun s n => iterate (stepDistrict n) (stepsNow s n) s) s

/-! The snapshot (R29, R83, R270). -/

/-- STATUS of a digital channel as the snapshot takes it. -/
def digStatus (s : State) (k : Nat) (changes : Nat) : Half :=
  let c := digGet s k
  let here := planned s (if k < 32 then 3 else 4) (k % 32)
  if !here then 0x4400
  else if !domUp s 6 then 0xC800
  else if digMode c = 0 then 0x4400
  else
    let reason := firstReason [(inMaint s (80 + k), 2), (digMode c = 1 && c.brk, 3), (c.settling, 8)]
    mkStatus reason (digFaultBits s k + min changes 3)

def digSnapNow (s : State) (k : Nat) : DSnap :=
  let c := digGet s k
  { inp := c.inp, stamp := c.stamp, changes := c.changes, status := digStatus s k c.changes }

/-- Samples, digital inputs and trips as they stand at the boundary. -/
def takeSnapshot (s : State) : State :=
  let dig : Tab DSnap := ⟨(List.range 64).map (fun k => (k, digSnapNow s k))⟩
  let lanes (f : Lane → Bool) : Dword :=
    BitVec.ofNat 64 ((List.range 64).foldl (fun a n => a + (if planned s 0x20 n && f (laneGet s n) then 2 ^ n else 0)) 0)
  let trips := tripMask s
  { s with
    course.prevIn := s.course.snap.dig
    course.snap := { ana := s.course.latch, dig := dig, tlTrip := lanes laneTripped, tlStale := lanes (·.stale)
                     toDio := trips.setWidth 32, toUc := (trips >>> 32).setWidth 32 }
    course.latch := ⟨s.course.latch.cells.map (fun c => (c.1, { c.2 with fresh := false }))⟩
    dig.chans := ⟨s.dig.chans.cells.map (fun c => (c.1, { c.2 with changes := 0 }))⟩ }

/-- Registers marked "next course" govern every channel whose tile or island works (R8). -/
def takeRegs (s : State) : State :=
  let s1 := (List.range 32).foldl (fun s n => if chanUp s n then ucTake n s else s) s
  let s2 := (List.range 48).foldl (fun s n => if chanUp s (32 + n) then liTake n s else s) s1
  if domUp s2 6 then (List.range 64).foldl (fun s k => digTake k s) s2 else s2

/-- Points that became active in the course that ended are no longer the newest; where it was faulted before its GROUP
words, those of the next course still find them (R231). -/
def clearRose (s : State) : State :=
  if s.course.prevFaulted then s
  else { s with alarm.points := ⟨s.alarm.points.cells.map (fun c => (c.1, { c.2 with rose := false }))⟩ }

/-- The working records of the course that begins: none is NEW yet (R261), and a fault leaves them as they stand (R252). -/
def recordsBoundary (s : State) : State :=
  let old (r : ARec) : ARec := { r with status := setBit r.status 4 false }
  let s1 := { s with
    square.work.header := headerAtStart s
    square.work.ana := ⟨s.square.work.ana.cells.map (fun (c : Nat × ARec) => (c.1, old c.2))⟩ }
  { s1 with square.kept := s1.square.work }

/-! The boundary. -/

/-- What the new course begins with, once CN has advanced.  Outputs whose trip had ended before this boundary take their
latch command; those whose trip ends at it hold the trip state until the next one (R82, R350). -/
def beginCourse (s : State) : State :=
  let s0 := { s with safe.outHold := 0 }
  let s1 := startBoundary (stopBoundary (yieldBoundary (pairCounts s0.course.cn (evqDrain s0))))
  let s2 := tilesBoundary (maintBoundary (loadSync (districtsBoundary (ptpBoundary s1))))
  let s3 := takeSnapshot (alarmBoundary (clearRose s2))
  let s4 := alarmCapture (safeBoundary s3)
  let s5 := logBoundary (clockBoundary (outputsBoundary (takeRegs s4)))
  recordsBoundary (calBoundary (hartBoundary (iepeBoundary (icuSleep { s5 with
    course.pulses := pulseAll s5.course.pulses }))))

/-- B(N + 1): course N ends and course N + 1 begins, if the course island is up; start-up goes on, and a node reset
that was asked for takes place.  `refs` and `trim` are what the checks of such a start find. -/
def courseBoundary (refs trim : Bool) (s : State) : State :=
  let s0 := safeTick s
  let s1 := if domUp s 3 then beginCourse (nextCourse (sendSync (syncMissed (endCourse (courseOverrun s0)))))
    else clockBoundary (ptpBoundary s0)
  resetBoundary refs trim (startupBoundary (daysBoundary s1))

def execCourseBoundary (refs trim : Bool) (s : State) : Out := .next (courseBoundary refs trim s)

/-- Syncs lost in the last 4,000 courses. -/
def syncsLost (s : State) : Nat := ((s.sync.lostRecent.filter (fun x => since s x.1 < 4000)).map Prod.snd).sum

/-- R332: a standby ends its course at the active unit's boundary and takes CN and WI, or measures its offset, in ns. -/
def execStandbyRephase (cn : Word) (wi : BitVec 12) (offset : Int) (s : State) : Out :=
  .next (
    if s.red.state = .standby && domUp s 3 then
      if !s.red.inStep || 5000 < offset.natAbs then
        let again := s.red.inStep
        let s1 := beginCourse { nextCourse { s with course.run := false } with
          course.run := s.course.run, course.cn := cn, course.wi := wi.toNat
          red.inStep := true, red.phase := BitVec.ofInt 32 offset, square.writing := none
          square.work := s.square.kept }
        if again then redEvent 7 (syncsLost s1) s1 else s1
      else { s with red.phase := BitVec.ofInt 32 offset }
    else s)

end Sys2Proof.Machine
end

