-- ==== Sys2Proof/Machine/Regs.lean ====
section
/-! DEFINITION. Reading registers (R4 to R6, R17, R26, R439 to R446): the common header and every page's own
registers.  A read of a register changes nothing, but for the registers of `busRead` in Bus.lean. -/

namespace Sys2Proof.Machine

/-- Ceiling of a number of courses in seconds (log entry 54). -/
def secsLeft (courses : Nat) : Nat := (courses + 3999) / 4000

/-- Low and high halves of a doubleword. -/
def lowWord (d : Dword) : Word := d.setWidth 32
def highWord (d : Dword) : Word := (d >>> 32).setWidth 32

/-- A word with bit `n` set for every number that passes. -/
def maskWord (p : Nat → Bool) : Word := pack 32 ((List.range 32).map (fun n => (n, b2n (p n))))

/-! The common header (R441 to R444). -/

def pgId (s : State) (p : Nat) : Word :=
  match pageInfo s.sys.variant p with
  | some (cls, inst, _) => pack 32 [(24, cls), (16, inst), (8, 1)]
  | none => 0

/-- MAINT of PG_CTRL: a channel of the page is in maintenance (R443). -/
def pageInMaint (s : State) (p : Nat) : Bool :=
  if 0x20 ≤ p ∧ p ≤ 0x29 then (List.range 8).any (fun k => maintNow s (8 * (p - 0x20) + k))
  else if p = 0x30 then (List.range 32).any (fun k => inMaint s (maintDio k))
  else if p = 0x31 then (List.range 32).any (fun k => inMaint s (maintDi k))
  else false

def hdrWord (s : State) (p off : Nat) : Word :=
  let h := hdr s p
  match off with
  | 0x00 => pgId s p
  | 0x04 => if p = 0x18 ∨ p = 0x48 then 2 else 0
  | 0x08 => pack 32 [(1, b2n (pageInMaint s p)), (0, 1)]
  | 0x0C => pack 32 [(2, b2n (pageLevel s p)), (1, b2n (h.sticky ≠ 0)), (0, b2n h.busy)]
  | 0x10 => h.sticky
  | 0x14 => h.irqen
  | 0x1C => pack 32 [(31, b2n h.busy), (24, h.status.toNat), (0, h.result.toNat)]
  | 0x20 => h.seq.setWidth 32
  | 0x24 => s.plan.id
  | 0x28 => h.sync
  | _ => 0

/-! Always-on island: SYS, SUP, CLK. -/

def sysWord (s : State) (off : Nat) : Word :=
  match off with
  | 0x40 => pack 32 [(28, s.sys.step), (26, s.sys.halt), (25, b2n (inService s)), (24, b2n s.sys.shedding)]
  | 0x44 => pack 32 [(8, s.sys.domBusy.toNat), (0, s.sys.domOn.toNat)]
  | 0x48 => pack 32 [(24, s.sys.cause.toNat), (0, s.sys.resets.toNat)]
  | 0x4C => s.sys.serial
  | 0x50 => pack 32 [(16, s.sys.dbe.toNat), (0, s.sys.sbe.toNat)]
  | _ => 0

def supWord (s : State) (off : Nat) : Word :=
  match off with
  | 0x40 => pack 32 [(31, b2n s.sup.supplyLoss), (30, b2n s.sup.vsUv), (29, b2n s.sup.vf1Fault),
      (28, b2n s.sup.vf2Fault), (27, b2n s.sup.vfNone), (26, b2n s.sup.holdupLow), (25, b2n s.sup.charging),
      (24, b2n s.sup.rtcValid)]
  | 0x44 => s.sup.vs.setWidth 32
  | 0x48 => pack 32 [(16, s.sup.vf2.toNat), (0, s.sup.vf1.toNat)]
  | 0x4C => pack 32 [(16, s.sup.avail.toNat), (0, s.sup.volt.toNat)]
  | 0x50 => s.sup.cap.setWidth 32
  | 0x54 => pack 32 [(16, s.sup.losses.toNat), (0, s.sup.dips.toNat)]
  | _ => 0

/-- CLK_STAT and CLK_DISC.  Of CLK_STAT.LOCK the manual says only 'PLL lock'; here an island's bit is 1 while the TCXO is
good and the island's domain is up, the tiles' bit while either tile domain is (log entry 124). -/
def clkWord (s : State) (off : Nat) : Word :=
  match off with
  | 0x40 =>
    let lock (i d : Nat) : Nat × Nat := (i, b2n (s.clk.tcxoOk && domUp s d))
    pack 32 [(12, discState s), (8, b2n s.clk.tcxoOk), lock 0 1, lock 1 2, lock 2 3,
      (3, b2n (s.clk.tcxoOk && (domUp s 4 || domUp s 5))), lock 4 6, lock 5 7, lock 6 7]
  | 0x44 => pack 32 [(16, b2n s.clk.en), (0, (BitVec.ofInt 16 s.clk.trim).toNat)]
  | _ => 0

/-! Interrupts (ch. 11). -/

/-- A source is claimed and not yet ended. -/
def icuActive (b : IcuBlk) (key : Nat) : Bool :=
  if 1000 ≤ key then (icuTgt b ((key - 1000) / 16)).stack.any (fun e => e.1 = (key - 1000) % 16)
  else [0, 1, 2, 3, 4].any (fun t => (icuTgt b t).stack.any (fun e => e.1 = key))

def icuCfgWord (b : IcuBlk) (key : Nat) : Word :=
  let x := icuSrc b key
  pack 32 [(31, b2n x.en), (30, b2n x.pending), (29, b2n (icuActive b key)), (16, x.target), (0, x.prio.toNat)]

def icuCoalWord (b : IcuBlk) (key : Nat) : Word :=
  pack 32 [(24, (icuSrc b key).count.toNat), (0, (icuSrc b key).time.toNat)]

def icuWord (s : State) (off : Nat) : Word :=
  let b := s.icu
  if off = 0x40 then b.tiers0
  else if off = 0x44 then b.tiers1
  else if 0x80 ≤ off ∧ off < 0xA0 then maskWord (fun i => (icuSrc b (16 + (off - 0x80) * 8 + i)).pending)
  else if 0xA0 ≤ off ∧ off < 0xC0 then maskWord (fun i => icuActive b (16 + (off - 0xA0) * 8 + i))
  else if 0x400 ≤ off ∧ off < 0x800 then icuCfgWord b (16 + (off - 0x400) / 4)
  else if 0x800 ≤ off ∧ off < 0xC00 then icuCoalWord b (16 + (off - 0x800) / 4)
  else if 0xC00 ≤ off ∧ off < 0xC80 then (b.hold.get 0 ((off - 0xC00) / 4)).setWidth 32
  else 0

def icuTargetWord (s : State) (t off : Nat) : Word :=
  let b := s.icu
  let g := icuTgt b t
  if off = 0x40 ∨ off = 0x44 then BitVec.ofNat 32 (icuPeekId s t)
  else if off = 0x4C then g.thresh.setWidth 32
  else if off = 0x50 then
    let run := match icuTop g with
      | some (_, p) => max p.toNat g.thresh.toNat
      | none => g.thresh.toNat
    pack 32 [(31, b2n (icuReq b t)), (30, b2n g.sleep), (29, b2n (g.faultPending || g.faultActive)),
      (28, b2n (16 ≤ g.stack.length)), (16, g.stack.length), (8, run), (0, icuRunTier b g)]
  else if off = 0x58 then pack 32 [(24, g.faultCount.toNat), (10, g.top.toNat), (0, g.rej.toNat)]
  else if 0x80 ≤ off ∧ off < 0xC0 then
    match g.stack.reverse[(off - 0x80) / 4]? with
    | some (id, p) => pack 32 [(31, 1), (16, id), (0, p.toNat)]
    | none => 0
  else if 0xC0 ≤ off ∧ off < 0x100 then
    if off = 0xEC then pack 32 [(31, 1), (30, b2n g.faultPending), (29, b2n g.faultActive), (0, 0xFF)]
    else icuCfgWord b (1000 + 16 * t + (off - 0xC0) / 4)
  else if 0x100 ≤ off ∧ off < 0x140 then icuCoalWord b (1000 + 16 * t + (off - 0x100) / 4)
  else 0

/-! COURSE and PLAN. -/

def courseWord (s : State) (off : Nat) : Word :=
  let c := s.course
  match off with
  | 0x40 => c.cn
  | 0x44 => BitVec.ofNat 32 c.wi
  | 0x48 => pack 32 [(8, b2n c.run), (1, b2n c.e1.ended), (0, b2n c.e0.ended)]
  | 0x4C => pack 32 [(16, c.e1.load.toNat), (0, c.e0.load.toNat)]
  | 0x50 => pack 32 [(16, c.e1.peak.toNat), (0, c.e0.peak.toNat)]
  | 0x54 => faultWord s
  | 0x58 => c.faultCn
  | 0x5C => pack 32 [(16, c.ecc1.toNat), (0, c.faults.toNat)]
  | _ => 0

def PlanState.num : PlanState → Nat
  | .noPlan => 0 | .loading => 1 | .running => 2 | .stopped => 3

def DState.num : DState → Nat
  | .absent => 0 | .idle => 1 | .verifying => 2 | .updating => 3 | .mixed => 4

/-- Highest erase count of a bank's blocks in units of 2. -/
def norWear (s : State) (bank : Bool) : Nat :=
  min 0xFFFF (((List.range 512).foldl (fun m b => max m (s.plan.erases.get 0 ((if bank then 512 else 0) + b))) 0) / 2)

def bootFields (lo : Nat) (x : Option (Bool × Nat)) : List (Nat × Nat) :=
  match x with
  | some (bank, block) => [(lo + 10, 1), (lo + 9, b2n bank), (lo, block)]
  | none => []

/-- Counted worst case of an engine (R53). -/
def planBudget (s : State) (g : Nat) : Nat :=
  (if g = 0 then s.plan.base0 else s.plan.base1) + ((List.range 16).map (fun n => distCost (district s n) g)).sum

/-- Registers of district `n`. -/
def districtWord (s : State) (n off : Nat) : Word :=
  let d := district s n
  match off with
  | 0x00 => pack 32 [(24, d.genTo.toNat), (16, d.gen.toNat), (10, b2n d.restored),
      (9, b2n (n < 4 && !s.plan.districts.cells.isEmpty)), (0, d.state.num)]
  | 0x04 => pack 32 [(16, d.total), (0, d.done)]
  | 0x08 => match d.steps with
    | .apply e :: _ => pack 32 [(16, e.ty), (0, e.target)]
    | .retire ty t :: _ => pack 32 [(31, 1), (16, ty), (0, t)]
    | [] => 0
  | 0x0C => pack 32 [(25, b2n d.ubank), (16, d.ublock), (9, b2n d.bank), (0, d.block)]
  | 0x10 => pack 32 [(16, distCost d 1), (0, distCost d 0)]
  | 0x14 => BitVec.ofNat 32 ((s.plan.entries.filter (fun e => e.district = n)).length)
  | _ => 0

def planWord (s : State) (off : Nat) : Word :=
  let q := s.plan
  if 0x100 ≤ off then if off < 0x500 then districtWord s ((off - 0x100) / 0x40) (off % 0x40) else 0
  else match off with
  | 0x40 => BitVec.ofNat 32 q.state.num
  | 0x44 => pack 32 [(24, b2n q.lds.isSome), (20, q.lds.getD 0), (8, q.lopc.toNat), (0, q.lcode.toNat)]
  | 0x48 => BitVec.ofNat 32 q.wall
  | 0x4C => q.id
  | 0x50 => pack 32 [(16, planBudget s 1), (0, planBudget s 0)]
  | 0x54 => pack 32 (bootFields 16 q.alt ++ bootFields 0 q.boot)
  | 0x58 => q.src
  | 0x5C => q.len
  | 0x60 => q.winsel
  | 0x64 => pack 32 [(31, b2n s.loader.norOp.isSome), (30, b2n q.norBank), (0, q.norLast.toNat)]
  | 0x68 => pack 32 [(16, norWear s true), (0, norWear s false)]
  | _ => 0

/-! SQUARE, ALARM, CALL, EVQ. -/

/-- The square a reader's pin or latch holds. -/
def heldBy (r : Reader) : Option (Option Nat) :=
  match r.pin with
  | some b => some b
  | none => r.latch.map Prod.fst

def readerWord (s : State) (r off : Nat) : Word :=
  let x := readerGet s r
  let held := (heldBy x).join
  match off with
  | 0x00 => pack 32 [(31, b2n x.pin.isSome), (30, b2n x.latch.isSome), (24, held.getD 0),
      (0, (x.latch.map Prod.snd).getD 0)]
  | 0x04 => match held with
    | some b => (s.square.bufs.get {} b).cn
    | none => 0
  | _ => 0

def squareReg (req : Requester) (s : State) (off : Nat) : Word :=
  let q := s.square
  if 0x100 ≤ off then if off < 0x280 then readerWord s ((off - 0x100) / 0x40) (off % 0x40) else 0
  else
    let pin := (readerGet s req.reader).pin
    match off with
    | 0x40 => BitVec.ofNat 32 (b2n pin.isSome)
    | 0x44 => match pin.join with
      | some b => (q.bufs.get {} b).cn
      | none => 0
    | 0x48 => pack 32 [(8, pin.join.getD 0), (1, b2n pin.join.isSome), (0, b2n pin.isSome)]
    | 0x4C => match q.newest with
      | some b => (q.bufs.get {} b).cn
      | none => 0
    | 0x50 => pack 32 [(24, ((List.range 8).map (fun b => b2n (heldBuf s b) * 2 ^ b)).sum), (11, b2n q.newest.isSome),
        (8, q.writing.getD 0), (0, q.newest.getD 0)]
    | 0x54 => q.count
    | _ => 0

def alarmReg (req : Requester) (s : State) (off : Nat) : Word :=
  let p := s.alarm.selPoint.get 0 req.reader
  let g := s.alarm.selGroup.get 0 req.reader
  let x := pointGet s p
  let b := ptBody s p
  let ms := members s g
  let count (f : PState → Bool) : Nat := min 255 (ms.filter (fun m => f (pointGet s m).state)).length
  match off with
  | 0x40 => pack 32 [(16, countPoints s (fun t => t = .activeUnack || t = .activeAck)),
      (0, countPoints s (fun t => t = .activeUnack || t = .clearedUnack))]
  | 0x44 => pack 32 [(16, countPoints s (· = .inhibited)), (0, countPoints s (· = .blocked))]
  | 0x48 => pack 32 [(16, countPoints s (· = .outOfService)), (0, countPoints s (· = .fault))]
  | 0x4C => pack 32 [(16, g), (0, p)]
  | 0x50 => pack 32 [(16, x.count.toNat), (0, (ptWord s p).toNat)]
  | 0x54 => x.time.word
  | 0x58 => if planned s 5 p then
      pack 32 [(28, ptKind b), (24, ptSrcType b), (16, ptGroup b), (8, bAt b 5), (7, b2n (ptSummary b).isSome),
        (6, b2n (ptLatch b)), (5, b2n (ptNoInhibit b)), (4, 1), (3, b2n x.inhibit)]
    else 0
  | 0x5C => if planned s 5 p then BitVec.ofNat 32 (ptSrc b) else 0
  | 0x60 => pack 32 [(24, count (fun t => t = .activeUnack || t = .activeAck)),
      (16, count (fun t => t = .activeUnack || t = .clearedUnack)), (0, (groupWordOf s g).toNat)]
  | 0x64 => match (groupGet s g).fo with
    | some (q, _) => pack 32 [(31, 1), (0, q)]
    | none => 0
  | 0x68 => match (groupGet s g).fo with
    | some (_, t) => t.word
    | none => 0
  | 0x6C => alarmDemand s
  | _ => 0

/-- Courses left until the watch's next phase. -/
def watchLeft (s : State) : Nat :=
  let ran := since s s.alarm.call.watchStart
  let tw := secCourses (u16At (rosterBody s) 6)
  match s.alarm.call.phase with
  | .running => tw - secCourses (u16At (rosterBody s) 8) - ran
  | .prewarn => tw - ran
  | _ => 0

/-- The watch stage of a table is the higher. -/
def watchHigher (x : CallTab) : Bool := x.stage < x.wstage

/-- Courses left until a table's next stage (R234). -/
def stageLeft (s : State) (t : Nat) : Nat :=
  let x := callTab s t
  let start := if watchHigher x then x.wstart else x.start
  match tabStage x with
  | 1 => secCourses (u16At (tabBody s t) 0) - since s start
  | 2 => secCourses (u16At (tabBody s t) 2) - since s start
  | _ => 0

def callReg (s : State) (off : Nat) : Word :=
  let c := s.alarm.call
  if 0x100 ≤ off then
    if off < 0x500 then
      let t := (off - 0x100) / 0x40
      let x := callTab s t
      match off % 0x40 with
      | 0x00 => pack 32 [(30, tabStage x), (29, b2n (watchHigher x)), (28, b2n x.xferFail), (27, b2n (planned s 7 t)),
          (0, secsLeft (stageLeft s t))]
      | 0x04 => if watchHigher x then x.wstart else x.start
      | _ => 0
    else 0
  else match off with
  | 0x40 => pack 32 [(31, b2n (rosterDutyDi s)), (30, b2n c.selFault), (29, b2n (xferBusy s)), (0, c.duty)]
  | 0x44 => pack 32 [(30, WatchPhase.num c.phase), (29, b2n ((roster s).isSome && enableDi s < 32)), (0, secsLeft (watchLeft s))]
  | 0x48 => callOut s
  | _ => 0

def evqReg (s : State) (off : Nat) : Word :=
  if 0x100 ≤ off ∧ off < 0x240 then
    let x := evqGet s ((off - 0x100) / 0x40)
    let o := off % 0x40
    if 0x20 ≤ o then
      match x.recs with
      | e :: _ => w32At (recBytes e e.seq) (o - 0x20)
      | [] => 0
    else match o with
    | 0x00 => pack 32 [(31, b2n x.en), (30, b2n x.alarms)]
    | 0x04 => pack 32 [(31, b2n x.overload), (30, b2n (x.shed ≠ 0)), (29, b2n (!x.latches.cells.isEmpty)), (16, x.hwm),
        (0, evqFill x)]
    | 0x08 => x.shedTotal
    | 0x0C => pack 32 [(16, x.summaries.toNat), (0, x.latches.cells.length)]
    | 0x14 => x.pages0
    | 0x18 => x.pages1
    | 0x1C => x.pages2
    | _ => 0
  else 0

/-! Tiles (ch. 4 to 6). -/

def roleFields (lo : Nat) (r : Option SpareRole) : List (Nat × Nat) :=
  match r with
  | some x => [(lo + 7, 1), (lo + 6, b2n x.low), (lo, x.ch)]
  | none => []

def maintBits (s : State) (t : Nat) : Nat := ((List.range 8).map (fun k => b2n (maintNow s (8 * t + k)) * 2 ^ k)).sum

/-- A field that reads 0 while the channel is in an output mode. -/
def ucChanWord (s : State) (n off : Nat) : Word :=
  let u := ucGet s n
  let i := u.inp
  let inMode := !ucIsOut u
  match off with
  | 0x00 => u.regs.cfg
  | 0x04 => u.regs.lead
  | 0x08 => u.regs.lim
  | 0x0C => pack 32 [(31, b2n (inMode && i.excFault)), (30, b2n (inMode && i.short)), (29, b2n (inMode && i.openF)),
      (28, b2n (inMode && i.grdLimit)), (27, b2n (maintNow s n)), (26, b2n i.spare), (24, i.tag.toNat),
      (0, if inMode then i.excmon.toNat else 0)]
  | 0x10 => u.sticky
  | 0x14 => if ucModeF u = 6 then i.bias.setWidth 32 else 0
  | 0x18 => pack 32 [(31, b2n i.openValid), (0, i.openR.toNat)]
  | 0x40 => u.regs.octl
  | 0x44 => u.regs.otest
  | 0x48 => u.regs.ofix
  | 0x4C => u.regs.oclo
  | 0x50 => u.regs.ochi
  | 0x54 => f64to32 u.out.drive
  | 0x58 => u.out.rb
  | 0x5C => pack 32 [(16, u.out.supply.toNat), (0, u.out.term.toNat)]
  | 0x60 => if ucModeF u = 11 then u.out.vrefx.setWidth 32 else 0
  | 0x64 => pack 32 [(31, b2n u.out.readback), (30, b2n u.out.compliance), (29, b2n u.out.therm),
      (28, b2n u.out.openLoop), (27, b2n (gateUc s n)), (26, b2n u.out.damping), (23, u.out.source.toNat),
      (0, u.out.temp.toNat)]
  | 0x68 => u.osticky
  | _ => 0

def utReg (s : State) (t off : Nat) : Word :=
  let x := tileGet s t
  if 0x100 ≤ off then
    if off < 0x500 then ucChanWord s (8 * t + (off - 0x100) / 0x80) (off % 0x80) else 0
  else match off with
  | 0x40 => x.temp.setWidth 32
  | 0x44 => pack 32 [(16, x.cjb.toNat), (0, x.cja.toNat)]
  | 0x48 => pack 32 [(3, b2n x.cjbFail), (2, b2n x.cjaFail), (1, b2n x.cjFault), (0, b2n x.cjDegraded)]
  | 0x4C => pack 32 (roleFields 24 x.spare1 ++ roleFields 8 x.spare0)
  | 0x50 => pack 32 [(8, ((List.range 8).map (fun k =>
        b2n ((ucGet s (8 * t + k)).sticky ≠ 0 || (ucGet s (8 * t + k)).osticky ≠ 0) * 2 ^ k)).sum), (0, maintBits s t)]
  | _ => 0

def liChanWord (s : State) (n off : Nat) : Word :=
  let l := liGet s n
  match off with
  | 0x00 => l.cfg
  | 0x04 => l.park
  | 0x08 => pack 32 [(31, b2n l.pwrShort), (30, b2n l.burdenProt), (29, b2n l.parkFault), (28, b2n (maintNow s (32 + n))),
      (27, b2n (gateLt s (n / 8))), (26, b2n l.spare), (24, l.tag.toNat), (20, l.band.toNat), (0, l.current.toNat)]
  | 0x0C => l.sticky
  | 0x10 => pack 32 [(16, l.pwrCurrent.toNat), (0, l.pwrVolt.toNat)]
  | _ => 0

/-- Page of loop tile `t`, 4 to 9 in the count of tiles. -/
def ltReg (s : State) (t off : Nat) : Word :=
  let x := tileGet s t
  if 0x100 ≤ off then
    if off < 0x300 then liChanWord s (8 * (t - 4) + (off - 0x100) / 0x40) (off % 0x40) else 0
  else match off with
  | 0x40 => x.temp.setWidth 32
  | 0x44 => match x.spare0 with
    | some r => pack 32 [(15, 1), (8, r.ch)]
    | none => 0
  | 0x48 => pack 32 [(8, ((List.range 8).map (fun k => b2n ((liGet s (8 * (t - 4) + k)).sticky ≠ 0) * 2 ^ k)).sum),
      (0, maintBits s t)]
  | _ => 0

/-! CAL and HART. -/

/-- Courses of warm-up left for the latest tile to come up. -/
def warmLeft (s : State) : Nat :=
  let up := (List.range 10).filter (fun t => domUp s (if t < 4 then 4 else 5))
  if up.isEmpty then 4800000 else up.foldl (fun m t => max m (tileGet s t).warmLeft) 0

def anyConv (s : State) (t : Nat) (f : Converter → Bool) : Bool := (convKeys t).any (fun c => f (conv s t c))

def calReg (s : State) (off : Nat) : Word :=
  let c := s.cal
  let point (x : CalPoint) : Word := pack 32 [(31, b2n x.valid), (0, x.dev.toNat)]
  match off with
  | 0x40 => pack 32 [(31, b2n c.refDisagree), (29, c.culprit.toNat), (0, c.diff.toNat)]
  | 0x44 => pack 32 [(30, c.session), (29, b2n c.r10k.valid), (28, b2n c.r100.valid), (27, b2n c.v10.valid),
      (26, b2n c.pred), (25, b2n c.dateValid), (16, c.ch), (0, c.days.toNat)]
  | 0x48 => BitVec.ofNat 32 (secsLeft (warmLeft s))
  | 0x4C => c.lastDay.setWidth 32
  | 0x50 => pack 32 [(16, c.rate100.toNat), (0, c.rateA.toNat)]
  | 0x54 => c.rate10k.setWidth 32
  | 0x58 => c.certLo
  | 0x5C => c.certHi
  | 0x60 => point c.v10
  | 0x64 => point c.r100
  | 0x68 => point c.r10k
  | 0x6C => pack 32 ((List.range 10).flatMap (fun t =>
      [(16 + t, b2n (anyConv s t (·.overdue))), (t, b2n (tileCal s t).xferFail)]))
  | 0x70 => pack 32 ((List.range 10).map (fun t => (t, b2n (anyConv s t (·.out)))))
  | 0x74 => c.dropped.setWidth 32
  | _ => 0

def HState.num : HState → Nat
  | .free => 0 | .queued => 1 | .active => 2 | .done => 3

/-- IDLE reads its reset value until the modem's first turn. -/
def modemWord (s : State) (m : Nat) : Word :=
  let x := modem s m
  let ch := match x.coupled with
    | some c => if c.val < 32 then [(23, 1), (16, c.val)] else [(16, c.val - 32)]
    | none => [(22, b2n (!x.fresh))]
  pack 32 ([(25, b2n x.tx), (24, b2n x.cd), (8, x.turn)] ++ ch)

def hartReg (s : State) (off : Nat) : Word :=
  if 0x100 ≤ off then
    if off < 0x500 then
      let d := desc s ((off - 0x100) / 0x40)
      match off % 0x40 with
      | 0x00 => d.ctl
      | 0x04 => d.req
      | 0x08 => d.rsp
      | 0x0C => pack 32 [(30, d.state.num), (24, d.result.toNat), (16, d.tries), (0, d.rspLen.toNat)]
      | 0x10 => d.cn
      | _ => 0
    else 0
  else if off = 0x40 then s.hart.cfg
  else if 0x44 ≤ off ∧ off < 0x64 then modemWord s ((off - 0x44) / 4)
  else if 0x64 ≤ off ∧ off < 0x84 then
    let x := modem s ((off - 0x64) / 4)
    pack 32 [(16, x.foreign.toNat), (0, x.conflict.toNat)]
  else 0

/-! Digital channels (ch. 10). -/

def dioChanWord (s : State) (n off : Nat) : Word :=
  let c := digGet s n
  let o := dioGet s n
  match off with
  | 0x00 => c.cfg
  | 0x04 => c.deb
  | 0x08 => c.octl
  | 0x0C => pack 32 [(31, b2n c.inp), (30, b2n o.drive), (29, b2n (gateDio s n)), (26, o.source.toNat),
      (25, b2n (inMaint s (maintDio n))), (16, digFaultBits s n / 2), (0, if digMode c = 1 then 0 else c.current.toNat)]
  | 0x10 => pack 32 [(16, o.term.toNat), (0, o.temp.toNat)]
  | 0x14 => pack 32 [(31, b2n o.learned), (16, o.progress.toNat), (0, o.iL.toNat)]
  | 0x18 => c.sticky
  | _ => 0

def dioReg (s : State) (off : Nat) : Word :=
  if 0x100 ≤ off then
    if off < 0x900 then dioChanWord s ((off - 0x100) / 0x40) (off % 0x40) else 0
  else match off with
  | 0x40 => maskWord (fun n => (digGet s n).inp)
  | 0x44 => maskWord (fun n => (dioGet s n).drive)
  | 0x48 => pack 32 [(31, b2n s.dig.totalOver), (0, s.dig.total.toNat)]
  | 0x4C => pack 32 [(16, s.dig.vfX11.toNat), (0, s.dig.vfX10.toNat)]
  | _ => 0

def diReg (s : State) (off : Nat) : Word :=
  if 0x100 ≤ off then
    if off < 0x900 then
      let n := (off - 0x100) / 0x40
      let c := digGet s (32 + n)
      match off % 0x40 with
      | 0x00 => c.cfg
      | 0x04 => c.deb
      | 0x08 => pack 32 [(31, b2n c.inp), (30, b2n c.brk), (29, b2n (inMaint s (maintDi n))), (0, c.current.toNat)]
      | 0x0C => c.sticky
      | _ => 0
    else 0
  else if off = 0x40 then maskWord (fun n => (digGet s (32 + n)).inp)
  else 0

/-! RED and SAFE. -/

def RedState.num : RedState → Nat
  | .electing => 0 | .standby => 1 | .active => 2 | .solo => 3 | .idle => 4

def redReg (s : State) (off : Nat) : Word :=
  let r := s.red
  match off with
  | 0x40 =>
    let missing := missingPaths s
    pack 32 [(29, r.state.num), (27, Role.num r.role), (26, b2n (redReady s)), (25, b2n r.streetA.present),
      (24, b2n r.streetB.present), (23, b2n r.claimLine), (22, b2n (inPair s && missing ≠ 0 && missing ≠ 3)),
      (21, b2n r.peerLost), (20, b2n (r.state = .active || s.sync.ok)),
      (19, b2n (r.conflict || r.roleConflict || r.wrongSerial)), (18, b2n r.strapFault), (17, b2n r.peerReady),
      (16, b2n r.peerFault)]
  | 0x44 => pack 32 [(16, r.own.toNat), (0, r.peer.toNat)]
  | 0x48 => pack 32 [(24, r.streetA.rtt.toNat), (0, r.streetA.missed.toNat)]
  | 0x4C => pack 32 [(24, r.streetB.rtt.toNat), (0, r.streetB.missed.toNat)]
  | 0x50 => pack 32 [(16, s.sync.lost.toNat), (0, s.sync.backlog.toNat)]
  | 0x54 => if r.state = .active then 0 else s.sync.last
  | 0x58 => pack 32 [(24, r.takeCause.toNat), (0, r.takeCount.toNat)]
  | 0x5C => r.takeCn
  | 0x60 => if r.state = .active then 0 else r.phase
  | 0x64 => r.fltReg.dio
  | 0x68 => r.fltReg.uc
  | 0x6C => pack 32 [(6, r.fltReg.can.toNat), (0, r.fltReg.lt.toNat)]
  | 0x100 => r.cfg
  | 0x104 => r.peerSn
  | _ => 0

def laneWord (s : State) (n : Nat) : Word :=
  let l := laneGet s n
  let e := planEntry s 0x20 n
  let b := entBody e
  pack 32 [(31, b2n e.isSome), (30, b2n (laneTripped l)), (29, b2n l.stale), (28, b2n (laneReleased s n)), (27, b2n l.fault),
    (26, b2n (e.isSome && laneLatch b)), (16, l.count), (8, genOf s 0x20 n),
    (7, if e.isSome then b2n (bAt b 0 = 2) else 0), (0, if e.isSome then bAt b 1 % 64 else 0)]

/-- The key's identifier: the first 16 bits of its SHA-256 (R347). -/
def keyWord (k : Option (List Byte)) : Word :=
  match k with
  | some b => let h := sha256 b; pack 32 [(31, 1), (8, bAt h 0), (0, bAt h 1)]
  | none => 0

def safeReg (req : Requester) (s : State) (off : Nat) : Word :=
  let f := s.safe
  let lanes (p : Lane → Bool) (o : Nat) : Word := maskWord (fun i => p (laneGet s (o + i)))
  let rel := f.relNext.getD (f.relTl, f.relOut)
  match off with
  | 0x40 => pack 32 [(31, b2n f.forced), (30, b2n ((List.range 64).any (fun n => (laneGet s n).fault))),
      (29, b2n (f.relPend.any relLive)), (16, f.faultRun.toNat),
      (12, f.lastCause.toNat), (0, f.restarts.toNat)]
  | 0x44 => BitVec.ofNat 32 (f.sel.get 0 req.reader)
  | 0x48 => laneWord s (f.sel.get 0 req.reader)
  | 0x4C => match f.relPend with
    | some p => if relLive p then
        pack 32 [(31, 1), (28, p.req.code), (27, b2n p.output), (16, p.target), (0, secsLeft (120000 - p.age))]
      else 0
    | none => 0
  | 0x50 => pack 32 [(24, f.accReq.toNat), (16, f.accPage.toNat), (0, f.accOff.toNat)]
  | 0x54 => f.accCnt
  | 0x58 => pack 32 [(16, f.courseFaults.toNat), (8, f.stackFaults.toNat), (0, f.dramFaults.toNat)]
  | 0x5C => keyWord f.key
  | 0x80 => lanes laneTripped 0
  | 0x84 => lanes laneTripped 32
  | 0x88 => lanes (·.stale) 0
  | 0x8C => lanes (·.stale) 32
  | 0x90 => lowWord f.outTrip
  | 0x94 => highWord f.outTrip
  | 0x100 => lowWord rel.1
  | 0x104 => highWord rel.1
  | 0x108 => lowWord rel.2
  | 0x10C => highWord rel.2
  | _ => 0

/-! Networks, log and panel. -/

def canReg (s : State) (n off : Nat) : Word :=
  let c := canGet s n
  let stat (q : CanQueue) : Word := pack 32 [(16, q.lost.toNat), (8, q.count), (0, q.next)]
  match off with
  | 0x40 => c.cfg
  | 0x44 => c.layout
  | 0x48 => c.nbit
  | 0x4C => c.dbit
  | 0x50 => pack 32 [(30, c.state.toNat), (29, b2n c.gate), (16, c.loopDly.toNat), (8, c.tec.toNat), (0, c.recv.toNat)]
  | 0x5C => c.pend
  | 0x60 => lowWord c.nd
  | 0x64 => highWord c.nd
  | 0x68 => lowWord c.rxen
  | 0x6C => highWord c.rxen
  | 0x70 => stat c.q0
  | 0x78 => c.q0.accept
  | 0x7C => c.q0.mask
  | 0x80 => stat c.q1
  | 0x88 => c.q1.accept
  | 0x8C => c.q1.mask
  | 0x90 => pack 32 [(16, c.noMatch.toNat), (0, c.errors.toNat)]
  | _ => 0

def ethReg (s : State) (p off : Nat) : Word :=
  let e := ethGet s p
  if 0x100 ≤ off then
    if off < 0x340 then
      let r := ringGet s p ((off - 0x100) / 0x40)
      match off % 0x40 with
      | 0x00 => r.base
      | 0x04 => r.ctl
      | 0x08 => pack 32 [(16, r.head.toNat), (0, r.tail.toNat)]
      | 0x0C => r.drop
      | _ => 0
    else 0
  else if 0x50 ≤ off ∧ off < 0x60 then e.vlan.get 0 ((off - 0x50) / 4)
  else if 0x60 ≤ off ∧ off < 0x80 then e.cnt.get 0 ((off - 0x60) / 4)
  else match off with
  | 0x40 => if p = 0 then e.cfg else setBit e.cfg 30 (bitAt (ethGet s 0).cfg 30)
  | 0x44 => pack 32 [(31, b2n e.link), (30, b2n e.g1), (29, b2n e.mdix)]
  | 0x48 => e.mac.setWidth 32
  | 0x4C => (e.mac >>> 32).setWidth 32
  | _ => 0

/-- PTP_NOW_LO reads what the requester's last latch holds; a read of it latches anew in `busRead`. -/
def ptpReg (req : Requester) (s : State) (off : Nat) : Word :=
  match off with
  | 0x40 => pack 32 [(31, b2n s.ptp.synced), (30, b2n s.ptp.valid), (0, s.ptp.tmo.toNat)]
  | 0x44 => lowWord (s.ptp.now.get 0 req.reader)
  | 0x48 => highWord (s.ptp.now.get 0 req.reader)
  | 0x4C => s.ptp.adjLo
  | 0x50 => s.ptp.adjHi
  | _ => 0

def hostReg (s : State) (off : Nat) : Word :=
  match off with
  | 0x40 => BitVec.ofNat 32 (b2n s.host.rstEn)
  | 0x44 => pack 32 [(31, b2n s.host.usb), (30, b2n s.host.cs)]
  | 0x48 => pack 32 [(16, s.host.crc.toNat), (0, s.host.format.toNat)]
  | _ => 0

def logReg (s : State) (off : Nat) : Word :=
  let l := s.log
  if 0x100 ≤ off then
    if off < 0x240 then
      let p := (off - 0x100) / 0x40
      let x := logPart s p
      match off % 0x40 with
      | 0x00 => x.head
      | 0x04 => x.commit
      | 0x08 => (x.items.head?.map Prod.fst).getD 0
      | 0x0C => pack 32 [(16, if p = 0 ∨ p = 4 then x.merged.toNat else 0), (0, x.discarded.toNat)]
      | _ => 0
    else 0
  else if 0x60 ≤ off ∧ off < 0x80 then (capGet s ((off - 0x60) / 4)).cfg
  else match off with
  | 0x40 => pack 32 [(31, b2n l.ready), (30, b2n (flushRisk s)), (29, b2n l.fault), (28, b2n l.reserveLow),
      (0, ((List.range 5).map (bufUsed s)).sum)]
  | 0x44 => pack 32 [(16, l.remain.toNat), (0, l.maxErase.toNat)]
  | 0x48 => l.wearlvl
  | 0x4C => l.addr
  | 0x50 => l.len
  | 0x54 => l.rseq
  | 0x58 => l.rofs
  | 0x5C => l.rfirst
  | 0x80 => l.capMiss.setWidth 32
  | _ => 0

/-- Registers of panel area `k`. -/
def areaReg (s : State) (k off : Nat) : Word :=
  let a := area s k
  let r := areaRect s k
  let pend := a.pend.isSome
  match off with
  | 0x00 => pack 32 [(31, b2n (planned s 0x0B k)), (30, b2n a.run.isSome),
      (29, b2n (match a.run with | some u => u.fast | none => false)), (28, b2n pend), (27, b2n (a.pend.getD false)),
      (26, b2n (pend && ((panelRuns s).any (runOverlaps r) || decide (4 ≤ (panelRuns s).length)))),
      (25, b2n (pend && !holdupGate s (pendEnergy s k))),
      (24, b2n (pend && (s.panel.crack || s.panel.cold || s.sup.supplyLoss || s.panel.redraws ≠ 0
        || s.panel.clears ≠ 0))), (0, a.lost.toNat)]
  | 0x04 => if planned s 0x0B k then pack 32 [(16, r.y), (0, r.x)] else 0
  | 0x08 => if planned s 0x0B k then pack 32 [(16, r.h), (0, r.w)] else 0
  | 0x0C => a.doneCn
  | _ => 0

def panelReg (s : State) (off : Nat) : Word :=
  let p := s.panel
  if 0x100 ≤ off then if off < 0x900 then areaReg s ((off - 0x100) / 0x40) (off % 0x40) else 0
  else match off with
  | 0x40 => pack 32 [(31, b2n p.ready), (30, b2n p.crack), (29, b2n p.cold), (28, b2n p.banner),
      (27, b2n (p.redraws ≠ 0)), (26, b2n p.trimBad), (16, p.band), (0, (panelRuns s).length)]
  | 0x44 => p.glass.setWidth 32
  | 0x48 => pack 32 [(16, p.loopRef.toNat), (0, p.loopMeas.toNat)]
  | 0x4C => pack 32 [(16, min 0xFFFF (panelDue s)), (0, s.sup.avail.toNat)]
  | 0x50 => p.clkOfs
  | 0x54 => BitVec.ofNat 32 (b2n p.pos)
  | 0x58 => match p.last with
    | some (sync, _) => pack 32 [(31, 1), (30, b2n sync), (0, lastSec s)]
    | none => 0
  | _ => 0

/-- The value of the register at offset `off` of page `p`, as requester `req` reads it; the page exists and its
domain is up. -/
def regWord (req : Requester) (s : State) (p off : Nat) : Word :=
  if off < 0x40 then hdrWord s p off
  else if p = 0 then sysWord s off
  else if p = 1 then supWord s off
  else if p = 2 then clkWord s off
  else if p = 8 then icuWord s off
  else if p < 0x0E then icuTargetWord s (p - 9) off
  else if p = 0x10 then courseWord s off
  else if p = 0x11 then planWord s off
  else if p = 0x12 then squareReg req s off
  else if p = 0x13 then alarmReg req s off
  else if p = 0x14 then callReg s off
  else if p = 0x15 then evqReg s off
  else if p = 0x18 then safeReg req s off
  else if p < 0x24 then utReg s (p - 0x20) off
  else if p < 0x2A then ltReg s (p - 0x20) off
  else if p = 0x2A then calReg s off
  else if p = 0x2B then hartReg s off
  else if p = 0x30 then dioReg s off
  else if p = 0x31 then diReg s off
  else if p < 0x3C then canReg s (p - 0x38) off
  else if p < 0x3E then ethReg s (p - 0x3C) off
  else if p = 0x3E then ptpReg req s off
  else if p = 0x40 then logReg s off
  else if p = 0x41 then panelReg s off
  else if p = 0x48 then redReg s off
  else if p = 0x49 then hostReg s off
  else 0

end Sys2Proof.Machine
end

