-- ==== Sys2Proof/Machine/Bus.lean ====
section
/-! DEFINITION. Accesses by address (R4, R5, R16 to R27, R346, R381 to R384, R440, R446): writes of registers, the data
windows, the memories of the core address map, and the host port's transactions. -/

namespace Sys2Proof.Machine

/-! Commands (R444 and each page's table). -/

/-- A PG_CMD write with opcode `op` to page `p`; an opcode no chapter defines ends with BAD_OPCODE. -/
def commandWrite (req : Requester) (p op : Nat) (arg : BitVec 24) (s : State) : State :=
  let bad := issueCmd p req op arg (fun s => .done .badOpcode 0 s) s
  if p = 0x00 then
    (match op with
      | 1 => domainCmd false req arg s
      | 2 => domainCmd true req arg s
      | 3 => resetCmd req arg s
      | 4 => coreReset req arg s
      | _ => bad)
  else if p = 0x10 then if op = 1 then clearPeakCmd req arg s else bad
  else if p = 0x11 then
    (match op with
      | 1 => loadPlan req arg s
      | 2 => stopPlan req arg s
      | 3 => updateDistrict req arg s
      | 4 => abortUpdate req arg s
      | 5 => verifyCmd req arg s
      | 6 => eraseCmd req arg s
      | 7 => programCmd req arg s
      | _ => bad)
  else if p = 0x13 then if 1 ≤ op ∧ op ≤ 6 then alarmCmd op req arg s else bad
  else if p = 0x14 then if 1 ≤ op ∧ op ≤ 3 then callCmd op req arg s else bad
  else if p = 0x18 then
    (match op with
      | 1 => updateSafety req arg s
      | 2 => releaseCmd false req arg s
      | 3 => restoreCmd false req arg s
      | 4 => releaseCmd true req arg s
      | 5 => restoreCmd true req arg s
      | 6 => resetLane req arg s
      | 7 => forceResetCmd req arg s
      | _ => bad)
  else if 0x20 ≤ p ∧ p ≤ 0x29 then
    (match op with
      | 0x01 => channelMaint req (Fin.ofNat 12 (p - 0x20)) arg s
      | 0x02 => if p < 0x24 then openTest req (Fin.ofNat 4 (p - 0x20)) arg s else bad
      | 0x10 => tileRestart req (Fin.ofNat 10 (p - 0x20)) arg s
      | _ => bad)
  else if p = 0x2A then
    (match op with
      | 1 => sessionOpen req arg s
      | 2 => measureCmd req arg s
      | 3 => commitCmd req arg s
      | 4 => sessionClose req arg s
      | _ => bad)
  else if p = 0x2B then
    (match op with
      | 1 => submitCmd req arg s
      | 2 => hartCancel req arg s
      | 3 => hartRelease req arg s
      | _ => bad)
  else if p = 0x30 then
    (match op with
      | 1 => channelMaint req 10 arg s
      | 2 => outReset req arg s
      | 3 => relearn req arg s
      | _ => bad)
  else if p = 0x31 then if op = 1 then channelMaint req 11 arg s else bad
  else if p = 0x3E then if op = 1 ∨ op = 2 then ptpAsk op req arg s else bad
  else if p = 0x40 then
    (match op with
      | 1 => appendLog req arg s
      | 2 => readLog req arg none s
      | 3 => captureCmd req arg s
      | _ => bad)
  else if p = 0x41 then
    (match op with
      | 1 => panelUpdate req arg s
      | 2 => panelCancel req arg s
      | 3 => clearPanel req arg s
      | _ => bad)
  else if p = 0x48 then
    (match op with
      | 1 => switchover req arg s
      | 2 => clearCounts req arg s
      | _ => bad)
  else bad

/-! Registers of the pages.  Each answers what a 32-bit write to offset `off`, 0x40 and above, does; an offset whose
fields are all RO, or that the page does not define, is left alone (R4, R440). -/

/-- A field set from a write. -/
def setField (p : Nat) (f : State → State) : State → State := pageWrite p f

/-- Bits a W1C write clears. -/
def w1c {n : Nat} (old value : BitVec n) : BitVec n := old &&& ~~~value

/-- The low or high half of a doubleword replaced. -/
def setHalf (hi : Bool) (d : Dword) (w : Word) : Dword :=
  if hi then w ++ lowWord d else highWord d ++ w

def icuCoalSet (key : Nat) (value : Word) (b : IcuBlk) : IcuBlk :=
  { b with srcs := b.srcs.upd {} key (fun x => { x with
      count := BitVec.ofNat 8 (fld value 24 8), time := BitVec.ofNat 16 (fld value 0 16) }) }

def icuRegWrite (req : Requester) (off : Nat) (v : Word) (s : State) : State :=
  if off = 0x40 then icuTiersWrite false v s
  else if off = 0x44 then icuTiersWrite true v s
  else if 0x400 ≤ off ∧ off < 0x800 then icuSrcCfgWrite req (Fin.ofNat 256 ((off - 0x400) / 4)) v s
  else if 0x800 ≤ off ∧ off < 0xC00 then
    setField 8 (fun s => { s with icu := icuCoalSet (16 + (off - 0x800) / 4) v s.icu }) s
  else if 0xC00 ≤ off ∧ off < 0xC80 then
    setField 8 (fun s => { s with icu.hold := s.icu.hold.set ((off - 0xC00) / 4) (v.setWidth 16) }) s
  else s

def icuTargetWrite (req : Requester) (t off : Nat) (v : Word) (s : State) : State :=
  let key (o : Nat) : Nat := 1000 + 16 * t + (off - o) / 4
  if off = 0x48 then icuEoi req (Fin.ofNat 5 t) v s
  else if off = 0x4C then
    setField (9 + t) (fun s => { s with
      icu := icuWake { s.icu with targets := s.icu.targets.upd {} t (fun g => { g with thresh := v.setWidth 8 }) } }) s
  else if off = 0x54 then icuSwi (Fin.ofNat 5 t) v s
  else if 0xC0 ≤ off ∧ off < 0x100 then
    if off = 0xEC then s else setField (9 + t) (fun s => { s with icu := icuSrcCfg req (key 0xC0) v s.icu }) s
  else if 0x100 ≤ off ∧ off < 0x140 then
    if off = 0x12C then s else setField (9 + t) (fun s => { s with icu := icuCoalSet (key 0x100) v s.icu }) s
  else s

def planRegWrite (off : Nat) (v : Word) (s : State) : State :=
  match off with
  | 0x58 => setField 0x11 (fun s => { s with plan.src := v }) s
  | 0x5C => setField 0x11 (fun s => { s with plan.len := v &&& 0x01FFFFFF }) s
  | 0x60 => setField 0x11 (fun s => { s with plan.winsel := v &&& 3 }) s
  | _ => s

def alarmRegWrite (req : Requester) (off : Nat) (v : Word) (s : State) : State :=
  if off = 0x4C then
    setField 0x13 (fun s => { s with
      alarm.selPoint := s.alarm.selPoint.set req.reader (fld v 0 11)
      alarm.selGroup := s.alarm.selGroup.set req.reader (fld v 16 8) }) s
  else s

def evqRegWrite (req : Requester) (off : Nat) (v : Word) (s : State) : State :=
  if 0x100 ≤ off ∧ off < 0x240 then
    let q := (off - 0x100) / 0x40
    let set (f : EvQueue → EvQueue) : State :=
      setField 0x15 (fun s => { s with evq.queues := s.evq.queues.upd {} q f }) s
    match off % 0x40 with
    | 0x00 => evqCtlWrite (Fin.ofNat 5 q) v s
    | 0x10 => evqPop req (Fin.ofNat 5 q) v s
    | 0x14 => set (fun x => { x with pages0 := v })
    | 0x18 => set (fun x => { x with pages1 := v })
    | 0x1C => set (fun x => { x with pages2 := v &&& 0xFFFF })
    | _ => s
  else s

/-- Whether the page's writes at this offset belong to S0/S1 alone (R345, R346). -/
def safetyOwned (p off : Nat) : Bool := (p = 0x18 || p = 0x48) && 0x100 ≤ off && off < 0x140

def safeRegWrite (req : Requester) (off : Nat) (v : Word) (s : State) : State :=
  let rel (f : Dword × Dword → Dword × Dword) : State :=
    setField 0x18 (fun s => { s with safe.relNext := some (f (s.safe.relNext.getD (s.safe.relTl, s.safe.relOut))) }) s
  match off with
  | 0x44 => setField 0x18 (fun s => { s with safe.sel := s.safe.sel.set req.reader (fld v 0 6) }) s
  | 0x100 => rel (fun x => (setHalf false x.1 v, x.2))
  | 0x104 => rel (fun x => (setHalf true x.1 v, x.2))
  | 0x108 => rel (fun x => (x.1, setHalf false x.2 v))
  | 0x10C => rel (fun x => (x.1, setHalf true x.2 v))
  | _ => s

def redRegWrite (off : Nat) (v : Word) (s : State) : State :=
  match off with
  | 0x100 => setField 0x48 (fun s => { s with red.cfg := v &&& 1 }) s
  | 0x104 => setField 0x48 (fun s => { s with red.peerSn := v }) s
  | _ => s

def utRegWrite (t off : Nat) (v : Word) (s : State) : State :=
  if 0x100 ≤ off ∧ off < 0x500 then
    let n := 8 * t + (off - 0x100) / 0x80
    let set (f : UcRegs → UcRegs) : State := setField (0x20 + t) (updUc n (fun u => { u with regs := f u.regs })) s
    match off % 0x80 with
    | 0x00 => ucCfgWrite n v s
    | 0x04 => set (fun r => { r with lead := v &&& 0xFFFFF })
    | 0x08 => set (fun r => { r with lim := v })
    | 0x10 => setField (0x20 + t) (updUc n (fun u => { u with sticky := w1c u.sticky v })) s
    | 0x40 => ucOctlWrite n v s
    | 0x44 => set (fun r => { r with otest := v })
    | 0x48 => set (fun r => { r with ofix := v })
    | 0x4C => set (fun r => { r with oclo := v })
    | 0x50 => set (fun r => { r with ochi := v })
    | 0x68 => setField (0x20 + t) (updUc n (fun u => { u with osticky := w1c u.osticky v })) s
    | _ => s
  else s

def ltRegWrite (t off : Nat) (v : Word) (s : State) : State :=
  if 0x100 ≤ off ∧ off < 0x300 then
    let n := 8 * (t - 4) + (off - 0x100) / 0x40
    match off % 0x40 with
    | 0x00 => liCfgWrite n v s
    | 0x04 => setField (0x20 + t) (updLi n (fun l => { l with park := v })) s
    | 0x0C => setField (0x20 + t) (updLi n (fun l => { l with sticky := w1c l.sticky v })) s
    | _ => s
  else s

def calRegWrite (off : Nat) (v : Word) (s : State) : State :=
  match off with
  | 0x58 => setField 0x2A (fun s => { s with cal.certLo := v }) s
  | 0x5C => setField 0x2A (fun s => { s with cal.certHi := v }) s
  | _ => s

def hartRegWrite (off : Nat) (v : Word) (s : State) : State :=
  if off = 0x40 then setField 0x2B (fun s => { s with hart.cfg := v &&& 0x1F01 }) s
  else if 0x100 ≤ off ∧ off < 0x500 then
    let b := Fin.ofNat 16 ((off - 0x100) / 0x40)
    match off % 0x40 with
    | 0x00 => hartDescWrite b 0 v s
    | 0x04 => hartDescWrite b 1 v s
    | 0x08 => hartDescWrite b 2 v s
    | _ => s
  else s

def dioRegWrite (off : Nat) (v : Word) (s : State) : State :=
  if 0x100 ≤ off ∧ off < 0x900 then
    let n := (off - 0x100) / 0x40
    match off % 0x40 with
    | 0x00 => digCfgWrite n v s
    | 0x04 => setField 0x30 (updDig n (fun c => { c with deb := v &&& 0xFFFF })) s
    | 0x08 => dioOctlWrite n v s
    | 0x18 => setField 0x30 (updDig n (fun c => { c with sticky := w1c c.sticky v })) s
    | _ => s
  else s

def diRegWrite (off : Nat) (v : Word) (s : State) : State :=
  if 0x100 ≤ off ∧ off < 0x900 then
    let k := 32 + (off - 0x100) / 0x40
    match off % 0x40 with
    | 0x00 => digCfgWrite k v s
    | 0x04 => setField 0x31 (updDig k (fun c => { c with deb := v &&& 0xFFFF })) s
    | 0x0C => setField 0x31 (updDig k (fun c => { c with sticky := w1c c.sticky v })) s
    | _ => s
  else s

def canRegWrite (n off : Nat) (v : Word) (s : State) : State :=
  let set (f : CanBlk → CanBlk) : State := setField (canPage n) (updCan n f) s
  match off with
  | 0x40 => canEnWrite n v s
  | 0x44 => canCfgWrite n 2 v s
  | 0x48 => canCfgWrite n 0 v s
  | 0x4C => canCfgWrite n 1 v s
  | 0x54 => canSend n v s
  | 0x58 => canWithdraw n v s
  | 0x60 => set (fun c => { c with nd := setHalf false c.nd (w1c (lowWord c.nd) v) })
  | 0x64 => set (fun c => { c with nd := setHalf true c.nd (w1c (highWord c.nd) v) })
  | 0x68 => set (fun c => { c with rxen := setHalf false c.rxen v })
  | 0x6C => set (fun c => { c with rxen := setHalf true c.rxen v })
  | 0x74 => canFree n 0 v s
  | 0x78 => set (fun c => { c with q0.accept := v &&& 0x9FFFFFFF })
  | 0x7C => set (fun c => { c with q0.mask := v &&& 0x1FFFFFFF })
  | 0x84 => canFree n 1 v s
  | 0x88 => set (fun c => { c with q1.accept := v &&& 0x9FFFFFFF })
  | 0x8C => set (fun c => { c with q1.mask := v &&& 0x1FFFFFFF })
  | _ => s

def ethRegWrite (p off : Nat) (v : Word) (s : State) : State :=
  if off = 0x40 then ethCfgWrite p v s
  else if 0x50 ≤ off ∧ off < 0x60 then
    setField (ethPage p) (updEth p (fun e => { e with vlan := e.vlan.set ((off - 0x50) / 4) (v &&& 0x8FFF8FFF) })) s
  else if 0x100 ≤ off ∧ off < 0x340 then
    let q := (off - 0x100) / 0x40
    match off % 0x40 with
    | 0x00 => setField (ethPage p) (updRing p q (fun r => { r with base := v &&& 0xFFFFFFF0 })) s
    | 0x04 => ethCtlWrite p q v s
    | 0x08 => setField (ethPage p) (updRing p q (fun r => { r with tail := v.setWidth 16 })) s
    | _ => s
  else s

def ptpRegWrite (off : Nat) (v : Word) (s : State) : State :=
  match off with
  | 0x40 => ptpCtlWrite v s
  | 0x4C => setField 0x3E (fun s => { s with ptp.adjLo := v }) s
  | 0x50 => setField 0x3E (fun s => { s with ptp.adjHi := v }) s
  | _ => s

def logRegWrite (off : Nat) (v : Word) (s : State) : State :=
  let set (f : LogBlk → LogBlk) : State := setField 0x40 (fun s => { s with log := f s.log }) s
  if 0x60 ≤ off ∧ off < 0x80 then
    setField 0x40 (updCap ((off - 0x60) / 4) (fun c => { c with cfg := v &&& 0x8FFFFFFF })) s
  else match off with
  | 0x48 => setField 0x40 (fun s => wearJudge { s with log.wearlvl := v &&& 0x3FF }) s
  | 0x4C => set (fun l => { l with addr := v })
  | 0x50 => set (fun l => { l with len := v &&& 0x1FFFF })
  | 0x54 => set (fun l => { l with rseq := v })
  | 0x58 => set (fun l => { l with rofs := v })
  | _ => s

def panelRegWrite (off : Nat) (v : Word) (s : State) : State :=
  match off with
  | 0x50 => setField 0x41 (fun s => { s with panel.clkOfs := v }) s
  | 0x54 => setField 0x41 (fun s => { s with panel.pos := bitAt v 0 }) s
  | _ => s

/-- A write to a page's own registers. -/
def regWrite (req : Requester) (p off : Nat) (v : Word) (s : State) : State :=
  if p = 2 then (if off = 0x44 then clkDiscWrite v s else s)
  else if p = 8 then icuRegWrite req off v s
  else if 9 ≤ p ∧ p < 0x0E then icuTargetWrite req (p - 9) off v s
  else if p = 0x11 then planRegWrite off v s
  else if p = 0x12 then (if off = 0x40 then squarePin req v s else s)
  else if p = 0x13 then alarmRegWrite req off v s
  else if p = 0x15 then evqRegWrite req off v s
  else if p = 0x18 then safeRegWrite req off v s
  else if 0x20 ≤ p ∧ p < 0x24 then utRegWrite (p - 0x20) off v s
  else if 0x24 ≤ p ∧ p < 0x2A then ltRegWrite (p - 0x20) off v s
  else if p = 0x2A then calRegWrite off v s
  else if p = 0x2B then hartRegWrite off v s
  else if p = 0x30 then dioRegWrite off v s
  else if p = 0x31 then diRegWrite off v s
  else if 0x38 ≤ p ∧ p < 0x3C then canRegWrite (p - 0x38) off v s
  else if 0x3C ≤ p ∧ p < 0x3E then ethRegWrite (p - 0x3C) off v s
  else if p = 0x3E then ptpRegWrite off v s
  else if p = 0x40 then logRegWrite off v s
  else if p = 0x41 then panelRegWrite off v s
  else if p = 0x48 then redRegWrite off v s
  else if p = 0x49 then
    (if off = 0x40 then setField 0x49 (fun s => { s with host.rstEn := bitAt v 0 }) s else s)
  else s

/-- A write to the common header (R441, R443, R444). -/
def hdrWrite (req : Requester) (p off : Nat) (v : Word) (s : State) : State :=
  match off with
  | 0x08 => setField p id s
  | 0x10 => setField p (updHdr p (fun h => hdrEdge h { h with sticky := w1c h.sticky v })) s
  | 0x14 => setField p (updHdr p (fun h => hdrEdge h { h with irqen := v })) s
  | 0x18 => commandWrite req p (fld v 24 8) (v.setWidth 24) s
  | _ => s

/-- An aligned 32-bit write to offset `off` of page `p`: dropped on an absent page and on a domain that is off or
being switched off (R17, R26, R27), and where it belongs to S0/S1 and another writes (R346). -/
def pageAccess (req : Requester) (p off : Nat) (v : Word) (s : State) : State :=
  match pageDom s p with
  | none => s
  | some d =>
    if domTakes s d then
      if safetyOwned p off && req ≠ .safe then accessViolation p off req v s
      else if off < 0x40 then hdrWrite req p off v s
      else regWrite req p off v s
    else offAccess d s

/-! Data windows and memories (R446 and the core address map of spec/01). -/

/-- Domain of a window address; the panel frame window is absent without a panel (R1). -/
def windowDom (s : State) (a : Nat) : Option Nat :=
  if a < 0x52000000 then some 3
  else if a < 0x53000000 then some 7
  else if s.sys.variant = .p then some 7 else none

/-- Address in the plan NOR of an offset in the plan window (PLAN_WINSEL). -/
def windowNor (s : State) (o : Nat) : Nat :=
  norBase (bitAt s.plan.winsel 0) (if bitAt s.plan.winsel 1 then 256 else 0) + o

/-- An aligned 32-bit write to a data window. -/
def windowAccess (a : Nat) (v : Word) (s : State) : State :=
  match windowDom s a with
  | none => s
  | some d =>
    if domTakes s d then
      if a < 0x51000000 then windowWrite s
      else if 0x52000000 ≤ a ∧ a < 0x52008000 then canRamWrite ((a - 0x52000000) / 0x2000) (a % 0x2000 / 4) v s
      else if 0x53000000 ≤ a ∧ a < 0x53060000 then
        { s with panel.frame := Mem.writeN 0xFF s.panel.frame (a - 0x53000000) (leBytes 4 v.toNat) }
      else s
    else offAccess d s

/-- Core number of a requester. -/
def coreOf : Requester → Option Nat
  | .a0 => some 0 | .a1 => some 1 | .a2 => some 2 | .a3 => some 3 | _ => none

/-- A store to the core address map outside pages and windows: TCM, SRAM and DRAM hold it, code flash is execute and
read, and nothing lies elsewhere (log entry 14). -/
def memStore (req : Requester) (a : Nat) (l : List Byte) (s : State) : State :=
  if domUp s 2 then
    if 0x10000000 ≤ a ∧ a + l.length ≤ 0x10010000 then
      match coreOf req with
      | some c => { s with mem.tcm := s.mem.tcm.upd {} c (fun m => Mem.writeN 0 m (a - 0x10000000) l) }
      | none => s
    else if inRam a l.length then ramWrite a l s
    else s
  else s

/-- A write to pages or windows that is narrow or not aligned: dropped and not counted (R17), yet an access to a
domain that is off (R26) and a write to the square window (R250). -/
def droppedWrite (a : Nat) (s : State) : State :=
  match (if a < 0x50000000 then pageDom s ((a - 0x40000000) / 0x1000) else windowDom s a) with
  | none => s
  | some d =>
    if domTakes s d then (if 0x50000000 ≤ a ∧ a < 0x51000000 then windowWrite s else s) else offAccess d s

/-- A write of `size` bytes (1, 2 or 4) at an address. -/
def busWrite (req : Requester) (a size : Nat) (v : Word) (s : State) : State :=
  if 0x40000000 ≤ a ∧ a < 0x54000000 then
    if size = 4 ∧ a % 4 = 0 then
      if a < 0x50000000 then pageAccess req ((a - 0x40000000) / 0x1000) (a % 0x1000) v s
      else windowAccess a v s
    else droppedWrite a s
  else memStore req a (leBytes size v.toNat) s

/-- R16: a write to a register with no row of its own, and every other store of a requester. -/
def execRegisterWrite (req : Requester) (addr : Word) (size : Fin 3) (value : Word) (s : State) : Out :=
  .next (busWrite req addr.toNat (2 ^ size.val) value s)

/-! Reads. -/

/-- An aligned 32-bit read of a page: PTP_NOW_LO latches, CLAIM claims, and a read of the ICU common page by the writer
of an EN closes its window (R296, R300). -/
def pageRead (req : Requester) (p off : Nat) (s : State) : State × Word :=
  match pageDom s p with
  | none => (s, 0)
  | some d =>
    if domUp s d then
      if p = 0x3E ∧ off = 0x44 then ptpNowRead req s
      else if 9 ≤ p ∧ p < 0x0E ∧ off = 0x40 then
        let s1 := icuClaimRead req (Fin.ofNat 5 (p - 9)) s
        (s1, s1.resp.words.headD 0)
      else if p = 8 then ({ s with icu := icuCommonRead req s.icu }, regWord req s p off)
      else (s, regWord req s p off)
    else (offAccess d s, 0)

/-- An aligned 32-bit read of a data window. -/
def windowReadAt (req : Requester) (a : Nat) (s : State) : State × Word :=
  match windowDom s a with
  | none => (s, 0)
  | some d =>
    if domUp s d then
      if a < 0x50002000 then windowRead req (a - 0x50000000) s
      else if 0x51000000 ≤ a ∧ a < 0x52000000 then
        (s, BitVec.ofNat 32 (leNat (norRead s (windowNor s (a - 0x51000000)) 4)))
      else if 0x52000000 ≤ a ∧ a < 0x52008000 then
        (s, canRam32 (canGet s ((a - 0x52000000) / 0x2000)) (a % 0x2000))
      else if 0x53000000 ≤ a ∧ a < 0x53060000 then
        (s, BitVec.ofNat 32 (leNat (Mem.readN 0xFF s.panel.frame (a - 0x53000000) 4)))
      else (s, 0)
    else (offAccess d s, 0)

/-- A load of `size` bytes of the core address map outside pages and windows; what an address with nothing behind it reads the
manual does not say (log entry 14). -/
def memLoad (req : Requester) (a size : Nat) (s : State) : State × Word :=
  if 0x10000000 ≤ a ∧ a + size ≤ 0x10010000 ∧ (coreOf req).isSome then
    (s, BitVec.ofNat 32 (leNat (Mem.readN 0 (s.mem.tcm.get {} ((coreOf req).getD 0)) (a - 0x10000000) size)))
  else if a + size ≤ 0x01000000 || inRam a size then (s, BitVec.ofNat 32 (leNat (ramRead s a size)))
  else ({ s with free := s.free + 1 }, Config.word s.free)

/-- An aligned 32-bit read at an address of the register pages. -/
def pageReadAt (req : Requester) (a : Nat) (s : State) : State × Word :=
  pageRead req ((a - 0x40000000) / 0x1000) (a % 0x1000) s

/-- A read of `size` bytes (1, 2 or 4) at an address. -/
def busRead (req : Requester) (a size : Nat) (s : State) : State × Word :=
  if 0x40000000 ≤ a ∧ a < 0x54000000 then
    if a < 0x50000000 then readN (pageReadAt req) a size s
    else readN (windowReadAt req) a size s
  else memLoad req a size s

/-! The host port (R381 to R384). -/

/-- One bit of the CRC-8 of R382. -/
def crc8Bit (c : Byte) : Byte := if c.getLsbD 7 then (c <<< 1) ^^^ 0x07 else c <<< 1

def crc8 (l : List Byte) : Byte := l.foldl (fun c b => iterate crc8Bit 8 (c ^^^ b)) 0

/-- Most significant byte first. -/
def hostBytes (w : Word) : List Byte := (leBytes 4 w.toNat).reverse

/-- CRC_ERROR: counted, and nothing is performed. -/
def hostCrcError (s : State) : State :=
  hostAnswer 0x3C (setSticky 0x49 8 { s with host.crc := satInc s.host.crc })

/-- A transaction that arrives whole, on the SPI port or on the service port (R386): `run` performs it once its CRC has
checked, its command is the one named and its address is aligned. -/
def hostTransaction (usb : Bool) (command : Byte) (addr : Word) (sent : List Byte) (crc : Byte) (kind : Nat)
    (run : State → State) (s : State) : State :=
  if netUp s && (!usb || s.host.usb) then
    if crc8 (command :: sent) ≠ crc then hostCrcError s
    else if fld command 4 4 ≠ kind || addr.toNat % 4 ≠ 0 then hostRefuse 0x5A s
    else run s
  else s

def readWords (a : Nat) : Nat → State → State × List Word
  | 0, s => (s, [])
  | n + 1, s =>
    let r := busRead .host a 4 s
    let q := readWords (a + 4) n r.1
    (q.1, r.2 :: q.2)

/-- nCS is low while a transaction on the SPI port is served. -/
def hostSelect (usb low : Bool) (s : State) : State := if usb then s else { s with host.cs := low }

/-- Words of a transaction: how many its command names. -/
def readCount (command : Byte) : Nat := fld command 0 4 + 1

/-- A READ that is performed: the words and the node's CRC over the status and the data. -/
def hostReadNow (usb : Bool) (command : Byte) (addr : Word) (s : State) : State :=
  let r := readWords addr.toNat (readCount command) (hostSelect usb true s)
  { hostSelect usb false r.1 with
    resp := { words := r.2, hostStatus := some 0xC3, nodeCrc := some (crc8 (0xC3 :: r.2.flatMap hostBytes)) } }

/-- A word of the READ lies in a NOR bank that is being erased or programmed: it waits until that ends (R40). -/
def readWaits (command : Byte) (addr : Word) (s : State) : Bool :=
  domUp s 3 && norBusy s (bitAt s.plan.winsel 0)
    && (List.range (readCount command)).any (fun i =>
      0x51000000 ≤ addr.toNat + 4 * i && addr.toNat + 4 * i < 0x52000000)

/-- R383 READ: performed at once, or WAIT until the bank can be read. -/
def execHostRead (usb : Bool) (command : Byte) (addr : Word) (crc : Byte) (s : State) : Out :=
  .next (hostTransaction usb command addr (hostBytes addr) crc 1 (fun s =>
    if readWaits command addr s then
      hostAnswer 0x0F (hostSelect usb true { s with host.waiting := s.host.waiting ++ [(usb, command, addr)] })
    else hostReadNow usb command addr s) s)

/-- The READs that waited are performed, in their order. -/
def hostResume (s : State) : State :=
  s.host.waiting.foldl (fun s x => hostReadNow x.1 x.2.1 x.2.2 s) { s with host.waiting := [] }

/-- R41: a NOR operation ends, and the reads that waited for it go on (R40). -/
def execNorDone (ok : Bool) (s : State) : Out := .next (hostResume (norDone ok s))

/-- Separate writes in address order. -/
def writeWords (a : Nat) : List Word → State → State
  | [], s => s
  | w :: r, s => writeWords (a + 4) r (busWrite .host a 4 w s)

/-- R383 WRITE: the words that the command names are written; with fewer of them nCS rose before the CRC was complete, and
nothing is done (R384). -/
def execHostWrite (usb : Bool) (command : Byte) (addr : Word) (words : List Word) (crc : Byte) (s : State) : Out :=
  let sent := words.take (readCount command)
  .next (
    if sent.length < readCount command then s
    else hostTransaction usb command addr (hostBytes addr ++ sent.flatMap hostBytes) crc 2 (fun s =>
      hostAnswer 0xC3 (hostSelect usb false (writeWords addr.toNat sent (hostSelect usb true s)))) s)

end Sys2Proof.Machine
end

