-- ==== Sys2Proof/Machine/Dispatch.lean ====
section
/-! DEFINITION. The one dispatch from commands to their meanings. -/

namespace Sys2Proof.Machine

def exec (i : Instr) (s : State) : Host.Outcome State Fault Refusal :=
  match i with
  | .courseBoundary refs trim => Sys2Proof.Machine.execCourseBoundary refs trim s
  | .squarePublish => Sys2Proof.Machine.execSquarePublish s
  | .endList e => Sys2Proof.Machine.execEnd e s
  | .idle e w => Sys2Proof.Machine.execIdle e w s
  | .move e w => Sys2Proof.Machine.execMove e w s
  | .recWrite e r w => Sys2Proof.Machine.execRec e r w s
  | .fetch c w => Sys2Proof.Machine.execFetch c w s
  | .filter c w => Sys2Proof.Machine.execFilter c w s
  | .lin c w => Sys2Proof.Machine.execLin c w s
  | .linsum c w => Sys2Proof.Machine.execLinsum c w s
  | .char c w => Sys2Proof.Machine.execChar c w s
  | .cvt c w => Sys2Proof.Machine.execCvt c w s
  | .tilecmdRotation t w => Sys2Proof.Machine.execTilecmdRotation t w s
  | .tilecmdOpenTest c w => Sys2Proof.Machine.execTilecmdOpenTest c w s
  | .hart m w => Sys2Proof.Machine.execHart m w s
  | .cmp p w => Sys2Proof.Machine.execCmp p w s
  | .rate p w => Sys2Proof.Machine.execRate p w s
  | .delay p w => Sys2Proof.Machine.execDelay p w s
  | .onDelayConfirmed p => Sys2Proof.Machine.execOnDelayConfirmed p s
  | .offDelayConfirmed p => Sys2Proof.Machine.execOffDelayConfirmed p s
  | .faultDelayConfirmed p => Sys2Proof.Machine.execFaultDelayConfirmed p s
  | .releaseDelayEnd p => Sys2Proof.Machine.execReleaseDelayEnd p s
  | .logic p w => Sys2Proof.Machine.execLogic p w s
  | .group g w => Sys2Proof.Machine.execGroup g w s
  | .call t w => Sys2Proof.Machine.execCall t w s
  | .callStage1 t => Sys2Proof.Machine.execCallStage1 t s
  | .callStage2 t => Sys2Proof.Machine.execCallStage2 t s
  | .callXferFail t => Sys2Proof.Machine.execCallXferFail t s
  | .watchPrewarn => Sys2Proof.Machine.execWatchPrewarn s
  | .watchExpired => Sys2Proof.Machine.execWatchExpired s
  | .watchStage2 => Sys2Proof.Machine.execWatchStage2 s
  | .out n w => Sys2Proof.Machine.execOut n w s
  | .courseOverrun => Sys2Proof.Machine.execCourseOverrun s
  | .courseFault e kind => Sys2Proof.Machine.execCourseFault e kind s
  | .forceSet => Sys2Proof.Machine.execForceSet s
  | .sampleReady c m => Sys2Proof.Machine.execSampleReady c m s
  | .laneStale n => Sys2Proof.Machine.execLaneStale n s
  | .laneFault n => Sys2Proof.Machine.execLaneFault n s
  | .cjSample t cja cjb failA failB => Sys2Proof.Machine.execCjSample t cja cjb failA failB s
  | .excMonitorReading n reading => Sys2Proof.Machine.execExcMonitorReading n reading s
  | .iepeShortSet n bias => Sys2Proof.Machine.execIepeShortSet n bias s
  | .iepeShortClear n bias => Sys2Proof.Machine.execIepeShortClear n bias s
  | .grdLimit n limiting => Sys2Proof.Machine.execGrdLimit n limiting s
  | .outputThermSet n temp => Sys2Proof.Machine.execOutputThermSet n temp s
  | .outputThermClear n temp => Sys2Proof.Machine.execOutputThermClear n temp s
  | .loopPwrShort n current => Sys2Proof.Machine.execLoopPwrShort n current s
  | .loopPwrTrial n => Sys2Proof.Machine.execLoopPwrTrial n s
  | .loopPwrTrialEnd n limited => Sys2Proof.Machine.execLoopPwrTrialEnd n limited s
  | .burdenProt n current => Sys2Proof.Machine.execBurdenProt n current s
  | .burdenTrial n => Sys2Proof.Machine.execBurdenTrial n s
  | .burdenTrialEnd n calm => Sys2Proof.Machine.execBurdenTrialEnd n calm s
  | .hartTransactionStart m => Sys2Proof.Machine.execHartTransactionStart m s
  | .hartRt1Expiry m => Sys2Proof.Machine.execHartRt1Expiry m s
  | .hartRetry m => Sys2Proof.Machine.execHartRetry m s
  | .hartResponse m lead chars => Sys2Proof.Machine.execHartResponse m lead chars s
  | .hartForeignFrame m => Sys2Proof.Machine.execHartForeignFrame m s
  | .submit req arg => Sys2Proof.Machine.execSubmit req arg s
  | .hartCancel req arg => Sys2Proof.Machine.execHartCancel req arg s
  | .release req arg => Sys2Proof.Machine.execRelease req arg s
  | .hartDescWrite b reg value => Sys2Proof.Machine.execHartDescWrite b reg value s
  | .transferComparison t value => Sys2Proof.Machine.execTransferComparison t value s
  | .refCrosscheck ratio => Sys2Proof.Machine.execRefCrosscheck ratio s
  | .rotationStepEnd t key gain offset => Sys2Proof.Machine.execRotationStepEnd t key gain offset s
  | .calOverdue t c => Sys2Proof.Machine.execCalOverdue t c s
  | .warmupDone t => Sys2Proof.Machine.execWarmupDone t s
  | .calAged days => Sys2Proof.Machine.execCalAged days s
  | .sessionOpen req arg => Sys2Proof.Machine.execSessionOpen req arg s
  | .measure req arg => Sys2Proof.Machine.execMeasure req arg s
  | .measureDone ok dev => Sys2Proof.Machine.execMeasureDone ok dev s
  | .commit req arg => Sys2Proof.Machine.execCommit req arg s
  | .commitDone day => Sys2Proof.Machine.execCommitDone day s
  | .sessionClose req arg => Sys2Proof.Machine.execSessionClose req arg s
  | .loadPlan req arg => Sys2Proof.Machine.execLoadPlan req arg s
  | .loadPlanDone => Sys2Proof.Machine.execLoadPlanDone s
  | .stopPlan req arg => Sys2Proof.Machine.execStopPlan req arg s
  | .updateDistrict req arg => Sys2Proof.Machine.execUpdateDistrict req arg s
  | .updateVerifyDone safety peer => Sys2Proof.Machine.execUpdateVerifyDone safety peer s
  | .abortUpdate req arg => Sys2Proof.Machine.execAbortUpdate req arg s
  | .verify req arg => Sys2Proof.Machine.execVerify req arg s
  | .verifyDone => Sys2Proof.Machine.execVerifyDone s
  | .erase req arg => Sys2Proof.Machine.execErase req arg s
  | .program req arg => Sys2Proof.Machine.execProgram req arg s
  | .norDone ok => Sys2Proof.Machine.execNorDone ok s
  | .planArchive => Sys2Proof.Machine.execPlanArchive s
  | .clearPeak req arg => Sys2Proof.Machine.execClearPeak req arg s
  | .channelMaint req p arg => Sys2Proof.Machine.execChannelMaint req p arg s
  | .openTest req t arg => Sys2Proof.Machine.execOpenTest req t arg s
  | .openTestDone n ohms => Sys2Proof.Machine.execOpenTestDone n ohms s
  | .tileRestart req t arg => Sys2Proof.Machine.execTileRestart req t arg s
  | .tileRestartDone t => Sys2Proof.Machine.execTileRestartDone t s
  | .channelCfgWrite c value => Sys2Proof.Machine.execChannelCfgWrite c value s
  | .digitalCfgWrite k value => Sys2Proof.Machine.execDigitalCfgWrite k value s
  | .outputTestWrite uc n value => Sys2Proof.Machine.execOutputTestWrite uc n value s
  | .debounceComplete k mv limit idx => Sys2Proof.Machine.execDebounceComplete k mv limit idx s
  | .wireBreakWindow k avg => Sys2Proof.Machine.execWireBreakWindow k avg s
  | .overloadTrip n => Sys2Proof.Machine.execOverloadTrip n s
  | .overloadRetry n => Sys2Proof.Machine.execOverloadRetry n s
  | .retryCountRestart n => Sys2Proof.Machine.execRetryCountRestart n s
  | .inrushWindowEnd n => Sys2Proof.Machine.execInrushWindowEnd n s
  | .dioThermSet n temp => Sys2Proof.Machine.execDioThermSet n temp s
  | .dioThermClear n temp => Sys2Proof.Machine.execDioThermClear n temp s
  | .clampEnd n term => Sys2Proof.Machine.execClampEnd n term s
  | .totalOver avg => Sys2Proof.Machine.execTotalOver avg s
  | .openWireSet n => Sys2Proof.Machine.execOpenWireSet n s
  | .openWireClear n => Sys2Proof.Machine.execOpenWireClear n s
  | .lampLearned n current => Sys2Proof.Machine.execLampLearned n current s
  | .darkSet n => Sys2Proof.Machine.execDarkSet n s
  | .darkClear n => Sys2Proof.Machine.execDarkClear n s
  | .lampDegraded n degraded => Sys2Proof.Machine.execLampDegraded n degraded s
  | .dioReadback n mismatch => Sys2Proof.Machine.execDioReadback n mismatch s
  | .outReset req arg => Sys2Proof.Machine.execOutReset req arg s
  | .relearn req arg => Sys2Proof.Machine.execRelearn req arg s
  | .ackPoint req arg => Sys2Proof.Machine.execAckPoint req arg s
  | .ackGroup req arg => Sys2Proof.Machine.execAckGroup req arg s
  | .ackAll req arg => Sys2Proof.Machine.execAckAll req arg s
  | .silence req arg => Sys2Proof.Machine.execSilence req arg s
  | .inhibit req arg => Sys2Proof.Machine.execInhibit req arg s
  | .resetFirstOut req arg => Sys2Proof.Machine.execResetFirstOut req arg s
  | .setDuty req arg => Sys2Proof.Machine.execSetDuty req arg s
  | .watchEnable req arg => Sys2Proof.Machine.execWatchEnable req arg s
  | .watchReset req arg => Sys2Proof.Machine.execWatchReset req arg s
  | .squarePin req value => Sys2Proof.Machine.execSquarePin req value s
  | .squareWindowRead req a size => Sys2Proof.Machine.execSquareWindowRead req a size s
  | .squareWindowWrite req a value => Sys2Proof.Machine.execSquareWindowWrite req a value s
  | .icuSourceOccurrence src => Sys2Proof.Machine.execIcuSourceOccurrence src s
  | .coalesceTimeout src => Sys2Proof.Machine.execCoalesceTimeout src s
  | .holdoffEnd g => Sys2Proof.Machine.execHoldoffEnd g s
  | .icuSwi t value => Sys2Proof.Machine.execIcuSwi t value s
  | .icuClaim req t => Sys2Proof.Machine.execIcuClaim req t s
  | .icuEoi req t value => Sys2Proof.Machine.execIcuEoi req t value s
  | .icuTiersWrite hi value => Sys2Proof.Machine.execIcuTiersWrite hi value s
  | .icuSrcCfgWrite req src value => Sys2Proof.Machine.execIcuSrcCfgWrite req src value s
  | .eventRecordArrival k => Sys2Proof.Machine.execEventRecordArrival k s
  | .evqPop req q value => Sys2Proof.Machine.execEvqPop req q value s
  | .evqOverloadClear q => Sys2Proof.Machine.execEvqOverloadClear q s
  | .evqDisable q alarms => Sys2Proof.Machine.execEvqDisable q alarms s
  | .heartbeatSend => Sys2Proof.Machine.execHeartbeatSend s
  | .heartbeatReceive st h => Sys2Proof.Machine.execHeartbeatReceive st h s
  | .echoReceive st rtt => Sys2Proof.Machine.execEchoReceive st rtt s
  | .streetMissing st => Sys2Proof.Machine.execStreetMissing st s
  | .streetPresent st => Sys2Proof.Machine.execStreetPresent st s
  | .claimFrameSend => Sys2Proof.Machine.execClaimFrameSend s
  | .claimFrameReceive c role ok => Sys2Proof.Machine.execClaimFrameReceive c role ok s
  | .claimLineMissing => Sys2Proof.Machine.execClaimLineMissing s
  | .gateEnable => Sys2Proof.Machine.execGateEnable s
  | .gateFault stage => Sys2Proof.Machine.execGateFault stage s
  | .epochRenumber => Sys2Proof.Machine.execEpochRenumber s
  | .electionWindowEnd => Sys2Proof.Machine.execElectionWindowEnd s
  | .standbyRephase cn wi offset => Sys2Proof.Machine.execStandbyRephase cn wi offset s
  | .stateSyncReceive st ok m => Sys2Proof.Machine.execStateSyncReceive st ok m s
  | .yieldMessageReceive st cause => Sys2Proof.Machine.execYieldMessageReceive st cause s
  | .switchover req arg => Sys2Proof.Machine.execSwitchover req arg s
  | .clearCounts req arg => Sys2Proof.Machine.execClearCounts req arg s
  | .updateSafetyDistrict req arg => Sys2Proof.Machine.execUpdateSafetyDistrict req arg s
  | .releaseLane req arg => Sys2Proof.Machine.execReleaseLane req arg s
  | .restoreLane req arg => Sys2Proof.Machine.execRestoreLane req arg s
  | .releaseOutput req arg => Sys2Proof.Machine.execReleaseOutput req arg s
  | .restoreOutput req arg => Sys2Proof.Machine.execRestoreOutput req arg s
  | .resetLane req arg => Sys2Proof.Machine.execResetLane req arg s
  | .forceReset req arg => Sys2Proof.Machine.execForceReset req arg s
  | .releaseLapsed => Sys2Proof.Machine.execReleaseLapsed s
  | .watchdogService => Sys2Proof.Machine.execWatchdogService s
  | .watchdogExpiry => Sys2Proof.Machine.execWatchdogExpiry s
  | .lockstepMismatch => Sys2Proof.Machine.execLockstepMismatch s
  | .pd1Restart => Sys2Proof.Machine.execPd1Restart s
  | .keyInstall n key mac => Sys2Proof.Machine.execKeyInstall n key mac s
  | .ethFrameReceive p f => Sys2Proof.Machine.execEthFrameReceive p f s
  | .ethFrameTransmit p => Sys2Proof.Machine.execEthFrameTransmit p s
  | .prpSupervisionSend => Sys2Proof.Machine.execPrpSupervisionSend s
  | .prpEntryExpiry => Sys2Proof.Machine.execPrpEntryExpiry s
  | .ethCfgWrite p value => Sys2Proof.Machine.execEthCfgWrite p value s
  | .ethQueueCtlWrite p q value => Sys2Proof.Machine.execEthQueueCtlWrite p q value s
  | .ethLinkChange p link g1 mdix => Sys2Proof.Machine.execEthLinkChange p link g1 mdix s
  | .ptpSet req arg => Sys2Proof.Machine.execPtpSet req arg s
  | .ptpStep req arg => Sys2Proof.Machine.execPtpStep req arg s
  | .ptpNowRead req => Sys2Proof.Machine.execPtpNowRead req s
  | .ptpValidExpiry => Sys2Proof.Machine.execPtpValidExpiry s
  | .canFrameReceive n f => Sys2Proof.Machine.execCanFrameReceive n f s
  | .canSend n value => Sys2Proof.Machine.execCanSend n value s
  | .canWithdraw n value => Sys2Proof.Machine.execCanWithdraw n value s
  | .canFrameSent n sub => Sys2Proof.Machine.execCanFrameSent n sub s
  | .canTxError n arb => Sys2Proof.Machine.execCanTxError n arb s
  | .canBusOffRecovery n => Sys2Proof.Machine.execCanBusOffRecovery n s
  | .canQueueFree n k value => Sys2Proof.Machine.execCanQueueFree n k value s
  | .canCfgWrite n reg value => Sys2Proof.Machine.execCanCfgWrite n reg value s
  | .canMsgramWrite n w value => Sys2Proof.Machine.execCanMsgramWrite n w value s
  | .hostRead usb command addr crc => Sys2Proof.Machine.execHostRead usb command addr crc s
  | .hostWrite usb command addr words crc => Sys2Proof.Machine.execHostWrite usb command addr words crc s
  | .hostCsAbort => Sys2Proof.Machine.execHostCsAbort s
  | .hostReset refs trim => Sys2Proof.Machine.execHostReset refs trim s
  | .append req arg => Sys2Proof.Machine.execAppend req arg s
  | .logRead req arg bad => Sys2Proof.Machine.execLogRead req arg bad s
  | .capture req arg => Sys2Proof.Machine.execCapture req arg s
  | .captureComplete c => Sys2Proof.Machine.execCaptureComplete c s
  | .trendRecord => Sys2Proof.Machine.execTrendRecord s
  | .logCommit p n mean top => Sys2Proof.Machine.execLogCommit p n mean top s
  | .logBlockFailure p silent => Sys2Proof.Machine.execLogBlockFailure p silent s
  | .logReady bad => Sys2Proof.Machine.execLogReady bad s
  | .panelUpdate req arg => Sys2Proof.Machine.execPanelUpdate req arg s
  | .panelCancel req arg => Sys2Proof.Machine.execPanelCancel req arg s
  | .clearPanel req arg => Sys2Proof.Machine.execClearPanel req arg s
  | .panelUpdateStart k => Sys2Proof.Machine.execPanelUpdateStart k s
  | .panelCopyDone k => Sys2Proof.Machine.execPanelCopyDone k s
  | .panelUpdateDone k => Sys2Proof.Machine.execPanelUpdateDone k s
  | .panelBannerDraw => Sys2Proof.Machine.execPanelBannerDraw s
  | .panelRedraw => Sys2Proof.Machine.execPanelRedraw s
  | .glassTempRead temp => Sys2Proof.Machine.execGlassTempRead temp s
  | .crackLoopMeasure meas => Sys2Proof.Machine.execCrackLoopMeasure meas s
  | .powerOn role tcxo refs trim rtc => Sys2Proof.Machine.execPowerOn role tcxo refs trim rtc s
  | .refCheckRetry refs trim => Sys2Proof.Machine.execRefCheckRetry refs trim s
  | .clockFault => Sys2Proof.Machine.execClockFault s
  | .clockHoldEnd refs trim => Sys2Proof.Machine.execClockHoldEnd refs trim s
  | .discHoldover => Sys2Proof.Machine.execDiscHoldover s
  | .dramDoubleBitError => Sys2Proof.Machine.execDramDoubleBitError s
  | .vsUvSet vs => Sys2Proof.Machine.execVsUvSet vs s
  | .supplyLoss vs => Sys2Proof.Machine.execSupplyLoss vs s
  | .shedPd7Off => Sys2Proof.Machine.execShedPd7Off s
  | .vsUvClear vs held => Sys2Proof.Machine.execVsUvClear vs held s
  | .supplyReturn refs trim => Sys2Proof.Machine.execSupplyReturn refs trim s
  | .vfFaultSet n mv => Sys2Proof.Machine.execVfFaultSet n mv s
  | .vfFaultClear n mv => Sys2Proof.Machine.execVfFaultClear n mv s
  | .vfNoneSet => Sys2Proof.Machine.execVfNoneSet s
  | .vfNoneClear => Sys2Proof.Machine.execVfNoneClear s
  | .holdupMeasure volt charging cap => Sys2Proof.Machine.execHoldupMeasure volt charging cap s
  | .domainOff req arg => Sys2Proof.Machine.execDomainOff req arg s
  | .domainOn req arg => Sys2Proof.Machine.execDomainOn req arg s
  | .domainSwitchDone trim => Sys2Proof.Machine.execDomainSwitchDone trim s
  | .reset req arg => Sys2Proof.Machine.execReset req arg s
  | .coreReset req arg => Sys2Proof.Machine.execCoreReset req arg s
  | .registerWrite req addr size value => Sys2Proof.Machine.execRegisterWrite req addr size value s
  | .holdupExhausted => Sys2Proof.Machine.execHoldupExhausted s
  | .canRxError n => Sys2Proof.Machine.execCanRxError n s
  | .canBusIntegrated n => Sys2Proof.Machine.execCanBusIntegrated n s
  | .dramSingleBitError => Sys2Proof.Machine.execDramSingleBitError s
  | .servicePortConfigured on => Sys2Proof.Machine.execServicePortConfigured on s

end Sys2Proof.Machine
end

