-- ==== Sys2Proof/Safety.lean ====
section
/-! DEFINITION. What a safe state and a completed command are, in the terms the claims use: the invariants of the block,
how a page answers a command, and the engine and cost of each slot word. -/

namespace Sys2Proof.Machine

/-! Invariants. -/

/-- R324, R327: the gates are enabled only while the unit's own claim is not 0 and, but for a SOLO unit, above the peer's;
only an ACTIVE or SOLO unit holds a claim; a unit in role conflict holds none. -/
def ClaimSafe (s : State) : Prop :=
  (s.red.gates = true → s.red.own ≠ 0 ∧ (s.red.role = .solo ∨ s.red.peer < s.red.own))
    ∧ (s.red.own ≠ 0 → s.red.state = .active ∨ s.red.state = .solo)
    ∧ (s.red.roleConflict = true → s.red.own = 0)

/-- The byte memories are in canonical form: code flash, SRAM and DRAM, the TCM of core `k`, NOR, the message RAM of CAN
controller `n`, and the panel's frame. -/
def MemCanon (s : State) : Prop :=
  s.mem.main.wf 0 = true ∧ (∀ k, (s.mem.tcm.get {} k).wf 0 = true) ∧ s.plan.nor.wf 0xFF = true
    ∧ (∀ n, (s.cans.get {} n).ram.wf 0 = true) ∧ s.panel.frame.wf 0xFF = true

/-! Commands of a page (R444). -/

/-- A page whose domain takes writes and whose command register is free. -/
def PageReady (s : State) (p : Nat) : Prop :=
  (∃ d, pageDom s p = some d ∧ domTakes s d = true) ∧ (hdr s p).busy = false

/-- A page whose domain takes writes. -/
def PageTakes (s : State) (p : Nat) : Prop := ∃ d, pageDom s p = some d ∧ domTakes s d = true

/-- Header of a page after a command that has ended (R444, R445, R22). -/
def hdrDone (st : CStat) (res : Nat) (h : PageHdr) : PageHdr :=
  { h with busy := false, status := st.code, result := BitVec.ofNat 24 res, seq := h.seq + 1, sync := h.sync + 1, run := none }

/-- Header of a page whose command is running (R444). -/
def hdrHeld (req : Requester) (op : Byte) (arg : BitVec 24) (h : PageHdr) : PageHdr :=
  { h with busy := true, status := 0x7F, result := 0, seq := h.seq + 1, sync := h.sync + 1, run := some ⟨req, op, arg⟩ }

/-- Header of a page whose running command has ended (R444, R445). -/
def hdrEnd (st : CStat) (res : Nat) (h : PageHdr) : PageHdr :=
  { h with busy := false, status := st.code, result := BitVec.ofNat 24 res, run := none }

/-- Header of a page with one more write applied (R22). -/
def hdrCount (h : PageHdr) : PageHdr := { h with sync := h.sync + 1 }

/-- Header of a page one of whose sticky bits is set. -/
def hdrSticky (bit : Nat) (h : PageHdr) : PageHdr := hdrEdge h { h with sticky := setBit h.sticky bit true }

/-- Command `c` runs: page `p`'s header becomes `f` of what it was, no other header changes, and the rest of the block
stands as in `t'`. -/
def Answers (c : Instr) (s : State) (p : Nat) (f : PageHdr → PageHdr) (t' : State) : Prop :=
  ∃ t, exec c s = .next t ∧ hdr t p = f (hdr s p) ∧ (∀ q, q ≠ p → hdr t q = hdr s q) ∧ t = { t' with hdrs := t.hdrs }

/-- An event record of class `cls` leaves for the queues as the newest, if the course island is up (R307). -/
def Raised (s t : State) (cls code source data : Nat) : Prop :=
  domUp s 3 = true → ∃ e : EventRec, t.evq.inflight = s.evq.inflight ++ [e] ∧ e.cn = s.course.cn
    ∧ e.cls = BitVec.ofNat 8 cls ∧ e.code = BitVec.ofNat 8 code ∧ e.source = BitVec.ofNat 16 source
    ∧ e.data = BitVec.ofNat 96 data

/-- Page of a command that is written to its PG_CMD (R444, R445). -/
def commandPage : Instr → Option Nat
  | .domainOff _ _ | .domainOn _ _ | .reset _ _ | .coreReset _ _ => some 0x00
  | .clearPeak _ _ => some 0x10
  | .loadPlan _ _ | .stopPlan _ _ | .updateDistrict _ _ | .abortUpdate _ _ | .verify _ _ | .erase _ _
  | .program _ _ => some 0x11
  | .ackPoint _ _ | .ackGroup _ _ | .ackAll _ _ | .silence _ _ | .inhibit _ _ | .resetFirstOut _ _ => some 0x13
  | .setDuty _ _ | .watchEnable _ _ | .watchReset _ _ => some 0x14
  | .updateSafetyDistrict _ _ | .releaseLane _ _ | .restoreLane _ _ | .releaseOutput _ _ | .restoreOutput _ _
  | .resetLane _ _ | .forceReset _ _ => some 0x18
  | .channelMaint _ p _ => some (maintPage p.val)
  | .openTest _ t _ => some (0x20 + t.val)
  | .tileRestart _ t _ => some (tilePage t.val)
  | .sessionOpen _ _ | .measure _ _ | .commit _ _ | .sessionClose _ _ => some 0x2A
  | .submit _ _ | .hartCancel _ _ | .release _ _ => some 0x2B
  | .outReset _ _ | .relearn _ _ => some 0x30
  | .ptpSet _ _ | .ptpStep _ _ => some 0x3E
  | .append _ _ | .logRead _ _ _ | .capture _ _ => some 0x40
  | .panelUpdate _ _ | .panelCancel _ _ | .clearPanel _ _ => some 0x41
  | .switchover _ _ | .clearCounts _ _ => some 0x48
  | _ => none

/-- The same, for the last of the records that leave. -/
def RaisedLast (s t : State) (cls code source data : Nat) : Prop :=
  domUp s 3 = true → ∃ (l : List EventRec) (e : EventRec), t.evq.inflight = s.evq.inflight ++ l ++ [e]
    ∧ e.cn = s.course.cn ∧ e.cls = BitVec.ofNat 8 cls ∧ e.code = BitVec.ofNat 8 code
    ∧ e.source = BitVec.ofNat 16 source ∧ e.data = BitVec.ofNat 96 data

/-! Slot words (R67, R70). -/

/-- The engine that executes a slot word other than END, and its cycles. -/
def slotCost : Instr → Option (Nat × Nat)
  | .idle e w => some (e.val, w.p.toNat)
  | .move e _ => some (e.val, 2)
  | .recWrite e _ _ => some (e.val, 6)
  | .fetch _ _ => some (0, 4)
  | .filter _ _ => some (0, 14)
  | .lin _ w => some (0, 6 + 6 * w.p.toNat)
  | .linsum _ w => some (0, 4 + 6 * w.p.toNat)
  | .char _ _ => some (0, 30)
  | .cvt _ _ => some (0, 3)
  | .tilecmdRotation _ _ => some (0, 3)
  | .tilecmdOpenTest _ _ => some (0, 3)
  | .hart _ _ => some (0, 4)
  | .cmp _ _ => some (1, 8)
  | .rate _ _ => some (1, 16)
  | .delay _ _ => some (1, 12)
  | .logic _ w => some (1, 4 + 2 * w.p.toNat)
  | .group _ _ => some (1, 18)
  | .call _ _ => some (1, 14)
  | .out _ _ => some (1, 5)
  | _ => none

/-- Whether a slot word is due: its engine runs and its list has exactly this word next, in the entry of the target it acts
on; for END, whether the list has been walked (R67, R469). -/
def slotRuns (i : Instr) (s : State) : Bool :=
  match i with
  | .endList e => engineRuns s e.val && endDue s e.val
  | .idle e w => wordRuns s e.val 0x01 none w
  | .move e w => wordRuns s e.val 0x02 none w
  | .recWrite e r w => wordRuns s e.val 0x03 (some (chanOwner r.val)) w
  | .fetch c w => wordRuns s 0 0x10 (some (chanOwner c.val)) w
  | .filter c w => wordRuns s 0 0x11 (some (chanOwner c.val)) w
  | .lin c w => wordRuns s 0 0x12 (some (chanOwner c.val)) w
  | .linsum c w => wordRuns s 0 0x13 (some (chanOwner c.val)) w
  | .char c w => wordRuns s 0 0x14 (some (chanOwner c.val)) w
  | .cvt c w => wordRuns s 0 0x15 (some (chanOwner c.val)) w
  | .tilecmdRotation t w => wordRuns s 0 0x16 (some (0x0A, t.val)) w
  | .tilecmdOpenTest c w => wordRuns s 0 0x16 (some (1, c.val)) w
  | .hart m w => wordRuns s 0 0x17 (some (9, m.val)) w
  | .cmp p w => wordRuns s 1 0x20 (some (5, p.val)) w
  | .rate p w => wordRuns s 1 0x21 (some (5, p.val)) w
  | .delay p w => wordRuns s 1 0x22 (some (5, p.val)) w
  | .logic p w => wordRuns s 1 0x23 (some (5, p.val)) w
  | .group g w => wordRuns s 1 0x24 (some (6, g.val)) w
  | .call t w => wordRuns s 1 0x25 (some (if t.val < 16 then (7, t.val) else (0x0C, 0))) w
  | .out n w => wordRuns s 1 0x26 (some (if n.val < 32 then (3, n.val) else (1, n.val - 32))) w
  | _ => false

/-! Reset values of the register tables of the chapters: page, offset, mask of the fields with a reset value, value. The
first instance stands for a row with an index. -/

def resetRows0 : List (Nat × Nat × Word × Word) := [
  (0x00, 0x40, 0xFF000000, 0x0), (0x00, 0x44, 0x0000FFFF, 0x1), (0x00, 0x48, 0xFF00FFFF, 0x0),
  (0x00, 0x50, 0xFFFFFFFF, 0x0), (0x01, 0x40, 0xFE000000, 0x4000000), (0x01, 0x44, 0x0000FFFF, 0x0),
  (0x01, 0x48, 0xFFFFFFFF, 0x0), (0x01, 0x4C, 0xFFFFFFFF, 0x0), (0x01, 0x54, 0xFFFFFFFF, 0x0),
  (0x02, 0x40, 0x0000317F, 0x0), (0x02, 0x44, 0x0001FFFF, 0x0), (0x08, 0x40, 0xFFFFFFFF, 0x80604020),
  (0x08, 0x44, 0x00FFFFFF, 0xE0C0A0), (0x08, 0x80, 0xFFFFFFFF, 0x0), (0x08, 0xA0, 0xFFFFFFFF, 0x0),
  (0x08, 0x400, 0xE00700FF, 0x0), (0x08, 0x800, 0xFF00FFFF, 0x1000000), (0x08, 0xC00, 0x0000FFFF, 0x0),
  (0x09, 0x40, 0x000003FF, 0x3FF), (0x09, 0x44, 0x000003FF, 0x3FF), (0x09, 0x4C, 0x000000FF, 0x0),
  (0x09, 0x50, 0xF01FFF07, 0x0), (0x09, 0x58, 0xFF0FFFFF, 0xFFFFF), (0x09, 0x80, 0x83FF00FF, 0x0),
  (0x09, 0xC0, 0xE00000FF, 0x0), (0x10, 0x40, 0xFFFFFFFF, 0x0), (0x10, 0x44, 0x00000FFF, 0x0),
  (0x10, 0x48, 0x00000103, 0x0), (0x10, 0x4C, 0xFFFFFFFF, 0x0), (0x10, 0x50, 0xFFFFFFFF, 0x0),
  (0x10, 0x54, 0x8FFFFFFF, 0x0), (0x10, 0x58, 0xFFFFFFFF, 0x0)]

def resetRows1 : List (Nat × Nat × Word × Word) := [
  (0x10, 0x5C, 0xFFFFFFFF, 0x0), (0x11, 0x40, 0x00000003, 0x0), (0x11, 0x44, 0x01F0FFFF, 0x0),
  (0x11, 0x48, 0x00001FFF, 0x0), (0x11, 0x4C, 0xFFFFFFFF, 0x0), (0x11, 0x50, 0xFFFFFFFF, 0x0),
  (0x11, 0x58, 0xFFFFFFFF, 0x0), (0x11, 0x5C, 0x01FFFFFF, 0x0), (0x11, 0x60, 0x00000003, 0x0),
  (0x11, 0x64, 0xC00000FF, 0x0), (0x11, 0x100, 0xFFFF0607, 0x0), (0x11, 0x104, 0xFFFFFFFF, 0x0),
  (0x11, 0x108, 0x80FFFFFF, 0x0), (0x11, 0x10C, 0x03FF03FF, 0x0), (0x11, 0x110, 0xFFFFFFFF, 0x0),
  (0x11, 0x114, 0x0000FFFF, 0x0), (0x12, 0x40, 0x00000001, 0x0), (0x12, 0x44, 0xFFFFFFFF, 0x0),
  (0x12, 0x48, 0x00000703, 0x0), (0x12, 0x4C, 0xFFFFFFFF, 0x0), (0x12, 0x50, 0xFF000F07, 0x0),
  (0x12, 0x54, 0xFFFFFFFF, 0x0), (0x12, 0x100, 0xC70001FF, 0x0), (0x12, 0x104, 0xFFFFFFFF, 0x0),
  (0x13, 0x40, 0x0FFF0FFF, 0x0), (0x13, 0x44, 0x0FFF0FFF, 0x0), (0x13, 0x48, 0x0FFF0FFF, 0x0),
  (0x13, 0x4C, 0x00FF07FF, 0x0), (0x13, 0x50, 0xFFFFFFFF, 0x0), (0x13, 0x54, 0xFFFFFFFF, 0x0),
  (0x13, 0x58, 0xFFFFFFF8, 0x0), (0x13, 0x5C, 0x0000FFFF, 0x0)]

def resetRows2 : List (Nat × Nat × Word × Word) := [
  (0x13, 0x60, 0xFFFFFFFF, 0x0), (0x13, 0x64, 0x800007FF, 0x0), (0x13, 0x68, 0xFFFFFFFF, 0x0),
  (0x13, 0x6C, 0xFFFFFFFF, 0x0), (0x14, 0x40, 0xE000000F, 0x0), (0x14, 0x44, 0xE0000FFF, 0x0),
  (0x14, 0x48, 0xFFFFFFFF, 0x0), (0x14, 0x100, 0xF8000FFF, 0x0), (0x14, 0x104, 0xFFFFFFFF, 0x0),
  (0x15, 0x100, 0xC0000000, 0x40000000), (0x15, 0x104, 0xE7FF07FF, 0x0), (0x15, 0x108, 0xFFFFFFFF, 0x0),
  (0x15, 0x10C, 0xFFFF0FFF, 0x0), (0x15, 0x114, 0xFFFFFFFF, 0xFFFFFFFF), (0x15, 0x118, 0xFFFFFFFF, 0xFFFFFFFF),
  (0x15, 0x11C, 0x0000FFFF, 0xFFFF), (0x15, 0x120, 0xFFFFFFFF, 0x0), (0x18, 0x40, 0xE0FF0000, 0x0),
  (0x18, 0x44, 0x0000003F, 0x0), (0x18, 0x48, 0xFC1FFFBF, 0x0), (0x18, 0x4C, 0xF83F001F, 0x0),
  (0x18, 0x50, 0xFFFF0FFF, 0x0), (0x18, 0x54, 0xFFFFFFFF, 0x0), (0x18, 0x58, 0xFFFFFFFF, 0x0),
  (0x18, 0x80, 0xFFFFFFFF, 0x0), (0x18, 0x84, 0xFFFFFFFF, 0x0), (0x18, 0x88, 0xFFFFFFFF, 0x0),
  (0x18, 0x8C, 0xFFFFFFFF, 0x0), (0x18, 0x90, 0xFFFFFFFF, 0x0), (0x18, 0x94, 0xFFFFFFFF, 0x0),
  (0x18, 0x100, 0xFFFFFFFF, 0x0), (0x18, 0x104, 0xFFFFFFFF, 0x0)]

def resetRows3 : List (Nat × Nat × Word × Word) := [
  (0x18, 0x108, 0xFFFFFFFF, 0x0), (0x18, 0x10C, 0xFFFFFFFF, 0x0), (0x20, 0x40, 0x0000FFFF, 0x0),
  (0x20, 0x44, 0xFFFFFFFF, 0x0), (0x20, 0x48, 0x0000000F, 0x0), (0x20, 0x4C, 0xC700C700, 0x0),
  (0x20, 0x50, 0x0000FFFF, 0x0), (0x20, 0x100, 0xFFFC0000, 0x0), (0x20, 0x104, 0x000FFFFF, 0x0),
  (0x20, 0x108, 0xFFFFFFFF, 0x0), (0x20, 0x10C, 0xFF000FFF, 0x0), (0x20, 0x110, 0x0000007F, 0x0),
  (0x20, 0x114, 0x0000FFFF, 0x0), (0x20, 0x118, 0x80FFFFFF, 0x0), (0x20, 0x140, 0x83003FFF, 0x0),
  (0x20, 0x144, 0xFFFFFFFF, 0x0), (0x20, 0x148, 0xFFFFFFFF, 0x0), (0x20, 0x14C, 0xFFFFFFFF, 0xFF800000),
  (0x20, 0x150, 0xFFFFFFFF, 0x7F800000), (0x20, 0x154, 0xFFFFFFFF, 0x0), (0x20, 0x158, 0xFFFFFFFF, 0x0),
  (0x20, 0x15C, 0xFFFFFFFF, 0x0), (0x20, 0x160, 0x0000FFFF, 0x0), (0x20, 0x164, 0xFF80FFFF, 0x0),
  (0x20, 0x168, 0x0000003F, 0x0), (0x24, 0x40, 0x0000FFFF, 0x0), (0x24, 0x44, 0x00008700, 0x0),
  (0x24, 0x48, 0x0000FFFF, 0x0), (0x24, 0x100, 0xFFFE0000, 0x0), (0x24, 0x104, 0xFFFFFFFF, 0x11940DAC),
  (0x24, 0x108, 0xFFF0FFFF, 0x0), (0x24, 0x10C, 0x0000007F, 0x0)]

def resetRows4 : List (Nat × Nat × Word × Word) := [
  (0x24, 0x110, 0xFFFFFFFF, 0x0), (0x2A, 0x40, 0xE0FFFFFF, 0x0), (0x2A, 0x44, 0xF81F0000, 0x0),
  (0x2A, 0x48, 0x000007FF, 0x4B0), (0x2A, 0x58, 0xFFFFFFFF, 0x0), (0x2A, 0x5C, 0xFFFFFFFF, 0x0),
  (0x2A, 0x60, 0x80FFFFFF, 0x0), (0x2A, 0x64, 0x80FFFFFF, 0x0), (0x2A, 0x68, 0x80FFFFFF, 0x0),
  (0x2A, 0x6C, 0x03FF03FF, 0x0), (0x2A, 0x70, 0x000003FF, 0x0), (0x2A, 0x74, 0x0000FFFF, 0x0),
  (0x2B, 0x40, 0x00001F01, 0x500), (0x2B, 0x44, 0x03FF1F00, 0x0), (0x2B, 0x64, 0xFFFFFFFF, 0x0),
  (0x2B, 0x100, 0x03BF01FF, 0x0), (0x2B, 0x104, 0xFFFFFFFF, 0x0), (0x2B, 0x108, 0xFFFFFFFF, 0x0),
  (0x2B, 0x10C, 0xC70301FF, 0x0), (0x2B, 0x110, 0xFFFFFFFF, 0x0), (0x30, 0x40, 0xFFFFFFFF, 0x0),
  (0x30, 0x44, 0xFFFFFFFF, 0x0), (0x30, 0x48, 0x8000FFFF, 0x0), (0x30, 0x4C, 0xFFFFFFFF, 0x0),
  (0x30, 0x100, 0xFFFFF000, 0xA000), (0x30, 0x104, 0x0000FFFF, 0x1), (0x30, 0x108, 0x80000001, 0x0),
  (0x30, 0x10C, 0xFFFFFFFF, 0x0), (0x30, 0x110, 0xFFFFFFFF, 0x0), (0x30, 0x114, 0x80FFFFFF, 0x0),
  (0x30, 0x118, 0x000007FF, 0x0), (0x31, 0x40, 0xFFFFFFFF, 0x0)]

def resetRows5 : List (Nat × Nat × Word × Word) := [
  (0x31, 0x100, 0xF8000000, 0x0), (0x31, 0x108, 0xE000FFFF, 0x0), (0x31, 0x10C, 0x00000007, 0x0),
  (0x38, 0x40, 0xFC000000, 0x0), (0x38, 0x44, 0xFC003F3F, 0xFC000505), (0x38, 0x48, 0xFFFFFF7F, 0x14F3F0F),
  (0x38, 0x4C, 0xFF1FFFFF, 0xA0014CF3), (0x38, 0x50, 0xE07FFFFF, 0xC0000000), (0x38, 0x5C, 0xFFFFFFFF, 0x0),
  (0x38, 0x60, 0xFFFFFFFF, 0x0), (0x38, 0x64, 0xFFFFFFFF, 0x0), (0x38, 0x68, 0xFFFFFFFF, 0x0),
  (0x38, 0x6C, 0xFFFFFFFF, 0x0), (0x38, 0x70, 0xFFFF3F3F, 0x0), (0x38, 0x90, 0xFFFFFFFF, 0x0),
  (0x3C, 0x40, 0xBC00FFFF, 0xFA50), (0x3C, 0x44, 0xE0000000, 0x0), (0x3C, 0x50, 0x8FFF8FFF, 0x0),
  (0x3C, 0x60, 0xFFFFFFFF, 0x0), (0x3C, 0x104, 0x800007FF, 0x10), (0x3C, 0x108, 0xFFFFFFFF, 0x0),
  (0x3E, 0x40, 0xC00000FF, 0x4), (0x3E, 0x44, 0xFFFFFFFF, 0x0), (0x3E, 0x48, 0xFFFFFFFF, 0x0),
  (0x3E, 0x4C, 0xFFFFFFFF, 0x0), (0x3E, 0x50, 0xFFFFFFFF, 0x0), (0x40, 0x40, 0xB001FFFF, 0x0),
  (0x40, 0x48, 0x000003FF, 0x64), (0x40, 0x4C, 0xFFFFFFFF, 0x0), (0x40, 0x50, 0x0001FFFF, 0x0),
  (0x40, 0x54, 0xFFFFFFFF, 0x0), (0x40, 0x58, 0xFFFFFFFF, 0x0)]

def resetRows6 : List (Nat × Nat × Word × Word) := [
  (0x40, 0x5C, 0xFFFFFFFF, 0x0), (0x40, 0x60, 0x8FFFFFFF, 0x0), (0x40, 0x80, 0x0000FFFF, 0x0),
  (0x40, 0x10C, 0xFFFF0000, 0x0), (0x41, 0x40, 0xEC0F0007, 0x0), (0x41, 0x44, 0x0000FFFF, 0x0),
  (0x41, 0x48, 0x0000FFFF, 0x0), (0x41, 0x4C, 0xFFFFFFFF, 0x0), (0x41, 0x100, 0xFF00FFFF, 0x0),
  (0x41, 0x104, 0x07FF07FF, 0x0), (0x41, 0x108, 0x07FF07FF, 0x0), (0x41, 0x10C, 0xFFFFFFFF, 0x0),
  (0x41, 0x144, 0x07FF07FF, 0x0), (0x41, 0x148, 0x07FF07FF, 0x0), (0x48, 0x40, 0xFFFF0000, 0x0),
  (0x48, 0x44, 0xFFFFFFFF, 0x0), (0x48, 0x48, 0xFF00FFFF, 0x0), (0x48, 0x4C, 0xFF00FFFF, 0x0),
  (0x48, 0x50, 0xFFFFFFFF, 0x0), (0x48, 0x54, 0xFFFFFFFF, 0x0), (0x48, 0x58, 0xFF00FFFF, 0x0),
  (0x48, 0x5C, 0xFFFFFFFF, 0x0), (0x48, 0x60, 0xFFFFFFFF, 0x0), (0x48, 0x64, 0xFFFFFFFF, 0x0),
  (0x48, 0x68, 0xFFFFFFFF, 0x0), (0x48, 0x6C, 0x000003FF, 0x0), (0x48, 0x100, 0x00000001, 0x0),
  (0x48, 0x104, 0xFFFFFFFF, 0x0), (0x49, 0x40, 0x00000001, 0x1), (0x49, 0x44, 0xC0000000, 0x0),
  (0x49, 0x48, 0xFFFFFFFF, 0x0)]

def resetTable : List (Nat × Nat × Word × Word) :=
  resetRows0 ++ resetRows1 ++ resetRows2 ++ resetRows3 ++ resetRows4 ++ resetRows5 ++ resetRows6

end Sys2Proof.Machine
end

