-- ==== Sys2Proof/WellFormed.lean ====
section
/-! DEFINITION. Well-formed commands: operands that the manual lets a command have.  The meanings are total; these
checks say which commands a sender may send. -/

namespace Sys2Proof

/-- P of a slot word in the range its class allows (R70). -/
def SlotWord.inRange (w : SlotWord) (lo hi : Nat) : Bool := lo ≤ w.p.toNat && w.p.toNat ≤ hi

/-- A CAN frame as ISO 11898-1 frames it (R372, R374): a base identifier has 11 bits, a remote frame no data, a classical
frame at most 8 bytes and an FD frame at most 64. -/
def CanFrame.wf (f : CanFrame) : Bool :=
  (f.ext || f.ident.toNat < 2048)
    && (match f.kind.toNat with
      | 0 => f.data.length ≤ 8
      | 1 => f.data.isEmpty
      | _ => f.data.length ≤ 64)

/-- Operands in the ranges of the manual. -/
def Instr.wf : Instr → Bool
  | .idle _ w => w.inRange 1 60
  | .move _ w => w.inRange 0 0
  | .recWrite _ _ w => w.inRange 0 0
  | .fetch _ w => w.inRange 0 0
  | .filter _ w => w.inRange 0 0
  | .lin _ w => w.inRange 0 7
  | .linsum _ w => w.inRange 0 3
  | .char _ w => w.inRange 0 0
  | .cvt _ w => w.inRange 0 0
  | .tilecmdRotation _ w => w.inRange 0 0
  | .tilecmdOpenTest _ w => w.inRange 1 1
  | .hart _ w => w.inRange 0 0
  | .cmp _ w => w.inRange 0 0
  | .rate _ w => w.inRange 0 0
  | .delay _ w => w.inRange 0 0
  | .logic _ w => w.inRange 1 8
  | .group _ w => w.inRange 0 0
  | .call _ w => w.inRange 0 0
  | .out _ w => w.inRange 0 0
  | .hartResponse _ lead chars => lead.length ≤ 20 && chars.length ≤ 265
  | .openTestDone _ ohms => ohms < 4294967296
  | .keyInstall _ key mac => key.length = 32 && mac.length = 32
  | .hostWrite _ command _ words _ => words.length = command.toNat % 16 + 1
  | .canFrameReceive _ f => f.wf
  | .ethFrameReceive _ f => 14 ≤ f.bytes.length
  | .heartbeatReceive _ h => h.role ≠ .none
  | _ => true

end Sys2Proof
end

