-- ==== Sys2Proof/Certificates/Slice0/Obligations.lean ====
section
/-! DEFINITION. The statements for the provers.  Each docstring names the rules of spec/ it comes from, or says which
choice of the model it states. -/

open Sys2Proof Sys2Proof.Machine

/-! The queue, reset and what no command changes. -/

/-- A step takes the command at the front of the queue and runs it on the state with the queue's rest; on an empty queue
the block idles (the model's choices, log entries 2 and 3). -/
def Obligations.StepRunsFront : Prop :=
  (∀ (c : Instr) (r : List Instr) (s : State), s.pending = c :: r → step s = exec c { s with pending := r })
    ∧ ∀ s : State, s.pending = [] → step s = .next s

/-- No command stops the block, and none changes the queue, the ordering code or the serial number: each completes on every
state and operand (from R1, R6, R17; the queue is the model's own). -/
def Obligations.EveryCommandCompletes : Prop :=
  ∀ (c : Instr) (s : State), ∃ t, exec c s = .next t
    ∧ t.pending = s.pending ∧ t.sys.variant = s.sys.variant ∧ t.sys.serial = s.sys.serial

/-- R324, R325, R327: every step keeps the claim rule, from every state that meets it: gates are enabled only under an own
claim that is not 0 and exceeds the peer's, and a unit in role conflict holds no claim. -/
def Obligations.StepKeepsClaimRule : Prop :=
  ∀ s t : State, ClaimSafe s → step s = .next t → ClaimSafe t

/-- The block at reset: the claim rule and the canonical memories hold, gates and claims are clear (R324), and every field
with a reset value in a register table of the chapters reads it, whoever reads; the fields reset "as stored", whose value
is the model's choice (log entry 1), and LOG_STAT.FLUSH_RISK, which R397 keeps at 1 while the reserve is not held, are not
among them. -/
def Obligations.ResetState : Prop :=
  ClaimSafe State.reset ∧ MemCanon State.reset ∧ State.reset.red.gates = false ∧ State.reset.red.own = 0
    ∧ State.reset.red.peer = 0 ∧ State.reset.pending = []
    ∧ ∀ (req : Requester), ∀ x ∈ resetTable,
        (regWord req State.reset x.1 x.2.1) &&& x.2.2.1 = x.2.2.2

/-- Every step keeps the byte memories in canonical form, from every state in which they are (the form is the model's, log
entry 6), so that what a memory holds is what it reads. -/
def Obligations.StepKeepsMemory : Prop :=
  ∀ s t : State, MemCanon s → step s = .next t → MemCanon t

/-! Slot words (R67, R70). -/

/-- R67, R70: a slot word takes exactly the cycles of its class, whatever the data it handles, and moves its engine one
word on; the other engine stands still and END is not reached.  A word runs only on an engine that runs and as the next word
of its list (R469); any other does nothing (the model's, log entry 121). -/
def Obligations.SlotWordsCostTheirClass : Prop :=
  ∀ (i : Instr) (e cost : Nat) (s : State), slotCost i = some (e, cost) →
    (slotRuns i s = false → exec i s = .next s) ∧
    (slotRuns i s = true → ∃ t, exec i s = .next t ∧ (engine t e).pos = (engine s e).pos + 1
      ∧ (engine t e).cycles = (engine s e).cycles + cost ∧ (engine t e).ended = false
      ∧ engine t (1 - e) = engine s (1 - e))

/-- R67, R70, R71: END ends the list and takes one cycle; IDLE only waits; MOVE copies one cell and stamps it with the
course.  Nothing else changes. -/
def Obligations.EndIdleMove : Prop :=
  (∀ (e : Fin 2) (s : State), slotRuns (.endList e) s = true → ∃ t, exec (.endList e) s = .next t
      ∧ engine t e.val = { engine s e.val with ended := true, cycles := (engine s e.val).cycles + 1 }
      ∧ engine t (1 - e.val) = engine s (1 - e.val)
      ∧ t = { s with course.e0 := t.course.e0, course.e1 := t.course.e1 })
  ∧ (∀ (e : Fin 2) (w : SlotWord) (s : State), slotRuns (.idle e w) s = true → ∃ t, exec (.idle e w) s = .next t
      ∧ (engine t e.val).cells = (engine s e.val).cells ∧ engine t (1 - e.val) = engine s (1 - e.val)
      ∧ (engine t e.val).cycles = (engine s e.val).cycles + w.p.toNat
      ∧ t = { s with course.e0 := t.course.e0, course.e1 := t.course.e1 })
  ∧ (∀ (e : Fin 2) (w : SlotWord) (s : State), slotRuns (.move e w) s = true → ∃ t, exec (.move e w) s = .next t
      ∧ cellGet t e.val w.b.toNat = cellGet s e.val w.a.toNat
      ∧ ((engine t e.val).cells.get {} (w.b.toNat % 16384)).cn = s.course.cn
      ∧ (∀ a, a % 16384 ≠ w.b.toNat % 16384 → cellGet t e.val a = cellGet s e.val a)
      ∧ engine t (1 - e.val) = engine s (1 - e.val)
      ∧ t = { s with course.e0 := t.course.e0, course.e1 := t.course.e1 })

/-- R70, R96, R113, R122, R471: FETCH copies a new sample of its channel from the snapshot and puts its x into cell B, the last
one's where none arrived, and in a fast mode the least, the greatest and the mean square x of the course after it; or the
state and status of a digital channel; FILTER runs one biquad section over cells B to B + 3
for a new sample that is not INVALID, and otherwise leaves them. -/
def Obligations.FetchAndFilter : Prop :=
  (∀ (c : Fin 144) (w : SlotWord) (s : State), slotRuns (.fetch c w) s = true → c.val < 80 →
    let n := s.course.snap.ana.get {} c.val
    let x := if n.fresh = true then n else (chanCtx s c.val).smp
    let fast := c.val < 8 ∧ (ucModeF (ucGet s c.val) = 5 ∨ ucModeF (ucGet s c.val) = 6)
    ∃ t, exec (.fetch c w) s = .next t
      ∧ (chanCtx t c.val).smp = x ∧ (chanCtx t c.val).got = n.fresh
      ∧ (chanIsOut s c.val = false → (chanCtx t c.val).lastGood = (chanCtx s c.val).lastGood)
      ∧ cellGet t 0 w.b.toNat = sampleX s c.val x
      ∧ (chanIsOut s c.val = true →
          (chanCtx t c.val).value = (if chanReason s c.val x = 1 then 0x7FC00000 else x.readback)
          ∧ (chanCtx t c.val).lastGood
              = (if chanReason s c.val x = 0 then some x.readback else (chanCtx s c.val).lastGood))
      ∧ (fast → chanIsOut s c.val = false →
          cellGet t 0 (w.b.toNat + 1) = x.minimum ∧ cellGet t 0 (w.b.toNat + 2) = x.maximum
          ∧ cellGet t 0 (w.b.toNat + 3) = fdiv x.sumSq (f64ofInt (max 1 x.count)))
      ∧ (∀ a, (∀ i, i < 4 → a % 16384 ≠ (w.b.toNat + i) % 16384) → cellGet t 0 a = cellGet s 0 a)
      ∧ (¬ fast → ∀ a, a % 16384 ≠ w.b.toNat % 16384 → cellGet t 0 a = cellGet s 0 a)
      ∧ (∀ k, k ≠ c.val → chanCtx t k = chanCtx s k)
      ∧ t = { s with course.e0 := t.course.e0, course.ctx := t.course.ctx })
  ∧ (∀ (c : Fin 144) (w : SlotWord) (s : State), slotRuns (.fetch c w) s = true → 80 ≤ c.val →
    let d := digSnap s (c.val - 80)
    ∃ t, exec (.fetch c w) s = .next t
      ∧ cellGet t 0 w.b.toNat = valueCell (BitVec.ofNat 32 (if d.inp = true then 1 else 0)) d.status
      ∧ (∀ a, a % 16384 ≠ w.b.toNat % 16384 → cellGet t 0 a = cellGet s 0 a)
      ∧ t = { s with course.e0 := t.course.e0 })
  ∧ (∀ (c : Fin 80) (w : SlotWord) (s : State), slotRuns (.filter c w) s = true → filterAdvances s c.val = false →
    ∃ t, exec (.filter c w) s = .next t ∧ (engine t 0).cells = (engine s 0).cells
      ∧ t = { s with course.e0 := t.course.e0 })
  ∧ (∀ (c : Fin 80) (w : SlotWord) (s : State), slotRuns (.filter c w) s = true → filterAdvances s c.val = true →
    let k (i : Nat) : Dword := w64At (chanBody s c.val) (w.t.toNat + 8 * i)
    let old (i : Nat) : Dword := cellGet s 0 (w.b.toNat + i)
    let u := cellGet s 0 w.a.toNat
    ∃ t, exec (.filter c w) s = .next t
      ∧ cellGet t 0 w.b.toNat = fsub (fsub (fadd (fadd (fmul (k 0) u) (fmul (k 1) (old 2))) (fmul (k 2) (old 3)))
          (fmul (k 3) (old 0))) (fmul (k 4) (old 1))
      ∧ cellGet t 0 (w.b.toNat + 1) = old 0 ∧ cellGet t 0 (w.b.toNat + 2) = u
      ∧ cellGet t 0 (w.b.toNat + 3) = old 2
      ∧ (∀ a, (∀ i, i < 4 → a % 16384 ≠ (w.b.toNat + i) % 16384) → cellGet t 0 a = cellGet s 0 a)
      ∧ t = { s with course.e0 := t.course.e0 })

/-- R167 to R169, R203 to R205: LIN evaluates row j, of degree P, by Horner's rule in the x of cell A, its coefficients lying DT + 1
apart in the entry's table at T; LINSUM combines P + 1 rows by Horner's rule in T.  CHAR passes the value
of an INVALID or absent sample and a non-finite one unchanged, interpolates in a table, or takes the square root with its
cut-off; CVT narrows the value, an INVALID sample holds the last good value, and without a new sample the value is the last
record's (R96).  Of the reasons of R123 NO_DATA for want of T shows before all but that of a tile that is off, and OVER_RANGE
for a value no record holds before SETTLING.  An output keeps its readback (R151). -/
def Obligations.LinearisationAndConversion : Prop :=
  (∀ (c : Fin 80) (w : SlotWord) (s : State), slotRuns (.lin c w) s = true →
    ∃ t, exec (.lin c w) s = .next t
      ∧ (∀ k0, w.p.toNat = 0 → w64At (chanBody s c.val) w.t.toNat = k0 → cellGet t 0 w.b.toNat = k0)
      ∧ (∀ k0 k1, w.p.toNat = 1 → w64At (chanBody s c.val) w.t.toNat = k0 →
          w64At (chanBody s c.val) (w.t.toNat + 8 * (entDT (chanBody s c.val) + 1)) = k1 →
          cellGet t 0 w.b.toNat = fadd (fmul k1 (cellGet s 0 w.a.toNat)) k0)
      ∧ cellGet t 0 w.b.toNat = horner (cellGet s 0 w.a.toNat) ((List.range (w.p.toNat + 1)).map (fun i =>
          w64At (chanBody s c.val) (w.t.toNat + 8 * (w.p.toNat - i) * (entDT (chanBody s c.val) + 1))))
      ∧ (∀ a, a % 16384 ≠ w.b.toNat % 16384 → cellGet t 0 a = cellGet s 0 a)
      ∧ t = { s with course.e0 := t.course.e0 })
  ∧ (∀ (c : Fin 80) (w : SlotWord) (s : State), slotRuns (.linsum c w) s = true →
    ∃ t, exec (.linsum c w) s = .next t
      ∧ (w.p.toNat = 0 → cellGet t 0 w.b.toNat = cellGet s 0 w.a.toNat)
      ∧ (w.p.toNat = 1 → cellGet t 0 w.b.toNat
          = fadd (fmul (cellGet s 0 (w.a.toNat + 1)) (tValue s c.val).1) (cellGet s 0 w.a.toNat))
      ∧ cellGet t 0 w.b.toNat = horner (tValue s c.val).1
          ((List.range (w.p.toNat + 1)).map (fun j => cellGet s 0 (w.a.toNat + (w.p.toNat - j))))
      ∧ (∀ a, a % 16384 ≠ w.b.toNat % 16384 → cellGet t 0 a = cellGet s 0 a)
      ∧ t = { s with course.e0 := t.course.e0, free := t.free })
  ∧ (∀ (c : Fin 80) (w : SlotWord) (s : State), slotRuns (.char c w) s = true →
    let b := chanBody s c.val
    let u := cellGet s 0 w.a.toNat
    let p (i : Nat) : Dword := f32to64 (w32At b (w.t.toNat + 4 + 4 * i))
    let f := fdiv (fsub u (p 0)) (fsub (p 1) (p 0))
    let plain := (chanCtx s c.val).got = true ∧ f64finite u = true ∧ chanReason s c.val (chanCtx s c.val).smp = 0
    ∃ t, exec (.char c w) s = .next t
      ∧ (¬ plain → cellGet t 0 w.b.toNat = u ∧ t.course.ctx = s.course.ctx)
      ∧ (plain → bAt b w.t.toNat = 2 → cellGet t 0 w.b.toNat = interpolate u (charPoints b w.t.toNat)
          ∧ t.course.ctx = s.course.ctx)
      ∧ (plain → bAt b w.t.toNat ≠ 2 →
          (chanCtx t c.val).cutOff
              = (if (chanCtx s c.val).cutOff then flt f (fadd (p 4) (p 5)) else flt f (p 4))
          ∧ cellGet t 0 w.b.toNat
              = (if (chanCtx t c.val).cutOff then p 2 else fadd (p 2) (fmul (fsub (p 3) (p 2)) (fsqrt f))))
      ∧ (∀ a, a % 16384 ≠ w.b.toNat % 16384 → cellGet t 0 a = cellGet s 0 a)
      ∧ (∀ k, k ≠ c.val → chanCtx t k = chanCtx s k)
      ∧ t = { s with course.e0 := t.course.e0, course.ctx := t.course.ctx })
  ∧ (∀ (c : Fin 80) (w : SlotWord) (s : State), slotRuns (.cvt c w) s = true →
    let k := chanCtx s c.val
    let r := chanReason s c.val k.smp
    let v := if 32 ≤ c.val && liMultidrop (liGet s (c.val - 32)) then multidropValue s c.val k.smp
      else cellGet s 0 w.a.toNat
    let noT := (tValue s c.val).2.2 && tileUp s (anaTile c.val)
    let same := !k.got && decide (r = 0)
    let reason := if same then fld k.status 10 4 else if noT then 1
      else if (r = 0 || r = 8) && !fits32 v then 7 else r
    let shown := bitAt k.smp.status 15 = true ∨ tileUp s (anaTile c.val) = false
    ∃ t, exec (.cvt c w) s = .next t
      ∧ (chanIsOut s c.val = true → (chanCtx t c.val).lastGood = k.lastGood ∧ (chanCtx t c.val).value = k.value
          ∧ (chanCtx t c.val).status = k.status ||| (if (tValue s c.val).2.1 then 0x0200 else 0))
      ∧ (chanIsOut s c.val = false →
          (chanCtx t c.val).status = chanStatus s c.val reason (tValue s c.val).2.1 k.smp)
      ∧ (chanIsOut s c.val = false → r = 0 → k.got = true → noT = false → fits32 v = true →
          (chanCtx t c.val).lastGood = some (f64to32 v) ∧ (shown → (chanCtx t c.val).value = f64to32 v))
      ∧ (r = 0 → k.got = false →
          (chanCtx t c.val).lastGood = k.lastGood ∧ (chanCtx t c.val).value = k.value)
      ∧ (chanIsOut s c.val = false → r ≠ 0 ∨ k.got = true ∧ (noT = true ∨ fits32 v = false) →
          (chanCtx t c.val).lastGood = k.lastGood ∧ (shown → (chanCtx t c.val).value = k.lastGood.getD 0x7FC00000))
      ∧ (chanIsOut s c.val = false → ¬ shown → (chanCtx t c.val).value = 0x7FC00000)
      ∧ fld (cellGet t 0 w.b.toNat) 0 32 = (chanCtx t c.val).value.toNat
      ∧ fld (cellGet t 0 w.b.toNat) 32 16 = (chanCtx t c.val).status.toNat
      ∧ (∀ a, a % 16384 ≠ w.b.toNat % 16384 → cellGet t 0 a = cellGet s 0 a)
      ∧ (∀ j, j ≠ c.val → chanCtx t j = chanCtx s j)
      ∧ t = { s with course.e0 := t.course.e0, course.ctx := t.course.ctx })


/-- R96, R252, R261, R262: REC writes the record of a planned channel: the value and status of its cells, RAW of a valid
sample, NEW for a new one, the range tag, the generation and the sample's time; without a new sample RAW, tag and time are the
last record's.  A digital record comes from the snapshot.  A REC word that is due has a planned target, so that no record of
another is written. -/
def Obligations.RecWritesRecord : Prop :=
  (∀ (e : Fin 2) (r : Fin 144) (w : SlotWord) (s : State), slotRuns (.recWrite e r w) s = true → r.val < 80 →
    planned s (anaTy r.val) (anaTarget r.val) = true →
    let k := chanCtx s r.val
    let old := s.square.work.ana.get {} r.val
    ∃ t, exec (.recWrite e r w) s = .next t
      ∧ (t.square.work.ana.get {} r.val).value = k.value
      ∧ (t.square.work.ana.get {} r.val).raw = (if bitAt k.status 15 then (if k.got then k.smp.raw else old.raw) else 0)
      ∧ (t.square.work.ana.get {} r.val).status
          = k.status ||| (if k.got && bitAt k.smp.status 15 then 0x0010 else 0)
      ∧ (t.square.work.ana.get {} r.val).tag = (if k.got then k.smp.tag else old.tag)
      ∧ (t.square.work.ana.get {} r.val).time = (if k.got then k.smp.stamp else old.time)
      ∧ (t.square.work.ana.get {} r.val).gen = BitVec.ofNat 8 (genOf s (anaTy r.val) (anaTarget r.val))
      ∧ (∀ q, q ≠ r.val → t.square.work.ana.get {} q = s.square.work.ana.get {} q)
      ∧ t = { s with course.e0 := t.course.e0, course.e1 := t.course.e1, square.work.ana := t.square.work.ana })
  ∧ (∀ (e : Fin 2) (r : Fin 144) (k : Nat) (w : SlotWord) (s : State), slotRuns (.recWrite e r w) s = true → r.val = 80 + k →
    planned s (if k < 32 then 3 else 4) (k % 32) = true →
    ∃ t, exec (.recWrite e r w) s = .next t
      ∧ (t.square.work.dig.get {} k).inp = (digSnap s k).inp
      ∧ (t.square.work.dig.get {} k).time = (digSnap s k).stamp
      ∧ (t.square.work.dig.get {} k).status = (digSnap s k).status
      ∧ (t.square.work.dig.get {} k).cmd = (decide (k < 32) && bitAt s.course.dioLatch k)
      ∧ (t.square.work.dig.get {} k).trip = (decide (k < 32) && bitAt s.course.snap.toDio k)
      ∧ (∀ q, q ≠ k → t.square.work.dig.get {} q = s.square.work.dig.get {} q)
      ∧ t = { s with course.e0 := t.course.e0, course.e1 := t.course.e1, square.work.dig := t.square.work.dig })
  ∧ (∀ (e : Fin 2) (r : Fin 144) (w : SlotWord) (s : State), slotRuns (.recWrite e r w) s = true →
    (if r.val < 80 then planned s (anaTy r.val) (anaTarget r.val)
      else planned s (if r.val < 112 then 3 else 4) ((r.val - 80) % 32)) = true)

/-- R109, R174, R199, R468: the orders of E0.  An open-test order reaches a channel that can be tested, whose gate is
enabled and whose tile works; a rotation order starts a turn, is held by a spare that is busy, or is dropped and counted; a
HART word advances the modem's turn. -/
def Obligations.TileAndModemOrders : Prop :=
  (∀ (c : Fin 32) (w : SlotWord) (s : State), slotRuns (.tilecmdOpenTest c w) s = true →
    ∃ t, exec (.tilecmdOpenTest c w) s = .next t
      ∧ (ucGet t c.val).inp.openOrder = ((ucGet s c.val).inp.openOrder
          || (openTestable (ucGet s c.val) && gateUc s c.val && tileUp s (c.val / 8)))
      ∧ (∀ n, n ≠ c.val → ucGet t n = ucGet s n) ∧ t = { s with course.e0 := t.course.e0, ucs := t.ucs })
  ∧ (∀ (n : Fin 10) (w : SlotWord) (s : State), slotRuns (.tilecmdRotation n w) s = true →
    let x := tileCal s n.val
    let c := w.a.toNat
    let sp := w.b.toNat
    ∃ t, exec (.tilecmdRotation n w) s = .next t
      ∧ (tileUp s n.val = false → t = { s with course.e0 := t.course.e0 })
      ∧ (tileUp s n.val = true → x.turns.get? sp = none → turnAllowed s n.val c sp = true →
          tileMode s n.val (convChan n.val c) ≠ 0 →
          tileCal t n.val = { x with turns := x.turns.set sp { conv := c, step := 1 } })
      ∧ (tileUp s n.val = true → x.turns.get? sp ≠ none → x.held.get? sp = none →
          tileCal t n.val = { x with held := x.held.set sp c } ∧ t.cal = s.cal)
      ∧ (tileUp s n.val = true → x.turns.get? sp ≠ none → x.held.get? sp ≠ none →
          t.tileCal = s.tileCal ∧ t.cal = { s.cal with dropped := satInc s.cal.dropped })
      ∧ (∀ k, k ≠ n.val → tileCal t k = tileCal s k)
      ∧ t = { s with course.e0 := t.course.e0, tileCal := t.tileCal, cal := t.cal })
  ∧ (∀ (m : Fin 8) (w : SlotWord) (s : State), slotRuns (.hart m w) s = true →
    let x := modem s m.val
    let ts := hartTurns (entBody (planEntry s 9 m.val))
    ∃ t, exec (.hart m w) s = .next t
      ∧ (ts = [] → t.hart = s.hart)
      ∧ (ts ≠ [] → x.fresh = true → (modem t m.val).turn = 0)
      ∧ (ts ≠ [] → x.fresh = false → 1 < x.wallsLeft → (modem t m.val).turn = x.turn
          ∧ (modem t m.val).wallsLeft = x.wallsLeft - 1 ∧ (modem t m.val).coupled = x.coupled)
      ∧ (ts ≠ [] → x.fresh = false → x.wallsLeft ≤ 1 → (modem t m.val).turn = (x.turn + 1) % ts.length)
      ∧ (∀ k, k ≠ m.val → modem t k = modem s k)
      ∧ t = { s with course.e0 := t.course.e0, hart.modems := t.hart.modems })

/-- R133, R274: OUT writes a planned DIO's command, REST XOR its demand, or a planned universal output's value with the
fault flag that its fault mask makes of the status, into the output latch; nothing reaches the holding latches yet. -/
def Obligations.OutWritesLatch : Prop :=
  (∀ (n : Fin 64) (w : SlotWord) (s : State), slotRuns (.out n w) s = true → n.val < 32 →
    ∃ t, exec (.out n w) s = .next t
      ∧ bitAt t.course.dioLatch n.val
          = ((bAt (entBody (planEntry s 3 n.val)) 8 == 1) != bitAt (alarmDemand s) n.val)
      ∧ (∀ k, k ≠ n.val → bitAt t.course.dioLatch k = bitAt s.course.dioLatch k)
      ∧ t = { s with course.e1 := t.course.e1, course.dioLatch := t.course.dioLatch })
  ∧ (∀ (n : Fin 64) (w : SlotWord) (s : State), slotRuns (.out n w) s = true → 32 ≤ n.val →
    let c := n.val - 32
    let cell := cellGet s 0 w.a.toNat
    let mask := bAt (outBlock s c) 0x14
    ∃ t, exec (.out n w) s = .next t
      ∧ t.course.ucLatch.get (0, false) c
          = (BitVec.ofNat 32 (fld cell 0 32),
              (mask.testBit 0 && bitAt cell 46) || (mask.testBit 1 && !bitAt cell 47))
      ∧ (∀ k, k ≠ c → t.course.ucLatch.get (0, false) k = s.course.ucLatch.get (0, false) k)
      ∧ t = { s with course.e1 := t.course.e1, course.ucLatch := t.course.ucLatch })

/-! Alarm points (ch. 08). -/

/-- R217, R222, R224: CMP sets COND of a planned point with a good source, outside suppression: at or above the limit (at or
below it) it is set, beyond the hysteresis it clears, between them it stays; a digital source is compared with LEVEL.  With
the source not good, or under suppression, COND stays.  No other cell changes. -/
def Obligations.CmpSetsCond : Prop :=
  ∀ (p : Fin 2048) (w : SlotWord) (s : State), slotRuns (.cmp p w) s = true →
    let b := ptBody s p.val
    let x := pointGet s p.val
    let evaluated := planned s 5 p.val = true ∧ suppression s b x = none ∧ evalClass s b x = .good
    let prev := x.cond && !x.state.suppressing
    let v := f32to64 (anaValue s (ptSrcType b) (ptSrc b))
    let lim := f32to64 (ptLimit b)
    let hy := f32to64 (ptHyst b)
    ∃ t, exec (.cmp p w) s = .next t
      ∧ (¬ evaluated → t.alarm = s.alarm)
      ∧ (evaluated → ptMultidrop s b = false → ptKind b = 1 ∨ ptKind b = 3 →
          (pointGet t p.val).cond = if fle lim v then true else if flt v (fsub lim hy) then false else prev)
      ∧ (evaluated → ptMultidrop s b = false → ptKind b = 2 ∨ ptKind b = 4 →
          (pointGet t p.val).cond = if fle v lim then true else if flt (fadd lim hy) v then false else prev)
      ∧ (evaluated → ptKind b = 7 → ptSrcType b = 3 → ptMultidrop s b = false →
          (pointGet t p.val).cond = decide ((digSnap s (ptSrc b)).inp = ptLevel b))
      ∧ (evaluated → ptKind b = 7 → ptSrcType b = 5 → ptMultidrop s b = false → (pointGet t p.val).cond = x.logic)
      ∧ pointGet t p.val = { x with cond := (pointGet t p.val).cond, condWas := (pointGet t p.val).condWas }
      ∧ (∀ q, q ≠ p.val → pointGet t q = pointGet s q)
      ∧ t = { s with course.e1 := t.course.e1, alarm.points := t.alarm.points }

/-- R216, R218, R219: RATE keeps the last WINDOW + 1 values of a source that is not bad, each with whether it was settling
(the model's, log entry 140), forgets them under suppression or a bad source, and gives a rate once the window is full; LOGIC takes AND, OR or AT_LEAST_K of its operands.  Each is the comparator word of
its point (R213; log entry 113): with a good source at both ends of the window and outside suppression RATE judges COND of a
RATE point from the rate, false until the window is full, and LOGIC gives COND of a DIGITAL point with a LOGIC source its result. -/
def Obligations.RateAndLogic : Prop :=
  (∀ (p : Fin 2048) (w : SlotWord) (s : State), slotRuns (.rate p w) s = true → planned s 5 p.val = true →
    let b := ptBody s p.val
    let x := pointGet s p.val
    let v := anaValue s (ptSrcType b) (ptSrc b)
    let lim := f32to64 (ptLimit b)
    let hy := f32to64 (ptHyst b)
    let prev := x.cond && !x.state.suppressing
    let new := (v, decide (ptClass s b = .settling))
    ∃ t, exec (.rate p w) s = .next t
      ∧ (suppression s b x ≠ none ∨ ptClass s b = .bad → (pointGet t p.val).window = [] ∧ (pointGet t p.val).rate = none)
      ∧ (suppression s b x = none → ptClass s b ≠ .bad → x.state.suppressing = true → 0 < ptWindow b →
          (pointGet t p.val).window = [new] ∧ (pointGet t p.val).rate = none)
      ∧ (suppression s b x = none → ptClass s b ≠ .bad → x.state.suppressing = false →
          x.window.length < ptWindow b → (pointGet t p.val).window = x.window ++ [new] ∧ (pointGet t p.val).rate = none)
      ∧ (suppression s b x = none → ptClass s b ≠ .bad → x.state.suppressing = false →
          x.window.length = ptWindow b ∨ x.window.length = ptWindow b + 1 →
          let full := x.window.drop (x.window.length - ptWindow b) ++ [new]
          (pointGet t p.val).window = full
            ∧ (pointGet t p.val).rate = some (fdiv (fsub (f32to64 v) (f32to64 (full.headD (0, false)).1))
                (f64ofRatio (ptWindow b * evalPeriod s p.val) 4000)))
      ∧ (suppression s b x = none → evalClass s b (pointGet t p.val) = .good → ptKind b = 6 → ptMultidrop s b = false →
          (pointGet t p.val).cond = match (pointGet t p.val).rate with
            | none => false
            | some r =>
              let rho := if ptDir b = 1 then r else if ptDir b = 2 then fneg r else fabs r
              if fle lim rho then true else if flt rho (fsub lim hy) then false else prev)
      ∧ (suppression s b x ≠ none ∨ evalClass s b (pointGet t p.val) ≠ .good ∨ ptKind b ≠ 6 →
          (pointGet t p.val).cond = x.cond)
      ∧ pointGet t p.val = { x with
          window := (pointGet t p.val).window, rate := (pointGet t p.val).rate
          cond := (pointGet t p.val).cond, condWas := (pointGet t p.val).condWas }
      ∧ (∀ q, q ≠ p.val → pointGet t q = pointGet s q)
      ∧ t = { s with course.e1 := t.course.e1, alarm.points := t.alarm.points })
  ∧ (∀ (p : Fin 2048) (w : SlotWord) (s : State), slotRuns (.logic p w) s = true → planned s 5 p.val = true →
    let b := ptBody s p.val
    let x := pointGet s p.val
    let on (x : Nat × Bool × Nat) : Bool := (operand s x.1 x.2.2).2 != x.2.1
    ∃ t, exec (.logic p w) s = .next t
      ∧ (ptLogicOp b = 0 → ((pointGet t p.val).logic = true ↔ ∀ x ∈ ptOperands b, on x = true))
      ∧ (ptLogicOp b = 1 → ((pointGet t p.val).logic = true ↔ ∃ x ∈ ptOperands b, on x = true))
      ∧ (2 ≤ ptLogicOp b → ((pointGet t p.val).logic = true ↔ ptLogicK b ≤ ((ptOperands b).filter on).length))
      ∧ (suppression s b x = none → ptClass s b = .good → ptKind b = 7 → ptSrcType b = 5 →
          (pointGet t p.val).cond = (pointGet t p.val).logic)
      ∧ (suppression s b x ≠ none ∨ ptClass s b ≠ .good ∨ ptSrcType b ≠ 5 → (pointGet t p.val).cond = x.cond)
      ∧ pointGet t p.val = { x with
          logic := (pointGet t p.val).logic, cond := (pointGet t p.val).cond, condWas := (pointGet t p.val).condWas }
      ∧ (∀ q, q ≠ p.val → pointGet t q = pointGet s q)
      ∧ t = { s with course.e1 := t.course.e1, alarm.points := t.alarm.points })

/-- R221, R222, R224, R226: DELAY on a planned point.  A suppressing state is entered with COND, the timers and SOUNDING
cleared; a true COND starts the on-delay and, when it has run, gives ACTIVE_UNACK, sounding and counted; a false COND starts
the off-delay and, when it has run, gives CLEARED_UNACK for a latched unacknowledged alarm and NORMAL otherwise; a bad source
starts the fault delay and, when it has run, sets SRC_BAD and gives FAULT from NORMAL; a source that is settling changes no
STATE. -/
def Obligations.DelayRunsPoint : Prop :=
  ∀ (p : Fin 2048) (w : SlotWord) (s : State), slotRuns (.delay p w) s = true → planned s 5 p.val = true →
    let b := ptBody s p.val
    let x := pointGet s p.val
    let free := suppression s b x = none ∧ x.state.suppressing = false
    let good := free ∧ evalClass s b x = .good
    ∃ t, exec (.delay p w) s = .next t
      ∧ (∀ st, suppression s b x = some st → (pointGet t p.val).state = st ∧ (pointGet t p.val).cond = false
          ∧ (x.state ≠ st → (pointGet t p.val).sounding = false ∧ (pointGet t p.val).onT = none
              ∧ (pointGet t p.val).offT = none ∧ (pointGet t p.val).faultT = none ∧ (pointGet t p.val).relT = none))
      ∧ (pointGet t p.val).blocking = (blockStep s b x).blocking
      ∧ (good → x.state = .normal → x.cond = true → x.onT = none → 0 < ptOnCourses b →
          (pointGet t p.val).state = .normal ∧ (pointGet t p.val).onT = some s.course.cn)
      ∧ (good → x.state = .normal → x.cond = true → ptOnCourses b = 0 ∨ ran s x.onT (ptOnCourses b) = true →
          (pointGet t p.val).state = .activeUnack ∧ (pointGet t p.val).sounding = true
            ∧ (pointGet t p.val).count = satInc x.count ∧ (pointGet t p.val).time = ptStamp s b)
      ∧ (good → x.state = .normal → x.cond = false → (pointGet t p.val).state = .normal ∧ (pointGet t p.val).onT = none)
      ∧ (good → x.state = .activeUnack ∨ x.state = .activeAck → x.cond = true →
          (pointGet t p.val).state = x.state ∧ (pointGet t p.val).offT = none)
      ∧ (good → x.state = .activeUnack ∨ x.state = .activeAck → x.cond = false → x.offT = none → 0 < msCourses (ptOffDelay b) →
          (pointGet t p.val).state = x.state ∧ (pointGet t p.val).offT = some s.course.cn)
      ∧ (good → x.state = .activeUnack ∨ x.state = .activeAck → x.cond = false →
          msCourses (ptOffDelay b) = 0 ∨ ran s x.offT (msCourses (ptOffDelay b)) = true →
          (pointGet t p.val).state = if x.state = .activeUnack ∧ ptLatch b = true then .clearedUnack else .normal)
      ∧ (free → ptClass s b = .bad → x.srcBad = false → x.faultT = none → 0 < msCourses (ptFaultDelay b) →
          (pointGet t p.val).state = x.state ∧ (pointGet t p.val).faultT = some s.course.cn)
      ∧ (free → ptClass s b = .bad → x.srcBad = false →
          msCourses (ptFaultDelay b) = 0 ∨ ran s x.faultT (msCourses (ptFaultDelay b)) = true →
          (pointGet t p.val).srcBad = true
            ∧ (pointGet t p.val).state = if x.state = .normal ∨ x.state = .clearedUnack then .fault else x.state)
      ∧ (free → evalClass s b x = .settling → (pointGet t p.val).state = x.state)
      ∧ (∀ q, q ≠ p.val → pointGet t q = pointGet s q)
      ∧ t = { s with course.e1 := t.course.e1, alarm.points := t.alarm.points, alarm.raised := t.alarm.raised
                     evq := t.evq, log := t.log, free := t.free }

/-- R221 to R223, R226: the four delays of a point end.  Each needs its timer to have run for the delay; the on-delay gives
ACTIVE_UNACK, the off-delay CLEARED_UNACK or NORMAL, the fault delay SRC_BAD, and the release delay ends blocking; else
nothing happens. -/
def Obligations.PointDelaysEnd : Prop :=
  ∀ (p : Fin 2048) (s : State),
    let b := ptBody s p.val
    let x := pointGet s p.val
    let onRan := planned s 5 p.val = true ∧ (x.state = .normal ∨ x.state = .clearedUnack) ∧ x.cond = true
      ∧ ran s x.onT (ptOnCourses b) = true
    let offRan := planned s 5 p.val = true ∧ (x.state = .activeUnack ∨ x.state = .activeAck) ∧ x.cond = false
      ∧ ran s x.offT (msCourses (ptOffDelay b)) = true
    let faultRan := planned s 5 p.val = true ∧ x.srcBad = false ∧ x.state.suppressing = false
      ∧ ran s x.faultT (msCourses (ptFaultDelay b)) = true
    let relRan := planned s 5 p.val = true ∧ x.blocking = true ∧ x.blockIn = false
      ∧ ran s x.relT (msCourses (ptRelease b)) = true
    let frame (t : State) := (∀ q, q ≠ p.val → pointGet t q = pointGet s q)
      ∧ t = { s with alarm.points := t.alarm.points, alarm.raised := t.alarm.raised, evq := t.evq, log := t.log
                     free := t.free }
    (onRan → ∃ t, exec (.onDelayConfirmed p) s = .next t ∧ frame t
      ∧ pointGet t p.val = { x with state := .activeUnack, sounding := true, count := satInc x.count, onT := none
                                    rose := true, time := ptStamp s b })
    ∧ (¬ onRan → exec (.onDelayConfirmed p) s = .next s)
    ∧ (offRan → ∃ t, exec (.offDelayConfirmed p) s = .next t ∧ frame t
      ∧ pointGet t p.val = { x with
          state := if x.state = .activeUnack ∧ ptLatch b = true then .clearedUnack else .normal
          offT := none, time := ptStamp s b })
    ∧ (¬ offRan → exec (.offDelayConfirmed p) s = .next s)
    ∧ (faultRan → ∃ t, exec (.faultDelayConfirmed p) s = .next t ∧ frame t
      ∧ (pointGet t p.val).srcBad = true ∧ (pointGet t p.val).faultT = none
      ∧ (pointGet t p.val).state = if x.state = .normal ∨ x.state = .clearedUnack then .fault else x.state)
    ∧ (¬ faultRan → exec (.faultDelayConfirmed p) s = .next s)
    ∧ (relRan → ∃ t, exec (.releaseDelayEnd p) s = .next t ∧ frame t
      ∧ pointGet t p.val = { x with blocking := false, relT := none } ∧ t.alarm.raised = s.alarm.raised)
    ∧ (¬ relRan → exec (.releaseDelayEnd p) s = .next s)

/-- R228, R231: GROUP derives lamp, horn, ANY_FAULT, ANY_SUPPRESSED and STAGE of a planned group, and fills an empty first-out latch with the member that rose first.  R234, R236, R238: CALL runs a table's stage, and with 16 the watch. -/
def Obligations.GroupAndCall : Prop :=
  (∀ (g : Fin 256) (w : SlotWord) (s : State), slotRuns (.group g w) s = true → planned s 6 g.val = true →
    let ms := members s g.val
    let has (st : PState) := ∃ p ∈ ms, (pointGet s p).state = st
    ∃ t, exec (.group g w) s = .next t
      ∧ (has .activeUnack → (groupGet t g.val).lamp = 2)
      ∧ (¬ has .activeUnack → has .clearedUnack → (groupGet t g.val).lamp = 3)
      ∧ (¬ has .activeUnack → ¬ has .clearedUnack → has .activeAck → (groupGet t g.val).lamp = 1)
      ∧ (¬ has .activeUnack → ¬ has .clearedUnack → ¬ has .activeAck → (groupGet t g.val).lamp = 0)
      ∧ ((groupGet t g.val).horn = true ↔ ∃ p ∈ ms, (pointGet s p).sounding = true)
      ∧ ((groupGet t g.val).anyFault = true ↔ ∃ p ∈ ms, (pointGet s p).state = .fault ∨ (pointGet s p).srcBad = true)
      ∧ ((groupGet t g.val).anySuppr = true ↔ ∃ p ∈ ms, (pointGet s p).state.suppressing = true)
      ∧ (groupGet t g.val).stage = groupStage s g.val
      ∧ (∀ p, (groupGet s g.val).fo = none → firstRisen s ms = some p →
          (groupGet t g.val).fo = some (p, (pointGet s p).time))
      ∧ (∀ q, q ≠ g.val → groupGet t q = groupGet s q)
      ∧ t = { s with course.e1 := t.course.e1, alarm.groups := t.alarm.groups, evq := t.evq, free := t.free })
  ∧ (∀ (n : Fin 17) (w : SlotWord) (s : State), slotRuns (.call n w) s = true → n.val < 16 → planned s 7 n.val = true →
    let x := callTab s n.val
    ∃ t, exec (.call n w) s = .next t
      ∧ (tabCalled s n.val = false → (callTab t n.val).stage = 0)
      ∧ (tabCalled s n.val = true → x.stage = 0 → 0 < u16At (tabBody s n.val) 0 →
          (callTab t n.val).stage = 1 ∧ (callTab t n.val).start = s.course.cn)
      ∧ (tabCalled s n.val = true → stage1Due s n.val = true → 0 < u16At (tabBody s n.val) 2 →
          (callTab t n.val).stage = 2 ∧ (callTab t n.val).start = s.course.cn)
      ∧ (tabCalled s n.val = true → stage2Due s n.val = true → (callTab t n.val).stage = 3)
      ∧ (∀ k, k ≠ n.val → callTab t k = callTab s k)
      ∧ t = { s with course.e1 := t.course.e1, alarm.call := t.alarm.call, evq := t.evq, free := t.free })
  ∧ (∀ (w : SlotWord) (s : State), slotRuns (.call 16 w) s = true → (roster s).isSome = true →
    ∃ t, exec (.call 16 w) s = .next t
      ∧ (expiryDue s = true → t.alarm.call.phase = .expired)
      ∧ (expiryDue s = false → prewarnDue s = true → t.alarm.call.phase = .prewarn)
      ∧ (expiryDue s = false → prewarnDue s = false → t.alarm.call.phase = s.alarm.call.phase)
      ∧ t = { s with course.e1 := t.course.e1, alarm.call := t.alarm.call, evq := t.evq, free := t.free })

/-- R234, R236, R238: the stages of a call table and the phases of the watch change when their times have passed, with the
CALL page's event, and not before. -/
def Obligations.CallStagesAndWatch : Prop :=
  (∀ (n : Fin 16) (s : State),
    let x := callTab s n.val
    let called := planned s 7 n.val = true ∧ tabCalled s n.val = true
    let due1 := called ∧ x.stage = 1 ∧ secCourses (u16At (tabBody s n.val) 0) ≤ since s x.start
    let due2 := called ∧ x.stage = 2 ∧ secCourses (u16At (tabBody s n.val) 2) ≤ since s x.start
    let late (f : Xfer) := f.table = n.val ∧ f.failed = false ∧ 40 ≤ since s f.start ∧ cabinOn s f.new = false
    let frame (t : State) := (∀ k, k ≠ n.val → callTab t k = callTab s k) ∧ t.alarm.call.duty = s.alarm.call.duty
      ∧ t = { s with alarm.call := t.alarm.call, evq := t.evq, free := t.free }
    (due1 → ∃ t, exec (.callStage1 n) s = .next t ∧ frame t
      ∧ (callTab t n.val).stage = 2 ∧ (callTab t n.val).start = s.course.cn)
    ∧ (¬ due1 → exec (.callStage1 n) s = .next s)
    ∧ (due2 → ∃ t, exec (.callStage2 n) s = .next t ∧ frame t
      ∧ (callTab t n.val).stage = 3 ∧ (callTab t n.val).start = s.course.cn)
    ∧ (¬ due2 → exec (.callStage2 n) s = .next s)
    ∧ (planned s 7 n.val = true → (∃ f ∈ s.alarm.call.xfers, late f) → ∃ t, exec (.callXferFail n) s = .next t ∧ frame t
      ∧ (callTab t n.val).xferFail = true ∧ (∀ f ∈ s.alarm.call.xfers, late f → { f with failed := true } ∈ t.alarm.call.xfers)
      ∧ Raised s t 2 3 0x14 (n.val + s.alarm.call.duty * 2 ^ 16))
    ∧ (planned s 7 n.val = false ∨ (∀ f ∈ s.alarm.call.xfers, ¬ late f) → exec (.callXferFail n) s = .next s))
  ∧ (∀ s : State, (roster s).isSome = true →
    let c := s.alarm.call
    let tw := secCourses (u16At (rosterBody s) 6)
    let early := secCourses (u16At (rosterBody s) 6 - u16At (rosterBody s) 8)
    let wt := watchTable s
    let frame (t : State) := (∀ k, k ≠ wt → callTab t k = callTab s k) ∧ t.alarm.call.duty = c.duty
      ∧ t = { s with alarm.call := t.alarm.call, evq := t.evq, free := t.free }
    (watchEn s = true → c.phase = .running → early ≤ since s c.watchStart → since s c.watchStart < tw →
      ∃ t, exec .watchPrewarn s = .next t ∧ frame t ∧ t.alarm.call.phase = .prewarn)
    ∧ (watchEn s = false ∨ c.phase ≠ .running ∨ since s c.watchStart < early ∨ tw ≤ since s c.watchStart →
      exec .watchPrewarn s = .next s)
    ∧ (watchEn s = true → c.phase = .running ∨ c.phase = .prewarn → tw ≤ since s c.watchStart →
      ∃ t, exec .watchExpired s = .next t ∧ frame t ∧ t.alarm.call.phase = .expired
        ∧ (planned s 7 wt = true → (callTab s wt).wstage = 0 → (callTab t wt).wstage = 2))
    ∧ (watchEn s = false ∨ c.phase = .off ∨ c.phase = .expired ∨ since s c.watchStart < tw →
      exec .watchExpired s = .next s)
    ∧ (watchEn s = true → c.phase = .expired → planned s 7 wt = true → (callTab s wt).wstage = 2 →
      secCourses (u16At (tabBody s wt) 2) ≤ since s (callTab s wt).wstart →
      ∃ t, exec .watchStage2 s = .next t ∧ frame t ∧ (callTab t wt).wstage = 3 ∧ t.alarm.call.phase = .expired)
    ∧ (watchEn s = false ∨ c.phase ≠ .expired ∨ (callTab s wt).wstage ≠ 2 → exec .watchStage2 s = .next s))

/-! The course (ch. 03, R31, R76). -/

/-- R73, R74, R88: at cycle 49,600 an engine without END faults the course (OVERRUN, engine 1 if E1 had not ended), and so do
an uncorrectable error and an order fault; COURSE_FAULT, its course number, the count, the sticky bit, the event and the
safety partition's count follow, and an active unit of a pair will yield.  A single-bit error is only counted.  Outside a
running course nothing happens. -/
def Obligations.CourseFaults : Prop :=
  (∀ (c : Instr) (e cause : Nat) (s : State),
    (c = .courseOverrun ∧ notEnded s = true ∧ e = (if s.course.e1.ended then 0 else 1) ∧ cause = 1
      ∨ (∃ f : Fin 2, e = f.val ∧ (c = .courseFault f 1 ∧ cause = 2 ∨ c = .courseFault f 2 ∧ cause = 3))) →
    courseRuns s = true →
    ∃ t, exec c s = .next t
      ∧ t.course.faulted = true ∧ t.course.fltEngine = decide (e = 1) ∧ t.course.fltCause = BitVec.ofNat 2 cause
      ∧ t.course.fltWi = s.course.wi ∧ t.course.fltPos = (engine s e).pos ∧ t.course.faultCn = s.course.cn
      ∧ t.course.faults = satInc s.course.faults ∧ bitAt (hdr t 0x10).sticky 8 = true
      ∧ Raised s t 2 1 0x10 ((faultWord t).toNat + s.course.cn.toNat * 2 ^ 32)
      ∧ (domUp s 1 = true → t.safe.faultRun = satInc s.safe.faultRun)
      ∧ (claimed s = true → isSolo s = false → s.red.yieldNext = none → t.red.yieldNext = some 1)
      ∧ t.course.dioHeld = s.course.dioHeld ∧ t.course.ucHeld = s.course.ucHeld
      ∧ t = { s with course := t.course, hdrs := t.hdrs, evq := t.evq, free := t.free, safe.faultRun := t.safe.faultRun
                     safe.courseFaults := t.safe.courseFaults, red.yieldNext := t.red.yieldNext })
  ∧ (∀ (f : Fin 2) (s : State), courseRuns s = true → exec (.courseFault f 0) s
      = .next { s with course.ecc1 := satInc s.course.ecc1 })
  ∧ (∀ (f : Fin 2) (k : Fin 3) (s : State), courseRuns s = false →
      exec (.courseFault f k) s = .next s ∧ exec .courseOverrun s = .next s)

/-- R31, R32, R30, R74: at a boundary in service CN rises by 1, WI advances and returns to 0 after the wall, the engines start
their lists, and the commands of a course without a fault stand in the holding latches while those of a faulted one are
discarded.  The square of a course without a fault is closed while the plan's state is RUNNING (R76, R259). -/
def Obligations.BoundaryAdvancesCourse : Prop :=
  ∀ (refs trim : Bool) (s : State), domUp s 3 = true → (s.sys.step = 9 ∨ s.sys.step = 10) → s.sys.resetAsked = none →
    s.loader.starting = none → s.loader.stopping = none → s.red.state ≠ .standby →
    (∀ n, n < 16 → (district s n).state ≠ .updating) →
    ∃ t, exec (.courseBoundary refs trim) s = .next t
      ∧ t.course.cn = s.course.cn + 1
      ∧ (s.course.run = true → t.course.wi = if s.course.wi + 1 < s.plan.wall then s.course.wi + 1 else 0)
      ∧ t.course.faulted = false ∧ t.course.e0.ended = false ∧ t.course.e1.ended = false
      ∧ t.course.e0.pos = 0 ∧ t.course.e1.pos = 0
      ∧ (s.course.run = true → s.course.faulted = false → notEnded s = false →
          t.course.dioHeld = s.course.dioLatch ∧ t.course.ucHeld = s.course.ucLatch
            ∧ (s.plan.state = .running → t.square.closed.map (·.cn) = some s.course.cn)
            ∧ (s.plan.state ≠ .running → t.square.closed = none))
      ∧ (s.course.run = true → s.course.faulted = true ∨ notEnded s = true →
          t.course.dioHeld = s.course.dioHeld ∧ t.course.ucHeld = s.course.ucHeld ∧ t.course.prevFaulted = true)

/-- R76, R251, R259: publication makes the closed square the newest, in the buffer it was given, with the course of the
square before it in PREV_CN; the other buffers, and every pin and record latch, keep what they hold.  While the plan's state
is not RUNNING none is published, and the newest square stays. -/
def Obligations.PublishMakesNewest : Prop :=
  (∀ (q : Square) (b : Nat) (s : State), domUp s 3 = true → s.plan.state = .running → s.square.closed = some q →
    s.square.writing = some b →
    ∃ t, exec .squarePublish s = .next t
      ∧ t.square.newest = some b ∧ (t.square.bufs.get {} b).cn = q.cn ∧ (t.square.bufs.get {} b).ana = q.ana
      ∧ (t.square.bufs.get {} b).dig = q.dig ∧ (t.square.bufs.get {} b).points = q.points
      ∧ (t.square.bufs.get {} b).header.get 0 25 = s.square.prevCn
      ∧ (∀ k, k ≠ 25 → (t.square.bufs.get {} b).header.get 0 k = q.header.get 0 k)
      ∧ (∀ k, k ≠ b → t.square.bufs.get {} k = s.square.bufs.get {} k)
      ∧ t.square.count = s.square.count + 1 ∧ t.square.prevCn = q.cn ∧ t.square.closed = none
      ∧ t.square.readers = s.square.readers
      ∧ (∀ k, t.square.writing = some k → k ≠ b ∧ heldBuf t k = false)
      ∧ t = { s with square := t.square, log := t.log, free := t.free })
  ∧ (∀ s : State, domUp s 3 = true → s.plan.state ≠ .running → ∃ t, exec .squarePublish s = .next t
      ∧ t.square.newest = s.square.newest ∧ t.square.bufs = s.square.bufs ∧ t.square.count = s.square.count
      ∧ t.square.prevCn = s.square.prevCn ∧ t.square.readers = s.square.readers ∧ t.square.closed = none
      ∧ t = { s with square := t.square, free := t.free })

/-- R254 to R257, R250: a PIN write pins the newest square or releases it, for its requester alone; a window read is served
from the pin, or sets the record latch on offset 0 of a record and is otherwise served from that latch or the newest
square; an unaligned 32-bit read answers 0 without side effect and a narrower one the addressed bytes (R17); a window write is
dropped with WIN_WRITE. -/
def Obligations.SquareReaders : Prop :=
  (∀ (req : Requester) (v : Word) (s : State), PageTakes s 0x12 →
    let r : Reader := { pin := if bitAt v 0 then some s.square.newest else none, latch := none }
    Answers (.squarePin req v) s 0x12 hdrCount { s with square.readers := s.square.readers.set req.reader r })
  ∧ (∀ (req : Requester) (a : BitVec 24) (s : State), domUp s 3 = true → a.toNat % 4 = 0 →
    let r := readerGet s req.reader
    ∃ t, exec (.squareWindowRead req a 2) s = .next t
      ∧ (∀ b, r.pin = some b → t.resp = { words := [squareWord (bufSquare s b) a.toNat] } ∧ t.square = s.square)
      ∧ (r.pin = none → a.toNat % 16 = 0 → a.toNat < 0x2000 →
          t.resp = { words := [squareWord (bufSquare s s.square.newest) a.toNat] }
            ∧ readerGet t req.reader = { r with latch := some (s.square.newest, a.toNat / 16) })
      ∧ (∀ b, r.pin = none → a.toNat % 16 ≠ 0 → r.latch = some (b, a.toNat / 16) →
          t.resp = { words := [squareWord (bufSquare s b) a.toNat] } ∧ t.square = s.square)
      ∧ (r.pin = none → a.toNat % 16 ≠ 0 → (∀ b, r.latch ≠ some (b, a.toNat / 16)) →
          t.resp = { words := [squareWord (bufSquare s s.square.newest) a.toNat] } ∧ t.square = s.square)
      ∧ (∀ q, q ≠ req.reader → readerGet t q = readerGet s q)
      ∧ t = { s with square.readers := t.square.readers, resp := t.resp })
  ∧ (∀ (req : Requester) (a : BitVec 24) (s : State), domUp s 3 = true → a.toNat % 4 ≠ 0 →
      exec (.squareWindowRead req a 2) s = .next { s with resp := { words := [0] } })
  ∧ (∀ (req : Requester) (a : BitVec 24) (size : Fin 3) (s : State), size.val < 2 →
      ∃ (w : Word) (t : State), exec (.squareWindowRead req (BitVec.ofNat 24 (a.toNat / 4 * 4)) 2) s = .next t
        ∧ t.resp = { words := [w] }
        ∧ exec (.squareWindowRead req a size) s = .next { t with resp := { words := [narrow w a.toNat (2 ^ size.val)] } })
  ∧ (∀ (req : Requester) (a : BitVec 24) (v : Word) (s : State), domUp s 3 = true →
      Answers (.squareWindowWrite req a v) s 0x12 (hdrSticky 8) s)

/-! Samples and trip lanes. -/

/-- R79 to R82, R95, R98: a sample of a universal input channel in its high path, not near its end and with no fault, lands
in the course island's latch with its counts and tag, VALID and not INVALID, and reaches the lanes bound to it; a loop input
sample likewise in the measurement band. -/
def Obligations.SamplesReachLatch : Prop :=
  (∀ (c : Fin 80) (m : Conversion) (s : State), c.val < 32 → domUp s 3 = true → tileUp s (c.val / 8) = true →
    ucSamples s c.val = true → (ucGet s c.val).inp.low = false → m.ovlHigh = false →
    (counts m.high).toInt.natAbs < 7864320 →
    ∃ t, exec (.sampleReady c m) s = .next t
      ∧ (t.course.latch.get {} c.val).word = m.high ∧ (t.course.latch.get {} c.val).raw = counts m.high
      ∧ fld (t.course.latch.get {} c.val).tag 0 2 = 0 ∧ bitAt (t.course.latch.get {} c.val).status 15 = true
      ∧ (t.course.latch.get {} c.val).stamp = ⟨s.course.cn.setWidth 16, m.sub⟩
      ∧ (t.course.latch.get {} c.val).fresh = true
      ∧ (∀ k, k ≠ c.val → t.course.latch.get {} k = s.course.latch.get {} k)
      ∧ (ucGet t c.val).inp.low = false
      ∧ (∀ n e, n < 64 → domUp s 1 = true → planEntry s 0x20 n = some e → bAt e.body 0 = 1 → bAt e.body 1 = c.val →
          laneGet t n = laneSample e.body false (counts m.high).toInt 0
            (decide (fld (t.course.latch.get {} c.val).status 10 4 ≠ 0) || inMaint s c.val) (laneGet s n)))
  ∧ (∀ (c : Fin 80) (m : Conversion) (s : State), 32 ≤ c.val → domUp s 3 = true → tileUp s (c.val / 8) = true →
    liSamples s (c.val - 32) = true → m.ovlHigh = false →
    ∃ t, exec (.sampleReady c m) s = .next t
      ∧ (t.course.latch.get {} c.val).word = m.high ∧ (t.course.latch.get {} c.val).raw = counts m.high
      ∧ (liUnjudged (liGet s (c.val - 32)) = false → m.high.toInt * 250 < 36 * 2147483648 →
          (liGet t (c.val - 32)).band = 3 ∧ bitAt (liGet t (c.val - 32)).sticky 0 = true)
      ∧ (liUnjudged (liGet s (c.val - 32)) = false → 210 * 2147483648 < m.high.toInt * 250 →
          (liGet t (c.val - 32)).band = 4)
      ∧ (liUnjudged (liGet s (c.val - 32)) = false → 38 * 2147483648 ≤ m.high.toInt * 250 →
          m.high.toInt * 250 ≤ 205 * 2147483648 → (liGet t (c.val - 32)).band = 0)
      ∧ (∀ k, k ≠ c.val → t.course.latch.get {} k = s.course.latch.get {} k)
      ∧ (∀ k, k ≠ c.val - 32 → liGet t k = liGet s k))

/-- R80 to R82, R358, R359: STALE counts as one sample handled by the INVALID policy; a lane fault is for good, and an active
unit of a pair will yield; 8 faulted courses in a row under enabled gates set FORCED, which trips every safety output. -/
def Obligations.LanesAndForced : Prop :=
  (∀ (n : Fin 64) (e : Entry) (s : State), planEntry s 0x20 n.val = some e → domUp s 1 = true →
    ∃ t, exec (.laneStale n) s = .next t ∧ (laneGet t n.val).stale = true
      ∧ (bits (bAt e.body 2) 3 1 = 0 → laneGet t n.val
          = { laneGet s n.val with stale := true, lastInside := false })
      ∧ (bits (bAt e.body 2) 3 1 = 1 → (laneGet s n.val).tripped = false →
          ((laneGet t n.val).tripped = true ↔ bAt e.body 3 ≤ (laneGet s n.val).count + 1))
      ∧ (∀ k, k ≠ n.val → laneGet t k = laneGet s k))
  ∧ (∀ (n : Fin 64) (s : State), domUp s 1 = true →
    ∃ t, exec (.laneFault n) s = .next t ∧ (laneGet t n.val).fault = true
      ∧ (∀ k, k ≠ n.val → laneGet t k = laneGet s k)
      ∧ Raised s t 2 8 0x18 n.val
      ∧ (claimed s = true → isSolo s = false → s.red.yieldNext = none → t.red.yieldNext = some 4))
  ∧ (∀ s : State, domUp s 1 = true → 8 ≤ s.safe.faultRun.toNat → s.red.gates = true → s.safe.forced = false →
    ∃ t, exec .forceSet s = .next t ∧ t.safe.forced = true
      ∧ (∀ o, o < 64 → (safeOut s o).isSome = true → bitAt t.safe.outTrip o = true)
      ∧ Raised s t 2 6 0x18 (s.safe.faultRun.toNat * 2 ^ 16))
  ∧ (∀ s : State, s.safe.faultRun.toNat < 8 ∨ s.red.gates = false → exec .forceSet s = .next s)

/-! Monitors of the tiles (ch. 04 to 06). -/

/-- R105, R106, R90, R112: excitation, IEPE bias, guard and cold junction.  Two readings in a row below 90 % set EXC_FAULT,
20 at or above 95 % clear it and mark D samples; SHORT follows the bias; guard limiting sets its sticky bit; CJ_FAULT needs
both sensors failed and CJ_DEGRADED one failed or a difference above 5 °C. -/
def Obligations.InputMonitors : Prop :=
  (∀ (n : Fin 32) (v : BitVec 12) (bias : Half) (s : State), tileUp s (n.val / 8) = true → excMonitored (ucGet s n.val) = true →
    gateUc s n.val = true →
    let i := (ucGet s n.val).inp
    ∃ t, exec (.excMonitorReading n ⟨v, bias⟩) s = .next t ∧ (ucGet t n.val).inp.excmon = v
      ∧ (ucGet t n.val).inp.bias = (if ucModeF (ucGet s n.val) = 6 then bias else i.bias)
      ∧ (i.excFault = false → 1 ≤ i.excLow → v.toNat < 900 → (ucGet t n.val).inp.excFault = true
          ∧ bitAt (ucGet t n.val).sticky 0 = true)
      ∧ (i.excFault = false → i.excLow = 0 ∨ 900 ≤ v.toNat → (ucGet t n.val).inp.excFault = false)
      ∧ (i.excFault = true → 19 ≤ i.excGood → 950 ≤ v.toNat → (ucGet t n.val).inp.excFault = false
          ∧ (ucGet t n.val).inp.excMark = rateD (ucRate (ucGet s n.val)))
      ∧ (i.excFault = true → i.excGood < 19 ∨ v.toNat < 950 → (ucGet t n.val).inp.excFault = true)
      ∧ (∀ k, k ≠ n.val → ucGet t k = ucGet s k) ∧ t = { s with ucs := t.ucs, evq := t.evq, free := t.free })
  ∧ (∀ (n : Fin 32) (v : Half) (s : State), tileUp s (n.val / 8) = true → ucModeF (ucGet s n.val) = 6 →
    gateUc s n.val = true →
    (∃ t, exec (.iepeShortSet n v) s = .next t ∧ (ucGet t n.val).inp.short = true ∧ (ucGet t n.val).inp.bias = v
      ∧ ((ucGet s n.val).inp.short = false → bitAt (ucGet t n.val).sticky 1 = true)
      ∧ (∀ k, k ≠ n.val → ucGet t k = ucGet s k) ∧ t = { s with ucs := t.ucs, evq := t.evq, free := t.free })
    ∧ (∃ t, exec (.iepeShortClear n v) s = .next t ∧ (ucGet t n.val).inp.short = false ∧ (ucGet t n.val).inp.bias = v
      ∧ (ucGet t n.val).sticky = (ucGet s n.val).sticky
      ∧ (∀ k, k ≠ n.val → ucGet t k = ucGet s k) ∧ t = { s with ucs := t.ucs, evq := t.evq, free := t.free }))
  ∧ (∀ (n : Fin 32) (on : Bool) (s : State), tileUp s (n.val / 8) = true → bitAt (ucGet s n.val).inForce.cfg 20 = true →
    1 ≤ ucModeF (ucGet s n.val) → ucModeF (ucGet s n.val) ≤ 6 →
    ∃ t, exec (.grdLimit n on) s = .next t ∧ (ucGet t n.val).inp.grdLimit = on
      ∧ (on = true → (ucGet s n.val).inp.grdLimit = false → bitAt (ucGet t n.val).sticky 3 = true)
      ∧ (∀ k, k ≠ n.val → ucGet t k = ucGet s k) ∧ t = { s with ucs := t.ucs, evq := t.evq, free := t.free })
  ∧ (∀ (n : Fin 4) (a b : Half) (fa fb : Bool) (s : State), tileUp s n.val = true →
    ∃ t, exec (.cjSample n a b fa fb) s = .next t
      ∧ (tileGet t n.val).cja = a ∧ (tileGet t n.val).cjb = b
      ∧ ((tileGet t n.val).cjFault = true ↔ fa = true ∧ fb = true)
      ∧ ((tileGet t n.val).cjDegraded = true
          ↔ fa ≠ fb ∨ (fa = false ∧ fb = false ∧ 500 < (a.toInt - b.toInt).natAbs))
      ∧ (∀ k, k ≠ n.val → tileGet t k = tileGet s k) ∧ t = { s with tiles := t.tiles, evq := t.evq, free := t.free })

/-- R157, R158: protection of loop power and burdens.  The first limit sets the bit, its sticky bit and the event; after a
second a trial follows; a trial that passes clears the bit and marks samples, one that does not repeats the cycle. -/
def Obligations.LoopProtection : Prop :=
  ∀ (n : Fin 48) (s : State), tileUp s (4 + n.val / 8) = true →
    let l := liGet s n.val
    (∀ i : Half, liPowered l = true → ∃ t, exec (.loopPwrShort n i) s = .next t
      ∧ liGet t n.val = { l with pwrShort := true, pwrTrial := false, pwrCurrent := i, sticky := setBit l.sticky 1 true }
      ∧ (∀ k, k ≠ n.val → liGet t k = liGet s k) ∧ t = { s with lis := t.lis, evq := t.evq, free := t.free })
    ∧ (l.pwrShort = true → ∃ t, exec (.loopPwrTrial n) s = .next t ∧ liGet t n.val = { l with pwrTrial := true }
      ∧ (∀ k, k ≠ n.val → liGet t k = liGet s k) ∧ t = { s with lis := t.lis })
    ∧ (∀ limited : Bool, l.pwrShort = true → l.pwrTrial = true → ∃ t, exec (.loopPwrTrialEnd n limited) s = .next t
      ∧ (limited = true → liGet t n.val = { l with pwrTrial := false })
      ∧ (limited = false → liGet t n.val = { l with pwrTrial := false, pwrShort := false, shortMark := 3 })
      ∧ (∀ k, k ≠ n.val → liGet t k = liGet s k) ∧ t = { s with lis := t.lis, evq := t.evq, free := t.free })
    ∧ (∀ i : Half, liBurdenClosed s n.val = true → ∃ t, exec (.burdenProt n i) s = .next t
      ∧ liGet t n.val = { l with burdenProt := true, burdenTrial := false, sticky := setBit l.sticky 2 true }
      ∧ (∀ k, k ≠ n.val → liGet t k = liGet s k) ∧ t = { s with lis := t.lis, evq := t.evq, free := t.free })
    ∧ (l.burdenProt = true → ∃ t, exec (.burdenTrial n) s = .next t ∧ liGet t n.val = { l with burdenTrial := true }
      ∧ (∀ k, k ≠ n.val → liGet t k = liGet s k) ∧ t = { s with lis := t.lis })
    ∧ (∀ calm : Bool, l.burdenProt = true → l.burdenTrial = true → ∃ t, exec (.burdenTrialEnd n calm) s = .next t
      ∧ (calm = true → liGet t n.val = { l with burdenTrial := false, burdenProt := false, burdenMark := 3 })
      ∧ (calm = false → liGet t n.val = { l with burdenTrial := false })
      ∧ (∀ k, k ≠ n.val → liGet t k = liGet s k) ∧ t = { s with lis := t.lis, evq := t.evq, free := t.free })

/-- R141, R109, R125: THERM of an output driver sets and clears with its sticky bit; OPEN_TEST holds its page BUSY until
the test's conversion, which reports the loop resistance and judges OPEN against the limit in kΩ. -/
def Obligations.ThermAndOpenTests : Prop :=
  (∀ (n : Fin 32) (v : Half) (s : State), domUp s 6 = true → ucIsOut (ucGet s n.val) = true →
    (∃ t, exec (.outputThermSet n v) s = .next t ∧ (ucGet t n.val).out.therm = true ∧ (ucGet t n.val).out.temp = v
      ∧ bitAt (ucGet t n.val).osticky 3 = true ∧ (gateUc s n.val = true → (ucGet t n.val).out.source = 1)
      ∧ (∀ k, k ≠ n.val → ucGet t k = ucGet s k) ∧ t = { s with ucs := t.ucs, evq := t.evq, free := t.free })
    ∧ ((ucGet s n.val).out.therm = true →
      ∃ t, exec (.outputThermClear n v) s = .next t ∧ (ucGet t n.val).out.therm = false ∧ (ucGet t n.val).out.temp = v
        ∧ (ucGet t n.val).osticky = (ucGet s n.val).osticky ∧ (ucGet t n.val).out.source ≠ 1
        ∧ (∀ k, k ≠ n.val → ucGet t k = ucGet s k) ∧ t = { s with ucs := t.ucs, evq := t.evq, free := t.free }))
  ∧ (∀ (req : Requester) (p : Fin 4) (arg : BitVec 24) (s : State), PageReady s (0x20 + p.val) → arg.toNat < 8 →
    let n := 8 * p.val + arg.toNat
    openTestable (ucGet s n) = true → gateUc s n = true → (tileGet s p.val).restarting = false →
    ∃ t, exec (.openTest req p arg) s = .next t ∧ hdr t (0x20 + p.val) = hdrHeld req 2 arg (hdr s (0x20 + p.val))
      ∧ (ucGet t n).inp.openCmd = true ∧ (∀ k, k ≠ n → ucGet t k = ucGet s k)
      ∧ t = { s with hdrs := t.hdrs, ucs := t.ucs })
  ∧ (∀ (n : Fin 32) (ohms : Nat) (r : RunCmd) (s : State), tileUp s (n.val / 8) = true → gateUc s n.val = true →
    openTestable (ucGet s n.val) = true → (ucGet s n.val).inp.openCmd = true → ohms < 16777216 →
    (hdr s (0x20 + n.val / 8)).run = some r → r.op = 2 →
    let lim := fld (ucGet s n.val).inForce.lim 16 16
    ∃ t, exec (.openTestDone n ohms) s = .next t
      ∧ (ucGet t n.val).inp.openCmd = false ∧ (ucGet t n.val).inp.openR = BitVec.ofNat 24 ohms
      ∧ (ucGet t n.val).inp.openValid = true ∧ (lim = 0 → (ucGet t n.val).inp.openF = false)
      ∧ (lim ≠ 0 → lim * 1000 < ohms → (ucGet t n.val).inp.openF = true)
      ∧ (lim ≠ 0 → ohms < lim * 1000 → (ucGet t n.val).inp.openF = false)
      ∧ (hdr t (0x20 + n.val / 8)).busy = false ∧ (hdr t (0x20 + n.val / 8)).status = 0
      ∧ (hdr t (0x20 + n.val / 8)).result = BitVec.ofNat 24 ohms
      ∧ (∀ k, k ≠ n.val → ucGet t k = ucGet s k))

/-! HART (ch. 06). -/

/-- R171, R172, R176, R177, R188: a coupled modem starts the first queued transaction of its channel if it fits into the turn; a try
that fails is repeated after RT2 while retries are left and otherwise ends NO_RESPONSE or COMM_ERROR; a response that passes its
checks goes to memory at RSP and ends the transaction OK; a foreign frame is counted and defers requests for RT1.  A request is
sent as preamble, request bytes and their longitudinal parity.  SUBMIT queues a FREE descriptor of a
channel in a turn, and ends it NO_TURN where the channel is in none; CANCEL ends a QUEUED one CANCELLED; RELEASE frees a DONE
one; CTL, REQ and RSP are taken only while the descriptor is FREE, and a write that is dropped sets the sticky bit and is not
counted. -/
def Obligations.HartTransactions : Prop :=
  (∀ (m : Fin 8) (c : Fin 80) (b : Nat) (s : State), (modem s m.val).coupled = some c → hartNext s c.val = some b →
    domUp s 3 = true → (modem s m.val).active = none → (modem s m.val).deferLeft = 0 → gateAna s c.val = true →
    hartFits s m.val b = true →
    let req := ramRead s (desc s b).req.toNat (fld (desc s b).ctl 0 9)
    let f := List.replicate (hartPre s) 0xFF ++ req ++ [req.foldl (· ^^^ ·) 0]
    ∃ t, exec (.hartTransactionStart m) s = .next t ∧ (desc t b).state = .active ∧ (desc t b).tries = 0
      ∧ modem t m.val = { modem s m.val with
          active := some b, tx := true, cd := false, retryWait := false, frame := f, txLeft := hartCourses f.length }
      ∧ b ∉ t.hart.queue
      ∧ (∀ k, k ≠ m.val → modem t k = modem s k) ∧ (∀ k, k ≠ b → desc t k = desc s k) ∧ t = { s with hart := t.hart })
  ∧ (∀ (c : Instr) (m : Fin 8) (b : Nat) (s : State),
    (c = .hartRt1Expiry m ∨ ∃ f l, hartPasses f l = false ∧ c = .hartResponse m f l) →
    (modem s m.val).active = some b → (modem s m.val).retryWait = false →
    ∃ t, exec c s = .next t
      ∧ ((desc s b).tries < fld (desc s b).ctl 24 2 →
          modem t m.val = { modem s m.val with tx := false, cd := false, txLeft := 0, retryWait := true }
          ∧ t = { s with hart.modems := t.hart.modems })
      ∧ (fld (desc s b).ctl 24 2 ≤ (desc s b).tries → (modem t m.val).active = none ∧ (desc t b).state = .done
          ∧ (desc t b).result = (if c = .hartRt1Expiry m then 1 else 2) ∧ (desc t b).cn = s.course.cn
          ∧ b ∉ t.hart.queue ∧ t = { s with hart := t.hart, evq := t.evq, free := t.free }))
  ∧ (∀ (m : Fin 8) (b : Nat) (s : State), (modem s m.val).active = some b → (modem s m.val).retryWait = true →
    ∃ t, exec (.hartRetry m) s = .next t ∧ desc t b = { desc s b with tries := (desc s b).tries + 1 }
      ∧ modem t m.val = { modem s m.val with
          tx := true, cd := false, retryWait := false, frame := hartFrame s b, txLeft := hartCourses (hartFrame s b).length }
      ∧ (∀ k, k ≠ b → desc t k = desc s k)
      ∧ t = { s with hart := t.hart })
  ∧ (∀ (m : Fin 8) (b : Nat) (lead chars : List (BitVec 11)) (s : State), (modem s m.val).active = some b →
    (modem s m.val).retryWait = false → inRam (desc s b).rsp.toNat 264 = true → s.mem.main.wf 0 = true →
    hartPasses lead chars = true →
    let l := ((chars.map hartByte).dropLast).take 264
    ∃ t, exec (.hartResponse m lead chars) s = .next t ∧ ramRead t (desc s b).rsp.toNat l.length = l
      ∧ (∀ a, a < (desc s b).rsp.toNat ∨ (desc s b).rsp.toNat + l.length ≤ a → t.mem.main.read 0 a = s.mem.main.read 0 a)
      ∧ (desc t b).state = .done ∧ (desc t b).result = 0 ∧ (desc t b).rspLen.toNat = l.length
      ∧ (modem t m.val).active = none
      ∧ t = { s with hart := t.hart, mem.main := t.mem.main, evq := t.evq, free := t.free })
  ∧ (∀ (m : Fin 8) (s : State), (modem s m.val).coupled.isSome = true → (modem s m.val).active = none →
    ∃ t, exec (.hartForeignFrame m) s = .next t
      ∧ modem t m.val = { modem s m.val with
          foreign := satInc (modem s m.val).foreign, cd := false, deferLeft := 4 * hartRt1 s }
      ∧ (∀ k, k ≠ m.val → modem t k = modem s k) ∧ t = { s with hart.modems := t.hart.modems })
  ∧ (∀ (req : Requester) (arg : BitVec 24) (s : State), PageReady s 0x2B → arg.toNat < 16 →
    let b := arg.toNat
    let c := descChan (desc s b)
    (desc s b).state = .free → 4 ≤ fld (desc s b).ctl 0 9 → fld (desc s b).ctl 0 9 ≤ 263 → hartAble s c = true →
    gateAna s c = true →
    ∃ t, exec (.submit req arg) s = .next t ∧ hdr t 0x2B = hdrDone .ok 0 (hdr s 0x2B)
      ∧ (hartInTurn s c = true → (desc t b).state = .queued ∧ (desc t b).tries = 0 ∧ t.hart.queue = s.hart.queue ++ [b])
      ∧ (hartInTurn s c = false → (desc t b).state = .done ∧ (desc t b).result = 5 ∧ (desc t b).cn = s.course.cn)
      ∧ (∀ k, k ≠ b → desc t k = desc s k)
      ∧ t = { s with hdrs := t.hdrs, hart := t.hart, evq := t.evq, free := t.free })
  ∧ (∀ (req : Requester) (arg : BitVec 24) (s : State), PageReady s 0x2B → arg.toNat < 16 →
    (desc s arg.toNat).state = .queued →
    ∃ t, exec (.hartCancel req arg) s = .next t ∧ hdr t 0x2B = hdrDone .ok 0 (hdr s 0x2B)
      ∧ (desc t arg.toNat).state = .done ∧ (desc t arg.toNat).result = 4 ∧ arg.toNat ∉ t.hart.queue
      ∧ (∀ k, k ≠ arg.toNat → desc t k = desc s k)
      ∧ t = { s with hdrs := t.hdrs, hart := t.hart, evq := t.evq, free := t.free })
  ∧ (∀ (req : Requester) (arg : BitVec 24) (s : State), PageReady s 0x2B → arg.toNat < 16 →
    (desc s arg.toNat).state = .done →
    Answers (.release req arg) s 0x2B (hdrDone .ok 0)
      (updDesc arg.toNat (fun d => { d with state := .free }) s))
  ∧ (∀ (b : Fin 16) (v : Word) (s : State), PageTakes s 0x2B → (desc s b.val).state = .free →
    Answers (.hartDescWrite b 0 v) s 0x2B hdrCount (updDesc b.val (fun d => { d with ctl := v &&& 0x03BF01FF }) s)
    ∧ Answers (.hartDescWrite b 1 v) s 0x2B hdrCount (updDesc b.val (fun d => { d with req := v }) s)
    ∧ Answers (.hartDescWrite b 2 v) s 0x2B hdrCount (updDesc b.val (fun d => { d with rsp := v }) s))
  ∧ (∀ (b : Fin 16) (reg : Fin 3) (v : Word) (s : State), PageTakes s 0x2B → (desc s b.val).state ≠ .free →
    Answers (.hartDescWrite b reg v) s 0x2B (hdrSticky 1) s)


/-! Calibration (ch. 07). -/

/-- R195, R196: a tile's transfer value is taken unless it steps by more than 10 ppm, which sets XFER_FAIL until three walls in
a row step less; the first after a COMMIT is taken whatever its step and is the new start of R197; more than 20 ppm between REFA and 2 × REFB sets REF_DISAGREE, and three walls within 15 ppm clear it. -/
def Obligations.ReferenceChecks : Prop :=
  (∀ (n : Fin 10) (v w : Int) (s : State), tileUp s n.val = true → domUp s 3 = true →
    (tileCal s n.val).transfer = some w → (tileCal s n.val).owesCommit = false →
    let x := tileCal s n.val
    ∃ t, exec (.transferComparison n v) s = .next t
      ∧ (x.xferFail = false → (v - w).natAbs ≤ 1000 → tileCal t n.val = { x with transfer := some v })
      ∧ (x.xferFail = false → 1000 < (v - w).natAbs → tileCal t n.val = { x with xferFail := true, xferOk := 0 })
      ∧ (x.xferFail = true → 1000 < (v - w).natAbs → tileCal t n.val = { x with xferOk := 0 })
      ∧ (x.xferFail = true → (v - w).natAbs ≤ 1000 → x.xferOk < 2 → tileCal t n.val = { x with xferOk := x.xferOk + 1 })
      ∧ (x.xferFail = true → (v - w).natAbs ≤ 1000 → 2 ≤ x.xferOk →
          tileCal t n.val = { x with xferFail := false, xferOk := 0, transfer := some v })
      ∧ (∀ k, k ≠ n.val → tileCal t k = tileCal s k) ∧ t = { s with tileCal := t.tileCal, evq := t.evq, free := t.free })
  ∧ (∀ (n : Fin 10) (v : Int) (s : State), tileUp s n.val = true → domUp s 3 = true → (tileCal s n.val).owesCommit = true →
    let x := tileCal s n.val
    ∃ t, exec (.transferComparison n v) s = .next t
      ∧ (tileCal t n.val).transfer = some v ∧ (tileCal t n.val).commitTransfer = some v
      ∧ (tileCal t n.val).owesCommit = false
      ∧ (x.xferFail = true → (tileCal t n.val).xferFail = false →
          2 ≤ x.xferOk ∧ ∀ w, x.transfer = some w → (v - w).natAbs ≤ 1000)
      ∧ (∀ k, k ≠ n.val → tileCal t k = tileCal s k) ∧ t = { s with tileCal := t.tileCal })
  ∧ (∀ (ratio : Int) (s : State), domUp s 3 = true →
    let d := (ratio - s.cal.ratioBase).natAbs
    ∃ t, exec (.refCrosscheck ratio) s = .next t ∧ t.cal.ratioLast = ratio
      ∧ (2000 < d → t.cal.refDisagree = true)
      ∧ (d ≤ 2000 → s.cal.refDisagree = false → t.cal.refDisagree = false)
      ∧ (1500 < d → s.cal.refDisagree = true → t.cal.refDisagree = true)
      ∧ (d ≤ 1500 → s.cal.refDisagree = true → s.cal.okWalls < 2 →
          t.cal.refDisagree = true ∧ t.cal.okWalls = s.cal.okWalls + 1)
      ∧ (d ≤ 1500 → s.cal.refDisagree = true → 2 ≤ s.cal.okWalls → t.cal.refDisagree = false)
      ∧ t = { s with cal := t.cal, evq := t.evq, free := t.free })

/-- R198 to R201, R194, R190: a turn calibrates its spare, runs in parallel, calibrates the path and hands back; a calibration
outside 10 ppm of gain or 5 ppm of offset keeps the constants and counts, the second such puts the converter out of service;
an age above 64 walls is overdue; the warm-up ends; 365 days after a COMMIT the calibration is aged. -/
def Obligations.RotationAndAges : Prop :=
  (∀ (n : Fin 10) (key : Fin 18) (u : Turn) (g o : Int) (s : State), (tileCal s n.val).turns.get? key.val = some u →
    ∃ t, exec (.rotationStepEnd n key g o) s = .next t
      ∧ (u.step = 1 → calAccepted (conv s n.val (16 + key.val)) g o = true → (conv s n.val (16 + key.val)).out = false →
          (tileCal t n.val).turns.get? key.val = some { u with step := 2 }
            ∧ (conv t n.val (16 + key.val)).consts = some (g, o) ∧ (conv t n.val (16 + key.val)).rejects = 0)
      ∧ (u.step = 1 → calAccepted (conv s n.val (16 + key.val)) g o = false → 1 ≤ (conv s n.val (16 + key.val)).rejects →
          (conv t n.val (16 + key.val)).out = true
            ∧ (conv t n.val (16 + key.val)).consts = (conv s n.val (16 + key.val)).consts)
      ∧ (u.step = 2 → (tileCal t n.val).turns.get? key.val = some { u with step := 4 }
            ∧ (key.val = 0 → (tileGet t n.val).spare0 = some (convRole n.val u.conv)))
      ∧ (u.step = 4 → u.solo = false → calAccepted (conv s n.val u.conv) g o = true → (conv s n.val u.conv).out = false →
          (tileCal t n.val).turns.get? key.val = some { u with step := 5 }
            ∧ (conv t n.val u.conv).consts = some (g, o) ∧ (conv t n.val u.conv).mark = (tileCal s n.val).walls)
      ∧ (u.step = 5 → (key.val = 0 → (tileGet t n.val).spare0 = none)
          ∧ ((tileCal s n.val).held.get? key.val = none → (tileCal t n.val).turns.get? key.val = none))
      ∧ (∀ k, k ≠ n.val → tileCal t k = tileCal s k ∧ tileGet t k = tileGet s k)
      ∧ t = { s with tileCal := t.tileCal, tiles := t.tiles, evq := t.evq, free := t.free })
  ∧ (∀ (n : Fin 10) (c : Fin 18) (s : State), domUp s 3 = true → (convKeys n.val).contains c.val = true →
    64 < convAge s n.val c.val → (conv s n.val c.val).overdue = false →
    ∃ t, exec (.calOverdue n c) s = .next t ∧ conv t n.val c.val = { conv s n.val c.val with overdue := true }
      ∧ Raised s t 2 4 0x2A (n.val + min (convAge s n.val c.val) 65535 * 2 ^ 16)
      ∧ (∀ k, k ≠ n.val → tileCal t k = tileCal s k) ∧ t = { s with tileCal := t.tileCal, evq := t.evq, free := t.free })
  ∧ (∀ (n : Fin 10) (s : State), (tileGet s n.val).warm = true → (tileGet s n.val).warmLeft = 0 →
    ∃ t, exec (.warmupDone n) s = .next t ∧ tileGet t n.val = { tileGet s n.val with warm := false }
      ∧ Raised s t 2 6 0x2A n.val
      ∧ (∀ k, k ≠ n.val → tileGet t k = tileGet s k) ∧ t = { s with tiles := t.tiles, evq := t.evq, free := t.free })
  ∧ (∀ (d : Half) (s : State), 365 < d.toNat → s.cal.days.toNat ≤ d.toNat →
    ∃ t, exec (.calAged d) s = .next t ∧ t.cal = { s.cal with days := d, aged := true }
      ∧ (s.cal.aged = false → s.cal.dateValid = true → Raised s t 2 7 0x2A (15 + d.toNat * 2 ^ 16))
      ∧ t = { s with cal := t.cal, evq := t.evq, free := t.free })

/-- R208 to R210: SESSION_OPEN needs the channel in maintenance, warm, and the references agreeing; MEASURE needs a certificate
within 100 ppm and holds the page BUSY; its end stores the deviation or HW_FAULT; COMMIT needs all three points within 50 ppm,
and when done ages start anew and every tile owes a comparison; SESSION_CLOSE restores the channel's CFG. -/
def Obligations.FieldCalibration : Prop :=
  (∀ (req : Requester) (arg : BitVec 24) (s : State), PageReady s 0x2A → arg.toNat < 32 → s.cal.session = 0 →
    inMaint s arg.toNat = true → (tileGet s (arg.toNat / 8)).warm = false → s.cal.refDisagree = false →
    let c := { s.cal with session := 1, ch := arg.toNat, savedCfg := (ucGet s arg.toNat).regs.cfg
                          v10 := {}, r100 := {}, r10k := {} }
    Answers (.sessionOpen req arg) s 0x2A (hdrDone .ok 0) { s with cal := c })
  ∧ (∀ (req : Requester) (arg : BitVec 24) (s : State), PageReady s 0x2A → arg.toNat < 3 → certOk s arg.toNat = true →
    s.cal.session = 1 → (arg.toNat ≠ 0 → gateUc s s.cal.ch = true) →
    ∃ t, exec (.measure req arg) s = .next t ∧ hdr t 0x2A = hdrHeld req 2 arg (hdr s 0x2A)
      ∧ t.cal = { s.cal with session := 2, measuring := arg.toNat }
      ∧ (arg.toNat = 0 → fld (ucGet t s.cal.ch).regs.cfg 28 4 = 1)
      ∧ (arg.toNat ≠ 0 → fld (ucGet t s.cal.ch).regs.cfg 28 4 = 3 ∧ fld (ucGet t s.cal.ch).regs.cfg 22 2 = 2)
      ∧ (∀ k, k ≠ s.cal.ch → ucGet t k = ucGet s k)
      ∧ t = { s with hdrs := t.hdrs, cal := t.cal, ucs := t.ucs, free := t.free })
  ∧ (∀ (ok : Bool) (dev : BitVec 24) (r : RunCmd) (s : State), s.cal.session = 2 → (hdr s 0x2A).run = some r → r.op = 2 →
    let p : CalPoint := if ok then ⟨true, dev⟩ else {}
    ∃ t, exec (.measureDone ok dev) s = .next t
      ∧ t.cal = (if s.cal.measuring = 0 then { s.cal with session := 1, v10 := p }
          else if s.cal.measuring = 1 then { s.cal with session := 1, r100 := p } else { s.cal with session := 1, r10k := p })
      ∧ (hdr t 0x2A).busy = false ∧ (hdr t 0x2A).status = (if ok then 0 else 6)
      ∧ (hdr t 0x2A).result = (if ok then dev else 0) ∧ t = { s with hdrs := t.hdrs, cal := t.cal })
  ∧ (∀ (req : Requester) (s : State), PageReady s 0x2A → s.cal.v10.valid = true → s.cal.r100.valid = true →
    s.cal.r10k.valid = true → s.cal.v10.dev.toInt.natAbs ≤ 5000 → s.cal.r100.dev.toInt.natAbs ≤ 5000 →
    s.cal.r10k.dev.toInt.natAbs ≤ 5000 →
    Answers (.commit req 0) s 0x2A (hdrHeld req 3 0) s)
  ∧ (∀ (day : Half) (r : RunCmd) (s : State), (hdr s 0x2A).run = some r → r.op = 3 →
    ∃ t, exec (.commitDone day) s = .next t ∧ t.cal.session = 0 ∧ t.cal.days = 0 ∧ t.cal.aged = false
      ∧ t.cal.dateValid = s.sup.rtcValid ∧ (s.sup.rtcValid = true → t.cal.lastDay = day)
      ∧ t.cal.ratioBase = s.cal.ratioLast ∧ (∀ k, k < 10 → (tileCal t k).owesCommit = true)
      ∧ (s.cal.pred = false → t.cal.aRef = lessDev s.cal.aRef s.cal.v10.dev)
      ∧ (ucGet t s.cal.ch).regs.cfg = s.cal.savedCfg ∧ (hdr t 0x2A).busy = false ∧ (hdr t 0x2A).status = 0
      ∧ t = { s with hdrs := t.hdrs, cal := t.cal, tileCal := t.tileCal, ucs := t.ucs, evq := t.evq, free := t.free })
  ∧ (∀ (req : Requester) (s : State), PageReady s 0x2A → s.cal.session ≠ 0 →
    Answers (.sessionClose req 0) s 0x2A (hdrDone .ok 0)
      (updUc s.cal.ch (fun u => { u with regs := { u.regs with cfg := s.cal.savedCfg } })
        { s with cal := { s.cal with session := 0, v10 := {}, r100 := {}, r10k := {} } }))

/-! Plans (ch. 02). -/

/-- R46, R65, R39, R40, R61: LOAD_PLAN and VERIFY hold the PLAN page BUSY while an image is verified; a load that passes makes
the image the boot image and the old boot image the alternate, clears the journal and starts at the next boundary; one that
fails is DENIED with the code of its check; while a NOR operation runs in the image's bank none of them ends.  STOP_PLAN is taken for the next boundary. -/
def Obligations.PlanLoading : Prop :=
  (∀ (req : Requester) (arg : BitVec 24) (s : State), PageReady s 0x11 → arg.toNat < 1024 → claimed s = false →
    s.plan.state ≠ .loading →
    let v : Verifying := { op := 1, bank := argBank arg, block := argBlock arg }
    Answers (.loadPlan req arg) s 0x11 (hdrHeld req 1 arg)
      { s with plan.state := .loading, loader.back := s.plan.state, loader.verifying := some v })
  ∧ (∀ (v : Verifying) (s : State), s.loader.verifying = some v → norBusy s v.bank = true →
    exec .loadPlanDone s = .next s ∧ exec .verifyDone s = .next s ∧ ∀ peer, exec (.updateVerifyDone false peer) s = .next s)
  ∧ (∀ (v : Verifying) (s : State), s.loader.verifying = some v → v.op = 1 → norBusy s v.bank = false →
    let img := readImage s v.bank v.block
    ∃ t, exec .loadPlanDone s = .next t ∧ t.loader.verifying = none ∧ (∀ q, q ≠ 0x11 → hdr t q = hdr s q)
      ∧ (verifyImage s img (imgRoom v.block) = none →
          hdr t 0x11 = hdrEnd .ok (fld (imgId img) 0 24) (hdr s 0x11)
            ∧ t.plan.boot = some (v.bank, v.block) ∧ t.plan.alt = s.plan.boot ∧ t.loader.starting = some (v.bank, v.block)
            ∧ (∀ n, (district t n).journal = none) ∧ t.plan.lcode = 0)
      ∧ (∀ code ds, verifyImage s img (imgRoom v.block) = some (code, ds) →
          hdr t 0x11 = hdrEnd .denied code (hdr s 0x11) ∧ t.plan.boot = s.plan.boot ∧ t.plan.alt = s.plan.alt
            ∧ t.plan.state = s.loader.back ∧ t.plan.lcode = BitVec.ofNat 8 code ∧ t.plan.lds = ds
            ∧ t.loader.starting = s.loader.starting)
      ∧ t.plan.entries = s.plan.entries ∧ t.plan.nor = s.plan.nor
      ∧ t = { s with hdrs := t.hdrs, plan := t.plan, loader := t.loader })
  ∧ (∀ (req : Requester) (arg : BitVec 24) (s : State), PageReady s 0x11 → arg.toNat < 2 → claimed s = false →
    (s.plan.state = .running →
      Answers (.stopPlan req arg) s 0x11 (hdrDone .ok 0) { s with loader.stopping := some false })
    ∧ (s.plan.state = .noPlan ∨ s.plan.state = .stopped → Answers (.stopPlan req arg) s 0x11 (hdrDone .ok 0) s))
  ∧ (∀ (req : Requester) (arg : BitVec 24) (s : State), PageReady s 0x11 → arg.toNat < 1024 →
    let v : Verifying := { op := 5, bank := argBank arg, block := argBlock arg }
    Answers (.verify req arg) s 0x11 (hdrHeld req 5 arg) { s with loader.verifying := some v })
  ∧ (∀ (v : Verifying) (s : State), s.loader.verifying = some v → v.op = 5 → norBusy s v.bank = false →
    let img := readImage s v.bank v.block
    ∃ t, exec .verifyDone s = .next t ∧ t.loader = { s.loader with verifying := none }
      ∧ (verifyImage s img (imgRoom v.block) = none → hdr t 0x11 = hdrEnd .ok (imgMask img) (hdr s 0x11) ∧ t.plan.lcode = 0)
      ∧ (∀ code ds, verifyImage s img (imgRoom v.block) = some (code, ds) →
          hdr t 0x11 = hdrEnd .denied code (hdr s 0x11) ∧ t.plan.lcode = BitVec.ofNat 8 code ∧ t.plan.lds = ds)
      ∧ t.plan = { s.plan with lcode := t.plan.lcode, lopc := 5, lds := t.plan.lds }
      ∧ (∀ q, q ≠ 0x11 → hdr t q = hdr s q) ∧ t = { s with hdrs := t.hdrs, plan := t.plan, loader := t.loader })

/-- R51, R52, R54, R60, R61: UPDATE_DISTRICT names a district that is not a safety district and starts its verification; one
that passes makes it UPDATING with the steps of the update, counted in RESULT; ABORT_UPDATE makes it MIXED. -/
def Obligations.DistrictUpdates : Prop :=
  (∀ (req : Requester) (arg : BitVec 24) (s : State), PageReady s 0x11 → argOutside arg 0xF003FF = false →
    let n := fld arg 20 4
    let v : Verifying := { op := 3, bank := argBank arg, block := argBlock arg, district := n, prev := (district s n).state }
    (n < 4 → Answers (.updateDistrict req arg) s 0x11 (hdrDone .denied 10) s)
    ∧ (4 ≤ n → (district s n).state ≠ .updating → Answers (.updateDistrict req arg) s 0x11 (hdrHeld req 3 arg)
        (updDistrict n (fun d => { d with state := .verifying }) { s with loader.verifying := some v })))
  ∧ (∀ (safety peer : Bool) (v : Verifying) (s : State),
    (if safety then s.loader.safeVerifying = some v else s.loader.verifying = some v ∧ v.op = 3) →
    norBusy s v.bank = false →
    let page := if safety then 0x18 else 0x11
    let img := readImage s v.bank v.block
    let r := verifyUpdate s img (imgRoom v.block) v.district (v.prev = .mixed) peer
    let steps := updateSteps s.plan.entries (blobEntries img v.district) v.district
    ∃ t, exec (.updateVerifyDone safety peer) s = .next t
      ∧ (r = none → hdr t page = hdrEnd .ok steps.length (hdr s page) ∧ (district t v.district).state = .updating
          ∧ (district t v.district).steps = steps ∧ (district t v.district).total = steps.length
          ∧ (district t v.district).done = 0 ∧ (district t v.district).gen = (district s v.district).gen
          ∧ (district t v.district).genTo = BitVec.ofNat 8 (dirGen img v.district))
      ∧ (∀ code ds, r = some (code, ds) → hdr t page = hdrEnd .denied code (hdr s page)
          ∧ district t v.district = { district s v.district with state := v.prev }
          ∧ t.plan.lcode = BitVec.ofNat 8 code)
      ∧ (∀ k, k ≠ v.district → district t k = district s k) ∧ t.plan.entries = s.plan.entries
      ∧ (∀ q, q ≠ page → hdr t q = hdr s q) ∧ t = { s with hdrs := t.hdrs, plan := t.plan, loader := t.loader })
  ∧ (∀ (req : Requester) (arg : BitVec 24) (s : State), PageReady s 0x11 → arg.toNat < 16 →
    let d := district s arg.toNat
    d.state = .updating →
    ∃ t, exec (.abortUpdate req arg) s = .next t ∧ hdr t 0x11 = hdrDone .ok d.done (hdr s 0x11)
      ∧ district t arg.toNat = { d with state := .mixed, steps := [] }
      ∧ (∀ k, k ≠ arg.toNat → district t k = district s k)
      ∧ Raised s t 2 2 0x11 (arg.toNat + d.genTo.toNat * 2 ^ 8 + d.done % 65536 * 2 ^ 16)
      ∧ t = { s with hdrs := t.hdrs, plan.districts := t.plan.districts, evq := t.evq, free := t.free })

/-- R40 to R42: ERASE and PROGRAM check their arguments, end OK and start the operation; when it ends without a hardware
failure the blocks read 0xFF, or the range holds the bytes of the source, and no other byte of NOR changes; a host's READ that
waited for the bank then gets its words. -/
def Obligations.NorOperations : Prop :=
  (∀ (req : Requester) (arg : BitVec 24) (s : State), PageReady s 0x11 → argOutside arg 0xFF03FF = false →
    let n := fld arg 16 8 + 1
    argBlock arg + n ≤ 512 → s.loader.norOp = none → norHeld s (argBank arg) (argBlock arg) n = false →
    let o : NorOp := { erase := true, bank := argBank arg, block := argBlock arg, count := n }
    Answers (.erase req arg) s 0x11 (hdrDone .ok 0) { s with plan.norBank := argBank arg, loader.norOp := some o })
  ∧ (∀ (req : Requester) (arg : BitVec 24) (s : State), PageReady s 0x11 → arg.toNat < 1024 →
    let len := s.plan.len.toNat
    let src := s.plan.src.toNat
    let n := (len + 65535) / 65536
    let o : NorOp := { bank := argBank arg, block := argBlock arg, count := n, src := src, len := len }
    len % 256 = 0 → len ≤ 0x1000000 → src % 4 = 0 → inRam src len = true → len ≤ imgRoom (argBlock arg) →
    s.loader.norOp = none → norHeld s (argBank arg) (argBlock arg) n = false →
    (∀ b ∈ norRead s (norBase (argBank arg) (argBlock arg)) len, b = 0xFF) →
    Answers (.program req arg) s 0x11 (hdrDone .ok 0) { s with plan.norBank := argBank arg, loader.norOp := some o })
  ∧ (∀ (o : NorOp) (s : State), s.loader.norOp = some o → s.host.waiting = [] → s.plan.nor.wf 0xFF = true →
    let a := norBase o.bank o.block
    let n := if o.erase then 65536 * o.count else o.len
    ∃ t, exec (.norDone true) s = .next t ∧ t.loader = { s.loader with norOp := none } ∧ t.plan.norLast = 0
      ∧ (o.erase = true → ∀ i, i < n → t.plan.nor.read 0xFF (a + i) = 0xFF)
      ∧ (o.erase = false → norRead t a n = ramRead s o.src n)
      ∧ (∀ b, b < a ∨ a + n ≤ b → t.plan.nor.read 0xFF b = s.plan.nor.read 0xFF b)
      ∧ Raised s t 2 5 0x11 0
      ∧ t.plan = { s.plan with nor := t.plan.nor, erases := t.plan.erases, norLast := 0 }
      ∧ t = { s with plan := t.plan, loader := t.loader, evq := t.evq, free := t.free })
  ∧ (∀ (o : NorOp) (usb : Bool) (command : Byte) (addr : Word) (s : State), s.loader.norOp = some o →
    s.host.waiting = [(usb, command, addr)] →
    ∃ w t, exec (.norDone true) s = .next t ∧ t = hostReadNow usb command addr w ∧ w.loader.norOp = none
      ∧ w.host.waiting = [] ∧ (∀ b, w.plan.nor.read 0xFF b = (norDone true s).plan.nor.read 0xFF b)
      ∧ t.resp.hostStatus = some 0xC3 ∧ t.resp.words.length = command.toNat % 16 + 1 ∧ (usb = false → t.host.cs = false))

/-- R87: CLEAR_PEAK takes argument 0 only, ends OK with result 0, and COURSE_PEAK is 0 from the next boundary on; every other
opcode written to COURSE_PG_CMD ends with BAD_OPCODE. -/
def Obligations.ClearPeakZeroesPeak : Prop :=
  (∀ (req : Requester) (s : State), PageReady s 0x10 →
    Answers (.clearPeak req 0) s 0x10 (hdrDone .ok 0) { s with course.clearPeak := true })
  ∧ (∀ (req : Requester) (arg : BitVec 24) (s : State), PageReady s 0x10 → arg ≠ 0 →
    Answers (.clearPeak req arg) s 0x10 (hdrDone .badArg 0) s)
  ∧ (∀ (refs trim : Bool) (s : State), domUp s 3 = true → s.course.clearPeak = true →
    ∃ t, exec (.courseBoundary refs trim) s = .next t ∧ t.course.e0.peak = 0 ∧ t.course.e1.peak = 0
      ∧ ∀ req, regWord req t 0x10 0x50 = 0)
  ∧ (∀ (req : Requester) (value : Word) (s : State), PageReady s 0x10 → fld value 24 8 ≠ 1 →
    Answers (.registerWrite req 0x40010018 2 value) s 0x10 (hdrDone .badOpcode 0) s)

/-- R23: a PG_CMD write while the page's BUSY is 1, whatever its opcode and argument, changes nothing but CMD_LOST of the
page: PG_CMDRES and PG_SEQ stand, and the running command goes on. -/
def Obligations.BusyPageDropsCommand : Prop :=
  ∀ (c : Instr) (p : Nat) (s : State), (commandPage c = some p ∨ ∃ req v, c = .registerWrite req (BitVec.ofNat 32 (0x40000018 + 4096 * p)) 2 v ∧ p < 256) →
    (∃ d, pageDom s p = some d ∧ domTakes s d = true) → (hdr s p).busy = true →
    Answers c s p (hdrSticky 2) s

/-- R14: the applied correction moves towards TRIM by at most 1 ppb, at a boundary; no command but a boundary and the loss of
all power moves it; a TRIM outside ±5,000 is clamped and reads back clamped. -/
def Obligations.ClockCorrection : Prop :=
  (∀ (c : Instr) (s : State), (∀ refs trim, c ≠ .courseBoundary refs trim) → (∀ cn wi o, c ≠ .standbyRephase cn wi o) →
    c ≠ .holdupExhausted → ∃ t, exec c s = .next t ∧ t.clk.applied = s.clk.applied)
  ∧ (∀ (refs trim : Bool) (s : State), s.clk.en = true → s.clk.holdover = false →
    ∃ t, exec (.courseBoundary refs trim) s = .next t
      ∧ t.clk.applied = (if s.clk.applied < s.clk.trim then s.clk.applied + 1
          else if s.clk.trim < s.clk.applied then s.clk.applied - 1 else s.clk.applied))
  ∧ (∀ (req : Requester) (value : Word) (s : State), PageTakes s 2 →
    let v := (BitVec.ofNat 16 (fld value 0 16)).toInt
    ∃ t, exec (.registerWrite req 0x40002044 2 value) s = .next t ∧ t.clk.applied = s.clk.applied
      ∧ (v < -5000 → t.clk.trim = -5000) ∧ (5000 < v → t.clk.trim = 5000)
      ∧ (-5000 ≤ v → v ≤ 5000 → t.clk.trim = v)
      ∧ BitVec.ofNat 16 (fld (regWord req t 2 0x44) 0 16) = BitVec.ofInt 16 t.clk.trim
      ∧ t.clk.en = bitAt value 16 ∧ hdr t 2 = hdrCount (hdr s 2) ∧ (∀ q, q ≠ 2 → hdr t q = hdr s q)
      ∧ t = { s with clk := t.clk, hdrs := t.hdrs })

/-! Maintenance and configuration (ch. 04, 05, 10, 17). -/

/-- R117, R118, R125, R146, R271, R285, R288, R435, R472: CHANNEL_MAINT is taken for the next boundary, where the channel enters
maintenance and an output holds its drive; TILE_RESTART holds the tile's page BUSY, and when done its converters are back in
service and the command ends OK.  A CFG write is taken for the next course if it keeps the mode, or the channel is in
maintenance, and the value is legal; else it is dropped and not counted, with MODE_LOCK or CFG_REJ set.  A TEST write outside
maintenance is dropped with its sticky bit. -/
def Obligations.MaintenanceAndConfiguration : Prop :=
  (∀ (req : Requester) (p : Fin 12) (arg : BitVec 24) (s : State), PageReady s (maintPage p.val) →
    argOutside arg (if p.val < 10 then 0x107 else 0x11F) = false →
    let m := maintNum p.val (fld arg 0 (if p.val < 10 then 3 else 5))
    let enter := bitAt arg 8
    (inMaint s m = enter → Answers (.channelMaint req p arg) s (maintPage p.val) (hdrDone .ok 0) s)
    ∧ (inMaint s m ≠ enter → (enter = true → guarded s m = false) →
        (enter = false → 32 ≤ m ∨ modeStepLeft s m = false) →
        Answers (.channelMaint req p arg) s (maintPage p.val) (hdrDone .ok 0)
          { s with maint.asked := s.maint.asked ++ [(m, enter)] }))
  ∧ (∀ (m : Nat) (s : State), s.maint.asked = [(m, true)] → inMaint s m = false →
    inMaint (maintBoundary s) m = true ∧ (maintBoundary s).maint.asked = []
      ∧ (m < 32 → (ucGet (maintBoundary s) m).out.maintHeld = (ucGet s m).out.drive)
      ∧ (80 ≤ m → m < 112 → (dioGet (maintBoundary s) (m - 80)).held = (dioGet s (m - 80)).drive)
      ∧ (∀ k, k ≠ m → inMaint (maintBoundary s) k = inMaint s k))
  ∧ (∀ (req : Requester) (n : Fin 10) (s : State), PageReady s (tilePage n.val) → notInService s = false →
    tileGuarded s n.val = false →
    Answers (.tileRestart req n 0) s (tilePage n.val) (hdrHeld req 0x10 0)
      (updTile n.val (fun x => { x with restartAsked := true }) s))
  ∧ (∀ (n : Fin 10) (r : RunCmd) (s : State), (tileGet s n.val).restarting = true → (tileGet s n.val).back = false →
    domUp s (if n.val < 4 then 4 else 5) = true → (hdr s (tilePage n.val)).run = some r → r.op = 0x10 →
    ∃ t, exec (.tileRestartDone n) s = .next t
      ∧ hdr t (tilePage n.val) = hdrEnd .ok 0 (hdr s (tilePage n.val)) ∧ (∀ q, q ≠ tilePage n.val → hdr t q = hdr s q)
      ∧ tileGet t n.val = { tileGet s n.val with back := true, spare0 := none, spare1 := none }
      ∧ (∀ c, (conv t n.val c).out = false ∧ (conv t n.val c).consts = (conv s n.val c).consts)
      ∧ (∀ k, k ≠ n.val → tileGet t k = tileGet s k ∧ tileCal t k = tileCal s k)
      ∧ t = { s with hdrs := t.hdrs, tiles := t.tiles, tileCal := t.tileCal, ucs := t.ucs, lis := t.lis
                     maint.owed := t.maint.owed })
  ∧ (∀ (c : Fin 80) (v : Word) (s : State), c.val < 32 → PageTakes s (0x20 + c.val / 8) →
    let kept := maintNow s c.val = true ∨ fld v 28 4 = ucModeF (ucGet s c.val)
    (kept → ucCfgOk c.val v.toNat = true → Answers (.channelCfgWrite c v) s (0x20 + c.val / 8) hdrCount
      (updUc c.val (fun u => { u with regs := { u.regs with cfg := v &&& 0xFFFC0000 } }) s))
    ∧ (¬ (kept ∧ ucCfgOk c.val v.toNat = true) → ∃ t, exec (.channelCfgWrite c v) s = .next t
        ∧ ucGet t c.val = { ucGet s c.val with sticky := setBit (ucGet s c.val).sticky (if kept then 6 else 5) true }
        ∧ (∀ k, k ≠ c.val → ucGet t k = ucGet s k)
        ∧ t = { s with ucs := t.ucs, evq := t.evq, free := t.free }))
  ∧ (∀ (c : Fin 80) (v : Word) (s : State), 32 ≤ c.val → PageTakes s (0x20 + c.val / 8) →
    let n := c.val - 32
    let kept := maintNow s c.val = true ∨ fld v 28 4 = liMode (liGet s n)
    (kept → liCfgOk v.toNat = true → Answers (.channelCfgWrite c v) s (0x20 + c.val / 8) hdrCount
      (updLi n (fun l => { l with cfg := v &&& 0xFFFE0000 }) s))
    ∧ (¬ (kept ∧ liCfgOk v.toNat = true) → ∃ t, exec (.channelCfgWrite c v) s = .next t
        ∧ liGet t n = { liGet s n with sticky := setBit (liGet s n).sticky (if kept then 5 else 4) true }
        ∧ (∀ k, k ≠ n → liGet t k = liGet s k)
        ∧ t = { s with lis := t.lis, evq := t.evq, free := t.free }))
  ∧ (∀ (k : Fin 64) (v : Word) (s : State), PageTakes s (digPage k.val) →
    let di := decide (32 ≤ k.val)
    let kept := inMaint s (80 + k.val) = true ∨ fld v 28 4 = digMode (digGet s k.val)
    (kept → digCfgOk di v.toNat = true → Answers (.digitalCfgWrite k v) s (digPage k.val) hdrCount
      (updDig k.val (fun c => { c with cfg := v &&& (if di then 0xF8000000 else 0xFFFFF000) }) s))
    ∧ (¬ (kept ∧ digCfgOk di v.toNat = true) → ∃ t, exec (.digitalCfgWrite k v) s = .next t
        ∧ digGet t k.val = { digGet s k.val with
            sticky := setBit (digGet s k.val).sticky (if di then (if kept then 2 else 1) else (if kept then 10 else 9)) true }
        ∧ (∀ j, j ≠ k.val → digGet t j = digGet s j)
        ∧ t = { s with dig.chans := t.dig.chans, evq := t.evq, free := t.free }))
  ∧ (∀ (n : Fin 32) (v : Word) (s : State), PageTakes s (0x20 + n.val / 8) →
    (bitAt v 31 = false ∨ maintNow s n.val = true → Answers (.outputTestWrite true n v) s (0x20 + n.val / 8) hdrCount
      (updUc n.val (fun u => { u with regs := { u.regs with octl := v &&& 0x83003FFF } }) s))
    ∧ (bitAt v 31 = true → maintNow s n.val = false → exec (.outputTestWrite true n v) s
        = .next (updUc n.val (fun u => { u with osticky := setBit u.osticky 0 true }) s)))
  ∧ (∀ (n : Fin 32) (v : Word) (s : State), PageTakes s 0x30 →
    (bitAt v 31 = false ∨ inMaint s (80 + n.val) = true → Answers (.outputTestWrite false n v) s 0x30 hdrCount
      (updDig n.val (fun c => { c with octl := v &&& 0x80000001 }) s))
    ∧ (bitAt v 31 = true → inMaint s (80 + n.val) = false → ∃ t, exec (.outputTestWrite false n v) s = .next t
        ∧ digGet t n.val = { digGet s n.val with sticky := setBit (digGet s n.val).sticky 8 true }
        ∧ (∀ j, j ≠ n.val → digGet t j = digGet s j)
        ∧ t = { s with dig.chans := t.dig.chans, evq := t.evq, free := t.free }))


/-! Digital channels (ch. 10). -/

/-- R266 to R269, R279 to R283, R288, R289: the raw level is 1 from 11 V up, 0 down from 5 V and stays between; DEB consecutive samples at a new level change IN, count, and give the channel the time
stamp of the run's first sample; a wire break holds IN.  Enough windows below 0.5 mA set BRK with its sticky bit, enough at or
above 0.6 mA clear it.  The open-wire check, the lamp's learning, DARK and degraded states, and the readback of a live DIO, each
with its sticky bit when it sets, and RELEARN. -/
def Obligations.DigitalInputsAndLamps : Prop :=
  (∀ (k : Fin 64) (mv : Int) (limit : Fin 1001) (idx : Fin 250) (s : State), domUp s 6 = true →
    digMode (digGet s k.val) ≠ 0 →
    let c := digGet s k.val
    let level : Bool := if mv ≤ 5000 then false else if 11000 ≤ mv then true else c.raw
    let cn := s.course.cn - BitVec.ofNat 32 ((max 1 (fld c.debF 0 16) - 1 + idx.val) / 250)
    let st : Stamp := ⟨cn.setWidth 16, BitVec.ofNat 16 (idx.val * 65536 / 250)⟩
    ∃ t, exec (.debounceComplete k mv limit idx) s = .next t
      ∧ (let cur := (digGet t k.val).current
        (c.brk = true → digGet t k.val = { c with raw := level, current := cur })
        ∧ (c.brk = false → c.inp = level →
            digGet t k.val = { c with raw := level, settling := false, current := cur } ∧ t.evq = s.evq)
        ∧ (c.brk = false → c.inp ≠ level → digGet t k.val = { c with
            raw := level, inp := level, settling := false, stamp := st, changes := c.changes + 1, current := cur })
        ∧ (k.val < 32 ∨ digMode c ≠ 1 ∨ bitAt c.cfgF 27 = true → cur = c.current)
        ∧ (32 ≤ k.val → digMode c = 1 → bitAt c.cfgF 27 = false → mv ≤ 4400 → cur.toNat = mv.toNat * 10 / 22)
        ∧ (32 ≤ k.val → digMode c = 1 → bitAt c.cfgF 27 = false → 6600 ≤ mv → cur.toNat = 2000 + limit.val))
      ∧ (c.brk = false → c.inp ≠ level → domUp s 3 = true → ∃ e : EventRec, t.evq.inflight = s.evq.inflight ++ [e]
          ∧ e.cn = cn ∧ e.cls = 2 ∧ e.code = 1 ∧ e.source = (if k.val < 32 then 0x30 else 0x31)
          ∧ fld e.data 0 8 = k.val % 32 ∧ bitAt e.data 16 = level
          ∧ fld e.data 8 8 = genOf s (if k.val < 32 then 3 else 4) (k.val % 32)
          ∧ fld e.data 32 16 = idx.val * 65536 / 250)
      ∧ (∀ j, j ≠ k.val → digGet t j = digGet s j)
      ∧ t = { s with dig.chans := t.dig.chans, evq := t.evq, free := t.free })
  ∧ (∀ (k : Fin 64) (avg : Half) (s : State), domUp s 6 = true → digMode (digGet s k.val) = 1 →
    bitAt (digGet s k.val).cfgF 27 = true →
    let c := digGet s k.val
    let need := (digDeb c + 99) / 100
    ∃ t, exec (.wireBreakWindow k avg) s = .next t
      ∧ (digGet t k.val).current = avg
      ∧ (c.brk = false → avg.toNat < 500 → need ≤ c.wbLow + 1 → (digGet t k.val).brk = true
          ∧ bitAt (digGet t k.val).sticky (if k.val < 32 then 7 else 0) = true)
      ∧ (c.brk = false → 500 ≤ avg.toNat ∨ c.wbLow + 1 < need → (digGet t k.val).brk = false)
      ∧ (c.brk = true → 600 ≤ avg.toNat → need ≤ c.wbHigh + 1 → (digGet t k.val).brk = false)
      ∧ (c.brk = true → avg.toNat < 600 ∨ c.wbHigh + 1 < need → (digGet t k.val).brk = true)
      ∧ (digGet t k.val).inp = c.inp
      ∧ (∀ j, j ≠ k.val → digGet t j = digGet s j)
      ∧ t = { s with dig.chans := t.dig.chans, evq := t.evq, free := t.free })
  ∧ (∀ (n : Fin 32) (s : State), dioJudged s n.val = true →
    let o := dioGet s n.val
    (openChecked s n.val = true → o.openW = false → ∃ t, exec (.openWireSet n) s = .next t
        ∧ dioGet t n.val = { o with openW := true } ∧ bitAt (digGet t n.val).sticky 5 = true
        ∧ (∀ k, k ≠ n.val → dioGet t k = dioGet s k)
        ∧ t = { s with dig.outs := t.dig.outs, dig.chans := t.dig.chans, evq := t.evq, free := t.free })
    ∧ (openChecked s n.val = true → o.openW = true → ∃ t, exec (.openWireClear n) s = .next t
        ∧ dioGet t n.val = { o with openW := false } ∧ (∀ k, k ≠ n.val → dioGet t k = dioGet s k)
        ∧ t = { s with dig.outs := t.dig.outs, evq := t.evq, free := t.free })
    ∧ (∀ i : Half, dioMode s n.val = 3 → o.learned = false → ∃ t, exec (.lampLearned n i) s = .next t
        ∧ dioGet t n.val = { o with learned := true, progress := 100, learnT := 0, iL := i }
        ∧ (∀ k, k ≠ n.val → dioGet t k = dioGet s k)
        ∧ t = { s with dig.outs := t.dig.outs, evq := t.evq, free := t.free })
    ∧ (lampJudged s n.val = true → o.dark = false → ∃ t, exec (.darkSet n) s = .next t ∧ (dioGet t n.val).dark = true
        ∧ (dioGet t n.val).darkOff = !o.drive ∧ (dioGet t n.val).drive = o.drive
        ∧ (o.learned = false → (dioGet t n.val).progress = 0)
        ∧ bitAt (digGet t n.val).sticky 3 = true ∧ (∀ k, k ≠ n.val → dioGet t k = dioGet s k)
        ∧ t = { s with dig.outs := t.dig.outs, dig.chans := t.dig.chans, evq := t.evq, free := t.free })
    ∧ (lampJudged s n.val = true → o.dark = true → o.drive = false → o.darkOff = false → exec (.darkClear n) s = .next s)
    ∧ (lampJudged s n.val = true → o.dark = true → o.drive = true ∨ o.darkOff = true → ∃ t, exec (.darkClear n) s = .next t
        ∧ dioGet t n.val = { o with dark := false }
        ∧ (∀ k, k ≠ n.val → dioGet t k = dioGet s k)
        ∧ t = { s with dig.outs := t.dig.outs, evq := t.evq, free := t.free })
    ∧ (∀ d : Bool, lampJudged s n.val = true → o.drive = true → o.learned = true → o.degraded ≠ d →
        ∃ t, exec (.lampDegraded n d) s = .next t ∧ dioGet t n.val = { o with degraded := d }
        ∧ (d = true → bitAt (digGet t n.val).sticky 2 = true) ∧ (∀ k, k ≠ n.val → dioGet t k = dioGet s k)
        ∧ t = { s with dig.outs := t.dig.outs, dig.chans := t.dig.chans, evq := t.evq, free := t.free }))
  ∧ (∀ (n : Fin 32) (m : Bool) (s : State), domUp s 6 = true → 2 ≤ dioMode s n.val → vfJudged s = true →
    (dioGet s n.val).readback ≠ m → (m = false ∨ (dioGet s n.val).clamp = false) → ∃ t, exec (.dioReadback n m) s = .next t
      ∧ dioGet t n.val = { dioGet s n.val with readback := m }
      ∧ (m = true → bitAt (digGet t n.val).sticky 1 = true) ∧ (∀ k, k ≠ n.val → dioGet t k = dioGet s k)
      ∧ t = { s with dig.outs := t.dig.outs, dig.chans := t.dig.chans, evq := t.evq, free := t.free })
  ∧ (∀ (req : Requester) (arg : BitVec 24) (s : State), PageReady s 0x30 → arg.toNat < 32 → dioMode s arg.toNat = 3 →
    Answers (.relearn req arg) s 0x30 (hdrDone .ok 0)
      (updDio arg.toNat (fun o => { o with learned := false, progress := 0, learnT := 0, iL := 0 }) s))


/-- R275 to R278, R285, R288: protection of a DIO driver.  An overload switches it off, and latches it off after its retries; a
retry and OUT_RESET give the drive state back to its source; THERM switches it off; switching off starts a clamp, whose end
disconnects a driver without its gate; the inrush window and the retry count end, and the limit in a window is never below
1.0 A; the sum of all currents is judged against 8 A. -/
def Obligations.DriverProtection : Prop :=
  (∀ (n : Fin 32) (s : State),
    let o := dioGet s n.val
    (dioLive s n.val = true → o.drive = true → o.inrush = false →
      let last := decide (dioRetryN s n.val ≤ o.retries)
      ∃ t, exec (.overloadTrip n) s = .next t ∧ (dioGet t n.val).overload = true ∧ (dioGet t n.val).latched = last
        ∧ (dioGet t n.val).drive = false ∧ (dioGet t n.val).source = 1 ∧ (dioGet t n.val).retries = o.retries
        ∧ bitAt (digGet t n.val).sticky 6 = true ∧ (last = true → bitAt (digGet t n.val).sticky 0 = true)
        ∧ (∀ k, k ≠ n.val → dioGet t k = dioGet s k ∧ digGet t k = digGet s k)
        ∧ t = { s with dig.outs := t.dig.outs, dig.chans := t.dig.chans, evq := t.evq, free := t.free })
    ∧ (dioLive s n.val = true → o.overload = true → o.latched = false →
      ∃ t, exec (.overloadRetry n) s = .next t ∧ (dioGet t n.val).overload = false
        ∧ (dioGet t n.val).retries = o.retries + 1
        ∧ (dioGet t n.val).drive = dioValue s n.val (dioSource s n.val o.therm)
        ∧ 1000 ≤ t.dig.inrushLimit ∧ t.dig.inrushLimit ≤ 4000
        ∧ (∀ k, k ≠ n.val → dioGet t k = { dioGet s k with inrushHeld := (dioGet t k).inrushHeld })
        ∧ t = { s with dig.outs := t.dig.outs, dig.inrushLimit := t.dig.inrushLimit, free := t.free })
    ∧ (dioLive s n.val = true → o.drive = true → o.overload = false →
      exec (.retryCountRestart n) s = .next (updDio n.val (fun o => { o with retries := 0 }) s))
    ∧ (∃ t, exec (.inrushWindowEnd n) s = .next t ∧ (dioGet t n.val).inrush = false ∧ (dioGet t n.val).drive = o.drive
        ∧ 1000 ≤ t.dig.inrushLimit
        ∧ (((List.range 32).filter (fun k => k ≠ n.val && (dioGet s k).inrush)).length ≤ 8 → t.dig.inrushLimit = 4000)
        ∧ (∀ k, k ≠ n.val → dioGet t k = { dioGet s k with inrushHeld := (dioGet t k).inrushHeld })
        ∧ t = { s with dig.outs := t.dig.outs, dig.inrushLimit := t.dig.inrushLimit, free := t.free }))
  ∧ (∀ (n : Fin 32) (v : Half) (s : State), domUp s 6 = true →
    (∃ t, exec (.dioThermSet n v) s = .next t ∧ (dioGet t n.val).therm = true ∧ (dioGet t n.val).temp = v
        ∧ (dioGet t n.val).drive = false ∧ ((dioGet s n.val).therm = false → bitAt (digGet t n.val).sticky 4 = true)
        ∧ (∀ k, k ≠ n.val → dioGet t k = dioGet s k ∧ digGet t k = digGet s k)
        ∧ t = { s with dig.outs := t.dig.outs, dig.chans := t.dig.chans, evq := t.evq, free := t.free })
    ∧ ((dioGet s n.val).therm = true → ∃ t, exec (.dioThermClear n v) s = .next t ∧ (dioGet t n.val).therm = false
        ∧ (dioGet t n.val).temp = v
        ∧ (dioGet t n.val).drive = dioValue s n.val (dioSource s n.val (dioGet s n.val).overload)
        ∧ (∀ k, k ≠ n.val → dioGet t k = dioGet s k)
        ∧ t = { s with dig.outs := t.dig.outs, evq := t.evq, free := t.free })
    ∧ ((dioGet s n.val).drive = true → ∃ t, exec (.dioThermSet n v) s = .next t ∧ (dioGet t n.val).clamp = true)
    ∧ exec (.clampEnd n v) s = .next (updDio n.val (fun o => { o with
        clamp := false, connected := decide (o.source ≠ 0), term := v }) s))
  ∧ (∀ (avg : Half) (s : State), domUp s 6 = true → ∃ t, exec (.totalOver avg) s = .next t ∧ t.dig.total = avg
      ∧ t.dig.totalOver = decide (8000 < avg.toNat)
      ∧ (8000 < avg.toNat → s.dig.totalOver = false → Raised s t 2 11 0x30 (avg.toNat * 2 ^ 16))
      ∧ t = { s with dig.total := avg, dig.totalOver := t.dig.totalOver, evq := t.evq, free := t.free })
  ∧ (∀ (req : Requester) (arg : BitVec 24) (s : State), PageReady s 0x30 → arg.toNat < 32 → 2 ≤ dioMode s arg.toNat →
    let n := arg.toNat
    ∃ t, exec (.outReset req arg) s = .next t ∧ hdr t 0x30 = hdrDone .ok 0 (hdr s 0x30)
      ∧ ((dioGet s n).latched = true → (dioGet t n).latched = false ∧ (dioGet t n).overload = false
          ∧ (dioGet t n).retries = 0 ∧ (dioGet t n).drive = dioValue s n (dioSource s n (dioGet s n).therm))
      ∧ ((dioGet s n).latched = false → dioGet t n = dioGet s n)
      ∧ (∀ k, k ≠ n → dioGet t k = dioGet s k) ∧ t = { s with hdrs := t.hdrs, dig.outs := t.dig.outs })

/-! Alarm and call commands (ch. 08). -/

/-- R232, R244, R246: a command of the ALARM or CALL page is held BUSY, and the next boundary applies it in a unit with a claim:
acknowledgement, silence, inhibit, first-out reset, duty, and the watch; in a unit without one it ends with STATE. -/
def Obligations.AlarmAndCallCommands : Prop :=
  (∀ (c : Instr) (op : Nat) (req : Requester) (arg : BitVec 24) (s : State),
    (c = .ackPoint req arg ∧ op = 1 ∨ c = .ackGroup req arg ∧ op = 2 ∨ c = .ackAll req arg ∧ op = 3
      ∨ c = .silence req arg ∧ op = 4 ∨ c = .inhibit req arg ∧ op = 5 ∨ c = .resetFirstOut req arg ∧ op = 6) →
    PageReady s 0x13 → Answers c s 0x13 (hdrHeld req (BitVec.ofNat 8 op) arg) s)
  ∧ (∀ (c : Instr) (op : Nat) (req : Requester) (arg : BitVec 24) (s : State),
    (c = .setDuty req arg ∧ op = 1 ∨ c = .watchEnable req arg ∧ op = 2 ∨ c = .watchReset req arg ∧ op = 3) →
    PageReady s 0x14 → Answers c s 0x14 (hdrHeld req (BitVec.ofNat 8 op) arg) s)
  ∧ (∀ (r : RunCmd) (s : State), (hdr s 0x13).run = some r →
    let t := runHeld 0x13 applyAlarmCmd s
    let p := fld r.arg 0 11
    let g := fld r.arg 0 8
    let word := BitVec.ofNat 24
    (claimed s = false → (hdr t 0x13).status = 3 ∧ bitAt (hdr t 0x13).sticky 1 = true ∧ t.alarm = s.alarm)
    ∧ (claimed s = true → r.op = 1 → r.arg.toNat < 2048 → planned s 5 p = true → (hdr t 0x13).status = 0
        ∧ ((pointGet s p).state = .activeUnack → (pointGet t p).state = .activeAck ∧ (pointGet t p).sounding = false
            ∧ (hdr t 0x13).result = 1)
        ∧ ((pointGet s p).state = .clearedUnack → (pointGet t p).sounding = false ∧ (hdr t 0x13).result = 1
            ∧ (pointGet t p).state = if (pointGet s p).srcBad then .fault else .normal)
        ∧ ((pointGet s p).state ≠ .activeUnack → (pointGet s p).state ≠ .clearedUnack → t.alarm = s.alarm
            ∧ (hdr t 0x13).result = 0)
        ∧ (∀ q, q ≠ p → pointGet t q = pointGet s q))
    ∧ (claimed s = true → (r.op = 2 ∧ r.arg.toNat < 256 ∧ planned s 6 g = true ∨ r.op = 3 ∧ r.arg = 0) →
        let l := if r.op = 2 then members s g else plannedPoints s
        (hdr t 0x13).status = 0
        ∧ (∀ q ∈ l, (pointGet s q).state = .activeUnack → (pointGet t q).state = .activeAck)
        ∧ (∀ q, q ∉ l → pointGet t q = pointGet s q))
    ∧ (claimed s = true → r.op = 4 → r.arg = 0 →
        let l := (plannedPoints s).filter (fun q => (pointGet s q).sounding)
        (hdr t 0x13).status = 0 ∧ (hdr t 0x13).result = word l.length
        ∧ (∀ q ∈ plannedPoints s, pointGet t q = { pointGet s q with sounding := false })
        ∧ (∀ q, q ∉ plannedPoints s → pointGet t q = pointGet s q))
    ∧ (claimed s = true → r.op = 5 → argOutside r.arg 0x107FF = false → planned s 5 p = true →
        ptNoInhibit (ptBody s p) = false → (hdr t 0x13).status = 0
        ∧ pointGet t p = { pointGet s p with inhibit := bitAt r.arg 16 } ∧ (∀ q, q ≠ p → pointGet t q = pointGet s q))
    ∧ (claimed s = true → r.op = 6 → r.arg.toNat < 256 → planned s 6 g = true →
        (∀ q ∈ members s g, (pointGet s q).state ≠ .activeUnack) → (hdr t 0x13).status = 0
        ∧ (groupGet t g).fo = none
        ∧ (hdr t 0x13).result = word (((groupGet s g).fo.map Prod.fst).getD 0x800)
        ∧ (∀ k, k ≠ g → groupGet t k = groupGet s k) ∧ t.alarm.points = s.alarm.points))
  ∧ (∀ (r : RunCmd) (s : State), (hdr s 0x14).run = some r → claimed s = true → (roster s).isSome = true →
    let t := runHeld 0x14 (fun op arg _ => applyCallCmd op arg) s
    (r.op = 1 → r.arg.toNat < 16 → rosterDutyDi s = false → xferBusy s = false → cabin s r.arg.toNat ≠ 0xFF →
        (hdr t 0x14).status = 0 ∧ t.alarm.call.duty = r.arg.toNat
          ∧ (hdr t 0x14).result = BitVec.ofNat 24 s.alarm.call.duty)
    ∧ (r.op = 2 → r.arg.toNat < 2 → watchEn s = true → enableDi s = 0xFF → (hdr t 0x14).status = 0
        ∧ t.alarm.call.watchOn = bitAt r.arg 0
        ∧ (bitAt r.arg 0 = false → t.alarm.call.phase = .off)
        ∧ (bitAt r.arg 0 = true → s.alarm.call.phase = .off → t.alarm.call.phase = .running
            ∧ t.alarm.call.watchStart = s.course.cn))
    ∧ (r.op = 3 → r.arg = 0 → s.alarm.call.phase ≠ .off → (hdr t 0x14).status = 0 ∧ t.alarm.call.phase = .running
        ∧ t.alarm.call.watchStart = s.course.cn))

/-! Interrupts and event queues (ch. 11). -/

/-- R290 to R292, R298 to R301, R304 to R306: an occurrence (an edge of a page's level, a boundary, a publication or a record in
the target's queue) reaches the ICU once; occurrences count until COUNT, then the source is pending; TIME or the software
registers do the same; a source with nothing on its way does nothing; STACK_FAULT has its own bit, and FAULT.COUNT counts it; the end of a hold-off lets its group be presented; a write of ICU_SRCs_CFG sets EN,
TARGET (if it names a target) and PRIO.  No other source, and no stack, changes. -/
def Obligations.InterruptSources : Prop :=
  (∀ (src : IcuId) (s : State), domUp s 2 = true → icuOnWay s src = true →
    let k := icuKey src
    let x := icuSrc s.icu k
    ∃ t, exec (.icuSourceOccurrence src) s = .next t
      ∧ (x.count.toNat ≤ x.counted + 1 → icuSrc t.icu k = { x with pending := true, counted := 0, timer := false })
      ∧ (x.counted + 1 < x.count.toNat →
          icuSrc t.icu k = { x with counted := x.counted + 1, timer := decide (x.time ≠ 0) })
      ∧ (∀ j, j ≠ k → icuSrc t.icu j = icuSrc s.icu j)
      ∧ (∀ g, src = .shared g → (hdr t g.val).edges + 1 = (hdr s g.val).edges)
      ∧ (∀ n : Fin 5, src = .priv n 8 → t.course.pulses.get 0 n.val + 1 = s.course.pulses.get 0 n.val)
      ∧ (∀ n : Fin 5, src = .priv n 9 → t.square.pulses.get 0 n.val + 1 = s.square.pulses.get 0 n.val)
      ∧ (∀ n : Fin 5, src = .priv n 12 →
          (t.evq.queues.get {} n.val).pulses + 1 = (s.evq.queues.get {} n.val).pulses)
      ∧ t = { s with icu := t.icu, hdrs := t.hdrs, course.pulses := t.course.pulses, square.pulses := t.square.pulses
                     evq.queues := t.evq.queues })
  ∧ (∀ (src : IcuId) (s : State), icuOnWay s src = false → (∀ n : Fin 5, src ≠ .priv n 11) →
    exec (.icuSourceOccurrence src) s = .next s)
  ∧ (∀ (p bit : Nat) (s : State), pageLevel s p = false → bitAt (hdr s p).irqen bit = true → (∃ d, pageDom s p = some d ∧ domUp s d = true) →
    bit < 32 → (hdr (setSticky p bit s) p).edges = (hdr s p).edges + 1 ∧ pageLevel (setSticky p bit s) p = true)
  ∧ (∀ (n : Fin 5) (s : State), domUp s 2 = true →
    ∃ t, exec (.icuSourceOccurrence (.priv n 11)) s = .next t ∧ (icuTgt t.icu n.val).faultPending = true
      ∧ (icuTgt t.icu n.val).faultCount = satInc (icuTgt s.icu n.val).faultCount
      ∧ (∀ m, m ≠ n.val → (icuTgt t.icu m).faultPending = (icuTgt s.icu m).faultPending)
      ∧ t.icu.srcs = s.icu.srcs ∧ t = { s with icu := t.icu })
  ∧ (∀ (src : IcuId) (s : State), domUp s 2 = true →
    let k := icuKey src
    let x := icuSrc s.icu k
    (x.counted = 0 ∨ x.timer = false → exec (.coalesceTimeout src) s = .next s)
    ∧ (x.counted ≠ 0 → x.timer = true → ∃ t, exec (.coalesceTimeout src) s = .next t
      ∧ icuSrc t.icu k = { x with pending := true, counted := 0, timer := false }
      ∧ (∀ j, j ≠ k → icuSrc t.icu j = icuSrc s.icu j) ∧ t = { s with icu := t.icu }))
  ∧ (∀ (g : Fin 32) (s : State), ∃ t, exec (.holdoffEnd g) s = .next t
      ∧ (∀ key, icuGroup key = g.val → icuHeld t.icu key = false) ∧ t.icu.srcs = s.icu.srcs
      ∧ (∀ key, icuGroup key ≠ g.val → icuHeld t.icu key = icuHeld s.icu key) ∧ t = { s with icu := t.icu })
  ∧ (∀ (n : Fin 5) (v : Word) (s : State), PageTakes s (9 + n.val) →
    ∃ t, exec (.icuSwi n v) s = .next t ∧ hdr t (9 + n.val) = hdrCount (hdr s (9 + n.val))
      ∧ (∀ i, i < 8 → bitAt v i = true → (icuSrc s.icu (1000 + 16 * n.val + i)).count.toNat ≤ 1 →
          (icuSrc t.icu (1000 + 16 * n.val + i)).pending = true)
      ∧ (∀ j, (∀ i, i < 8 → bitAt v i = true → j ≠ 1000 + 16 * n.val + i) → icuSrc t.icu j = icuSrc s.icu j)
      ∧ t = { s with icu := t.icu, hdrs := t.hdrs })
  ∧ (∀ (req : Requester) (i : Fin 256) (v : Word) (s : State), PageTakes s 8 →
    let k := 16 + i.val
    let x := icuSrc s.icu k
    ∃ t, exec (.icuSrcCfgWrite req i v) s = .next t
      ∧ icuSrc t.icu k = { x with
          en := bitAt v 31, prio := BitVec.ofNat 8 (fld v 0 8), target := if fld v 16 3 ≤ 4 then fld v 16 3 else x.target }
      ∧ (∀ j, j ≠ k → icuSrc t.icu j = icuSrc s.icu j)
      ∧ (∀ n, (icuTgt t.icu n).stack = (icuTgt s.icu n).stack)
      ∧ hdr t 8 = hdrCount (hdr s 8) ∧ (∀ q, q ≠ 8 → hdr t q = hdr s q)
      ∧ t = { s with icu := t.icu, hdrs := t.hdrs })


/-- R294, R296, R298, R299: a CLAIM read by the target returns the presentable source of the highest tier, then PRIO, then the
lowest ID, clears its pending state and pushes it onto the stack; PEEK is what it would return; with nothing presentable it returns 0x3FF and changes no
source and no stack; by any other requester it acts as PEEK and changes nothing. -/
def Obligations.ClaimReturnsSelected : Prop :=
  (∀ (b : IcuBlk) (n k : Nat), (∀ j ∈ b.srcs.keys, 16 ≤ j) → icuSelect b n = some k →
    icuPresentable b n k = true
      ∧ ∀ j ∈ b.srcs.keys, icuPresentable b n j = true → j ≠ k → icuAhead b k j = true)
  ∧ (∀ (n : Fin 5) (s : State), domUp s 2 = true → (icuTgt s.icu n.val).window = none →
    let g := icuTgt s.icu n.val
    ∃ t, exec (.icuClaim (icuOwner n.val) n) s = .next t
      ∧ (∀ k, icuPeek s.icu n.val = some k → t.resp = { words := [BitVec.ofNat 32 (icuIdOf k)] })
      ∧ (∀ k, icuPeek s.icu n.val = some k → k ≠ 1000 + 16 * n.val + 11 →
          icuSrc t.icu k = { icuSrc s.icu k with pending := false }
            ∧ (icuTgt t.icu n.val).stack = (icuIdOf k, (icuSrc s.icu k).prio) :: g.stack)
      ∧ (icuPeek s.icu n.val = some (1000 + 16 * n.val + 11) → (icuTgt t.icu n.val).faultPending = false
          ∧ (icuTgt t.icu n.val).faultActive = true ∧ (icuTgt t.icu n.val).stack = g.stack)
      ∧ (icuPeek s.icu n.val = none → t.resp = { words := [0x3FF] } ∧ t.icu.srcs = s.icu.srcs
          ∧ icuTgt t.icu n.val = { g with sleep := false })
      ∧ (∀ k, icuPeek s.icu n.val ≠ some k → icuSrc t.icu k = icuSrc s.icu k)
      ∧ (∀ m, m ≠ n.val → (icuTgt t.icu m).stack = (icuTgt s.icu m).stack)
      ∧ t = { s with icu := t.icu, resp := t.resp, free := t.free })
  ∧ (∀ (n : Fin 5) (s : State), domUp s 2 = true → ∃ t, exec (.icuClaim (icuOwner n.val) n) s = .next t
      ∧ t.resp = { words := [BitVec.ofNat 32 (icuPeekId s n.val)] } ∧ (icuTgt t.icu n.val).window = none)
  ∧ (∀ (req : Requester) (n : Fin 5) (s : State), domUp s 2 = true → req ≠ icuOwner n.val →
      exec (.icuClaim req n) s = .next { s with resp := { words := [BitVec.ofNat 32 (icuPeekId s n.val)] } })

/-- R297, R299: an EOI by the target of the ID on top of its stack pops it; 0x3FF is ignored; any other ID is rejected, with the
stack unchanged, STACK_FAULT pending, the fault recorded, the safety partition told and the event raised; an EOI by another
requester only sets EOI_REJ. -/
def Obligations.EoiPopsTop : Prop :=
  ∀ (req : Requester) (n : Fin 5) (v : Word) (s : State), PageTakes s (9 + n.val) →
    let g := icuTgt s.icu n.val
    let id := fld v 0 10
    (req ≠ icuOwner n.val → Answers (.icuEoi req n v) s (9 + n.val) (hdrSticky 8) s)
    ∧ (req = icuOwner n.val → id = 0x3FF → exec (.icuEoi req n v) s = .next s)
    ∧ (req = icuOwner n.val → id ≠ 0x3FF → (icuTop g).map Prod.fst = some id →
      ∃ t, exec (.icuEoi req n v) s = .next t ∧ hdr t (9 + n.val) = hdrCount (hdr s (9 + n.val))
        ∧ (id = 11 → (icuTgt t.icu n.val).faultActive = false ∧ (icuTgt t.icu n.val).stack = g.stack)
        ∧ (id ≠ 11 → (icuTgt t.icu n.val).stack = g.stack.tail)
        ∧ (∀ m, m ≠ n.val → (icuTgt t.icu m).stack = (icuTgt s.icu m).stack)
        ∧ (∀ k, k ≠ id → icuSrc t.icu k = icuSrc s.icu k)
        ∧ t = { s with icu := t.icu, hdrs := t.hdrs })
    ∧ (req = icuOwner n.val → id ≠ 0x3FF → (icuTop g).map Prod.fst ≠ some id →
      let top := ((icuTop g).map Prod.fst).getD 0x3FF
      ∃ t, exec (.icuEoi req n v) s = .next t ∧ t.hdrs = s.hdrs
        ∧ (icuTgt t.icu n.val).stack = g.stack ∧ (icuTgt t.icu n.val).faultPending = true
        ∧ (icuTgt t.icu n.val).rej = BitVec.ofNat 10 id ∧ (icuTgt t.icu n.val).top = BitVec.ofNat 10 top
        ∧ (icuTgt t.icu n.val).faultCount = satInc g.faultCount
        ∧ (domUp s 1 = true → t.safe.stackFaults = satInc s.safe.stackFaults)
        ∧ Raised s t 5 1 (9 + n.val) (id + top * 2 ^ 16)
        ∧ (∀ m, m ≠ n.val → (icuTgt t.icu m).stack = (icuTgt s.icu m).stack) ∧ t.icu.srcs = s.icu.srcs
        ∧ t = { s with icu := t.icu, safe.stackFaults := t.safe.stackFaults, evq := t.evq, free := t.free })

/-- R295: a write to ICU_TIERS0 or ICU_TIERS1 takes effect only while every target's stack is empty; otherwise it is dropped,
sets TIERS_REJ and leaves every boundary unchanged.  In both cases every stacked entry keeps its PRIO. -/
def Obligations.TiersWriteNeedsEmptyStacks : Prop :=
  (∀ (hi : Bool) (v : Word) (s : State), PageTakes s 8 →
    (∀ n, n < 5 → (icuTgt s.icu n).stack = [] ∧ (icuTgt s.icu n).faultActive = false) →
    ∃ t, exec (.icuTiersWrite hi v) s = .next t
      ∧ (hi = false → t.icu.tiers0 = v ∧ t.icu.tiers1 = s.icu.tiers1)
      ∧ (hi = true → t.icu.tiers1 = v &&& 0x00FFFFFF ∧ t.icu.tiers0 = s.icu.tiers0)
      ∧ hdr t 8 = hdrCount (hdr s 8) ∧ (∀ q, q ≠ 8 → hdr t q = hdr s q)
      ∧ (∀ n, (icuTgt t.icu n).stack = (icuTgt s.icu n).stack)
      ∧ t.icu.srcs = s.icu.srcs ∧ t = { s with icu := t.icu, hdrs := t.hdrs })
  ∧ (∀ (hi : Bool) (v : Word) (n : Nat) (s : State), PageTakes s 8 → n < 5 → (icuTgt s.icu n).stack ≠ [] →
    Answers (.icuTiersWrite hi v) s 8 (hdrSticky 8) s)

/-- R309 to R316: a record that arrives is written to every enabled queue that selects it while there is room, with the queue's
SEQ; beyond 768 records others than alarms are shed, and beyond 1,024 an alarm is merged into its point's latch.  POP by the
owner removes records, by another is refused; OVERLOAD clears after a second below 512; disabling empties the queue. -/
def Obligations.EventQueues : Prop :=
  (∀ (k : Nat) (e : EventRec) (s : State), domUp s 3 = true →
    let i := if evqMayPass s.evq.inflight k then k else 0
    s.evq.inflight[i]? = some e →
    ∃ t, exec (.eventRecordArrival k) s = .next t ∧ t.evq.inflight = s.evq.inflight.eraseIdx i
      ∧ (∀ q, q < 5 → (evqGet s q).latches.cells = [] → (evqGet s q).epoch = none → (evqGet s q).shed = 0 →
          let x := evqGet s q
          let y := evqGet t q
          (x.en = false ∨ evqSelects x e = false → y.recs = x.recs ∧ y.seq = x.seq)
          ∧ (x.en = true → evqSelects x e = true → x.recs.length < 768 →
              y.recs = x.recs ++ [{ e with seq := x.seq }] ∧ y.seq = x.seq + 1 ∧ y.shed = 0)
          ∧ (x.en = true → evqSelects x e = true → 768 ≤ x.recs.length → e.cls ≠ 1 →
              y.recs = x.recs ∧ y.shed = 1 ∧ y.firstShed = e.cn ∧ y.lastShed = e.cn ∧ y.shedTotal = satInc x.shedTotal)
          ∧ (x.en = true → evqSelects x e = true → 768 ≤ x.recs.length → x.recs.length < 1024 → e.cls = 1 →
              y.recs = x.recs ++ [{ e with seq := x.seq }])
          ∧ (x.en = true → evqSelects x e = true → 1024 ≤ x.recs.length → e.cls = 1 →
              y.recs = x.recs ∧ y.latches.get? e.source.toNat = some { data := e.data, lost := 1 }))
      ∧ t = { s with evq := t.evq, hdrs := t.hdrs, free := t.free })
  ∧ (∀ (q : Fin 5) (v : Word) (s : State), PageTakes s 0x15 → (evqGet s q.val).latches.cells = [] →
    (evqGet s q.val).epoch = none → (evqGet s q.val).shed = 0 →
    ∃ t, exec (.evqPop (evqOwner q.val) q v) s = .next t ∧ hdr t 0x15 = hdrCount (hdr s 0x15)
      ∧ (evqGet t q.val).recs = (evqGet s q.val).recs.drop (fld v 0 11) ∧ (evqGet t q.val).seq = (evqGet s q.val).seq
      ∧ (∀ k, k ≠ q.val → evqGet t k = evqGet s k) ∧ t = { s with evq := t.evq, hdrs := t.hdrs, free := t.free })
  ∧ (∀ (req : Requester) (q : Fin 5) (v : Word) (s : State), PageTakes s 0x15 → req ≠ evqOwner q.val →
    Answers (.evqPop req q v) s 0x15 (hdrSticky 9) s)
  ∧ (∀ (q : Fin 5) (since_ : Word) (s : State), domUp s 3 = true → (evqGet s q.val).latches.cells = [] →
    (evqGet s q.val).shed = 0 → (evqGet s q.val).lowSince = some since_ → 4000 ≤ since s since_ →
    ∃ t, exec (.evqOverloadClear q) s = .next t ∧ evqGet t q.val = { evqGet s q.val with overload := false }
      ∧ (∀ k, k ≠ q.val → evqGet t k = evqGet s k) ∧ t = { s with evq := t.evq })
  ∧ (∀ (q : Fin 5) (a : Bool) (s : State), PageTakes s 0x15 →
    ∃ t, exec (.evqDisable q a) s = .next t ∧ hdr t 0x15 = hdrCount (hdr s 0x15)
      ∧ (evqGet t q.val).en = false ∧ (evqGet t q.val).alarms = a ∧ (evqGet t q.val).recs = []
      ∧ (evqGet t q.val).latches.cells = [] ∧ (evqGet t q.val).shed = 0 ∧ (evqGet t q.val).overload = false
      ∧ (∀ k, k ≠ q.val → evqGet t k = evqGet s k) ∧ t = { s with evq := t.evq, hdrs := t.hdrs })

/-! The redundant pair (ch. 12). -/

/-- R319, R320, R323, R327, R330, R331: heartbeats.  One goes out on both streets, and a sent one that was not echoed counts
against its street; a received one gives the peer's state, or shows a wrong serial number; an echo within 2 µs is good; a street
without good ones goes missing and one with 50 in a row is present. -/
def Obligations.HeartbeatsAndStreets : Prop :=
  (∀ s : State, domUp s 1 = true → s.red.role ≠ .solo → ∃ t, exec .heartbeatSend s = .next t
      ∧ t.red.hbSent = some (ownHeartbeat s)
      ∧ (∀ b, (street s b).waiting = false → street t b = { street s b with waiting := true })
      ∧ (∀ b, (street s b).waiting = true →
          street t b = { street s b with missed := satInc (street s b).missed, goodRun := 0 })
      ∧ t = { s with red.hbSent := t.red.hbSent, red.streetA := t.red.streetA, red.streetB := t.red.streetB, free := t.free })
  ∧ (∀ (st : Bool) (h : Heartbeat) (s : State), domUp s 1 = true →
    (h.crcOk = false → ∃ t, exec (.heartbeatReceive st h) s = .next t
        ∧ street t st = { street s st with missed := satInc (street s st).missed, goodRun := 0 }
        ∧ street t (!st) = street s (!st)
        ∧ t = { s with red.streetA := t.red.streetA, red.streetB := t.red.streetB })
    ∧ (h.crcOk = true → inPair s = true → h.role ≠ s.red.role → s.red.peerSn = 0 ∨ h.serial = s.red.peerSn →
        ∃ t, exec (.heartbeatReceive st h) s = .next t ∧ (street t st).echo = some h
          ∧ t.red.peerReady = h.ready ∧ t.red.peerFault = h.fault ∧ t.red.peerCn = h.cn ∧ t.red.peerRole = h.role
          ∧ t.red.peerSynced = h.synced ∧ t.red.wrongSerial = false
          ∧ t.red.own = s.red.own ∧ t.red.peer = s.red.peer ∧ t.red.gates = s.red.gates ∧ t.red.state = s.red.state
          ∧ t = { s with red := t.red, evq := t.evq, free := t.free })
    ∧ (h.crcOk = true → inPair s = true → s.red.peerSn ≠ 0 → h.serial ≠ s.red.peerSn → s.red.wrongSerial = false →
        ∃ t, exec (.heartbeatReceive st h) s = .next t ∧ t.red.wrongSerial = true ∧ t.red.conflict = true
          ∧ t.red.peerReady = s.red.peerReady ∧ t.red.own = s.red.own ∧ t.red.gates = s.red.gates
          ∧ t = { s with red := t.red, evq := t.evq, free := t.free }))
  ∧ (∀ (st : Bool) (rtt : Nat) (s : State), domUp s 1 = true → (street s st).waiting = true →
    let x := street s st
    ∃ t, exec (.echoReceive st rtt) s = .next t
      ∧ (rtt ≤ 200 → street t st = { x with waiting := false, rtt := satNat 8 rtt, goodRun := x.goodRun + 1 })
      ∧ (200 < rtt → street t st = { x with waiting := false, rtt := satNat 8 rtt, missed := satInc x.missed, goodRun := 0 })
      ∧ street t (!st) = street s (!st)
      ∧ t = { s with red.streetA := t.red.streetA, red.streetB := t.red.streetB })
  ∧ (∀ (st : Bool) (s : State), domUp s 1 = true → (street s st).present = true → s.red.role ≠ .solo →
    let takes := (street s (!st)).present = false ∧ s.red.state = .standby ∧ redReady s = true ∧ mayClaim s = true
    ∃ t, exec (.streetMissing st) s = .next t ∧ (street t st).present = false ∧ (street t st).goodRun = 0
      ∧ street t (!st) = street s (!st) ∧ t.red.gates = s.red.gates
      ∧ (takes → t.red.own = s.red.peerEpoch + 1 ∧ t.red.state = .active ∧ t.red.taking = true
          ∧ t.red.takeCause = 0 ∧ t.red.takeCount = satInc s.red.takeCount)
      ∧ (¬ takes → t.red.own = s.red.own ∧ t.red.state = s.red.state)
      ∧ t = { s with red := t.red, evq := t.evq, free := t.free })
  ∧ (∀ (st : Bool) (s : State), domUp s 1 = true → (street s st).present = false → 50 ≤ (street s st).goodRun →
    ∃ t, exec (.streetPresent st) s = .next t ∧ street t st = { street s st with present := true }
      ∧ street t (!st) = street s (!st) ∧ t.red.own = s.red.own ∧ t.red.gates = s.red.gates
      ∧ t.red.state = s.red.state ∧ t = { s with red := t.red, evq := t.evq, free := t.free })

/-- R321, R324 to R327, R329: claim frames.  A unit counts the slots that carry its new claim above the peer's; a higher peer
claim takes the unit's own away with its gates, an equal one is decided for unit A, and a lower one changes neither; four slots
let the gates close, a takeover's without an inrush window; without frames the peer's claim reads 0. -/
def Obligations.ClaimFramesDecide : Prop :=
  (∀ s : State, inPair s = true → ∃ t, exec .claimFrameSend s = .next t ∧ t.red.frameSent = some (s.red.own, s.red.role)
      ∧ (s.red.own ≠ 0 → s.red.gates = false → t.red.slots = if s.red.peer < s.red.own then s.red.slots + 1 else 0)
      ∧ (s.red.own = 0 ∨ s.red.gates = true → t.red.slots = s.red.slots)
      ∧ t = { s with red.frameSent := t.red.frameSent, red.slots := t.red.slots })
  ∧ (∀ (c : Half) (role : Role) (s : State), exec (.claimFrameReceive c role false) s = .next s)
  ∧ (∀ (c : Half) (role : Role) (s : State), inPair s = true → role ≠ s.red.role →
    ∃ t, exec (.claimFrameReceive c role true) s = .next t ∧ t.red.peer = c ∧ t.red.claimLine = true
      ∧ (s.red.own ≠ 0 → s.red.own < c → t.red.own = 0 ∧ t.red.gates = false ∧ t.red.state = .standby)
      ∧ (s.red.own ≠ 0 → s.red.own = c → s.red.role = .b → t.red.own = 0 ∧ t.red.gates = false ∧ t.red.state = .standby)
      ∧ (s.red.own ≠ 0 → s.red.own = c → s.red.role = .a → t.red.own = s.red.own ∧ t.red.gates = false
          ∧ t.red.state = s.red.state)
      ∧ (c < s.red.own → s.red.state ≠ .electing → t.red.own = s.red.own ∧ t.red.gates = s.red.gates
          ∧ t.red.state = s.red.state)
      ∧ (s.red.own = 0 → s.red.state = .electing → s.red.election = true → c ≠ 0 → t.red.state = .standby)
      ∧ t.plan = s.plan ∧ t.course.cn = s.course.cn ∧ t.safe = s.safe)
  ∧ (∀ s : State, s.red.claimLine = true → ∃ t, exec .claimLineMissing s = .next t
      ∧ t.red.peer = 0 ∧ t.red.claimLine = false ∧ t.red.own = s.red.own ∧ t.red.gates = s.red.gates
      ∧ t.red.state = s.red.state ∧ t = { s with red := t.red, evq := t.evq, free := t.free })
  ∧ (∀ s : State,
    let may := domUp s 6 = true ∧ s.red.own ≠ 0 ∧ s.red.gates = false
      ∧ (s.red.role = .solo ∨ 4 ≤ s.red.slots ∧ s.red.peer < s.red.own)
    (¬ may → exec .gateEnable s = .next s)
    ∧ (may → ∃ t, exec .gateEnable s = .next t ∧ t.red.gates = true ∧ t.red.taking = false
      ∧ (s.red.taking = true → ∀ n, n < 32 → (dioGet t n).inrush = false)
      ∧ t.red.own = s.red.own ∧ t.red.peer = s.red.peer ∧ t.red.state = s.red.state ∧ t.red.role = s.red.role
      ∧ t.plan = s.plan ∧ t.safe = s.safe))
  ∧ (∀ (c : Instr) (role : Role) (s : State), (∃ st h, c = .heartbeatReceive st h ∧ h.crcOk = true ∧ h.role = role
        ∧ domUp s 1 = true ∧ (s.red.peerSn = 0 ∨ h.serial = s.red.peerSn)) ∨ (∃ n, c = .claimFrameReceive n role true) →
    s.red.role = .solo ∨ inPair s = true ∧ role = s.red.role → s.red.roleConflict = false →
    ∃ t, exec c s = .next t ∧ t.red.own = 0 ∧ t.red.gates = false ∧ t.red.state = .idle ∧ t.red.roleConflict = true
      ∧ t.red.conflict = true ∧ t.plan = s.plan ∧ t.safe = s.safe)

/-- R324, R328, R329, R338: a gate fault opens its stage and has an active unit of a pair yield; an epoch above 0xFF00 is
renumbered to 1 once the peer has read 0 for long enough; the end of the election's window raises claim 1; a yield message
makes a ready standby take over with the next epoch. -/
def Obligations.ElectionAndTakeover : Prop :=
  (∀ (g : Fin 74) (s : State), domUp s 6 = true → ∃ t, exec (.gateFault g) s = .next t
      ∧ (g.val < 32 → t.red.flt = { s.red.flt with dio := setBit s.red.flt.dio g.val true } ∧ gateDio t g.val = false)
      ∧ (32 ≤ g.val → g.val < 64 → t.red.flt = { s.red.flt with uc := setBit s.red.flt.uc (g.val - 32) true }
          ∧ gateUc t (g.val - 32) = false)
      ∧ (64 ≤ g.val → g.val < 70 → t.red.flt = { s.red.flt with lt := setBit s.red.flt.lt (g.val - 64) true }
          ∧ gateLt t (g.val - 64) = false)
      ∧ (70 ≤ g.val → t.red.flt = { s.red.flt with can := setBit s.red.flt.can (g.val - 70) true }
          ∧ gateCan t (g.val - 70) = false)
      ∧ RaisedLast s t 2 6 0x48 (g.val * 2 ^ 16)
      ∧ (claimed s = true → isSolo s = false → s.red.yieldNext = none → t.red.yieldNext = some 2)
      ∧ t.red.own = s.red.own ∧ t.red.gates = s.red.gates ∧ t.red.state = s.red.state ∧ t.plan = s.plan)
  ∧ (∀ s : State,
    let due := s.red.state = .active ∧ 0xFF00 < s.red.own.toNat ∧ s.red.peer = 0 ∧ 4000 ≤ s.red.quiet
    (¬ due → exec .epochRenumber s = .next s)
    ∧ (due → ∃ t, exec .epochRenumber s = .next t ∧ t.red = { s.red with own := 1, quiet := 0 }
      ∧ t = { s with red := t.red, evq := t.evq, hdrs := t.hdrs, free := t.free }))
  ∧ (∀ s : State,
    let may := s.red.state = .electing ∧ s.red.election = true ∧ redReady s = true ∧ mayClaim s = true
      ∧ (s.red.role = .solo ∨ s.red.peer = 0)
    (¬ may → exec .electionWindowEnd s = .next s)
    ∧ (may → ∃ t, exec .electionWindowEnd s = .next t
      ∧ t.red.own = 1 ∧ t.red.state = (if s.red.role = .solo then .solo else .active) ∧ t.red.election = false
      ∧ t.red.gates = s.red.gates ∧ t.red.peer = s.red.peer ∧ t.red.role = s.red.role
      ∧ t = { s with red := t.red, evq := t.evq, free := t.free }))
  ∧ (∀ (st : Bool) (cause : BitVec 3) (s : State), s.red.role ≠ .solo →
    let may := domUp s 1 = true ∧ s.red.state = .standby ∧ redReady s = true ∧ mayClaim s = true
    (¬ may → exec (.yieldMessageReceive st cause) s = .next s)
    ∧ (may → ∃ t, exec (.yieldMessageReceive st cause) s = .next t
      ∧ t.red.own = s.red.peerEpoch + 1 ∧ t.red.state = .active ∧ t.red.taking = true
      ∧ t.red.takeCause.toNat = cause.toNat ∧ t.red.takeCount = satInc s.red.takeCount
      ∧ t.red.gates = s.red.gates ∧ t = { s with red := t.red, evq := t.evq, free := t.free }))

/-- R332, R333, R339, R343: SWITCHOVER is held until the boundary that carries out the order to yield, and an order to yield
takes claim and gates away; CLEAR_COUNTS; the standby takes each new sync, counts the ones it missed, and re-phases to the
active unit. -/
def Obligations.YieldAndSync : Prop :=
  (∀ (req : Requester) (s : State), PageReady s 0x48 → bitAt s.red.cfg 0 = true → s.red.state = .active →
    s.red.peerReady = true → s.red.peerFault = false → s.red.streetA.present = true → s.red.streetB.present = true →
    4000 ≤ s.sync.ackRun →
    Answers (.switchover req 0) s 0x48 (hdrHeld req 1 0) (orderYield 3 s)
    ∧ (claimed s = true → isSolo s = false → s.red.yieldNext = none → (orderYield 3 s).red.yieldNext = some 3))
  ∧ (∀ (c : BitVec 3) (s : State), s.red.yieldNext = some c → claimed s = true →
    let t := yieldBoundary s
    t.red.own = 0 ∧ t.red.gates = false ∧ t.red.state = .standby ∧ t.red.yieldNext = none ∧ t.sync.yieldSent = some c
      ∧ (∀ r, (hdr s 0x48).run = some r → r.op = 1 → (hdr t 0x48).busy = false ∧ (hdr t 0x48).status = 0))
  ∧ (∀ (req : Requester) (s : State), PageReady s 0x48 →
    let a := { s.red.streetA with missed := 0 }
    let b := { s.red.streetB with missed := 0 }
    Answers (.clearCounts req 0) s 0x48 (hdrDone .ok 0)
      { s with red.streetA := a, red.streetB := b, sync.lost := 0, red.takeCount := 0 })
  ∧ (∀ (st ok : Bool) (m : SyncMsg) (s : State), domUp s 1 = true → domUp s 3 = true → s.red.state = .standby →
    (ok = false ∨ s.sync.newest ≠ none ∧ (m.cn - s.sync.last).toInt ≤ 0 → exec (.stateSyncReceive st ok m) s = .next s)
    ∧ (ok = true → s.sync.newest = none ∨ 0 < (m.cn - s.sync.last).toInt → ∃ t, exec (.stateSyncReceive st ok m) s = .next t
      ∧ (s.sync.newest = none → t.sync.last = m.cn ∧ t.sync.okRun = 1 ∧ t.sync.lost = satNat 16 s.sync.lost.toNat
          ∧ t.red.peerEpoch = m.epoch ∧ t.sync.newest.map (·.points) = some m.points)
      ∧ (s.sync.newest ≠ none →
          t.sync.last = m.cn ∧ t.red.peerEpoch = m.epoch ∧ t.sync.newest.map (·.records) = some m.records
            ∧ t.sync.lost = satNat 16 (s.sync.lost.toNat + ((m.cn - s.sync.last).toNat - 1))
            ∧ t.sync.okRun = if m.cn = s.sync.last + 1 then s.sync.okRun + 1 else 1)
      ∧ t = { s with sync := t.sync, red.peerEpoch := t.red.peerEpoch }))
  ∧ (∀ (cn : Word) (wi : BitVec 12) (o : Int) (s : State), s.red.state = .standby → domUp s 3 = true → s.red.own = 0 →
    s.loader.starting = none → s.loader.stopping = none →
    ∃ t, exec (.standbyRephase cn wi o) s = .next t ∧ t.red.phase = BitVec.ofInt 32 o
      ∧ (s.red.inStep = true → o.natAbs ≤ 5000 → t = { s with red.phase := BitVec.ofInt 32 o })
      ∧ (s.red.inStep = false ∨ 5000 < o.natAbs → t.course.cn = cn ∧ t.course.wi = wi.toNat ∧ t.red.inStep = true))


/-! The safety partition (ch. 13). -/

/-- R349, R351 to R355, R358: a release needs the requests of two requesters within 30 s, a restore one; both act at a boundary.
RESET_LANE is held and clears, at a boundary, latched lanes whose last sample is inside; FORCE_RESET needs 4,000 courses without
a course fault and clears FORCED; UPDATE_DISTRICT of the SAFE page verifies an update of a safety district. -/
def Obligations.SafetyCommands : Prop :=
  (∀ (output : Bool) (req : Requester) (arg : BitVec 24) (s : State),
    let c := if output then Instr.releaseOutput req arg else .releaseLane req arg
    let n := arg.toNat
    PageReady s 0x18 → n < 64 → relKnown s output n = true → relReleased s output n = false →
    relAsked s output n = false → relTripped s output n = false → s.safe.forced = false →
    let p : RelPend := { req := req, output := output, target := n }
    let a : RelAsk := { release := true, output := output, target := n, req := req }
    (s.safe.relPend = none → Answers c s 0x18 (hdrDone .ok 1) { s with safe.relPend := some p })
    ∧ (∀ q, s.safe.relPend = some q → 120000 < q.age →
        Answers c s 0x18 (hdrDone .ok 1) (safeEvent 5 q.target (b2n q.output) { s with safe.relPend := some p }))
    ∧ (∀ q, s.safe.relPend = some q → q.age ≤ 120000 → q.output = output → q.target = n → q.req = req →
        Answers c s 0x18 (hdrDone .ok 1) s)
    ∧ (∀ q, s.safe.relPend = some q → q.age ≤ 120000 → q.output = output → q.target = n → q.req ≠ req →
        Answers c s 0x18 (hdrDone .ok 2) { s with safe.relPend := none, safe.asks := s.safe.asks ++ [a] }))
  ∧ (∀ (output : Bool) (req : Requester) (arg : BitVec 24) (s : State),
    let c := if output then Instr.restoreOutput req arg else .restoreLane req arg
    let a : RelAsk := { release := false, output := output, target := arg.toNat, req := req }
    PageReady s 0x18 → arg.toNat < 64 → relReleased s output arg.toNat = true → restoreBarred s output arg.toNat = false →
    Answers c s 0x18 (hdrDone .ok 0) { s with safe.asks := s.safe.asks ++ [a] })
  ∧ (∀ (a : RelAsk) (s : State), a.target < 64 →
    (a.output = true → outReleased (applyAsk s a) a.target = a.release ∧ (applyAsk s a).safe.relTl = s.safe.relTl)
    ∧ (a.output = false → laneReleased (applyAsk s a) a.target = a.release ∧ (applyAsk s a).safe.relOut = s.safe.relOut))
  ∧ (∀ (p : RelPend) (s : State), s.safe.relPend = some p → domUp s 1 = true → 120000 ≤ p.age →
    ∃ t, exec .releaseLapsed s = .next t ∧ t.safe = { s.safe with relPend := none }
      ∧ t = { s with safe := t.safe, evq := t.evq, free := t.free })
  ∧ (∀ (req : Requester) (arg : BitVec 24) (s : State), PageReady s 0x18 → arg.toNat < 128 →
    Answers (.resetLane req arg) s 0x18 (hdrHeld req 6 arg) s)
  ∧ (∀ (n : Nat) (e : Entry) (s : State), n < 64 → planEntry s 0x20 n = some e → (laneGet s n).tripped = true →
    laneLatch e.body = true → (laneGet s n).lastInside = true → (laneGet s n).stale = false →
    ∃ t, applyResetLane (BitVec.ofNat 24 n) s = .done .ok 1 t
      ∧ laneGet t n = { laneGet s n with tripped := false, count := 0 } ∧ (∀ k, k ≠ n → laneGet t k = laneGet s k)
      ∧ t = { s with safe.lanes := t.safe.lanes })
  ∧ (∀ (req : Requester) (s : State), PageReady s 0x18 →
    (s.course.faultSeen = false ∨ 4000 ≤ since s s.course.faultCn →
      Answers (.forceReset req 0) s 0x18 (hdrDone .ok 0) { s with safe.forceReset := some req }))
  ∧ (∀ s : State, domUp s 1 = true → s.safe.forceReset.isSome = true →
      (safeBoundary s).safe.forced = false ∧ (safeBoundary s).safe.forceReset = none)
  ∧ (∀ (req : Requester) (arg : BitVec 24) (s : State), PageReady s 0x18 → argOutside arg 0xF003FF = false →
    let n := fld arg 20 4
    let v : Verifying := { op := 1, bank := argBank arg, block := argBlock arg, district := n, prev := (district s n).state }
    n < 4 → (district s n).state ≠ .updating →
    Answers (.updateSafetyDistrict req arg) s 0x18 (hdrHeld req 1 arg)
      (updDistrict n (fun d => { d with state := .verifying }) { s with loader.safeVerifying := some v }))

/-- R356, R357: a watchdog that has not been served for 4 courses, or a lockstep mismatch, takes claim and gates away and holds
PD1 in reset with its cause, a unit of a pair that was active or standby as a standby, another idle (the model's reading, log
entry 116); after it PD1
comes up with releases, FORCED and lane faults clear.  R345, R346: a write by another
requester to a register of S0/S1 changes nothing but the record of the violation. -/
def Obligations.PartitionGuards : Prop :=
  (∀ s : State, domUp s 1 = true → exec .watchdogService s = .next { s with safe.unserved := 0 })
  ∧ (∀ (c : Instr) (cause : BitVec 4) (s : State), domUp s 1 = true →
    (c = .watchdogExpiry ∧ cause = 1 ∧ 4 ≤ s.safe.unserved ∨ c = .lockstepMismatch ∧ cause = 2) →
    ∃ t, exec c s = .next t ∧ t.red.own = 0 ∧ t.red.gates = false
      ∧ t.red.state = (if inPair s = true ∧ (s.red.own ≠ 0 ∨ s.red.state = .standby) then .standby else .idle) ∧ domUp t 1 = false
      ∧ t.safe.pd1Reset = true ∧ t.safe.lastCause = cause ∧ t.safe.restarts = satInc s.safe.restarts
      ∧ t.safe.outTrip = 0 ∧ (∀ d, d ≠ 1 → d < 8 → domUp t d = domUp s d)
      ∧ t.course = s.course ∧ t.plan.entries = if domUp s 3 then s.plan.entries else [])
  ∧ (∀ s : State, s.safe.unserved < 4 → exec .watchdogExpiry s = .next s)
  ∧ (∀ s : State, s.safe.pd1Reset = true →
    ∃ t, exec .pd1Restart s = .next t ∧ domUp t 1 = true ∧ t.safe.pd1Reset = false ∧ t.safe.forced = false
      ∧ t.safe.relTl = 0 ∧ t.safe.relOut = 0 ∧ t.safe.relPend = none ∧ (∀ n, (laneGet t n).fault = false)
      ∧ t.safe.lastCause = s.safe.lastCause ∧ t.safe.restarts = s.safe.restarts ∧ t.safe.key = s.safe.key
      ∧ t.red.own = s.red.own ∧ t.red.gates = s.red.gates ∧ t.red.role = s.red.role
      ∧ (∀ d, d ≠ 1 → d < 8 → domUp t d = domUp s d) ∧ t.course = s.course ∧ t.plan.entries = s.plan.entries)
  ∧ (∀ (req : Requester) (off : Nat) (v : Word) (s : State), req ≠ .safe → 0x100 ≤ off → off < 0x140 → off % 4 = 0 →
    PageTakes s 0x18 →
    ∃ t, exec (.registerWrite req (BitVec.ofNat 32 (0x40018000 + off)) 2 v) s = .next t
      ∧ hdr t 0x18 = hdrSticky 0 (hdr s 0x18) ∧ (∀ q, q ≠ 0x18 → hdr t q = hdr s q)
      ∧ t.safe.accReq = BitVec.ofNat 8 req.code ∧ t.safe.accPage = 0x18 ∧ t.safe.accOff = BitVec.ofNat 12 off
      ∧ t.safe.accCnt = satInc s.safe.accCnt
      ∧ t.safe = { s.safe with accReq := t.safe.accReq, accPage := 0x18, accOff := t.safe.accOff, accCnt := t.safe.accCnt }
      ∧ Raised s t 4 1 0x18 (off + req.code * 2 ^ 24 + v.toNat * 2 ^ 32)
      ∧ t = { s with hdrs := t.hdrs, safe := t.safe, evq := t.evq, free := t.free })

/-! The network (ch. 14). -/

/-- R364 to R369, R389: a frame with a bad FCS or a bad length is counted and dropped; one for this node reaches its queue's next
descriptor, its bytes in memory; a handed descriptor is sent and returned; the tables and registers of the ports. -/
def Obligations.EthernetPorts : Prop :=
  (∀ (p : Fin 2) (f : EthFrame) (s : State), domUp s 7 = true → bitAt (ethGet s p.val).cfg 31 = true →
    let e := ethGet s p.val
    let b := f.bytes
    (f.fcsOk = false → exec (.ethFrameReceive p f) s = .next (ethCount p.val 2 s))
    ∧ (f.fcsOk = true → prpOn s = false → b.length < 60 ∨ 1518 < b.length →
        exec (.ethFrameReceive p f) s = .next (ethCount p.val 3 s))
    ∧ (f.fcsOk = true → prpOn s = false → 60 ≤ b.length → b.length ≤ 1518 → frForUs e b = false →
        exec (.ethFrameReceive p f) s = .next s)
    ∧ (f.fcsOk = true → prpOn s = true → 66 ≤ b.length → b.length ≤ 1518 → frType b ≠ 0x8808 →
        frForUs (ethGet s 0) b = true → frTagged b = false →
        ∀ seq lan, frTrailer b = some (seq, lan) → lan = portLan p.val → s.prp.table.contains (frSrc b, seq) = true →
        exec (.ethFrameReceive p f) s = .next (ethCount 0 6 s))
    ∧ (f.fcsOk = true → prpOn s = false → 60 ≤ b.length → b.length ≤ 1518 → frType b ≠ 0x8808 → frForUs e b = true →
        frTagged b = false → frPtpEvent b = false → s.mem.main.wf 0 = true →
        let q := frQueue e b
        let r := ringGet s p.val q
        let d := descAt r r.head.toNat
        let buf := leNat (ramRead s d 4)
        descReady s r = true → b.length ≤ leNat (ramRead s (d + 4) 2) → inRam buf b.length = true →
        buf + b.length ≤ d ∨ d + 16 ≤ buf →
        ∃ t, exec (.ethFrameReceive p f) s = .next t ∧ ramRead t buf b.length = b
          ∧ leNat (ramRead t (d + 4) 2) = b.length ∧ leNat (ramRead t (d + 6) 2) = 0
          ∧ (∀ a, (a < buf ∨ buf + b.length ≤ a) → (a < d + 4 ∨ d + 8 ≤ a) → t.mem.main.read 0 a = s.mem.main.read 0 a)
          ∧ ringGet t p.val q = { r with head := ringNext r r.head }
          ∧ (ethGet t p.val).cnt.get 0 0 = satInc (e.cnt.get 0 0) ∧ bitAt (hdr t (0x3C + p.val)).sticky 8 = true
          ∧ (∀ k, k ≠ p.val → ethGet t k = ethGet s k)
          ∧ t = { s with mem.main := t.mem.main, eths := t.eths, hdrs := t.hdrs, free := t.free }))
  ∧ (∀ (p : Fin 2) (q : Nat) (s : State), domUp s 7 = true → bitAt (ethGet s p.val).cfg 31 = true → prpOn s = false →
    [8, 7, 6, 5].find? (fun q => descReady s (ringGet s p.val q)) = some q → s.mem.main.wf 0 = true →
    let r := ringGet s p.val q
    let d := descAt r r.head.toNat
    ∃ t, exec (.ethFrameTransmit p) s = .next t
      ∧ (ethGet t p.val).sent = (ethGet s p.val).sent ++ [ramRead s (leNat (ramRead s d 4)) (leNat (ramRead s (d + 4) 2))]
      ∧ leNat (ramRead t (d + 6) 2) / 32768 = 0 ∧ ringGet t p.val q = { r with head := ringNext r r.head }
      ∧ (ethGet t p.val).cnt.get 0 1 = satInc ((ethGet s p.val).cnt.get 0 1)
      ∧ bitAt (hdr t (0x3C + p.val)).sticky 9 = true
      ∧ (∀ a, a < d + 6 ∨ d + 16 ≤ a → t.mem.main.read 0 a = s.mem.main.read 0 a)
      ∧ (∀ k, k ≠ p.val → ethGet t k = ethGet s k)
      ∧ t = { s with mem.main := t.mem.main, eths := t.eths, hdrs := t.hdrs, free := t.free })
  ∧ (∀ s : State, domUp s 7 = true → prpOn s = true → bitAt (ethGet s 0).cfg 31 = true → bitAt (ethGet s 1).cfg 31 = true →
    ∃ t, exec .prpSupervisionSend s = .next t ∧ t.prp.supSeq = s.prp.supSeq + 1 ∧ t.prp.seq = s.prp.seq + 1
      ∧ (ethGet t 0).sent.length = (ethGet s 0).sent.length + 1 ∧ (ethGet t 1).sent.length = (ethGet s 1).sent.length + 1
      ∧ t.prp.table = s.prp.table ∧ t = { s with prp := t.prp, eths := t.eths })
  ∧ (∀ s : State, exec .prpEntryExpiry s = .next { s with prp.table := s.prp.table.drop 1 })
  ∧ (∀ (p : Fin 2) (v : Word) (s : State), PageTakes s (0x3C + p.val) →
    let old := (ethGet s p.val).cfg
    let clash := bitAt old 31 = true ∧ ((p.val = 0 ∧ bitAt v 30 ≠ bitAt old 30) ∨ fld v 28 2 ≠ fld old 28 2)
    (clash → Answers (.ethCfgWrite p v) s (0x3C + p.val) (hdrSticky 12) s)
    ∧ (¬ clash → Answers (.ethCfgWrite p v) s (0x3C + p.val) hdrCount
        (updEth p.val (fun e => { e with cfg := v &&& (if p.val = 0 then 0xFC00FFFF else 0xBC00FFFF) }) s)))
  ∧ (∀ (req : Requester) (s : State), bitAt (regWord req s 0x3D 0x40) 30 = bitAt (ethGet s 0).cfg 30)
  ∧ (∀ (p : Fin 2) (q : Fin 9) (v : Word) (s : State), PageTakes s (0x3C + p.val) →
    let r := ringGet s p.val q.val
    ∃ t, exec (.ethQueueCtlWrite p q v) s = .next t ∧ hdr t (0x3C + p.val) = hdrCount (hdr s (0x3C + p.val))
      ∧ (bitAt v 31 = true → ringGet t p.val q.val = { r with ctl := v &&& 0x800007FF, head := 0, tail := 0 })
      ∧ (bitAt v 31 = false → ringGet t p.val q.val = { r with ctl := v &&& 0x800007FF })
      ∧ (∀ k, k ≠ p.val → ethGet t k = ethGet s k) ∧ t = { s with eths := t.eths, hdrs := t.hdrs })
  ∧ (∀ (p : Fin 2) (link g1 mdix : Bool) (s : State), domUp s 7 = true →
    ∃ t, exec (.ethLinkChange p link g1 mdix) s = .next t
      ∧ ethGet t p.val = { ethGet s p.val with link := link, g1 := g1, mdix := mdix }
      ∧ ((ethGet s p.val).link ≠ link → bitAt (hdr t (0x3C + p.val)).sticky 11 = true)
      ∧ (∀ k, k ≠ p.val → ethGet t k = ethGet s k)
      ∧ t = { s with eths := t.eths, hdrs := t.hdrs, evq := t.evq, free := t.free })

/-- R370, R371, R381 to R387: SET and STEP of PTP act at a boundary; a read of PTP_NOW_LO latches the whole time for its reader
alone; VALID lapses; a host transaction whose CRC fails is only counted, and one that is whole reads or writes its words, or
waits where it reads a NOR bank that is being erased or programmed (R40); nCS and
nRST; the service port and its keys. -/
def Obligations.TimeAndHostPort : Prop :=
  (∀ (req : Requester) (s : State), PageReady s 0x3E →
    Answers (.ptpSet req 0) s 0x3E (hdrDone .ok 0) { s with ptp.asked := s.ptp.asked ++ [(1, s.ptp.adjHi ++ s.ptp.adjLo)] }
    ∧ Answers (.ptpStep req 0) s 0x3E (hdrDone .ok 0)
      { s with ptp.asked := s.ptp.asked ++ [(2, s.ptp.adjHi ++ s.ptp.adjLo)] })
  ∧ (∀ (x : Dword) (s : State),
    (s.ptp.asked = [] → (ptpBoundary s).ptp.time = s.ptp.time + 250000)
    ∧ (s.ptp.asked = [(1, x)] → (ptpBoundary s).ptp.time = x)
    ∧ (s.ptp.asked = [(2, x)] → (ptpBoundary s).ptp.time = s.ptp.time + 250000 + x))
  ∧ (∀ (req : Requester) (s : State), domUp s 7 = true → ∃ t, exec (.ptpNowRead req) s = .next t
      ∧ t.resp.words = [(ptpNow s).setWidth 32] ∧ t.ptp.now.get 0 req.reader = ptpNow s
      ∧ (∀ k, k ≠ req.reader → t.ptp.now.get 0 k = s.ptp.now.get 0 k)
      ∧ t = { s with ptp.now := t.ptp.now, resp := t.resp, free := t.free })
  ∧ (∀ s : State, domUp s 7 = true → s.ptp.synced = true → ∃ t, exec .ptpValidExpiry s = .next t ∧ t.ptp.valid = false
      ∧ (s.ptp.valid = true → bitAt (hdr t 0x3E).sticky 9 = true) ∧ t.ptp = { s.ptp with valid := false }
      ∧ t = { s with ptp := t.ptp, hdrs := t.hdrs, evq := t.evq, free := t.free })
  ∧ (∀ (usb : Bool) (cmd crc : Byte) (a : Word) (s : State), netUp s = true → (usb = true → s.host.usb = true) →
    let ok := crc8 (cmd :: hostBytes a) = crc
    (¬ ok → Answers (.hostRead usb cmd a crc) s 0x49 (hdrSticky 8)
        { s with host.crc := satInc s.host.crc, resp := { hostStatus := some 0x3C } })
    ∧ (ok → fld cmd 4 4 ≠ 1 ∨ a.toNat % 4 ≠ 0 → Answers (.hostRead usb cmd a crc) s 0x49 (hdrSticky 9)
        { s with host.format := satInc s.host.format, resp := { hostStatus := some 0x5A } })
    ∧ (ok → fld cmd 4 4 = 1 → fld cmd 0 4 = 0 → a.toNat % 4 = 0 → inRam a.toNat 4 = true → s.host.cs = false →
        exec (.hostRead usb cmd a crc) s = .next { s with resp :=
          let w := BitVec.ofNat 32 (leNat (ramRead s a.toNat 4))
          { words := [w], hostStatus := some 0xC3, nodeCrc := some (crc8 (0xC3 :: hostBytes w)) } })
    ∧ (ok → fld cmd 4 4 = 1 → a.toNat % 4 = 0 → readWaits cmd a s = true → exec (.hostRead usb cmd a crc) s
        = .next { s with host.waiting := s.host.waiting ++ [(usb, cmd, a)], host.cs := !usb || s.host.cs
                         resp := { hostStatus := some 0x0F } }))
  ∧ (∀ (usb : Bool) (cmd crc : Byte) (a w : Word) (s : State), netUp s = true → (usb = true → s.host.usb = true) →
    fld cmd 0 4 = 0 → crc8 (cmd :: (hostBytes a ++ hostBytes w)) = crc → fld cmd 4 4 = 2 → a.toNat % 4 = 0 → inRam a.toNat 4 = true →
    domUp s 2 = true → s.mem.main.wf 0 = true → s.host.cs = false →
    ∃ t, exec (.hostWrite usb cmd a [w] crc) s = .next t ∧ t.resp = { hostStatus := some 0xC3 }
      ∧ leNat (ramRead t a.toNat 4) = w.toNat
      ∧ (∀ b, b < a.toNat ∨ a.toNat + 4 ≤ b → t.mem.main.read 0 b = s.mem.main.read 0 b)
      ∧ t = { s with mem.main := t.mem.main, resp := t.resp })
  ∧ (∀ s : State, netUp s = true → exec .hostCsAbort s = .next { s with host.cs := false })
  ∧ (∀ (refs trim : Bool) (s : State), netUp s = true → s.host.rstEn = true →
    ∃ t, exec (.hostReset refs trim) s = .next t ∧ t.sys.cause = 2 ∧ t.sys.resets = satInc s.sys.resets
      ∧ t.red.own = 0 ∧ t.red.gates = false ∧ t.red.role = s.red.role ∧ t.pending = s.pending)
  ∧ (∀ (on : Bool) (s : State), netUp s = true → exec (.servicePortConfigured on) s = .next { s with host.usb := on })
  ∧ (∀ (n : Fin 2) (key mac : List Byte) (s : State), netUp s = true → s.host.usb = true → key.length = 32 →
    mac.length = 32 →
    let held := if n.val = 0 then s.plan.key else s.safe.key
    let ok := match held with
      | some k => hmacSha256 k key = mac
      | none => mac = List.replicate 32 0
    (ok → n.val = 0 → exec (.keyInstall n key mac) s
        = .next { s with plan.key := some key, resp := { hostStatus := some 0xC3 } })
    ∧ (ok → n.val = 1 → claimed s = false → domUp s 1 = true → exec (.keyInstall n key mac) s
        = .next { s with safe.key := some key, resp := { hostStatus := some 0xC3 } })
    ∧ (¬ ok → Answers (.keyInstall n key mac) s 0x49 (hdrSticky 9)
        { s with host.format := satInc s.host.format, resp := { hostStatus := some 0x99 } }))

/-- R372 to R380, R388: frames that arrive on a CAN bus go to the lowest box that matches, else to queue 0 or 1, else they are
counted; SEND requests boxes, a box ends with its status, WITHDRAW, errors and bus-off; FREE; the timing and layout are taken only
while the controller is off; the message RAM, but for a box that is pending. -/
def Obligations.CanControllers : Prop :=
  (∀ (n : Fin 4) (f : CanFrame) (s : State), domUp s 7 = true → canOn (canGet s n.val) = true →
    (canGet s n.val).gate = false →
    let c := canGet s n.val
    ∃ t, exec (.canFrameReceive n f) s = .next t
      ∧ (∀ b, canBox c f = some b → bitAt (canGet t n.val).nd b = true ∧ bitAt (hdr t (0x38 + n.val)).sticky 8 = true
          ∧ (canGet t n.val).q0 = c.q0 ∧ (canGet t n.val).q1 = c.q1)
      ∧ (canBox c f = none → queueTakes c.q0 f = true → c.q0.count < qLen c.layout 0 →
          (canGet t n.val).q0 = { c.q0 with count := c.q0.count + 1, stored := c.q0.stored + 1 }
            ∧ bitAt (hdr t (0x38 + n.val)).sticky 9 = true)
      ∧ (canBox c f = none → queueTakes c.q0 f = false → queueTakes c.q1 f = true → qLen c.layout 1 ≤ c.q1.count →
          bitAt c.cfg 26 = false → canGet t n.val = { c with q1 := { c.q1 with lost := satInc c.q1.lost } }
            ∧ bitAt (hdr t (0x38 + n.val)).sticky 12 = true)
      ∧ (canBox c f = none → queueTakes c.q0 f = false → queueTakes c.q1 f = false →
          t = updCan n.val (fun c => { c with noMatch := satInc c.noMatch }) s)
      ∧ (∀ k, k ≠ n.val → canGet t k = canGet s k) ∧ t = { s with cans := t.cans, hdrs := t.hdrs })
  ∧ (∀ (n : Fin 4) (v : Word) (s : State), PageTakes s (0x38 + n.val) →
    (∃ t, exec (.canSend n v) s = .next t ∧ hdr t (0x38 + n.val) = hdrCount (hdr s (0x38 + n.val))
      ∧ (∀ b, b < 32 → bitAt v b = false ∨ (canGet s n.val).gate = false ∨ bitAt (canGet s n.val).cfg 31 = false →
          bitAt (canGet t n.val).pend b = bitAt (canGet s n.val).pend b)
      ∧ (∀ b, bitAt (canGet s n.val).pend b = true → bitAt (canGet t n.val).pend b = true)
      ∧ (∀ k, k ≠ n.val → canGet t k = canGet s k) ∧ t = { s with cans := t.cans, hdrs := t.hdrs })
    ∧ (∃ t, exec (.canWithdraw n v) s = .next t
      ∧ (∀ b, b < 32 → bitAt v b = false → bitAt (canGet t n.val).pend b = bitAt (canGet s n.val).pend b)
      ∧ (∀ b, b < 32 → bitAt v b = true → (canGet s n.val).gate = false → bitAt (canGet t n.val).pend b = false)
      ∧ (∀ k, k ≠ n.val → canGet t k = canGet s k) ∧ t = { s with cans := t.cans, hdrs := t.hdrs, free := t.free }))
  ∧ (∀ (n : Fin 4) (b : Nat) (sub : Half) (s : State), domUp s 7 = true → canMaySend (canGet s n.val) = true →
    canNext (canGet s n.val) = some b → b < 32 →
    let c := canGet s n.val
    (∃ t, exec (.canFrameSent n sub) s = .next t ∧ (canGet t n.val).sent = c.sent ++ [{ boxFrame c b with sub := sub }]
      ∧ bitAt (canGet t n.val).pend b = false ∧ bitAt (hdr t (0x38 + n.val)).sticky 10 = true
      ∧ (canGet t n.val).tec = c.tec - (if c.tec = 0 then 0 else 1)
      ∧ (∀ k, k ≠ n.val → canGet t k = canGet s k)
      ∧ t = { s with cans := t.cans, hdrs := t.hdrs, evq := t.evq, free := t.free })
    ∧ (∃ t, exec (.canTxError n false) s = .next t ∧ (canGet t n.val).errors = satInc c.errors
      ∧ (canGet t n.val).tec = satNat 8 (c.tec.toNat + 8) ∧ (247 < c.tec.toNat → (canGet t n.val).state = 2)
      ∧ (c.late = none → bitAt c.cfg 28 = false → (canGet t n.val).pend = c.pend)
      ∧ (c.late = none → bitAt c.cfg 28 = true → bitAt (canGet t n.val).pend b = false)
      ∧ (∀ k, k ≠ n.val → canGet t k = canGet s k)
      ∧ t = { s with cans := t.cans, hdrs := t.hdrs, evq := t.evq, free := t.free }))
  ∧ (∀ (n : Fin 4) (s : State), domUp s 7 = true →
    let c := canGet s n.val
    (c.state = 2 → ∃ t, exec (.canBusOffRecovery n) s = .next t ∧ (canGet t n.val).state = 0 ∧ (canGet t n.val).tec = 0
        ∧ (canGet t n.val).recv = 0 ∧ (∀ k, k ≠ n.val → canGet t k = canGet s k)
        ∧ t = { s with cans := t.cans, hdrs := t.hdrs, evq := t.evq, free := t.free })
    ∧ (canOn c = true → ∃ t, exec (.canRxError n) s = .next t ∧ (canGet t n.val).errors = satInc c.errors
        ∧ (canGet t n.val).recv = (if c.gate then satInc c.recv else c.recv) ∧ (∀ k, k ≠ n.val → canGet t k = canGet s k)
        ∧ t = { s with cans := t.cans, hdrs := t.hdrs, evq := t.evq, free := t.free })
    ∧ (c.gate = true → exec (.canBusIntegrated n) s = .next (updCan n.val (fun c => { c with integrated := true }) s)))
  ∧ (∀ (n : Fin 4) (k : Fin 2) (v : Word) (s : State), PageTakes s (0x38 + n.val) →
    let c := canGet s n.val
    let q := canQueue c k.val
    let mine := q.count ≠ 0 ∧ fld (canRam32 c (qAddr c.layout k.val q.next + 4)) 8 8 = fld v 0 8
    (mine → Answers (.canQueueFree n k v) s (0x38 + n.val) hdrCount (updCan n.val
      (setQueue k.val { q with next := (q.next + 1) % max 1 (qLen c.layout k.val), count := q.count - 1 }) s))
    ∧ (¬ mine → exec (.canQueueFree n k v) s = .next s))
  ∧ (∀ (n : Fin 4) (v : Word) (s : State), PageTakes s (0x38 + n.val) →
    let off := bitAt (canGet s n.val).cfg 31 = false
    (off → timingOk (fld v 16 8) (fld v 8 8) = true → Answers (.canCfgWrite n 0 v) s (0x38 + n.val) hdrCount
        (updCan n.val (fun c => { c with nbit := v &&& 0xFFFFFF7F }) s))
    ∧ (off → timingOk (fld v 10 6) (fld v 4 6) = true → Answers (.canCfgWrite n 1 v) s (0x38 + n.val) hdrCount
        (updCan n.val (fun c => { c with dbit := v &&& 0xFF1FFFFF }) s))
    ∧ (off → canUse v ≤ 8192 → Answers (.canCfgWrite n 2 v) s (0x38 + n.val) hdrCount
        (updCan n.val (fun c => { c with layout := v &&& 0xFC003F3F }) s))
    ∧ (¬ off → ∀ reg, Answers (.canCfgWrite n reg v) s (0x38 + n.val) (hdrSticky 14) s))
  ∧ (∀ (n : Fin 4) (w : Fin 2048) (v : Word) (s : State), domTakes s 7 = true →
    (pendingAt (canGet s n.val) (4 * w.val) = true → Answers (.canMsgramWrite n w v) s (0x38 + n.val) (hdrSticky 13) s)
    ∧ (pendingAt (canGet s n.val) (4 * w.val) = false → (canGet s n.val).ram.wf 0 = true →
      ∃ t, exec (.canMsgramWrite n w v) s = .next t ∧ canRam32 (canGet t n.val) (4 * w.val) = v
        ∧ (∀ a, a < 4 * w.val ∨ 4 * w.val + 4 ≤ a →
            (canGet t n.val).ram.read 0 a = (canGet s n.val).ram.read 0 a)
        ∧ (∀ k, k ≠ n.val → canGet t k = canGet s k) ∧ t = { s with cans := t.cans }))

/-! The log store (ch. 15). -/

/-- R392 to R402: APPEND writes records with rising SEQ; READ copies whole records to memory; CAPTURE is held for a boundary; a
capture and a trend second end as one record; commits, failures, the start of the store and the plan archive. -/
def Obligations.LogStore : Prop :=
  (∀ (req : Requester) (s : State), PageReady s 0x40 → s.log.ready = true → s.sup.supplyLoss = false →
    let n := fld s.log.len 0 17
    let a := s.log.addr.toNat
    let x := logPart s 1
    n % 32 = 0 → 32 ≤ n → n ≤ 4096 → a % 4 = 0 → inRam a n = true → bufUsed s 1 + n ≤ bufShare 1 →
    ∃ t, exec (.append req 0) s = .next t ∧ hdr t 0x40 = hdrDone .ok (fld (x.head + 1) 0 24) (hdr s 0x40)
      ∧ (logPart t 1).head = x.head + BitVec.ofNat 32 (n / 32) ∧ (logPart t 1).commit = x.commit
      ∧ (n = 32 → x.size + 32 ≤ partRoom s 1 → (logPart t 1).items
          = x.items ++ [(x.head + 1, leBytes 4 (x.head + 1).toNat ++ (ramRead s a 32).drop 4)])
      ∧ (∀ q, q ≠ 1 → logPart t q = logPart s q) ∧ t = { s with hdrs := t.hdrs, log.parts := t.log.parts })
  ∧ (∀ (req : Requester) (arg : BitVec 24) (s : State), PageReady s 0x40 → s.log.ready = true → arg.toNat < 5 →
    let a := s.log.addr.toNat
    let n := min (fld s.log.len 0 17) 65536
    let l := (readBytes s arg.toNat none).1
    a % 4 = 0 → inRam a n = true → s.mem.main.wf 0 = true →
    ∃ t, exec (.logRead req arg none) s = .next t ∧ hdr t 0x40 = hdrDone .ok l.length (hdr s 0x40)
      ∧ l.length ≤ n ∧ ramRead t a l.length = l
      ∧ (∀ b, b < a ∨ a + n ≤ b → t.mem.main.read 0 b = s.mem.main.read 0 b)
      ∧ (∀ q, logPart t q = logPart s q)
      ∧ t = { s with hdrs := t.hdrs, mem.main := t.mem.main, log.rfirst := t.log.rfirst })
  ∧ (∀ (req : Requester) (arg : BitVec 24) (c : Nat) (s : State), PageReady s 0x40 → arg.toNat < 256 → c < 8 →
    bitAt arg c = true → capOn s c = true →
    Answers (.capture req arg) s 0x40 (hdrHeld req 3 arg) { s with log.capAsked := some (arg.setWidth 8) })
  ∧ (∀ (c : Fin 8) (tr : Stamp) (ptp : Dword) (s : State),
    let x := capGet s c.val
    x.trig = some (tr, ptp) →
    (x.hist.any (fun h => msUnits (10 * fld x.cfgF 0 8) ≤ stampDiff h.1 tr) = true ∨ capOn s c.val = false) →
    ∃ t, exec (.captureComplete c) s = .next t ∧ capGet t c.val = { x with trig := none }
      ∧ (∀ k, k ≠ c.val → capGet t k = capGet s k)
      ∧ (logTakes s = true → (logPart t 3).head = (logPart s 3).head + 1
          ∧ (logPart t 3).items.getLast? = some ((logPart s 3).head + 1, capBytes s c.val x tr ptp))
      ∧ (logTakes s = false → t.log.parts = s.log.parts)
      ∧ (∀ q, q ≠ 3 → logPart t q = logPart s q)
      ∧ t = { s with log.caps := t.log.caps, log.parts := t.log.parts, evq := t.evq, free := t.free })
  ∧ (∀ (sec : Dword) (s : State), s.log.trend.second = some sec → s.log.trend.spoiled = false →
    s.log.trend.squares ≠ 0 → logTakes s = true →
    ∃ t, exec .trendRecord s = .next t ∧ t.log.trend = {}
      ∧ (logPart t 2).items.getLast? = some ((logPart s 2).head + 1, trendBytes s.log.trend sec)
      ∧ (∀ q, q ≠ 2 → logPart t q = logPart s q) ∧ t = { s with log.trend := {}, log.parts := t.log.parts })
  ∧ (∀ (p : Fin 5) (n mean top : Nat) (s : State), domUp s 7 = true → s.log.latches.cells = [] →
    ∃ t, exec (.logCommit p n mean top) s = .next t
      ∧ (∀ x, ((uncommitted s p.val).take n).getLast? = some x → (logPart t p.val).commit = x.1)
      ∧ ((uncommitted s p.val).take n = [] → logPart t p.val = logPart s p.val)
      ∧ t.log.remain = BitVec.ofNat 16 (1000 - mean / 30) ∧ t.log.maxErase = satNat 16 top
      ∧ (∀ q, q ≠ p.val → logPart t q = logPart s q)
      ∧ t = { s with log := t.log, evq := t.evq, free := t.free })
  ∧ (∀ (p : Fin 5) (s : State), domUp s 7 = true →
    (∃ t, exec (.logBlockFailure p true) s = .next t ∧ t.log = { s.log with fault := true }
      ∧ t = { s with log := t.log, evq := t.evq, free := t.free })
    ∧ (0 < s.log.reserve → exec (.logBlockFailure p false) s = .next { s with
        log.reserve := s.log.reserve - 1, log.reserveLow := decide (s.log.reserve = 1) })
    ∧ (s.log.reserve = 0 → ∃ t, exec (.logBlockFailure p false) s = .next t ∧ t.log.fault = true
        ∧ t.log.reserveLow = true ∧ (logPart t p.val).shrunk = (logPart s p.val).shrunk + 1
        ∧ (∀ q, q ≠ p.val → logPart t q = logPart s q) ∧ t = { s with log := t.log, evq := t.evq, free := t.free }))
  ∧ (∀ s : State, domUp s 7 = true → s.log.ready = false → s.log.latches.cells = [] →
    ∃ t, exec (.logReady []) s = .next t ∧ t.log.ready = true
      ∧ (∀ p, p < 5 → logPart t p = { logPart s p with commit := (logPart s p).head })
      ∧ t = { s with log := t.log, evq := t.evq, free := t.free })
  ∧ (∀ (x : Bool × Nat) (r : List (Bool × Nat)) (s : State), s.loader.archive = x :: r → logTakes s = true →
    let b := imageBytes s x
    let y := logPart s 4
    ∃ t, exec .planArchive s = .next t ∧ t.loader.archive = r
      ∧ (y.items.any (fun i => imgTag i.2 = imgTag b) = true → t.log = s.log)
      ∧ (∀ l, y.items.any (fun i => imgTag i.2 = imgTag b) = false →
          archiveFit (archiveKept s) (partRoom s 4) b.length y.items.length y.items = some l →
          (logPart t 4).items.getLast? = some (y.head + 1, b) ∧ (logPart t 4).head = y.head + 1
            ∧ (logPart t 4).commit = y.head + 1)
      ∧ (∀ q, q ≠ 4 → logPart t q = logPart s q)
      ∧ t = { s with loader.archive := r, log.parts := t.log.parts, evq := t.evq, free := t.free })

/-! The annunciator panel (ch. 16). -/

/-- R405 to R419: UPDATE leaves an area pending, CANCEL and CLEAR_PANEL drop what is pending; the update that waits longest and
may start takes its pixels from the frame; the copy and the drive end; the banner, the redraw, the glass and the crack loop. -/
def Obligations.PanelUpdates : Prop :=
  (∀ (req : Requester) (arg : BitVec 24) (s : State), PageReady s 0x41 → argOutside arg 0x11F = false →
    let k := fld arg 0 5
    planned s 0x0B k = true →
    (mayUpdate s k req = false → Answers (.panelUpdate req arg) s 0x41 (hdrDone .denied 0) s)
    ∧ (mayUpdate s k req = true → panelBarred s = false → ∃ t, exec (.panelUpdate req arg) s = .next t
        ∧ (area t k).pend = some (bitAt arg 8) ∧ (area t k).since = s.panel.ticket ∧ (area t k).run = (area s k).run
        ∧ t.panel.ticket = s.panel.ticket + 1 ∧ (hdr t 0x41).busy = false ∧ (hdr t 0x41).status = 0
        ∧ ((area s k).pend.isSome = true → (hdr t 0x41).result = 2 ∧ (area t k).lost = satInc (area s k).lost)
        ∧ ((area s k).pend = none → (hdr t 0x41).result.toNat ≤ 1 ∧ (area t k).lost = (area s k).lost)
        ∧ (∀ j, j ≠ k → area t j = area s j)
        ∧ t = { s with hdrs := t.hdrs, panel.areas := t.panel.areas, panel.ticket := t.panel.ticket }))
  ∧ (∀ (req : Requester) (arg : BitVec 24) (s : State), PageReady s 0x41 → arg.toNat < 32 →
    planned s 0x0B arg.toNat = true →
    Answers (.panelCancel req arg) s 0x41 (hdrDone .ok (b2n (area s arg.toNat).pend.isSome))
      (updArea arg.toNat (fun a => { a with pend := none }) s))
  ∧ (∀ (req : Requester) (s : State), PageReady s 0x41 → panelBarred s = false →
    ∃ t, exec (.clearPanel req 0) s = .next t ∧ (hdr t 0x41).busy = false ∧ (hdr t 0x41).status = 0
      ∧ (∀ k, k < 32 → (area t k).pend = none ∧ (area t k).run = (area s k).run)
      ∧ t.panel.clears = (if s.panel.clears = 0 then 2 else s.panel.clears)
      ∧ t = { s with hdrs := t.hdrs, panel.areas := t.panel.areas, panel.clears := t.panel.clears })
  ∧ (∀ (k : Fin 34) (s : State), panelUp s = true → canStart s k.val = true → firstToStart s k.val = true →
    let r := areaRect s k.val
    ∃ t, exec (.panelUpdateStart k) s = .next t ∧ (area t k.val).pend = none
      ∧ (∃ u, (area t k.val).run = some u ∧ u.x = r.x ∧ u.y = r.y ∧ u.w = r.w ∧ u.h = r.h ∧ u.start = none
          ∧ u.pix = readRect s.panel.frame r ∧ some u.fast = (area s k.val).pend)
      ∧ k.val ∈ t.panel.intent ∧ (∀ j, j ≠ k.val → area t j = area s j)
      ∧ t = { s with panel.areas := t.panel.areas, panel.intent := t.panel.intent })
  ∧ (∀ (k : Fin 34) (r : PanelRun) (s : State), panelUp s = true → (area s k.val).run = some r → k.val < 33 →
    (r.start = none → ∃ t, exec (.panelCopyDone k) s = .next t
        ∧ (area t k.val).run = some { r with start := some s.course.cn }
        ∧ t.panel.target = writeRect r.x r.y r.w r.h s.panel.target r.pix ∧ (∀ j, j ≠ k.val → area t j = area s j)
        ∧ t = { s with panel.areas := t.panel.areas, panel.target := t.panel.target })
    ∧ (r.start ≠ none → ∃ t, exec (.panelUpdateDone k) s = .next t ∧ (area t k.val).run = none
        ∧ (area t k.val).doneCn = s.course.cn ∧ bitAt (hdr t 0x41).sticky 8 = true
        ∧ t.panel.glassImg = writeRect r.x r.y r.w r.h s.panel.glassImg (if r.fast then r.pix.map fastByte else r.pix)
        ∧ k.val ∉ t.panel.intent ∧ (k.val = 32 → t.panel.banner = true) ∧ (∀ j, j ≠ k.val → area t j = area s j)
        ∧ t = { s with hdrs := t.hdrs, panel := t.panel, evq := t.evq, free := t.free }))
  ∧ (∀ s : State, panelUp s = true → s.panel.bannerOwed = true → panelRuns s = [] →
    let drawn := s.panel.crack = false ∧ s.panel.cold = false ∧ 450 ≤ s.sup.avail.toNat
    (¬ drawn → exec .panelBannerDraw s = .next { s with panel.bannerOwed := false })
    ∧ (drawn → ∃ t, exec .panelBannerDraw s = .next t ∧ t.panel.bannerOwed = false
      ∧ (∃ u, (area t 32).run = some u ∧ u.fast = true ∧ u.y = (bannerStrip s).y ∧ u.h = 96 ∧ 32 ∈ t.panel.intent)
      ∧ (∀ j, j ≠ 32 → area t j = area s j) ∧ t = { s with panel := t.panel }))
  ∧ (∀ s : State, panelUp s = true → s.panel.redraws ≠ 0 → panelRuns s = [] →
    driveGate s (panelEnergy (waveMs s.panel.band false) 786432) = true →
    ∃ t, exec .panelRedraw s = .next t ∧ (∃ u, (area t 33).run = some u ∧ u.w = 1024 ∧ u.h = 768 ∧ u.fast = false)
      ∧ (∀ j, j ≠ 33 → area t j = area s j)
      ∧ t = { s with panel.areas := t.panel.areas, panel.intent := t.panel.intent })
  ∧ (∀ (temp : Half) (s : State), panelUp s = true → ∃ t, exec (.glassTempRead temp) s = .next t
      ∧ t.panel.glass = temp ∧ t.panel.cold = decide (temp.toInt < -2000)
      ∧ t.panel = { s.panel with glass := temp, cold := t.panel.cold, band := t.panel.band }
      ∧ t = { s with panel := t.panel, evq := t.evq, free := t.free })
  ∧ (∀ (meas : Half) (s : State), panelUp s = true → ∃ t, exec (.crackLoopMeasure meas) s = .next t
      ∧ t.panel.loopMeas = meas ∧ (loopBad s meas = true → t.panel.crack = true)
      ∧ (loopBad s meas = true → s.panel.crack = false → ∀ k, k < 32 → (area t k).run = none ∧ (area t k).pend = none)
      ∧ (loopBad s meas = false → s.panel.firstLoop = true → t.panel.crack = false)
      ∧ (loopBad s meas = false → s.panel.firstLoop = false → t.panel.crack = s.panel.crack)
      ∧ t.panel.frame = s.panel.frame ∧ t.panel.glassImg = s.panel.glassImg
      ∧ t = { s with hdrs := t.hdrs, panel := t.panel, evq := t.evq, free := t.free })

/-! Power, start-up and the memory map (ch. 01, 17, 18). -/

/-- R428 to R430, R13, R25: start-up stops at the clock check and at the reference check, and goes on when the repeated check
passes; a clock fault takes claim and gates away, switches the domains off and holds the node until the clock is good again.
DRAM errors are counted, and one that cannot be corrected is a bus error. -/
def Obligations.PowerUpAndClock : Prop :=
  (∀ (role : Role) (tcxo refs trim : Bool) (rtc : Option Nat) (s : State), s.sys.step = 0 → s.sys.halt = 0 →
    ∃ t, exec (.powerOn role tcxo refs trim rtc) s = .next t
      ∧ t.red.role = role ∧ t.red.own = 0 ∧ t.red.gates = false ∧ t.clk.tcxoOk = tcxo ∧ t.sup.rtcValid = rtc.isSome
      ∧ t.sup.rtcSec = rtc.getD 0 ∧ t.sys.cause = 0 ∧ t.sys.resets = 0 ∧ domUp t 0 = true
      ∧ (tcxo = false → t.sys.halt = 3 ∧ t.sys.domOn = 0x01 ∧ bitAt (hdr t 1).sticky 8 = true)
      ∧ (tcxo = true → refs = false → t.sys.step = 1 ∧ t.sys.halt = 1 ∧ t.sys.domOn = 0x01)
      ∧ (tcxo = true → refs = true → (∀ d ∈ [1, 2, 3, 7], domUp t d = true) ∧ (∀ d ∈ [4, 5, 6], domUp t d = false)
          ∧ t.sys.step = 3 ∧ t.sys.halt = if t.loader.starting.isSome then 0 else 2)
      ∧ t.plan.nor = s.plan.nor ∧ t.plan.boot = s.plan.boot)
  ∧ (∀ (refs trim : Bool) (s : State),
    (s.sys.halt ≠ 1 → exec (.refCheckRetry refs trim) s = .next s)
    ∧ (s.sys.halt = 1 → refs = false →
        exec (.refCheckRetry refs trim) s = .next { s with sys.step := 1, sys.halt := 1 })
    ∧ (s.sys.halt = 1 → refs = true → ∃ t, exec (.refCheckRetry refs trim) s = .next t
        ∧ (∀ d ∈ [1, 2, 3, 7], domUp t d = true) ∧ (t.sys.halt = 0 ∨ t.sys.halt = 2)))
  ∧ (∀ s : State,
    (s.clk.tcxoOk = false → exec .clockFault s = .next s)
    ∧ (s.clk.tcxoOk = true → ∃ t, exec .clockFault s = .next t
        ∧ t.red.own = 0 ∧ t.red.gates = false ∧ t.red.state = .idle ∧ t.clk.tcxoOk = false
        ∧ t.clk.applied = s.clk.applied ∧ t.sys.step = 0 ∧ t.sys.halt = 3
        ∧ (∀ d ∈ [1, 2, 3, 4, 5, 6, 7], domUp t d = false) ∧ domUp t 0 = domUp s 0
        ∧ (hdr t 1).sticky = setBit (hdr s 1).sticky 8 true ∧ t.plan.nor = s.plan.nor))
  ∧ (∀ (refs trim : Bool) (s : State),
    (s.sys.halt ≠ 3 → exec (.clockHoldEnd refs trim) s = .next s)
    ∧ (s.sys.halt = 3 → ∃ t, exec (.clockHoldEnd refs trim) s = .next t
        ∧ t.clk.tcxoOk = true ∧ t.sys.cause = 4 ∧ t.red.own = 0 ∧ t.red.gates = false
        ∧ (refs = false → t.sys.step = 1 ∧ t.sys.halt = 1)
        ∧ (refs = true → (∀ d ∈ [1, 2, 3, 7], domUp t d = true) ∧ (t.sys.halt = 0 ∨ t.sys.halt = 2))))
  ∧ (∀ s : State, exec .discHoldover s
      = .next { s with clk.holdover := s.clk.holdover || (s.clk.en && decide (8000 ≤ s.clk.trimAge)) })
  ∧ (∀ s : State,
    (domUp s 2 = false → exec .dramSingleBitError s = .next s ∧ exec .dramDoubleBitError s = .next s)
    ∧ (domUp s 2 = true → exec .dramSingleBitError s = .next { s with sys.sbe := satInc s.sys.sbe }
      ∧ ∃ t, exec .dramDoubleBitError s = .next t ∧ t.sys.dbe = satInc s.sys.dbe
        ∧ t.sys.dramCn = some s.course.cn ∧ t.resp.busError = true
        ∧ t.safe.dramFaults = (if domUp s 1 then satInc s.safe.dramFaults else s.safe.dramFaults)
        ∧ t = { s with sys.dbe := t.sys.dbe, sys.dramCn := t.sys.dramCn, safe.dramFaults := t.safe.dramFaults, resp := t.resp }))

/-- R420 to R427, R431 to R433, R429, R437: low supplies set their bits, stickies and events once; the supply-loss sequence takes
claim and gates away and switches domains 1 to 6 off, PD7 follows when the panel is done, and the node resets when VS has
returned, or loses all power.  A domain is switched with the page BUSY while it is not guarded; RESET is taken for the next
boundary; CORE_RESET clears the named cores alone. -/
def Obligations.SupplyAndDomains : Prop :=
  (∀ (vs : Half) (s : State), ∃ t, exec (.vsUvSet vs) s = .next t
      ∧ t.sup = { s.sup with vs := vs, dip := !s.sup.supplyLoss, vsUv := true }
      ∧ (s.sup.vsUv = true → hdr t 1 = hdr s 1 ∧ t.evq = s.evq)
      ∧ (s.sup.vsUv = false → hdr t 1 = hdrSticky 10 (hdr s 1) ∧ Raised s t 2 1 1 65536)
      ∧ (∀ p, p ≠ 1 → hdr t p = hdr s p)
      ∧ t = { s with sup := t.sup, hdrs := t.hdrs, evq := t.evq, free := t.free })
  ∧ (∀ (vs : Half) (s : State),
    ((s.sup.vsUv = false ∨ s.sup.supplyLoss = true) → exec (.supplyLoss vs) s = .next s)
    ∧ (s.sup.vsUv = true → s.sup.supplyLoss = false →
      ∃ t, exec (.supplyLoss vs) s = .next t
        ∧ t.sup = { s.sup with vs := vs, dip := false, supplyLoss := true, losses := satInc s.sup.losses }
        ∧ t.red.own = 0 ∧ t.red.gates = false ∧ t.sys.shedding = true ∧ t.sys.switching = none
        ∧ (∀ d ∈ [1, 2, 3, 4, 5, 6], domUp t d = false) ∧ domUp t 7 = domUp s 7 ∧ domUp t 0 = domUp s 0
        ∧ (hdr t 1).sticky = setBit (hdr s 1).sticky 9 true ∧ t.plan.nor = s.plan.nor))
  ∧ (∀ s : State,
    let may := s.sys.shedding && domUp s 7 && panelQuiet s && !s.panel.bannerOwed
    (may = false → exec .shedPd7Off s = .next s)
    ∧ (may = true → ∃ t, exec .shedPd7Off s = .next t ∧ domUp t 7 = false ∧ t.sys.shedding = false
        ∧ (∀ d, d < 7 → domUp t d = domUp s d) ∧ t.sup = s.sup ∧ t.red = s.red ∧ t.course = s.course))
  ∧ (∀ (vs : Half) (held : Bool) (s : State), ∃ t, exec (.vsUvClear vs held) s = .next t
      ∧ t.sup.vs = vs ∧ t.sup.dip = false
      ∧ t.sup.dips = (if s.sup.dip && !s.sup.supplyLoss then satInc s.sup.dips else s.sup.dips)
      ∧ (held = false → t.sup.vsUv = s.sup.vsUv ∧ t.sup.supplyLoss = s.sup.supplyLoss ∧ t.sup.returned = s.sup.returned)
      ∧ (held = true → s.sup.vsUv = true → t.sup.vsUv = false ∧ t.sup.supplyLoss = false
          ∧ t.sup.returned = (s.sup.returned || s.sup.supplyLoss) ∧ Raised s t 2 1 1 0)
      ∧ t = { s with sup := t.sup, evq := t.evq, free := t.free })
  ∧ (∀ (refs trim : Bool) (s : State),
    let may := s.sup.returned && panelQuiet s && !s.panel.bannerOwed
    (may = false → exec (.supplyReturn refs trim) s = .next s)
    ∧ (may = true → ∃ t, exec (.supplyReturn refs trim) s = .next t ∧ t.sys.cause = 1
        ∧ t.sys.resets = satInc s.sys.resets ∧ t.sup.returned = false ∧ t.red.own = 0 ∧ t.red.gates = false
        ∧ t.sys.shedding = false ∧ t.sys.resetAsked = none
        ∧ (s.clk.tcxoOk = false → t.sys.halt = 3 ∧ ∀ d ∈ [1, 2, 3, 4, 5, 6, 7], domUp t d = false)
        ∧ (s.clk.tcxoOk = true → refs = false →
            t.sys.step = 1 ∧ t.sys.halt = 1 ∧ ∀ d ∈ [1, 2, 3, 4, 5, 6, 7], domUp t d = false)
        ∧ (s.clk.tcxoOk = true → refs = true → ∀ d ∈ [1, 2, 3, 7], domUp t d = true)))
  ∧ (∀ (n : Fin 2) (mv : Half) (s : State),
    let was := if n = 0 then s.sup.vf1Fault else s.sup.vf2Fault
    (∃ t, exec (.vfFaultSet n mv) s = .next t
      ∧ (n = 0 → t.sup = { s.sup with vf1 := mv, vf1Fault := true })
      ∧ (n = 1 → t.sup = { s.sup with vf2 := mv, vf2Fault := true })
      ∧ (was = true → hdr t 1 = hdr s 1 ∧ t.evq = s.evq)
      ∧ (was = false → hdr t 1 = hdrSticky (11 + n.val) (hdr s 1) ∧ Raised s t 2 (3 + n.val) 1 65536)
      ∧ (∀ p, p ≠ 1 → hdr t p = hdr s p)
      ∧ t = { s with sup := t.sup, hdrs := t.hdrs, evq := t.evq, free := t.free })
    ∧ (∃ t, exec (.vfFaultClear n mv) s = .next t
      ∧ (n = 0 → t.sup = { s.sup with vf1 := mv, vf1Fault := false })
      ∧ (n = 1 → t.sup = { s.sup with vf2 := mv, vf2Fault := false })
      ∧ (was = true → Raised s t 2 (3 + n.val) 1 0) ∧ (was = false → t.evq = s.evq)
      ∧ t = { s with sup := t.sup, evq := t.evq, free := t.free }))
  ∧ (∀ s : State,
    (s.sup.vfNone = true → exec .vfNoneSet s = .next s) ∧ (s.sup.vfNone = false → exec .vfNoneClear s = .next s)
    ∧ (s.sup.vfNone = false → ∃ t, exec .vfNoneSet s = .next t ∧ t.sup = { s.sup with vfNone := true }
      ∧ hdr t 1 = hdrSticky 13 (hdr s 1) ∧ Raised s t 2 5 1 65536
      ∧ t = { s with sup := t.sup, hdrs := t.hdrs, evq := t.evq, free := t.free })
    ∧ (s.sup.vfNone = true → ∃ t, exec .vfNoneClear s = .next t
      ∧ t.sup = { s.sup with vfNone := false, vfBack := some s.course.cn } ∧ Raised s t 2 5 1 0
      ∧ t = { s with sup := t.sup, evq := t.evq, free := t.free }))
  ∧ (∀ (volt : Half) (charging : Bool) (cap : Option Half) (s : State),
    let c := cap.getD s.sup.cap
    let low := decide (holdupEnergy volt c < 2000)
    ∃ t, exec (.holdupMeasure volt charging cap) s = .next t
      ∧ t.sup = { s.sup with volt := volt, cap := c, charging := charging, avail := satNat 16 (holdupEnergy volt c), holdupLow := low }
      ∧ (low = s.sup.holdupLow → t.evq = s.evq)
      ∧ (low ≠ s.sup.holdupLow → Raised s t 2 6 1 (b2n low * 65536))
      ∧ t = { s with sup := t.sup, evq := t.evq, free := t.free })
  ∧ (∀ s : State,
    let may := s.sup.vsUv && s.sup.supplyLoss && !domUp s 7
    (may = false → exec .holdupExhausted s = .next s)
    ∧ (may = true → ∃ t, exec .holdupExhausted s = .next t ∧ t.sys.domOn = 0 ∧ t.red.own = 0 ∧ t.red.gates = false
        ∧ t.sys.serial = s.sys.serial ∧ t.plan.nor = s.plan.nor ∧ t.plan.boot = s.plan.boot ∧ t.plan.alt = s.plan.alt
        ∧ t.plan.key = s.plan.key ∧ t.log.parts = s.log.parts ∧ t.sup.cap = s.sup.cap ∧ t.safe.key = s.safe.key
        ∧ t.panel.frame = s.panel.frame))
  ∧ (∀ (req : Requester) (arg : BitVec 24) (s : State), PageReady s 0 →
    let d := fld arg 0 3
    (argOutside arg 7 = true ∨ d = 0 ∨ d = 2 →
      Answers (.domainOff req arg) s 0 (hdrDone .badArg 0) s ∧ Answers (.domainOn req arg) s 0 (hdrDone .badArg 0) s)
    ∧ (argOutside arg 7 = false → d ≠ 0 → d ≠ 2 →
      (domUp s d = false → Answers (.domainOff req arg) s 0 (hdrDone .ok 0) s)
      ∧ (domUp s d = true → Answers (.domainOn req arg) s 0 (hdrDone .ok 0) s)
      ∧ (domUp s d = true → notInService s = false → d = 4 ∨ d = 5 → domainGuarded s d = false →
        Answers (.domainOff req arg) s 0 (hdrHeld req 1 arg)
          { s with sys.switching := some (BitVec.ofNat 8 (2 ^ d), false), sys.domBusy := BitVec.ofNat 8 (2 ^ d) })
      ∧ (domUp s d = true → notInService s = false → d = 1 ∨ d = 3 ∨ d = 6 →
        s.red.own = 0 → s.red.state = .standby ∨ s.red.state = .idle → (∀ k ∈ offList s d, domainGuarded s k = false) →
        let m := BitVec.ofNat 8 (maskOfDoms (offList s d))
        Answers (.domainOff req arg) s 0 (hdrHeld req 1 arg) { s with sys.switching := some (m, false), sys.domBusy := m })
      ∧ (domUp s 7 = true → notInService s = false → d = 7 →
        ∃ t, exec (.domainOff req arg) s = .next t ∧ hdr t 0 = hdrHeld req 1 arg (hdr s 0)
          ∧ t.sys.switching = some (0x80, false) ∧ t.sys.domBusy = 0x80 ∧ (∀ k, k < 32 → (area t k).pend = none)
          ∧ t = { s with sys.switching := t.sys.switching, sys.domBusy := 0x80, panel.areas := t.panel.areas, hdrs := t.hdrs })
      ∧ (domUp s d = true → notInService s = true ∨ (d ≠ 7 ∧ domainGuarded s d = true) →
        ∃ t, exec (.domainOff req arg) s = .next t ∧ hdr t 0 = hdrSticky 1 (hdrDone .state 0 (hdr s 0))
          ∧ t = { s with hdrs := t.hdrs, evq := t.evq, free := t.free })
      ∧ (domUp s d = false → notInService s = false → (d = 4 ∨ d = 5 ∨ d = 6 → domUp s 1 = true ∧ domUp s 3 = true) →
        Answers (.domainOn req arg) s 0 (hdrHeld req 2 arg)
          { s with sys.switching := some (BitVec.ofNat 8 (2 ^ d), true), sys.domBusy := BitVec.ofNat 8 (2 ^ d) })))
  ∧ (∀ (trim : Bool) (s : State),
    (s.sys.switching = none → exec (.domainSwitchDone trim) s = .next s)
    ∧ (∀ (d : Nat) (on : Bool), d ∈ [1, 3, 4, 5, 6, 7] → s.sys.switching = some (BitVec.ofNat 8 (2 ^ d), on) →
      (on = false → d = 7 → panelQuiet s = true) → (on = false → d = 6 → anyClamp s = false) →
      ∃ t, exec (.domainSwitchDone trim) s = .next t ∧ domUp t d = on
        ∧ (∀ k, k ≠ d → k < 8 → domUp t k = domUp s k) ∧ t.sys.switching = none ∧ t.sys.domBusy = 0
        ∧ (∀ r, (hdr s 0).run = some r → r.op = (if on then 2 else 1) → hdr t 0 = hdrEnd .ok (2 ^ d) (hdr s 0))))
  ∧ (∀ (req : Requester) (arg : BitVec 24) (s : State), PageReady s 0 → argOutside arg 1 = false →
    (bitAt arg 0 = true ∨ inService s = false) →
    Answers (.reset req arg) s 0 (hdrDone .ok 0) { s with sys.resetAsked := some 3 })
  ∧ (∀ (refs trim : Bool) (c : BitVec 8) (s : State), s.sys.resetAsked = some c →
    (resetBoundary refs trim s).sys.cause = c ∧ (resetBoundary refs trim s).sys.resetAsked = none
      ∧ (resetBoundary refs trim s).red.own = 0 ∧ (resetBoundary refs trim s).red.gates = false)
  ∧ (∀ (req : Requester) (arg : BitVec 24) (s : State), PageReady s 0 → argOutside arg 0xF = false → arg ≠ 0 →
    ∃ t, exec (.coreReset req arg) s = .next t ∧ hdr t 0 = hdrDone .ok arg.toNat (hdr s 0)
      ∧ (∀ p, p ≠ 0 → hdr t p = hdr s p)
      ∧ (∀ c, c < 4 → bitAt arg c = true → t.mem.tcm.get {} c = {} ∧ (t.icu.targets.get {} c).stack = []
          ∧ (t.icu.targets.get {} c).sleep = false)
      ∧ (∀ c, (4 ≤ c ∨ bitAt arg c = false) → t.mem.tcm.get {} c = s.mem.tcm.get {} c
          ∧ t.icu.targets.get {} c = s.icu.targets.get {} c)
      ∧ Raised s t 2 3 0 (arg.toNat * 65536)
      ∧ t = { s with mem.tcm := t.mem.tcm, icu.targets := t.icu.targets, hdrs := t.hdrs, evq := t.evq, free := t.free })

/-- R16, R17, R22, R26, R440, R441, R443, R446: a store to SRAM or DRAM, or to a core's own TCM, is read back and touches no other
byte; a write to the pages or windows that is narrow or not aligned, to an absent page, or to an offset with no writable
field, changes nothing; on a domain that is off it only sets OFFDOM at the domain's first access.  A written register of
the common header, of a page, or of one requester's copy takes the value and counts one applied write. -/
def Obligations.RegistersAndMemory : Prop :=
  (∀ (req : Requester) (addr : Word) (size : Fin 3) (v : Word) (s : State), domUp s 2 = true →
    let n := 2 ^ size.val
    (inRam addr.toNat n = true → s.mem.main.wf 0 = true →
      ∃ t, exec (.registerWrite req addr size v) s = .next t ∧ leNat (ramRead t addr.toNat n) = v.toNat % 256 ^ n
        ∧ (∀ a, a < addr.toNat ∨ addr.toNat + n ≤ a → t.mem.main.read 0 a = s.mem.main.read 0 a)
        ∧ t = { s with mem.main := t.mem.main })
    ∧ (∀ c, coreOf req = some c → 0x10000000 ≤ addr.toNat → addr.toNat + n ≤ 0x10010000 →
      (s.mem.tcm.get {} c).wf 0 = true →
      ∃ t, exec (.registerWrite req addr size v) s = .next t
        ∧ leNat (Mem.readN 0 (t.mem.tcm.get {} c) (addr.toNat - 0x10000000) n) = v.toNat % 256 ^ n
        ∧ (∀ k, k ≠ c → t.mem.tcm.get {} k = s.mem.tcm.get {} k) ∧ t = { s with mem.tcm := t.mem.tcm })
    ∧ (coreOf req = none → 0x10000000 ≤ addr.toNat → addr.toNat + n ≤ 0x10010000 →
      exec (.registerWrite req addr size v) s = .next s))
  ∧ (∀ (req : Requester) (addr : Word) (size : Fin 3) (v : Word) (s : State),
    0x40000000 ≤ addr.toNat → addr.toNat < 0x54000000 → size.val ≠ 2 ∨ addr.toNat % 4 ≠ 0 →
    let dom := if addr.toNat < 0x50000000 then pageDom s ((addr.toNat - 0x40000000) / 0x1000) else windowDom s addr.toNat
    (dom = none → exec (.registerWrite req addr size v) s = .next s)
    ∧ (∀ d, dom = some d → domTakes s d = true → addr.toNat < 0x50000000 ∨ 0x51000000 ≤ addr.toNat →
        exec (.registerWrite req addr size v) s = .next s)
    ∧ (∀ d, dom = some d → domTakes s d = true → 0x50000000 ≤ addr.toNat → addr.toNat < 0x51000000 →
        Answers (.registerWrite req addr size v) s 0x12 (hdrSticky 8) s)
    ∧ (∀ d, dom = some d → domTakes s d = false →
        Answers (.registerWrite req addr size v) s 0 (if bitAt s.sys.offSeen d then id else hdrSticky 8)
          { s with sys.offSeen := setBit s.sys.offSeen d true }))
  ∧ (∀ (req : Requester) (p off : Nat) (v : Word) (s : State), p < 0x10000 → off < 0x1000 → off % 4 = 0 →
    let c := Instr.registerWrite req (BitVec.ofNat 32 (0x40000000 + p * 0x1000 + off)) 2 v
    (pageDom s p = none → exec c s = .next s)
    ∧ (∀ d, pageDom s p = some d → domTakes s d = false →
      ∃ t, exec c s = .next t ∧ t.sys.offSeen = setBit s.sys.offSeen d true
        ∧ hdr t 0 = (if bitAt s.sys.offSeen d then hdr s 0 else hdrSticky 8 (hdr s 0))
        ∧ (∀ q, q ≠ 0 → hdr t q = hdr s q) ∧ t = { s with sys.offSeen := t.sys.offSeen, hdrs := t.hdrs })
    ∧ (PageTakes s p → off = 0x10 →
      Answers c s p (fun h => { h with sticky := h.sticky &&& ~~~v, sync := h.sync + 1 }) s)
    ∧ (PageTakes s p → off = 0x14 →
      Answers c s p (fun h => { hdrEdge h { h with irqen := v } with sync := h.sync + 1 }) s)
    ∧ (PageTakes s p → off ∈ [0x00, 0x04, 0x0C, 0x1C, 0x20] → exec c s = .next s)
    ∧ (p = 0x10 → 0x40 ≤ off → PageTakes s p → exec c s = .next s))
  ∧ (∀ (req : Requester) (v : Word) (s : State), PageTakes s 0x13 →
    ∃ t, exec (.registerWrite req 0x4001304C 2 v) s = .next t
      ∧ t.alarm.selPoint.get 0 req.reader = fld v 0 11 ∧ t.alarm.selGroup.get 0 req.reader = fld v 16 8
      ∧ (∀ k, k ≠ req.reader → t.alarm.selPoint.get 0 k = s.alarm.selPoint.get 0 k
          ∧ t.alarm.selGroup.get 0 k = s.alarm.selGroup.get 0 k)
      ∧ hdr t 0x13 = hdrCount (hdr s 0x13) ∧ (∀ q, q ≠ 0x13 → hdr t q = hdr s q)
      ∧ t = { s with alarm.selPoint := t.alarm.selPoint, alarm.selGroup := t.alarm.selGroup, hdrs := t.hdrs })
  ∧ (∀ (req : Requester) (v : Word) (s : State), PageTakes s 0x11 →
    Answers (.registerWrite req 0x40011058 2 v) s 0x11 hdrCount { s with plan.src := v }
    ∧ Answers (.registerWrite req 0x4001105C 2 v) s 0x11 hdrCount { s with plan.len := v &&& 0x01FFFFFF })
end

