-- ==== Sys2Proof/Laws/Bank.lean ====
section
/-! SUPPORT. Laws of the sparse banks and byte memories: read after write, and the canonical form that every operation
keeps. -/

namespace Sys2Proof

theorem Tab.find_place_same {α : Type} (l : List (Nat × α)) (i : Nat) (v : α) :
    Tab.find (Tab.place l i v) i = some v := by
  induction l with
  | nil => simp [Tab.place, Tab.find]
  | cons c r ih =>
    obtain ⟨k, x⟩ := c
    simp only [Tab.place]
    split
    · simp [Tab.find]
    · split
      · simp [Tab.find]
      · rename_i h1 h2
        have h3 : ¬ k = i := fun h => h2 h.symm
        simp [Tab.find, h3, ih]

theorem Tab.find_place_other {α : Type} (l : List (Nat × α)) {i j : Nat} (v : α) (h : j ≠ i) :
    Tab.find (Tab.place l i v) j = Tab.find l j := by
  induction l with
  | nil => simp [Tab.place, Tab.find, h.symm]
  | cons c r ih =>
    obtain ⟨k, x⟩ := c
    simp only [Tab.place]
    split
    · simp [Tab.find, h.symm]
    · split
      · rename_i h1 h2
        subst h2
        simp [Tab.find, h.symm]
      · simp [Tab.find, ih]

@[simp] theorem Tab.get_set_same {α : Type} (t : Tab α) (d v : α) (i : Nat) : (t.set i v).get d i = v := by
  simp [Tab.get, Tab.set, Tab.find_place_same]

@[simp] theorem Tab.get_set_other {α : Type} (t : Tab α) (d v : α) {i j : Nat} (h : j ≠ i) :
    (t.set i v).get d j = t.get d j := by
  simp [Tab.get, Tab.set, Tab.find_place_other _ _ h]

@[simp] theorem Tab.get_upd_same {α : Type} (t : Tab α) (d : α) (i : Nat) (f : α → α) :
    (t.upd d i f).get d i = f (t.get d i) := by simp [Tab.upd]

@[simp] theorem Tab.get_upd_other {α : Type} (t : Tab α) (d : α) {i j : Nat} (f : α → α) (h : j ≠ i) :
    (t.upd d i f).get d j = t.get d j := by simp [Tab.upd, h]

/-- Reading a bank after an update, in one equation. -/
theorem Tab.get_upd {α : Type} (t : Tab α) (d : α) (i j : Nat) (f : α → α) :
    (t.upd d i f).get d j = if j = i then f (t.get d i) else t.get d j := by
  by_cases h : j = i
  · subst h; simp
  · simp [h]

theorem Tab.get_set {α : Type} (t : Tab α) (d v : α) (i j : Nat) :
    (t.set i v).get d j = if j = i then v else t.get d j := by
  by_cases h : j = i
  · subst h; simp
  · simp [h]

theorem Tab.find_filter_other {α : Type} (l : List (Nat × α)) {i j : Nat} (h : j ≠ i) :
    Tab.find (l.filter (fun c => c.1 ≠ i)) j = Tab.find l j := by
  induction l with
  | nil => rfl
  | cons c r ih =>
    obtain ⟨k, x⟩ := c
    by_cases hk : k = i
    · subst hk; simpa [Tab.find, h.symm] using ih
    · simp [Tab.find, hk] at ih ⊢
      rw [ih]

theorem Tab.find_filter_same {α : Type} (l : List (Nat × α)) (i : Nat) :
    Tab.find (l.filter (fun c => c.1 ≠ i)) i = none := by
  induction l with
  | nil => rfl
  | cons c r ih =>
    obtain ⟨k, x⟩ := c
    by_cases hk : k = i
    · simpa [hk] using ih
    · simp [Tab.find, hk] at ih ⊢
      exact ih

@[simp] theorem Tab.get_erase_same {α : Type} (t : Tab α) (d : α) (i : Nat) : (t.erase i).get d i = d := by
  have := Tab.find_filter_same t.cells i
  simp [Tab.get, Tab.erase] at this ⊢
  rw [this]; rfl

@[simp] theorem Tab.get_erase_other {α : Type} (t : Tab α) (d : α) {i j : Nat} (h : j ≠ i) :
    (t.erase i).get d j = t.get d j := by
  have := Tab.find_filter_other t.cells h
  simp [Tab.get, Tab.erase] at this ⊢
  rw [this]

/-! Byte memories. -/

/-- Every key of a rising list is above a bound that its first key passes. -/
theorem Tab.rising_tail {α : Type} {c : Nat × α} {r : List (Nat × α)} (h : Tab.rising (c :: r) = true) :
    Tab.rising r = true := by
  cases r with
  | nil => rfl
  | cons e r => obtain ⟨k, x⟩ := c; obtain ⟨k', x'⟩ := e; simp [Tab.rising] at h; exact h.2

theorem Tab.rising_above {α : Type} {k : Nat} {x : α} {r : List (Nat × α)} (h : Tab.rising ((k, x) :: r) = true) :
    ∀ c ∈ r, k < c.1 := by
  induction r generalizing k x with
  | nil => simp
  | cons e r ih =>
    obtain ⟨k', x'⟩ := e
    simp [Tab.rising] at h
    intro c hc
    rcases List.mem_cons.1 hc with rfl | hc
    · exact h.1
    · exact Nat.lt_trans h.1 (ih h.2 c hc)

theorem Tab.rising_cons {α : Type} {k : Nat} {x : α} {r : List (Nat × α)} (h : Tab.rising r = true)
    (hk : ∀ c ∈ r, k < c.1) : Tab.rising ((k, x) :: r) = true := by
  cases r with
  | nil => rfl
  | cons e r =>
    obtain ⟨k', x'⟩ := e
    simp [Tab.rising, h]
    exact hk (k', x') (by simp)

theorem Tab.mem_place {α : Type} {l : List (Nat × α)} {i : Nat} {v : α} {c : Nat × α} (h : c ∈ Tab.place l i v) :
    c = (i, v) ∨ c ∈ l := by
  induction l with
  | nil => simpa [Tab.place] using h
  | cons e r ih =>
    obtain ⟨k, x⟩ := e
    simp only [Tab.place] at h
    split at h
    · simpa using h
    · split at h
      · rcases List.mem_cons.1 h with h | h
        · exact .inl h
        · exact .inr (List.mem_cons_of_mem _ h)
      · rcases List.mem_cons.1 h with h | h
        · exact .inr (by simp [h])
        · rcases ih h with h | h
          · exact .inl h
          · exact .inr (List.mem_cons_of_mem _ h)

theorem Tab.rising_place {α : Type} {l : List (Nat × α)} (i : Nat) (v : α) (h : Tab.rising l = true) :
    Tab.rising (Tab.place l i v) = true := by
  induction l with
  | nil => rfl
  | cons e r ih =>
    obtain ⟨k, x⟩ := e
    simp only [Tab.place]
    split
    · rename_i hik
      refine Tab.rising_cons h ?_
      intro c hc
      rcases List.mem_cons.1 hc with rfl | hc
      · exact hik
      · exact Nat.lt_trans hik (Tab.rising_above h c hc)
    · split
      · rename_i h1 h2
        subst h2
        exact Tab.rising_cons (Tab.rising_tail h) (Tab.rising_above h)
      · rename_i h1 h2
        refine Tab.rising_cons (ih (Tab.rising_tail h)) ?_
        intro c hc
        rcases Tab.mem_place hc with rfl | hc
        · show k < i; omega
        · exact Tab.rising_above h c hc

theorem Mem.mem_drop {l : List (Nat × BitVec 8)} {a : Nat} {c : Nat × BitVec 8} (h : c ∈ Mem.drop l a) : c ∈ l := by
  induction l with
  | nil => simp [Mem.drop] at h
  | cons e r ih =>
    obtain ⟨k, x⟩ := e
    simp only [Mem.drop] at h
    split at h
    · exact List.mem_cons_of_mem _ h
    · rcases List.mem_cons.1 h with h | h
      · simp [h]
      · exact List.mem_cons_of_mem _ (ih h)

theorem Mem.rising_drop {l : List (Nat × BitVec 8)} (a : Nat) (h : Tab.rising l = true) :
    Tab.rising (Mem.drop l a) = true := by
  induction l with
  | nil => rfl
  | cons e r ih =>
    obtain ⟨k, x⟩ := e
    simp only [Mem.drop]
    split
    · exact Tab.rising_tail h
    · exact Tab.rising_cons (ih (Tab.rising_tail h)) (fun c hc => Tab.rising_above h c (Mem.mem_drop hc))

/-- A write keeps the canonical form. -/
theorem Mem.write_wf {d : Byte} {m : Mem} (a : Nat) (b : Byte) (h : m.wf d = true) : (m.write d a b).wf d = true := by
  simp only [Mem.wf, Bool.and_eq_true, List.all_eq_true] at h ⊢
  obtain ⟨hr, hd⟩ := h
  unfold Mem.write
  split
  · exact ⟨Mem.rising_drop a hr, fun c hc => hd c (Mem.mem_drop hc)⟩
  · rename_i hb
    refine ⟨Tab.rising_place a b hr, fun c hc => ?_⟩
    rcases Tab.mem_place hc with rfl | hc
    · simpa using hb
    · exact hd c hc

theorem Mem.writeN_wf {d : Byte} (l : List Byte) : ∀ {m : Mem} (a : Nat), m.wf d = true → (m.writeN d a l).wf d = true := by
  induction l with
  | nil => intro m a h; exact h
  | cons b r ih => intro m a h; exact ih (a + 1) (Mem.write_wf a b h)

theorem Mem.find_drop_other {l : List (Nat × BitVec 8)} {a c : Nat} (h : c ≠ a) :
    Tab.find (Mem.drop l a) c = Tab.find l c := by
  induction l with
  | nil => rfl
  | cons e r ih =>
    obtain ⟨k, x⟩ := e
    simp only [Mem.drop]
    split
    · rename_i hk; subst hk; simp [Tab.find, h.symm]
    · simp [Tab.find, ih]

theorem Tab.find_none {α : Type} {l : List (Nat × α)} {i : Nat} (h : ∀ c ∈ l, c.1 ≠ i) : Tab.find l i = none := by
  induction l with
  | nil => rfl
  | cons e r ih =>
    obtain ⟨k, x⟩ := e
    have hk : k ≠ i := h (k, x) (by simp)
    simp [Tab.find, hk, ih (fun c hc => h c (List.mem_cons_of_mem _ hc))]

theorem Mem.find_drop_same {l : List (Nat × BitVec 8)} {a : Nat} (h : Tab.rising l = true) :
    Tab.find (Mem.drop l a) a = none := by
  induction l with
  | nil => rfl
  | cons e r ih =>
    obtain ⟨k, x⟩ := e
    simp only [Mem.drop]
    split
    · rename_i hk
      exact Tab.find_none (fun c hc => by have := Tab.rising_above h c hc; omega)
    · rename_i hk; simp [Tab.find, hk, ih (Tab.rising_tail h)]

/-- A byte written reads back. -/
theorem Mem.read_write_same {d : Byte} {m : Mem} (a : Nat) (b : Byte) (h : m.wf d = true) :
    (m.write d a b).read d a = b := by
  have hr : Tab.rising m.cells = true := by
    simp only [Mem.wf, Bool.and_eq_true] at h; exact h.1
  unfold Mem.write Mem.read
  split
  · rename_i hb; simp [Mem.find_drop_same hr, hb]
  · simp [Tab.find_place_same]

/-- A write leaves every other address alone. -/
theorem Mem.read_write_other {d : Byte} {m : Mem} {a c : Nat} (b : Byte) (h : c ≠ a) :
    (m.write d a b).read d c = m.read d c := by
  unfold Mem.write Mem.read
  split
  · simp [Mem.find_drop_other h]
  · simp [Tab.find_place_other _ _ h]

theorem Mem.read_writeN_other {d : Byte} (l : List Byte) : ∀ {m : Mem} {a c : Nat}, (c < a ∨ a + l.length ≤ c) →
    (m.writeN d a l).read d c = m.read d c := by
  induction l with
  | nil => intro m a c _; rfl
  | cons b r ih =>
    intro m a c h
    have h1 : c ≠ a := by simp at h; omega
    have h2 : c < a + 1 ∨ a + 1 + r.length ≤ c := by simp at h; omega
    simp [Mem.writeN, ih h2, Mem.read_write_other b h1]

/-- Bytes written read back in order. -/
theorem Mem.readN_writeN {d : Byte} (l : List Byte) : ∀ {m : Mem} (a : Nat), m.wf d = true →
    (m.writeN d a l).readN d a l.length = l := by
  induction l with
  | nil => intro m a _; rfl
  | cons b r ih =>
    intro m a h
    have h1 := ih (a + 1) (Mem.write_wf a b h)
    have h2 : ((m.write d a b).writeN d (a + 1) r).read d a = b := by
      rw [Mem.read_writeN_other r (by omega), Mem.read_write_same a b h]
    simp [Mem.writeN, Mem.readN, h1, h2]

end Sys2Proof
end

