-- ==== Sys2Proof/Laws/Frame.lean ====
section
/-! SUPPORT. What the shared operations leave alone.  `kept s` gathers the queue, the ordering code, the serial number, the
claim and gate state, the byte memories and the applied clock correction; `kept_f` says that operation `f` changes none of
them.  An operation without a lemma here changes one of them itself or through what it calls. -/

set_option linter.unusedSimpArgs false
set_option linter.unusedTactic false
set_option linter.unusedVariables false
set_option linter.unreachableTactic false

namespace Sys2Proof.Machine


/-- The state an answer leaves. -/
def Out.after (o : Out) (s : State) : State := match o with | .next t => t | _ => s





theorem after_next (s t : State) : Out.after (.next t) s = t := rfl




/-- The state a command's own work leaves. -/
def CmdEnd.after : CmdEnd → State | .done _ _ s => s | .hold s => s





theorem after_done (a : CStat) (b : Nat) (s : State) : CmdEnd.after (.done a b s) = s := rfl





theorem after_hold (s : State) : CmdEnd.after (.hold s) = s := rfl




/-- The parts of the block that most operations leave alone. -/
structure Kept where
  queue : List Instr × Variant × Word
  claim : Bool × Half × Half × Role × RedState × Bool
  bytes : Mem × Tab Mem × Mem × Mem
  applied : Int





/-- What most operations leave alone. -/
def kept (s : State) : Kept :=
  ⟨(s.pending, s.sys.variant, s.sys.serial), (s.red.gates, s.red.own, s.red.peer, s.red.role, s.red.state,
    s.red.roleConflict),
    (s.mem.main, s.mem.tcm, s.plan.nor, s.panel.frame), s.clk.applied⟩





theorem kept_mk a_hdrs a_sys a_sup a_clk a_course a_plan a_loader a_square a_alarm a_evq a_ucs a_lis a_tiles a_maint
    a_cal a_tileCal a_hart a_dig a_icu a_red a_sync a_safe a_cans a_eths a_prp a_ptp a_host a_log a_panel a_mem a_resp
    a_free a_pending : kept (State.mk a_hdrs a_sys a_sup a_clk a_course a_plan a_loader a_square a_alarm a_evq a_ucs
    a_lis a_tiles a_maint a_cal a_tileCal a_hart a_dig a_icu a_red a_sync a_safe a_cans a_eths a_prp a_ptp a_host
    a_log a_panel a_mem a_resp a_free a_pending) =
  ⟨(a_pending, a_sys.variant, a_sys.serial), (a_red.gates, a_red.own, a_red.peer, a_red.role, a_red.state,
    a_red.roleConflict),
    (a_mem.main, a_mem.tcm, a_plan.nor, a_panel.frame), a_clk.applied⟩ := rfl





theorem kept_fold (s : State) : (
  ⟨(s.pending, s.sys.variant, s.sys.serial), (s.red.gates, s.red.own, s.red.peer, s.red.role, s.red.state,
    s.red.roleConflict),
    (s.mem.main, s.mem.tcm, s.plan.nor, s.panel.frame), s.clk.applied⟩ : Kept) = kept s := rfl





theorem kept_ite (c : Prop) [Decidable c] (a b : State) : kept (if c then a else b) = if c then kept a else kept b :=
    apply_ite _ _ _ _





theorem kept_foldl {α} (g : State → α → State) (h : ∀ s x, kept (g s x) = kept s) (l : List α) (s : State) : kept
    (l.foldl g s) = kept s := by
  induction l generalizing s with
  | nil => rfl
  | cons x l ih => simp only [List.foldl_cons, ih, h]





theorem kept_iterate (g : State → State) (h : ∀ s, kept (g s) = kept s) (n : Nat) (s : State) : kept (iterate g n s) =
    kept s := by
  induction n generalizing s with
  | zero => rfl
  | succ n ih => simp only [iterate, ih, h]

theorem kept_updHdr (p : Nat) (f : PageHdr → PageHdr) (s : State) : kept (updHdr p f s) = kept s := by
  rfl

theorem kept_setSticky (p : Nat) (bit : Nat) (s : State) : kept (setSticky p bit s) = kept s := by
  rfl

theorem kept_countWrite (p : Nat) (s : State) : kept (countWrite p s) = kept s := by
  rfl

theorem kept_offAccess (d : Nat) (s : State) : kept (offAccess d s) = kept s := by
  unfold offAccess
  simp only [kept_mk, kept_fold, kept_ite, ite_self, after_next, after_done, after_hold, apply_ite CmdEnd.after,
      apply_ite Prod.fst, kept_setSticky, kept_foldl, kept_iterate]

theorem kept_raiseEv (cls : Nat) (code : Nat) (source : Nat) (data : BitVec 96) (s : State) : kept (raiseEv cls code
    source data s) = kept s := by
  unfold raiseEv
  simp only [kept_mk, kept_fold, kept_ite, ite_self, after_next, after_done, after_hold, apply_ite CmdEnd.after,
      apply_ite Prod.fst, kept_foldl, kept_iterate]

theorem kept_blockEv (page : Nat) (code : Nat) (data : Nat) (s : State) : kept (blockEv page code data s) = kept s :=
    by
  unfold blockEv
  simp only [kept_mk, kept_fold, kept_ite, ite_self, after_next, after_done, after_hold, apply_ite CmdEnd.after,
      apply_ite Prod.fst, kept_raiseEv, kept_foldl, kept_iterate]

theorem kept_finishCmd (p : Nat) (st : CStat) (result : Nat) (s : State) : kept (finishCmd p st result s) = kept s :=
    by
  unfold finishCmd
  try dsimp only
  repeat' (first
    | rfl
    | simp only [kept_mk, kept_fold, kept_ite, ite_self, after_next, after_done, after_hold, apply_ite CmdEnd.after,
        apply_ite Prod.fst, kept_updHdr, kept_raiseEv, kept_setSticky, kept_foldl, kept_iterate]
    | split)

theorem kept_takeCmd (p : Nat) (req : Requester) (op : Nat) (arg : BitVec 24) (s : State) : kept (takeCmd p req op arg
    s) = kept s := by
  rfl

theorem kept_issueCmd (p : Nat) (req : Requester) (op : Nat) (arg : BitVec 24) (body : State → CmdEnd) (s : State)
    (hbody : ∀ s, kept (body s).after = kept s) : kept (issueCmd p req op arg body s) = kept s := by
  unfold issueCmd; split; · rfl
  · split
    · split
      · rfl
      · have h := hbody (takeCmd p req op arg s)
        split <;> rename_i e <;> rw [e] at h <;> simp only [CmdEnd.after] at h <;> simp only [kept_finishCmd, h, kept_takeCmd]
    · exact kept_offAccess _ _

theorem kept_endIfRunning (p : Nat) (op : Nat) (st : CStat) (result : Nat) (s : State) : kept (endIfRunning p op st
    result s) = kept s := by
  unfold endIfRunning
  try dsimp only
  repeat' (first
    | rfl
    | simp only [kept_mk, kept_fold, kept_ite, ite_self, after_next, after_done, after_hold, apply_ite CmdEnd.after,
        apply_ite Prod.fst, kept_finishCmd, kept_foldl, kept_iterate]
    | split)

theorem kept_pageWrite (p : Nat) (apply : State → State) (s : State) (happly : ∀ s, kept (apply s) = kept s) : kept
    (pageWrite p apply s) = kept s := by
  unfold pageWrite
  try dsimp only
  repeat' (first
    | rfl
    | simp only [kept_mk, kept_fold, kept_ite, ite_self, after_next, after_done, after_hold, apply_ite CmdEnd.after,
        apply_ite Prod.fst, kept_countWrite, kept_offAccess, happly, kept_foldl, kept_iterate]
    | split)

theorem kept_pageWriteIf (p : Nat) (apply : State → State × Bool) (s : State) (happly : ∀ s, kept (apply s).1 = kept
    s) : kept (pageWriteIf p apply s) = kept s := by
  unfold pageWriteIf; split; · rfl
  · split
    · have h := happly s
      split <;> rename_i e <;> rw [e] at h <;> first | (simp only [kept_countWrite]; exact h) | exact h
    · exact kept_offAccess _ _

theorem kept_updUc (n : Nat) (f : UcChan → UcChan) (s : State) : kept (updUc n f s) = kept s := by
  rfl

theorem kept_updLi (n : Nat) (f : LiChan → LiChan) (s : State) : kept (updLi n f s) = kept s := by
  rfl

theorem kept_updDig (k : Nat) (f : DigChan → DigChan) (s : State) : kept (updDig k f s) = kept s := by
  rfl

theorem kept_updDio (n : Nat) (f : DioOut → DioOut) (s : State) : kept (updDio n f s) = kept s := by
  rfl

theorem kept_updTile (t : Nat) (f : Tile → Tile) (s : State) : kept (updTile t f s) = kept s := by
  rfl

theorem kept_inrushBudget (s : State) : kept (inrushBudget s) = kept s := by
  rfl

theorem kept_dioResolve (n : Nat) (s : State) : kept (dioResolve n s) = kept s := by
  rfl

theorem kept_ucResolve (n : Nat) (s : State) : kept (ucResolve n s) = kept s := by
  unfold ucResolve
  try dsimp only
  repeat' (first
    | rfl
    | simp only [kept_mk, kept_fold, kept_ite, ite_self, after_next, after_done, after_hold, apply_ite CmdEnd.after,
        apply_ite Prod.fst, kept_updUc, kept_foldl, kept_iterate]
    | split)

theorem kept_updPart (p : Nat) (f : LogPart → LogPart) (s : State) : kept (updPart p f s) = kept s := by
  rfl

theorem kept_ringPut (p : Nat) (mk : Word → List Byte) (s : State) : kept (ringPut p mk s) = kept s := by
  rfl

theorem kept_journalTake (e : EventRec) (s : State) : kept (journalTake e s) = kept s := by
  unfold journalTake
  simp only [kept_mk, kept_fold, kept_ite, ite_self, after_next, after_done, after_hold, apply_ite CmdEnd.after,
      apply_ite Prod.fst, kept_ringPut, kept_updPart, kept_foldl, kept_iterate]

theorem kept_journalSummary (s : State) : kept (journalSummary s) = kept s := by
  unfold journalSummary
  try dsimp only
  repeat' (first
    | rfl
    | simp only [kept_mk, kept_fold, kept_ite, ite_self, after_next, after_done, after_hold, apply_ite CmdEnd.after,
        apply_ite Prod.fst, kept_ringPut, kept_foldl, kept_iterate]
    | split)

theorem kept_journalServe (s : State) : kept (journalServe s) = kept s := by
  unfold journalServe
  try dsimp only
  repeat' (first
    | rfl
    | simp only [kept_mk, kept_fold, kept_ite, ite_self, after_next, after_done, after_hold, apply_ite CmdEnd.after,
        apply_ite Prod.fst, kept_journalSummary, kept_foldl, kept_iterate]
    | (simp_all [kept_mk, kept_fold, kept_ite, ite_self, after_next, after_done, after_hold, apply_ite CmdEnd.after,
        apply_ite Prod.fst, kept_journalSummary]; done)
    | (apply kept_foldl; intros)
    | (apply kept_iterate; intros)
    | split)

theorem kept_updCap (c : Nat) (f : CapBlk → CapBlk) (s : State) : kept (updCap c f s) = kept s := by
  rfl

theorem kept_capTrigger (c : Nat) (t : Stamp) (s : State) : kept (capTrigger c t s) = kept s := by
  unfold capTrigger
  simp only [kept_mk, kept_fold, kept_ite, ite_self, after_next, after_done, after_hold, apply_ite CmdEnd.after,
      apply_ite Prod.fst, kept_updCap, kept_foldl, kept_iterate]

theorem kept_capSample (c : Nat) (t : Stamp) (w : Word) (s : State) : kept (capSample c t w s) = kept s := by
  unfold capSample
  simp only [kept_mk, kept_fold, kept_ite, ite_self, after_next, after_done, after_hold, apply_ite CmdEnd.after,
      apply_ite Prod.fst, kept_updCap, kept_foldl, kept_iterate]

theorem kept_capAlarm (e : EventRec) (s : State) : kept (capAlarm e s) = kept s := by
  unfold capAlarm
  try dsimp only
  repeat' (first
    | rfl
    | simp only [kept_mk, kept_fold, kept_ite, ite_self, after_next, after_done, after_hold, apply_ite CmdEnd.after,
        apply_ite Prod.fst, kept_capTrigger, kept_foldl, kept_iterate]
    | (simp_all [kept_mk, kept_fold, kept_ite, ite_self, after_next, after_done, after_hold, apply_ite CmdEnd.after,
        apply_ite Prod.fst, kept_capTrigger]; done)
    | (apply kept_foldl; intros)
    | (apply kept_iterate; intros)
    | split)

theorem kept_raiseAlarm (p : Nat) (data : BitVec 96) (s : State) : kept (raiseAlarm p data s) = kept s := by
  unfold raiseAlarm
  simp only [kept_mk, kept_fold, kept_ite, ite_self, after_next, after_done, after_hold, apply_ite CmdEnd.after,
      apply_ite Prod.fst, kept_capAlarm, kept_journalTake, kept_raiseEv, kept_foldl, kept_iterate]

theorem kept_trendEnd (s : State) : kept (trendEnd s) = kept s := by
  unfold trendEnd
  try dsimp only
  repeat' (first
    | rfl
    | simp only [kept_mk, kept_fold, kept_ite, ite_self, after_next, after_done, after_hold, apply_ite CmdEnd.after,
        apply_ite Prod.fst, kept_ringPut, kept_foldl, kept_iterate]
    | split)

theorem kept_trendSpoil (s : State) : kept (trendSpoil s) = kept s := by
  rfl

theorem kept_trendGather (q : Square) (s : State) : kept (trendGather q s) = kept s := by
  unfold trendGather
  simp only [kept_mk, kept_fold, kept_ite, ite_self, after_next, after_done, after_hold, apply_ite CmdEnd.after,
      apply_ite Prod.fst, kept_trendEnd, kept_foldl, kept_iterate]

theorem kept_tripDrive (o : Nat) (s : State) : kept (tripDrive o s) = kept s := by
  unfold tripDrive
  simp only [kept_mk, kept_fold, kept_ite, ite_self, after_next, after_done, after_hold, apply_ite CmdEnd.after,
      apply_ite Prod.fst, kept_inrushBudget, kept_dioResolve, kept_ucResolve, kept_foldl, kept_iterate]

theorem kept_tripUpdate (s : State) : kept (tripUpdate s) = kept s := by
  unfold tripUpdate
  try dsimp only
  repeat' (first
    | rfl
    | simp only [kept_mk, kept_fold, kept_ite, ite_self, after_next, after_done, after_hold, apply_ite CmdEnd.after,
        apply_ite Prod.fst, kept_tripDrive, kept_foldl, kept_iterate]
    | (simp_all [kept_mk, kept_fold, kept_ite, ite_self, after_next, after_done, after_hold, apply_ite CmdEnd.after,
        apply_ite Prod.fst, kept_tripDrive]; done)
    | (apply kept_foldl; intros)
    | (apply kept_iterate; intros)
    | split)

theorem kept_tripChannel (c : Nat) (raw : Word) (tag : Nat) (invalid : Bool) (s : State) : kept (tripChannel c raw tag
    invalid s) = kept s := by
  unfold tripChannel
  try dsimp only
  repeat' (first
    | rfl
    | simp only [kept_mk, kept_fold, kept_ite, ite_self, after_next, after_done, after_hold, apply_ite CmdEnd.after,
        apply_ite Prod.fst, kept_tripUpdate, kept_foldl, kept_iterate]
    | (simp_all [kept_mk, kept_fold, kept_ite, ite_self, after_next, after_done, after_hold, apply_ite CmdEnd.after,
        apply_ite Prod.fst, kept_tripUpdate]; done)
    | (apply kept_foldl; intros)
    | (apply kept_iterate; intros)
    | split)

theorem kept_safeEvent (code : Nat) (target : Nat) (detail : Nat) (s : State) : kept (safeEvent code target detail s)
    = kept s := by
  unfold safeEvent
  simp only [kept_mk, kept_fold, kept_ite, ite_self, after_next, after_done, after_hold, apply_ite CmdEnd.after,
      apply_ite Prod.fst, kept_blockEv, kept_foldl, kept_iterate]

theorem kept_orderYield (cause : Nat) (s : State) : kept (orderYield cause s) = kept s := by
  unfold orderYield
  simp only [kept_mk, kept_fold, kept_ite, ite_self, after_next, after_done, after_hold, apply_ite CmdEnd.after,
      apply_ite Prod.fst, kept_foldl, kept_iterate]

theorem kept_forceSet (s : State) : kept (forceSet s) = kept s := by
  unfold forceSet
  simp only [kept_mk, kept_fold, kept_ite, ite_self, after_next, after_done, after_hold, apply_ite CmdEnd.after,
      apply_ite Prod.fst, kept_safeEvent, kept_tripUpdate, kept_foldl, kept_iterate]

theorem kept_chanEvent (c : Nat) (code : Nat) (detail : Nat) (s : State) : kept (chanEvent c code detail s) = kept s
    := by
  unfold chanEvent
  simp only [kept_mk, kept_fold, kept_ite, ite_self, after_next, after_done, after_hold, apply_ite CmdEnd.after,
      apply_ite Prod.fst, kept_blockEv, kept_foldl, kept_iterate]

theorem kept_iepeBoundary (s : State) : kept (iepeBoundary s) = kept s := by
  unfold iepeBoundary
  try dsimp only
  repeat' (first
    | with_reducible rfl
    | (apply kept_foldl; intros)
    | (apply kept_iterate; intros)
    | (simp only [kept_mk, kept_fold, kept_ite, ite_self, after_next, after_done, after_hold, apply_ite CmdEnd.after,
        apply_ite Prod.fst, kept_updUc]; done)
    | split
    | simp only [kept_mk, kept_fold, kept_ite, ite_self, after_next, after_done, after_hold, apply_ite CmdEnd.after,
        apply_ite Prod.fst, kept_updUc])

theorem kept_latchSample (c : Nat) (x : Sample) (s : State) : kept (latchSample c x s) = kept s := by
  unfold latchSample
  simp only [kept_mk, kept_fold, kept_ite, ite_self, after_next, after_done, after_hold, apply_ite CmdEnd.after,
      apply_ite Prod.fst, kept_foldl, kept_iterate]

theorem kept_sampleIn (n : Nat) (m : Conversion) (s : State) : kept (sampleIn n m s) = kept s := by
  unfold sampleIn
  simp only [kept_mk, kept_fold, kept_ite, ite_self, after_next, after_done, after_hold, apply_ite CmdEnd.after,
      apply_ite Prod.fst, kept_updUc, kept_latchSample, kept_tripChannel, kept_foldl, kept_iterate]

theorem kept_sampleOut (n : Nat) (m : Conversion) (s : State) : kept (sampleOut n m s) = kept s := by
  unfold sampleOut
  try dsimp only
  repeat' (first
    | with_reducible rfl
    | (apply kept_foldl; intros)
    | (apply kept_iterate; intros)
    | (simp only [kept_mk, kept_fold, kept_ite, ite_self, after_next, after_done, after_hold, apply_ite CmdEnd.after,
        apply_ite Prod.fst, kept_updUc, kept_latchSample, kept_tripChannel]; done)
    | split
    | simp only [kept_mk, kept_fold, kept_ite, ite_self, after_next, after_done, after_hold, apply_ite CmdEnd.after,
        apply_ite Prod.fst, kept_updUc, kept_latchSample, kept_tripChannel])

theorem kept_sampleUc (n : Nat) (m : Conversion) (s : State) : kept (sampleUc n m s) = kept s := by
  unfold sampleUc
  try dsimp only
  repeat' (first
    | with_reducible rfl
    | (apply kept_foldl; intros)
    | (apply kept_iterate; intros)
    | (simp only [kept_mk, kept_fold, kept_ite, ite_self, after_next, after_done, after_hold, apply_ite CmdEnd.after,
        apply_ite Prod.fst, kept_updTile, kept_sampleIn, kept_sampleOut]; done)
    | split
    | simp only [kept_mk, kept_fold, kept_ite, ite_self, after_next, after_done, after_hold, apply_ite CmdEnd.after,
        apply_ite Prod.fst, kept_updTile, kept_sampleIn, kept_sampleOut])

theorem kept_updInp (n : Nat) (f : UcIn → UcIn) (s : State) : kept (updInp n f s) = kept s := by
  rfl

theorem kept_ucSticky (n : Nat) (bit : Nat) (s : State) : kept (ucSticky n bit s) = kept s := by
  rfl

theorem kept_abortOpenTest (n : Nat) (s : State) : kept (abortOpenTest n s) = kept s := by
  unfold abortOpenTest
  simp only [kept_mk, kept_fold, kept_ite, ite_self, after_next, after_done, after_hold, apply_ite CmdEnd.after,
      apply_ite Prod.fst, kept_updInp, kept_endIfRunning, kept_foldl, kept_iterate]

theorem kept_openTest (req : Requester) (t : Fin 4) (arg : BitVec 24) (s : State) : kept (openTest req t arg s) = kept
    s := by
  unfold openTest
  try dsimp only
  repeat' (first
    | rfl
    | simp only [kept_mk, kept_fold, kept_ite, ite_self, after_next, after_done, after_hold, apply_ite CmdEnd.after,
        apply_ite Prod.fst, kept_issueCmd, kept_updInp, kept_foldl, kept_iterate]
    | (simp_all [kept_mk, kept_fold, kept_ite, ite_self, after_next, after_done, after_hold, apply_ite CmdEnd.after,
        apply_ite Prod.fst, kept_issueCmd, kept_updInp]; done)
    | (apply kept_foldl; intros)
    | (apply kept_iterate; intros)
    | split)

theorem kept_digEvent (k : Nat) (code : Nat) (detail : Nat) (s : State) : kept (digEvent k code detail s) = kept s :=
    by
  unfold digEvent
  simp only [kept_mk, kept_fold, kept_ite, ite_self, after_next, after_done, after_hold, apply_ite CmdEnd.after,
      apply_ite Prod.fst, kept_blockEv, kept_foldl, kept_iterate]

theorem kept_digSticky (k : Nat) (bit : Nat) (s : State) : kept (digSticky k bit s) = kept s := by
  rfl

theorem kept_raiseEvAt (cn : Word) (cls : Nat) (code : Nat) (source : Nat) (data : BitVec 96) (s : State) : kept
    (raiseEvAt cn cls code source data s) = kept s := by
  unfold raiseEvAt
  simp only [kept_mk, kept_fold, kept_ite, ite_self, after_next, after_done, after_hold, apply_ite CmdEnd.after,
      apply_ite Prod.fst, kept_foldl, kept_iterate]

theorem kept_outReset (req : Requester) (arg : BitVec 24) (s : State) : kept (outReset req arg s) = kept s := by
  unfold outReset
  try dsimp only
  repeat' (first
    | rfl
    | simp only [kept_mk, kept_fold, kept_ite, ite_self, after_next, after_done, after_hold, apply_ite CmdEnd.after,
        apply_ite Prod.fst, kept_issueCmd, kept_dioResolve, kept_updDio, kept_foldl, kept_iterate]
    | (simp_all [kept_mk, kept_fold, kept_ite, ite_self, after_next, after_done, after_hold, apply_ite CmdEnd.after,
        apply_ite Prod.fst, kept_issueCmd, kept_dioResolve, kept_updDio]; done)
    | (apply kept_foldl; intros)
    | (apply kept_iterate; intros)
    | split)

theorem kept_relearn (req : Requester) (arg : BitVec 24) (s : State) : kept (relearn req arg s) = kept s := by
  unfold relearn
  try dsimp only
  repeat' (first
    | rfl
    | simp only [kept_mk, kept_fold, kept_ite, ite_self, after_next, after_done, after_hold, apply_ite CmdEnd.after,
        apply_ite Prod.fst, kept_issueCmd, kept_updDio, kept_foldl, kept_iterate]
    | (simp_all [kept_mk, kept_fold, kept_ite, ite_self, after_next, after_done, after_hold, apply_ite CmdEnd.after,
        apply_ite Prod.fst, kept_issueCmd, kept_updDio]; done)
    | (apply kept_foldl; intros)
    | (apply kept_iterate; intros)
    | split)

theorem kept_digCfgWrite (k : Nat) (value : Word) (s : State) : kept (digCfgWrite k value s) = kept s := by
  unfold digCfgWrite
  try dsimp only
  repeat' (first
    | rfl
    | simp only [kept_mk, kept_fold, kept_ite, ite_self, after_next, after_done, after_hold, apply_ite CmdEnd.after,
        apply_ite Prod.fst, kept_pageWriteIf, kept_digSticky, kept_digEvent, kept_updDig, kept_foldl, kept_iterate]
    | (simp_all [kept_mk, kept_fold, kept_ite, ite_self, after_next, after_done, after_hold, apply_ite CmdEnd.after,
        apply_ite Prod.fst, kept_pageWriteIf, kept_digSticky, kept_digEvent, kept_updDig]; done)
    | (apply kept_foldl; intros)
    | (apply kept_iterate; intros)
    | split)

theorem kept_dioOctlWrite (n : Nat) (value : Word) (s : State) : kept (dioOctlWrite n value s) = kept s := by
  unfold dioOctlWrite
  try dsimp only
  repeat' (first
    | rfl
    | simp only [kept_mk, kept_fold, kept_ite, ite_self, after_next, after_done, after_hold, apply_ite CmdEnd.after,
        apply_ite Prod.fst, kept_pageWriteIf, kept_digSticky, kept_digEvent, kept_updDig, kept_foldl, kept_iterate]
    | (simp_all [kept_mk, kept_fold, kept_ite, ite_self, after_next, after_done, after_hold, apply_ite CmdEnd.after,
        apply_ite Prod.fst, kept_pageWriteIf, kept_digSticky, kept_digEvent, kept_updDig]; done)
    | (apply kept_foldl; intros)
    | (apply kept_iterate; intros)
    | split)

theorem kept_ucOctlWrite (n : Nat) (value : Word) (s : State) : kept (ucOctlWrite n value s) = kept s := by
  unfold ucOctlWrite
  try dsimp only
  repeat' (first
    | rfl
    | simp only [kept_mk, kept_fold, kept_ite, ite_self, after_next, after_done, after_hold, apply_ite CmdEnd.after,
        apply_ite Prod.fst, kept_pageWriteIf, kept_updUc, kept_foldl, kept_iterate]
    | (simp_all [kept_mk, kept_fold, kept_ite, ite_self, after_next, after_done, after_hold, apply_ite CmdEnd.after,
        apply_ite Prod.fst, kept_pageWriteIf, kept_updUc]; done)
    | (apply kept_foldl; intros)
    | (apply kept_iterate; intros)
    | split)

theorem kept_planEvent (code : Nat) (district : Nat) (gen : Nat) (count : Nat) (s : State) : kept (planEvent code
    district gen count s) = kept s := by
  unfold planEvent
  simp only [kept_mk, kept_fold, kept_ite, ite_self, after_next, after_done, after_hold, apply_ite CmdEnd.after,
      apply_ite Prod.fst, kept_blockEv, kept_foldl, kept_iterate]

theorem kept_updDistrict (n : Nat) (f : District → District) (s : State) : kept (updDistrict n f s) = kept s := by
  rfl

theorem kept_setLstat (op : Nat) (f : Fail) (s : State) : kept (setLstat op f s) = kept s := by
  rfl

theorem kept_loadPlan (req : Requester) (arg : BitVec 24) (s : State) : kept (loadPlan req arg s) = kept s := by
  unfold loadPlan
  try dsimp only
  repeat' (first
    | rfl
    | simp only [kept_mk, kept_fold, kept_ite, ite_self, after_next, after_done, after_hold, apply_ite CmdEnd.after,
        apply_ite Prod.fst, kept_issueCmd, kept_foldl, kept_iterate]
    | (simp_all [kept_mk, kept_fold, kept_ite, ite_self, after_next, after_done, after_hold, apply_ite CmdEnd.after,
        apply_ite Prod.fst, kept_issueCmd]; done)
    | (apply kept_foldl; intros)
    | (apply kept_iterate; intros)
    | split)

theorem kept_stopPlan (req : Requester) (arg : BitVec 24) (s : State) : kept (stopPlan req arg s) = kept s := by
  refine kept_issueCmd _ _ _ _ _ _ (fun s => ?_)
  split
  · rfl
  · split <;> try rfl
    split <;> rfl

theorem kept_beginUpdate (safety : Bool) (arg : BitVec 24) (s : State) : kept (beginUpdate safety arg s) = kept s :=
    by
  unfold beginUpdate
  simp only [kept_mk, kept_fold, kept_ite, ite_self, after_next, after_done, after_hold, apply_ite CmdEnd.after,
      apply_ite Prod.fst, kept_updDistrict, kept_foldl, kept_iterate]

theorem kept_updateDistrict (req : Requester) (arg : BitVec 24) (s : State) : kept (updateDistrict req arg s) = kept s
    := by
  unfold updateDistrict
  try dsimp only
  repeat' (first
    | rfl
    | simp only [kept_mk, kept_fold, kept_ite, ite_self, after_next, after_done, after_hold, apply_ite CmdEnd.after,
        apply_ite Prod.fst, kept_issueCmd, kept_beginUpdate, kept_foldl, kept_iterate]
    | (simp_all [kept_mk, kept_fold, kept_ite, ite_self, after_next, after_done, after_hold, apply_ite CmdEnd.after,
        apply_ite Prod.fst, kept_issueCmd, kept_beginUpdate]; done)
    | (apply kept_foldl; intros)
    | (apply kept_iterate; intros)
    | split)

theorem kept_acceptUpdate (v : Verifying) (img : List Byte) (s : State) : kept (acceptUpdate v img s) = kept s := by
  rfl

theorem kept_endUpdateVerify (page : Nat) (v : Verifying) (peer : Bool) (s : State) : kept (endUpdateVerify page v
    peer s) = kept s := by
  unfold endUpdateVerify
  dsimp only
  split
  · rw [kept_finishCmd, kept_updDistrict, kept_setLstat]
  · rw [kept_finishCmd, kept_acceptUpdate, kept_setLstat]

theorem kept_abortUpdate (req : Requester) (arg : BitVec 24) (s : State) : kept (abortUpdate req arg s) = kept s := by
  unfold abortUpdate
  try dsimp only
  repeat' (first
    | rfl
    | simp only [kept_mk, kept_fold, kept_ite, ite_self, after_next, after_done, after_hold, apply_ite CmdEnd.after,
        apply_ite Prod.fst, kept_issueCmd, kept_planEvent, kept_updDistrict, kept_foldl, kept_iterate]
    | (simp_all [kept_mk, kept_fold, kept_ite, ite_self, after_next, after_done, after_hold, apply_ite CmdEnd.after,
        apply_ite Prod.fst, kept_issueCmd, kept_planEvent, kept_updDistrict]; done)
    | (apply kept_foldl; intros)
    | (apply kept_iterate; intros)
    | split)

theorem kept_verifyCmd (req : Requester) (arg : BitVec 24) (s : State) : kept (verifyCmd req arg s) = kept s := by
  unfold verifyCmd
  try dsimp only
  repeat' (first
    | rfl
    | simp only [kept_mk, kept_fold, kept_ite, ite_self, after_next, after_done, after_hold, apply_ite CmdEnd.after,
        apply_ite Prod.fst, kept_issueCmd, kept_foldl, kept_iterate]
    | (simp_all [kept_mk, kept_fold, kept_ite, ite_self, after_next, after_done, after_hold, apply_ite CmdEnd.after,
        apply_ite Prod.fst, kept_issueCmd]; done)
    | (apply kept_foldl; intros)
    | (apply kept_iterate; intros)
    | split)

theorem kept_eraseCmd (req : Requester) (arg : BitVec 24) (s : State) : kept (eraseCmd req arg s) = kept s := by
  unfold eraseCmd
  try dsimp only
  repeat' (first
    | rfl
    | simp only [kept_mk, kept_fold, kept_ite, ite_self, after_next, after_done, after_hold, apply_ite CmdEnd.after,
        apply_ite Prod.fst, kept_issueCmd, kept_foldl, kept_iterate]
    | (simp_all [kept_mk, kept_fold, kept_ite, ite_self, after_next, after_done, after_hold, apply_ite CmdEnd.after,
        apply_ite Prod.fst, kept_issueCmd]; done)
    | (apply kept_foldl; intros)
    | (apply kept_iterate; intros)
    | split)

theorem kept_programCmd (req : Requester) (arg : BitVec 24) (s : State) : kept (programCmd req arg s) = kept s := by
  unfold programCmd
  try dsimp only
  repeat' (first
    | rfl
    | simp only [kept_mk, kept_fold, kept_ite, ite_self, after_next, after_done, after_hold, apply_ite CmdEnd.after,
        apply_ite Prod.fst, kept_issueCmd, kept_foldl, kept_iterate]
    | (simp_all [kept_mk, kept_fold, kept_ite, ite_self, after_next, after_done, after_hold, apply_ite CmdEnd.after,
        apply_ite Prod.fst, kept_issueCmd]; done)
    | (apply kept_foldl; intros)
    | (apply kept_iterate; intros)
    | split)

theorem kept_liEvent (n : Nat) (code : Nat) (detail : Nat) (s : State) : kept (liEvent n code detail s) = kept s := by
  unfold liEvent
  simp only [kept_mk, kept_fold, kept_ite, ite_self, after_next, after_done, after_hold, apply_ite CmdEnd.after,
      apply_ite Prod.fst, kept_chanEvent, kept_foldl, kept_iterate]

theorem kept_sampleLi (n : Nat) (m : Conversion) (s : State) : kept (sampleLi n m s) = kept s := by
  unfold sampleLi
  simp only [kept_mk, kept_fold, kept_ite, ite_self, after_next, after_done, after_hold, apply_ite CmdEnd.after,
      apply_ite Prod.fst, kept_updLi, kept_liEvent, kept_latchSample, kept_tripChannel, kept_updTile, kept_foldl,
      kept_iterate]

theorem kept_updModem (m : Nat) (f : Modem → Modem) (s : State) : kept (updModem m f s) = kept s := by
  rfl

theorem kept_updDesc (b : Nat) (f : HartDesc → HartDesc) (s : State) : kept (updDesc b f s) = kept s := by
  rfl

theorem kept_hartDone (b : Nat) (result : Nat) (s : State) : kept (hartDone b result s) = kept s := by
  unfold hartDone
  simp only [kept_mk, kept_fold, kept_ite, ite_self, after_next, after_done, after_hold, apply_ite CmdEnd.after,
      apply_ite Prod.fst, kept_updDesc, kept_blockEv, kept_foldl, kept_iterate]

theorem kept_coupleModem (m : Nat) (count : Bool) (s : State) : kept (coupleModem m count s) = kept s := by
  unfold coupleModem
  try dsimp only
  repeat' (first
    | rfl
    | simp only [kept_mk, kept_fold, kept_ite, ite_self, after_next, after_done, after_hold, apply_ite CmdEnd.after,
        apply_ite Prod.fst, kept_updModem, kept_foldl, kept_iterate]
    | split)

theorem kept_hartAdvance (m : Nat) (s : State) : kept (hartAdvance m s) = kept s := by
  unfold hartAdvance
  simp only [kept_mk, kept_fold, kept_ite, ite_self, after_next, after_done, after_hold, apply_ite CmdEnd.after,
      apply_ite Prod.fst, kept_updModem, kept_coupleModem, kept_foldl, kept_iterate]

theorem kept_hartEnd (m : Nat) (b : Nat) (result : Nat) (s : State) : kept (hartEnd m b result s) = kept s := by
  unfold hartEnd
  simp only [kept_mk, kept_fold, kept_ite, ite_self, after_next, after_done, after_hold, apply_ite CmdEnd.after,
      apply_ite Prod.fst, kept_coupleModem, kept_updModem, kept_hartDone, kept_foldl, kept_iterate]

theorem kept_hartRegate (s : State) : kept (hartRegate s) = kept s := by
  unfold hartRegate
  try dsimp only
  repeat' (first
    | with_reducible rfl
    | (apply kept_foldl; intros)
    | (apply kept_iterate; intros)
    | (simp only [kept_mk, kept_fold, kept_ite, ite_self, after_next, after_done, after_hold, apply_ite CmdEnd.after,
        apply_ite Prod.fst, kept_coupleModem]; done)
    | split
    | simp only [kept_mk, kept_fold, kept_ite, ite_self, after_next, after_done, after_hold, apply_ite CmdEnd.after,
        apply_ite Prod.fst, kept_coupleModem])

theorem kept_hartSend (m b : Nat) (s : State) : kept (hartSend m b s) = kept s := by
  rfl

theorem kept_hartBoundary (s : State) : kept (hartBoundary s) = kept s := by
  unfold hartBoundary
  dsimp only
  rw [kept_mk, kept_fold]
  refine kept_foldl _ (fun s m => ?_) _ _
  split <;> rfl

theorem kept_hartFail (m : Nat) (result : Nat) (s : State) : kept (hartFail m result s) = kept s := by
  unfold hartFail
  try dsimp only
  repeat' (first
    | rfl
    | simp only [kept_mk, kept_fold, kept_ite, ite_self, after_next, after_done, after_hold, apply_ite CmdEnd.after,
        apply_ite Prod.fst, kept_updModem, kept_hartEnd, kept_foldl, kept_iterate]
    | split)

theorem kept_submitCmd (req : Requester) (arg : BitVec 24) (s : State) : kept (submitCmd req arg s) = kept s := by
  unfold submitCmd
  try dsimp only
  repeat' (first
    | rfl
    | simp only [kept_mk, kept_fold, kept_ite, ite_self, after_next, after_done, after_hold, apply_ite CmdEnd.after,
        apply_ite Prod.fst, kept_issueCmd, kept_updDesc, kept_hartDone, kept_foldl, kept_iterate]
    | (simp_all [kept_mk, kept_fold, kept_ite, ite_self, after_next, after_done, after_hold, apply_ite CmdEnd.after,
        apply_ite Prod.fst, kept_issueCmd, kept_updDesc, kept_hartDone]; done)
    | (apply kept_foldl; intros)
    | (apply kept_iterate; intros)
    | split)

theorem kept_hartCancel (req : Requester) (arg : BitVec 24) (s : State) : kept (hartCancel req arg s) = kept s := by
  unfold hartCancel
  try dsimp only
  repeat' (first
    | rfl
    | simp only [kept_mk, kept_fold, kept_ite, ite_self, after_next, after_done, after_hold, apply_ite CmdEnd.after,
        apply_ite Prod.fst, kept_issueCmd, kept_hartDone, kept_foldl, kept_iterate]
    | (simp_all [kept_mk, kept_fold, kept_ite, ite_self, after_next, after_done, after_hold, apply_ite CmdEnd.after,
        apply_ite Prod.fst, kept_issueCmd, kept_hartDone]; done)
    | (apply kept_foldl; intros)
    | (apply kept_iterate; intros)
    | split)

theorem kept_hartRelease (req : Requester) (arg : BitVec 24) (s : State) : kept (hartRelease req arg s) = kept s := by
  unfold hartRelease
  try dsimp only
  repeat' (first
    | rfl
    | simp only [kept_mk, kept_fold, kept_ite, ite_self, after_next, after_done, after_hold, apply_ite CmdEnd.after,
        apply_ite Prod.fst, kept_issueCmd, kept_updDesc, kept_foldl, kept_iterate]
    | (simp_all [kept_mk, kept_fold, kept_ite, ite_self, after_next, after_done, after_hold, apply_ite CmdEnd.after,
        apply_ite Prod.fst, kept_issueCmd, kept_updDesc]; done)
    | (apply kept_foldl; intros)
    | (apply kept_iterate; intros)
    | split)

theorem kept_hartDescWrite (b : Fin 16) (reg : Fin 3) (value : Word) (s : State) : kept (hartDescWrite b reg value s)
    = kept s := by
  unfold hartDescWrite
  try dsimp only
  repeat' (first
    | rfl
    | simp only [kept_mk, kept_fold, kept_ite, ite_self, after_next, after_done, after_hold, apply_ite CmdEnd.after,
        apply_ite Prod.fst, kept_pageWriteIf, kept_updDesc, kept_setSticky, kept_foldl, kept_iterate]
    | (simp_all [kept_mk, kept_fold, kept_ite, ite_self, after_next, after_done, after_hold, apply_ite CmdEnd.after,
        apply_ite Prod.fst, kept_pageWriteIf, kept_updDesc, kept_setSticky]; done)
    | (apply kept_foldl; intros)
    | (apply kept_iterate; intros)
    | split)

theorem kept_hartAbort (p : Nat → Bool) (queued : Bool) (s : State) : kept (hartAbort p queued s) = kept s := by
  unfold hartAbort
  dsimp only
  have h : ∀ x : State, kept x = kept s → kept (if queued = true then
      List.foldl (fun s b => hartDone b 3 s) x (List.filter (fun b => p (descChan (desc x b))) x.hart.queue)
      else x) = kept s := by
    intro x hx
    split
    · rw [kept_foldl _ (fun s b => kept_hartDone b 3 s), hx]
    · exact hx
  refine h _ (kept_foldl _ (fun s m => ?_) _ _)
  split
  · rw [kept_ite, kept_hartEnd, ite_self]
  · rfl

theorem kept_hartNoTurn (s : State) : kept (hartNoTurn s) = kept s := by
  unfold hartNoTurn
  try dsimp only
  repeat' (first
    | rfl
    | simp only [kept_mk, kept_fold, kept_ite, ite_self, after_next, after_done, after_hold, apply_ite CmdEnd.after,
        apply_ite Prod.fst, kept_hartDone, kept_foldl, kept_iterate]
    | (simp_all [kept_mk, kept_fold, kept_ite, ite_self, after_next, after_done, after_hold, apply_ite CmdEnd.after,
        apply_ite Prod.fst, kept_hartDone]; done)
    | (apply kept_foldl; intros)
    | (apply kept_iterate; intros)
    | split)

theorem kept_updTileCal (t : Nat) (f : TileCal → TileCal) (s : State) : kept (updTileCal t f s) = kept s := by
  rfl

theorem kept_updConv (t : Nat) (c : Nat) (f : Converter → Converter) (s : State) : kept (updConv t c f s) = kept s :=
    by
  rfl

theorem kept_calEvent (code : Nat) (tile : Nat) (detail : Nat) (s : State) : kept (calEvent code tile detail s) = kept
    s := by
  unfold calEvent
  simp only [kept_mk, kept_fold, kept_ite, ite_self, after_next, after_done, after_hold, apply_ite CmdEnd.after,
      apply_ite Prod.fst, kept_blockEv, kept_foldl, kept_iterate]

theorem kept_setSpare (t : Nat) (sp : Nat) (r : Option SpareRole) (s : State) : kept (setSpare t sp r s) = kept s :=
    by
  rfl

theorem kept_startTurn (t : Nat) (c : Nat) (sp : Nat) (s : State) : kept (startTurn t c sp s) = kept s := by
  unfold startTurn
  simp only [kept_mk, kept_fold, kept_ite, ite_self, after_next, after_done, after_hold, apply_ite CmdEnd.after,
      apply_ite Prod.fst, kept_updTileCal, kept_foldl, kept_iterate]

theorem kept_rotationOrder (t : Nat) (c : Nat) (sp : Nat) (s : State) : kept (rotationOrder t c sp s) = kept s := by
  unfold rotationOrder
  simp only [kept_mk, kept_fold, kept_ite, ite_self, after_next, after_done, after_hold, apply_ite CmdEnd.after,
      apply_ite Prod.fst, kept_startTurn, kept_updTileCal, kept_foldl, kept_iterate]

theorem kept_endTurn (t : Nat) (key : Nat) (s : State) : kept (endTurn t key s) = kept s := by
  unfold endTurn
  try dsimp only
  repeat' (first
    | rfl
    | simp only [kept_mk, kept_fold, kept_ite, ite_self, after_next, after_done, after_hold, apply_ite CmdEnd.after,
        apply_ite Prod.fst, kept_updTileCal, kept_startTurn, kept_foldl, kept_iterate]
    | split)

theorem kept_calibrate (t : Nat) (c : Nat) (gain : ℤ) (offset : ℤ) (s : State) : kept (calibrate t c gain offset s) =
    kept s := by
  unfold calibrate
  simp only [kept_mk, kept_fold, kept_ite, ite_self, after_next, after_done, after_hold, apply_ite CmdEnd.after,
      apply_ite Prod.fst, kept_updConv, kept_calEvent, kept_foldl, kept_iterate]

theorem kept_resetTileCal (t : Nat) (s : State) : kept (resetTileCal t s) = kept s := by
  rfl

theorem kept_agedEvent (before s : State) : kept (agedEvent before s) = kept s := by
  unfold agedEvent
  simp only [kept_mk, kept_fold, kept_ite, ite_self, after_next, after_done, after_hold, apply_ite CmdEnd.after,
      apply_ite Prod.fst, kept_calEvent, kept_foldl, kept_iterate]

theorem kept_daysBoundary (s : State) : kept (daysBoundary s) = kept s := by
  unfold daysBoundary
  simp only [kept_mk, kept_fold, kept_ite, ite_self, after_next, after_done, after_hold, apply_ite CmdEnd.after,
      apply_ite Prod.fst, kept_foldl, kept_iterate]

theorem kept_calBoundary (s : State) : kept (calBoundary s) = kept s := by
  rfl

theorem kept_sessionOpen (req : Requester) (arg : BitVec 24) (s : State) : kept (sessionOpen req arg s) = kept s := by
  unfold sessionOpen
  try dsimp only
  repeat' (first
    | rfl
    | simp only [kept_mk, kept_fold, kept_ite, ite_self, after_next, after_done, after_hold, apply_ite CmdEnd.after,
        apply_ite Prod.fst, kept_issueCmd, kept_foldl, kept_iterate]
    | (simp_all [kept_mk, kept_fold, kept_ite, ite_self, after_next, after_done, after_hold, apply_ite CmdEnd.after,
        apply_ite Prod.fst, kept_issueCmd]; done)
    | (apply kept_foldl; intros)
    | (apply kept_iterate; intros)
    | split)

theorem kept_measureCmd (req : Requester) (arg : BitVec 24) (s : State) : kept (measureCmd req arg s) = kept s := by
  unfold measureCmd
  try dsimp only
  repeat' (first
    | rfl
    | simp only [kept_mk, kept_fold, kept_ite, ite_self, after_next, after_done, after_hold, apply_ite CmdEnd.after,
        apply_ite Prod.fst, kept_issueCmd, kept_updUc, kept_foldl, kept_iterate]
    | (simp_all [kept_mk, kept_fold, kept_ite, ite_self, after_next, after_done, after_hold, apply_ite CmdEnd.after,
        apply_ite Prod.fst, kept_issueCmd, kept_updUc]; done)
    | (apply kept_foldl; intros)
    | (apply kept_iterate; intros)
    | split)

theorem kept_setPoint (p : Nat) (x : CalPoint) (s : State) : kept (setPoint p x s) = kept s := by
  unfold setPoint
  simp only [kept_mk, kept_fold, kept_ite, ite_self, after_next, after_done, after_hold, apply_ite CmdEnd.after,
      apply_ite Prod.fst, kept_foldl, kept_iterate]

theorem kept_commitCmd (req : Requester) (arg : BitVec 24) (s : State) : kept (commitCmd req arg s) = kept s := by
  unfold commitCmd
  try dsimp only
  repeat' (first
    | rfl
    | simp only [kept_mk, kept_fold, kept_ite, ite_self, after_next, after_done, after_hold, apply_ite CmdEnd.after,
        apply_ite Prod.fst, kept_issueCmd, kept_foldl, kept_iterate]
    | (simp_all [kept_mk, kept_fold, kept_ite, ite_self, after_next, after_done, after_hold, apply_ite CmdEnd.after,
        apply_ite Prod.fst, kept_issueCmd]; done)
    | (apply kept_foldl; intros)
    | (apply kept_iterate; intros)
    | split)

theorem kept_closeSession (s : State) : kept (closeSession s) = kept s := by
  rfl

theorem kept_takeRates (da d100 d10k : Int) (d : Nat) (s : State) : kept (takeRates da d100 d10k d s) = kept s := by
  unfold takeRates
  simp only [kept_mk, kept_fold, kept_ite, ite_self, after_next, after_done, after_hold, apply_ite CmdEnd.after,
      apply_ite Prod.fst, kept_foldl, kept_iterate]

theorem kept_predict (day : Option Half) (days : Option Nat) (s : State) : kept (predict day days s) = kept s := by
  unfold predict
  try dsimp only
  repeat' (first
    | rfl
    | simp only [kept_mk, kept_fold, kept_ite, ite_self, after_next, after_done, after_hold, apply_ite CmdEnd.after,
        apply_ite Prod.fst, kept_takeRates, kept_foldl, kept_iterate]
    | split)

theorem kept_sessionClose (req : Requester) (arg : BitVec 24) (s : State) : kept (sessionClose req arg s) = kept s :=
    by
  unfold sessionClose
  try dsimp only
  repeat' (first
    | rfl
    | simp only [kept_mk, kept_fold, kept_ite, ite_self, after_next, after_done, after_hold, apply_ite CmdEnd.after,
        apply_ite Prod.fst, kept_issueCmd, kept_closeSession, kept_foldl, kept_iterate]
    | (simp_all [kept_mk, kept_fold, kept_ite, ite_self, after_next, after_done, after_hold, apply_ite CmdEnd.after,
        apply_ite Prod.fst, kept_issueCmd, kept_closeSession]; done)
    | (apply kept_foldl; intros)
    | (apply kept_iterate; intros)
    | split)

theorem kept_updPoint (p : Nat) (f : Point → Point) (s : State) : kept (updPoint p f s) = kept s := by
  rfl

theorem kept_updGroup (g : Nat) (f : Group → Group) (s : State) : kept (updGroup g f s) = kept s := by
  rfl

theorem kept_alarmRecord (p : Nat) (old : Half) (new : Half) (cause : Nat) (by_ : Nat) (s : State) : kept (alarmRecord
    p old new cause by_ s) = kept s := by
  unfold alarmRecord
  simp only [kept_mk, kept_fold, kept_ite, ite_self, after_next, after_done, after_hold, apply_ite CmdEnd.after,
      apply_ite Prod.fst, kept_raiseAlarm, kept_foldl, kept_iterate]

theorem kept_ptTo (p : Nat) (st : PState) (time : Stamp) (cause : Nat) (by_ : Nat) (old : Half) (s : State) :
    kept (ptTo p st time cause by_ old s) = kept s := by
  unfold ptTo
  simp only [kept_mk, kept_fold, kept_ite, ite_self, after_next, after_done, after_hold, apply_ite CmdEnd.after,
      apply_ite Prod.fst, kept_updPoint, kept_alarmRecord, kept_foldl, kept_iterate]

theorem kept_cmpWord (p : Nat) (s : State) : kept (cmpWord p s) = kept s := by
  unfold cmpWord
  simp only [kept_mk, kept_fold, kept_ite, ite_self, after_next, after_done, after_hold, apply_ite CmdEnd.after,
      apply_ite Prod.fst, kept_updPoint, kept_foldl, kept_iterate]

theorem kept_rateWindow (p : Nat) (s : State) : kept (rateWindow p s) = kept s := by
  unfold rateWindow
  simp only [kept_mk, kept_fold, kept_ite, ite_self, after_next, after_done, after_hold, apply_ite CmdEnd.after,
      apply_ite Prod.fst, kept_updPoint, kept_foldl, kept_iterate]

theorem kept_rateWord (p : Nat) (s : State) : kept (rateWord p s) = kept s := by
  unfold rateWord
  simp only [kept_ite, ite_self, kept_cmpWord, kept_rateWindow]

theorem kept_logicWord (p : Nat) (s : State) : kept (logicWord p s) = kept s := by
  unfold logicWord
  simp only [kept_mk, kept_fold, kept_ite, ite_self, after_next, after_done, after_hold, apply_ite CmdEnd.after,
      apply_ite Prod.fst, kept_updPoint, kept_cmpWord, kept_foldl, kept_iterate]

theorem kept_onConfirmed (p : Nat) (old : Half) (s : State) : kept (onConfirmed p old s) = kept s := by
  unfold onConfirmed
  simp only [kept_mk, kept_fold, kept_ite, ite_self, after_next, after_done, after_hold, apply_ite CmdEnd.after,
      apply_ite Prod.fst, kept_ptTo, kept_updPoint, kept_foldl, kept_iterate]

theorem kept_offConfirmed (p : Nat) (old : Half) (s : State) : kept (offConfirmed p old s) = kept s := by
  unfold offConfirmed
  simp only [kept_mk, kept_fold, kept_ite, ite_self, after_next, after_done, after_hold, apply_ite CmdEnd.after,
      apply_ite Prod.fst, kept_ptTo, kept_updPoint, kept_foldl, kept_iterate]

theorem kept_faultConfirmed (p : Nat) (old : Half) (s : State) : kept (faultConfirmed p old s) = kept s := by
  unfold faultConfirmed
  simp only [kept_mk, kept_fold, kept_ite, ite_self, after_next, after_done, after_hold, apply_ite CmdEnd.after,
      apply_ite Prod.fst, kept_updPoint, kept_ptTo, kept_foldl, kept_iterate]

theorem kept_delayBad (p : Nat) (old : Half) (s : State) : kept (delayBad p old s) = kept s := by
  unfold delayBad
  simp only [kept_mk, kept_fold, kept_ite, ite_self, after_next, after_done, after_hold, apply_ite CmdEnd.after,
      apply_ite Prod.fst, kept_ptTo, kept_faultConfirmed, kept_updPoint, kept_foldl, kept_iterate]

theorem kept_delayRun (p : Nat) (old : Half) (s : State) : kept (delayRun p old s) = kept s := by
  unfold delayRun
  simp only [kept_mk, kept_fold, kept_ite, ite_self, after_next, after_done, after_hold, apply_ite CmdEnd.after,
      apply_ite Prod.fst, kept_updPoint, kept_ptTo, kept_onConfirmed, kept_offConfirmed, kept_foldl, kept_iterate]

theorem kept_toNormal (p cause : Nat) (c : Bool) (old : Half) (s : State) : kept (toNormal p cause c old s) = kept s := by
  unfold toNormal
  simp only [kept_updPoint, kept_ptTo]

theorem kept_delayGood (p : Nat) (old : Half) (s : State) : kept (delayGood p old s) = kept s := by
  unfold delayGood
  simp only [kept_ite, ite_self, kept_updPoint, kept_toNormal, kept_delayRun]

theorem kept_delayWord (p : Nat) (s : State) : kept (delayWord p s) = kept s := by
  unfold delayWord
  try dsimp only
  repeat' (first
    | rfl
    | simp only [kept_mk, kept_fold, kept_ite, ite_self, after_next, after_done, after_hold, apply_ite CmdEnd.after,
        apply_ite Prod.fst, kept_updPoint, kept_alarmRecord, kept_toNormal, kept_delayBad, kept_delayGood, kept_foldl,
        kept_iterate]
    | split)

theorem kept_alarmEvent (code : Nat) (group : Nat) (point : Nat) (s : State) : kept (alarmEvent code group point s) =
    kept s := by
  unfold alarmEvent
  simp only [kept_mk, kept_fold, kept_ite, ite_self, after_next, after_done, after_hold, apply_ite CmdEnd.after,
      apply_ite Prod.fst, kept_blockEv, kept_foldl, kept_iterate]

theorem kept_emptyFo (g : Nat) (s : State) : kept (emptyFo g s) = kept s := by
  unfold emptyFo
  try dsimp only
  repeat' (first
    | rfl
    | simp only [kept_mk, kept_fold, kept_ite, ite_self, after_next, after_done, after_hold, apply_ite CmdEnd.after,
        apply_ite Prod.fst, kept_alarmEvent, kept_updGroup, kept_foldl, kept_iterate]
    | split)

theorem kept_groupWord (g : Nat) (s : State) : kept (groupWord g s) = kept s := by
  unfold groupWord
  try dsimp only
  repeat' (first
    | rfl
    | simp only [kept_mk, kept_fold, kept_ite, ite_self, after_next, after_done, after_hold, apply_ite CmdEnd.after,
        apply_ite Prod.fst, kept_emptyFo, kept_updGroup, kept_alarmEvent, kept_foldl, kept_iterate]
    | split)

theorem kept_ackPoint (p : Nat) (cause : Nat) (by_ : Nat) (s : State) : kept (ackPoint p cause by_ s).1 = kept s := by
  unfold ackPoint
  try dsimp only
  repeat' (first
    | rfl
    | simp only [kept_mk, kept_fold, kept_ite, ite_self, after_next, after_done, after_hold, apply_ite CmdEnd.after,
        apply_ite Prod.fst, kept_updPoint, kept_ptTo, kept_foldl, kept_iterate]
    | split)

theorem kept_ackPoints (cause : Nat) (by_ : Nat) (l : List Nat) (s : State) : kept (ackPoints cause by_ l s).1 = kept
    s := by
  unfold ackPoints
  have h : ∀ (l : List Nat) (x : State × Nat), kept (l.foldl (fun (y : State × Nat) p =>
      ((ackPoint p cause by_ y.1).1, y.2 + b2n (ackPoint p cause by_ y.1).2)) x).1 = kept x.1 := by
    intro l
    induction l with
    | nil => intro x; rfl
    | cons p l ih => intro x; rw [List.foldl_cons, ih]; exact kept_ackPoint _ _ _ _
  exact h l (s, 0)

theorem kept_silenceAll (s : State) : kept (silenceAll s).1 = kept s := by
  unfold silenceAll
  try dsimp only
  repeat' (first
    | rfl
    | simp only [kept_mk, kept_fold, kept_ite, ite_self, after_next, after_done, after_hold, apply_ite CmdEnd.after,
        apply_ite Prod.fst, kept_alarmEvent, kept_updPoint, kept_foldl, kept_iterate]
    | (simp_all [kept_mk, kept_fold, kept_ite, ite_self, after_next, after_done, after_hold, apply_ite CmdEnd.after,
        apply_ite Prod.fst, kept_alarmEvent, kept_updPoint]; done)
    | (apply kept_foldl; intros)
    | (apply kept_iterate; intros)
    | split)

theorem kept_applyAlarmCmd (op : Nat) (arg : BitVec 24) (req : Requester) (s : State) : kept (applyAlarmCmd op arg req
    s).after = kept s := by
  unfold applyAlarmCmd
  try dsimp only
  repeat' (first
    | with_reducible rfl
    | (apply kept_foldl; intros)
    | (apply kept_iterate; intros)
    | (simp only [kept_mk, kept_fold, kept_ite, ite_self, after_next, after_done, after_hold, apply_ite CmdEnd.after,
        apply_ite Prod.fst, kept_ackPoint, kept_ackPoints, kept_silenceAll, kept_updPoint, kept_emptyFo]; done)
    | split
    | simp only [kept_mk, kept_fold, kept_ite, ite_self, after_next, after_done, after_hold, apply_ite CmdEnd.after,
        apply_ite Prod.fst, kept_ackPoint, kept_ackPoints, kept_silenceAll, kept_updPoint, kept_emptyFo])

theorem kept_alarmCmd (op : Nat) (req : Requester) (arg : BitVec 24) (s : State) : kept (alarmCmd op req arg s) = kept
    s := by
  exact kept_issueCmd _ _ _ _ _ _ (fun _ => rfl)

theorem kept_updCall (f : CallBlk → CallBlk) (s : State) : kept (updCall f s) = kept s := by
  rfl

theorem kept_updTab (t : Nat) (f : CallTab → CallTab) (s : State) : kept (updTab t f s) = kept s := by
  rfl

theorem kept_callEvent (code : Nat) (table : Nat) (detail : Nat) (s : State) : kept (callEvent code table detail s) =
    kept s := by
  unfold callEvent
  simp only [kept_mk, kept_fold, kept_ite, ite_self, after_next, after_done, after_hold, apply_ite CmdEnd.after,
      apply_ite Prod.fst, kept_blockEv, kept_foldl, kept_iterate]

theorem kept_setTab (t : Nat) (x : CallTab) (s : State) : kept (setTab t x s) = kept s := by
  unfold setTab
  simp only [kept_mk, kept_fold, kept_ite, ite_self, after_next, after_done, after_hold, apply_ite CmdEnd.after,
      apply_ite Prod.fst, kept_updTab, kept_updCall, kept_callEvent, kept_foldl, kept_iterate]

theorem kept_callStage1 (t : Nat) (s : State) : kept (callStage1 t s) = kept s := by
  unfold callStage1
  simp only [kept_mk, kept_fold, kept_ite, ite_self, after_next, after_done, after_hold, apply_ite CmdEnd.after,
      apply_ite Prod.fst, kept_setTab, kept_foldl, kept_iterate]

theorem kept_callStage2 (t : Nat) (s : State) : kept (callStage2 t s) = kept s := by
  unfold callStage2
  simp only [kept_mk, kept_fold, kept_ite, ite_self, after_next, after_done, after_hold, apply_ite CmdEnd.after,
      apply_ite Prod.fst, kept_setTab, kept_foldl, kept_iterate]

theorem kept_callAlarm (t : Nat) (s : State) : kept (callAlarm t s) = kept s := by
  unfold callAlarm
  simp only [kept_mk, kept_fold, kept_ite, ite_self, after_next, after_done, after_hold, apply_ite CmdEnd.after,
      apply_ite Prod.fst, kept_setTab, kept_callStage1, kept_callStage2, kept_foldl, kept_iterate]

theorem kept_xferFails (t : Nat) (s : State) : kept (xferFails t s) = kept s := by
  unfold xferFails
  simp only [kept_mk, kept_fold, kept_ite, ite_self, after_next, after_done, after_hold, apply_ite CmdEnd.after,
      apply_ite Prod.fst, kept_callEvent, kept_updTab, kept_updCall, kept_foldl, kept_iterate]

theorem kept_callXfer (t : Nat) (s : State) : kept (callXfer t s) = kept s := by
  unfold callXfer
  simp only [kept_mk, kept_fold, kept_ite, ite_self, after_next, after_done, after_hold, apply_ite CmdEnd.after,
      apply_ite Prod.fst, kept_xferFails, kept_updCall, kept_foldl, kept_iterate]

theorem kept_callWord (t : Nat) (s : State) : kept (callWord t s) = kept s := by
  unfold callWord
  simp only [kept_mk, kept_fold, kept_ite, ite_self, after_next, after_done, after_hold, apply_ite CmdEnd.after,
      apply_ite Prod.fst, kept_callXfer, kept_callAlarm, kept_foldl, kept_iterate]

theorem kept_setDuty (e : Nat) (s : State) : kept (setDuty e s) = kept s := by
  unfold setDuty
  simp only [kept_mk, kept_fold, kept_ite, ite_self, after_next, after_done, after_hold, apply_ite CmdEnd.after,
      apply_ite Prod.fst, kept_callEvent, kept_updCall, kept_foldl, kept_iterate]

theorem kept_setPhase (ph : WatchPhase) (s : State) : kept (setPhase ph s) = kept s := by
  unfold setPhase
  simp only [kept_mk, kept_fold, kept_ite, ite_self, after_next, after_done, after_hold, apply_ite CmdEnd.after,
      apply_ite Prod.fst, kept_callEvent, kept_updCall, kept_setTab, kept_foldl, kept_iterate]

theorem kept_startWatch (s : State) : kept (startWatch s) = kept s := by
  unfold startWatch
  simp only [kept_mk, kept_fold, kept_ite, ite_self, after_next, after_done, after_hold, apply_ite CmdEnd.after,
      apply_ite Prod.fst, kept_setPhase, kept_updCall, kept_foldl, kept_iterate]

theorem kept_watchStage2 (s : State) : kept (watchStage2 s) = kept s := by
  unfold watchStage2
  simp only [kept_mk, kept_fold, kept_ite, ite_self, after_next, after_done, after_hold, apply_ite CmdEnd.after,
      apply_ite Prod.fst, kept_setTab, kept_foldl, kept_iterate]

theorem kept_watchWord (s : State) : kept (watchWord s) = kept s := by
  unfold watchWord
  simp only [kept_mk, kept_fold, kept_ite, ite_self, after_next, after_done, after_hold, apply_ite CmdEnd.after,
      apply_ite Prod.fst, kept_setPhase, kept_watchStage2, kept_foldl, kept_iterate]

theorem kept_applyWatch (on : Bool) (s : State) : kept (applyWatch on s) = kept s := by
  unfold applyWatch
  simp only [kept_mk, kept_fold, kept_ite, ite_self, after_next, after_done, after_hold, apply_ite CmdEnd.after,
      apply_ite Prod.fst, kept_startWatch, kept_setPhase, kept_foldl, kept_iterate]

theorem kept_watchStep (was : Nat) (s : State) : kept (watchStep was s) = kept s := by
  unfold watchStep
  simp only [kept_mk, kept_fold, kept_ite, ite_self, after_next, after_done, after_hold, apply_ite CmdEnd.after,
      apply_ite Prod.fst, kept_setTab, kept_setPhase, kept_foldl, kept_iterate]

theorem kept_retireTable (t : Nat) (s : State) : kept (retireTable t s) = kept s := by
  rfl

theorem kept_applyCallCmd (op : Nat) (arg : BitVec 24) (s : State) : kept (applyCallCmd op arg s).after = kept s := by
  unfold applyCallCmd
  try dsimp only
  repeat' (first
    | rfl
    | simp only [kept_mk, kept_fold, kept_ite, ite_self, after_next, after_done, after_hold, apply_ite CmdEnd.after,
        apply_ite Prod.fst, kept_setDuty, kept_updCall, kept_applyWatch, kept_startWatch, kept_foldl, kept_iterate]
    | split)

theorem kept_callCmd (op : Nat) (req : Requester) (arg : BitVec 24) (s : State) : kept (callCmd op req arg s) = kept s
    := by
  exact kept_issueCmd _ _ _ _ _ _ (fun _ => rfl)

theorem kept_runHeld (page : Nat) (apply : Nat → BitVec 24 → Requester → State → CmdEnd) (s : State) (happly : ∀ a b c
    s, kept (apply a b c s).after = kept s) : kept (runHeld page apply s) = kept s := by
  unfold runHeld
  split
  · rename_i r _
    have h := happly r.op.toNat r.arg r.by_ s
    split <;> rename_i e <;> rw [e] at h <;> simp only [CmdEnd.after] at h <;> simp only [kept_finishCmd, h]
  · rfl

theorem kept_applyPresses (s : State) : kept (applyPresses s) = kept s := by
  unfold applyPresses
  try dsimp only
  repeat' (first
    | with_reducible rfl
    | (apply kept_foldl; intros)
    | (apply kept_iterate; intros)
    | (simp only [kept_mk, kept_fold, kept_ite, ite_self, after_next, after_done, after_hold, apply_ite CmdEnd.after,
        apply_ite Prod.fst, kept_ackPoints, kept_silenceAll, kept_startWatch]; done)
    | split
    | simp only [kept_mk, kept_fold, kept_ite, ite_self, after_next, after_done, after_hold, apply_ite CmdEnd.after,
        apply_ite Prod.fst, kept_ackPoints, kept_silenceAll, kept_startWatch])

theorem kept_alarmBoundary (s : State) : kept (alarmBoundary s) = kept s := by
  unfold alarmBoundary
  dsimp only
  rw [kept_updCall]
  have h2 : kept (runHeld 0x14 (fun op arg _ => applyCallCmd op arg) (runHeld 0x13 applyAlarmCmd s)) = kept s := by
    rw [kept_runHeld _ _ _ (fun a b _ s => kept_applyCallCmd a b s),
      kept_runHeld _ _ _ (fun a b c s => kept_applyAlarmCmd a b c s)]
  generalize runHeld 0x14 (fun op arg _ => applyCallCmd op arg) (runHeld 0x13 applyAlarmCmd s) = x at h2 ⊢
  have h3 : kept (if claimed x then applyPresses x else { x with alarm.presses := [] }) = kept s := by
    simp only [kept_ite, kept_applyPresses, kept_mk, kept_fold, ite_self, h2]
  generalize (if claimed x then applyPresses x else { x with alarm.presses := [] }) = y at h3 ⊢
  have h4 : kept (if claimed y && (roster y).isSome && enableDi y ≠ 0xFF then applyWatch y.alarm.call.enableLast y
      else y) = kept s := by
    simp only [kept_ite, kept_applyWatch, ite_self, h3]
  generalize (if claimed y && (roster y).isSome && enableDi y ≠ 0xFF then applyWatch y.alarm.call.enableLast y
      else y) = z at h4 ⊢
  split
  · simp only [kept_ite, kept_setDuty, ite_self, h4]
  · exact h4

theorem kept_noSelector (s : State) : kept (noSelector s) = kept s := by
  unfold noSelector
  simp only [kept_mk, kept_fold, kept_ite, ite_self, after_next, after_done, after_hold, apply_ite CmdEnd.after,
      apply_ite Prod.fst, kept_callEvent, kept_updCall, kept_foldl, kept_iterate]

theorem kept_alarmCapture (s : State) : kept (alarmCapture s) = kept s := by
  unfold alarmCapture
  simp only [kept_mk, kept_fold, kept_ite, ite_self, after_next, after_done, after_hold, apply_ite CmdEnd.after,
      apply_ite Prod.fst, kept_updCall, kept_callEvent, kept_noSelector, kept_foldl, kept_iterate]

theorem kept_updEngine (e : Nat) (f : Engine → Engine) (s : State) : kept (updEngine e f s) = kept s := by
  unfold updEngine
  simp only [kept_mk, kept_fold, kept_ite, ite_self, after_next, after_done, after_hold, apply_ite CmdEnd.after,
      apply_ite Prod.fst, kept_foldl, kept_iterate]

theorem kept_tick (e : Nat) (cost : Nat) (s : State) : kept (tick e cost s) = kept s := by
  unfold tick
  simp only [kept_mk, kept_fold, kept_ite, ite_self, after_next, after_done, after_hold, apply_ite CmdEnd.after,
      apply_ite Prod.fst, kept_updEngine, kept_foldl, kept_iterate]

theorem kept_slotWord (e cls : Nat) (own : Option (Nat × Nat)) (w : SlotWord) (f : State → State) (s : State) (hf : ∀
    s, kept (f s) = kept s) : kept (slotWord e cls own w f s) = kept s := by
  unfold slotWord
  simp only [kept_mk, kept_fold, kept_ite, ite_self, after_next, after_done, after_hold, apply_ite CmdEnd.after,
      apply_ite Prod.fst, kept_tick, hf, kept_foldl, kept_iterate]

theorem kept_cellSet (e : Nat) (a : Nat) (v : Dword) (s : State) : kept (cellSet e a v s) = kept s := by
  unfold cellSet
  simp only [kept_mk, kept_fold, kept_ite, ite_self, after_next, after_done, after_hold, apply_ite CmdEnd.after,
      apply_ite Prod.fst, kept_updEngine, kept_foldl, kept_iterate]

theorem kept_updCtx (c : Nat) (f : ChanCtx → ChanCtx) (s : State) : kept (updCtx c f s) = kept s := by
  rfl

theorem kept_fetchWord (c : Nat) (w : SlotWord) (s : State) : kept (fetchWord c w s) = kept s := by
  unfold fetchWord
  simp only [kept_mk, kept_fold, kept_ite, ite_self, after_next, after_done, after_hold, apply_ite CmdEnd.after,
      apply_ite Prod.fst, kept_updCtx, kept_cellSet, kept_foldl, kept_iterate]

theorem kept_fetchDigital (k : Nat) (w : SlotWord) (s : State) : kept (fetchDigital k w s) = kept s := by
  rfl

theorem kept_filterWord (c : Nat) (w : SlotWord) (s : State) : kept (filterWord c w s) = kept s := by
  unfold filterWord
  simp only [kept_mk, kept_fold, kept_ite, ite_self, after_next, after_done, after_hold, apply_ite CmdEnd.after,
      apply_ite Prod.fst, kept_cellSet, kept_foldl, kept_iterate]

theorem kept_linWord (c : Nat) (w : SlotWord) (s : State) : kept (linWord c w s) = kept s := by
  rfl

theorem kept_linsumWord (c : Nat) (w : SlotWord) (s : State) : kept (linsumWord c w s) = kept s := by
  rfl

theorem kept_charWord (c : Nat) (w : SlotWord) (s : State) : kept (charWord c w s) = kept s := by
  unfold charWord
  simp only [kept_mk, kept_fold, kept_ite, ite_self, after_next, after_done, after_hold, apply_ite CmdEnd.after,
      apply_ite Prod.fst, kept_cellSet, kept_updCtx, kept_foldl, kept_iterate]

theorem kept_cvtWord (c : Nat) (w : SlotWord) (s : State) : kept (cvtWord c w s) = kept s := by
  unfold cvtWord
  simp only [kept_mk, kept_fold, kept_ite, ite_self, after_next, after_done, after_hold, apply_ite CmdEnd.after,
      apply_ite Prod.fst, kept_cellSet, kept_updCtx, kept_foldl, kept_iterate]

theorem kept_recWord (r : Nat) (s : State) : kept (recWord r s) = kept s := by
  unfold recWord
  simp only [kept_mk, kept_fold, kept_ite, ite_self, after_next, after_done, after_hold, apply_ite CmdEnd.after,
      apply_ite Prod.fst, kept_foldl, kept_iterate]

theorem kept_outWord (n : Nat) (w : SlotWord) (s : State) : kept (outWord n w s) = kept s := by
  unfold outWord
  simp only [kept_mk, kept_fold, kept_ite, ite_self, after_next, after_done, after_hold, apply_ite CmdEnd.after,
      apply_ite Prod.fst, kept_foldl, kept_iterate]

theorem kept_updReader (r : Nat) (f : Reader → Reader) (s : State) : kept (updReader r f s) = kept s := by
  rfl

theorem kept_squarePin (req : Requester) (value : Word) (s : State) : kept (squarePin req value s) = kept s := by
  unfold squarePin
  try dsimp only
  repeat' (first
    | rfl
    | simp only [kept_mk, kept_fold, kept_ite, ite_self, after_next, after_done, after_hold, apply_ite CmdEnd.after,
        apply_ite Prod.fst, kept_pageWrite, kept_updReader, kept_foldl, kept_iterate]
    | (simp_all [kept_mk, kept_fold, kept_ite, ite_self, after_next, after_done, after_hold, apply_ite CmdEnd.after,
        apply_ite Prod.fst, kept_pageWrite, kept_updReader]; done)
    | (apply kept_foldl; intros)
    | (apply kept_iterate; intros)
    | split)

theorem kept_windowRead (req : Requester) (o : Nat) (s : State) : kept (windowRead req o s).1 = kept s := by
  unfold windowRead
  try dsimp only
  repeat' (first
    | rfl
    | simp only [kept_mk, kept_fold, kept_ite, ite_self, after_next, after_done, after_hold, apply_ite CmdEnd.after,
        apply_ite Prod.fst, kept_updReader, kept_offAccess, kept_foldl, kept_iterate]
    | split)

theorem kept_readN (rd : Nat → State → State × Word) (hrd : ∀ a s, kept (rd a s).1 = kept s) (a : Nat) (size : Nat)
    (s : State) : kept (readN rd a size s).1 = kept s := by
  unfold readN
  split
  · rfl
  · exact hrd _ _

theorem kept_windowReadN (req : Requester) (a size : Nat) (s : State) : kept (windowReadN req a size s).1 = kept s :=
    by
  exact kept_readN _ (fun a s => kept_windowRead req a s) _ _ _

theorem kept_setResp (l : List Word) (s : State) : kept (setResp l s) = kept s := by
  rfl

theorem kept_windowWrite (s : State) : kept (windowWrite s) = kept s := by
  unfold windowWrite
  simp only [kept_mk, kept_fold, kept_ite, ite_self, after_next, after_done, after_hold, apply_ite CmdEnd.after,
      apply_ite Prod.fst, kept_setSticky, kept_offAccess, kept_foldl, kept_iterate]

theorem kept_takeBuffer (s : State) : kept (takeBuffer s) = kept s := by
  rfl

theorem kept_publish (q : Square) (s : State) : kept (publish q s) = kept s := by
  unfold publish
  simp only [kept_mk, kept_fold, kept_ite, ite_self, after_next, after_done, after_hold, apply_ite CmdEnd.after,
      apply_ite Prod.fst, kept_takeBuffer, kept_trendGather, kept_foldl, kept_iterate]

theorem kept_squarePublish (s : State) : kept (squarePublish s) = kept s := by
  unfold squarePublish
  try dsimp only
  repeat' (first
    | rfl
    | simp only [kept_mk, kept_fold, kept_ite, ite_self, after_next, after_done, after_hold, apply_ite CmdEnd.after,
        apply_ite Prod.fst, kept_publish, kept_takeBuffer, kept_foldl, kept_iterate]
    | split)

theorem kept_updCtxOf (c : Nat) (f : ChanCtx → ChanCtx) (s : State) : kept (updCtxOf c f s) = kept s := by
  rfl

theorem kept_newSeries (c : Nat) (s : State) : kept (newSeries c s) = kept s := by
  rfl

theorem kept_dropSamples (c : Nat) (s : State) : kept (dropSamples c s) = kept s := by
  rfl

theorem kept_settleUc (n : Nat) (s : State) : kept (settleUc n s) = kept s := by
  rfl

theorem kept_ucNewMode (n : Nat) (s : State) : kept (ucNewMode n s) = kept s := by
  unfold ucNewMode
  simp only [kept_mk, kept_fold, kept_ite, ite_self, after_next, after_done, after_hold, apply_ite CmdEnd.after,
      apply_ite Prod.fst, kept_newSeries, kept_abortOpenTest, kept_updUc, kept_dropSamples, kept_foldl, kept_iterate]

theorem kept_ucTake (n : Nat) (s : State) : kept (ucTake n s) = kept s := by
  unfold ucTake
  simp only [kept_mk, kept_fold, kept_ite, ite_self, after_next, after_done, after_hold, apply_ite CmdEnd.after,
      apply_ite Prod.fst, kept_updUc, kept_settleUc, kept_ucNewMode, kept_updInp, kept_foldl, kept_iterate]

theorem kept_liNewMode (n : Nat) (s : State) : kept (liNewMode n s) = kept s := by
  unfold liNewMode
  simp only [kept_mk, kept_fold, kept_ite, ite_self, after_next, after_done, after_hold, apply_ite CmdEnd.after,
      apply_ite Prod.fst, kept_newSeries, kept_updLi, kept_dropSamples, kept_foldl, kept_iterate]

theorem kept_liTake (n : Nat) (s : State) : kept (liTake n s) = kept s := by
  unfold liTake
  simp only [kept_mk, kept_fold, kept_ite, ite_self, after_next, after_done, after_hold, apply_ite CmdEnd.after,
      apply_ite Prod.fst, kept_updLi, kept_liNewMode, kept_foldl, kept_iterate]

theorem kept_digTake (k : Nat) (s : State) : kept (digTake k s) = kept s := by
  unfold digTake
  simp only [kept_mk, kept_fold, kept_ite, ite_self, after_next, after_done, after_hold, apply_ite CmdEnd.after,
      apply_ite Prod.fst, kept_updDig, kept_updDio, kept_foldl, kept_iterate]

theorem kept_loadPlanRegs (m : Nat) (s : State) : kept (loadPlanRegs m s) = kept s := by
  unfold loadPlanRegs
  simp only [kept_mk, kept_fold, kept_ite, ite_self, after_next, after_done, after_hold, apply_ite CmdEnd.after,
      apply_ite Prod.fst, kept_updUc, kept_updLi, kept_updDig, kept_foldl, kept_iterate]

theorem kept_givePlanRegs (m : Nat) (s : State) : kept (givePlanRegs m s) = kept s := by
  unfold givePlanRegs
  simp only [kept_mk, kept_fold, kept_ite, ite_self, after_next, after_done, after_hold, apply_ite CmdEnd.after,
      apply_ite Prod.fst, kept_loadPlanRegs, kept_foldl, kept_iterate]

theorem kept_eraseRecord (m : Nat) (s : State) : kept (eraseRecord m s) = kept s := by
  unfold eraseRecord
  simp only [kept_mk, kept_fold, kept_ite, ite_self, after_next, after_done, after_hold, apply_ite CmdEnd.after,
      apply_ite Prod.fst, kept_foldl, kept_iterate]

theorem kept_stepAna (c : Nat) (was : Bool) (s : State) : kept (stepAna c was s) = kept s := by
  unfold stepAna
  simp only [kept_mk, kept_fold, kept_ite, ite_self, after_next, after_done, after_hold, apply_ite CmdEnd.after,
      apply_ite Prod.fst, kept_updCtxOf, kept_newSeries, kept_dropSamples, kept_updUc, kept_givePlanRegs,
      kept_settleUc, kept_foldl, kept_iterate]

theorem kept_stepDig (k : Nat) (was : Bool) (s : State) : kept (stepDig k was s) = kept s := by
  unfold stepDig
  simp only [kept_mk, kept_fold, kept_ite, ite_self, after_next, after_done, after_hold, apply_ite CmdEnd.after,
      apply_ite Prod.fst, kept_givePlanRegs, kept_updDig, kept_foldl, kept_iterate]

theorem kept_stepPoint (p : Nat) (old : Option (List Byte)) (oldWord : Half) (s : State) : kept (stepPoint p old
    oldWord s) = kept s := by
  unfold stepPoint
  simp only [kept_mk, kept_fold, kept_ite, ite_self, after_next, after_done, after_hold, apply_ite CmdEnd.after,
      apply_ite Prod.fst, kept_updPoint, kept_alarmRecord, kept_foldl, kept_iterate]

theorem kept_retirePoint (p : Nat) (oldWord : Half) (s : State) : kept (retirePoint p oldWord s) = kept s := by
  unfold retirePoint
  try dsimp only
  repeat' (first
    | with_reducible rfl
    | (apply kept_foldl; intros)
    | (apply kept_iterate; intros)
    | (simp only [kept_mk, kept_fold, kept_ite, ite_self, after_next, after_done, after_hold, apply_ite CmdEnd.after,
        apply_ite Prod.fst, kept_emptyFo, kept_alarmRecord, kept_updPoint]; done)
    | split
    | simp only [kept_mk, kept_fold, kept_ite, ite_self, after_next, after_done, after_hold, apply_ite CmdEnd.after,
        apply_ite Prod.fst, kept_emptyFo, kept_alarmRecord, kept_updPoint])

theorem kept_endRelease (output : Bool) (n : Nat) (s : State) : kept (endRelease output n s) = kept s := by
  rfl

theorem kept_stepLane (n : Nat) (old : Option (List Byte)) (s : State) : kept (stepLane n old s) = kept s := by
  unfold stepLane
  simp only [kept_mk, kept_fold, kept_ite, ite_self, after_next, after_done, after_hold, apply_ite CmdEnd.after,
      apply_ite Prod.fst, kept_tripUpdate, kept_endRelease, kept_foldl, kept_iterate]

theorem kept_dropPanelPend (k : Nat) (s : State) : kept (dropPanelPend k s) = kept s := by
  unfold dropPanelPend
  simp only [kept_mk, kept_fold, kept_ite, ite_self, after_next, after_done, after_hold, apply_ite CmdEnd.after,
      apply_ite Prod.fst, kept_setSticky, kept_foldl, kept_iterate]

theorem kept_initCall (s : State) : kept (initCall s) = kept s := by
  rfl

theorem kept_claimConfig (s : State) : kept (claimConfig s) = kept s := by
  unfold claimConfig
  simp only [kept_mk, kept_fold, kept_ite, ite_self, after_next, after_done, after_hold, apply_ite CmdEnd.after,
      apply_ite Prod.fst, kept_foldl, kept_iterate]

theorem kept_applyStep (d : DStep) (s : State) : kept (applyStep d s) = kept s := by
  unfold applyStep
  split
  · rename_i e
    dsimp only
    split <;> simp only [kept_ite, kept_stepAna, kept_stepDig, kept_stepPoint, kept_updTab, kept_hartNoTurn,
      kept_updModem, kept_initCall, kept_watchStep, kept_stepLane, kept_claimConfig, kept_tripUpdate, kept_mk, kept_fold,
      ite_self]
  · rename_i ty t
    split
    · rfl
    · dsimp only
      have h : kept (if ty = 0x0C then applyWatch false s else s) = kept s := by
        simp only [kept_ite, kept_applyWatch, ite_self]
      generalize (if ty = 0x0C then applyWatch false s else s) = x at h ⊢
      rw [← h]
      split <;> simp only [kept_hartAbort, kept_givePlanRegs, kept_eraseRecord, kept_newSeries, kept_dropSamples,
        kept_retirePoint, kept_retireTable, kept_hartNoTurn, kept_updModem, kept_dropPanelPend, kept_tripUpdate,
        kept_endRelease, kept_claimConfig, kept_mk, kept_fold]

theorem kept_reloadAll (s : State) : kept (reloadAll s) = kept s := by
  unfold reloadAll
  try dsimp only
  repeat' (first
    | rfl
    | simp only [kept_mk, kept_fold, kept_ite, ite_self, after_next, after_done, after_hold, apply_ite CmdEnd.after,
        apply_ite Prod.fst, kept_loadPlanRegs, kept_foldl, kept_iterate]
    | (simp_all [kept_mk, kept_fold, kept_ite, ite_self, after_next, after_done, after_hold, apply_ite CmdEnd.after,
        apply_ite Prod.fst, kept_loadPlanRegs]; done)
    | (apply kept_foldl; intros)
    | (apply kept_iterate; intros)
    | split)

theorem kept_freshStamps (b : State) (s : State) : kept (freshStamps b s) = kept s := by
  rfl

theorem kept_tileRegs (t : Nat) (s : State) : kept (tileRegs t s) = kept s := by
  unfold tileRegs
  try dsimp only
  repeat' (first
    | rfl
    | simp only [kept_mk, kept_fold, kept_ite, ite_self, after_next, after_done, after_hold, apply_ite CmdEnd.after,
        apply_ite Prod.fst, kept_loadPlanRegs, kept_updUc, kept_updLi, kept_foldl, kept_iterate]
    | (simp_all [kept_mk, kept_fold, kept_ite, ite_self, after_next, after_done, after_hold, apply_ite CmdEnd.after,
        apply_ite Prod.fst, kept_loadPlanRegs, kept_updUc, kept_updLi]; done)
    | (apply kept_foldl; intros)
    | (apply kept_iterate; intros)
    | split)

theorem kept_tileTake (t : Nat) (s : State) : kept (tileTake t s) = kept s := by
  unfold tileTake
  try dsimp only
  repeat' (first
    | rfl
    | simp only [kept_mk, kept_fold, kept_ite, ite_self, after_next, after_done, after_hold, apply_ite CmdEnd.after,
        apply_ite Prod.fst, kept_updUc, kept_settleUc, kept_dropSamples, kept_updLi, kept_foldl, kept_iterate]
    | (simp_all [kept_mk, kept_fold, kept_ite, ite_self, after_next, after_done, after_hold, apply_ite CmdEnd.after,
        apply_ite Prod.fst, kept_updUc, kept_settleUc, kept_dropSamples, kept_updLi]; done)
    | (apply kept_foldl; intros)
    | (apply kept_iterate; intros)
    | split)

theorem kept_updCan (n : Nat) (f : CanBlk → CanBlk) (s : State) : kept (updCan n f s) = kept s := by
  rfl

theorem kept_canSticky (n : Nat) (bit : Nat) (s : State) : kept (canSticky n bit s) = kept s := by
  rfl

theorem kept_canState (n : Nat) (st : BitVec 2) (s : State) : kept (canState n st s) = kept s := by
  unfold canState
  simp only [kept_mk, kept_fold, kept_ite, ite_self, after_next, after_done, after_hold, apply_ite CmdEnd.after,
      apply_ite Prod.fst, kept_blockEv, kept_canSticky, kept_updCan, kept_foldl, kept_iterate]

theorem kept_canJudge (n : Nat) (s : State) : kept (canJudge n s) = kept s := by
  unfold canJudge
  simp only [kept_mk, kept_fold, kept_ite, ite_self, after_next, after_done, after_hold, apply_ite CmdEnd.after,
      apply_ite Prod.fst, kept_canState, kept_foldl, kept_iterate]

theorem kept_canEndAll (n : Nat) (s : State) : kept (canEndAll n s) = kept s := by
  unfold canEndAll
  simp only [kept_mk, kept_fold, kept_ite, ite_self, after_next, after_done, after_hold, apply_ite CmdEnd.after,
      apply_ite Prod.fst, kept_canSticky, kept_updCan, kept_foldl, kept_iterate]

theorem kept_canGates (takeover : Bool) (s : State) : kept (canGates takeover s) = kept s := by
  unfold canGates
  try dsimp only
  repeat' (first
    | rfl
    | simp only [kept_mk, kept_fold, kept_ite, ite_self, after_next, after_done, after_hold, apply_ite CmdEnd.after,
        apply_ite Prod.fst, kept_blockEv, kept_canSticky, kept_updCan, kept_canEndAll, kept_foldl, kept_iterate]
    | (simp_all [kept_mk, kept_fold, kept_ite, ite_self, after_next, after_done, after_hold, apply_ite CmdEnd.after,
        apply_ite Prod.fst, kept_blockEv, kept_canSticky, kept_updCan, kept_canEndAll]; done)
    | (apply kept_foldl; intros)
    | (apply kept_iterate; intros)
    | split)

theorem kept_storeBox (n : Nat) (b : Nat) (f : CanFrame) (s : State) : kept (storeBox n b f s) = kept s := by
  rfl

theorem kept_queueAppend (n : Nat) (k : Nat) (f : CanFrame) (s : State) : kept (queueAppend n k f s) = kept s := by
  rfl

theorem kept_storeQueue (n : Nat) (k : Nat) (f : CanFrame) (s : State) : kept (storeQueue n k f s) = kept s := by
  unfold storeQueue
  simp only [kept_mk, kept_fold, kept_ite, ite_self, after_next, after_done, after_hold, apply_ite CmdEnd.after,
      apply_ite Prod.fst, kept_queueAppend, kept_canSticky, kept_updCan, kept_foldl, kept_iterate]

theorem kept_canFree (n k : Nat) (value : Word) (s : State) : kept (canFree n k value s) = kept s := by
  unfold canFree
  try dsimp only
  repeat' (first
    | rfl
    | simp only [kept_mk, kept_fold, kept_ite, ite_self, after_next, after_done, after_hold, apply_ite CmdEnd.after,
        apply_ite Prod.fst, kept_pageWriteIf, kept_updCan, kept_foldl, kept_iterate]
    | (simp_all [kept_mk, kept_fold, kept_ite, ite_self, after_next, after_done, after_hold, apply_ite CmdEnd.after,
        apply_ite Prod.fst, kept_pageWriteIf, kept_updCan]; done)
    | (apply kept_foldl; intros)
    | (apply kept_iterate; intros)
    | split)

theorem kept_canSend (n : Nat) (value : Word) (s : State) : kept (canSend n value s) = kept s := by
  unfold canSend
  try dsimp only
  repeat' (first
    | rfl
    | simp only [kept_mk, kept_fold, kept_ite, ite_self, after_next, after_done, after_hold, apply_ite CmdEnd.after,
        apply_ite Prod.fst, kept_pageWrite, kept_updCan, kept_foldl, kept_iterate]
    | (simp_all [kept_mk, kept_fold, kept_ite, ite_self, after_next, after_done, after_hold, apply_ite CmdEnd.after,
        apply_ite Prod.fst, kept_pageWrite, kept_updCan]; done)
    | (apply kept_foldl; intros)
    | (apply kept_iterate; intros)
    | split)

theorem kept_endBox (n : Nat) (b : Nat) (st : Nat) (s : State) : kept (endBox n b st s) = kept s := by
  rfl

theorem kept_canWithdraw (n : Nat) (value : Word) (s : State) : kept (canWithdraw n value s) = kept s := by
  refine kept_pageWrite _ _ _ (fun s => ?_)
  dsimp only
  rw [kept_foldl _ (fun s b => by simp only [kept_ite, kept_updCan, kept_endBox, ite_self])]
  rfl

theorem kept_canCfgWrite (n : Nat) (reg : Fin 3) (value : Word) (s : State) : kept (canCfgWrite n reg value s) = kept
    s := by
  unfold canCfgWrite
  try dsimp only
  repeat' (first
    | rfl
    | simp only [kept_mk, kept_fold, kept_ite, ite_self, after_next, after_done, after_hold, apply_ite CmdEnd.after,
        apply_ite Prod.fst, kept_pageWriteIf, kept_updCan, kept_canSticky, kept_foldl, kept_iterate]
    | (simp_all [kept_mk, kept_fold, kept_ite, ite_self, after_next, after_done, after_hold, apply_ite CmdEnd.after,
        apply_ite Prod.fst, kept_pageWriteIf, kept_updCan, kept_canSticky]; done)
    | (apply kept_foldl; intros)
    | (apply kept_iterate; intros)
    | split)

theorem kept_canEnWrite (n : Nat) (value : Word) (s : State) : kept (canEnWrite n value s) = kept s := by
  unfold canEnWrite
  try dsimp only
  repeat' (first
    | rfl
    | simp only [kept_mk, kept_fold, kept_ite, ite_self, after_next, after_done, after_hold, apply_ite CmdEnd.after,
        apply_ite Prod.fst, kept_pageWrite, kept_updCan, kept_canState, kept_canEndAll, kept_foldl, kept_iterate]
    | (simp_all [kept_mk, kept_fold, kept_ite, ite_self, after_next, after_done, after_hold, apply_ite CmdEnd.after,
        apply_ite Prod.fst, kept_pageWrite, kept_updCan, kept_canState, kept_canEndAll]; done)
    | (apply kept_foldl; intros)
    | (apply kept_iterate; intros)
    | split)

theorem kept_canRamWrite (n : Nat) (w : Nat) (value : Word) (s : State) : kept (canRamWrite n w value s) = kept s :=
    by
  unfold canRamWrite
  simp only [kept_mk, kept_fold, kept_ite, ite_self, after_next, after_done, after_hold, apply_ite CmdEnd.after,
      apply_ite Prod.fst, kept_canSticky, kept_updCan, kept_offAccess, kept_foldl, kept_iterate]

theorem kept_channelMaint (req : Requester) (p : Fin 12) (arg : BitVec 24) (s : State) : kept (channelMaint req p arg
    s) = kept s := by
  unfold channelMaint
  try dsimp only
  repeat' (first
    | rfl
    | simp only [kept_mk, kept_fold, kept_ite, ite_self, after_next, after_done, after_hold, apply_ite CmdEnd.after,
        apply_ite Prod.fst, kept_issueCmd, kept_foldl, kept_iterate]
    | (simp_all [kept_mk, kept_fold, kept_ite, ite_self, after_next, after_done, after_hold, apply_ite CmdEnd.after,
        apply_ite Prod.fst, kept_issueCmd]; done)
    | (apply kept_foldl; intros)
    | (apply kept_iterate; intros)
    | split)

theorem kept_leaveMaint (m : Nat) (s : State) : kept (leaveMaint m s) = kept s := by
  unfold leaveMaint
  simp only [kept_mk, kept_fold, kept_ite, ite_self, after_next, after_done, after_hold, apply_ite CmdEnd.after,
      apply_ite Prod.fst, kept_loadPlanRegs, kept_updCtxOf, kept_updUc, kept_settleUc, kept_updLi, kept_updDig,
      kept_foldl, kept_iterate]

theorem kept_enterMaint (m : Nat) (s : State) : kept (enterMaint m s) = kept s := by
  unfold enterMaint
  simp only [kept_mk, kept_fold, kept_ite, ite_self, after_next, after_done, after_hold, apply_ite CmdEnd.after,
      apply_ite Prod.fst, kept_updUc, kept_updDio, kept_foldl, kept_iterate]

theorem kept_maintBoundary (s : State) : kept (maintBoundary s) = kept s := by
  unfold maintBoundary
  try dsimp only
  repeat' (first
    | rfl
    | simp only [kept_mk, kept_fold, kept_ite, ite_self, after_next, after_done, after_hold, apply_ite CmdEnd.after,
        apply_ite Prod.fst, kept_enterMaint, kept_leaveMaint, kept_foldl, kept_iterate]
    | (simp_all [kept_mk, kept_fold, kept_ite, ite_self, after_next, after_done, after_hold, apply_ite CmdEnd.after,
        apply_ite Prod.fst, kept_enterMaint, kept_leaveMaint]; done)
    | (apply kept_foldl; intros)
    | (apply kept_iterate; intros)
    | split)

theorem kept_ucCfgWrite (n : Nat) (value : Word) (s : State) : kept (ucCfgWrite n value s) = kept s := by
  unfold ucCfgWrite
  try dsimp only
  repeat' (first
    | rfl
    | simp only [kept_mk, kept_fold, kept_ite, ite_self, after_next, after_done, after_hold, apply_ite CmdEnd.after,
        apply_ite Prod.fst, kept_pageWriteIf, kept_ucSticky, kept_chanEvent, kept_updUc, kept_foldl, kept_iterate]
    | (simp_all [kept_mk, kept_fold, kept_ite, ite_self, after_next, after_done, after_hold, apply_ite CmdEnd.after,
        apply_ite Prod.fst, kept_pageWriteIf, kept_ucSticky, kept_chanEvent, kept_updUc]; done)
    | (apply kept_foldl; intros)
    | (apply kept_iterate; intros)
    | split)

theorem kept_liCfgWrite (n : Nat) (value : Word) (s : State) : kept (liCfgWrite n value s) = kept s := by
  unfold liCfgWrite
  try dsimp only
  repeat' (first
    | rfl
    | simp only [kept_mk, kept_fold, kept_ite, ite_self, after_next, after_done, after_hold, apply_ite CmdEnd.after,
        apply_ite Prod.fst, kept_pageWriteIf, kept_updLi, kept_liEvent, kept_foldl, kept_iterate]
    | (simp_all [kept_mk, kept_fold, kept_ite, ite_self, after_next, after_done, after_hold, apply_ite CmdEnd.after,
        apply_ite Prod.fst, kept_pageWriteIf, kept_updLi, kept_liEvent]; done)
    | (apply kept_foldl; intros)
    | (apply kept_iterate; intros)
    | split)

theorem kept_tileRestart (req : Requester) (t : Fin 10) (arg : BitVec 24) (s : State) : kept (tileRestart req t arg s)
    = kept s := by
  unfold tileRestart
  try dsimp only
  repeat' (first
    | rfl
    | simp only [kept_mk, kept_fold, kept_ite, ite_self, after_next, after_done, after_hold, apply_ite CmdEnd.after,
        apply_ite Prod.fst, kept_issueCmd, kept_updTile, kept_foldl, kept_iterate]
    | (simp_all [kept_mk, kept_fold, kept_ite, ite_self, after_next, after_done, after_hold, apply_ite CmdEnd.after,
        apply_ite Prod.fst, kept_issueCmd, kept_updTile]; done)
    | (apply kept_foldl; intros)
    | (apply kept_iterate; intros)
    | split)

theorem kept_abortTileTests (t : Nat) (s : State) : kept (abortTileTests t s) = kept s := by
  unfold abortTileTests
  try dsimp only
  repeat' (first
    | with_reducible rfl
    | (apply kept_foldl; intros)
    | (apply kept_iterate; intros)
    | (simp only [kept_mk, kept_fold, kept_ite, ite_self, after_next, after_done, after_hold, apply_ite CmdEnd.after,
        apply_ite Prod.fst, kept_abortOpenTest]; done)
    | split
    | simp only [kept_mk, kept_fold, kept_ite, ite_self, after_next, after_done, after_hold, apply_ite CmdEnd.after,
        apply_ite Prod.fst, kept_abortOpenTest])

theorem kept_restartTile (t : Nat) (s : State) : kept (restartTile t s) = kept s := by
  unfold restartTile
  rw [kept_updTile, kept_hartAbort, kept_abortTileTests]

theorem kept_convsBack (t : Nat) (s : State) : kept (convsBack t s) = kept s := by
  rfl

theorem kept_tilesBoundary (s : State) : kept (tilesBoundary s) = kept s := by
  unfold tilesBoundary
  try dsimp only
  repeat' (first
    | with_reducible rfl
    | (apply kept_foldl; intros)
    | (apply kept_iterate; intros)
    | (simp only [kept_mk, kept_fold, kept_ite, ite_self, after_next, after_done, after_hold, apply_ite CmdEnd.after,
        apply_ite Prod.fst, kept_tileTake, kept_updTile, kept_restartTile]; done)
    | split
    | simp only [kept_mk, kept_fold, kept_ite, ite_self, after_next, after_done, after_hold, apply_ite CmdEnd.after,
        apply_ite Prod.fst, kept_tileTake, kept_updTile, kept_restartTile])

theorem kept_clearPeakCmd (req : Requester) (arg : BitVec 24) (s : State) : kept (clearPeakCmd req arg s) = kept s :=
    by
  unfold clearPeakCmd
  try dsimp only
  repeat' (first
    | rfl
    | simp only [kept_mk, kept_fold, kept_ite, ite_self, after_next, after_done, after_hold, apply_ite CmdEnd.after,
        apply_ite Prod.fst, kept_issueCmd, kept_foldl, kept_iterate]
    | (simp_all [kept_mk, kept_fold, kept_ite, ite_self, after_next, after_done, after_hold, apply_ite CmdEnd.after,
        apply_ite Prod.fst, kept_issueCmd]; done)
    | (apply kept_foldl; intros)
    | (apply kept_iterate; intros)
    | split)

theorem kept_updOut (n : Nat) (f : UcOut → UcOut) (s : State) : kept (updOut n f s) = kept s := by
  rfl

theorem kept_ucOSticky (n : Nat) (bit : Nat) (s : State) : kept (ucOSticky n bit s) = kept s := by
  rfl

theorem kept_readbackStep (n : Nat) (w : OutWindow) (s : State) : kept (readbackStep n w s) = kept s := by
  unfold readbackStep
  try dsimp only
  repeat' (first
    | rfl
    | simp only [kept_mk, kept_fold, kept_ite, ite_self, after_next, after_done, after_hold, apply_ite CmdEnd.after,
        apply_ite Prod.fst, kept_updOut, kept_chanEvent, kept_ucOSticky, kept_foldl, kept_iterate]
    | split)

theorem kept_complianceStep (n : Nat) (w : OutWindow) (s : State) : kept (complianceStep n w s) = kept s := by
  unfold complianceStep
  try dsimp only
  repeat' (first
    | rfl
    | simp only [kept_mk, kept_fold, kept_ite, ite_self, after_next, after_done, after_hold, apply_ite CmdEnd.after,
        apply_ite Prod.fst, kept_updOut, kept_chanEvent, kept_ucOSticky, kept_foldl, kept_iterate]
    | split)

theorem kept_openLoopStep (n : Nat) (w : OutWindow) (s : State) : kept (openLoopStep n w s) = kept s := by
  unfold openLoopStep
  try dsimp only
  repeat' (first
    | rfl
    | simp only [kept_mk, kept_fold, kept_ite, ite_self, after_next, after_done, after_hold, apply_ite CmdEnd.after,
        apply_ite Prod.fst, kept_updOut, kept_chanEvent, kept_ucOSticky, kept_foldl, kept_iterate]
    | split)

theorem kept_ucJudge (n : Nat) (s : State) : kept (ucJudge n s) = kept s := by
  unfold ucJudge
  try dsimp only
  repeat' (first
    | rfl
    | simp only [kept_mk, kept_fold, kept_ite, ite_self, after_next, after_done, after_hold, apply_ite CmdEnd.after,
        apply_ite Prod.fst, kept_updUc, kept_openLoopStep, kept_complianceStep, kept_readbackStep, kept_foldl,
        kept_iterate]
    | split)

theorem kept_retireOff (n : Nat) (s : State) : kept (retireOff n s) = kept s := by
  unfold retireOff
  simp only [kept_mk, kept_fold, kept_ite, ite_self, after_next, after_done, after_hold, apply_ite CmdEnd.after,
      apply_ite Prod.fst, kept_ucTake, kept_updUc, kept_foldl, kept_iterate]

theorem kept_ucDrive (n : Nat) (win : Option OutWindow) (s : State) : kept (ucDrive n win s) = kept s := by
  unfold ucDrive
  try dsimp only
  repeat' (first
    | rfl
    | simp only [kept_mk, kept_fold, kept_ite, ite_self, after_next, after_done, after_hold, apply_ite CmdEnd.after,
        apply_ite Prod.fst, kept_updOut, kept_retireOff, kept_ucOSticky, kept_foldl, kept_iterate]
    | split)

theorem kept_ucBoundary (n : Nat) (s : State) : kept (ucBoundary n s) = kept s := by
  unfold ucBoundary
  dsimp only
  have h : kept (ucDrive n (ucGet s n).win (ucJudge n s)) = kept s := by rw [kept_ucDrive, kept_ucJudge]
  generalize ucDrive n (ucGet s n).win (ucJudge n s) = x at h ⊢
  split
  · split
    · split
      · exact h
      · split
        · rw [kept_updOut, h]
        · exact h
    · rw [kept_updOut, kept_ucResolve]
  · rfl

theorem kept_dioBoundary (n : Nat) (s : State) : kept (dioBoundary n s) = kept s := by
  rfl

theorem kept_outputsBoundary (s : State) : kept (outputsBoundary s) = kept s := by
  unfold outputsBoundary
  dsimp only
  have h := kept_foldl (fun s n => ucBoundary n s) (fun s n => kept_ucBoundary n s) (List.range 32) s
  split
  · rw [kept_inrushBudget, kept_foldl _ (fun s n => kept_dioBoundary n s), h]
  · exact h

theorem kept_evqNote (old : EvQueue) (new : EvQueue) (s : State) : kept (evqNote old new s) = kept s := by
  unfold evqNote
  simp only [kept_mk, kept_fold, kept_ite, ite_self, after_next, after_done, after_hold, apply_ite CmdEnd.after,
      apply_ite Prod.fst, kept_setSticky, kept_foldl, kept_iterate]

theorem kept_evqReplace (q : Nat) (f : EvQueue → EvQueue) (s : State) : kept (evqReplace q f s) = kept s := by
  unfold evqReplace
  simp only [kept_mk, kept_fold, kept_ite, ite_self, after_next, after_done, after_hold, apply_ite CmdEnd.after,
      apply_ite Prod.fst, kept_evqNote, kept_foldl, kept_iterate]

theorem kept_evqArrive (e : EventRec) (s : State) : kept (evqArrive e s) = kept s := by
  unfold evqArrive
  try dsimp only
  repeat' (first
    | with_reducible rfl
    | (apply kept_foldl; intros)
    | (apply kept_iterate; intros)
    | (simp only [kept_mk, kept_fold, kept_ite, ite_self, after_next, after_done, after_hold, apply_ite CmdEnd.after,
        apply_ite Prod.fst, kept_evqReplace]; done)
    | split
    | simp only [kept_mk, kept_fold, kept_ite, ite_self, after_next, after_done, after_hold, apply_ite CmdEnd.after,
        apply_ite Prod.fst, kept_evqReplace])

theorem kept_evqDrain (s : State) : kept (evqDrain s) = kept s := by
  unfold evqDrain
  dsimp only
  rw [kept_foldl _ (fun s e => kept_evqArrive e s)]
  rfl

theorem kept_evqPop (req : Requester) (q : Fin 5) (value : Word) (s : State) : kept (evqPop req q value s) = kept s :=
    by
  unfold evqPop
  try dsimp only
  repeat' (first
    | rfl
    | simp only [kept_mk, kept_fold, kept_ite, ite_self, after_next, after_done, after_hold, apply_ite CmdEnd.after,
        apply_ite Prod.fst, kept_pageWriteIf, kept_evqReplace, kept_setSticky, kept_foldl, kept_iterate]
    | (simp_all [kept_mk, kept_fold, kept_ite, ite_self, after_next, after_done, after_hold, apply_ite CmdEnd.after,
        apply_ite Prod.fst, kept_pageWriteIf, kept_evqReplace, kept_setSticky]; done)
    | (apply kept_foldl; intros)
    | (apply kept_iterate; intros)
    | split)

theorem kept_evqCtlWrite (q : Fin 5) (value : Word) (s : State) : kept (evqCtlWrite q value s) = kept s := by
  exact kept_pageWrite _ _ _ (fun _ => rfl)

theorem kept_redEvent (code : Nat) (detail : Nat) (s : State) : kept (redEvent code detail s) = kept s := by
  unfold redEvent
  simp only [kept_mk, kept_fold, kept_ite, ite_self, after_next, after_done, after_hold, apply_ite CmdEnd.after,
      apply_ite Prod.fst, kept_blockEv, kept_foldl, kept_iterate]

theorem kept_gatesApplyUc (s : State) : kept (gatesApplyUc s) = kept s := by
  unfold gatesApplyUc
  try dsimp only
  repeat' (first
    | with_reducible rfl
    | (apply kept_foldl; intros)
    | (apply kept_iterate; intros)
    | (simp only [kept_mk, kept_fold, kept_ite, ite_self, after_next, after_done, after_hold, apply_ite CmdEnd.after,
        apply_ite Prod.fst, kept_ucResolve]; done)
    | split
    | simp only [kept_mk, kept_fold, kept_ite, ite_self, after_next, after_done, after_hold, apply_ite CmdEnd.after,
        apply_ite Prod.fst, kept_ucResolve])

theorem kept_gatesApply (s : State) : kept (gatesApply s) = kept s := by
  unfold gatesApply
  dsimp only
  split
  · rw [kept_foldl _ (fun s n => kept_dioResolve n s), kept_gatesApplyUc]
  · exact kept_gatesApplyUc s

theorem kept_dioTake (drive : Word) (s : State) : kept (dioTake drive s) = kept s := by
  unfold dioTake
  try dsimp only
  repeat' (first
    | with_reducible rfl
    | (apply kept_foldl; intros)
    | (apply kept_iterate; intros)
    | (simp only [kept_mk, kept_fold, kept_ite, ite_self, after_next, after_done, after_hold, apply_ite CmdEnd.after,
        apply_ite Prod.fst, kept_updDio, kept_dioResolve]; done)
    | split
    | simp only [kept_mk, kept_fold, kept_ite, ite_self, after_next, after_done, after_hold, apply_ite CmdEnd.after,
        apply_ite Prod.fst, kept_updDio, kept_dioResolve])

theorem kept_settleGated (s : State) : kept (settleGated s) = kept s := by
  unfold settleGated
  try dsimp only
  repeat' (first
    | with_reducible rfl
    | (apply kept_foldl; intros)
    | (apply kept_iterate; intros)
    | (simp only [kept_mk, kept_fold, kept_ite, ite_self, after_next, after_done, after_hold, apply_ite CmdEnd.after,
        apply_ite Prod.fst, kept_settleUc, kept_updLi]; done)
    | split
    | simp only [kept_mk, kept_fold, kept_ite, ite_self, after_next, after_done, after_hold, apply_ite CmdEnd.after,
        apply_ite Prod.fst, kept_settleUc, kept_updLi])

theorem kept_seedRecord (c : Nat) (r : ARec) (s : State) : kept (seedRecord c r s) = kept s := by
  rfl

theorem kept_seedGated (m : SyncMsg) (s : State) : kept (seedGated m s) = kept s := by
  unfold seedGated
  try dsimp only
  repeat' (first
    | with_reducible rfl
    | (apply kept_foldl; intros)
    | (apply kept_iterate; intros)
    | (simp only [kept_mk, kept_fold, kept_ite, ite_self, after_next, after_done, after_hold, apply_ite CmdEnd.after,
        apply_ite Prod.fst, kept_seedRecord]; done)
    | split
    | simp only [kept_mk, kept_fold, kept_ite, ite_self, after_next, after_done, after_hold, apply_ite CmdEnd.after,
        apply_ite Prod.fst, kept_seedRecord])

theorem kept_outputsFromStart (s : State) : kept (outputsFromStart s) = kept s := by
  unfold outputsFromStart
  try dsimp only
  repeat' (first
    | rfl
    | simp only [kept_mk, kept_fold, kept_ite, ite_self, after_next, after_done, after_hold, apply_ite CmdEnd.after,
        apply_ite Prod.fst, kept_updOut, kept_foldl, kept_iterate]
    | (simp_all [kept_mk, kept_fold, kept_ite, ite_self, after_next, after_done, after_hold, apply_ite CmdEnd.after,
        apply_ite Prod.fst, kept_updOut]; done)
    | (apply kept_foldl; intros)
    | (apply kept_iterate; intros)
    | split)

theorem kept_outputsFromSync (m : SyncMsg) (s : State) : kept (outputsFromSync m s) = kept s := by
  unfold outputsFromSync
  try dsimp only
  repeat' (first
    | rfl
    | simp only [kept_mk, kept_fold, kept_ite, ite_self, after_next, after_done, after_hold, apply_ite CmdEnd.after,
        apply_ite Prod.fst, kept_updOut, kept_foldl, kept_iterate]
    | (simp_all [kept_mk, kept_fold, kept_ite, ite_self, after_next, after_done, after_hold, apply_ite CmdEnd.after,
        apply_ite Prod.fst, kept_updOut]; done)
    | (apply kept_foldl; intros)
    | (apply kept_iterate; intros)
    | split)

theorem kept_epochMarkers (new : Half) (old : Half) (s : State) : kept (epochMarkers new old s) = kept s := by
  unfold epochMarkers
  try dsimp only
  repeat' (first
    | rfl
    | simp only [kept_mk, kept_fold, kept_ite, ite_self, after_next, after_done, after_hold, apply_ite CmdEnd.after,
        apply_ite Prod.fst, kept_evqReplace, kept_foldl, kept_iterate]
    | (simp_all [kept_mk, kept_fold, kept_ite, ite_self, after_next, after_done, after_hold, apply_ite CmdEnd.after,
        apply_ite Prod.fst, kept_evqReplace]; done)
    | (apply kept_foldl; intros)
    | (apply kept_iterate; intros)
    | split)

theorem kept_noInrush (s : State) : kept (noInrush s) = kept s := by
  unfold noInrush
  try dsimp only
  repeat' (first
    | with_reducible rfl
    | (apply kept_foldl; intros)
    | (apply kept_iterate; intros)
    | (simp only [kept_mk, kept_fold, kept_ite, ite_self, after_next, after_done, after_hold, apply_ite CmdEnd.after,
        apply_ite Prod.fst, kept_updDio]; done)
    | split
    | simp only [kept_mk, kept_fold, kept_ite, ite_self, after_next, after_done, after_hold, apply_ite CmdEnd.after,
        apply_ite Prod.fst, kept_updDio])

theorem kept_updStreet (b : Bool) (f : Street → Street) (s : State) : kept (updStreet b f s) = kept s := by
  unfold updStreet
  simp only [kept_mk, kept_fold, kept_ite, ite_self, after_next, after_done, after_hold, apply_ite CmdEnd.after,
      apply_ite Prod.fst, kept_foldl, kept_iterate]

theorem kept_linkEvent (s : State) : kept (linkEvent s) = kept s := by
  unfold linkEvent
  simp only [kept_mk, kept_fold, kept_ite, ite_self, after_next, after_done, after_hold, apply_ite CmdEnd.after,
      apply_ite Prod.fst, kept_redEvent, kept_foldl, kept_iterate]

theorem kept_judgePeerLost (s : State) : kept (judgePeerLost s) = kept s := by
  unfold judgePeerLost
  simp only [kept_mk, kept_fold, kept_ite, ite_self, after_next, after_done, after_hold, apply_ite CmdEnd.after,
      apply_ite Prod.fst, kept_redEvent, kept_foldl, kept_iterate]

theorem kept_peerSeen (h : Heartbeat) (s : State) : kept (peerSeen h s) = kept s := by
  unfold peerSeen
  simp only [kept_mk, kept_fold, kept_ite, ite_self, after_next, after_done, after_hold, apply_ite CmdEnd.after,
      apply_ite Prod.fst, kept_judgePeerLost, kept_foldl, kept_iterate]

theorem kept_switchover (req : Requester) (arg : BitVec 24) (s : State) : kept (switchover req arg s) = kept s := by
  unfold switchover
  try dsimp only
  repeat' (first
    | rfl
    | simp only [kept_mk, kept_fold, kept_ite, ite_self, after_next, after_done, after_hold, apply_ite CmdEnd.after,
        apply_ite Prod.fst, kept_issueCmd, kept_orderYield, kept_foldl, kept_iterate]
    | (simp_all [kept_mk, kept_fold, kept_ite, ite_self, after_next, after_done, after_hold, apply_ite CmdEnd.after,
        apply_ite Prod.fst, kept_issueCmd, kept_orderYield]; done)
    | (apply kept_foldl; intros)
    | (apply kept_iterate; intros)
    | split)

theorem kept_clearCounts (req : Requester) (arg : BitVec 24) (s : State) : kept (clearCounts req arg s) = kept s := by
  unfold clearCounts
  try dsimp only
  repeat' (first
    | rfl
    | simp only [kept_mk, kept_fold, kept_ite, ite_self, after_next, after_done, after_hold, apply_ite CmdEnd.after,
        apply_ite Prod.fst, kept_issueCmd, kept_foldl, kept_iterate]
    | (simp_all [kept_mk, kept_fold, kept_ite, ite_self, after_next, after_done, after_hold, apply_ite CmdEnd.after,
        apply_ite Prod.fst, kept_issueCmd]; done)
    | (apply kept_foldl; intros)
    | (apply kept_iterate; intros)
    | split)

theorem kept_buildSync (q : Square) (s : State) : kept (buildSync q s) = kept s := by
  unfold buildSync
  simp only [kept_mk, kept_fold, kept_ite, ite_self, after_next, after_done, after_hold, apply_ite CmdEnd.after,
      apply_ite Prod.fst, kept_foldl, kept_iterate]

theorem kept_loadTurns (m : SyncMsg) (s : State) : kept (loadTurns m s) = kept s := by
  unfold loadTurns
  try dsimp only
  repeat' (first
    | with_reducible rfl
    | (apply kept_foldl; intros)
    | (apply kept_iterate; intros)
    | (simp only [kept_mk, kept_fold, kept_ite, ite_self, after_next, after_done, after_hold, apply_ite CmdEnd.after,
        apply_ite Prod.fst, kept_hartAdvance, kept_updModem]; done)
    | split
    | simp only [kept_mk, kept_fold, kept_ite, ite_self, after_next, after_done, after_hold, apply_ite CmdEnd.after,
        apply_ite Prod.fst, kept_hartAdvance, kept_updModem])

theorem kept_loadLamps (m : SyncMsg) (s : State) : kept (loadLamps m s) = kept s := by
  unfold loadLamps
  try dsimp only
  repeat' (first
    | with_reducible rfl
    | (apply kept_foldl; intros)
    | (apply kept_iterate; intros)
    | (simp only [kept_mk, kept_fold, kept_ite, ite_self, after_next, after_done, after_hold, apply_ite CmdEnd.after,
        apply_ite Prod.fst, kept_updDio]; done)
    | split
    | simp only [kept_mk, kept_fold, kept_ite, ite_self, after_next, after_done, after_hold, apply_ite CmdEnd.after,
        apply_ite Prod.fst, kept_updDio])

theorem kept_syncMissed (s : State) : kept (syncMissed s) = kept s := by
  unfold syncMissed
  simp only [kept_mk, kept_fold, kept_ite, ite_self, after_next, after_done, after_hold, apply_ite CmdEnd.after,
      apply_ite Prod.fst, kept_foldl, kept_iterate]

theorem kept_pairCounts (cn : Word) (s : State) : kept (pairCounts cn s) = kept s := by
  rfl

theorem kept_accessViolation (page : Nat) (off : Nat) (req : Requester) (value : Word) (s : State) : kept
    (accessViolation page off req value s) = kept s := by
  unfold accessViolation
  simp only [kept_mk, kept_fold, kept_ite, ite_self, after_next, after_done, after_hold, apply_ite CmdEnd.after,
      apply_ite Prod.fst, kept_setSticky, kept_raiseEv, kept_foldl, kept_iterate]

theorem kept_updateSafety (req : Requester) (arg : BitVec 24) (s : State) : kept (updateSafety req arg s) = kept s :=
    by
  unfold updateSafety
  try dsimp only
  repeat' (first
    | rfl
    | simp only [kept_mk, kept_fold, kept_ite, ite_self, after_next, after_done, after_hold, apply_ite CmdEnd.after,
        apply_ite Prod.fst, kept_issueCmd, kept_beginUpdate, kept_foldl, kept_iterate]
    | (simp_all [kept_mk, kept_fold, kept_ite, ite_self, after_next, after_done, after_hold, apply_ite CmdEnd.after,
        apply_ite Prod.fst, kept_issueCmd, kept_beginUpdate]; done)
    | (apply kept_foldl; intros)
    | (apply kept_iterate; intros)
    | split)

theorem kept_releaseCmd (output : Bool) (req : Requester) (arg : BitVec 24) (s : State) : kept (releaseCmd output req
    arg s) = kept s := by
  refine kept_issueCmd _ _ _ _ _ _ (fun s => ?_)
  dsimp only
  repeat' (first | with_reducible rfl | split)
  all_goals first
    | rfl
    | rw [after_done, kept_safeEvent]; rfl

theorem kept_restoreCmd (output : Bool) (req : Requester) (arg : BitVec 24) (s : State) : kept (restoreCmd output req
    arg s) = kept s := by
  unfold restoreCmd
  try dsimp only
  repeat' (first
    | rfl
    | simp only [kept_mk, kept_fold, kept_ite, ite_self, after_next, after_done, after_hold, apply_ite CmdEnd.after,
        apply_ite Prod.fst, kept_issueCmd, kept_foldl, kept_iterate]
    | (simp_all [kept_mk, kept_fold, kept_ite, ite_self, after_next, after_done, after_hold, apply_ite CmdEnd.after,
        apply_ite Prod.fst, kept_issueCmd]; done)
    | (apply kept_foldl; intros)
    | (apply kept_iterate; intros)
    | split)

theorem kept_applyAsk (s : State) (a : RelAsk) : kept (applyAsk s a) = kept s := by
  unfold applyAsk
  simp only [kept_mk, kept_fold, kept_ite, ite_self, after_next, after_done, after_hold, apply_ite CmdEnd.after,
      apply_ite Prod.fst, kept_safeEvent, kept_foldl, kept_iterate]

theorem kept_resetLane (req : Requester) (arg : BitVec 24) (s : State) : kept (resetLane req arg s) = kept s := by
  unfold resetLane
  try dsimp only
  repeat' (first
    | rfl
    | simp only [kept_mk, kept_fold, kept_ite, ite_self, after_next, after_done, after_hold, apply_ite CmdEnd.after,
        apply_ite Prod.fst, kept_issueCmd, kept_foldl, kept_iterate]
    | (simp_all [kept_mk, kept_fold, kept_ite, ite_self, after_next, after_done, after_hold, apply_ite CmdEnd.after,
        apply_ite Prod.fst, kept_issueCmd]; done)
    | (apply kept_foldl; intros)
    | (apply kept_iterate; intros)
    | split)

theorem kept_applyResetLane (arg : BitVec 24) (s : State) : kept (applyResetLane arg s).after = kept s := by
  unfold applyResetLane
  try dsimp only
  repeat' (first
    | rfl
    | simp only [kept_mk, kept_fold, kept_ite, ite_self, after_next, after_done, after_hold, apply_ite CmdEnd.after,
        apply_ite Prod.fst, kept_foldl, kept_iterate]
    | (simp_all [kept_mk, kept_fold, kept_ite, ite_self, after_next, after_done, after_hold, apply_ite CmdEnd.after,
        apply_ite Prod.fst]; done)
    | (apply kept_foldl; intros)
    | (apply kept_iterate; intros)
    | split)

theorem kept_forceResetCmd (req : Requester) (arg : BitVec 24) (s : State) : kept (forceResetCmd req arg s) = kept s
    := by
  unfold forceResetCmd
  try dsimp only
  repeat' (first
    | rfl
    | simp only [kept_mk, kept_fold, kept_ite, ite_self, after_next, after_done, after_hold, apply_ite CmdEnd.after,
        apply_ite Prod.fst, kept_issueCmd, kept_foldl, kept_iterate]
    | (simp_all [kept_mk, kept_fold, kept_ite, ite_self, after_next, after_done, after_hold, apply_ite CmdEnd.after,
        apply_ite Prod.fst, kept_issueCmd]; done)
    | (apply kept_foldl; intros)
    | (apply kept_iterate; intros)
    | split)

theorem kept_safeBoundary (s : State) : kept (safeBoundary s) = kept s := by
  unfold safeBoundary
  split
  · dsimp only
    rw [kept_tripUpdate]
    have h0 : ∀ x : State, kept x = kept s → kept (x.safe.asks.foldl applyAsk { x with safe.asks := [] }) = kept s := by
      intro x hx
      rw [kept_foldl _ kept_applyAsk, ← hx]; rfl
    have h1 : ∀ x : State, kept x = kept s → kept (match (hdr x 0x18).run with
        | some r => if r.op = 6 then
            (match applyResetLane r.arg x with
              | .done st res x => finishCmd 0x18 st res x
              | .hold x => x)
          else x
        | none => x) = kept s := by
      intro x hx
      split
      · rename_i r _
        split
        · have h := kept_applyResetLane r.arg x
          split <;> rename_i e <;> rw [e] at h <;> simp only [CmdEnd.after] at h
          · rw [kept_finishCmd, h, hx]
          · rw [h, hx]
        · exact hx
      · exact hx
    have h2 : ∀ x : State, kept x = kept s → kept (match x.safe.forceReset with
        | some req =>
          if x.safe.forced then safeEvent 7 0 req.code { x with safe.forced := false, safe.forceReset := none }
          else { x with safe.forceReset := none }
        | none => x) = kept s := by
      intro x hx
      split
      · split
        · rw [kept_safeEvent, ← hx]; rfl
        · rw [← hx]; rfl
      · exact hx
    refine h2 _ (h1 _ (h0 _ ?_))
    split <;> rfl
  · rfl

theorem kept_safeTick (s : State) : kept (safeTick s) = kept s := by
  rfl

theorem kept_clearHdrs (d : Nat) (s : State) : kept (clearHdrs d s) = kept s := by
  rfl

theorem kept_domEvent (s : State) : kept (domEvent s) = kept s := kept_blockEv 0 1 _ s

theorem kept_pd1Up (s : State) : kept (pd1Up s) = kept s := by
  unfold pd1Up
  simp only [kept_mk, kept_fold, kept_ite, ite_self, after_next, after_done, after_hold, apply_ite CmdEnd.after,
      apply_ite Prod.fst, kept_clearHdrs, kept_judgePeerLost, kept_claimConfig, kept_tripUpdate, kept_foldl,
      kept_iterate]

theorem kept_updEth (p : Nat) (f : EthBlk → EthBlk) (s : State) : kept (updEth p f s) = kept s := by
  rfl

theorem kept_updRing (p : Nat) (q : Nat) (f : EthRing → EthRing) (s : State) : kept (updRing p q f s) = kept s := by
  rfl

theorem kept_ethCount (p : Nat) (j : Nat) (s : State) : kept (ethCount p j s) = kept s := by
  rfl

theorem kept_prpNote (src : BitVec 48) (seq : Half) (s : State) : kept (prpNote src seq s) = kept s := by
  rfl

theorem kept_putWire (p : Nat) (b : List Byte) (s : State) : kept (putWire p b s) = kept s := by
  rfl

theorem kept_ethSend (p : Nat) (b : List Byte) (s : State) : kept (ethSend p b s) = kept s := by
  unfold ethSend
  simp only [kept_mk, kept_fold, kept_ite, ite_self, after_next, after_done, after_hold, apply_ite CmdEnd.after,
      apply_ite Prod.fst, kept_putWire, kept_foldl, kept_iterate]

theorem kept_ethCfgWrite (p : Nat) (value : Word) (s : State) : kept (ethCfgWrite p value s) = kept s := by
  unfold ethCfgWrite
  try dsimp only
  repeat' (first
    | rfl
    | simp only [kept_mk, kept_fold, kept_ite, ite_self, after_next, after_done, after_hold, apply_ite CmdEnd.after,
        apply_ite Prod.fst, kept_pageWriteIf, kept_setSticky, kept_updEth, kept_foldl, kept_iterate]
    | (simp_all [kept_mk, kept_fold, kept_ite, ite_self, after_next, after_done, after_hold, apply_ite CmdEnd.after,
        apply_ite Prod.fst, kept_pageWriteIf, kept_setSticky, kept_updEth]; done)
    | (apply kept_foldl; intros)
    | (apply kept_iterate; intros)
    | split)

theorem kept_ethCtlWrite (p : Nat) (q : Nat) (value : Word) (s : State) : kept (ethCtlWrite p q value s) = kept s :=
    by
  unfold ethCtlWrite
  try dsimp only
  repeat' (first
    | rfl
    | simp only [kept_mk, kept_fold, kept_ite, ite_self, after_next, after_done, after_hold, apply_ite CmdEnd.after,
        apply_ite Prod.fst, kept_pageWrite, kept_updRing, kept_foldl, kept_iterate]
    | (simp_all [kept_mk, kept_fold, kept_ite, ite_self, after_next, after_done, after_hold, apply_ite CmdEnd.after,
        apply_ite Prod.fst, kept_pageWrite, kept_updRing]; done)
    | (apply kept_foldl; intros)
    | (apply kept_iterate; intros)
    | split)

theorem kept_ptpAsk (op : Nat) (req : Requester) (arg : BitVec 24) (s : State) : kept (ptpAsk op req arg s) = kept s
    := by
  unfold ptpAsk
  try dsimp only
  repeat' (first
    | rfl
    | simp only [kept_mk, kept_fold, kept_ite, ite_self, after_next, after_done, after_hold, apply_ite CmdEnd.after,
        apply_ite Prod.fst, kept_issueCmd, kept_foldl, kept_iterate]
    | (simp_all [kept_mk, kept_fold, kept_ite, ite_self, after_next, after_done, after_hold, apply_ite CmdEnd.after,
        apply_ite Prod.fst, kept_issueCmd]; done)
    | (apply kept_foldl; intros)
    | (apply kept_iterate; intros)
    | split)

theorem kept_ptpBoundary (s : State) : kept (ptpBoundary s) = kept s := by
  unfold ptpBoundary
  refine (kept_foldl _ (fun s a => ?_) _ _).trans ?_
  · simp only [kept_blockEv, kept_setSticky, kept_mk, kept_fold]
  · simp only [kept_mk, kept_fold]

theorem kept_ptpNowRead (req : Requester) (s : State) : kept (ptpNowRead req s).1 = kept s := by
  unfold ptpNowRead
  simp only [kept_mk, kept_fold, kept_ite, ite_self, after_next, after_done, after_hold, apply_ite CmdEnd.after,
      apply_ite Prod.fst, kept_offAccess, kept_foldl, kept_iterate]

theorem kept_ptpValid (v : Bool) (s : State) : kept (ptpValid v s) = kept s := by
  unfold ptpValid
  try dsimp only
  repeat' (first
    | rfl
    | simp only [kept_mk, kept_fold, kept_ite, ite_self, after_next, after_done, after_hold, apply_ite CmdEnd.after,
        apply_ite Prod.fst, kept_blockEv, kept_setSticky, kept_foldl, kept_iterate]
    | split)

theorem kept_ptpCtlWrite (value : Word) (s : State) : kept (ptpCtlWrite value s) = kept s := by
  unfold ptpCtlWrite
  try dsimp only
  repeat' (first
    | rfl
    | simp only [kept_mk, kept_fold, kept_ite, ite_self, after_next, after_done, after_hold, apply_ite CmdEnd.after,
        apply_ite Prod.fst, kept_pageWrite, kept_ptpValid, kept_foldl, kept_iterate]
    | (simp_all [kept_mk, kept_fold, kept_ite, ite_self, after_next, after_done, after_hold, apply_ite CmdEnd.after,
        apply_ite Prod.fst, kept_pageWrite, kept_ptpValid]; done)
    | (apply kept_foldl; intros)
    | (apply kept_iterate; intros)
    | split)

theorem kept_hostAnswer (st : Byte) (s : State) : kept (hostAnswer st s) = kept s := by
  rfl

theorem kept_hostRefuse (st : Byte) (s : State) : kept (hostRefuse st s) = kept s := by
  rfl

theorem kept_logEvent (code : Nat) (p : Nat) (detail : Nat) (s : State) : kept (logEvent code p detail s) = kept s :=
    by
  unfold logEvent
  simp only [kept_mk, kept_fold, kept_ite, ite_self, after_next, after_done, after_hold, apply_ite CmdEnd.after,
      apply_ite Prod.fst, kept_blockEv, kept_foldl, kept_iterate]

theorem kept_logFault (p : Nat) (why : Nat) (s : State) : kept (logFault p why s) = kept s := by
  unfold logFault
  simp only [kept_mk, kept_fold, kept_ite, ite_self, after_next, after_done, after_hold, apply_ite CmdEnd.after,
      apply_ite Prod.fst, kept_logEvent, kept_foldl, kept_iterate]

theorem kept_sampleReady (c : Nat) (m : Conversion) (s : State) : kept (sampleReady c m s) = kept s := by
  unfold sampleReady
  try dsimp only
  repeat' (first
    | with_reducible rfl
    | (apply kept_foldl; intros)
    | (apply kept_iterate; intros)
    | (simp only [kept_mk, kept_fold, kept_ite, ite_self, after_next, after_done, after_hold, apply_ite CmdEnd.after,
        apply_ite Prod.fst, kept_sampleUc, kept_capSample, kept_sampleLi]; done)
    | split
    | simp only [kept_mk, kept_fold, kept_ite, ite_self, after_next, after_done, after_hold, apply_ite CmdEnd.after,
        apply_ite Prod.fst, kept_sampleUc, kept_capSample, kept_sampleLi])

theorem kept_appendLog (req : Requester) (arg : BitVec 24) (s : State) : kept (appendLog req arg s) = kept s := by
  refine kept_issueCmd _ _ _ _ _ _ (fun s => ?_)
  dsimp only
  split
  · rfl
  · split
    · rfl
    · split
      · rfl
      · rw [after_done]
        exact kept_foldl _ (fun s r => kept_ringPut 1 _ s) _ _

theorem kept_captureCmd (req : Requester) (arg : BitVec 24) (s : State) : kept (captureCmd req arg s) = kept s := by
  unfold captureCmd
  try dsimp only
  repeat' (first
    | rfl
    | simp only [kept_mk, kept_fold, kept_ite, ite_self, after_next, after_done, after_hold, apply_ite CmdEnd.after,
        apply_ite Prod.fst, kept_issueCmd, kept_foldl, kept_iterate]
    | (simp_all [kept_mk, kept_fold, kept_ite, ite_self, after_next, after_done, after_hold, apply_ite CmdEnd.after,
        apply_ite Prod.fst, kept_issueCmd]; done)
    | (apply kept_foldl; intros)
    | (apply kept_iterate; intros)
    | split)

theorem kept_logBoundary (s : State) : kept (logBoundary s) = kept s := by
  unfold logBoundary
  dsimp only
  have h : kept ((List.range 8).foldl (fun s c => updCap c (fun x => { x with cfgF := x.cfg }) s) s) = kept s :=
    kept_foldl _ (fun s c => kept_updCap c _ s) _ _
  generalize (List.range 8).foldl (fun s c => updCap c (fun x => { x with cfgF := x.cfg }) s) s = x at h ⊢
  split
  · rw [kept_endIfRunning, kept_foldl _ (fun s c => kept_capTrigger c _ s), ← h]; rfl
  · exact h

theorem kept_wearJudge (s : State) : kept (wearJudge s) = kept s := by
  unfold wearJudge
  simp only [kept_mk, kept_fold, kept_ite, ite_self, after_next, after_done, after_hold, apply_ite CmdEnd.after,
      apply_ite Prod.fst, kept_logEvent, kept_foldl, kept_iterate]

theorem kept_commitItems (p : Nat) (n : Nat) (s : State) : kept (commitItems p n s) = kept s := by
  unfold commitItems
  try dsimp only
  repeat' (first
    | rfl
    | simp only [kept_mk, kept_fold, kept_ite, ite_self, after_next, after_done, after_hold, apply_ite CmdEnd.after,
        apply_ite Prod.fst, kept_updPart, kept_foldl, kept_iterate]
    | split)

theorem kept_discardPages (p : Nat) (l : List (Word × Nat)) (s : State) : kept (discardPages p l s) = kept s := by
  unfold discardPages
  try dsimp only
  repeat' (first
    | rfl
    | simp only [kept_mk, kept_fold, kept_ite, ite_self, after_next, after_done, after_hold, apply_ite CmdEnd.after,
        apply_ite Prod.fst, kept_logEvent, kept_updPart, kept_foldl, kept_iterate]
    | (simp_all [kept_mk, kept_fold, kept_ite, ite_self, after_next, after_done, after_hold, apply_ite CmdEnd.after,
        apply_ite Prod.fst, kept_logEvent, kept_updPart]; done)
    | (apply kept_foldl; intros)
    | (apply kept_iterate; intros)
    | split)

theorem kept_commitAll (s : State) : kept (commitAll s) = kept s := by
  unfold commitAll
  try dsimp only
  repeat' (first
    | with_reducible rfl
    | (apply kept_foldl; intros)
    | (apply kept_iterate; intros)
    | (simp only [kept_mk, kept_fold, kept_ite, ite_self, after_next, after_done, after_hold, apply_ite CmdEnd.after,
        apply_ite Prod.fst, kept_updPart]; done)
    | split
    | simp only [kept_mk, kept_fold, kept_ite, ite_self, after_next, after_done, after_hold, apply_ite CmdEnd.after,
        apply_ite Prod.fst, kept_updPart])

theorem kept_logStop (s : State) : kept (logStop s) = kept s := by
  unfold logStop
  try dsimp only
  repeat' (first
    | with_reducible rfl
    | (apply kept_foldl; intros)
    | (apply kept_iterate; intros)
    | (simp only [kept_mk, kept_fold, kept_ite, ite_self, after_next, after_done, after_hold, apply_ite CmdEnd.after,
        apply_ite Prod.fst, kept_updPart, kept_commitAll, kept_trendSpoil]; done)
    | split
    | simp only [kept_mk, kept_fold, kept_ite, ite_self, after_next, after_done, after_hold, apply_ite CmdEnd.after,
        apply_ite Prod.fst, kept_updPart, kept_commitAll, kept_trendSpoil])

theorem kept_archiveImage (x : Bool × Nat) (s : State) : kept (archiveImage x s) = kept s := by
  unfold archiveImage
  try dsimp only
  repeat' (first
    | rfl
    | simp only [kept_mk, kept_fold, kept_ite, ite_self, after_next, after_done, after_hold, apply_ite CmdEnd.after,
        apply_ite Prod.fst, kept_ringPut, kept_updPart, kept_logEvent, kept_foldl, kept_iterate]
    | split)

theorem kept_updArea (k : Nat) (f : PanelArea → PanelArea) (s : State) : kept (updArea k f s) = kept s := by
  rfl

theorem kept_panelEvent (code : Nat) (k : Nat) (detail : Nat) (s : State) : kept (panelEvent code k detail s) = kept s
    := by
  unfold panelEvent
  simp only [kept_mk, kept_fold, kept_ite, ite_self, after_next, after_done, after_hold, apply_ite CmdEnd.after,
      apply_ite Prod.fst, kept_blockEv, kept_foldl, kept_iterate]

theorem kept_beginRun (k : Nat) (r : Rect) (fast : Bool) (pix : List Byte) (s : State) : kept (beginRun k r fast pix
    s) = kept s := by
  rfl

theorem kept_panelUpdate (req : Requester) (arg : BitVec 24) (s : State) : kept (panelUpdate req arg s) = kept s := by
  unfold panelUpdate
  try dsimp only
  repeat' (first
    | rfl
    | simp only [kept_mk, kept_fold, kept_ite, ite_self, after_next, after_done, after_hold, apply_ite CmdEnd.after,
        apply_ite Prod.fst, kept_issueCmd, kept_dropPanelPend, kept_updArea, kept_foldl, kept_iterate]
    | (simp_all [kept_mk, kept_fold, kept_ite, ite_self, after_next, after_done, after_hold, apply_ite CmdEnd.after,
        apply_ite Prod.fst, kept_issueCmd, kept_dropPanelPend, kept_updArea]; done)
    | (apply kept_foldl; intros)
    | (apply kept_iterate; intros)
    | split)

theorem kept_panelCancel (req : Requester) (arg : BitVec 24) (s : State) : kept (panelCancel req arg s) = kept s := by
  unfold panelCancel
  try dsimp only
  repeat' (first
    | rfl
    | simp only [kept_mk, kept_fold, kept_ite, ite_self, after_next, after_done, after_hold, apply_ite CmdEnd.after,
        apply_ite Prod.fst, kept_issueCmd, kept_updArea, kept_foldl, kept_iterate]
    | (simp_all [kept_mk, kept_fold, kept_ite, ite_self, after_next, after_done, after_hold, apply_ite CmdEnd.after,
        apply_ite Prod.fst, kept_issueCmd, kept_updArea]; done)
    | (apply kept_foldl; intros)
    | (apply kept_iterate; intros)
    | split)

theorem kept_dropAllPend (s : State) : kept (dropAllPend s) = kept s := by
  unfold dropAllPend
  try dsimp only
  repeat' (first
    | with_reducible rfl
    | (apply kept_foldl; intros)
    | (apply kept_iterate; intros)
    | (simp only [kept_mk, kept_fold, kept_ite, ite_self, after_next, after_done, after_hold, apply_ite CmdEnd.after,
        apply_ite Prod.fst, kept_dropPanelPend]; done)
    | split
    | simp only [kept_mk, kept_fold, kept_ite, ite_self, after_next, after_done, after_hold, apply_ite CmdEnd.after,
        apply_ite Prod.fst, kept_dropPanelPend])

theorem kept_clearPanel (req : Requester) (arg : BitVec 24) (s : State) : kept (clearPanel req arg s) = kept s := by
  refine kept_issueCmd _ _ _ _ _ _ (fun s => ?_)
  split
  · rfl
  · split
    · rfl
    · simp only [after_done, kept_mk, kept_fold, kept_dropAllPend]

theorem kept_startWhole (s : State) : kept (startWhole s) = kept s := by
  unfold startWhole
  simp only [kept_mk, kept_fold, kept_ite, ite_self, after_next, after_done, after_hold, apply_ite CmdEnd.after,
      apply_ite Prod.fst, kept_beginRun, kept_foldl, kept_iterate]

theorem kept_showRun (r : PanelRun) (s : State) : kept (showRun r s) = kept s := by
  rfl

theorem kept_areaDone (k : Nat) (r : PanelRun) (s : State) : kept (areaDone k r s) = kept s := by
  unfold areaDone
  simp only [kept_mk, kept_fold, kept_ite, ite_self, after_next, after_done, after_hold, apply_ite CmdEnd.after,
      apply_ite Prod.fst, kept_panelEvent, kept_showRun, kept_foldl, kept_iterate]

theorem kept_wholeDone (s : State) : kept (wholeDone s) = kept s := by
  unfold wholeDone
  simp only [kept_mk, kept_fold, kept_ite, ite_self, after_next, after_done, after_hold, apply_ite CmdEnd.after,
      apply_ite Prod.fst, kept_panelEvent, kept_foldl, kept_iterate]

theorem kept_panelLoss (s : State) : kept (panelLoss s) = kept s := by
  unfold panelLoss
  try dsimp only
  repeat' (first
    | with_reducible rfl
    | (apply kept_foldl; intros)
    | (apply kept_iterate; intros)
    | (simp only [kept_mk, kept_fold, kept_ite, ite_self, after_next, after_done, after_hold, apply_ite CmdEnd.after,
        apply_ite Prod.fst, kept_dropAllPend]; done)
    | split
    | simp only [kept_mk, kept_fold, kept_ite, ite_self, after_next, after_done, after_hold, apply_ite CmdEnd.after,
        apply_ite Prod.fst, kept_dropAllPend])

theorem kept_icuArrive (src : IcuId) (s : State) : kept (icuArrive src s) = kept s := by
  unfold icuArrive
  try dsimp only
  repeat' (first
    | rfl
    | simp only [kept_mk, kept_fold, kept_ite, ite_self, after_next, after_done, after_hold, apply_ite CmdEnd.after,
        apply_ite Prod.fst, kept_updHdr, kept_foldl, kept_iterate]
    | split)

theorem kept_icuFresh (s : State) : kept (icuFresh s) = kept s := by
  rfl

theorem kept_icuSwi (t : Fin 5) (value : Word) (s : State) : kept (icuSwi t value s) = kept s := by
  exact kept_pageWrite _ _ _ (fun _ => rfl)

theorem kept_icuClaim (t : Nat) (s : State) : kept (icuClaim t s) = kept s := by
  unfold icuClaim
  try dsimp only
  repeat' (first
    | rfl
    | simp only [kept_mk, kept_fold, kept_ite, ite_self, after_next, after_done, after_hold, apply_ite CmdEnd.after,
        apply_ite Prod.fst, kept_foldl, kept_iterate]
    | split)

theorem kept_icuSleep (s : State) : kept (icuSleep s) = kept s := by
  rfl

theorem kept_icuClaimRead (req : Requester) (t : Fin 5) (s : State) : kept (icuClaimRead req t s) = kept s := by
  unfold icuClaimRead
  simp only [kept_mk, kept_fold, kept_ite, ite_self, after_next, after_done, after_hold, apply_ite CmdEnd.after,
      apply_ite Prod.fst, kept_icuClaim, kept_offAccess, kept_foldl, kept_iterate]

theorem kept_icuPop (t : Nat) (id : Nat) (s : State) : kept (icuPop t id s) = kept s := by
  unfold icuPop
  simp only [kept_mk, kept_fold, kept_ite, ite_self, after_next, after_done, after_hold, apply_ite CmdEnd.after,
      apply_ite Prod.fst, kept_foldl, kept_iterate]

theorem kept_icuReject (t : Nat) (id : Nat) (s : State) : kept (icuReject t id s) = kept s := by
  unfold icuReject
  simp only [kept_mk, kept_fold, kept_ite, ite_self, after_next, after_done, after_hold, apply_ite CmdEnd.after,
      apply_ite Prod.fst, kept_raiseEv, kept_foldl, kept_iterate]

theorem kept_icuEoi (req : Requester) (t : Fin 5) (value : Word) (s : State) : kept (icuEoi req t value s) = kept s :=
    by
  unfold icuEoi
  try dsimp only
  repeat' (first
    | rfl
    | simp only [kept_mk, kept_fold, kept_ite, ite_self, after_next, after_done, after_hold, apply_ite CmdEnd.after,
        apply_ite Prod.fst, kept_pageWriteIf, kept_setSticky, kept_icuPop, kept_icuReject, kept_foldl, kept_iterate]
    | (simp_all [kept_mk, kept_fold, kept_ite, ite_self, after_next, after_done, after_hold, apply_ite CmdEnd.after,
        apply_ite Prod.fst, kept_pageWriteIf, kept_setSticky, kept_icuPop, kept_icuReject]; done)
    | (apply kept_foldl; intros)
    | (apply kept_iterate; intros)
    | split)

theorem kept_icuTiersWrite (hi : Bool) (value : Word) (s : State) : kept (icuTiersWrite hi value s) = kept s := by
  unfold icuTiersWrite
  try dsimp only
  repeat' (first
    | rfl
    | simp only [kept_mk, kept_fold, kept_ite, ite_self, after_next, after_done, after_hold, apply_ite CmdEnd.after,
        apply_ite Prod.fst, kept_pageWriteIf, kept_setSticky, kept_foldl, kept_iterate]
    | (simp_all [kept_mk, kept_fold, kept_ite, ite_self, after_next, after_done, after_hold, apply_ite CmdEnd.after,
        apply_ite Prod.fst, kept_pageWriteIf, kept_setSticky]; done)
    | (apply kept_foldl; intros)
    | (apply kept_iterate; intros)
    | split)

theorem kept_icuSrcCfgWrite (req : Requester) (i : Fin 256) (value : Word) (s : State) : kept (icuSrcCfgWrite req i
    value s) = kept s := by
  exact kept_pageWrite _ _ _ (fun _ => rfl)

theorem kept_sysEvent (code : Nat) (detail : Nat) (s : State) : kept (sysEvent code detail s) = kept s := by
  unfold sysEvent
  simp only [kept_mk, kept_fold, kept_ite, ite_self, after_next, after_done, after_hold, apply_ite CmdEnd.after,
      apply_ite Prod.fst, kept_blockEv, kept_foldl, kept_iterate]

theorem kept_supEvent (code : Nat) (detail : Nat) (s : State) : kept (supEvent code detail s) = kept s := by
  unfold supEvent
  simp only [kept_mk, kept_fold, kept_ite, ite_self, after_next, after_done, after_hold, apply_ite CmdEnd.after,
      apply_ite Prod.fst, kept_blockEv, kept_foldl, kept_iterate]

theorem kept_netReset (s : State) : kept (netReset s) = kept s := by
  rfl

theorem kept_courseOff (s : State) : kept (courseOff s) = kept s := by
  rfl

theorem kept_safetyOff (s : State) : kept (safetyOff s) = kept s := by
  unfold safetyOff
  simp only [kept_mk, kept_fold, kept_ite, ite_self, after_next, after_done, after_hold, apply_ite CmdEnd.after,
      apply_ite Prod.fst, kept_foldl, kept_iterate]

theorem kept_tilesOff (lo : Nat) (hi : Nat) (s : State) : kept (tilesOff lo hi s) = kept s := by
  unfold tilesOff
  dsimp only
  rw [kept_foldl (fun s n => ucResolve n s) (fun s n => kept_ucResolve n s), kept_hartAbort,
    kept_foldl (fun s t => abortTileTests t s) (fun s t => kept_abortTileTests t s)]

theorem kept_judgeJournal (s : State) : kept (judgeJournal s) = kept s := by
  unfold judgeJournal
  try dsimp only
  repeat' (first
    | with_reducible rfl
    | (apply kept_foldl; intros)
    | (apply kept_iterate; intros)
    | (simp only [kept_mk, kept_fold, kept_ite, ite_self, after_next, after_done, after_hold, apply_ite CmdEnd.after,
        apply_ite Prod.fst, kept_setLstat]; done)
    | split
    | simp only [kept_mk, kept_fold, kept_ite, ite_self, after_next, after_done, after_hold, apply_ite CmdEnd.after,
        apply_ite Prod.fst, kept_setLstat])

theorem kept_noImage (s : State) : kept (noImage s) = kept s := by
  rfl

theorem kept_bootLoad (s : State) : kept (bootLoad s) = kept s := by
  unfold bootLoad
  dsimp only
  repeat' (first | with_reducible rfl | split)
  all_goals simp only [kept_mk, kept_fold, kept_setLstat, kept_planEvent, kept_noImage, kept_judgeJournal]

theorem kept_fieldUp (s : State) : kept (fieldUp s) = kept s := by
  unfold fieldUp
  dsimp only
  rw [kept_foldl _ (fun s k => kept_updDig k _ s),
    kept_foldl (fun s k => loadPlanRegs (80 + k) s) (fun s k => kept_loadPlanRegs _ s)]
  rfl

theorem kept_tilesUp (lo : Nat) (hi : Nat) (s : State) : kept (tilesUp lo hi s) = kept s := by
  unfold tilesUp
  try dsimp only
  repeat' (first
    | rfl
    | simp only [kept_mk, kept_fold, kept_ite, ite_self, after_next, after_done, after_hold, apply_ite CmdEnd.after,
        apply_ite Prod.fst, kept_tileTake, kept_tileRegs, kept_resetTileCal, kept_updTile, kept_foldl, kept_iterate]
    | (simp_all [kept_mk, kept_fold, kept_ite, ite_self, after_next, after_done, after_hold, apply_ite CmdEnd.after,
        apply_ite Prod.fst, kept_tileTake, kept_tileRegs, kept_resetTileCal, kept_updTile]; done)
    | (apply kept_foldl; intros)
    | (apply kept_iterate; intros)
    | split)

theorem kept_endSwitch (s : State) : kept (endSwitch s) = kept s := by
  unfold endSwitch
  try dsimp only
  repeat' (first
    | rfl
    | simp only [kept_mk, kept_fold, kept_ite, ite_self, after_next, after_done, after_hold, apply_ite CmdEnd.after,
        apply_ite Prod.fst, kept_endIfRunning, kept_foldl, kept_iterate]
    | split)

theorem kept_resetCmd (req : Requester) (arg : BitVec 24) (s : State) : kept (resetCmd req arg s) = kept s := by
  unfold resetCmd
  try dsimp only
  repeat' (first
    | rfl
    | simp only [kept_mk, kept_fold, kept_ite, ite_self, after_next, after_done, after_hold, apply_ite CmdEnd.after,
        apply_ite Prod.fst, kept_issueCmd, kept_foldl, kept_iterate]
    | (simp_all [kept_mk, kept_fold, kept_ite, ite_self, after_next, after_done, after_hold, apply_ite CmdEnd.after,
        apply_ite Prod.fst, kept_issueCmd]; done)
    | (apply kept_foldl; intros)
    | (apply kept_iterate; intros)
    | split)

theorem kept_domainCmd (on : Bool) (req : Requester) (arg : BitVec 24) (s : State) : kept (domainCmd on req arg s) =
    kept s := by
  refine kept_issueCmd _ _ _ _ _ _ (fun s => ?_)
  dsimp only
  repeat' (first | with_reducible rfl | split)
  all_goals simp only [after_hold, after_done, kept_ite, kept_dropAllPend, kept_mk, kept_fold, ite_self]

theorem kept_clkDiscWrite (value : Word) (s : State) : kept (clkDiscWrite value s) = kept s := by
  exact kept_pageWrite _ _ _ (fun _ => rfl)

theorem kept_faultCourse (e : Nat) (cause : BitVec 2) (s : State) : kept (faultCourse e cause s) = kept s := by
  unfold faultCourse
  simp only [kept_mk, kept_fold, kept_ite, ite_self, after_next, after_done, after_hold, apply_ite CmdEnd.after,
      apply_ite Prod.fst, kept_setSticky, kept_blockEv, kept_orderYield, kept_foldl, kept_iterate]

theorem kept_courseOverrun (s : State) : kept (courseOverrun s) = kept s := by
  unfold courseOverrun
  simp only [kept_mk, kept_fold, kept_ite, ite_self, after_next, after_done, after_hold, apply_ite CmdEnd.after,
      apply_ite Prod.fst, kept_faultCourse, kept_foldl, kept_iterate]

theorem kept_endCourse (s : State) : kept (endCourse s) = kept s := by
  unfold endCourse
  simp only [kept_mk, kept_fold, kept_ite, ite_self, after_next, after_done, after_hold, apply_ite CmdEnd.after,
      apply_ite Prod.fst, kept_squarePublish, kept_foldl, kept_iterate]

theorem kept_sendSync (s : State) : kept (sendSync s) = kept s := by
  unfold sendSync
  simp only [kept_mk, kept_fold, kept_ite, ite_self, after_next, after_done, after_hold, apply_ite CmdEnd.after,
      apply_ite Prod.fst, kept_buildSync, kept_foldl, kept_iterate]

theorem kept_wallEnd (s : State) : kept (wallEnd s) = kept s := by
  unfold wallEnd
  try dsimp only
  repeat' (first
    | rfl
    | simp only [kept_mk, kept_fold, kept_ite, ite_self, after_next, after_done, after_hold, apply_ite CmdEnd.after,
        apply_ite Prod.fst, kept_updTileCal, kept_foldl, kept_iterate]
    | (simp_all [kept_mk, kept_fold, kept_ite, ite_self, after_next, after_done, after_hold, apply_ite CmdEnd.after,
        apply_ite Prod.fst, kept_updTileCal]; done)
    | (apply kept_foldl; intros)
    | (apply kept_iterate; intros)
    | split)

theorem kept_warmTick (s : State) : kept (warmTick s) = kept s := by
  unfold warmTick
  try dsimp only
  repeat' (first
    | rfl
    | simp only [kept_mk, kept_fold, kept_ite, ite_self, after_next, after_done, after_hold, apply_ite CmdEnd.after,
        apply_ite Prod.fst, kept_updTile, kept_foldl, kept_iterate]
    | (simp_all [kept_mk, kept_fold, kept_ite, ite_self, after_next, after_done, after_hold, apply_ite CmdEnd.after,
        apply_ite Prod.fst, kept_updTile]; done)
    | (apply kept_foldl; intros)
    | (apply kept_iterate; intros)
    | split)

theorem kept_nextCourse (s : State) : kept (nextCourse s) = kept s := by
  unfold nextCourse
  simp only [kept_mk, kept_fold, kept_ite, ite_self, after_next, after_done, after_hold, apply_ite CmdEnd.after,
      apply_ite Prod.fst, kept_warmTick, kept_wallEnd, kept_foldl, kept_iterate]

theorem kept_showRestored (src : List (Nat × Bool × Nat)) (s : State) : kept (showRestored src s) = kept s := by
  unfold showRestored
  try dsimp only
  repeat' (first
    | rfl
    | simp only [kept_mk, kept_fold, kept_ite, ite_self, after_next, after_done, after_hold, apply_ite CmdEnd.after,
        apply_ite Prod.fst, kept_planEvent, kept_updDistrict, kept_foldl, kept_iterate]
    | (simp_all [kept_mk, kept_fold, kept_ite, ite_self, after_next, after_done, after_hold, apply_ite CmdEnd.after,
        apply_ite Prod.fst, kept_planEvent, kept_updDistrict]; done)
    | (apply kept_foldl; intros)
    | (apply kept_iterate; intros)
    | split)

theorem kept_completeUpdate (n : Nat) (s : State) : kept (completeUpdate n s) = kept s := by
  unfold completeUpdate
  simp only [kept_mk, kept_fold, kept_ite, ite_self, after_next, after_done, after_hold, apply_ite CmdEnd.after,
      apply_ite Prod.fst, kept_updDistrict, kept_planEvent, kept_foldl, kept_iterate]

theorem kept_stepDistrict (n : Nat) (s : State) : kept (stepDistrict n s) = kept s := by
  unfold stepDistrict
  split
  · dsimp only
    rw [kept_ite, kept_completeUpdate, kept_updDistrict, kept_applyStep, ite_self]
  · rfl

theorem kept_districtsBoundary (s : State) : kept (districtsBoundary s) = kept s := by
  unfold districtsBoundary
  try dsimp only
  repeat' (first
    | with_reducible rfl
    | (apply kept_foldl; intros)
    | (apply kept_iterate; intros)
    | (simp only [kept_mk, kept_fold, kept_ite, ite_self, after_next, after_done, after_hold, apply_ite CmdEnd.after,
        apply_ite Prod.fst, kept_stepDistrict]; done)
    | split
    | simp only [kept_mk, kept_fold, kept_ite, ite_self, after_next, after_done, after_hold, apply_ite CmdEnd.after,
        apply_ite Prod.fst, kept_stepDistrict])

theorem kept_takeSnapshot (s : State) : kept (takeSnapshot s) = kept s := by
  rfl

theorem kept_takeRegs (s : State) : kept (takeRegs s) = kept s := by
  unfold takeRegs
  dsimp only
  have h1 := kept_foldl (fun s n => if chanUp s n then ucTake n s else s)
    (fun s n => by simp only [kept_ite, kept_ucTake, ite_self]) (List.range 32) s
  have h2 := kept_foldl (fun s n => if chanUp s (32 + n) then liTake n s else s)
    (fun s n => by simp only [kept_ite, kept_liTake, ite_self]) (List.range 48)
  split
  · rw [kept_foldl _ (fun s k => kept_digTake k s), h2, h1]
  · rw [h2, h1]

theorem kept_clearRose (s : State) : kept (clearRose s) = kept s := by
  unfold clearRose
  simp only [kept_mk, kept_fold, kept_ite, ite_self, after_next, after_done, after_hold, apply_ite CmdEnd.after,
      apply_ite Prod.fst, kept_foldl, kept_iterate]

theorem kept_recordsBoundary (s : State) : kept (recordsBoundary s) = kept s := by
  rfl

theorem kept_setField (p : Nat) (f : State → State) (s : State) (hf : ∀ s, kept (f s) = kept s) : kept (setField p f
    s) = kept s := by
  exact kept_pageWrite p f s hf

theorem kept_icuRegWrite (req : Requester) (off : Nat) (v : Word) (s : State) : kept (icuRegWrite req off v s) = kept
    s := by
  unfold icuRegWrite
  try dsimp only
  repeat' (first
    | with_reducible rfl
    | exact kept_setField _ _ _ (fun _ => rfl)
    | (apply kept_foldl; intros)
    | (apply kept_iterate; intros)
    | (simp only [kept_mk, kept_fold, kept_ite, ite_self, after_next, after_done, after_hold, apply_ite CmdEnd.after,
        apply_ite Prod.fst, kept_icuTiersWrite, kept_icuSrcCfgWrite, kept_setField]; done)
    | split
    | simp only [kept_mk, kept_fold, kept_ite, ite_self, after_next, after_done, after_hold, apply_ite CmdEnd.after,
        apply_ite Prod.fst, kept_icuTiersWrite, kept_icuSrcCfgWrite, kept_setField])

theorem kept_icuTargetWrite (req : Requester) (t : Nat) (off : Nat) (v : Word) (s : State) : kept (icuTargetWrite req
    t off v s) = kept s := by
  unfold icuTargetWrite
  try dsimp only
  repeat' (first
    | with_reducible rfl
    | exact kept_setField _ _ _ (fun _ => rfl)
    | (apply kept_foldl; intros)
    | (apply kept_iterate; intros)
    | (simp only [kept_mk, kept_fold, kept_ite, ite_self, after_next, after_done, after_hold, apply_ite CmdEnd.after,
        apply_ite Prod.fst, kept_icuEoi, kept_setField, kept_icuSwi]; done)
    | split
    | simp only [kept_mk, kept_fold, kept_ite, ite_self, after_next, after_done, after_hold, apply_ite CmdEnd.after,
        apply_ite Prod.fst, kept_icuEoi, kept_setField, kept_icuSwi])

theorem kept_planRegWrite (off : Nat) (v : Word) (s : State) : kept (planRegWrite off v s) = kept s := by
  unfold planRegWrite
  try dsimp only
  repeat' (first
    | with_reducible rfl
    | exact kept_setField _ _ _ (fun _ => rfl)
    | (apply kept_foldl; intros)
    | (apply kept_iterate; intros)
    | (simp only [kept_mk, kept_fold, kept_ite, ite_self, after_next, after_done, after_hold, apply_ite CmdEnd.after,
        apply_ite Prod.fst, kept_setField]; done)
    | split
    | simp only [kept_mk, kept_fold, kept_ite, ite_self, after_next, after_done, after_hold, apply_ite CmdEnd.after,
        apply_ite Prod.fst, kept_setField])

theorem kept_alarmRegWrite (req : Requester) (off : Nat) (v : Word) (s : State) : kept (alarmRegWrite req off v s) =
    kept s := by
  unfold alarmRegWrite
  try dsimp only
  repeat' (first
    | with_reducible rfl
    | exact kept_setField _ _ _ (fun _ => rfl)
    | (apply kept_foldl; intros)
    | (apply kept_iterate; intros)
    | (simp only [kept_mk, kept_fold, kept_ite, ite_self, after_next, after_done, after_hold, apply_ite CmdEnd.after,
        apply_ite Prod.fst, kept_setField]; done)
    | split
    | simp only [kept_mk, kept_fold, kept_ite, ite_self, after_next, after_done, after_hold, apply_ite CmdEnd.after,
        apply_ite Prod.fst, kept_setField])

theorem kept_evqRegWrite (req : Requester) (off : Nat) (v : Word) (s : State) : kept (evqRegWrite req off v s) = kept
    s := by
  unfold evqRegWrite
  try dsimp only
  repeat' (first
    | with_reducible rfl
    | exact kept_setField _ _ _ (fun _ => rfl)
    | (apply kept_foldl; intros)
    | (apply kept_iterate; intros)
    | (simp only [kept_mk, kept_fold, kept_ite, ite_self, after_next, after_done, after_hold, apply_ite CmdEnd.after,
        apply_ite Prod.fst, kept_setField, kept_evqCtlWrite, kept_evqPop]; done)
    | split
    | simp only [kept_mk, kept_fold, kept_ite, ite_self, after_next, after_done, after_hold, apply_ite CmdEnd.after,
        apply_ite Prod.fst, kept_setField, kept_evqCtlWrite, kept_evqPop])

theorem kept_safeRegWrite (req : Requester) (off : Nat) (v : Word) (s : State) : kept (safeRegWrite req off v s) =
    kept s := by
  unfold safeRegWrite
  try dsimp only
  repeat' (first
    | with_reducible rfl
    | exact kept_setField _ _ _ (fun _ => rfl)
    | (apply kept_foldl; intros)
    | (apply kept_iterate; intros)
    | (simp only [kept_mk, kept_fold, kept_ite, ite_self, after_next, after_done, after_hold, apply_ite CmdEnd.after,
        apply_ite Prod.fst, kept_setField]; done)
    | split
    | simp only [kept_mk, kept_fold, kept_ite, ite_self, after_next, after_done, after_hold, apply_ite CmdEnd.after,
        apply_ite Prod.fst, kept_setField])

theorem kept_redRegWrite (off : Nat) (v : Word) (s : State) : kept (redRegWrite off v s) = kept s := by
  unfold redRegWrite
  try dsimp only
  repeat' (first
    | with_reducible rfl
    | exact kept_setField _ _ _ (fun _ => rfl)
    | (apply kept_foldl; intros)
    | (apply kept_iterate; intros)
    | (simp only [kept_mk, kept_fold, kept_ite, ite_self, after_next, after_done, after_hold, apply_ite CmdEnd.after,
        apply_ite Prod.fst, kept_setField]; done)
    | split
    | simp only [kept_mk, kept_fold, kept_ite, ite_self, after_next, after_done, after_hold, apply_ite CmdEnd.after,
        apply_ite Prod.fst, kept_setField])

theorem kept_utRegWrite (t : Nat) (off : Nat) (v : Word) (s : State) : kept (utRegWrite t off v s) = kept s := by
  unfold utRegWrite
  try dsimp only
  repeat' (first
    | with_reducible rfl
    | exact kept_setField _ _ _ (fun _ => rfl)
    | (apply kept_foldl; intros)
    | (apply kept_iterate; intros)
    | (simp only [kept_mk, kept_fold, kept_ite, ite_self, after_next, after_done, after_hold, apply_ite CmdEnd.after,
        apply_ite Prod.fst, kept_setField, kept_updUc, kept_ucCfgWrite, kept_ucOctlWrite]; done)
    | split
    | simp only [kept_mk, kept_fold, kept_ite, ite_self, after_next, after_done, after_hold, apply_ite CmdEnd.after,
        apply_ite Prod.fst, kept_setField, kept_updUc, kept_ucCfgWrite, kept_ucOctlWrite])

theorem kept_ltRegWrite (t : Nat) (off : Nat) (v : Word) (s : State) : kept (ltRegWrite t off v s) = kept s := by
  unfold ltRegWrite
  try dsimp only
  repeat' (first
    | with_reducible rfl
    | exact kept_setField _ _ _ (fun _ => rfl)
    | (apply kept_foldl; intros)
    | (apply kept_iterate; intros)
    | (simp only [kept_mk, kept_fold, kept_ite, ite_self, after_next, after_done, after_hold, apply_ite CmdEnd.after,
        apply_ite Prod.fst, kept_liCfgWrite, kept_setField, kept_updLi]; done)
    | split
    | simp only [kept_mk, kept_fold, kept_ite, ite_self, after_next, after_done, after_hold, apply_ite CmdEnd.after,
        apply_ite Prod.fst, kept_liCfgWrite, kept_setField, kept_updLi])

theorem kept_calRegWrite (off : Nat) (v : Word) (s : State) : kept (calRegWrite off v s) = kept s := by
  unfold calRegWrite
  try dsimp only
  repeat' (first
    | with_reducible rfl
    | exact kept_setField _ _ _ (fun _ => rfl)
    | (apply kept_foldl; intros)
    | (apply kept_iterate; intros)
    | (simp only [kept_mk, kept_fold, kept_ite, ite_self, after_next, after_done, after_hold, apply_ite CmdEnd.after,
        apply_ite Prod.fst, kept_setField]; done)
    | split
    | simp only [kept_mk, kept_fold, kept_ite, ite_self, after_next, after_done, after_hold, apply_ite CmdEnd.after,
        apply_ite Prod.fst, kept_setField])

theorem kept_hartRegWrite (off : Nat) (v : Word) (s : State) : kept (hartRegWrite off v s) = kept s := by
  unfold hartRegWrite
  try dsimp only
  repeat' (first
    | with_reducible rfl
    | exact kept_setField _ _ _ (fun _ => rfl)
    | (apply kept_foldl; intros)
    | (apply kept_iterate; intros)
    | (simp only [kept_mk, kept_fold, kept_ite, ite_self, after_next, after_done, after_hold, apply_ite CmdEnd.after,
        apply_ite Prod.fst, kept_setField, kept_hartDescWrite]; done)
    | split
    | simp only [kept_mk, kept_fold, kept_ite, ite_self, after_next, after_done, after_hold, apply_ite CmdEnd.after,
        apply_ite Prod.fst, kept_setField, kept_hartDescWrite])

theorem kept_dioRegWrite (off : Nat) (v : Word) (s : State) : kept (dioRegWrite off v s) = kept s := by
  unfold dioRegWrite
  try dsimp only
  repeat' (first
    | with_reducible rfl
    | exact kept_setField _ _ _ (fun _ => rfl)
    | (apply kept_foldl; intros)
    | (apply kept_iterate; intros)
    | (simp only [kept_mk, kept_fold, kept_ite, ite_self, after_next, after_done, after_hold, apply_ite CmdEnd.after,
        apply_ite Prod.fst, kept_digCfgWrite, kept_setField, kept_updDig, kept_dioOctlWrite]; done)
    | split
    | simp only [kept_mk, kept_fold, kept_ite, ite_self, after_next, after_done, after_hold, apply_ite CmdEnd.after,
        apply_ite Prod.fst, kept_digCfgWrite, kept_setField, kept_updDig, kept_dioOctlWrite])

theorem kept_diRegWrite (off : Nat) (v : Word) (s : State) : kept (diRegWrite off v s) = kept s := by
  unfold diRegWrite
  try dsimp only
  repeat' (first
    | with_reducible rfl
    | exact kept_setField _ _ _ (fun _ => rfl)
    | (apply kept_foldl; intros)
    | (apply kept_iterate; intros)
    | (simp only [kept_mk, kept_fold, kept_ite, ite_self, after_next, after_done, after_hold, apply_ite CmdEnd.after,
        apply_ite Prod.fst, kept_digCfgWrite, kept_setField, kept_updDig]; done)
    | split
    | simp only [kept_mk, kept_fold, kept_ite, ite_self, after_next, after_done, after_hold, apply_ite CmdEnd.after,
        apply_ite Prod.fst, kept_digCfgWrite, kept_setField, kept_updDig])

theorem kept_canRegWrite (n : Nat) (off : Nat) (v : Word) (s : State) : kept (canRegWrite n off v s) = kept s := by
  unfold canRegWrite
  try dsimp only
  repeat' (first
    | with_reducible rfl
    | exact kept_setField _ _ _ (fun _ => rfl)
    | (apply kept_foldl; intros)
    | (apply kept_iterate; intros)
    | (simp only [kept_mk, kept_fold, kept_ite, ite_self, after_next, after_done, after_hold, apply_ite CmdEnd.after,
        apply_ite Prod.fst, kept_setField, kept_updCan, kept_canEnWrite, kept_canCfgWrite, kept_canSend,
        kept_canWithdraw, kept_canFree]; done)
    | split
    | simp only [kept_mk, kept_fold, kept_ite, ite_self, after_next, after_done, after_hold, apply_ite CmdEnd.after,
        apply_ite Prod.fst, kept_setField, kept_updCan, kept_canEnWrite, kept_canCfgWrite, kept_canSend,
        kept_canWithdraw, kept_canFree])

theorem kept_ethRegWrite (p : Nat) (off : Nat) (v : Word) (s : State) : kept (ethRegWrite p off v s) = kept s := by
  unfold ethRegWrite
  try dsimp only
  repeat' (first
    | with_reducible rfl
    | exact kept_setField _ _ _ (fun _ => rfl)
    | (apply kept_foldl; intros)
    | (apply kept_iterate; intros)
    | (simp only [kept_mk, kept_fold, kept_ite, ite_self, after_next, after_done, after_hold, apply_ite CmdEnd.after,
        apply_ite Prod.fst, kept_ethCfgWrite, kept_setField, kept_updEth, kept_updRing, kept_ethCtlWrite]; done)
    | split
    | simp only [kept_mk, kept_fold, kept_ite, ite_self, after_next, after_done, after_hold, apply_ite CmdEnd.after,
        apply_ite Prod.fst, kept_ethCfgWrite, kept_setField, kept_updEth, kept_updRing, kept_ethCtlWrite])

theorem kept_ptpRegWrite (off : Nat) (v : Word) (s : State) : kept (ptpRegWrite off v s) = kept s := by
  unfold ptpRegWrite
  try dsimp only
  repeat' (first
    | with_reducible rfl
    | exact kept_setField _ _ _ (fun _ => rfl)
    | (apply kept_foldl; intros)
    | (apply kept_iterate; intros)
    | (simp only [kept_mk, kept_fold, kept_ite, ite_self, after_next, after_done, after_hold, apply_ite CmdEnd.after,
        apply_ite Prod.fst, kept_ptpCtlWrite, kept_setField]; done)
    | split
    | simp only [kept_mk, kept_fold, kept_ite, ite_self, after_next, after_done, after_hold, apply_ite CmdEnd.after,
        apply_ite Prod.fst, kept_ptpCtlWrite, kept_setField])

theorem kept_logRegWrite (off : Nat) (v : Word) (s : State) : kept (logRegWrite off v s) = kept s := by
  unfold logRegWrite
  dsimp only
  split
  · exact kept_setField _ _ _ (fun s => kept_updCap _ _ s)
  · split <;> first
      | rfl
      | exact kept_setField _ _ _ (fun s => kept_wearJudge _)
      | exact kept_setField _ _ _ (fun _ => rfl)

theorem kept_panelRegWrite (off : Nat) (v : Word) (s : State) : kept (panelRegWrite off v s) = kept s := by
  unfold panelRegWrite
  try dsimp only
  repeat' (first
    | with_reducible rfl
    | exact kept_setField _ _ _ (fun _ => rfl)
    | (apply kept_foldl; intros)
    | (apply kept_iterate; intros)
    | (simp only [kept_mk, kept_fold, kept_ite, ite_self, after_next, after_done, after_hold, apply_ite CmdEnd.after,
        apply_ite Prod.fst, kept_setField]; done)
    | split
    | simp only [kept_mk, kept_fold, kept_ite, ite_self, after_next, after_done, after_hold, apply_ite CmdEnd.after,
        apply_ite Prod.fst, kept_setField])

theorem kept_regWrite (req : Requester) (p : Nat) (off : Nat) (v : Word) (s : State) : kept (regWrite req p off v s) =
    kept s := by
  have h : kept (setField 0x49 (fun s => { s with host.rstEn := bitAt v 0 }) s) = kept s :=
    kept_setField _ _ _ (fun _ => rfl)
  simp only [regWrite, kept_ite, kept_clkDiscWrite, kept_icuRegWrite, kept_icuTargetWrite, kept_planRegWrite,
    kept_squarePin, kept_alarmRegWrite, kept_evqRegWrite, kept_safeRegWrite, kept_utRegWrite, kept_ltRegWrite,
    kept_calRegWrite, kept_hartRegWrite, kept_dioRegWrite, kept_diRegWrite, kept_canRegWrite, kept_ethRegWrite,
    kept_ptpRegWrite, kept_logRegWrite, kept_panelRegWrite, kept_redRegWrite, h, ite_self]

theorem kept_droppedWrite (a : Nat) (s : State) : kept (droppedWrite a s) = kept s := by
  unfold droppedWrite
  try dsimp only
  repeat' (first
    | rfl
    | simp only [kept_mk, kept_fold, kept_ite, ite_self, after_next, after_done, after_hold, apply_ite CmdEnd.after,
        apply_ite Prod.fst, kept_windowWrite, kept_offAccess, kept_foldl, kept_iterate]
    | split)

theorem kept_pageRead (req : Requester) (p : Nat) (off : Nat) (s : State) : kept (pageRead req p off s).1 = kept s :=
    by
  unfold pageRead
  try dsimp only
  repeat' (first
    | rfl
    | simp only [kept_mk, kept_fold, kept_ite, ite_self, after_next, after_done, after_hold, apply_ite CmdEnd.after,
        apply_ite Prod.fst, kept_ptpNowRead, kept_icuClaimRead, kept_offAccess, kept_foldl, kept_iterate]
    | split)

theorem kept_windowReadAt (req : Requester) (a : Nat) (s : State) : kept (windowReadAt req a s).1 = kept s := by
  unfold windowReadAt
  try dsimp only
  repeat' (first
    | rfl
    | simp only [kept_mk, kept_fold, kept_ite, ite_self, after_next, after_done, after_hold, apply_ite CmdEnd.after,
        apply_ite Prod.fst, kept_windowRead, kept_offAccess, kept_foldl, kept_iterate]
    | split)

theorem kept_memLoad (req : Requester) (a size : Nat) (s : State) : kept (memLoad req a size s).1 = kept s := by
  unfold memLoad
  simp only [kept_mk, kept_fold, kept_ite, ite_self, after_next, after_done, after_hold, apply_ite CmdEnd.after,
      apply_ite Prod.fst, kept_foldl, kept_iterate]

theorem kept_pageReadAt (req : Requester) (a : Nat) (s : State) : kept (pageReadAt req a s).1 = kept s := by
  exact kept_pageRead req _ _ s

theorem kept_busRead (req : Requester) (a size : Nat) (s : State) : kept (busRead req a size s).1 = kept s := by
  unfold busRead
  simp only [kept_ite, apply_ite Prod.fst, kept_readN _ (fun a s => kept_pageReadAt req a s),
    kept_readN _ (fun a s => kept_windowReadAt req a s), kept_memLoad, ite_self]

theorem kept_hostCrcError (s : State) : kept (hostCrcError s) = kept s := by
  rfl

theorem kept_hostTransaction (usb : Bool) (command : Byte) (addr : Word) (sent : List Byte) (crc : Byte) (kind : Nat)
    (run : State → State) (s : State) (hrun : ∀ s, kept (run s) = kept s) : kept (hostTransaction usb command addr
    sent crc kind run s) = kept s := by
  unfold hostTransaction
  simp only [kept_mk, kept_fold, kept_ite, ite_self, after_next, after_done, after_hold, apply_ite CmdEnd.after,
      apply_ite Prod.fst, kept_hostCrcError, kept_hostRefuse, hrun, kept_foldl, kept_iterate]

theorem kept_hostSelect (usb : Bool) (low : Bool) (s : State) : kept (hostSelect usb low s) = kept s := by
  unfold hostSelect
  simp only [kept_mk, kept_fold, kept_ite, ite_self, after_next, after_done, after_hold, apply_ite CmdEnd.after,
      apply_ite Prod.fst, kept_foldl, kept_iterate]

end Sys2Proof.Machine
end

