-- ==== Sys2Proof/Laws/Claim.lean ====
section
/-! SUPPORT. What the operations that move claims, gates and domains do to the parts gathered in `kept`: gates and claims
(R324 to R330), start and stop of a plan, domains and resets. -/

set_option linter.unusedSimpArgs false

namespace Sys2Proof.Machine

/-- Gates are disabled; the claim stands. -/
theorem kept_gatesOpen (s : State) : kept (gatesOpen s) =
    { kept s with claim := (false, s.red.own, s.red.peer, s.red.role, s.red.state, s.red.roleConflict) } := by
  unfold gatesOpen
  split
  · rw [kept_canGates, kept_hartRegate, kept_hartAbort, kept_gatesApply]; rfl
  · rename_i h
    simp only [Bool.not_eq_true] at h
    simp only [kept, h]

/-- The claim is 0 and the gates are disabled. -/
theorem kept_dropClaim (s : State) : kept (dropClaim s) =
    { kept s with claim := (false, 0, s.red.peer, s.red.role, s.red.state, s.red.roleConflict) } := by
  unfold dropClaim
  rw [kept_endIfRunning, kept_gatesOpen]; rfl

/-- The claim is 0, gates are disabled, and the unit is standby. -/
theorem kept_becomeStandby (s : State) : kept (becomeStandby s) =
    { kept s with claim := (false, 0, s.red.peer, s.red.role, .standby, s.red.roleConflict) } := by
  have h := kept_dropClaim s
  unfold becomeStandby
  generalize dropClaim s = x at h ⊢
  simp only [kept, Kept.mk.injEq, Prod.mk.injEq] at h ⊢
  simp only [h, and_self]

/-- The claim is 0, gates are disabled, and the unit is idle. -/
theorem kept_becomeIdle (s : State) : kept (becomeIdle s) =
    { kept s with claim := (false, 0, s.red.peer, s.red.role, .idle, s.red.roleConflict) } := by
  have h := kept_dropClaim s
  unfold becomeIdle
  generalize dropClaim s = x at h ⊢
  simp only [kept, Kept.mk.injEq, Prod.mk.injEq] at h ⊢
  simp only [h, and_self]

/-- The claim is raised; the gates stand. -/
theorem kept_raiseClaim (e : Half) (s : State) : kept (raiseClaim e s) =
    { kept s with claim := (s.red.gates, e, s.red.peer, s.red.role, if isSolo s then .solo else .active,
        s.red.roleConflict) } := rfl

theorem kept_takeOver (c : Nat) (s : State) : kept (takeOver c s) =
    { kept s with claim := (s.red.gates, s.red.peerEpoch + 1, s.red.peer, s.red.role,
        if isSolo s then .solo else .active, s.red.roleConflict) } := by
  unfold takeOver
  rw [kept_redEvent, kept_raiseClaim]; rfl

theorem kept_yieldNow (c : BitVec 3) (s : State) : kept (yieldNow c s) =
    { kept s with claim := (false, 0, s.red.peer, s.red.role, .standby, s.red.roleConflict) } := by
  unfold yieldNow
  rw [kept_redEvent, ← kept_becomeStandby]; rfl

theorem kept_roleConflict (p : Role) (s : State) : kept (roleConflict p s) =
    if s.red.roleConflict then kept s
    else { kept s with claim := (false, 0, s.red.peer, s.red.role, .idle, true) } := by
  unfold roleConflict
  split
  · rfl
  · rw [kept_redEvent, kept_becomeIdle]; rfl

theorem kept_loadSync (s : State) : kept (loadSync s) = kept s := by
  unfold loadSync
  split
  · split
    · rfl
    · dsimp only
      rw [kept_foldl _ (fun s e => kept_raiseAlarm _ _ s), kept_loadLamps, kept_loadTurns]
      rfl
  · rfl

/-- The gates are enabled; the claim stands. -/
theorem kept_gatesClose (s : State) : kept (gatesClose s) =
    { kept s with claim := (true, s.red.own, s.red.peer, s.red.role, s.red.state, s.red.roleConflict) } := by
  unfold gatesClose
  dsimp only
  split
  · rw [kept_canGates, kept_hartRegate, kept_noInrush, kept_ite, kept_epochMarkers, ite_self]
    split
    · rw [kept_dioTake, kept_gatesApplyUc, kept_settleGated, kept_seedGated, kept_outputsFromSync]; rfl
    · rw [kept_gatesApply, kept_settleGated]; rfl
  · rw [kept_canGates, kept_hartRegate, kept_gatesApply, kept_settleGated, kept_outputsFromStart]; rfl

/-- An election begins, or none is possible: only the state of the pair changes, and that of a unit without a claim. -/
theorem kept_startElection (s : State) : kept (startElection s) =
      { kept s with claim := (s.red.gates, s.red.own, s.red.peer, s.red.role, (startElection s).red.state,
          s.red.roleConflict) }
    ∧ (s.red.own ≠ 0 → startElection s = s) := by
  unfold startElection claimed
  constructor
  · split
    · rfl
    · split
      · rfl
      · split
        · rfl
        · split <;> rfl
  · intro h
    exact if_pos (decide_eq_true h)

/-- What the peer's claim frame shows is noted; nothing else that is kept moves. -/
theorem kept_peerShows (c : Half) (s : State) : kept (peerShows c s) =
    { kept s with claim := (s.red.gates, s.red.own, c, s.red.role, s.red.state, s.red.roleConflict) } := by
  unfold peerShows
  dsimp only
  rw [kept_judgePeerLost]
  split
  · rfl
  · rw [kept_linkEvent]; rfl

theorem kept_peerClaim (c : Half) (s : State) :
    kept (peerClaim c s) = { kept s with claim := (s.red.gates, s.red.own, c, s.red.role, s.red.state, s.red.roleConflict) }
        ∧ (s.red.own = 0 ∨ c < s.red.own)
      ∨ kept (peerClaim c s) = { kept s with claim := (false, 0, c, s.red.role, .standby, s.red.roleConflict) }
      ∨ kept (peerClaim c s) = { kept s with claim := (false, s.red.own, c, s.red.role, s.red.state, s.red.roleConflict) }
        := by
  unfold peerClaim
  dsimp only
  have h := kept_peerShows c s
  generalize peerShows c s = x at h ⊢
  have hx := h
  simp only [kept, Kept.mk.injEq, Prod.mk.injEq] at hx
  obtain ⟨⟨h1, h2, h3⟩, ⟨g1, g2, g3, g4, g5, g6⟩, ⟨b1, b2, b3, b4⟩, a1⟩ := hx
  split
  · right; left
    rw [kept_redEvent, kept_becomeStandby, h, g3, g4, g6]
  · rename_i hn
    split
    · split
      · right; left; rw [kept_becomeStandby, h, g3, g4, g6]
      · right; right; rw [kept_gatesOpen, h, g2, g3, g4, g5, g6]
    · rename_i hm
      split
      · right; left; rw [kept_becomeStandby, h, g3, g4, g6]
      · left
        refine ⟨h, ?_⟩
        rw [g2] at hn hm
        by_cases h0 : s.red.own = 0
        · exact .inl h0
        · right
          simp only [ne_eq, h0, not_false_eq_true, decide_true, Bool.true_and, decide_eq_true_eq] at hn hm
          bv_omega

theorem kept_yieldBoundary (s : State) :
    kept (yieldBoundary s) = kept s
      ∨ kept (yieldBoundary s) = { kept s with claim := (false, 0, s.red.peer, s.red.role, .standby, s.red.roleConflict) }
        := by
  unfold yieldBoundary
  split
  · split
    · right
      rw [kept_yieldNow]
      have h := kept_endIfRunning 0x48 1 .ok 0 s
      generalize endIfRunning 0x48 1 .ok 0 s = x at h ⊢
      simp only [kept, Kept.mk.injEq, Prod.mk.injEq] at h ⊢
      simp only [h, and_self]
    · left; rfl
  · left; rfl

theorem kept_stopBoundary (s : State) :
    kept (stopBoundary s) = kept s
      ∨ kept (stopBoundary s) = { kept s with claim := (false, 0, s.red.peer, s.red.role, .idle, s.red.roleConflict) }
        := by
  unfold stopBoundary
  split
  · dsimp only
    split
    · right; rw [kept_becomeIdle]; rfl
    · left; rfl
  · left; rfl

/-- PD1 is held in reset: claim 0, gates disabled. -/
theorem kept_pd1Hold (c : Nat) (s : State) : kept (pd1Hold c s) =
    { kept s with
      claim := (false, 0, s.red.peer, s.red.role,
        if inPair s && (claimed s || s.red.state = .standby) then .standby else .idle, s.red.roleConflict) } := by
  unfold pd1Hold
  dsimp only
  rw [kept_domEvent]
  split
  · rename_i v _
    by_cases h : (inPair s && (claimed s || s.red.state = .standby)) = true
    · rw [if_pos (by exact h), if_pos h]
      simp only [kept_mk, kept_fold]
      rw [kept_becomeStandby, kept_updDistrict]; rfl
    · rw [if_neg (by exact h), if_neg h]
      simp only [kept_mk, kept_fold]
      rw [kept_becomeIdle, kept_updDistrict]; rfl
  · by_cases h : (inPair s && (claimed s || s.red.state = .standby)) = true
    · rw [if_pos h, if_pos h]
      simp only [kept_mk, kept_fold]
      rw [kept_becomeStandby]
    · rw [if_neg h, if_neg h]
      simp only [kept_mk, kept_fold]
      rw [kept_becomeIdle]

theorem kept_startPlan (b : Bool) (k : Nat) (src : List (Nat × Bool × Nat)) (s : State) :
    kept (startPlan b k src s) = kept s := by
  unfold startPlan
  dsimp only
  rw [kept_claimConfig, kept_tripUpdate, kept_hartNoTurn, kept_reloadAll, kept_foldl _ (fun s m => kept_updModem m _ s),
    kept_freshStamps, kept_ite, kept_initCall, ite_self]
  rfl

/-! Domains. -/

theorem rising_filter {α : Type} (p : Nat × α → Bool) (l : List (Nat × α)) (h : Tab.rising l = true) :
    Tab.rising (l.filter p) = true := by
  induction l with
  | nil => rfl
  | cons c l ih =>
    have ht := ih (Tab.rising_tail h)
    rw [List.filter_cons]
    split
    · obtain ⟨k, v⟩ := c
      exact Tab.rising_cons ht (fun x hx => Tab.rising_above h x (List.mem_filter.mp hx).1)
    · exact ht

/-- Code flash alone keeps the canonical form. -/
theorem flashOnly_wf {m : Mem} (h : m.wf 0 = true) : (flashOnly m).wf 0 = true := by
  simp only [Mem.wf, Bool.and_eq_true] at h ⊢
  refine ⟨rising_filter _ _ h.1, ?_⟩
  rw [List.all_eq_true] at h ⊢
  exact fun x hx => h.2 x (List.mem_filter.mp hx).1

/-- A domain comes up: only PD7 can change a part gathered here, the panel's frame. -/
theorem kept_domainUp (d : Nat) (trim : Bool) (s : State) : kept (domainUp d trim s) =
      { kept s with bytes := (s.mem.main, s.mem.tcm, s.plan.nor, (domainUp d trim s).panel.frame) }
    ∧ ((domainUp d trim s).panel.frame = s.panel.frame ∨ (domainUp d trim s).panel.frame = {}) := by
  have h : ∃ f, kept (domainUp d trim s) = { kept s with bytes := (s.mem.main, s.mem.tcm, s.plan.nor, f) }
      ∧ (f = s.panel.frame ∨ f = {}) := by
    unfold domainUp
    dsimp only
    rw [kept_domEvent]
    have hc : ∀ x : State, kept (clearHdrs d x) = kept x := fun x => kept_clearHdrs d x
    generalize hx : clearHdrs d { s with
      sys.domOn := setBit s.sys.domOn d true, sys.offSeen := setBit s.sys.offSeen d false } = x
    have h : kept x = kept s := by rw [← hx, hc]; rfl
    split
    · exact ⟨s.panel.frame, by rw [kept_pd1Up, h]; rfl, .inl rfl⟩
    · exact ⟨s.panel.frame, by rw [kept_icuFresh, h]; rfl, .inl rfl⟩
    · exact ⟨s.panel.frame, by rw [kept_bootLoad, h]; rfl, .inl rfl⟩
    · exact ⟨s.panel.frame, by rw [kept_tilesUp, h]; rfl, .inl rfl⟩
    · exact ⟨s.panel.frame, by rw [kept_tilesUp, h]; rfl, .inl rfl⟩
    · exact ⟨s.panel.frame, by rw [kept_fieldUp, h]; rfl, .inl rfl⟩
    · unfold panelStart
      split
      · refine ⟨{}, ?_, .inr rfl⟩
        simp only [kept, Kept.mk.injEq, Prod.mk.injEq] at h
        split
        · simp only [kept, h]
        · rw [kept_panelEvent]
          simp only [kept, h]
      · exact ⟨s.panel.frame, by rw [h]; rfl, .inl rfl⟩
    · exact ⟨s.panel.frame, by rw [h]; rfl, .inl rfl⟩
  obtain ⟨f, hf, ho⟩ := h
  have e : (domainUp d trim s).panel.frame = f := congrArg (fun k => k.bytes.2.2.2) hf
  rw [e]
  exact ⟨hf, ho⟩

/-- A domain goes off: PD2 takes its memories with it, PD6 disables the gates. -/
theorem kept_domainDown (d : Nat) (s : State) : kept (domainDown d s) =
    { kept s with
      claim := (if d = 6 then false else s.red.gates, s.red.own, s.red.peer, s.red.role, s.red.state, s.red.roleConflict)
      bytes := (if d = 2 then flashOnly s.mem.main else s.mem.main, if d = 2 then {} else s.mem.tcm, s.plan.nor,
        s.panel.frame) } := by
  unfold domainDown
  dsimp only
  rw [kept_domEvent]
  split
  · have h0 : ∀ x : State, kept x = kept s → kept (match x.loader.safeVerifying with
        | some v => updDistrict v.district (fun d => { d with state := v.prev }) { x with loader.safeVerifying := none }
        | none => x) = kept s := by
      intro x hx
      split
      · rw [kept_updDistrict, ← hx]; rfl
      · exact hx
    rw [kept_safetyOff]
    refine Eq.trans ?_ (h0 { s with sys.domOn := setBit s.sys.domOn 1 false, sys.offSeen := setBit s.sys.offSeen 1 false } rfl)
    rfl
  · rfl
  · rfl
  · rw [kept_tilesOff]; rfl
  · rw [kept_tilesOff]; rfl
  · rw [kept_gatesOpen]; rfl
  · rw [kept_netReset, kept_logStop, kept_dropAllPend]; rfl
  · rename_i h1 h2 h3 h4 h5 h6 h7
    have e2 : ¬ d = 2 := fun e => h2 e
    have e6 : ¬ d = 6 := fun e => h6 e
    simp only [e2, e6, if_false]
    rfl

/-- Domains go off in turn: claim and state stand, gates can only be disabled. -/
theorem kept_shed (l : List Nat) : ∀ s : State,
    (kept (shed l s)).queue = (kept s).queue ∧ (kept (shed l s)).applied = (kept s).applied
      ∧ (kept (shed l s)).claim.2 = (kept s).claim.2
      ∧ ((shed l s).red.gates = true → s.red.gates = true)
      ∧ (kept (shed l s)).bytes.2.2 = (kept s).bytes.2.2
      ∧ (s.mem.main.wf 0 = true → (shed l s).mem.main.wf 0 = true)
      ∧ ((∀ k, (s.mem.tcm.get {} k).wf 0 = true) → ∀ k, ((shed l s).mem.tcm.get {} k).wf 0 = true) := by
  induction l with
  | nil => exact fun s => ⟨rfl, rfl, rfl, id, rfl, id, id⟩
  | cons d l ih =>
    intro s
    have e : shed (d :: l) s = shed l (if domUp s d then domainDown d s else s) := rfl
    rw [e]
    split
    · have h := kept_domainDown d s
      simp only [kept, Kept.mk.injEq, Prod.mk.injEq] at h
      obtain ⟨⟨h1, h2, h3⟩, ⟨g1, g2, g3, g4, g5, g6⟩, ⟨b1, b2, b3, b4⟩, a1⟩ := h
      obtain ⟨i1, i2, i3, i4, i5, i6, i7⟩ := ih (domainDown d s)
      refine ⟨i1.trans ?_, i2.trans a1, i3.trans ?_, fun h => ?_, i5.trans ?_, fun h => i6 ?_, fun h => i7 ?_⟩
      · simp only [kept, h1, h2, h3]
      · simp only [kept, g2, g3, g4, g5, g6]
      · have := i4 h
        rw [g1] at this
        split at this
        · cases this
        · exact this
      · simp only [kept, b3, b4]
      · rw [b1]
        split
        · exact flashOnly_wf h
        · exact h
      · rw [b2]
        split
        · exact fun _ => rfl
        · exact h
    · exact ih s

end Sys2Proof.Machine
end

