-- ==== Sys2Proof/Laws/Engine.lean ====
section
/-! SUPPORT. What the cells and channel contexts of the engines read after one is written. -/

namespace Sys2Proof.Machine

theorem engine_updEngine_same (e : Nat) (f : Engine → Engine) (s : State) :
    engine (updEngine e f s) e = f (engine s e) := by
  unfold engine updEngine; split <;> rfl

theorem engine_updEngine_other (e : Fin 2) (f : Engine → Engine) (s : State) :
    engine (updEngine e.val f s) (1 - e.val) = engine s (1 - e.val) := by
  match e with
  | 0 => rfl
  | 1 => rfl

theorem cellGet_cellSet_same (e b : Nat) (v : Dword) (s : State) : cellGet (cellSet e b v s) e b = v := by
  simp [cellGet, cellSet, engine_updEngine_same, Tab.get_set_same]

theorem cellGet_cellSet_other (e a b : Nat) (v : Dword) (s : State) (h : a % 16384 ≠ b % 16384) :
    cellGet (cellSet e b v s) e a = cellGet s e a := by
  simp [cellGet, cellSet, engine_updEngine_same, Tab.get_set_other, h]

theorem cellGet_tick (e f a c : Nat) (s : State) : cellGet (tick e c s) f a = cellGet s f a := by
  unfold cellGet tick engine updEngine; repeat' split
  all_goals rfl

theorem chanCtx_updCtx_same (c : Nat) (f : ChanCtx → ChanCtx) (s : State) : chanCtx (updCtx c f s) c = f (chanCtx s c) := by
  simp [chanCtx, updCtx, Tab.get_upd_same]

theorem chanCtx_updCtx_other (c k : Nat) (f : ChanCtx → ChanCtx) (s : State) (h : k ≠ c) :
    chanCtx (updCtx c f s) k = chanCtx s k := by
  simp [chanCtx, updCtx, Tab.get_upd_other, h]

theorem chanCtx_cellSet (e a k : Nat) (v : Dword) (s : State) : chanCtx (cellSet e a v s) k = chanCtx s k := by
  unfold chanCtx cellSet updEngine; split <;> rfl

theorem chanCtx_tick (e c k : Nat) (s : State) : chanCtx (tick e c s) k = chanCtx s k := by
  unfold chanCtx tick updEngine; split <;> rfl

theorem cellGet_updCtx (c e a : Nat) (f : ChanCtx → ChanCtx) (s : State) : cellGet (updCtx c f s) e a = cellGet s e a := rfl

end Sys2Proof.Machine
end

