-- ==== Sys2Proof/Laws/State.lean ====
section
/-! SUPPORT. One lemma per field and update of State: what the named updates of its banks write, and that they leave every
other field alone. -/

namespace Sys2Proof.Machine

@[simp] theorem updHdr_same (p : Nat) (f : PageHdr → PageHdr) (s : State) : hdr (updHdr p f s) p = f (hdr s p) := by simp [hdr, updHdr]
@[simp] theorem updHdr_other (p : Nat) (f : PageHdr → PageHdr) (s : State) {k : Nat} (h : k ≠ p) : hdr (updHdr p f s) k = hdr s k := by
  simp [hdr, updHdr, h]
@[simp] theorem updHdr_sys (p : Nat) (f : PageHdr → PageHdr) (s : State) : (updHdr p f s).sys = s.sys := rfl
@[simp] theorem updHdr_sup (p : Nat) (f : PageHdr → PageHdr) (s : State) : (updHdr p f s).sup = s.sup := rfl
@[simp] theorem updHdr_clk (p : Nat) (f : PageHdr → PageHdr) (s : State) : (updHdr p f s).clk = s.clk := rfl
@[simp] theorem updHdr_course (p : Nat) (f : PageHdr → PageHdr) (s : State) : (updHdr p f s).course = s.course := rfl
@[simp] theorem updHdr_plan (p : Nat) (f : PageHdr → PageHdr) (s : State) : (updHdr p f s).plan = s.plan := rfl
@[simp] theorem updHdr_loader (p : Nat) (f : PageHdr → PageHdr) (s : State) : (updHdr p f s).loader = s.loader := rfl
@[simp] theorem updHdr_square (p : Nat) (f : PageHdr → PageHdr) (s : State) : (updHdr p f s).square = s.square := rfl
@[simp] theorem updHdr_alarm (p : Nat) (f : PageHdr → PageHdr) (s : State) : (updHdr p f s).alarm = s.alarm := rfl
@[simp] theorem updHdr_evq (p : Nat) (f : PageHdr → PageHdr) (s : State) : (updHdr p f s).evq = s.evq := rfl
@[simp] theorem updHdr_ucs (p : Nat) (f : PageHdr → PageHdr) (s : State) : (updHdr p f s).ucs = s.ucs := rfl
@[simp] theorem updHdr_lis (p : Nat) (f : PageHdr → PageHdr) (s : State) : (updHdr p f s).lis = s.lis := rfl
@[simp] theorem updHdr_tiles (p : Nat) (f : PageHdr → PageHdr) (s : State) : (updHdr p f s).tiles = s.tiles := rfl
@[simp] theorem updHdr_maint (p : Nat) (f : PageHdr → PageHdr) (s : State) : (updHdr p f s).maint = s.maint := rfl
@[simp] theorem updHdr_cal (p : Nat) (f : PageHdr → PageHdr) (s : State) : (updHdr p f s).cal = s.cal := rfl
@[simp] theorem updHdr_tileCal (p : Nat) (f : PageHdr → PageHdr) (s : State) : (updHdr p f s).tileCal = s.tileCal := rfl
@[simp] theorem updHdr_hart (p : Nat) (f : PageHdr → PageHdr) (s : State) : (updHdr p f s).hart = s.hart := rfl
@[simp] theorem updHdr_dig (p : Nat) (f : PageHdr → PageHdr) (s : State) : (updHdr p f s).dig = s.dig := rfl
@[simp] theorem updHdr_icu (p : Nat) (f : PageHdr → PageHdr) (s : State) : (updHdr p f s).icu = s.icu := rfl
@[simp] theorem updHdr_red (p : Nat) (f : PageHdr → PageHdr) (s : State) : (updHdr p f s).red = s.red := rfl
@[simp] theorem updHdr_sync (p : Nat) (f : PageHdr → PageHdr) (s : State) : (updHdr p f s).sync = s.sync := rfl
@[simp] theorem updHdr_safe (p : Nat) (f : PageHdr → PageHdr) (s : State) : (updHdr p f s).safe = s.safe := rfl
@[simp] theorem updHdr_cans (p : Nat) (f : PageHdr → PageHdr) (s : State) : (updHdr p f s).cans = s.cans := rfl
@[simp] theorem updHdr_eths (p : Nat) (f : PageHdr → PageHdr) (s : State) : (updHdr p f s).eths = s.eths := rfl
@[simp] theorem updHdr_prp (p : Nat) (f : PageHdr → PageHdr) (s : State) : (updHdr p f s).prp = s.prp := rfl
@[simp] theorem updHdr_ptp (p : Nat) (f : PageHdr → PageHdr) (s : State) : (updHdr p f s).ptp = s.ptp := rfl
@[simp] theorem updHdr_host (p : Nat) (f : PageHdr → PageHdr) (s : State) : (updHdr p f s).host = s.host := rfl
@[simp] theorem updHdr_log (p : Nat) (f : PageHdr → PageHdr) (s : State) : (updHdr p f s).log = s.log := rfl
@[simp] theorem updHdr_panel (p : Nat) (f : PageHdr → PageHdr) (s : State) : (updHdr p f s).panel = s.panel := rfl
@[simp] theorem updHdr_mem (p : Nat) (f : PageHdr → PageHdr) (s : State) : (updHdr p f s).mem = s.mem := rfl
@[simp] theorem updHdr_resp (p : Nat) (f : PageHdr → PageHdr) (s : State) : (updHdr p f s).resp = s.resp := rfl
@[simp] theorem updHdr_free (p : Nat) (f : PageHdr → PageHdr) (s : State) : (updHdr p f s).free = s.free := rfl
@[simp] theorem updHdr_pending (p : Nat) (f : PageHdr → PageHdr) (s : State) : (updHdr p f s).pending = s.pending := rfl

@[simp] theorem updUc_same (n : Nat) (f : UcChan → UcChan) (s : State) : ucGet (updUc n f s) n = f (ucGet s n) := by simp [ucGet, updUc]
@[simp] theorem updUc_other (n : Nat) (f : UcChan → UcChan) (s : State) {k : Nat} (h : k ≠ n) : ucGet (updUc n f s) k = ucGet s k := by
  simp [ucGet, updUc, h]
@[simp] theorem updUc_hdrs (n : Nat) (f : UcChan → UcChan) (s : State) : (updUc n f s).hdrs = s.hdrs := rfl
@[simp] theorem updUc_sys (n : Nat) (f : UcChan → UcChan) (s : State) : (updUc n f s).sys = s.sys := rfl
@[simp] theorem updUc_sup (n : Nat) (f : UcChan → UcChan) (s : State) : (updUc n f s).sup = s.sup := rfl
@[simp] theorem updUc_clk (n : Nat) (f : UcChan → UcChan) (s : State) : (updUc n f s).clk = s.clk := rfl
@[simp] theorem updUc_course (n : Nat) (f : UcChan → UcChan) (s : State) : (updUc n f s).course = s.course := rfl
@[simp] theorem updUc_plan (n : Nat) (f : UcChan → UcChan) (s : State) : (updUc n f s).plan = s.plan := rfl
@[simp] theorem updUc_loader (n : Nat) (f : UcChan → UcChan) (s : State) : (updUc n f s).loader = s.loader := rfl
@[simp] theorem updUc_square (n : Nat) (f : UcChan → UcChan) (s : State) : (updUc n f s).square = s.square := rfl
@[simp] theorem updUc_alarm (n : Nat) (f : UcChan → UcChan) (s : State) : (updUc n f s).alarm = s.alarm := rfl
@[simp] theorem updUc_evq (n : Nat) (f : UcChan → UcChan) (s : State) : (updUc n f s).evq = s.evq := rfl
@[simp] theorem updUc_lis (n : Nat) (f : UcChan → UcChan) (s : State) : (updUc n f s).lis = s.lis := rfl
@[simp] theorem updUc_tiles (n : Nat) (f : UcChan → UcChan) (s : State) : (updUc n f s).tiles = s.tiles := rfl
@[simp] theorem updUc_maint (n : Nat) (f : UcChan → UcChan) (s : State) : (updUc n f s).maint = s.maint := rfl
@[simp] theorem updUc_cal (n : Nat) (f : UcChan → UcChan) (s : State) : (updUc n f s).cal = s.cal := rfl
@[simp] theorem updUc_tileCal (n : Nat) (f : UcChan → UcChan) (s : State) : (updUc n f s).tileCal = s.tileCal := rfl
@[simp] theorem updUc_hart (n : Nat) (f : UcChan → UcChan) (s : State) : (updUc n f s).hart = s.hart := rfl
@[simp] theorem updUc_dig (n : Nat) (f : UcChan → UcChan) (s : State) : (updUc n f s).dig = s.dig := rfl
@[simp] theorem updUc_icu (n : Nat) (f : UcChan → UcChan) (s : State) : (updUc n f s).icu = s.icu := rfl
@[simp] theorem updUc_red (n : Nat) (f : UcChan → UcChan) (s : State) : (updUc n f s).red = s.red := rfl
@[simp] theorem updUc_sync (n : Nat) (f : UcChan → UcChan) (s : State) : (updUc n f s).sync = s.sync := rfl
@[simp] theorem updUc_safe (n : Nat) (f : UcChan → UcChan) (s : State) : (updUc n f s).safe = s.safe := rfl
@[simp] theorem updUc_cans (n : Nat) (f : UcChan → UcChan) (s : State) : (updUc n f s).cans = s.cans := rfl
@[simp] theorem updUc_eths (n : Nat) (f : UcChan → UcChan) (s : State) : (updUc n f s).eths = s.eths := rfl
@[simp] theorem updUc_prp (n : Nat) (f : UcChan → UcChan) (s : State) : (updUc n f s).prp = s.prp := rfl
@[simp] theorem updUc_ptp (n : Nat) (f : UcChan → UcChan) (s : State) : (updUc n f s).ptp = s.ptp := rfl
@[simp] theorem updUc_host (n : Nat) (f : UcChan → UcChan) (s : State) : (updUc n f s).host = s.host := rfl
@[simp] theorem updUc_log (n : Nat) (f : UcChan → UcChan) (s : State) : (updUc n f s).log = s.log := rfl
@[simp] theorem updUc_panel (n : Nat) (f : UcChan → UcChan) (s : State) : (updUc n f s).panel = s.panel := rfl
@[simp] theorem updUc_mem (n : Nat) (f : UcChan → UcChan) (s : State) : (updUc n f s).mem = s.mem := rfl
@[simp] theorem updUc_resp (n : Nat) (f : UcChan → UcChan) (s : State) : (updUc n f s).resp = s.resp := rfl
@[simp] theorem updUc_free (n : Nat) (f : UcChan → UcChan) (s : State) : (updUc n f s).free = s.free := rfl
@[simp] theorem updUc_pending (n : Nat) (f : UcChan → UcChan) (s : State) : (updUc n f s).pending = s.pending := rfl

@[simp] theorem updLi_same (n : Nat) (f : LiChan → LiChan) (s : State) : liGet (updLi n f s) n = f (liGet s n) := by simp [liGet, updLi]
@[simp] theorem updLi_other (n : Nat) (f : LiChan → LiChan) (s : State) {k : Nat} (h : k ≠ n) : liGet (updLi n f s) k = liGet s k := by
  simp [liGet, updLi, h]
@[simp] theorem updLi_hdrs (n : Nat) (f : LiChan → LiChan) (s : State) : (updLi n f s).hdrs = s.hdrs := rfl
@[simp] theorem updLi_sys (n : Nat) (f : LiChan → LiChan) (s : State) : (updLi n f s).sys = s.sys := rfl
@[simp] theorem updLi_sup (n : Nat) (f : LiChan → LiChan) (s : State) : (updLi n f s).sup = s.sup := rfl
@[simp] theorem updLi_clk (n : Nat) (f : LiChan → LiChan) (s : State) : (updLi n f s).clk = s.clk := rfl
@[simp] theorem updLi_course (n : Nat) (f : LiChan → LiChan) (s : State) : (updLi n f s).course = s.course := rfl
@[simp] theorem updLi_plan (n : Nat) (f : LiChan → LiChan) (s : State) : (updLi n f s).plan = s.plan := rfl
@[simp] theorem updLi_loader (n : Nat) (f : LiChan → LiChan) (s : State) : (updLi n f s).loader = s.loader := rfl
@[simp] theorem updLi_square (n : Nat) (f : LiChan → LiChan) (s : State) : (updLi n f s).square = s.square := rfl
@[simp] theorem updLi_alarm (n : Nat) (f : LiChan → LiChan) (s : State) : (updLi n f s).alarm = s.alarm := rfl
@[simp] theorem updLi_evq (n : Nat) (f : LiChan → LiChan) (s : State) : (updLi n f s).evq = s.evq := rfl
@[simp] theorem updLi_ucs (n : Nat) (f : LiChan → LiChan) (s : State) : (updLi n f s).ucs = s.ucs := rfl
@[simp] theorem updLi_tiles (n : Nat) (f : LiChan → LiChan) (s : State) : (updLi n f s).tiles = s.tiles := rfl
@[simp] theorem updLi_maint (n : Nat) (f : LiChan → LiChan) (s : State) : (updLi n f s).maint = s.maint := rfl
@[simp] theorem updLi_cal (n : Nat) (f : LiChan → LiChan) (s : State) : (updLi n f s).cal = s.cal := rfl
@[simp] theorem updLi_tileCal (n : Nat) (f : LiChan → LiChan) (s : State) : (updLi n f s).tileCal = s.tileCal := rfl
@[simp] theorem updLi_hart (n : Nat) (f : LiChan → LiChan) (s : State) : (updLi n f s).hart = s.hart := rfl
@[simp] theorem updLi_dig (n : Nat) (f : LiChan → LiChan) (s : State) : (updLi n f s).dig = s.dig := rfl
@[simp] theorem updLi_icu (n : Nat) (f : LiChan → LiChan) (s : State) : (updLi n f s).icu = s.icu := rfl
@[simp] theorem updLi_red (n : Nat) (f : LiChan → LiChan) (s : State) : (updLi n f s).red = s.red := rfl
@[simp] theorem updLi_sync (n : Nat) (f : LiChan → LiChan) (s : State) : (updLi n f s).sync = s.sync := rfl
@[simp] theorem updLi_safe (n : Nat) (f : LiChan → LiChan) (s : State) : (updLi n f s).safe = s.safe := rfl
@[simp] theorem updLi_cans (n : Nat) (f : LiChan → LiChan) (s : State) : (updLi n f s).cans = s.cans := rfl
@[simp] theorem updLi_eths (n : Nat) (f : LiChan → LiChan) (s : State) : (updLi n f s).eths = s.eths := rfl
@[simp] theorem updLi_prp (n : Nat) (f : LiChan → LiChan) (s : State) : (updLi n f s).prp = s.prp := rfl
@[simp] theorem updLi_ptp (n : Nat) (f : LiChan → LiChan) (s : State) : (updLi n f s).ptp = s.ptp := rfl
@[simp] theorem updLi_host (n : Nat) (f : LiChan → LiChan) (s : State) : (updLi n f s).host = s.host := rfl
@[simp] theorem updLi_log (n : Nat) (f : LiChan → LiChan) (s : State) : (updLi n f s).log = s.log := rfl
@[simp] theorem updLi_panel (n : Nat) (f : LiChan → LiChan) (s : State) : (updLi n f s).panel = s.panel := rfl
@[simp] theorem updLi_mem (n : Nat) (f : LiChan → LiChan) (s : State) : (updLi n f s).mem = s.mem := rfl
@[simp] theorem updLi_resp (n : Nat) (f : LiChan → LiChan) (s : State) : (updLi n f s).resp = s.resp := rfl
@[simp] theorem updLi_free (n : Nat) (f : LiChan → LiChan) (s : State) : (updLi n f s).free = s.free := rfl
@[simp] theorem updLi_pending (n : Nat) (f : LiChan → LiChan) (s : State) : (updLi n f s).pending = s.pending := rfl

@[simp] theorem updDig_same (n : Nat) (f : DigChan → DigChan) (s : State) : digGet (updDig n f s) n = f (digGet s n) := by simp [digGet, updDig]
@[simp] theorem updDig_other (n : Nat) (f : DigChan → DigChan) (s : State) {k : Nat} (h : k ≠ n) : digGet (updDig n f s) k = digGet s k :=
  Tab.get_set_other _ _ _ h
@[simp] theorem updDig_hdrs (n : Nat) (f : DigChan → DigChan) (s : State) : (updDig n f s).hdrs = s.hdrs := rfl
@[simp] theorem updDig_sys (n : Nat) (f : DigChan → DigChan) (s : State) : (updDig n f s).sys = s.sys := rfl
@[simp] theorem updDig_sup (n : Nat) (f : DigChan → DigChan) (s : State) : (updDig n f s).sup = s.sup := rfl
@[simp] theorem updDig_clk (n : Nat) (f : DigChan → DigChan) (s : State) : (updDig n f s).clk = s.clk := rfl
@[simp] theorem updDig_course (n : Nat) (f : DigChan → DigChan) (s : State) : (updDig n f s).course = s.course := rfl
@[simp] theorem updDig_plan (n : Nat) (f : DigChan → DigChan) (s : State) : (updDig n f s).plan = s.plan := rfl
@[simp] theorem updDig_loader (n : Nat) (f : DigChan → DigChan) (s : State) : (updDig n f s).loader = s.loader := rfl
@[simp] theorem updDig_square (n : Nat) (f : DigChan → DigChan) (s : State) : (updDig n f s).square = s.square := rfl
@[simp] theorem updDig_alarm (n : Nat) (f : DigChan → DigChan) (s : State) : (updDig n f s).alarm = s.alarm := rfl
@[simp] theorem updDig_evq (n : Nat) (f : DigChan → DigChan) (s : State) : (updDig n f s).evq = s.evq := rfl
@[simp] theorem updDig_ucs (n : Nat) (f : DigChan → DigChan) (s : State) : (updDig n f s).ucs = s.ucs := rfl
@[simp] theorem updDig_lis (n : Nat) (f : DigChan → DigChan) (s : State) : (updDig n f s).lis = s.lis := rfl
@[simp] theorem updDig_tiles (n : Nat) (f : DigChan → DigChan) (s : State) : (updDig n f s).tiles = s.tiles := rfl
@[simp] theorem updDig_maint (n : Nat) (f : DigChan → DigChan) (s : State) : (updDig n f s).maint = s.maint := rfl
@[simp] theorem updDig_cal (n : Nat) (f : DigChan → DigChan) (s : State) : (updDig n f s).cal = s.cal := rfl
@[simp] theorem updDig_tileCal (n : Nat) (f : DigChan → DigChan) (s : State) : (updDig n f s).tileCal = s.tileCal := rfl
@[simp] theorem updDig_hart (n : Nat) (f : DigChan → DigChan) (s : State) : (updDig n f s).hart = s.hart := rfl
@[simp] theorem updDig_icu (n : Nat) (f : DigChan → DigChan) (s : State) : (updDig n f s).icu = s.icu := rfl
@[simp] theorem updDig_red (n : Nat) (f : DigChan → DigChan) (s : State) : (updDig n f s).red = s.red := rfl
@[simp] theorem updDig_sync (n : Nat) (f : DigChan → DigChan) (s : State) : (updDig n f s).sync = s.sync := rfl
@[simp] theorem updDig_safe (n : Nat) (f : DigChan → DigChan) (s : State) : (updDig n f s).safe = s.safe := rfl
@[simp] theorem updDig_cans (n : Nat) (f : DigChan → DigChan) (s : State) : (updDig n f s).cans = s.cans := rfl
@[simp] theorem updDig_eths (n : Nat) (f : DigChan → DigChan) (s : State) : (updDig n f s).eths = s.eths := rfl
@[simp] theorem updDig_prp (n : Nat) (f : DigChan → DigChan) (s : State) : (updDig n f s).prp = s.prp := rfl
@[simp] theorem updDig_ptp (n : Nat) (f : DigChan → DigChan) (s : State) : (updDig n f s).ptp = s.ptp := rfl
@[simp] theorem updDig_host (n : Nat) (f : DigChan → DigChan) (s : State) : (updDig n f s).host = s.host := rfl
@[simp] theorem updDig_log (n : Nat) (f : DigChan → DigChan) (s : State) : (updDig n f s).log = s.log := rfl
@[simp] theorem updDig_panel (n : Nat) (f : DigChan → DigChan) (s : State) : (updDig n f s).panel = s.panel := rfl
@[simp] theorem updDig_mem (n : Nat) (f : DigChan → DigChan) (s : State) : (updDig n f s).mem = s.mem := rfl
@[simp] theorem updDig_resp (n : Nat) (f : DigChan → DigChan) (s : State) : (updDig n f s).resp = s.resp := rfl
@[simp] theorem updDig_free (n : Nat) (f : DigChan → DigChan) (s : State) : (updDig n f s).free = s.free := rfl
@[simp] theorem updDig_pending (n : Nat) (f : DigChan → DigChan) (s : State) : (updDig n f s).pending = s.pending := rfl
@[simp] theorem updDig_dig_outs (n : Nat) (f : DigChan → DigChan) (s : State) : (updDig n f s).dig.outs = s.dig.outs := rfl
@[simp] theorem updDig_dig_totalOver (n : Nat) (f : DigChan → DigChan) (s : State) : (updDig n f s).dig.totalOver = s.dig.totalOver := rfl
@[simp] theorem updDig_dig_total (n : Nat) (f : DigChan → DigChan) (s : State) : (updDig n f s).dig.total = s.dig.total := rfl
@[simp] theorem updDig_dig_vfX10 (n : Nat) (f : DigChan → DigChan) (s : State) : (updDig n f s).dig.vfX10 = s.dig.vfX10 := rfl
@[simp] theorem updDig_dig_vfX11 (n : Nat) (f : DigChan → DigChan) (s : State) : (updDig n f s).dig.vfX11 = s.dig.vfX11 := rfl

@[simp] theorem updDio_same (n : Nat) (f : DioOut → DioOut) (s : State) : dioGet (updDio n f s) n = f (dioGet s n) := by simp [dioGet, updDio]
@[simp] theorem updDio_other (n : Nat) (f : DioOut → DioOut) (s : State) {k : Nat} (h : k ≠ n) : dioGet (updDio n f s) k = dioGet s k := by
  simp [dioGet, updDio, h]
@[simp] theorem updDio_hdrs (n : Nat) (f : DioOut → DioOut) (s : State) : (updDio n f s).hdrs = s.hdrs := rfl
@[simp] theorem updDio_sys (n : Nat) (f : DioOut → DioOut) (s : State) : (updDio n f s).sys = s.sys := rfl
@[simp] theorem updDio_sup (n : Nat) (f : DioOut → DioOut) (s : State) : (updDio n f s).sup = s.sup := rfl
@[simp] theorem updDio_clk (n : Nat) (f : DioOut → DioOut) (s : State) : (updDio n f s).clk = s.clk := rfl
@[simp] theorem updDio_course (n : Nat) (f : DioOut → DioOut) (s : State) : (updDio n f s).course = s.course := rfl
@[simp] theorem updDio_plan (n : Nat) (f : DioOut → DioOut) (s : State) : (updDio n f s).plan = s.plan := rfl
@[simp] theorem updDio_loader (n : Nat) (f : DioOut → DioOut) (s : State) : (updDio n f s).loader = s.loader := rfl
@[simp] theorem updDio_square (n : Nat) (f : DioOut → DioOut) (s : State) : (updDio n f s).square = s.square := rfl
@[simp] theorem updDio_alarm (n : Nat) (f : DioOut → DioOut) (s : State) : (updDio n f s).alarm = s.alarm := rfl
@[simp] theorem updDio_evq (n : Nat) (f : DioOut → DioOut) (s : State) : (updDio n f s).evq = s.evq := rfl
@[simp] theorem updDio_ucs (n : Nat) (f : DioOut → DioOut) (s : State) : (updDio n f s).ucs = s.ucs := rfl
@[simp] theorem updDio_lis (n : Nat) (f : DioOut → DioOut) (s : State) : (updDio n f s).lis = s.lis := rfl
@[simp] theorem updDio_tiles (n : Nat) (f : DioOut → DioOut) (s : State) : (updDio n f s).tiles = s.tiles := rfl
@[simp] theorem updDio_maint (n : Nat) (f : DioOut → DioOut) (s : State) : (updDio n f s).maint = s.maint := rfl
@[simp] theorem updDio_cal (n : Nat) (f : DioOut → DioOut) (s : State) : (updDio n f s).cal = s.cal := rfl
@[simp] theorem updDio_tileCal (n : Nat) (f : DioOut → DioOut) (s : State) : (updDio n f s).tileCal = s.tileCal := rfl
@[simp] theorem updDio_hart (n : Nat) (f : DioOut → DioOut) (s : State) : (updDio n f s).hart = s.hart := rfl
@[simp] theorem updDio_icu (n : Nat) (f : DioOut → DioOut) (s : State) : (updDio n f s).icu = s.icu := rfl
@[simp] theorem updDio_red (n : Nat) (f : DioOut → DioOut) (s : State) : (updDio n f s).red = s.red := rfl
@[simp] theorem updDio_sync (n : Nat) (f : DioOut → DioOut) (s : State) : (updDio n f s).sync = s.sync := rfl
@[simp] theorem updDio_safe (n : Nat) (f : DioOut → DioOut) (s : State) : (updDio n f s).safe = s.safe := rfl
@[simp] theorem updDio_cans (n : Nat) (f : DioOut → DioOut) (s : State) : (updDio n f s).cans = s.cans := rfl
@[simp] theorem updDio_eths (n : Nat) (f : DioOut → DioOut) (s : State) : (updDio n f s).eths = s.eths := rfl
@[simp] theorem updDio_prp (n : Nat) (f : DioOut → DioOut) (s : State) : (updDio n f s).prp = s.prp := rfl
@[simp] theorem updDio_ptp (n : Nat) (f : DioOut → DioOut) (s : State) : (updDio n f s).ptp = s.ptp := rfl
@[simp] theorem updDio_host (n : Nat) (f : DioOut → DioOut) (s : State) : (updDio n f s).host = s.host := rfl
@[simp] theorem updDio_log (n : Nat) (f : DioOut → DioOut) (s : State) : (updDio n f s).log = s.log := rfl
@[simp] theorem updDio_panel (n : Nat) (f : DioOut → DioOut) (s : State) : (updDio n f s).panel = s.panel := rfl
@[simp] theorem updDio_mem (n : Nat) (f : DioOut → DioOut) (s : State) : (updDio n f s).mem = s.mem := rfl
@[simp] theorem updDio_resp (n : Nat) (f : DioOut → DioOut) (s : State) : (updDio n f s).resp = s.resp := rfl
@[simp] theorem updDio_free (n : Nat) (f : DioOut → DioOut) (s : State) : (updDio n f s).free = s.free := rfl
@[simp] theorem updDio_pending (n : Nat) (f : DioOut → DioOut) (s : State) : (updDio n f s).pending = s.pending := rfl
@[simp] theorem updDio_dig_chans (n : Nat) (f : DioOut → DioOut) (s : State) : (updDio n f s).dig.chans = s.dig.chans := rfl
@[simp] theorem updDio_dig_totalOver (n : Nat) (f : DioOut → DioOut) (s : State) : (updDio n f s).dig.totalOver = s.dig.totalOver := rfl
@[simp] theorem updDio_dig_total (n : Nat) (f : DioOut → DioOut) (s : State) : (updDio n f s).dig.total = s.dig.total := rfl
@[simp] theorem updDio_dig_vfX10 (n : Nat) (f : DioOut → DioOut) (s : State) : (updDio n f s).dig.vfX10 = s.dig.vfX10 := rfl
@[simp] theorem updDio_dig_vfX11 (n : Nat) (f : DioOut → DioOut) (s : State) : (updDio n f s).dig.vfX11 = s.dig.vfX11 := rfl

@[simp] theorem updTile_same (n : Nat) (f : Tile → Tile) (s : State) : tileGet (updTile n f s) n = f (tileGet s n) := by simp [tileGet, updTile]
@[simp] theorem updTile_other (n : Nat) (f : Tile → Tile) (s : State) {k : Nat} (h : k ≠ n) : tileGet (updTile n f s) k = tileGet s k := by
  simp [tileGet, updTile, h]
@[simp] theorem updTile_hdrs (n : Nat) (f : Tile → Tile) (s : State) : (updTile n f s).hdrs = s.hdrs := rfl
@[simp] theorem updTile_sys (n : Nat) (f : Tile → Tile) (s : State) : (updTile n f s).sys = s.sys := rfl
@[simp] theorem updTile_sup (n : Nat) (f : Tile → Tile) (s : State) : (updTile n f s).sup = s.sup := rfl
@[simp] theorem updTile_clk (n : Nat) (f : Tile → Tile) (s : State) : (updTile n f s).clk = s.clk := rfl
@[simp] theorem updTile_course (n : Nat) (f : Tile → Tile) (s : State) : (updTile n f s).course = s.course := rfl
@[simp] theorem updTile_plan (n : Nat) (f : Tile → Tile) (s : State) : (updTile n f s).plan = s.plan := rfl
@[simp] theorem updTile_loader (n : Nat) (f : Tile → Tile) (s : State) : (updTile n f s).loader = s.loader := rfl
@[simp] theorem updTile_square (n : Nat) (f : Tile → Tile) (s : State) : (updTile n f s).square = s.square := rfl
@[simp] theorem updTile_alarm (n : Nat) (f : Tile → Tile) (s : State) : (updTile n f s).alarm = s.alarm := rfl
@[simp] theorem updTile_evq (n : Nat) (f : Tile → Tile) (s : State) : (updTile n f s).evq = s.evq := rfl
@[simp] theorem updTile_ucs (n : Nat) (f : Tile → Tile) (s : State) : (updTile n f s).ucs = s.ucs := rfl
@[simp] theorem updTile_lis (n : Nat) (f : Tile → Tile) (s : State) : (updTile n f s).lis = s.lis := rfl
@[simp] theorem updTile_maint (n : Nat) (f : Tile → Tile) (s : State) : (updTile n f s).maint = s.maint := rfl
@[simp] theorem updTile_cal (n : Nat) (f : Tile → Tile) (s : State) : (updTile n f s).cal = s.cal := rfl
@[simp] theorem updTile_tileCal (n : Nat) (f : Tile → Tile) (s : State) : (updTile n f s).tileCal = s.tileCal := rfl
@[simp] theorem updTile_hart (n : Nat) (f : Tile → Tile) (s : State) : (updTile n f s).hart = s.hart := rfl
@[simp] theorem updTile_dig (n : Nat) (f : Tile → Tile) (s : State) : (updTile n f s).dig = s.dig := rfl
@[simp] theorem updTile_icu (n : Nat) (f : Tile → Tile) (s : State) : (updTile n f s).icu = s.icu := rfl
@[simp] theorem updTile_red (n : Nat) (f : Tile → Tile) (s : State) : (updTile n f s).red = s.red := rfl
@[simp] theorem updTile_sync (n : Nat) (f : Tile → Tile) (s : State) : (updTile n f s).sync = s.sync := rfl
@[simp] theorem updTile_safe (n : Nat) (f : Tile → Tile) (s : State) : (updTile n f s).safe = s.safe := rfl
@[simp] theorem updTile_cans (n : Nat) (f : Tile → Tile) (s : State) : (updTile n f s).cans = s.cans := rfl
@[simp] theorem updTile_eths (n : Nat) (f : Tile → Tile) (s : State) : (updTile n f s).eths = s.eths := rfl
@[simp] theorem updTile_prp (n : Nat) (f : Tile → Tile) (s : State) : (updTile n f s).prp = s.prp := rfl
@[simp] theorem updTile_ptp (n : Nat) (f : Tile → Tile) (s : State) : (updTile n f s).ptp = s.ptp := rfl
@[simp] theorem updTile_host (n : Nat) (f : Tile → Tile) (s : State) : (updTile n f s).host = s.host := rfl
@[simp] theorem updTile_log (n : Nat) (f : Tile → Tile) (s : State) : (updTile n f s).log = s.log := rfl
@[simp] theorem updTile_panel (n : Nat) (f : Tile → Tile) (s : State) : (updTile n f s).panel = s.panel := rfl
@[simp] theorem updTile_mem (n : Nat) (f : Tile → Tile) (s : State) : (updTile n f s).mem = s.mem := rfl
@[simp] theorem updTile_resp (n : Nat) (f : Tile → Tile) (s : State) : (updTile n f s).resp = s.resp := rfl
@[simp] theorem updTile_free (n : Nat) (f : Tile → Tile) (s : State) : (updTile n f s).free = s.free := rfl
@[simp] theorem updTile_pending (n : Nat) (f : Tile → Tile) (s : State) : (updTile n f s).pending = s.pending := rfl

@[simp] theorem updTileCal_same (n : Nat) (f : TileCal → TileCal) (s : State) : tileCal (updTileCal n f s) n = f (tileCal s n) := by simp [tileCal, updTileCal]
@[simp] theorem updTileCal_other (n : Nat) (f : TileCal → TileCal) (s : State) {k : Nat} (h : k ≠ n) : tileCal (updTileCal n f s) k = tileCal s k := by
  simp [tileCal, updTileCal, h]
@[simp] theorem updTileCal_hdrs (n : Nat) (f : TileCal → TileCal) (s : State) : (updTileCal n f s).hdrs = s.hdrs := rfl
@[simp] theorem updTileCal_sys (n : Nat) (f : TileCal → TileCal) (s : State) : (updTileCal n f s).sys = s.sys := rfl
@[simp] theorem updTileCal_sup (n : Nat) (f : TileCal → TileCal) (s : State) : (updTileCal n f s).sup = s.sup := rfl
@[simp] theorem updTileCal_clk (n : Nat) (f : TileCal → TileCal) (s : State) : (updTileCal n f s).clk = s.clk := rfl
@[simp] theorem updTileCal_course (n : Nat) (f : TileCal → TileCal) (s : State) : (updTileCal n f s).course = s.course := rfl
@[simp] theorem updTileCal_plan (n : Nat) (f : TileCal → TileCal) (s : State) : (updTileCal n f s).plan = s.plan := rfl
@[simp] theorem updTileCal_loader (n : Nat) (f : TileCal → TileCal) (s : State) : (updTileCal n f s).loader = s.loader := rfl
@[simp] theorem updTileCal_square (n : Nat) (f : TileCal → TileCal) (s : State) : (updTileCal n f s).square = s.square := rfl
@[simp] theorem updTileCal_alarm (n : Nat) (f : TileCal → TileCal) (s : State) : (updTileCal n f s).alarm = s.alarm := rfl
@[simp] theorem updTileCal_evq (n : Nat) (f : TileCal → TileCal) (s : State) : (updTileCal n f s).evq = s.evq := rfl
@[simp] theorem updTileCal_ucs (n : Nat) (f : TileCal → TileCal) (s : State) : (updTileCal n f s).ucs = s.ucs := rfl
@[simp] theorem updTileCal_lis (n : Nat) (f : TileCal → TileCal) (s : State) : (updTileCal n f s).lis = s.lis := rfl
@[simp] theorem updTileCal_tiles (n : Nat) (f : TileCal → TileCal) (s : State) : (updTileCal n f s).tiles = s.tiles := rfl
@[simp] theorem updTileCal_maint (n : Nat) (f : TileCal → TileCal) (s : State) : (updTileCal n f s).maint = s.maint := rfl
@[simp] theorem updTileCal_cal (n : Nat) (f : TileCal → TileCal) (s : State) : (updTileCal n f s).cal = s.cal := rfl
@[simp] theorem updTileCal_hart (n : Nat) (f : TileCal → TileCal) (s : State) : (updTileCal n f s).hart = s.hart := rfl
@[simp] theorem updTileCal_dig (n : Nat) (f : TileCal → TileCal) (s : State) : (updTileCal n f s).dig = s.dig := rfl
@[simp] theorem updTileCal_icu (n : Nat) (f : TileCal → TileCal) (s : State) : (updTileCal n f s).icu = s.icu := rfl
@[simp] theorem updTileCal_red (n : Nat) (f : TileCal → TileCal) (s : State) : (updTileCal n f s).red = s.red := rfl
@[simp] theorem updTileCal_sync (n : Nat) (f : TileCal → TileCal) (s : State) : (updTileCal n f s).sync = s.sync := rfl
@[simp] theorem updTileCal_safe (n : Nat) (f : TileCal → TileCal) (s : State) : (updTileCal n f s).safe = s.safe := rfl
@[simp] theorem updTileCal_cans (n : Nat) (f : TileCal → TileCal) (s : State) : (updTileCal n f s).cans = s.cans := rfl
@[simp] theorem updTileCal_eths (n : Nat) (f : TileCal → TileCal) (s : State) : (updTileCal n f s).eths = s.eths := rfl
@[simp] theorem updTileCal_prp (n : Nat) (f : TileCal → TileCal) (s : State) : (updTileCal n f s).prp = s.prp := rfl
@[simp] theorem updTileCal_ptp (n : Nat) (f : TileCal → TileCal) (s : State) : (updTileCal n f s).ptp = s.ptp := rfl
@[simp] theorem updTileCal_host (n : Nat) (f : TileCal → TileCal) (s : State) : (updTileCal n f s).host = s.host := rfl
@[simp] theorem updTileCal_log (n : Nat) (f : TileCal → TileCal) (s : State) : (updTileCal n f s).log = s.log := rfl
@[simp] theorem updTileCal_panel (n : Nat) (f : TileCal → TileCal) (s : State) : (updTileCal n f s).panel = s.panel := rfl
@[simp] theorem updTileCal_mem (n : Nat) (f : TileCal → TileCal) (s : State) : (updTileCal n f s).mem = s.mem := rfl
@[simp] theorem updTileCal_resp (n : Nat) (f : TileCal → TileCal) (s : State) : (updTileCal n f s).resp = s.resp := rfl
@[simp] theorem updTileCal_free (n : Nat) (f : TileCal → TileCal) (s : State) : (updTileCal n f s).free = s.free := rfl
@[simp] theorem updTileCal_pending (n : Nat) (f : TileCal → TileCal) (s : State) : (updTileCal n f s).pending = s.pending := rfl

@[simp] theorem updReader_same (n : Nat) (f : Reader → Reader) (s : State) : readerGet (updReader n f s) n = f (readerGet s n) := by simp [readerGet, updReader]
@[simp] theorem updReader_other (n : Nat) (f : Reader → Reader) (s : State) {k : Nat} (h : k ≠ n) : readerGet (updReader n f s) k = readerGet s k := by
  simp [readerGet, updReader, h]
@[simp] theorem updReader_hdrs (n : Nat) (f : Reader → Reader) (s : State) : (updReader n f s).hdrs = s.hdrs := rfl
@[simp] theorem updReader_sys (n : Nat) (f : Reader → Reader) (s : State) : (updReader n f s).sys = s.sys := rfl
@[simp] theorem updReader_sup (n : Nat) (f : Reader → Reader) (s : State) : (updReader n f s).sup = s.sup := rfl
@[simp] theorem updReader_clk (n : Nat) (f : Reader → Reader) (s : State) : (updReader n f s).clk = s.clk := rfl
@[simp] theorem updReader_course (n : Nat) (f : Reader → Reader) (s : State) : (updReader n f s).course = s.course := rfl
@[simp] theorem updReader_plan (n : Nat) (f : Reader → Reader) (s : State) : (updReader n f s).plan = s.plan := rfl
@[simp] theorem updReader_loader (n : Nat) (f : Reader → Reader) (s : State) : (updReader n f s).loader = s.loader := rfl
@[simp] theorem updReader_alarm (n : Nat) (f : Reader → Reader) (s : State) : (updReader n f s).alarm = s.alarm := rfl
@[simp] theorem updReader_evq (n : Nat) (f : Reader → Reader) (s : State) : (updReader n f s).evq = s.evq := rfl
@[simp] theorem updReader_ucs (n : Nat) (f : Reader → Reader) (s : State) : (updReader n f s).ucs = s.ucs := rfl
@[simp] theorem updReader_lis (n : Nat) (f : Reader → Reader) (s : State) : (updReader n f s).lis = s.lis := rfl
@[simp] theorem updReader_tiles (n : Nat) (f : Reader → Reader) (s : State) : (updReader n f s).tiles = s.tiles := rfl
@[simp] theorem updReader_maint (n : Nat) (f : Reader → Reader) (s : State) : (updReader n f s).maint = s.maint := rfl
@[simp] theorem updReader_cal (n : Nat) (f : Reader → Reader) (s : State) : (updReader n f s).cal = s.cal := rfl
@[simp] theorem updReader_tileCal (n : Nat) (f : Reader → Reader) (s : State) : (updReader n f s).tileCal = s.tileCal := rfl
@[simp] theorem updReader_hart (n : Nat) (f : Reader → Reader) (s : State) : (updReader n f s).hart = s.hart := rfl
@[simp] theorem updReader_dig (n : Nat) (f : Reader → Reader) (s : State) : (updReader n f s).dig = s.dig := rfl
@[simp] theorem updReader_icu (n : Nat) (f : Reader → Reader) (s : State) : (updReader n f s).icu = s.icu := rfl
@[simp] theorem updReader_red (n : Nat) (f : Reader → Reader) (s : State) : (updReader n f s).red = s.red := rfl
@[simp] theorem updReader_sync (n : Nat) (f : Reader → Reader) (s : State) : (updReader n f s).sync = s.sync := rfl
@[simp] theorem updReader_safe (n : Nat) (f : Reader → Reader) (s : State) : (updReader n f s).safe = s.safe := rfl
@[simp] theorem updReader_cans (n : Nat) (f : Reader → Reader) (s : State) : (updReader n f s).cans = s.cans := rfl
@[simp] theorem updReader_eths (n : Nat) (f : Reader → Reader) (s : State) : (updReader n f s).eths = s.eths := rfl
@[simp] theorem updReader_prp (n : Nat) (f : Reader → Reader) (s : State) : (updReader n f s).prp = s.prp := rfl
@[simp] theorem updReader_ptp (n : Nat) (f : Reader → Reader) (s : State) : (updReader n f s).ptp = s.ptp := rfl
@[simp] theorem updReader_host (n : Nat) (f : Reader → Reader) (s : State) : (updReader n f s).host = s.host := rfl
@[simp] theorem updReader_log (n : Nat) (f : Reader → Reader) (s : State) : (updReader n f s).log = s.log := rfl
@[simp] theorem updReader_panel (n : Nat) (f : Reader → Reader) (s : State) : (updReader n f s).panel = s.panel := rfl
@[simp] theorem updReader_mem (n : Nat) (f : Reader → Reader) (s : State) : (updReader n f s).mem = s.mem := rfl
@[simp] theorem updReader_resp (n : Nat) (f : Reader → Reader) (s : State) : (updReader n f s).resp = s.resp := rfl
@[simp] theorem updReader_free (n : Nat) (f : Reader → Reader) (s : State) : (updReader n f s).free = s.free := rfl
@[simp] theorem updReader_pending (n : Nat) (f : Reader → Reader) (s : State) : (updReader n f s).pending = s.pending := rfl
@[simp] theorem updReader_square_bufs (n : Nat) (f : Reader → Reader) (s : State) : (updReader n f s).square.bufs = s.square.bufs := rfl
@[simp] theorem updReader_square_newest (n : Nat) (f : Reader → Reader) (s : State) : (updReader n f s).square.newest = s.square.newest := rfl
@[simp] theorem updReader_square_writing (n : Nat) (f : Reader → Reader) (s : State) : (updReader n f s).square.writing = s.square.writing := rfl
@[simp] theorem updReader_square_count (n : Nat) (f : Reader → Reader) (s : State) : (updReader n f s).square.count = s.square.count := rfl
@[simp] theorem updReader_square_prevCn (n : Nat) (f : Reader → Reader) (s : State) : (updReader n f s).square.prevCn = s.square.prevCn := rfl
@[simp] theorem updReader_square_work (n : Nat) (f : Reader → Reader) (s : State) : (updReader n f s).square.work = s.square.work := rfl
@[simp] theorem updReader_square_closed (n : Nat) (f : Reader → Reader) (s : State) : (updReader n f s).square.closed = s.square.closed := rfl

@[simp] theorem updPoint_same (n : Nat) (f : Point → Point) (s : State) : pointGet (updPoint n f s) n = f (pointGet s n) := by simp [pointGet, updPoint]
@[simp] theorem updPoint_other (n : Nat) (f : Point → Point) (s : State) {k : Nat} (h : k ≠ n) : pointGet (updPoint n f s) k = pointGet s k := by
  simp [pointGet, updPoint, h]
@[simp] theorem updPoint_hdrs (n : Nat) (f : Point → Point) (s : State) : (updPoint n f s).hdrs = s.hdrs := rfl
@[simp] theorem updPoint_sys (n : Nat) (f : Point → Point) (s : State) : (updPoint n f s).sys = s.sys := rfl
@[simp] theorem updPoint_sup (n : Nat) (f : Point → Point) (s : State) : (updPoint n f s).sup = s.sup := rfl
@[simp] theorem updPoint_clk (n : Nat) (f : Point → Point) (s : State) : (updPoint n f s).clk = s.clk := rfl
@[simp] theorem updPoint_course (n : Nat) (f : Point → Point) (s : State) : (updPoint n f s).course = s.course := rfl
@[simp] theorem updPoint_plan (n : Nat) (f : Point → Point) (s : State) : (updPoint n f s).plan = s.plan := rfl
@[simp] theorem updPoint_loader (n : Nat) (f : Point → Point) (s : State) : (updPoint n f s).loader = s.loader := rfl
@[simp] theorem updPoint_square (n : Nat) (f : Point → Point) (s : State) : (updPoint n f s).square = s.square := rfl
@[simp] theorem updPoint_evq (n : Nat) (f : Point → Point) (s : State) : (updPoint n f s).evq = s.evq := rfl
@[simp] theorem updPoint_ucs (n : Nat) (f : Point → Point) (s : State) : (updPoint n f s).ucs = s.ucs := rfl
@[simp] theorem updPoint_lis (n : Nat) (f : Point → Point) (s : State) : (updPoint n f s).lis = s.lis := rfl
@[simp] theorem updPoint_tiles (n : Nat) (f : Point → Point) (s : State) : (updPoint n f s).tiles = s.tiles := rfl
@[simp] theorem updPoint_maint (n : Nat) (f : Point → Point) (s : State) : (updPoint n f s).maint = s.maint := rfl
@[simp] theorem updPoint_cal (n : Nat) (f : Point → Point) (s : State) : (updPoint n f s).cal = s.cal := rfl
@[simp] theorem updPoint_tileCal (n : Nat) (f : Point → Point) (s : State) : (updPoint n f s).tileCal = s.tileCal := rfl
@[simp] theorem updPoint_hart (n : Nat) (f : Point → Point) (s : State) : (updPoint n f s).hart = s.hart := rfl
@[simp] theorem updPoint_dig (n : Nat) (f : Point → Point) (s : State) : (updPoint n f s).dig = s.dig := rfl
@[simp] theorem updPoint_icu (n : Nat) (f : Point → Point) (s : State) : (updPoint n f s).icu = s.icu := rfl
@[simp] theorem updPoint_red (n : Nat) (f : Point → Point) (s : State) : (updPoint n f s).red = s.red := rfl
@[simp] theorem updPoint_sync (n : Nat) (f : Point → Point) (s : State) : (updPoint n f s).sync = s.sync := rfl
@[simp] theorem updPoint_safe (n : Nat) (f : Point → Point) (s : State) : (updPoint n f s).safe = s.safe := rfl
@[simp] theorem updPoint_cans (n : Nat) (f : Point → Point) (s : State) : (updPoint n f s).cans = s.cans := rfl
@[simp] theorem updPoint_eths (n : Nat) (f : Point → Point) (s : State) : (updPoint n f s).eths = s.eths := rfl
@[simp] theorem updPoint_prp (n : Nat) (f : Point → Point) (s : State) : (updPoint n f s).prp = s.prp := rfl
@[simp] theorem updPoint_ptp (n : Nat) (f : Point → Point) (s : State) : (updPoint n f s).ptp = s.ptp := rfl
@[simp] theorem updPoint_host (n : Nat) (f : Point → Point) (s : State) : (updPoint n f s).host = s.host := rfl
@[simp] theorem updPoint_log (n : Nat) (f : Point → Point) (s : State) : (updPoint n f s).log = s.log := rfl
@[simp] theorem updPoint_panel (n : Nat) (f : Point → Point) (s : State) : (updPoint n f s).panel = s.panel := rfl
@[simp] theorem updPoint_mem (n : Nat) (f : Point → Point) (s : State) : (updPoint n f s).mem = s.mem := rfl
@[simp] theorem updPoint_resp (n : Nat) (f : Point → Point) (s : State) : (updPoint n f s).resp = s.resp := rfl
@[simp] theorem updPoint_free (n : Nat) (f : Point → Point) (s : State) : (updPoint n f s).free = s.free := rfl
@[simp] theorem updPoint_pending (n : Nat) (f : Point → Point) (s : State) : (updPoint n f s).pending = s.pending := rfl
@[simp] theorem updPoint_alarm_groups (n : Nat) (f : Point → Point) (s : State) : (updPoint n f s).alarm.groups = s.alarm.groups := rfl
@[simp] theorem updPoint_alarm_selPoint (n : Nat) (f : Point → Point) (s : State) : (updPoint n f s).alarm.selPoint = s.alarm.selPoint := rfl
@[simp] theorem updPoint_alarm_selGroup (n : Nat) (f : Point → Point) (s : State) : (updPoint n f s).alarm.selGroup = s.alarm.selGroup := rfl
@[simp] theorem updPoint_alarm_presses (n : Nat) (f : Point → Point) (s : State) : (updPoint n f s).alarm.presses = s.alarm.presses := rfl
@[simp] theorem updPoint_alarm_raised (n : Nat) (f : Point → Point) (s : State) : (updPoint n f s).alarm.raised = s.alarm.raised := rfl
@[simp] theorem updPoint_alarm_call (n : Nat) (f : Point → Point) (s : State) : (updPoint n f s).alarm.call = s.alarm.call := rfl

@[simp] theorem updGroup_same (n : Nat) (f : Group → Group) (s : State) : groupGet (updGroup n f s) n = f (groupGet s n) := by simp [groupGet, updGroup]
@[simp] theorem updGroup_other (n : Nat) (f : Group → Group) (s : State) {k : Nat} (h : k ≠ n) : groupGet (updGroup n f s) k = groupGet s k := by
  simp [groupGet, updGroup, h]
@[simp] theorem updGroup_hdrs (n : Nat) (f : Group → Group) (s : State) : (updGroup n f s).hdrs = s.hdrs := rfl
@[simp] theorem updGroup_sys (n : Nat) (f : Group → Group) (s : State) : (updGroup n f s).sys = s.sys := rfl
@[simp] theorem updGroup_sup (n : Nat) (f : Group → Group) (s : State) : (updGroup n f s).sup = s.sup := rfl
@[simp] theorem updGroup_clk (n : Nat) (f : Group → Group) (s : State) : (updGroup n f s).clk = s.clk := rfl
@[simp] theorem updGroup_course (n : Nat) (f : Group → Group) (s : State) : (updGroup n f s).course = s.course := rfl
@[simp] theorem updGroup_plan (n : Nat) (f : Group → Group) (s : State) : (updGroup n f s).plan = s.plan := rfl
@[simp] theorem updGroup_loader (n : Nat) (f : Group → Group) (s : State) : (updGroup n f s).loader = s.loader := rfl
@[simp] theorem updGroup_square (n : Nat) (f : Group → Group) (s : State) : (updGroup n f s).square = s.square := rfl
@[simp] theorem updGroup_evq (n : Nat) (f : Group → Group) (s : State) : (updGroup n f s).evq = s.evq := rfl
@[simp] theorem updGroup_ucs (n : Nat) (f : Group → Group) (s : State) : (updGroup n f s).ucs = s.ucs := rfl
@[simp] theorem updGroup_lis (n : Nat) (f : Group → Group) (s : State) : (updGroup n f s).lis = s.lis := rfl
@[simp] theorem updGroup_tiles (n : Nat) (f : Group → Group) (s : State) : (updGroup n f s).tiles = s.tiles := rfl
@[simp] theorem updGroup_maint (n : Nat) (f : Group → Group) (s : State) : (updGroup n f s).maint = s.maint := rfl
@[simp] theorem updGroup_cal (n : Nat) (f : Group → Group) (s : State) : (updGroup n f s).cal = s.cal := rfl
@[simp] theorem updGroup_tileCal (n : Nat) (f : Group → Group) (s : State) : (updGroup n f s).tileCal = s.tileCal := rfl
@[simp] theorem updGroup_hart (n : Nat) (f : Group → Group) (s : State) : (updGroup n f s).hart = s.hart := rfl
@[simp] theorem updGroup_dig (n : Nat) (f : Group → Group) (s : State) : (updGroup n f s).dig = s.dig := rfl
@[simp] theorem updGroup_icu (n : Nat) (f : Group → Group) (s : State) : (updGroup n f s).icu = s.icu := rfl
@[simp] theorem updGroup_red (n : Nat) (f : Group → Group) (s : State) : (updGroup n f s).red = s.red := rfl
@[simp] theorem updGroup_sync (n : Nat) (f : Group → Group) (s : State) : (updGroup n f s).sync = s.sync := rfl
@[simp] theorem updGroup_safe (n : Nat) (f : Group → Group) (s : State) : (updGroup n f s).safe = s.safe := rfl
@[simp] theorem updGroup_cans (n : Nat) (f : Group → Group) (s : State) : (updGroup n f s).cans = s.cans := rfl
@[simp] theorem updGroup_eths (n : Nat) (f : Group → Group) (s : State) : (updGroup n f s).eths = s.eths := rfl
@[simp] theorem updGroup_prp (n : Nat) (f : Group → Group) (s : State) : (updGroup n f s).prp = s.prp := rfl
@[simp] theorem updGroup_ptp (n : Nat) (f : Group → Group) (s : State) : (updGroup n f s).ptp = s.ptp := rfl
@[simp] theorem updGroup_host (n : Nat) (f : Group → Group) (s : State) : (updGroup n f s).host = s.host := rfl
@[simp] theorem updGroup_log (n : Nat) (f : Group → Group) (s : State) : (updGroup n f s).log = s.log := rfl
@[simp] theorem updGroup_panel (n : Nat) (f : Group → Group) (s : State) : (updGroup n f s).panel = s.panel := rfl
@[simp] theorem updGroup_mem (n : Nat) (f : Group → Group) (s : State) : (updGroup n f s).mem = s.mem := rfl
@[simp] theorem updGroup_resp (n : Nat) (f : Group → Group) (s : State) : (updGroup n f s).resp = s.resp := rfl
@[simp] theorem updGroup_free (n : Nat) (f : Group → Group) (s : State) : (updGroup n f s).free = s.free := rfl
@[simp] theorem updGroup_pending (n : Nat) (f : Group → Group) (s : State) : (updGroup n f s).pending = s.pending := rfl
@[simp] theorem updGroup_alarm_points (n : Nat) (f : Group → Group) (s : State) : (updGroup n f s).alarm.points = s.alarm.points := rfl
@[simp] theorem updGroup_alarm_selPoint (n : Nat) (f : Group → Group) (s : State) : (updGroup n f s).alarm.selPoint = s.alarm.selPoint := rfl
@[simp] theorem updGroup_alarm_selGroup (n : Nat) (f : Group → Group) (s : State) : (updGroup n f s).alarm.selGroup = s.alarm.selGroup := rfl
@[simp] theorem updGroup_alarm_presses (n : Nat) (f : Group → Group) (s : State) : (updGroup n f s).alarm.presses = s.alarm.presses := rfl
@[simp] theorem updGroup_alarm_raised (n : Nat) (f : Group → Group) (s : State) : (updGroup n f s).alarm.raised = s.alarm.raised := rfl
@[simp] theorem updGroup_alarm_call (n : Nat) (f : Group → Group) (s : State) : (updGroup n f s).alarm.call = s.alarm.call := rfl

@[simp] theorem updCall_same (f : CallBlk → CallBlk) (s : State) : (updCall f s).alarm.call = f s.alarm.call := rfl
@[simp] theorem updCall_hdrs (f : CallBlk → CallBlk) (s : State) : (updCall f s).hdrs = s.hdrs := rfl
@[simp] theorem updCall_sys (f : CallBlk → CallBlk) (s : State) : (updCall f s).sys = s.sys := rfl
@[simp] theorem updCall_sup (f : CallBlk → CallBlk) (s : State) : (updCall f s).sup = s.sup := rfl
@[simp] theorem updCall_clk (f : CallBlk → CallBlk) (s : State) : (updCall f s).clk = s.clk := rfl
@[simp] theorem updCall_course (f : CallBlk → CallBlk) (s : State) : (updCall f s).course = s.course := rfl
@[simp] theorem updCall_plan (f : CallBlk → CallBlk) (s : State) : (updCall f s).plan = s.plan := rfl
@[simp] theorem updCall_loader (f : CallBlk → CallBlk) (s : State) : (updCall f s).loader = s.loader := rfl
@[simp] theorem updCall_square (f : CallBlk → CallBlk) (s : State) : (updCall f s).square = s.square := rfl
@[simp] theorem updCall_evq (f : CallBlk → CallBlk) (s : State) : (updCall f s).evq = s.evq := rfl
@[simp] theorem updCall_ucs (f : CallBlk → CallBlk) (s : State) : (updCall f s).ucs = s.ucs := rfl
@[simp] theorem updCall_lis (f : CallBlk → CallBlk) (s : State) : (updCall f s).lis = s.lis := rfl
@[simp] theorem updCall_tiles (f : CallBlk → CallBlk) (s : State) : (updCall f s).tiles = s.tiles := rfl
@[simp] theorem updCall_maint (f : CallBlk → CallBlk) (s : State) : (updCall f s).maint = s.maint := rfl
@[simp] theorem updCall_cal (f : CallBlk → CallBlk) (s : State) : (updCall f s).cal = s.cal := rfl
@[simp] theorem updCall_tileCal (f : CallBlk → CallBlk) (s : State) : (updCall f s).tileCal = s.tileCal := rfl
@[simp] theorem updCall_hart (f : CallBlk → CallBlk) (s : State) : (updCall f s).hart = s.hart := rfl
@[simp] theorem updCall_dig (f : CallBlk → CallBlk) (s : State) : (updCall f s).dig = s.dig := rfl
@[simp] theorem updCall_icu (f : CallBlk → CallBlk) (s : State) : (updCall f s).icu = s.icu := rfl
@[simp] theorem updCall_red (f : CallBlk → CallBlk) (s : State) : (updCall f s).red = s.red := rfl
@[simp] theorem updCall_sync (f : CallBlk → CallBlk) (s : State) : (updCall f s).sync = s.sync := rfl
@[simp] theorem updCall_safe (f : CallBlk → CallBlk) (s : State) : (updCall f s).safe = s.safe := rfl
@[simp] theorem updCall_cans (f : CallBlk → CallBlk) (s : State) : (updCall f s).cans = s.cans := rfl
@[simp] theorem updCall_eths (f : CallBlk → CallBlk) (s : State) : (updCall f s).eths = s.eths := rfl
@[simp] theorem updCall_prp (f : CallBlk → CallBlk) (s : State) : (updCall f s).prp = s.prp := rfl
@[simp] theorem updCall_ptp (f : CallBlk → CallBlk) (s : State) : (updCall f s).ptp = s.ptp := rfl
@[simp] theorem updCall_host (f : CallBlk → CallBlk) (s : State) : (updCall f s).host = s.host := rfl
@[simp] theorem updCall_log (f : CallBlk → CallBlk) (s : State) : (updCall f s).log = s.log := rfl
@[simp] theorem updCall_panel (f : CallBlk → CallBlk) (s : State) : (updCall f s).panel = s.panel := rfl
@[simp] theorem updCall_mem (f : CallBlk → CallBlk) (s : State) : (updCall f s).mem = s.mem := rfl
@[simp] theorem updCall_resp (f : CallBlk → CallBlk) (s : State) : (updCall f s).resp = s.resp := rfl
@[simp] theorem updCall_free (f : CallBlk → CallBlk) (s : State) : (updCall f s).free = s.free := rfl
@[simp] theorem updCall_pending (f : CallBlk → CallBlk) (s : State) : (updCall f s).pending = s.pending := rfl
@[simp] theorem updCall_alarm_points (f : CallBlk → CallBlk) (s : State) : (updCall f s).alarm.points = s.alarm.points := rfl
@[simp] theorem updCall_alarm_groups (f : CallBlk → CallBlk) (s : State) : (updCall f s).alarm.groups = s.alarm.groups := rfl
@[simp] theorem updCall_alarm_selPoint (f : CallBlk → CallBlk) (s : State) : (updCall f s).alarm.selPoint = s.alarm.selPoint := rfl
@[simp] theorem updCall_alarm_selGroup (f : CallBlk → CallBlk) (s : State) : (updCall f s).alarm.selGroup = s.alarm.selGroup := rfl
@[simp] theorem updCall_alarm_presses (f : CallBlk → CallBlk) (s : State) : (updCall f s).alarm.presses = s.alarm.presses := rfl
@[simp] theorem updCall_alarm_raised (f : CallBlk → CallBlk) (s : State) : (updCall f s).alarm.raised = s.alarm.raised := rfl

@[simp] theorem updModem_same (n : Nat) (f : Modem → Modem) (s : State) : modem (updModem n f s) n = f (modem s n) := by simp [modem, updModem]
@[simp] theorem updModem_other (n : Nat) (f : Modem → Modem) (s : State) {k : Nat} (h : k ≠ n) : modem (updModem n f s) k = modem s k := by
  simp [modem, updModem, h]
@[simp] theorem updModem_hdrs (n : Nat) (f : Modem → Modem) (s : State) : (updModem n f s).hdrs = s.hdrs := rfl
@[simp] theorem updModem_sys (n : Nat) (f : Modem → Modem) (s : State) : (updModem n f s).sys = s.sys := rfl
@[simp] theorem updModem_sup (n : Nat) (f : Modem → Modem) (s : State) : (updModem n f s).sup = s.sup := rfl
@[simp] theorem updModem_clk (n : Nat) (f : Modem → Modem) (s : State) : (updModem n f s).clk = s.clk := rfl
@[simp] theorem updModem_course (n : Nat) (f : Modem → Modem) (s : State) : (updModem n f s).course = s.course := rfl
@[simp] theorem updModem_plan (n : Nat) (f : Modem → Modem) (s : State) : (updModem n f s).plan = s.plan := rfl
@[simp] theorem updModem_loader (n : Nat) (f : Modem → Modem) (s : State) : (updModem n f s).loader = s.loader := rfl
@[simp] theorem updModem_square (n : Nat) (f : Modem → Modem) (s : State) : (updModem n f s).square = s.square := rfl
@[simp] theorem updModem_alarm (n : Nat) (f : Modem → Modem) (s : State) : (updModem n f s).alarm = s.alarm := rfl
@[simp] theorem updModem_evq (n : Nat) (f : Modem → Modem) (s : State) : (updModem n f s).evq = s.evq := rfl
@[simp] theorem updModem_ucs (n : Nat) (f : Modem → Modem) (s : State) : (updModem n f s).ucs = s.ucs := rfl
@[simp] theorem updModem_lis (n : Nat) (f : Modem → Modem) (s : State) : (updModem n f s).lis = s.lis := rfl
@[simp] theorem updModem_tiles (n : Nat) (f : Modem → Modem) (s : State) : (updModem n f s).tiles = s.tiles := rfl
@[simp] theorem updModem_maint (n : Nat) (f : Modem → Modem) (s : State) : (updModem n f s).maint = s.maint := rfl
@[simp] theorem updModem_cal (n : Nat) (f : Modem → Modem) (s : State) : (updModem n f s).cal = s.cal := rfl
@[simp] theorem updModem_tileCal (n : Nat) (f : Modem → Modem) (s : State) : (updModem n f s).tileCal = s.tileCal := rfl
@[simp] theorem updModem_dig (n : Nat) (f : Modem → Modem) (s : State) : (updModem n f s).dig = s.dig := rfl
@[simp] theorem updModem_icu (n : Nat) (f : Modem → Modem) (s : State) : (updModem n f s).icu = s.icu := rfl
@[simp] theorem updModem_red (n : Nat) (f : Modem → Modem) (s : State) : (updModem n f s).red = s.red := rfl
@[simp] theorem updModem_sync (n : Nat) (f : Modem → Modem) (s : State) : (updModem n f s).sync = s.sync := rfl
@[simp] theorem updModem_safe (n : Nat) (f : Modem → Modem) (s : State) : (updModem n f s).safe = s.safe := rfl
@[simp] theorem updModem_cans (n : Nat) (f : Modem → Modem) (s : State) : (updModem n f s).cans = s.cans := rfl
@[simp] theorem updModem_eths (n : Nat) (f : Modem → Modem) (s : State) : (updModem n f s).eths = s.eths := rfl
@[simp] theorem updModem_prp (n : Nat) (f : Modem → Modem) (s : State) : (updModem n f s).prp = s.prp := rfl
@[simp] theorem updModem_ptp (n : Nat) (f : Modem → Modem) (s : State) : (updModem n f s).ptp = s.ptp := rfl
@[simp] theorem updModem_host (n : Nat) (f : Modem → Modem) (s : State) : (updModem n f s).host = s.host := rfl
@[simp] theorem updModem_log (n : Nat) (f : Modem → Modem) (s : State) : (updModem n f s).log = s.log := rfl
@[simp] theorem updModem_panel (n : Nat) (f : Modem → Modem) (s : State) : (updModem n f s).panel = s.panel := rfl
@[simp] theorem updModem_mem (n : Nat) (f : Modem → Modem) (s : State) : (updModem n f s).mem = s.mem := rfl
@[simp] theorem updModem_resp (n : Nat) (f : Modem → Modem) (s : State) : (updModem n f s).resp = s.resp := rfl
@[simp] theorem updModem_free (n : Nat) (f : Modem → Modem) (s : State) : (updModem n f s).free = s.free := rfl
@[simp] theorem updModem_pending (n : Nat) (f : Modem → Modem) (s : State) : (updModem n f s).pending = s.pending := rfl
@[simp] theorem updModem_hart_cfg (n : Nat) (f : Modem → Modem) (s : State) : (updModem n f s).hart.cfg = s.hart.cfg := rfl
@[simp] theorem updModem_hart_descs (n : Nat) (f : Modem → Modem) (s : State) : (updModem n f s).hart.descs = s.hart.descs := rfl
@[simp] theorem updModem_hart_queue (n : Nat) (f : Modem → Modem) (s : State) : (updModem n f s).hart.queue = s.hart.queue := rfl

@[simp] theorem updDesc_same (n : Nat) (f : HartDesc → HartDesc) (s : State) : desc (updDesc n f s) n = f (desc s n) := by simp [desc, updDesc]
@[simp] theorem updDesc_other (n : Nat) (f : HartDesc → HartDesc) (s : State) {k : Nat} (h : k ≠ n) : desc (updDesc n f s) k = desc s k := by
  simp [desc, updDesc, h]
@[simp] theorem updDesc_hdrs (n : Nat) (f : HartDesc → HartDesc) (s : State) : (updDesc n f s).hdrs = s.hdrs := rfl
@[simp] theorem updDesc_sys (n : Nat) (f : HartDesc → HartDesc) (s : State) : (updDesc n f s).sys = s.sys := rfl
@[simp] theorem updDesc_sup (n : Nat) (f : HartDesc → HartDesc) (s : State) : (updDesc n f s).sup = s.sup := rfl
@[simp] theorem updDesc_clk (n : Nat) (f : HartDesc → HartDesc) (s : State) : (updDesc n f s).clk = s.clk := rfl
@[simp] theorem updDesc_course (n : Nat) (f : HartDesc → HartDesc) (s : State) : (updDesc n f s).course = s.course := rfl
@[simp] theorem updDesc_plan (n : Nat) (f : HartDesc → HartDesc) (s : State) : (updDesc n f s).plan = s.plan := rfl
@[simp] theorem updDesc_loader (n : Nat) (f : HartDesc → HartDesc) (s : State) : (updDesc n f s).loader = s.loader := rfl
@[simp] theorem updDesc_square (n : Nat) (f : HartDesc → HartDesc) (s : State) : (updDesc n f s).square = s.square := rfl
@[simp] theorem updDesc_alarm (n : Nat) (f : HartDesc → HartDesc) (s : State) : (updDesc n f s).alarm = s.alarm := rfl
@[simp] theorem updDesc_evq (n : Nat) (f : HartDesc → HartDesc) (s : State) : (updDesc n f s).evq = s.evq := rfl
@[simp] theorem updDesc_ucs (n : Nat) (f : HartDesc → HartDesc) (s : State) : (updDesc n f s).ucs = s.ucs := rfl
@[simp] theorem updDesc_lis (n : Nat) (f : HartDesc → HartDesc) (s : State) : (updDesc n f s).lis = s.lis := rfl
@[simp] theorem updDesc_tiles (n : Nat) (f : HartDesc → HartDesc) (s : State) : (updDesc n f s).tiles = s.tiles := rfl
@[simp] theorem updDesc_maint (n : Nat) (f : HartDesc → HartDesc) (s : State) : (updDesc n f s).maint = s.maint := rfl
@[simp] theorem updDesc_cal (n : Nat) (f : HartDesc → HartDesc) (s : State) : (updDesc n f s).cal = s.cal := rfl
@[simp] theorem updDesc_tileCal (n : Nat) (f : HartDesc → HartDesc) (s : State) : (updDesc n f s).tileCal = s.tileCal := rfl
@[simp] theorem updDesc_dig (n : Nat) (f : HartDesc → HartDesc) (s : State) : (updDesc n f s).dig = s.dig := rfl
@[simp] theorem updDesc_icu (n : Nat) (f : HartDesc → HartDesc) (s : State) : (updDesc n f s).icu = s.icu := rfl
@[simp] theorem updDesc_red (n : Nat) (f : HartDesc → HartDesc) (s : State) : (updDesc n f s).red = s.red := rfl
@[simp] theorem updDesc_sync (n : Nat) (f : HartDesc → HartDesc) (s : State) : (updDesc n f s).sync = s.sync := rfl
@[simp] theorem updDesc_safe (n : Nat) (f : HartDesc → HartDesc) (s : State) : (updDesc n f s).safe = s.safe := rfl
@[simp] theorem updDesc_cans (n : Nat) (f : HartDesc → HartDesc) (s : State) : (updDesc n f s).cans = s.cans := rfl
@[simp] theorem updDesc_eths (n : Nat) (f : HartDesc → HartDesc) (s : State) : (updDesc n f s).eths = s.eths := rfl
@[simp] theorem updDesc_prp (n : Nat) (f : HartDesc → HartDesc) (s : State) : (updDesc n f s).prp = s.prp := rfl
@[simp] theorem updDesc_ptp (n : Nat) (f : HartDesc → HartDesc) (s : State) : (updDesc n f s).ptp = s.ptp := rfl
@[simp] theorem updDesc_host (n : Nat) (f : HartDesc → HartDesc) (s : State) : (updDesc n f s).host = s.host := rfl
@[simp] theorem updDesc_log (n : Nat) (f : HartDesc → HartDesc) (s : State) : (updDesc n f s).log = s.log := rfl
@[simp] theorem updDesc_panel (n : Nat) (f : HartDesc → HartDesc) (s : State) : (updDesc n f s).panel = s.panel := rfl
@[simp] theorem updDesc_mem (n : Nat) (f : HartDesc → HartDesc) (s : State) : (updDesc n f s).mem = s.mem := rfl
@[simp] theorem updDesc_resp (n : Nat) (f : HartDesc → HartDesc) (s : State) : (updDesc n f s).resp = s.resp := rfl
@[simp] theorem updDesc_free (n : Nat) (f : HartDesc → HartDesc) (s : State) : (updDesc n f s).free = s.free := rfl
@[simp] theorem updDesc_pending (n : Nat) (f : HartDesc → HartDesc) (s : State) : (updDesc n f s).pending = s.pending := rfl
@[simp] theorem updDesc_hart_cfg (n : Nat) (f : HartDesc → HartDesc) (s : State) : (updDesc n f s).hart.cfg = s.hart.cfg := rfl
@[simp] theorem updDesc_hart_modems (n : Nat) (f : HartDesc → HartDesc) (s : State) : (updDesc n f s).hart.modems = s.hart.modems := rfl
@[simp] theorem updDesc_hart_queue (n : Nat) (f : HartDesc → HartDesc) (s : State) : (updDesc n f s).hart.queue = s.hart.queue := rfl

@[simp] theorem updDistrict_same (n : Nat) (f : District → District) (s : State) : district (updDistrict n f s) n = f (district s n) := by simp [district, updDistrict]
@[simp] theorem updDistrict_other (n : Nat) (f : District → District) (s : State) {k : Nat} (h : k ≠ n) : district (updDistrict n f s) k = district s k := by
  simp [district, updDistrict, h]
@[simp] theorem updDistrict_hdrs (n : Nat) (f : District → District) (s : State) : (updDistrict n f s).hdrs = s.hdrs := rfl
@[simp] theorem updDistrict_sys (n : Nat) (f : District → District) (s : State) : (updDistrict n f s).sys = s.sys := rfl
@[simp] theorem updDistrict_sup (n : Nat) (f : District → District) (s : State) : (updDistrict n f s).sup = s.sup := rfl
@[simp] theorem updDistrict_clk (n : Nat) (f : District → District) (s : State) : (updDistrict n f s).clk = s.clk := rfl
@[simp] theorem updDistrict_course (n : Nat) (f : District → District) (s : State) : (updDistrict n f s).course = s.course := rfl
@[simp] theorem updDistrict_loader (n : Nat) (f : District → District) (s : State) : (updDistrict n f s).loader = s.loader := rfl
@[simp] theorem updDistrict_square (n : Nat) (f : District → District) (s : State) : (updDistrict n f s).square = s.square := rfl
@[simp] theorem updDistrict_alarm (n : Nat) (f : District → District) (s : State) : (updDistrict n f s).alarm = s.alarm := rfl
@[simp] theorem updDistrict_evq (n : Nat) (f : District → District) (s : State) : (updDistrict n f s).evq = s.evq := rfl
@[simp] theorem updDistrict_ucs (n : Nat) (f : District → District) (s : State) : (updDistrict n f s).ucs = s.ucs := rfl
@[simp] theorem updDistrict_lis (n : Nat) (f : District → District) (s : State) : (updDistrict n f s).lis = s.lis := rfl
@[simp] theorem updDistrict_tiles (n : Nat) (f : District → District) (s : State) : (updDistrict n f s).tiles = s.tiles := rfl
@[simp] theorem updDistrict_maint (n : Nat) (f : District → District) (s : State) : (updDistrict n f s).maint = s.maint := rfl
@[simp] theorem updDistrict_cal (n : Nat) (f : District → District) (s : State) : (updDistrict n f s).cal = s.cal := rfl
@[simp] theorem updDistrict_tileCal (n : Nat) (f : District → District) (s : State) : (updDistrict n f s).tileCal = s.tileCal := rfl
@[simp] theorem updDistrict_hart (n : Nat) (f : District → District) (s : State) : (updDistrict n f s).hart = s.hart := rfl
@[simp] theorem updDistrict_dig (n : Nat) (f : District → District) (s : State) : (updDistrict n f s).dig = s.dig := rfl
@[simp] theorem updDistrict_icu (n : Nat) (f : District → District) (s : State) : (updDistrict n f s).icu = s.icu := rfl
@[simp] theorem updDistrict_red (n : Nat) (f : District → District) (s : State) : (updDistrict n f s).red = s.red := rfl
@[simp] theorem updDistrict_sync (n : Nat) (f : District → District) (s : State) : (updDistrict n f s).sync = s.sync := rfl
@[simp] theorem updDistrict_safe (n : Nat) (f : District → District) (s : State) : (updDistrict n f s).safe = s.safe := rfl
@[simp] theorem updDistrict_cans (n : Nat) (f : District → District) (s : State) : (updDistrict n f s).cans = s.cans := rfl
@[simp] theorem updDistrict_eths (n : Nat) (f : District → District) (s : State) : (updDistrict n f s).eths = s.eths := rfl
@[simp] theorem updDistrict_prp (n : Nat) (f : District → District) (s : State) : (updDistrict n f s).prp = s.prp := rfl
@[simp] theorem updDistrict_ptp (n : Nat) (f : District → District) (s : State) : (updDistrict n f s).ptp = s.ptp := rfl
@[simp] theorem updDistrict_host (n : Nat) (f : District → District) (s : State) : (updDistrict n f s).host = s.host := rfl
@[simp] theorem updDistrict_log (n : Nat) (f : District → District) (s : State) : (updDistrict n f s).log = s.log := rfl
@[simp] theorem updDistrict_panel (n : Nat) (f : District → District) (s : State) : (updDistrict n f s).panel = s.panel := rfl
@[simp] theorem updDistrict_mem (n : Nat) (f : District → District) (s : State) : (updDistrict n f s).mem = s.mem := rfl
@[simp] theorem updDistrict_resp (n : Nat) (f : District → District) (s : State) : (updDistrict n f s).resp = s.resp := rfl
@[simp] theorem updDistrict_free (n : Nat) (f : District → District) (s : State) : (updDistrict n f s).free = s.free := rfl
@[simp] theorem updDistrict_pending (n : Nat) (f : District → District) (s : State) : (updDistrict n f s).pending = s.pending := rfl
@[simp] theorem updDistrict_plan_state (n : Nat) (f : District → District) (s : State) : (updDistrict n f s).plan.state = s.plan.state := rfl
@[simp] theorem updDistrict_plan_lcode (n : Nat) (f : District → District) (s : State) : (updDistrict n f s).plan.lcode = s.plan.lcode := rfl
@[simp] theorem updDistrict_plan_lopc (n : Nat) (f : District → District) (s : State) : (updDistrict n f s).plan.lopc = s.plan.lopc := rfl
@[simp] theorem updDistrict_plan_lds (n : Nat) (f : District → District) (s : State) : (updDistrict n f s).plan.lds = s.plan.lds := rfl
@[simp] theorem updDistrict_plan_wall (n : Nat) (f : District → District) (s : State) : (updDistrict n f s).plan.wall = s.plan.wall := rfl
@[simp] theorem updDistrict_plan_id (n : Nat) (f : District → District) (s : State) : (updDistrict n f s).plan.id = s.plan.id := rfl
@[simp] theorem updDistrict_plan_base0 (n : Nat) (f : District → District) (s : State) : (updDistrict n f s).plan.base0 = s.plan.base0 := rfl
@[simp] theorem updDistrict_plan_base1 (n : Nat) (f : District → District) (s : State) : (updDistrict n f s).plan.base1 = s.plan.base1 := rfl
@[simp] theorem updDistrict_plan_buildTag (n : Nat) (f : District → District) (s : State) : (updDistrict n f s).plan.buildTag = s.plan.buildTag := rfl
@[simp] theorem updDistrict_plan_entries (n : Nat) (f : District → District) (s : State) : (updDistrict n f s).plan.entries = s.plan.entries := rfl
@[simp] theorem updDistrict_plan_retired (n : Nat) (f : District → District) (s : State) : (updDistrict n f s).plan.retired = s.plan.retired := rfl
@[simp] theorem updDistrict_plan_boot (n : Nat) (f : District → District) (s : State) : (updDistrict n f s).plan.boot = s.plan.boot := rfl
@[simp] theorem updDistrict_plan_alt (n : Nat) (f : District → District) (s : State) : (updDistrict n f s).plan.alt = s.plan.alt := rfl
@[simp] theorem updDistrict_plan_src (n : Nat) (f : District → District) (s : State) : (updDistrict n f s).plan.src = s.plan.src := rfl
@[simp] theorem updDistrict_plan_len (n : Nat) (f : District → District) (s : State) : (updDistrict n f s).plan.len = s.plan.len := rfl
@[simp] theorem updDistrict_plan_winsel (n : Nat) (f : District → District) (s : State) : (updDistrict n f s).plan.winsel = s.plan.winsel := rfl
@[simp] theorem updDistrict_plan_norLast (n : Nat) (f : District → District) (s : State) : (updDistrict n f s).plan.norLast = s.plan.norLast := rfl
@[simp] theorem updDistrict_plan_norBank (n : Nat) (f : District → District) (s : State) : (updDistrict n f s).plan.norBank = s.plan.norBank := rfl
@[simp] theorem updDistrict_plan_nor (n : Nat) (f : District → District) (s : State) : (updDistrict n f s).plan.nor = s.plan.nor := rfl
@[simp] theorem updDistrict_plan_erases (n : Nat) (f : District → District) (s : State) : (updDistrict n f s).plan.erases = s.plan.erases := rfl
@[simp] theorem updDistrict_plan_key (n : Nat) (f : District → District) (s : State) : (updDistrict n f s).plan.key = s.plan.key := rfl

@[simp] theorem updCtx_same (n : Nat) (f : ChanCtx → ChanCtx) (s : State) : chanCtx (updCtx n f s) n = f (chanCtx s n) := by simp [chanCtx, updCtx]
@[simp] theorem updCtx_other (n : Nat) (f : ChanCtx → ChanCtx) (s : State) {k : Nat} (h : k ≠ n) : chanCtx (updCtx n f s) k = chanCtx s k := by
  simp [chanCtx, updCtx, h]
@[simp] theorem updCtx_hdrs (n : Nat) (f : ChanCtx → ChanCtx) (s : State) : (updCtx n f s).hdrs = s.hdrs := rfl
@[simp] theorem updCtx_sys (n : Nat) (f : ChanCtx → ChanCtx) (s : State) : (updCtx n f s).sys = s.sys := rfl
@[simp] theorem updCtx_sup (n : Nat) (f : ChanCtx → ChanCtx) (s : State) : (updCtx n f s).sup = s.sup := rfl
@[simp] theorem updCtx_clk (n : Nat) (f : ChanCtx → ChanCtx) (s : State) : (updCtx n f s).clk = s.clk := rfl
@[simp] theorem updCtx_plan (n : Nat) (f : ChanCtx → ChanCtx) (s : State) : (updCtx n f s).plan = s.plan := rfl
@[simp] theorem updCtx_loader (n : Nat) (f : ChanCtx → ChanCtx) (s : State) : (updCtx n f s).loader = s.loader := rfl
@[simp] theorem updCtx_square (n : Nat) (f : ChanCtx → ChanCtx) (s : State) : (updCtx n f s).square = s.square := rfl
@[simp] theorem updCtx_alarm (n : Nat) (f : ChanCtx → ChanCtx) (s : State) : (updCtx n f s).alarm = s.alarm := rfl
@[simp] theorem updCtx_evq (n : Nat) (f : ChanCtx → ChanCtx) (s : State) : (updCtx n f s).evq = s.evq := rfl
@[simp] theorem updCtx_ucs (n : Nat) (f : ChanCtx → ChanCtx) (s : State) : (updCtx n f s).ucs = s.ucs := rfl
@[simp] theorem updCtx_lis (n : Nat) (f : ChanCtx → ChanCtx) (s : State) : (updCtx n f s).lis = s.lis := rfl
@[simp] theorem updCtx_tiles (n : Nat) (f : ChanCtx → ChanCtx) (s : State) : (updCtx n f s).tiles = s.tiles := rfl
@[simp] theorem updCtx_maint (n : Nat) (f : ChanCtx → ChanCtx) (s : State) : (updCtx n f s).maint = s.maint := rfl
@[simp] theorem updCtx_cal (n : Nat) (f : ChanCtx → ChanCtx) (s : State) : (updCtx n f s).cal = s.cal := rfl
@[simp] theorem updCtx_tileCal (n : Nat) (f : ChanCtx → ChanCtx) (s : State) : (updCtx n f s).tileCal = s.tileCal := rfl
@[simp] theorem updCtx_hart (n : Nat) (f : ChanCtx → ChanCtx) (s : State) : (updCtx n f s).hart = s.hart := rfl
@[simp] theorem updCtx_dig (n : Nat) (f : ChanCtx → ChanCtx) (s : State) : (updCtx n f s).dig = s.dig := rfl
@[simp] theorem updCtx_icu (n : Nat) (f : ChanCtx → ChanCtx) (s : State) : (updCtx n f s).icu = s.icu := rfl
@[simp] theorem updCtx_red (n : Nat) (f : ChanCtx → ChanCtx) (s : State) : (updCtx n f s).red = s.red := rfl
@[simp] theorem updCtx_sync (n : Nat) (f : ChanCtx → ChanCtx) (s : State) : (updCtx n f s).sync = s.sync := rfl
@[simp] theorem updCtx_safe (n : Nat) (f : ChanCtx → ChanCtx) (s : State) : (updCtx n f s).safe = s.safe := rfl
@[simp] theorem updCtx_cans (n : Nat) (f : ChanCtx → ChanCtx) (s : State) : (updCtx n f s).cans = s.cans := rfl
@[simp] theorem updCtx_eths (n : Nat) (f : ChanCtx → ChanCtx) (s : State) : (updCtx n f s).eths = s.eths := rfl
@[simp] theorem updCtx_prp (n : Nat) (f : ChanCtx → ChanCtx) (s : State) : (updCtx n f s).prp = s.prp := rfl
@[simp] theorem updCtx_ptp (n : Nat) (f : ChanCtx → ChanCtx) (s : State) : (updCtx n f s).ptp = s.ptp := rfl
@[simp] theorem updCtx_host (n : Nat) (f : ChanCtx → ChanCtx) (s : State) : (updCtx n f s).host = s.host := rfl
@[simp] theorem updCtx_log (n : Nat) (f : ChanCtx → ChanCtx) (s : State) : (updCtx n f s).log = s.log := rfl
@[simp] theorem updCtx_panel (n : Nat) (f : ChanCtx → ChanCtx) (s : State) : (updCtx n f s).panel = s.panel := rfl
@[simp] theorem updCtx_mem (n : Nat) (f : ChanCtx → ChanCtx) (s : State) : (updCtx n f s).mem = s.mem := rfl
@[simp] theorem updCtx_resp (n : Nat) (f : ChanCtx → ChanCtx) (s : State) : (updCtx n f s).resp = s.resp := rfl
@[simp] theorem updCtx_free (n : Nat) (f : ChanCtx → ChanCtx) (s : State) : (updCtx n f s).free = s.free := rfl
@[simp] theorem updCtx_pending (n : Nat) (f : ChanCtx → ChanCtx) (s : State) : (updCtx n f s).pending = s.pending := rfl
@[simp] theorem updCtx_course_cn (n : Nat) (f : ChanCtx → ChanCtx) (s : State) : (updCtx n f s).course.cn = s.course.cn := rfl
@[simp] theorem updCtx_course_wi (n : Nat) (f : ChanCtx → ChanCtx) (s : State) : (updCtx n f s).course.wi = s.course.wi := rfl
@[simp] theorem updCtx_course_run (n : Nat) (f : ChanCtx → ChanCtx) (s : State) : (updCtx n f s).course.run = s.course.run := rfl
@[simp] theorem updCtx_course_e0 (n : Nat) (f : ChanCtx → ChanCtx) (s : State) : (updCtx n f s).course.e0 = s.course.e0 := rfl
@[simp] theorem updCtx_course_e1 (n : Nat) (f : ChanCtx → ChanCtx) (s : State) : (updCtx n f s).course.e1 = s.course.e1 := rfl
@[simp] theorem updCtx_course_faulted (n : Nat) (f : ChanCtx → ChanCtx) (s : State) : (updCtx n f s).course.faulted = s.course.faulted := rfl
@[simp] theorem updCtx_course_prevFaulted (n : Nat) (f : ChanCtx → ChanCtx) (s : State) : (updCtx n f s).course.prevFaulted = s.course.prevFaulted := rfl
@[simp] theorem updCtx_course_fltEngine (n : Nat) (f : ChanCtx → ChanCtx) (s : State) : (updCtx n f s).course.fltEngine = s.course.fltEngine := rfl
@[simp] theorem updCtx_course_fltWi (n : Nat) (f : ChanCtx → ChanCtx) (s : State) : (updCtx n f s).course.fltWi = s.course.fltWi := rfl
@[simp] theorem updCtx_course_fltPos (n : Nat) (f : ChanCtx → ChanCtx) (s : State) : (updCtx n f s).course.fltPos = s.course.fltPos := rfl
@[simp] theorem updCtx_course_fltCause (n : Nat) (f : ChanCtx → ChanCtx) (s : State) : (updCtx n f s).course.fltCause = s.course.fltCause := rfl
@[simp] theorem updCtx_course_faultCn (n : Nat) (f : ChanCtx → ChanCtx) (s : State) : (updCtx n f s).course.faultCn = s.course.faultCn := rfl
@[simp] theorem updCtx_course_faultSeen (n : Nat) (f : ChanCtx → ChanCtx) (s : State) : (updCtx n f s).course.faultSeen = s.course.faultSeen := rfl
@[simp] theorem updCtx_course_ecc1 (n : Nat) (f : ChanCtx → ChanCtx) (s : State) : (updCtx n f s).course.ecc1 = s.course.ecc1 := rfl
@[simp] theorem updCtx_course_faults (n : Nat) (f : ChanCtx → ChanCtx) (s : State) : (updCtx n f s).course.faults = s.course.faults := rfl
@[simp] theorem updCtx_course_clearPeak (n : Nat) (f : ChanCtx → ChanCtx) (s : State) : (updCtx n f s).course.clearPeak = s.course.clearPeak := rfl
@[simp] theorem updCtx_course_latch (n : Nat) (f : ChanCtx → ChanCtx) (s : State) : (updCtx n f s).course.latch = s.course.latch := rfl
@[simp] theorem updCtx_course_snap (n : Nat) (f : ChanCtx → ChanCtx) (s : State) : (updCtx n f s).course.snap = s.course.snap := rfl
@[simp] theorem updCtx_course_prevIn (n : Nat) (f : ChanCtx → ChanCtx) (s : State) : (updCtx n f s).course.prevIn = s.course.prevIn := rfl
@[simp] theorem updCtx_course_dioLatch (n : Nat) (f : ChanCtx → ChanCtx) (s : State) : (updCtx n f s).course.dioLatch = s.course.dioLatch := rfl
@[simp] theorem updCtx_course_dioHeld (n : Nat) (f : ChanCtx → ChanCtx) (s : State) : (updCtx n f s).course.dioHeld = s.course.dioHeld := rfl
@[simp] theorem updCtx_course_ucLatch (n : Nat) (f : ChanCtx → ChanCtx) (s : State) : (updCtx n f s).course.ucLatch = s.course.ucLatch := rfl
@[simp] theorem updCtx_course_ucHeld (n : Nat) (f : ChanCtx → ChanCtx) (s : State) : (updCtx n f s).course.ucHeld = s.course.ucHeld := rfl

@[simp] theorem updPart_same (n : Nat) (f : LogPart → LogPart) (s : State) : logPart (updPart n f s) n = f (logPart s n) := by simp [logPart, updPart]
@[simp] theorem updPart_other (n : Nat) (f : LogPart → LogPart) (s : State) {k : Nat} (h : k ≠ n) : logPart (updPart n f s) k = logPart s k := by
  simp [logPart, updPart, h]
@[simp] theorem updPart_hdrs (n : Nat) (f : LogPart → LogPart) (s : State) : (updPart n f s).hdrs = s.hdrs := rfl
@[simp] theorem updPart_sys (n : Nat) (f : LogPart → LogPart) (s : State) : (updPart n f s).sys = s.sys := rfl
@[simp] theorem updPart_sup (n : Nat) (f : LogPart → LogPart) (s : State) : (updPart n f s).sup = s.sup := rfl
@[simp] theorem updPart_clk (n : Nat) (f : LogPart → LogPart) (s : State) : (updPart n f s).clk = s.clk := rfl
@[simp] theorem updPart_course (n : Nat) (f : LogPart → LogPart) (s : State) : (updPart n f s).course = s.course := rfl
@[simp] theorem updPart_plan (n : Nat) (f : LogPart → LogPart) (s : State) : (updPart n f s).plan = s.plan := rfl
@[simp] theorem updPart_loader (n : Nat) (f : LogPart → LogPart) (s : State) : (updPart n f s).loader = s.loader := rfl
@[simp] theorem updPart_square (n : Nat) (f : LogPart → LogPart) (s : State) : (updPart n f s).square = s.square := rfl
@[simp] theorem updPart_alarm (n : Nat) (f : LogPart → LogPart) (s : State) : (updPart n f s).alarm = s.alarm := rfl
@[simp] theorem updPart_evq (n : Nat) (f : LogPart → LogPart) (s : State) : (updPart n f s).evq = s.evq := rfl
@[simp] theorem updPart_ucs (n : Nat) (f : LogPart → LogPart) (s : State) : (updPart n f s).ucs = s.ucs := rfl
@[simp] theorem updPart_lis (n : Nat) (f : LogPart → LogPart) (s : State) : (updPart n f s).lis = s.lis := rfl
@[simp] theorem updPart_tiles (n : Nat) (f : LogPart → LogPart) (s : State) : (updPart n f s).tiles = s.tiles := rfl
@[simp] theorem updPart_maint (n : Nat) (f : LogPart → LogPart) (s : State) : (updPart n f s).maint = s.maint := rfl
@[simp] theorem updPart_cal (n : Nat) (f : LogPart → LogPart) (s : State) : (updPart n f s).cal = s.cal := rfl
@[simp] theorem updPart_tileCal (n : Nat) (f : LogPart → LogPart) (s : State) : (updPart n f s).tileCal = s.tileCal := rfl
@[simp] theorem updPart_hart (n : Nat) (f : LogPart → LogPart) (s : State) : (updPart n f s).hart = s.hart := rfl
@[simp] theorem updPart_dig (n : Nat) (f : LogPart → LogPart) (s : State) : (updPart n f s).dig = s.dig := rfl
@[simp] theorem updPart_icu (n : Nat) (f : LogPart → LogPart) (s : State) : (updPart n f s).icu = s.icu := rfl
@[simp] theorem updPart_red (n : Nat) (f : LogPart → LogPart) (s : State) : (updPart n f s).red = s.red := rfl
@[simp] theorem updPart_sync (n : Nat) (f : LogPart → LogPart) (s : State) : (updPart n f s).sync = s.sync := rfl
@[simp] theorem updPart_safe (n : Nat) (f : LogPart → LogPart) (s : State) : (updPart n f s).safe = s.safe := rfl
@[simp] theorem updPart_cans (n : Nat) (f : LogPart → LogPart) (s : State) : (updPart n f s).cans = s.cans := rfl
@[simp] theorem updPart_eths (n : Nat) (f : LogPart → LogPart) (s : State) : (updPart n f s).eths = s.eths := rfl
@[simp] theorem updPart_prp (n : Nat) (f : LogPart → LogPart) (s : State) : (updPart n f s).prp = s.prp := rfl
@[simp] theorem updPart_ptp (n : Nat) (f : LogPart → LogPart) (s : State) : (updPart n f s).ptp = s.ptp := rfl
@[simp] theorem updPart_host (n : Nat) (f : LogPart → LogPart) (s : State) : (updPart n f s).host = s.host := rfl
@[simp] theorem updPart_panel (n : Nat) (f : LogPart → LogPart) (s : State) : (updPart n f s).panel = s.panel := rfl
@[simp] theorem updPart_mem (n : Nat) (f : LogPart → LogPart) (s : State) : (updPart n f s).mem = s.mem := rfl
@[simp] theorem updPart_resp (n : Nat) (f : LogPart → LogPart) (s : State) : (updPart n f s).resp = s.resp := rfl
@[simp] theorem updPart_free (n : Nat) (f : LogPart → LogPart) (s : State) : (updPart n f s).free = s.free := rfl
@[simp] theorem updPart_pending (n : Nat) (f : LogPart → LogPart) (s : State) : (updPart n f s).pending = s.pending := rfl
@[simp] theorem updPart_log_ready (n : Nat) (f : LogPart → LogPart) (s : State) : (updPart n f s).log.ready = s.log.ready := rfl
@[simp] theorem updPart_log_lossRisk (n : Nat) (f : LogPart → LogPart) (s : State) : (updPart n f s).log.lossRisk = s.log.lossRisk := rfl
@[simp] theorem updPart_log_fault (n : Nat) (f : LogPart → LogPart) (s : State) : (updPart n f s).log.fault = s.log.fault := rfl
@[simp] theorem updPart_log_reserveLow (n : Nat) (f : LogPart → LogPart) (s : State) : (updPart n f s).log.reserveLow = s.log.reserveLow := rfl
@[simp] theorem updPart_log_reserve (n : Nat) (f : LogPart → LogPart) (s : State) : (updPart n f s).log.reserve = s.log.reserve := rfl
@[simp] theorem updPart_log_remain (n : Nat) (f : LogPart → LogPart) (s : State) : (updPart n f s).log.remain = s.log.remain := rfl
@[simp] theorem updPart_log_maxErase (n : Nat) (f : LogPart → LogPart) (s : State) : (updPart n f s).log.maxErase = s.log.maxErase := rfl
@[simp] theorem updPart_log_wearlvl (n : Nat) (f : LogPart → LogPart) (s : State) : (updPart n f s).log.wearlvl = s.log.wearlvl := rfl
@[simp] theorem updPart_log_wearWarned (n : Nat) (f : LogPart → LogPart) (s : State) : (updPart n f s).log.wearWarned = s.log.wearWarned := rfl
@[simp] theorem updPart_log_addr (n : Nat) (f : LogPart → LogPart) (s : State) : (updPart n f s).log.addr = s.log.addr := rfl
@[simp] theorem updPart_log_len (n : Nat) (f : LogPart → LogPart) (s : State) : (updPart n f s).log.len = s.log.len := rfl
@[simp] theorem updPart_log_rseq (n : Nat) (f : LogPart → LogPart) (s : State) : (updPart n f s).log.rseq = s.log.rseq := rfl
@[simp] theorem updPart_log_rofs (n : Nat) (f : LogPart → LogPart) (s : State) : (updPart n f s).log.rofs = s.log.rofs := rfl
@[simp] theorem updPart_log_rfirst (n : Nat) (f : LogPart → LogPart) (s : State) : (updPart n f s).log.rfirst = s.log.rfirst := rfl
@[simp] theorem updPart_log_capMiss (n : Nat) (f : LogPart → LogPart) (s : State) : (updPart n f s).log.capMiss = s.log.capMiss := rfl
@[simp] theorem updPart_log_caps (n : Nat) (f : LogPart → LogPart) (s : State) : (updPart n f s).log.caps = s.log.caps := rfl
@[simp] theorem updPart_log_capAsked (n : Nat) (f : LogPart → LogPart) (s : State) : (updPart n f s).log.capAsked = s.log.capAsked := rfl
@[simp] theorem updPart_log_latches (n : Nat) (f : LogPart → LogPart) (s : State) : (updPart n f s).log.latches = s.log.latches := rfl
@[simp] theorem updPart_log_served (n : Nat) (f : LogPart → LogPart) (s : State) : (updPart n f s).log.served = s.log.served := rfl
@[simp] theorem updPart_log_trend (n : Nat) (f : LogPart → LogPart) (s : State) : (updPart n f s).log.trend = s.log.trend := rfl

@[simp] theorem updCap_same (n : Nat) (f : CapBlk → CapBlk) (s : State) : capGet (updCap n f s) n = f (capGet s n) := by simp [capGet, updCap]
@[simp] theorem updCap_other (n : Nat) (f : CapBlk → CapBlk) (s : State) {k : Nat} (h : k ≠ n) : capGet (updCap n f s) k = capGet s k := by
  simp [capGet, updCap, h]
@[simp] theorem updCap_hdrs (n : Nat) (f : CapBlk → CapBlk) (s : State) : (updCap n f s).hdrs = s.hdrs := rfl
@[simp] theorem updCap_sys (n : Nat) (f : CapBlk → CapBlk) (s : State) : (updCap n f s).sys = s.sys := rfl
@[simp] theorem updCap_sup (n : Nat) (f : CapBlk → CapBlk) (s : State) : (updCap n f s).sup = s.sup := rfl
@[simp] theorem updCap_clk (n : Nat) (f : CapBlk → CapBlk) (s : State) : (updCap n f s).clk = s.clk := rfl
@[simp] theorem updCap_course (n : Nat) (f : CapBlk → CapBlk) (s : State) : (updCap n f s).course = s.course := rfl
@[simp] theorem updCap_plan (n : Nat) (f : CapBlk → CapBlk) (s : State) : (updCap n f s).plan = s.plan := rfl
@[simp] theorem updCap_loader (n : Nat) (f : CapBlk → CapBlk) (s : State) : (updCap n f s).loader = s.loader := rfl
@[simp] theorem updCap_square (n : Nat) (f : CapBlk → CapBlk) (s : State) : (updCap n f s).square = s.square := rfl
@[simp] theorem updCap_alarm (n : Nat) (f : CapBlk → CapBlk) (s : State) : (updCap n f s).alarm = s.alarm := rfl
@[simp] theorem updCap_evq (n : Nat) (f : CapBlk → CapBlk) (s : State) : (updCap n f s).evq = s.evq := rfl
@[simp] theorem updCap_ucs (n : Nat) (f : CapBlk → CapBlk) (s : State) : (updCap n f s).ucs = s.ucs := rfl
@[simp] theorem updCap_lis (n : Nat) (f : CapBlk → CapBlk) (s : State) : (updCap n f s).lis = s.lis := rfl
@[simp] theorem updCap_tiles (n : Nat) (f : CapBlk → CapBlk) (s : State) : (updCap n f s).tiles = s.tiles := rfl
@[simp] theorem updCap_maint (n : Nat) (f : CapBlk → CapBlk) (s : State) : (updCap n f s).maint = s.maint := rfl
@[simp] theorem updCap_cal (n : Nat) (f : CapBlk → CapBlk) (s : State) : (updCap n f s).cal = s.cal := rfl
@[simp] theorem updCap_tileCal (n : Nat) (f : CapBlk → CapBlk) (s : State) : (updCap n f s).tileCal = s.tileCal := rfl
@[simp] theorem updCap_hart (n : Nat) (f : CapBlk → CapBlk) (s : State) : (updCap n f s).hart = s.hart := rfl
@[simp] theorem updCap_dig (n : Nat) (f : CapBlk → CapBlk) (s : State) : (updCap n f s).dig = s.dig := rfl
@[simp] theorem updCap_icu (n : Nat) (f : CapBlk → CapBlk) (s : State) : (updCap n f s).icu = s.icu := rfl
@[simp] theorem updCap_red (n : Nat) (f : CapBlk → CapBlk) (s : State) : (updCap n f s).red = s.red := rfl
@[simp] theorem updCap_sync (n : Nat) (f : CapBlk → CapBlk) (s : State) : (updCap n f s).sync = s.sync := rfl
@[simp] theorem updCap_safe (n : Nat) (f : CapBlk → CapBlk) (s : State) : (updCap n f s).safe = s.safe := rfl
@[simp] theorem updCap_cans (n : Nat) (f : CapBlk → CapBlk) (s : State) : (updCap n f s).cans = s.cans := rfl
@[simp] theorem updCap_eths (n : Nat) (f : CapBlk → CapBlk) (s : State) : (updCap n f s).eths = s.eths := rfl
@[simp] theorem updCap_prp (n : Nat) (f : CapBlk → CapBlk) (s : State) : (updCap n f s).prp = s.prp := rfl
@[simp] theorem updCap_ptp (n : Nat) (f : CapBlk → CapBlk) (s : State) : (updCap n f s).ptp = s.ptp := rfl
@[simp] theorem updCap_host (n : Nat) (f : CapBlk → CapBlk) (s : State) : (updCap n f s).host = s.host := rfl
@[simp] theorem updCap_panel (n : Nat) (f : CapBlk → CapBlk) (s : State) : (updCap n f s).panel = s.panel := rfl
@[simp] theorem updCap_mem (n : Nat) (f : CapBlk → CapBlk) (s : State) : (updCap n f s).mem = s.mem := rfl
@[simp] theorem updCap_resp (n : Nat) (f : CapBlk → CapBlk) (s : State) : (updCap n f s).resp = s.resp := rfl
@[simp] theorem updCap_free (n : Nat) (f : CapBlk → CapBlk) (s : State) : (updCap n f s).free = s.free := rfl
@[simp] theorem updCap_pending (n : Nat) (f : CapBlk → CapBlk) (s : State) : (updCap n f s).pending = s.pending := rfl
@[simp] theorem updCap_log_ready (n : Nat) (f : CapBlk → CapBlk) (s : State) : (updCap n f s).log.ready = s.log.ready := rfl
@[simp] theorem updCap_log_lossRisk (n : Nat) (f : CapBlk → CapBlk) (s : State) : (updCap n f s).log.lossRisk = s.log.lossRisk := rfl
@[simp] theorem updCap_log_fault (n : Nat) (f : CapBlk → CapBlk) (s : State) : (updCap n f s).log.fault = s.log.fault := rfl
@[simp] theorem updCap_log_reserveLow (n : Nat) (f : CapBlk → CapBlk) (s : State) : (updCap n f s).log.reserveLow = s.log.reserveLow := rfl
@[simp] theorem updCap_log_reserve (n : Nat) (f : CapBlk → CapBlk) (s : State) : (updCap n f s).log.reserve = s.log.reserve := rfl
@[simp] theorem updCap_log_remain (n : Nat) (f : CapBlk → CapBlk) (s : State) : (updCap n f s).log.remain = s.log.remain := rfl
@[simp] theorem updCap_log_maxErase (n : Nat) (f : CapBlk → CapBlk) (s : State) : (updCap n f s).log.maxErase = s.log.maxErase := rfl
@[simp] theorem updCap_log_wearlvl (n : Nat) (f : CapBlk → CapBlk) (s : State) : (updCap n f s).log.wearlvl = s.log.wearlvl := rfl
@[simp] theorem updCap_log_wearWarned (n : Nat) (f : CapBlk → CapBlk) (s : State) : (updCap n f s).log.wearWarned = s.log.wearWarned := rfl
@[simp] theorem updCap_log_addr (n : Nat) (f : CapBlk → CapBlk) (s : State) : (updCap n f s).log.addr = s.log.addr := rfl
@[simp] theorem updCap_log_len (n : Nat) (f : CapBlk → CapBlk) (s : State) : (updCap n f s).log.len = s.log.len := rfl
@[simp] theorem updCap_log_rseq (n : Nat) (f : CapBlk → CapBlk) (s : State) : (updCap n f s).log.rseq = s.log.rseq := rfl
@[simp] theorem updCap_log_rofs (n : Nat) (f : CapBlk → CapBlk) (s : State) : (updCap n f s).log.rofs = s.log.rofs := rfl
@[simp] theorem updCap_log_rfirst (n : Nat) (f : CapBlk → CapBlk) (s : State) : (updCap n f s).log.rfirst = s.log.rfirst := rfl
@[simp] theorem updCap_log_capMiss (n : Nat) (f : CapBlk → CapBlk) (s : State) : (updCap n f s).log.capMiss = s.log.capMiss := rfl
@[simp] theorem updCap_log_capAsked (n : Nat) (f : CapBlk → CapBlk) (s : State) : (updCap n f s).log.capAsked = s.log.capAsked := rfl
@[simp] theorem updCap_log_parts (n : Nat) (f : CapBlk → CapBlk) (s : State) : (updCap n f s).log.parts = s.log.parts := rfl
@[simp] theorem updCap_log_latches (n : Nat) (f : CapBlk → CapBlk) (s : State) : (updCap n f s).log.latches = s.log.latches := rfl
@[simp] theorem updCap_log_served (n : Nat) (f : CapBlk → CapBlk) (s : State) : (updCap n f s).log.served = s.log.served := rfl
@[simp] theorem updCap_log_trend (n : Nat) (f : CapBlk → CapBlk) (s : State) : (updCap n f s).log.trend = s.log.trend := rfl

@[simp] theorem updCan_same (n : Nat) (f : CanBlk → CanBlk) (s : State) : canGet (updCan n f s) n = f (canGet s n) := by simp [canGet, updCan]
@[simp] theorem updCan_other (n : Nat) (f : CanBlk → CanBlk) (s : State) {k : Nat} (h : k ≠ n) : canGet (updCan n f s) k = canGet s k := by
  simp [canGet, updCan, h]
@[simp] theorem updCan_hdrs (n : Nat) (f : CanBlk → CanBlk) (s : State) : (updCan n f s).hdrs = s.hdrs := rfl
@[simp] theorem updCan_sys (n : Nat) (f : CanBlk → CanBlk) (s : State) : (updCan n f s).sys = s.sys := rfl
@[simp] theorem updCan_sup (n : Nat) (f : CanBlk → CanBlk) (s : State) : (updCan n f s).sup = s.sup := rfl
@[simp] theorem updCan_clk (n : Nat) (f : CanBlk → CanBlk) (s : State) : (updCan n f s).clk = s.clk := rfl
@[simp] theorem updCan_course (n : Nat) (f : CanBlk → CanBlk) (s : State) : (updCan n f s).course = s.course := rfl
@[simp] theorem updCan_plan (n : Nat) (f : CanBlk → CanBlk) (s : State) : (updCan n f s).plan = s.plan := rfl
@[simp] theorem updCan_loader (n : Nat) (f : CanBlk → CanBlk) (s : State) : (updCan n f s).loader = s.loader := rfl
@[simp] theorem updCan_square (n : Nat) (f : CanBlk → CanBlk) (s : State) : (updCan n f s).square = s.square := rfl
@[simp] theorem updCan_alarm (n : Nat) (f : CanBlk → CanBlk) (s : State) : (updCan n f s).alarm = s.alarm := rfl
@[simp] theorem updCan_evq (n : Nat) (f : CanBlk → CanBlk) (s : State) : (updCan n f s).evq = s.evq := rfl
@[simp] theorem updCan_ucs (n : Nat) (f : CanBlk → CanBlk) (s : State) : (updCan n f s).ucs = s.ucs := rfl
@[simp] theorem updCan_lis (n : Nat) (f : CanBlk → CanBlk) (s : State) : (updCan n f s).lis = s.lis := rfl
@[simp] theorem updCan_tiles (n : Nat) (f : CanBlk → CanBlk) (s : State) : (updCan n f s).tiles = s.tiles := rfl
@[simp] theorem updCan_maint (n : Nat) (f : CanBlk → CanBlk) (s : State) : (updCan n f s).maint = s.maint := rfl
@[simp] theorem updCan_cal (n : Nat) (f : CanBlk → CanBlk) (s : State) : (updCan n f s).cal = s.cal := rfl
@[simp] theorem updCan_tileCal (n : Nat) (f : CanBlk → CanBlk) (s : State) : (updCan n f s).tileCal = s.tileCal := rfl
@[simp] theorem updCan_hart (n : Nat) (f : CanBlk → CanBlk) (s : State) : (updCan n f s).hart = s.hart := rfl
@[simp] theorem updCan_dig (n : Nat) (f : CanBlk → CanBlk) (s : State) : (updCan n f s).dig = s.dig := rfl
@[simp] theorem updCan_icu (n : Nat) (f : CanBlk → CanBlk) (s : State) : (updCan n f s).icu = s.icu := rfl
@[simp] theorem updCan_red (n : Nat) (f : CanBlk → CanBlk) (s : State) : (updCan n f s).red = s.red := rfl
@[simp] theorem updCan_sync (n : Nat) (f : CanBlk → CanBlk) (s : State) : (updCan n f s).sync = s.sync := rfl
@[simp] theorem updCan_safe (n : Nat) (f : CanBlk → CanBlk) (s : State) : (updCan n f s).safe = s.safe := rfl
@[simp] theorem updCan_eths (n : Nat) (f : CanBlk → CanBlk) (s : State) : (updCan n f s).eths = s.eths := rfl
@[simp] theorem updCan_prp (n : Nat) (f : CanBlk → CanBlk) (s : State) : (updCan n f s).prp = s.prp := rfl
@[simp] theorem updCan_ptp (n : Nat) (f : CanBlk → CanBlk) (s : State) : (updCan n f s).ptp = s.ptp := rfl
@[simp] theorem updCan_host (n : Nat) (f : CanBlk → CanBlk) (s : State) : (updCan n f s).host = s.host := rfl
@[simp] theorem updCan_log (n : Nat) (f : CanBlk → CanBlk) (s : State) : (updCan n f s).log = s.log := rfl
@[simp] theorem updCan_panel (n : Nat) (f : CanBlk → CanBlk) (s : State) : (updCan n f s).panel = s.panel := rfl
@[simp] theorem updCan_mem (n : Nat) (f : CanBlk → CanBlk) (s : State) : (updCan n f s).mem = s.mem := rfl
@[simp] theorem updCan_resp (n : Nat) (f : CanBlk → CanBlk) (s : State) : (updCan n f s).resp = s.resp := rfl
@[simp] theorem updCan_free (n : Nat) (f : CanBlk → CanBlk) (s : State) : (updCan n f s).free = s.free := rfl
@[simp] theorem updCan_pending (n : Nat) (f : CanBlk → CanBlk) (s : State) : (updCan n f s).pending = s.pending := rfl

@[simp] theorem updEth_same (n : Nat) (f : EthBlk → EthBlk) (s : State) : ethGet (updEth n f s) n = f (ethGet s n) := by simp [ethGet, updEth]
@[simp] theorem updEth_other (n : Nat) (f : EthBlk → EthBlk) (s : State) {k : Nat} (h : k ≠ n) : ethGet (updEth n f s) k = ethGet s k := by
  simp [ethGet, updEth, h]
@[simp] theorem updEth_hdrs (n : Nat) (f : EthBlk → EthBlk) (s : State) : (updEth n f s).hdrs = s.hdrs := rfl
@[simp] theorem updEth_sys (n : Nat) (f : EthBlk → EthBlk) (s : State) : (updEth n f s).sys = s.sys := rfl
@[simp] theorem updEth_sup (n : Nat) (f : EthBlk → EthBlk) (s : State) : (updEth n f s).sup = s.sup := rfl
@[simp] theorem updEth_clk (n : Nat) (f : EthBlk → EthBlk) (s : State) : (updEth n f s).clk = s.clk := rfl
@[simp] theorem updEth_course (n : Nat) (f : EthBlk → EthBlk) (s : State) : (updEth n f s).course = s.course := rfl
@[simp] theorem updEth_plan (n : Nat) (f : EthBlk → EthBlk) (s : State) : (updEth n f s).plan = s.plan := rfl
@[simp] theorem updEth_loader (n : Nat) (f : EthBlk → EthBlk) (s : State) : (updEth n f s).loader = s.loader := rfl
@[simp] theorem updEth_square (n : Nat) (f : EthBlk → EthBlk) (s : State) : (updEth n f s).square = s.square := rfl
@[simp] theorem updEth_alarm (n : Nat) (f : EthBlk → EthBlk) (s : State) : (updEth n f s).alarm = s.alarm := rfl
@[simp] theorem updEth_evq (n : Nat) (f : EthBlk → EthBlk) (s : State) : (updEth n f s).evq = s.evq := rfl
@[simp] theorem updEth_ucs (n : Nat) (f : EthBlk → EthBlk) (s : State) : (updEth n f s).ucs = s.ucs := rfl
@[simp] theorem updEth_lis (n : Nat) (f : EthBlk → EthBlk) (s : State) : (updEth n f s).lis = s.lis := rfl
@[simp] theorem updEth_tiles (n : Nat) (f : EthBlk → EthBlk) (s : State) : (updEth n f s).tiles = s.tiles := rfl
@[simp] theorem updEth_maint (n : Nat) (f : EthBlk → EthBlk) (s : State) : (updEth n f s).maint = s.maint := rfl
@[simp] theorem updEth_cal (n : Nat) (f : EthBlk → EthBlk) (s : State) : (updEth n f s).cal = s.cal := rfl
@[simp] theorem updEth_tileCal (n : Nat) (f : EthBlk → EthBlk) (s : State) : (updEth n f s).tileCal = s.tileCal := rfl
@[simp] theorem updEth_hart (n : Nat) (f : EthBlk → EthBlk) (s : State) : (updEth n f s).hart = s.hart := rfl
@[simp] theorem updEth_dig (n : Nat) (f : EthBlk → EthBlk) (s : State) : (updEth n f s).dig = s.dig := rfl
@[simp] theorem updEth_icu (n : Nat) (f : EthBlk → EthBlk) (s : State) : (updEth n f s).icu = s.icu := rfl
@[simp] theorem updEth_red (n : Nat) (f : EthBlk → EthBlk) (s : State) : (updEth n f s).red = s.red := rfl
@[simp] theorem updEth_sync (n : Nat) (f : EthBlk → EthBlk) (s : State) : (updEth n f s).sync = s.sync := rfl
@[simp] theorem updEth_safe (n : Nat) (f : EthBlk → EthBlk) (s : State) : (updEth n f s).safe = s.safe := rfl
@[simp] theorem updEth_cans (n : Nat) (f : EthBlk → EthBlk) (s : State) : (updEth n f s).cans = s.cans := rfl
@[simp] theorem updEth_prp (n : Nat) (f : EthBlk → EthBlk) (s : State) : (updEth n f s).prp = s.prp := rfl
@[simp] theorem updEth_ptp (n : Nat) (f : EthBlk → EthBlk) (s : State) : (updEth n f s).ptp = s.ptp := rfl
@[simp] theorem updEth_host (n : Nat) (f : EthBlk → EthBlk) (s : State) : (updEth n f s).host = s.host := rfl
@[simp] theorem updEth_log (n : Nat) (f : EthBlk → EthBlk) (s : State) : (updEth n f s).log = s.log := rfl
@[simp] theorem updEth_panel (n : Nat) (f : EthBlk → EthBlk) (s : State) : (updEth n f s).panel = s.panel := rfl
@[simp] theorem updEth_mem (n : Nat) (f : EthBlk → EthBlk) (s : State) : (updEth n f s).mem = s.mem := rfl
@[simp] theorem updEth_resp (n : Nat) (f : EthBlk → EthBlk) (s : State) : (updEth n f s).resp = s.resp := rfl
@[simp] theorem updEth_free (n : Nat) (f : EthBlk → EthBlk) (s : State) : (updEth n f s).free = s.free := rfl
@[simp] theorem updEth_pending (n : Nat) (f : EthBlk → EthBlk) (s : State) : (updEth n f s).pending = s.pending := rfl

@[simp] theorem updArea_same (n : Nat) (f : PanelArea → PanelArea) (s : State) : area (updArea n f s) n = f (area s n) := by simp [area, updArea]
@[simp] theorem updArea_other (n : Nat) (f : PanelArea → PanelArea) (s : State) {k : Nat} (h : k ≠ n) : area (updArea n f s) k = area s k := by
  simp [area, updArea, h]
@[simp] theorem updArea_hdrs (n : Nat) (f : PanelArea → PanelArea) (s : State) : (updArea n f s).hdrs = s.hdrs := rfl
@[simp] theorem updArea_sys (n : Nat) (f : PanelArea → PanelArea) (s : State) : (updArea n f s).sys = s.sys := rfl
@[simp] theorem updArea_sup (n : Nat) (f : PanelArea → PanelArea) (s : State) : (updArea n f s).sup = s.sup := rfl
@[simp] theorem updArea_clk (n : Nat) (f : PanelArea → PanelArea) (s : State) : (updArea n f s).clk = s.clk := rfl
@[simp] theorem updArea_course (n : Nat) (f : PanelArea → PanelArea) (s : State) : (updArea n f s).course = s.course := rfl
@[simp] theorem updArea_plan (n : Nat) (f : PanelArea → PanelArea) (s : State) : (updArea n f s).plan = s.plan := rfl
@[simp] theorem updArea_loader (n : Nat) (f : PanelArea → PanelArea) (s : State) : (updArea n f s).loader = s.loader := rfl
@[simp] theorem updArea_square (n : Nat) (f : PanelArea → PanelArea) (s : State) : (updArea n f s).square = s.square := rfl
@[simp] theorem updArea_alarm (n : Nat) (f : PanelArea → PanelArea) (s : State) : (updArea n f s).alarm = s.alarm := rfl
@[simp] theorem updArea_evq (n : Nat) (f : PanelArea → PanelArea) (s : State) : (updArea n f s).evq = s.evq := rfl
@[simp] theorem updArea_ucs (n : Nat) (f : PanelArea → PanelArea) (s : State) : (updArea n f s).ucs = s.ucs := rfl
@[simp] theorem updArea_lis (n : Nat) (f : PanelArea → PanelArea) (s : State) : (updArea n f s).lis = s.lis := rfl
@[simp] theorem updArea_tiles (n : Nat) (f : PanelArea → PanelArea) (s : State) : (updArea n f s).tiles = s.tiles := rfl
@[simp] theorem updArea_maint (n : Nat) (f : PanelArea → PanelArea) (s : State) : (updArea n f s).maint = s.maint := rfl
@[simp] theorem updArea_cal (n : Nat) (f : PanelArea → PanelArea) (s : State) : (updArea n f s).cal = s.cal := rfl
@[simp] theorem updArea_tileCal (n : Nat) (f : PanelArea → PanelArea) (s : State) : (updArea n f s).tileCal = s.tileCal := rfl
@[simp] theorem updArea_hart (n : Nat) (f : PanelArea → PanelArea) (s : State) : (updArea n f s).hart = s.hart := rfl
@[simp] theorem updArea_dig (n : Nat) (f : PanelArea → PanelArea) (s : State) : (updArea n f s).dig = s.dig := rfl
@[simp] theorem updArea_icu (n : Nat) (f : PanelArea → PanelArea) (s : State) : (updArea n f s).icu = s.icu := rfl
@[simp] theorem updArea_red (n : Nat) (f : PanelArea → PanelArea) (s : State) : (updArea n f s).red = s.red := rfl
@[simp] theorem updArea_sync (n : Nat) (f : PanelArea → PanelArea) (s : State) : (updArea n f s).sync = s.sync := rfl
@[simp] theorem updArea_safe (n : Nat) (f : PanelArea → PanelArea) (s : State) : (updArea n f s).safe = s.safe := rfl
@[simp] theorem updArea_cans (n : Nat) (f : PanelArea → PanelArea) (s : State) : (updArea n f s).cans = s.cans := rfl
@[simp] theorem updArea_eths (n : Nat) (f : PanelArea → PanelArea) (s : State) : (updArea n f s).eths = s.eths := rfl
@[simp] theorem updArea_prp (n : Nat) (f : PanelArea → PanelArea) (s : State) : (updArea n f s).prp = s.prp := rfl
@[simp] theorem updArea_ptp (n : Nat) (f : PanelArea → PanelArea) (s : State) : (updArea n f s).ptp = s.ptp := rfl
@[simp] theorem updArea_host (n : Nat) (f : PanelArea → PanelArea) (s : State) : (updArea n f s).host = s.host := rfl
@[simp] theorem updArea_log (n : Nat) (f : PanelArea → PanelArea) (s : State) : (updArea n f s).log = s.log := rfl
@[simp] theorem updArea_mem (n : Nat) (f : PanelArea → PanelArea) (s : State) : (updArea n f s).mem = s.mem := rfl
@[simp] theorem updArea_resp (n : Nat) (f : PanelArea → PanelArea) (s : State) : (updArea n f s).resp = s.resp := rfl
@[simp] theorem updArea_free (n : Nat) (f : PanelArea → PanelArea) (s : State) : (updArea n f s).free = s.free := rfl
@[simp] theorem updArea_pending (n : Nat) (f : PanelArea → PanelArea) (s : State) : (updArea n f s).pending = s.pending := rfl
@[simp] theorem updArea_panel_ready (n : Nat) (f : PanelArea → PanelArea) (s : State) : (updArea n f s).panel.ready = s.panel.ready := rfl
@[simp] theorem updArea_panel_crack (n : Nat) (f : PanelArea → PanelArea) (s : State) : (updArea n f s).panel.crack = s.panel.crack := rfl
@[simp] theorem updArea_panel_cold (n : Nat) (f : PanelArea → PanelArea) (s : State) : (updArea n f s).panel.cold = s.panel.cold := rfl
@[simp] theorem updArea_panel_banner (n : Nat) (f : PanelArea → PanelArea) (s : State) : (updArea n f s).panel.banner = s.panel.banner := rfl
@[simp] theorem updArea_panel_trimBad (n : Nat) (f : PanelArea → PanelArea) (s : State) : (updArea n f s).panel.trimBad = s.panel.trimBad := rfl
@[simp] theorem updArea_panel_band (n : Nat) (f : PanelArea → PanelArea) (s : State) : (updArea n f s).panel.band = s.panel.band := rfl
@[simp] theorem updArea_panel_glass (n : Nat) (f : PanelArea → PanelArea) (s : State) : (updArea n f s).panel.glass = s.panel.glass := rfl
@[simp] theorem updArea_panel_loopRef (n : Nat) (f : PanelArea → PanelArea) (s : State) : (updArea n f s).panel.loopRef = s.panel.loopRef := rfl
@[simp] theorem updArea_panel_loopMeas (n : Nat) (f : PanelArea → PanelArea) (s : State) : (updArea n f s).panel.loopMeas = s.panel.loopMeas := rfl
@[simp] theorem updArea_panel_clkOfs (n : Nat) (f : PanelArea → PanelArea) (s : State) : (updArea n f s).panel.clkOfs = s.panel.clkOfs := rfl
@[simp] theorem updArea_panel_pos (n : Nat) (f : PanelArea → PanelArea) (s : State) : (updArea n f s).panel.pos = s.panel.pos := rfl
@[simp] theorem updArea_panel_last (n : Nat) (f : PanelArea → PanelArea) (s : State) : (updArea n f s).panel.last = s.panel.last := rfl
@[simp] theorem updArea_panel_ticket (n : Nat) (f : PanelArea → PanelArea) (s : State) : (updArea n f s).panel.ticket = s.panel.ticket := rfl
@[simp] theorem updArea_panel_clears (n : Nat) (f : PanelArea → PanelArea) (s : State) : (updArea n f s).panel.clears = s.panel.clears := rfl
@[simp] theorem updArea_panel_redraws (n : Nat) (f : PanelArea → PanelArea) (s : State) : (updArea n f s).panel.redraws = s.panel.redraws := rfl
@[simp] theorem updArea_panel_bannerOwed (n : Nat) (f : PanelArea → PanelArea) (s : State) : (updArea n f s).panel.bannerOwed = s.panel.bannerOwed := rfl
@[simp] theorem updArea_panel_firstLoop (n : Nat) (f : PanelArea → PanelArea) (s : State) : (updArea n f s).panel.firstLoop = s.panel.firstLoop := rfl
@[simp] theorem updArea_panel_frame (n : Nat) (f : PanelArea → PanelArea) (s : State) : (updArea n f s).panel.frame = s.panel.frame := rfl
@[simp] theorem updArea_panel_target (n : Nat) (f : PanelArea → PanelArea) (s : State) : (updArea n f s).panel.target = s.panel.target := rfl
@[simp] theorem updArea_panel_glassImg (n : Nat) (f : PanelArea → PanelArea) (s : State) : (updArea n f s).panel.glassImg = s.panel.glassImg := rfl
@[simp] theorem updArea_panel_intent (n : Nat) (f : PanelArea → PanelArea) (s : State) : (updArea n f s).panel.intent = s.panel.intent := rfl

end Sys2Proof.Machine
end

