-- ==== Sys2Proof/Laws/Ops.lean ====
section
/-! SUPPORT. What the command machinery of a page can do: taking and ending a command, a counted write, a sticky bit, an
event on its way.  The provers cite these lemmas and never unfold the operations. -/

namespace Sys2Proof.Machine

/-! Page headers. -/

theorem setSticky_eq (p bit : Nat) (s : State) : setSticky p bit s = updHdr p (hdrSticky bit) s := rfl

theorem hdr_setSticky_same (p bit : Nat) (s : State) : hdr (setSticky p bit s) p = hdrSticky bit (hdr s p) := by
  rw [setSticky_eq, updHdr_same]

theorem hdr_setSticky_other (p bit : Nat) (s : State) {q : Nat} (h : q ≠ p) : hdr (setSticky p bit s) q = hdr s q := by
  rw [setSticky_eq, updHdr_other _ _ _ h]

theorem hdr_countWrite_same (p : Nat) (s : State) : hdr (countWrite p s) p = hdrCount (hdr s p) :=
  updHdr_same p hdrCount s

theorem hdr_countWrite_other (p : Nat) (s : State) {q : Nat} (h : q ≠ p) : hdr (countWrite p s) q = hdr s q :=
  updHdr_other _ _ _ h

theorem hdr_takeCmd_same (p : Nat) (req : Requester) (op : Nat) (arg : BitVec 24) (s : State) :
    hdr (takeCmd p req op arg s) p = hdrHeld req (BitVec.ofNat 8 op) arg (hdr s p) :=
  updHdr_same _ _ s

theorem hdr_takeCmd_other (p : Nat) (req : Requester) (op : Nat) (arg : BitVec 24) (s : State) {q : Nat} (h : q ≠ p) :
    hdr (takeCmd p req op arg s) q = hdr s q :=
  updHdr_other _ _ s h

/-- A command ends: its header, and with a status other than STATE nothing else, is written. -/
theorem finishCmd_eq (p : Nat) (st : CStat) (r : Nat) (s : State) (h : st ≠ .state) :
    finishCmd p st r s = updHdr p (hdrEnd st r) s := by
  cases st <;> first | rfl | exact absurd rfl h

theorem hdr_finishCmd_other (p : Nat) (st : CStat) (r : Nat) (s : State) {q : Nat} (h : q ≠ p) :
    hdr (finishCmd p st r s) q = hdr s q := by
  have hr : ∀ (cls code source : Nat) (d : BitVec 96) (x : State), hdr (raiseEv cls code source d x) q = hdr x q := by
    intro cls code source d x
    unfold raiseEv
    split <;> rfl
  cases st
  case state =>
    unfold finishCmd
    dsimp only
    split
    · rw [hr]
      exact (hdr_setSticky_other _ _ _ h).trans (updHdr_other _ _ _ h)
    · exact (hdr_setSticky_other _ _ _ h).trans (updHdr_other _ _ _ h)
  all_goals exact updHdr_other _ _ _ h

/-! Events. -/

theorem raiseEv_raised (cls code source : Nat) (data : BitVec 96) (s : State) :
    Raised s (raiseEv cls code source data s) cls code source data.toNat := by
  intro h
  unfold raiseEv
  rw [if_pos h]
  exact ⟨_, rfl, rfl, rfl, rfl, rfl, by simp⟩

/-- An event changes the queue of records on their way and the free counter alone. -/
theorem raiseEv_frame (cls code source : Nat) (data : BitVec 96) (s : State) :
    raiseEv cls code source data s =
      { s with evq := (raiseEv cls code source data s).evq, free := (raiseEv cls code source data s).free } := by
  unfold raiseEv
  split <;> rfl

/-! Commands. -/

theorem issueCmd_ready {s : State} {p : Nat} (h : PageReady s p) (req : Requester) (op : Nat) (arg : BitVec 24)
    (body : State → CmdEnd) : issueCmd p req op arg body s =
      match body (takeCmd p req op arg s) with
      | .done st r t => finishCmd p st r t
      | .hold t => t := by
  obtain ⟨⟨d, hd, ht⟩, hb⟩ := h
  unfold issueCmd
  rw [hd]
  dsimp only
  rw [if_pos ht, hb]
  rfl

theorem issueCmd_busy {s : State} {p : Nat} (h : PageTakes s p) (hb : (hdr s p).busy = true) (req : Requester) (op : Nat)
    (arg : BitVec 24) (body : State → CmdEnd) : issueCmd p req op arg body s = setSticky p 2 s := by
  obtain ⟨d, hd, ht⟩ := h
  unfold issueCmd
  rw [hd]
  dsimp only
  rw [if_pos ht, if_pos hb]

/-- A command that ends at once with a status other than STATE answers as `Answers` says. -/
theorem answers_done {c : Instr} {s t' : State} {p op r : Nat} {req : Requester} {arg : BitVec 24} {body : State → CmdEnd}
    {st : CStat} (hr : PageReady s p) (he : exec c s = .next (issueCmd p req op arg body s))
    (hb : body (takeCmd p req op arg s) = .done st r { t' with hdrs := (takeCmd p req op arg s).hdrs })
    (hs : st ≠ .state) : Answers c s p (hdrDone st r) t' := by
  refine ⟨_, he, ?_⟩
  rw [issueCmd_ready hr, hb]
  dsimp only
  rw [finishCmd_eq _ _ _ _ hs]
  refine ⟨?_, fun q hq => ?_, rfl⟩
  · rw [updHdr_same]
    exact (congrArg (hdrEnd st r) (hdr_takeCmd_same p req op arg s)).trans rfl
  · rw [updHdr_other _ _ _ hq]
    exact hdr_takeCmd_other p req op arg s hq

/-- A command that goes on running. -/
theorem answers_hold {c : Instr} {s t' : State} {p op : Nat} {req : Requester} {arg : BitVec 24} {body : State → CmdEnd}
    (hr : PageReady s p) (he : exec c s = .next (issueCmd p req op arg body s))
    (hb : body (takeCmd p req op arg s) = .hold { t' with hdrs := (takeCmd p req op arg s).hdrs }) :
    Answers c s p (hdrHeld req (BitVec.ofNat 8 op) arg) t' := by
  refine ⟨_, he, ?_⟩
  rw [issueCmd_ready hr, hb]
  exact ⟨hdr_takeCmd_same p req op arg s, fun q hq => hdr_takeCmd_other p req op arg s hq, rfl⟩

theorem pageWrite_takes {s : State} {p : Nat} (h : PageTakes s p) (f : State → State) :
    pageWrite p f s = countWrite p (f s) := by
  obtain ⟨d, hd, ht⟩ := h
  unfold pageWrite
  rw [hd]
  dsimp only
  rw [if_pos ht]

/-- A write a page applies counts one in PG_SYNC. -/
theorem answers_write {c : Instr} {s t' : State} {p : Nat} {f : State → State} (ht : PageTakes s p)
    (he : exec c s = .next (pageWrite p f s)) (hf : f s = { t' with hdrs := s.hdrs }) : Answers c s p hdrCount t' := by
  refine ⟨_, he, ?_⟩
  rw [pageWrite_takes ht, hf]
  refine ⟨?_, fun q hq => ?_, rfl⟩
  · rw [hdr_countWrite_same]; rfl
  · rw [hdr_countWrite_other _ _ hq]; rfl

end Sys2Proof.Machine
end

