-- ==== Sys2Proof/Tests/Slice0.lean ====
section
/-! SUPPORT. Tests: an ill-formed command for each check of `Instr.wf`, small states that meet the hypotheses of the
statements (`wit_…`, one theorem a statement, one conjunct a clause), and single steps (`test_…`) whose expected
results are the manual's. -/

open Sys2Proof Sys2Proof.Machine

namespace Sys2Proof.Tests

-- One theorem at a time: each `decide +kernel` would hold a thread.
set_option Elab.async false

/-! Helpers. -/

/-- An active unit A of a pair in service: every domain up, gates enabled, a plan running. -/
def up : State :=
  { sys.domOn := 0xFF, sys.step := 10, clk.tcxoOk := true, course.run := true, plan.state := .running
    red.state := .active, red.role := .a, red.own := 5, red.gates := true }

def ent (ty n : Nat) (b : List Byte) : Entry := { ty := ty, target := n, body := b }

/-- A body of 80 bytes that are 0 but for those listed. -/
def body (l : List (Nat × Byte)) : List Byte :=
  (List.range 80).map (fun i => ((l.find? (fun x => x.1 = i)).map Prod.snd).getD 0)

def w0 (p : Byte) : SlotWord := { p := p }

def running (l : List Entry) : State := { up with plan.entries := l }

/-- The same, entry `n` of type `ty` placing one word of class `cls` on engine `e` at wall index 0. -/
def listed (e cls : Nat) (w : SlotWord) (ty n : Nat) (s : State) : State :=
  { s with plan.entries := s.plan.entries.map (fun x => if x.ty = ty && x.target = n then
      { x with slots := [{ engine := e, words := 1 }], words := [slotWordOf cls w] } else x) }

def one {α : Type} (i : Nat) (v : α) : Tab α := ⟨[(i, v)]⟩

def after (o : Out) (f : State → Bool) : Bool := match o with
  | .next t => f t
  | _ => false

def frees (s : State) (p : Nat) : Bool :=
  (match pageDom s p with
    | some d => domTakes s d
    | none => false)

theorem takes_iff (s : State) (p : Nat) : PageTakes s p ↔ frees s p = true := by
  unfold PageTakes frees
  cases pageDom s p <;> simp

theorem ready_iff (s : State) (p : Nat) : PageReady s p ↔ frees s p = true ∧ (hdr s p).busy = false := by
  unfold PageReady frees
  cases pageDom s p <;> simp

/-! Well-formed commands. -/

theorem wf_accepts :
    (Instr.idle 0 (w0 60)).wf = true ∧ (Instr.lin 0 (w0 7)).wf = true ∧ (Instr.logic 0 (w0 8)).wf = true
    ∧ (Instr.canFrameReceive 0 { ident := 0x7FF, kind := 1, dlc := 8 }).wf = true
    ∧ (Instr.heartbeatReceive false { role := .b }).wf = true := by decide

theorem wf_refuses_slot_words :
    (Instr.idle 0 (w0 0)).wf = false ∧ (Instr.idle 1 (w0 61)).wf = false ∧ (Instr.move 0 (w0 1)).wf = false
    ∧ (Instr.recWrite 0 0 (w0 1)).wf = false ∧ (Instr.fetch 0 (w0 1)).wf = false ∧ (Instr.filter 0 (w0 1)).wf = false
    ∧ (Instr.lin 0 (w0 8)).wf = false ∧ (Instr.linsum 0 (w0 4)).wf = false ∧ (Instr.char 0 (w0 1)).wf = false
    ∧ (Instr.cvt 0 (w0 1)).wf = false ∧ (Instr.tilecmdRotation 0 (w0 1)).wf = false
    ∧ (Instr.tilecmdOpenTest 0 (w0 0)).wf = false ∧ (Instr.hart 0 (w0 1)).wf = false ∧ (Instr.cmp 0 (w0 1)).wf = false
    ∧ (Instr.rate 0 (w0 1)).wf = false ∧ (Instr.delay 0 (w0 1)).wf = false ∧ (Instr.logic 0 (w0 0)).wf = false
    ∧ (Instr.logic 0 (w0 9)).wf = false ∧ (Instr.group 0 (w0 1)).wf = false ∧ (Instr.call 0 (w0 1)).wf = false
    ∧ (Instr.out 0 (w0 1)).wf = false := by decide

theorem wf_refuses_operands :
    (Instr.openTestDone 0 4294967296).wf = false ∧ (Instr.keyInstall 0 [] []).wf = false
    ∧ (Instr.hartResponse 0 [] (List.replicate 266 0)).wf = false
    ∧ (Instr.canFrameReceive 0 { ident := 2048 }).wf = false
    ∧ (Instr.canFrameReceive 0 { kind := 1, data := [0] }).wf = false
    ∧ (Instr.canFrameReceive 0 { data := List.replicate 9 0 }).wf = false
    ∧ (Instr.ethFrameReceive 0 { bytes := [1] }).wf = false
    ∧ (Instr.heartbeatReceive false {}).wf = false := by decide +kernel

/-! Witnesses: the queue and the whole block. -/

theorem wit_StepRunsFront :
    ({ up with pending := [.squarePublish, .clockFault] } : State).pending = .squarePublish :: [.clockFault]
    ∧ up.pending = [] := ⟨rfl, rfl⟩

theorem wit_StepKeepsClaimRule :
    ClaimSafe { up with pending := [.clockFault] }
    ∧ ∃ t, step { up with pending := [.clockFault] } = .next t := by
  refine ⟨?_, _, rfl⟩
  unfold ClaimSafe
  decide

theorem wit_ResetState :
    ((0x00, 0x44, 0x0000FFFF, 0x1) : Nat × Nat × Word × Word) ∈ resetTable
    ∧ ((0x08, 0x44, 0x00FFFFFF, 0xE0C0A0) : Nat × Nat × Word × Word) ∈ resetTable := by decide +kernel

theorem wit_StepKeepsMemory :
    MemCanon { up with mem.main := ⟨[(0x20000000, 7)]⟩ }
    ∧ ∃ t, step { up with mem.main := ⟨[(0x20000000, 7)]⟩ } = .next t :=
  ⟨⟨by decide, fun _ => rfl, by decide, fun _ => rfl, by decide⟩, _, rfl⟩

/-! Slot words. -/

theorem wit_SlotWordsCostTheirClass :
    (slotCost (.lin 79 (w0 7)) = some (0, 48)
      ∧ slotRuns (.lin 79 (w0 7)) (listed 0 0x12 (w0 7) 2 47 (running [ent 2 47 []])) = true)
    ∧ (slotCost (.idle 1 (w0 60)) = some (1, 60)
      ∧ slotRuns (.idle 1 (w0 60)) (listed 1 0x01 (w0 60) 3 31 (running [ent 3 31 []])) = true)
    ∧ (slotCost (.out 63 (w0 0)) = some (1, 5) ∧ slotRuns (.out 63 (w0 0)) State.reset = false)
    ∧ slotRuns (.out 62 (w0 0)) (listed 1 0x26 (w0 0) 1 31 (running [ent 1 31 []])) = false
    ∧ slotRuns (.lin 79 (w0 6)) (listed 0 0x12 (w0 7) 2 47 (running [ent 2 47 []])) = false
    ∧ slotRuns (.lin 79 (w0 7)) { listed 0 0x12 (w0 7) 2 47 (running [ent 2 47 []]) with course.faulted := true } = false
    := by decide +kernel

theorem wit_EndIdleMove :
    slotRuns (.endList 0) up = true ∧ slotRuns (.endList 1) up = true
    ∧ slotRuns (.idle 1 (w0 60)) (listed 1 0x01 (w0 60) 3 31 (running [ent 3 31 []])) = true
    ∧ slotRuns (.endList 1) (listed 1 0x01 (w0 60) 3 31 (running [ent 3 31 []])) = false
    ∧ slotRuns (.move 0 { a := 5, b := 4 }) (listed 0 0x02 { a := 5, b := 4 } 1 0 (running [ent 1 0 []])) = true
    ∧ (16384 + 5) % 16384 ≠ 4 % 16384 := by decide +kernel

/-- UC0 in FAST_VOLTAGE, UC1 in CURRENT output mode, UC2 in VOLTAGE, each with a valid sample. -/
def chans : State :=
  { running [ent 1 0 [], ent 1 1 [], ent 1 2 [], ent 2 47 [], ent 4 31 []] with
    ucs := ⟨[(0, { inForce := { cfg := 0x58000000 } }), (1, { inForce := { cfg := 0x80000000 } }),
      (2, { inForce := { cfg := 0x10000000 } })]⟩
    course.snap.ana := ⟨[(0, { status := 0x8000, fresh := true }), (1, { status := 0x8000, fresh := true }),
      (2, { status := 0x8000, fresh := true })]⟩
    course.ctx := ⟨[(2, { smp := { status := 0x8000, fresh := true }, got := true, status := 0x8000 })]⟩ }

theorem wit_FetchAndFilter :
    (slotRuns (.fetch 1 (w0 0)) (listed 0 0x10 (w0 0) 1 1 chans) = true ∧ chanIsOut chans 1 = true
      ∧ (chans.course.snap.ana.get {} 1).fresh = true ∧ (1 : Fin 144).val < 80 ∧ chanReason chans 1 (chans.course.snap.ana.get {} 1) = 0)
    ∧ (slotRuns (.fetch 143 (w0 0)) (listed 0 0x10 (w0 0) 4 31 chans) = true ∧ 80 ≤ (143 : Fin 144).val)
    ∧ slotRuns (.filter 2 (w0 0)) (listed 0 0x11 (w0 0) 1 2 chans) = true
    ∧ slotRuns (.filter 79 (w0 0)) (listed 0 0x11 (w0 0) 2 47 chans) = true
    ∧ (slotRuns (.fetch 0 (w0 0)) (listed 0 0x10 (w0 0) 1 0 chans) = true ∧ chanIsOut chans 0 = false)
    ∧ (((0 : Nat) < 8 ∧ (ucModeF (ucGet chans 0) = 5 ∨ ucModeF (ucGet chans 0) = 6))
      ∧ ∀ i, i < 4 → 5 % 16384 ≠ (1 + i) % 16384)
    ∧ ¬ ((2 : Nat) < 8 ∧ (ucModeF (ucGet chans 2) = 5 ∨ ucModeF (ucGet chans 2) = 6))
    ∧ filterAdvances chans 79 = false ∧ filterAdvances chans 2 = true := by decide +kernel

/-- UC2 with a degree 1 polynomial in its entry and a finite input. -/
def lins : State :=
  { chans with
    plan.entries := [ent 1 2 (body [(0x0E, 1), (0x18, 0), (0x1E, 0xF0), (0x1F, 0x3F), (0x27, 0x40), (0x30, 2)])]
    course.e0.cells := one 3 { val := 0x4000000000000000 } }

theorem wit_LinearisationAndConversion :
    (slotRuns (.lin 2 (w0 0)) (listed 0 0x12 (w0 0) 1 2 lins) = true ∧ slotRuns (.lin 2 (w0 1)) (listed 0 0x12 (w0 1) 1 2 lins) = true
      ∧ slotRuns (.linsum 2 (w0 1)) (listed 0 0x13 (w0 1) 1 2 lins) = true
      ∧ slotRuns (.char 2 (w0 0)) (listed 0 0x14 (w0 0) 1 2 lins) = true
      ∧ slotRuns (.cvt 2 (w0 0)) (listed 0 0x15 (w0 0) 1 2 lins) = true
      ∧ slotRuns (.cvt 0 (w0 0)) (listed 0 0x15 (w0 0) 1 0 chans) = true
      ∧ slotRuns (.cvt 1 (w0 0)) (listed 0 0x15 (w0 0) 1 1 chans) = true ∧ chanIsOut chans 1 = true)
    ∧ ((w0 0).p.toNat = 0 ∧ w64At (chanBody lins 2) 0x18 = 0x3FF0000000000000)
    ∧ ((w0 1).p.toNat = 1 ∧ w64At (chanBody lins 2) 0x18 = 0x3FF0000000000000
      ∧ w64At (chanBody lins 2) (0x18 + 8 * (entDT (chanBody lins 2) + 1)) = 0x4000000000000000)
    ∧ ((chanCtx lins 2).got = true ∧ f64finite (cellGet lins 0 3) = true ∧ chanReason lins 2 (chanCtx lins 2).smp = 0
      ∧ bAt (chanBody lins 2) 0x30 = 2 ∧ bAt (chanBody lins 2) 0x31 ≠ 2)
    ∧ ¬ ((chanCtx lins 0).got = true ∧ f64finite (cellGet lins 0 3) = true ∧ chanReason lins 0 (chanCtx lins 0).smp = 0)
    ∧ (chanReason lins 2 (chanCtx lins 2).smp = 0 ∧ (chanCtx lins 2).got = true ∧ (tValue lins 2).2.2 = false ∧ fits32 (cellGet lins 0 3) = true
      ∧ bitAt (chanCtx lins 2).smp.status 15 = true)
    ∧ (chanReason lins 2 (chanCtx (updCtx 2 (fun k => { k with got := false }) lins) 2).smp = 0
      ∧ (chanCtx (updCtx 2 (fun k => { k with got := false }) lins) 2).got = false)
    ∧ (chanReason lins 0 (chanCtx lins 0).smp ≠ 0 ∧ ¬ (bitAt (chanCtx lins 0).smp.status 15 = true
      ∨ tileUp lins (anaTile 0) = false))
    ∧ (chanReason { lins with sys.domOn := 0x0F } 0 (chanCtx lins 0).smp ≠ 0
      ∧ tileUp { lins with sys.domOn := 0x0F } (anaTile 0) = false) := by decide +kernel

theorem wit_RecWritesRecord :
    (slotRuns (.recWrite 1 2 (w0 0)) (listed 1 0x03 (w0 0) 1 2 lins) = true ∧ (2 : Nat) < 80
      ∧ planned (listed 1 0x03 (w0 0) 1 2 lins) (anaTy 2) (anaTarget 2) = true)
    ∧ (slotRuns (.recWrite 1 143 (w0 0)) (listed 1 0x03 (w0 0) 4 31 chans) = true
      ∧ planned (listed 1 0x03 (w0 0) 4 31 chans) (if (63 : Nat) < 32 then 3 else 4) (63 % 32) = true ∧ (143 : Nat) = 80 + 63)
    := by decide +kernel

/-- A HART allocation for modem 0 with two turns, and a turn of spare 0 of tile 0. -/
def turns : State :=
  { running [ent 9 0 (body [(0, 2), (5, 3), (6, 2), (9, 4), (10, 2)]), ent 10 0 [], ent 1 0 []] with
    ucs := ⟨[(0, { inForce := { cfg := 0x10000000 } })]⟩
    tileCal := one 0 { turns := one 0 { conv := 2 } } }

theorem wit_TileAndModemOrders :
    (slotRuns (.tilecmdRotation 0 { b := 1 }) (listed 0 0x16 { b := 1 } 10 0 turns) = true
      ∧ slotRuns (.tilecmdOpenTest 0 (w0 1)) (listed 0 0x16 (w0 1) 1 0 turns) = true
      ∧ slotRuns (.hart 0 (w0 0)) (listed 0 0x17 (w0 0) 9 0 turns) = true
      ∧ slotRuns (.hart 1 (w0 0)) (listed 0 0x17 (w0 0) 9 1 { turns with plan.entries := [ent 9 1 []] }) = true)
    ∧ (tileUp turns 0 = true ∧ (tileCal turns 0).turns.get? 1 = none
      ∧ turnAllowed turns 0 0 1 = true ∧ tileMode turns 0 (convChan 0 0) ≠ 0)
    ∧ ((tileCal turns 0).turns.get? 0 ≠ none ∧ (tileCal turns 0).held.get? 0 = none)
    ∧ ((tileCal { turns with tileCal := one 0 { turns := one 0 {}, held := one 0 3 } } 0).held.get? 0 ≠ none)
    ∧ tileUp { turns with sys.domOn := 0x0F } 9 = false
    ∧ hartTurns (entBody (planEntry turns 9 1)) = []
    ∧ (hartTurns (entBody (planEntry turns 9 0)) ≠ [] ∧ (modem turns 0).fresh = true)
    ∧ ((modem { turns with hart.modems := one 0 { fresh := false, wallsLeft := 2 } } 0).fresh = false
      ∧ 1 < (modem { turns with hart.modems := one 0 { fresh := false, wallsLeft := 2 } } 0).wallsLeft)
    ∧ (modem { turns with hart.modems := one 0 { fresh := false, wallsLeft := 1 } } 0).wallsLeft ≤ 1 := by decide +kernel

theorem wit_OutWritesLatch :
    (slotRuns (.out 31 (w0 0)) (listed 1 0x26 (w0 0) 3 31 (running [ent 3 31 []])) = true ∧ (31 : Fin 64).val < 32)
    ∧ (slotRuns (.out 63 (w0 0)) (listed 1 0x26 (w0 0) 1 31 (running [ent 1 31 []])) = true ∧ 32 ≤ (63 : Fin 64).val)
    := by decide +kernel

/-! Alarm points, groups and calls. -/

/-- Point 7 with a CMP, a RATE, a LOGIC and a DELAY word at E1's positions 0 to 3. -/
def words7 (b : List Byte) : Entry :=
  { ent 5 7 b with
    slots := [{ engine := 1, words := 4 }]
    words := [slotWordOf 0x20 (w0 0), slotWordOf 0x21 (w0 0), slotWordOf 0x23 (w0 1), slotWordOf 0x22 (w0 0)] }

/-- E1 at a position of its list. -/
def pos (n : Nat) (s : State) : State := { s with course.e1.pos := n }

/-- Point 7 over a body on UC2, whose sample is good, in group 1; group 1 names call table 2. -/
def alm (b : List (Nat × Byte)) (x : Point) : State :=
  { chans with
    course.cn := 10000
    plan.entries := [words7 (body ([(1, 1), (2, 2), (4, 1)] ++ b)),
      { ent 6 1 (body [(6, 2)]) with slots := [{ engine := 1, pos := 4, words := 1 }], words := [slotWordOf 0x24 (w0 0)] },
      { ent 7 2 (body [(0, 1), (2, 2)]) with
        slots := [{ engine := 1, pos := 5, words := 1 }], words := [slotWordOf 0x25 (w0 0)] }]
    alarm.points := one 7 x }

/-- The same with UC2 settling (0xE000), bad (0x4400) or in maintenance (0xC800) by its status word. -/
def almAt (st : Half) (b : List (Nat × Byte)) (x : Point) : State :=
  { alm b x with course.ctx := one 2 { status := st } }

/-- Point 7 with a LOGIC source of operation `op` and no operands. -/
def logic7 (op : Byte) (x : Point) : State :=
  { alm [] x with plan.entries := [words7 (body [(0, 7), (1, 5), (4, 1), (0x26, op)])] }

/-- Point 7 over DIO 0. -/
def dig7 : State :=
  { alm [] {} with plan.entries := [words7 (body [(0, 7), (1, 3)])], course.snap.dig := one 0 { status := 0x8000 } }

theorem wit_CmpSetsCond :
    ((∀ s ∈ [alm [(0, 1)] {}, alm [(0, 2)] {}, alm [(0, 3)] {}, alm [(0, 4)] {}, dig7, logic7 0 {}, almAt 0x4400 [(0, 1)] {},
        alm [(0, 1)] { inhibit := true }], slotRuns (.cmp 7 (w0 0)) s = true ∧ planned s 5 7 = true)
      ∧ ∀ s ∈ [alm [(0, 1)] {}, alm [(0, 2)] {}, alm [(0, 3)] {}, alm [(0, 4)] {}, dig7, logic7 0 {}],
        suppression s (ptBody s 7) (pointGet s 7) = none ∧ evalClass s (ptBody s 7) (pointGet s 7) = .good
          ∧ ptMultidrop s (ptBody s 7) = false)
    ∧ (planned (alm [(0, 1)] {}) 5 7 = true ∧ suppression (alm [(0, 1)] {}) (ptBody (alm [(0, 1)] {}) 7) {} = none
      ∧ ptClass (alm [(0, 1)] {}) (ptBody (alm [(0, 1)] {}) 7) = .good
      ∧ ptMultidrop (alm [(0, 1)] {}) (ptBody (alm [(0, 1)] {}) 7) = false)
    ∧ ptKind (ptBody (alm [(0, 1)] {}) 7) = 1 ∧ ptKind (ptBody (alm [(0, 2)] {}) 7) = 2
    ∧ ptKind (ptBody (alm [(0, 3)] {}) 7) = 3 ∧ ptKind (ptBody (alm [(0, 4)] {}) 7) = 4
    ∧ (ptKind (ptBody dig7 7) = 7 ∧ ptSrcType (ptBody dig7 7) = 3)
    ∧ (ptKind (ptBody (logic7 0 {}) 7) = 7 ∧ ptSrcType (ptBody (logic7 0 {}) 7) = 5)
    ∧ ptClass (almAt 0x4400 [(0, 1)] {}) (ptBody (almAt 0x4400 [(0, 1)] {}) 7) = .bad
    ∧ suppression (alm [(0, 1)] {}) (ptBody (alm [(0, 1)] {}) 7) { inhibit := true } = some .inhibited := by decide +kernel

theorem wit_RateAndLogic :
    (∀ s ∈ [almAt 0x4400 [] {}, almAt 0xE000 [] {}, alm [(0x25, 2)] { window := [(1, false)] },
        alm [(0x25, 2)] { window := [(1, false), (2, true), (3, false)] }, alm [(0, 6)] {}],
      slotRuns (.rate 7 (w0 0)) (pos 1 s) = true ∧ planned (pos 1 s) 5 7 = true)
    ∧ (∀ s ∈ [alm [(0x26, 0)] {}, alm [(0x26, 1)] {}, alm [(0x26, 2)] {}, logic7 0 {}],
      slotRuns (.logic 7 (w0 1)) (pos 2 s) = true ∧ planned (pos 2 s) 5 7 = true)
    ∧ evalClass (alm [(0, 6)] {}) (ptBody (alm [(0, 6)] {}) 7) {} = .good
    ∧ ptClass (almAt 0x4400 [] {}) (ptBody (almAt 0x4400 [] {}) 7) = .bad
    ∧ (ptClass (almAt 0xE000 [] {}) (ptBody (almAt 0xE000 [] {}) 7) = .settling
      ∧ suppression (almAt 0xE000 [] {}) (ptBody (almAt 0xE000 [] {}) 7) {} = none)
    ∧ ((pointGet (alm [(0x25, 2)] { window := [(1, false)] }) 7).state.suppressing = false
      ∧ (pointGet (alm [(0x25, 2)] { window := [(1, false)] }) 7).window.length < ptWindow (ptBody (alm [(0x25, 2)] {}) 7))
    ∧ (pointGet (alm [(0x25, 2)] { window := [(1, false), (2, true), (3, false)] }) 7).window.length = ptWindow (ptBody (alm [(0x25, 2)] {}) 7) + 1
    ∧ ptLogicOp (ptBody (alm [(0x26, 0)] {}) 7) = 0 ∧ ptLogicOp (ptBody (alm [(0x26, 1)] {}) 7) = 1
    ∧ 2 ≤ ptLogicOp (ptBody (alm [(0x26, 2)] {}) 7)
    ∧ (suppression (alm [(0, 6)] {}) (ptBody (alm [(0, 6)] {}) 7) {} = none
      ∧ ptClass (alm [(0, 6)] {}) (ptBody (alm [(0, 6)] {}) 7) = .good ∧ ptKind (ptBody (alm [(0, 6)] {}) 7) = 6
      ∧ ptMultidrop (alm [(0, 6)] {}) (ptBody (alm [(0, 6)] {}) 7) = false)
    ∧ (suppression (logic7 0 {}) (ptBody (logic7 0 {}) 7) {} = none ∧ ptClass (logic7 0 {}) (ptBody (logic7 0 {}) 7) = .good
      ∧ ptKind (ptBody (logic7 0 {}) 7) = 7 ∧ ptSrcType (ptBody (logic7 0 {}) 7) = 5) := by decide +kernel

/-- R219: with no operand AND is true and OR is false; the LOGIC word alone sets COND. -/
theorem test_logic_sets_cond :
    after (exec (.logic 7 (w0 1)) (pos 2 (logic7 0 {}))) (fun t => (pointGet t 7).cond)
    ∧ after (exec (.logic 7 (w0 1)) (pos 2 (logic7 1 { cond := true }))) (fun t => !(pointGet t 7).cond) := by decide +kernel

/-- R242: OLD of an on-delay that has run shows PEND and the COND from before the evaluation, NEW shows ACTIVE_UNACK,
COND and SOUNDING. -/
theorem test_record_old_new :
    after (exec (.delay 7 (w0 0)) (pos 3 (alm [(0, 1)] { cond := true, condWas := true, onT := some 9000 }))) (fun t =>
      t.alarm.raised.map (fun r => (fld r.data 64 16, fld r.data 0 16)) = [(0x1800, 0x3100)])
    ∧ after (exec (.delay 7 (w0 0)) (pos 3 (alm [(0, 1)] { cond := true }))) (fun t =>
      t.alarm.raised.map (fun r => (fld r.data 64 16, fld r.data 0 16)) = [(0, 0x3100)]) := by decide +kernel

theorem wit_DelayRunsPoint :
    (∀ s ∈ [alm [] {}, almAt 0xC800 [] {}, alm [(0x10, 1)] { cond := true }, alm [] { cond := true },
        alm [(0x14, 1)] { state := .activeAck }, almAt 0x4400 [(0x18, 1)] {}, almAt 0x4400 [] {}, almAt 0xE000 [] {}],
      slotRuns (.delay 7 (w0 0)) (pos 3 s) = true ∧ planned (pos 3 s) 5 7 = true)
    ∧ (suppression (almAt 0xC800 [] {}) (ptBody (alm [] {}) 7) {} = some .outOfService ∧ PState.normal ≠ .outOfService)
    ∧ ((suppression (alm [] {}) (ptBody (alm [] {}) 7) {} = none ∧ PState.suppressing .normal = false)
      ∧ ptClass (alm [] {}) (ptBody (alm [] {}) 7) = .good)
    ∧ (0 < ptOnCourses (ptBody (alm [(0x10, 1)] { cond := true }) 7) ∧ (pointGet (alm [] { cond := true }) 7).onT = none)
    ∧ ptOnCourses (ptBody (alm [] { cond := true }) 7) = 0
    ∧ ran (alm [(0x10, 1)] {}) (some 9996) (ptOnCourses (ptBody (alm [(0x10, 1)] {}) 7)) = true
    ∧ ran (alm [(0x10, 1)] {}) (some 9997) (ptOnCourses (ptBody (alm [(0x10, 1)] {}) 7)) = false
    ∧ (0 < msCourses (ptOffDelay (ptBody (alm [(0x14, 1)] { state := .activeAck }) 7))
      ∧ ran (alm [(0x14, 1)] {}) (some 9996) (msCourses (ptOffDelay (ptBody (alm [(0x14, 1)] {}) 7))) = true)
    ∧ (ptClass (almAt 0x4400 [(0x18, 1)] {}) (ptBody (alm [(0x18, 1)] {}) 7) = .bad
      ∧ 0 < msCourses (ptFaultDelay (ptBody (alm [(0x18, 1)] {}) 7)))
    ∧ (ptClass (almAt 0x4400 [] {}) (ptBody (alm [] {}) 7) = .bad ∧ msCourses (ptFaultDelay (ptBody (alm [] {}) 7)) = 0)
    ∧ ptClass (almAt 0xE000 [] {}) (ptBody (alm [] {}) 7) = .settling := by decide +kernel

theorem wit_PointDelaysEnd :
    (planned (alm [(0x10, 1)] {}) 5 7 = true ∧ (pointGet (alm [(0x10, 1)] { cond := true, onT := some 9996 }) 7).cond = true
      ∧ ran (alm [(0x10, 1)] {}) (some 9996) (ptOnCourses (ptBody (alm [(0x10, 1)] {}) 7)) = true)
    ∧ ¬ (ran (alm [(0x10, 1)] {}) none (ptOnCourses (ptBody (alm [(0x10, 1)] {}) 7)) = true)
    ∧ ((pointGet (alm [] { state := .activeUnack, offT := some 9999 }) 7).state = .activeUnack
      ∧ ran (alm [] {}) (some 9999) (msCourses (ptOffDelay (ptBody (alm [] {}) 7))) = true)
    ∧ ((pointGet (alm [] { faultT := some 9999 }) 7).srcBad = false
      ∧ ran (alm [] {}) (some 9999) (msCourses (ptFaultDelay (ptBody (alm [] {}) 7))) = true)
    ∧ ((pointGet (alm [] { blocking := true, relT := some 9999 }) 7).blocking = true
      ∧ (pointGet (alm [] { blocking := true, relT := some 9999 }) 7).blockIn = false
      ∧ ran (alm [] {}) (some 9999) (msCourses (ptRelease (ptBody (alm [] {}) 7))) = true)
    ∧ planned up 5 7 = false := by decide +kernel

/-- A roster: watch enabled on table 2, 60 s with a warning 10 s before, no ENABLE_DI, engineer 1 on DIO 3. -/
def watch (c : CallBlk) : State :=
  { running [{ ent 0x0C 0 (body [(0, 1), (2, 0xFF), (5, 2), (6, 60), (8, 10), (0x10, 0xFF), (0x11, 3)]) with
        slots := [{ engine := 1, words := 1 }], words := [slotWordOf 0x25 (w0 0)] }, ent 7 2 (body [(0, 1), (2, 2)])] with
    course.cn := 240000, alarm.call := c }

theorem wit_GroupAndCall :
    ((∀ s ∈ [alm [] {}, alm [] { state := .activeUnack }, alm [] { state := .clearedUnack }, alm [] { state := .activeAck },
        alm [] { state := .activeUnack, rose := true }],
      slotRuns (.group 1 (w0 0)) (pos 4 s) = true ∧ slotRuns (.call 2 (w0 0)) (pos 5 s) = true)
      ∧ slotRuns (.call 16 (w0 0)) (watch {}) = true)
    ∧ (planned (alm [] { state := .activeUnack }) 6 1 = true
      ∧ ∃ p ∈ members (alm [] { state := .activeUnack }) 1, (pointGet (alm [] { state := .activeUnack }) p).state = .activeUnack)
    ∧ (∃ p ∈ members (alm [] { state := .clearedUnack }) 1,
        (pointGet (alm [] { state := .clearedUnack }) p).state = .clearedUnack)
    ∧ (∃ p ∈ members (alm [] { state := .activeAck }) 1, (pointGet (alm [] { state := .activeAck }) p).state = .activeAck)
    ∧ (¬ ∃ p ∈ members (alm [] {}) 1, (pointGet (alm [] {}) p).state = .activeUnack)
    ∧ ((groupGet (alm [] {}) 1).fo = none
      ∧ firstRisen (alm [] { state := .activeUnack, rose := true }) (members (alm [] { state := .activeUnack, rose := true }) 1)
        = some 7)
    ∧ (planned (alm [] {}) 7 2 = true ∧ tabCalled (alm [] {}) 2 = false)
    ∧ (tabCalled (alm [] { state := .activeUnack }) 2 = true ∧ (callTab (alm [] { state := .activeUnack }) 2).stage = 0
      ∧ 0 < u16At (tabBody (alm [] {}) 2) 0 ∧ 0 < u16At (tabBody (alm [] {}) 2) 2)
    ∧ stage1Due { alm [] {} with alarm.call.tables := one 2 { stage := 1, start := 6000 } } 2 = true
    ∧ stage2Due { alm [] {} with alarm.call.tables := one 2 { stage := 2, start := 2000 } } 2 = true
    ∧ ((roster (watch { phase := .running })).isSome = true ∧ expiryDue (watch { phase := .running }) = true)
    ∧ (expiryDue (watch { phase := .running, watchStart := 40000 }) = false
      ∧ prewarnDue (watch { phase := .running, watchStart := 40000 }) = true)
    ∧ (expiryDue (watch {}) = false ∧ prewarnDue (watch {}) = false) := by decide +kernel

theorem wit_CallStagesAndWatch :
    ((planned (alm [] { state := .activeUnack }) 7 2 = true ∧ tabCalled (alm [] { state := .activeUnack }) 2 = true)
      ∧ secCourses (u16At (tabBody (alm [] {}) 2) 0) ≤ since (alm [] {}) 6000
      ∧ ¬ (secCourses (u16At (tabBody (alm [] {}) 2) 0) ≤ since (alm [] {}) 6001)
      ∧ secCourses (u16At (tabBody (alm [] {}) 2) 2) ≤ since (alm [] {}) 2000)
    ∧ (let f : Xfer := { table := 2, old := 0, new := 1, start := 239960 }
      f ∈ (watch { xfers := [f] }).alarm.call.xfers ∧ planned (watch { xfers := [f] }) 7 2 = true ∧ f.table = 2
        ∧ f.failed = false ∧ 40 ≤ since (watch { xfers := [f] }) f.start ∧ cabinOn (watch { xfers := [f] }) f.new = false)
    ∧ (∀ f ∈ (watch { xfers := [{ table := 2, start := 239961 }] }).alarm.call.xfers,
        f.table = 2 → since (watch {}) f.start < 40)
    ∧ ((roster (watch {})).isSome = true
      ∧ secCourses (u16At (rosterBody (watch {})) 6 - u16At (rosterBody (watch {})) 8) ≤ since (watch {}) 1
      ∧ since (watch {}) 1 < secCourses (u16At (rosterBody (watch {})) 6))
    ∧ since (watch {}) 40001 < secCourses (u16At (rosterBody (watch {})) 6 - u16At (rosterBody (watch {})) 8)
    ∧ (secCourses (u16At (rosterBody (watch {})) 6) ≤ since (watch {}) 0 ∧ planned (watch {}) 7 (watchTable (watch {})) = true
      ∧ (callTab (watch {}) (watchTable (watch {}))).wstage = 0)
    ∧ (let s := watch { phase := .expired, tables := one 2 { wstage := 2, wstart := 232000 } }
      (callTab s (watchTable s)).wstage = 2
        ∧ secCourses (u16At (tabBody s (watchTable s)) 2) ≤ since s (callTab s (watchTable s)).wstart)
    ∧ (callTab (watch {}) (watchTable (watch {}))).wstage ≠ 2 := by decide +kernel

/-! The course and the square. -/

def closedSquare : State := { up with square.closed := some { cn := 4 }, square.writing := some 1, square.newest := some 0 }

theorem wit_CourseFaults :
    (courseRuns up = true ∧ notEnded up = true ∧ (1 = if up.course.e1.ended then 0 else 1))
    ∧ (claimed up = true ∧ isSolo up = false ∧ up.red.yieldNext = none ∧ domUp up 1 = true)
    ∧ (∃ f : Fin 2, (1 : Nat) = f.val) ∧ courseRuns State.reset = false := by decide +kernel

theorem wit_BoundaryAdvancesCourse :
    (domUp up 3 = true ∧ (up.sys.step = 9 ∨ up.sys.step = 10) ∧ up.sys.resetAsked = none ∧ up.loader.starting = none
      ∧ up.loader.stopping = none ∧ up.red.state ≠ .standby ∧ (∀ n < 16, (district up n).state ≠ .updating)
      ∧ up.course.run = true ∧ notEnded up = true)
    ∧ (notEnded { up with course.e0.ended := true, course.e1.ended := true } = false ∧ up.course.faulted = false)
    := by decide +kernel

theorem wit_PublishMakesNewest :
    domUp closedSquare 3 = true ∧ closedSquare.square.closed = some { cn := 4 } ∧ closedSquare.square.writing = some 1
    ∧ (2 : Nat) ≠ 1 := by decide +kernel

theorem wit_SquareReaders :
    PageTakes up 18 ∧ domUp up 3 = true
    ∧ (readerGet { up with square.readers := one 4 { pin := some (some 2) } } (Requester.reader .host)).pin = some (some 2)
    ∧ ((readerGet up (Requester.reader .a0)).pin = none ∧ (0x1FF0 : BitVec 24).toNat % 16 = 0 ∧ (0x1FF0 : BitVec 24).toNat < 8192)
    ∧ (readerGet { up with square.readers := one 0 { latch := some (some 2, 1) } } (Requester.reader .a0)).latch
      = some (some 2, (0x14 : BitVec 24).toNat / 16)
    ∧ (0x14 : BitVec 24).toNat % 16 ≠ 0
    ∧ (readerGet up (Requester.reader .a0)).latch = none ∧ (0x15 : BitVec 24).toNat % 4 ≠ 0 := by
  simp only [takes_iff]
  decide +kernel

/-! Samples, lanes, monitors and protection. -/

theorem wit_SamplesReachLatch :
    (domUp chans 3 = true ∧ tileUp chans (2 / 8) = true ∧ ucSamples chans 2 = true ∧ (ucGet chans 2).inp.low = false
      ∧ (counts (0x77FFFF00 : Word)).toInt.natAbs < 7864320)
    ∧ (let s := { chans with plan.entries := [ent 32 63 (body [(0, 1), (1, 2)])] }
      ∃ e, planEntry s 32 63 = some e ∧ bAt e.body 0 = 1 ∧ bAt e.body 1 = 2 ∧ domUp s 1 = true)
    ∧ (let s := { up with lis := one 0 { cfgF := 0x10000000 } }
      tileUp s (32 / 8) = true ∧ liSamples s 0 = true ∧ liUnjudged (liGet s 0) = false)
    ∧ ((309237645 : Word).toInt * 250 < 36 * 2147483648 ∧ 210 * 2147483648 < (1803886265 : Word).toInt * 250
      ∧ 38 * 2147483648 ≤ (326417515 : Word).toInt * 250 ∧ (1760936591 : Word).toInt * 250 ≤ 205 * 2147483648) := by
  refine ⟨by decide +kernel, ⟨_, rfl, by decide +kernel⟩, by decide +kernel, by decide +kernel⟩

def lane (p : Byte) (x : Lane) : State :=
  { running [ent 32 5 (body [(0, 1), (2, p), (3, 2)])] with safe.lanes := one 5 x, safe.faultRun := 8 }

theorem wit_LanesAndForced :
    ((planEntry (lane 0 {}) 32 5).isSome = true ∧ domUp (lane 0 {}) 1 = true ∧ bits (bAt (entBody (planEntry (lane 0 {}) 32 5)) 2) 3 1 = 0)
    ∧ (bits (bAt (entBody (planEntry (lane 8 {}) 32 5)) 2) 3 1 = 1 ∧ (laneGet (lane 8 {}) 5).tripped = false)
    ∧ (claimed (lane 0 {}) = true ∧ isSolo (lane 0 {}) = false ∧ (lane 0 {}).red.yieldNext = none)
    ∧ (8 ≤ (lane 0 {}).safe.faultRun.toNat ∧ (lane 0 {}).red.gates = true ∧ (lane 0 {}).safe.forced = false
      ∧ (safeOut (running [ent 0x22 63 []]) 63).isSome = true)
    ∧ up.safe.faultRun.toNat < 8 := by decide +kernel

/-- UC0 in CURRENT input with an excitation limit, UC1 in IEPE, UC2 with its guard on. -/
def mon (i : UcIn) : State :=
  { up with ucs := ⟨[(0, { inForce := { cfg := 0x30000000 }, inp := i }), (1, { inForce := { cfg := 0x60000000 }, inp := i }),
      (2, { inForce := { cfg := 0x10100000 }, inp := i })]⟩ }

theorem wit_InputMonitors :
    (tileUp (mon {}) (0 / 8) = true ∧ excMonitored (ucGet (mon {}) 0) = true ∧ gateUc (mon {}) 0 = true)
    ∧ (1 ≤ (ucGet (mon { excLow := 1 }) 0).inp.excLow ∧ (899 : BitVec 12).toNat < 900)
    ∧ ((ucGet (mon {}) 0).inp.excLow = 0 ∧ 900 ≤ (900 : BitVec 12).toNat)
    ∧ (19 ≤ (ucGet (mon { excFault := true, excGood := 19 }) 0).inp.excGood ∧ 950 ≤ (950 : BitVec 12).toNat)
    ∧ ((ucGet (mon { excFault := true }) 0).inp.excGood < 19 ∧ (949 : BitVec 12).toNat < 950)
    ∧ (ucModeF (ucGet (mon {}) 1) = 6 ∧ gateUc (mon {}) 1 = true ∧ (ucGet (mon {}) 1).inp.short = false)
    ∧ (bitAt (ucGet (mon {}) 2).inForce.cfg 20 = true ∧ 1 ≤ ucModeF (ucGet (mon {}) 2) ∧ ucModeF (ucGet (mon {}) 2) ≤ 6
      ∧ (ucGet (mon {}) 2).inp.grdLimit = false)
    ∧ tileUp (mon {}) 3 = true := by decide +kernel

def loop (l : LiChan) : State := { up with lis := one 47 { l with cfgF := 0x10800000 } }

theorem wit_LoopProtection :
    (tileUp (loop {}) (4 + 47 / 8) = true ∧ liPowered (liGet (loop {}) 47) = true ∧ liBurdenClosed (loop {}) 47 = true)
    ∧ ((liGet (loop { pwrShort := true, pwrTrial := true }) 47).pwrShort = true
      ∧ (liGet (loop { pwrShort := true, pwrTrial := true }) 47).pwrTrial = true)
    ∧ ((liGet (loop { burdenProt := true, burdenTrial := true }) 47).burdenProt = true
      ∧ (liGet (loop { burdenProt := true, burdenTrial := true }) 47).burdenTrial = true) := by decide +kernel

/-- UC0 is an output, UC8 an input that an OPEN_TEST of tile 1 is testing. -/
def therm : State :=
  { up with
    ucs := ⟨[(0, { inForce := { cfg := 0x80000000 }, out := { therm := true } }),
      (8, { inForce := { cfg := 0x40000000, lim := 0x00020000 }, inp := { openCmd := true } })]⟩
    hdrs := one 0x21 { busy := true, run := some ⟨.a0, 2, 0⟩ } }

theorem wit_ThermAndOpenTests :
    (domUp therm 6 = true ∧ ucIsOut (ucGet therm 0) = true ∧ gateUc therm 0 = true ∧ (ucGet therm 0).out.therm = true)
    ∧ (PageReady { therm with hdrs := {} } (32 + 1) ∧ (7 : BitVec 24).toNat < 8 ∧ openTestable (ucGet therm (8 * 1 + 0)) = true
      ∧ gateUc therm 8 = true ∧ (tileGet therm 1).restarting = false)
    ∧ (tileUp therm (8 / 8) = true ∧ (ucGet therm 8).inp.openCmd = true ∧ (hdr therm (32 + 8 / 8)).run = some ⟨.a0, 2, 0⟩
      ∧ fld (ucGet therm 8).inForce.lim 16 16 ≠ 0 ∧ fld (ucGet therm 8).inForce.lim 16 16 * 1000 < 2001
      ∧ 1999 < fld (ucGet therm 8).inForce.lim 16 16 * 1000) := by
  simp only [ready_iff]
  decide +kernel

/-! Plan images. -/

/-- The bytes of an image that are not 0: 8 courses to a wall, district 4 with one pattern entry, CRC-32 and the
HMAC-SHA-256 under a key of zeros computed outside Lean. -/
def imageBytes : List (Nat × Byte) :=
  [(0, 78), (1, 76), (2, 80), (3, 68), (4, 3), (6, 8), (8, 192), (9, 1), (12, 120), (13, 86), (14, 52), (15, 18),
    (20, 65), (22, 65), (40, 16), (128, 64), (129, 1), (132, 40), (136, 145), (137, 1), (138, 24), (139, 71),
    (140, 1), (141, 1), (320, 4), (321, 1), (322, 1), (324, 1), (336, 24), (340, 8), (352, 8), (354, 1),
    (384, 17), (385, 108), (386, 48), (387, 133), (416, 77), (417, 254), (418, 5), (419, 202), (420, 102),
    (421, 171), (422, 35), (423, 194), (424, 79), (425, 176), (426, 38), (427, 31), (428, 223), (429, 85),
    (430, 221), (431, 82), (432, 239), (433, 238), (434, 77), (435, 78), (436, 107), (437, 251), (438, 97),
    (439, 230), (440, 251), (441, 25), (442, 182), (443, 188), (444, 235), (445, 3), (446, 25), (447, 103)]
def image : Mem := ⟨(List.range 448).map (fun i => (i, ((imageBytes.find? (fun x => x.1 = i)).map Prod.snd).getD 0))⟩

/-- A unit without a claim, with that image in bank 0 and the plan key installed. -/
def loader (v : Option Verifying) : State :=
  { up with
    red.role := .solo, red.own := 0, red.gates := false
    plan.nor := image, plan.key := some (List.replicate 32 0), plan.wall := 8, plan.base0 := 65, plan.base1 := 65
    loader.verifying := v, loader.safeVerifying := v }

set_option maxRecDepth 200000 in
theorem image_accepted :
    verifyImage (loader none) (readImage (loader none) false 0) (imgRoom 0) = none
    ∧ verifyUpdate (loader none) (readImage (loader none) false 0) (imgRoom 0) 4 false false = none := by decide +kernel

theorem loader_integrity (v : Option Verifying) (l : List Byte) :
    checkIntegrity (loader v) l = checkIntegrity (loader none) l := by
  unfold checkIntegrity; rfl

theorem loader_checkPlan (v : Option Verifying) (l : List Byte) : checkPlan (loader v) l = checkPlan (loader none) l := by
  unfold checkPlan; rfl

theorem loader_readImage (v : Option Verifying) : readImage (loader v) false 0 = readImage (loader none) false 0 := by
  unfold readImage; rfl

theorem loader_verifyImage (v : Option Verifying) (l : List Byte) (r : Nat) :
    verifyImage (loader v) l r = verifyImage (loader none) l r := by
  unfold verifyImage
  rw [loader_integrity, loader_checkPlan]

theorem accepted (v : Option Verifying) :
    verifyImage (loader v) (readImage (loader v) false 0) (imgRoom 0) = none := by
  rw [loader_verifyImage, loader_readImage]
  exact image_accepted.1

theorem accepted_update (v : Option Verifying) :
    verifyUpdate (loader v) (readImage (loader v) false 0) (imgRoom 0) 4 false false = none := by
  rw [loader_readImage, show verifyUpdate (loader v) = verifyUpdate (loader none) from ?_]
  · exact image_accepted.2
  · funext l r n m q
    unfold verifyUpdate
    rw [loader_integrity, loader_checkPlan]
    rfl

/-! HART and calibration. -/

/-- LI0 in turn 0 of modem 0; descriptor 0 is queued or as given, for LI0, with 4 bytes and 1 retry. -/
def hart (m : Modem) (d : HartDesc) : State :=
  { running [ent 9 0 (body [(0, 1), (6, 100)])] with
    plan.wall := 8
    lis := one 0 { cfgF := 0x10000000 }
    hart := { modems := one 0 m, descs := one 0 { d with ctl := 0x01000004, rsp := 0x20000000 }, queue := [0] } }

theorem wit_HartTransactions :
    ((modem (hart { coupled := some 32, wallsLeft := 300 } {}) 0).coupled = some 32
      ∧ hartNext (hart {} {}) 32 = some 0 ∧ domUp (hart {} {}) 3 = true ∧ (modem (hart {} {}) 0).active = none
      ∧ gateAna (hart {} {}) 32 = true ∧ hartFits (hart { coupled := some 32, wallsLeft := 300 } {}) 0 0 = true)
    ∧ ((modem (hart { active := some 0 } {}) 0).active = some 0 ∧ (modem (hart { active := some 0 } {}) 0).retryWait = false
      ∧ (desc (hart {} {}) 0).tries < fld (desc (hart {} {}) 0).ctl 24 2)
    ∧ fld (desc (hart {} { tries := 1 }) 0).ctl 24 2 ≤ (desc (hart {} { tries := 1 }) 0).tries
    ∧ (modem (hart { active := some 0, retryWait := true } {}) 0).retryWait = true
    ∧ (inRam (desc (hart {} {}) 0).rsp.toNat 264 = true ∧ (hart {} {}).mem.main.wf 0 = true
      ∧ 0x1FFFFFFF < (desc (hart {} {}) 0).rsp.toNat)
    ∧ (hartPasses [0x7FE] [0x60C, 0x60C] = true ∧ hartPasses [0x5FE] [0x60C, 0x60C] = false)
    ∧ (modem (hart { coupled := some 32 } {}) 0).coupled.isSome = true
    ∧ (PageReady (hart {} {}) 43 ∧ (desc (hart {} {}) 0).state = .free ∧ 4 ≤ fld (desc (hart {} {}) 0).ctl 0 9
      ∧ fld (desc (hart {} {}) 0).ctl 0 9 ≤ 263 ∧ hartAble (hart {} {}) (descChan (desc (hart {} {}) 0)) = true
      ∧ hartInTurn (hart {} {}) (descChan (desc (hart {} {}) 0)) = true)
    ∧ hartInTurn { hart {} {} with plan.entries := [] } (descChan (desc (hart {} {}) 0)) = false
    ∧ ((desc (hart {} { state := .queued }) 0).state = .queued ∧ (desc (hart {} { state := .done }) 0).state = .done)
    ∧ PageTakes (hart {} {}) 43 := by
  simp only [ready_iff, takes_iff]
  decide +kernel

def cal (x : TileCal) : State := { up with tileCal := one 9 x }

theorem wit_ReferenceChecks :
    (tileUp (cal {}) 9 = true ∧ domUp (cal {}) 3 = true ∧ (tileCal (cal { transfer := some 5 }) 9).transfer = some 5
      ∧ (tileCal (cal { transfer := some 5 }) 9).owesCommit = false ∧ (tileCal (cal { transfer := some 5 }) 9).xferFail = false
      ∧ ((1005 : Int) - 5).natAbs ≤ 1000 ∧ 1000 < ((-996 : Int) - 5).natAbs)
    ∧ ((tileCal (cal { xferFail := true, xferOk := 1 }) 9).xferFail = true
      ∧ (tileCal (cal { xferFail := true, xferOk := 1 }) 9).xferOk < 2)
    ∧ 2 ≤ (tileCal (cal { xferFail := true, xferOk := 2 }) 9).xferOk
    ∧ (tileUp (cal { owesCommit := true }) 9 = true ∧ (tileCal (cal { owesCommit := true }) 9).owesCommit = true
      ∧ (tileCal (cal { owesCommit := true, xferFail := true }) 9).xferFail = true)
    ∧ (2000 < ((2001 : Int) - up.cal.ratioBase).natAbs ∧ ((-2000 : Int) - up.cal.ratioBase).natAbs ≤ 2000
      ∧ up.cal.refDisagree = false)
    ∧ (1500 < ((1501 : Int) - 0).natAbs ∧ ({ up with cal.refDisagree := true } : State).cal.refDisagree = true)
    ∧ (((1500 : Int) - 0).natAbs ≤ 1500 ∧ up.cal.okWalls < 2)
    ∧ 2 ≤ ({ up with cal.refDisagree := true, cal.okWalls := 2 } : State).cal.okWalls := by decide +kernel

/-- A turn of path 4 by spare 0 of tile 0, in the step given, and converters as given. -/
def turn (n : Nat) (c : Tab Converter) : State :=
  { up with tileCal := one 0 { walls := 65, convs := c, turns := one 0 { conv := 4, step := n } } }

theorem wit_RotationAndAges :
    ((tileCal (turn 1 {}) 0).turns.get? 0 = some { conv := 4, step := 1 }
      ∧ calAccepted (conv (turn 1 {}) 0 (16 + 0)) 7 8 = true ∧ (conv (turn 1 {}) 0 (16 + 0)).out = false)
    ∧ (calAccepted (conv (turn 1 (one 16 { consts := some (0, 0), rejects := 1 })) 0 16) 1001 0 = false
      ∧ calAccepted (conv (turn 1 (one 16 { consts := some (0, 0), rejects := 1 })) 0 16) 1000 500 = true
      ∧ 1 ≤ (conv (turn 1 (one 16 { consts := some (0, 0), rejects := 1 })) 0 16).rejects)
    ∧ (tileCal (turn 2 {}) 0).turns.get? 0 = some { conv := 4, step := 2 }
    ∧ ((tileCal (turn 4 {}) 0).turns.get? 0 = some { conv := 4, step := 4 } ∧ calAccepted (conv (turn 4 {}) 0 4) 0 0 = true)
    ∧ ((tileCal (turn 5 {}) 0).turns.get? 0 = some { conv := 4, step := 5 } ∧ (tileCal (turn 5 {}) 0).held.get? 0 = none)
    ∧ (domUp (turn 1 {}) 3 = true ∧ (convKeys 0).contains 17 = true ∧ 64 < convAge (turn 1 {}) 0 17
      ∧ (conv (turn 1 {}) 0 17).overdue = false)
    ∧ ((tileGet { up with tiles := one 9 { warmLeft := 0 } } 9).warm = true
      ∧ (tileGet { up with tiles := one 9 { warmLeft := 0 } } 9).warmLeft = 0)
    ∧ (365 < (366 : Half).toNat ∧ up.cal.days.toNat ≤ (366 : Half).toNat ∧ up.cal.aged = false
      ∧ ({ up with cal.dateValid := true } : State).cal.dateValid = true) := by decide +kernel

/-- UC31 in maintenance and warm, with a session in the state given. -/
def session (c : CalBlk) (h : PageHdr) : State :=
  { up with
    maint.on := one 31 true, tiles := one 3 { warm := false }
    cal := { c with ch := 31, certLo := 0, certHi := 0x40240000 }, hdrs := one 0x2A h }

theorem wit_FieldCalibration :
    (PageReady (session {} {}) 42 ∧ (31 : BitVec 24).toNat < 32 ∧ (session {} {}).cal.session = 0
      ∧ inMaint (session {} {}) 31 = true ∧ (tileGet (session {} {}) (31 / 8)).warm = false
      ∧ (session {} {}).cal.refDisagree = false)
    ∧ (certOk (session { session := 1 } {}) 0 = true ∧ (session { session := 1 } {}).cal.session = 1)
    ∧ (certOk { session { session := 1 } {} with cal.certHi := 0x40590000 } 1 = true
      ∧ gateUc (session { session := 1 } {}) 31 = true)
    ∧ certOk { session { session := 1 } {} with cal.certHi := 0x40C38800 } 2 = true
    ∧ ((session { session := 2 } { run := some ⟨.host, 2, 0⟩ }).cal.session = 2
      ∧ (hdr (session { session := 2 } { run := some ⟨.host, 2, 0⟩ }) 42).run = some ⟨.host, 2, 0⟩)
    ∧ (let p : CalPoint := { valid := true, dev := 5000 }
      (session { v10 := p, r100 := p, r10k := p } {}).cal.v10.valid = true ∧ p.dev.toInt.natAbs ≤ 5000)
    ∧ ((hdr (session {} { run := some ⟨.host, 3, 0⟩ }) 42).run = some ⟨.host, 3, 0⟩
      ∧ ({ session {} {} with sup.rtcValid := true } : State).sup.rtcValid = true ∧ (session {} {}).cal.pred = false)
    ∧ (session { session := 1 } {}).cal.session ≠ 0 := by
  simp only [ready_iff]
  decide +kernel

/-! Plan images, districts and NOR. -/

theorem wit_PlanLoading :
    (PageReady (loader none) 17 ∧ (1023 : BitVec 24).toNat < 1024 ∧ claimed (loader none) = false
      ∧ (loader none).plan.state ≠ .loading ∧ (loader none).plan.state = .running)
    ∧ ((loader (some { op := 1 })).loader.verifying = some { op := 1 }
      ∧ verifyImage (loader (some { op := 1 })) (readImage (loader (some { op := 1 })) false 0) (imgRoom 0) = none)
    ∧ ((loader (some { op := 5 })).loader.verifying = some { op := 5 }
      ∧ verifyImage (loader (some { op := 5 })) (readImage (loader (some { op := 5 })) false 0) (imgRoom 0) = none)
    ∧ (∃ v : Verifying, ({ loader (some { op := 1, bank := true }) with sys.step := 10 } : State).loader.verifying = some v
      ∧ v.op = 1 ∧ verifyImage (loader (some v)) (readImage (loader (some v)) true 0) (imgRoom 0) = some (1, none))
    ∧ State.reset.plan.state = .noPlan
    ∧ (norBusy (loader (some { op := 1 })) false = false ∧ norBusy (loader (some { op := 5 })) false = false
      ∧ norBusy (loader (some { op := 1, bank := true })) true = false)
    ∧ ((loader (some { op := 1, bank := true })).loader.verifying = some { op := 1, bank := true }
      ∧ norBusy { loader (some { op := 1, bank := true }) with loader.norOp := some { bank := true } } true = true) := by
  simp only [ready_iff]
  refine ⟨by decide +kernel, ⟨rfl, accepted _⟩, ⟨rfl, accepted _⟩, ⟨_, rfl, rfl, by decide +kernel⟩, rfl,
    ⟨rfl, rfl, rfl⟩, rfl, rfl⟩

theorem wit_DistrictUpdates :
    (PageReady (loader none) 17 ∧ argOutside 0x003003FF 0xF003FF = false ∧ fld (0x003003FF : BitVec 24) 20 4 < 4)
    ∧ (4 ≤ fld (0x00400000 : BitVec 24) 20 4 ∧ (district (loader none) 4).state ≠ .updating)
    ∧ ((loader (some { op := 3, district := 4 })).loader.verifying = some { op := 3, district := 4 }
      ∧ verifyUpdate (loader (some { op := 3, district := 4 })) (readImage (loader (some { op := 3, district := 4 })) false 0)
        (imgRoom 0) 4 false false = none)
    ∧ ((loader (some { op := 3, bank := true, district := 4 })).loader.safeVerifying
        = some { op := 3, bank := true, district := 4 }
      ∧ verifyUpdate (loader none) (readImage (loader none) true 0) (imgRoom 0) 4 false true = some (1, none))
    ∧ (district { loader none with plan.districts := one 15 { state := .updating } } 15).state = .updating
    ∧ norBusy (loader (some { op := 3, bank := true, district := 4 })) true = false
    ∧ norBusy (loader (some { op := 3, district := 4 })) false = false := by
  simp only [ready_iff]
  refine ⟨by decide +kernel, by decide +kernel, ⟨rfl, accepted_update _⟩, ⟨rfl, by decide +kernel⟩, rfl, rfl, rfl⟩

theorem wit_NorOperations :
    (PageReady up 17 ∧ argOutside 0xFF0100 0xFF03FF = false ∧ argBlock 0xFF0100 + (fld (0xFF0100 : BitVec 24) 16 8 + 1) ≤ 512
      ∧ up.loader.norOp = none ∧ norHeld up (argBank 0xFF0100) (argBlock 0xFF0100) 256 = false)
    ∧ (let s := { up with plan.len := 256, plan.src := 0x20000000 }
      s.plan.len.toNat % 256 = 0 ∧ s.plan.src.toNat % 4 = 0 ∧ inRam s.plan.src.toNat s.plan.len.toNat = true
        ∧ s.plan.len.toNat ≤ imgRoom (argBlock 0x1FF) ∧ norHeld s (argBank 0x1FF) (argBlock 0x1FF) 1 = false
        ∧ ∀ b ∈ norRead s (norBase (argBank 0x1FF) (argBlock 0x1FF)) s.plan.len.toNat, b = 0xFF)
    ∧ (let o : NorOp := { erase := true, count := 1 }
      ({ up with loader.norOp := some o } : State).loader.norOp = some o ∧ up.plan.nor.wf 0xFF = true ∧ 65535 < 65536 * o.count)
    ∧ (let o : NorOp := { block := 1, src := 0x20000000, len := 256 }
      ({ up with loader.norOp := some o } : State).loader.norOp = some o ∧ 65535 < norBase o.bank o.block
        ∧ up.host.waiting = [])
    ∧ (let s := { up with loader.norOp := some { erase := true, count := 1 }, host.waiting := [(false, 0x11, 0x51000000)] }
      s.loader.norOp = some { erase := true, count := 1 } ∧ s.host.waiting = [(false, 0x11, 0x51000000)]) := by
  simp only [ready_iff]
  decide +kernel

theorem wit_ClearPeakZeroesPeak :
    PageReady up 16 ∧ (1 : BitVec 24) ≠ 0 ∧ domUp up 3 = true
    ∧ ({ up with course.clearPeak := true } : State).course.clearPeak = true ∧ fld (0x02000000 : Word) 24 8 ≠ 1 := by
  simp only [ready_iff]
  decide +kernel

theorem wit_BusyPageDropsCommand :
    commandPage (.clearPeak .a0 0) = some 16
    ∧ (∃ d, pageDom { up with hdrs := one 16 { busy := true } } 16 = some d
      ∧ domTakes { up with hdrs := one 16 { busy := true } } d = true)
    ∧ (hdr { up with hdrs := one 16 { busy := true } } 16).busy = true := ⟨by decide +kernel, ⟨3, rfl, rfl⟩, rfl⟩

theorem wit_ClockCorrection :
    (Instr.clockFault ≠ .courseBoundary true true ∧ Instr.clockFault ≠ .holdupExhausted)
    ∧ (({ up with clk.en := true } : State).clk.en = true ∧ up.clk.holdover = false)
    ∧ PageTakes up 2 ∧ (BitVec.ofNat 16 (fld (0x0000EC77 : Word) 0 16)).toInt < -5000
    ∧ 5000 < (BitVec.ofNat 16 (fld (0x00001389 : Word) 0 16)).toInt
    ∧ (BitVec.ofNat 16 (fld (0x0000EC78 : Word) 0 16)).toInt = -5000
    ∧ (BitVec.ofNat 16 (fld (0x00001388 : Word) 0 16)).toInt = 5000 := by
  simp only [takes_iff]
  decide +kernel

/-! Maintenance and configuration. -/

def kept (m : Nat) : State := { up with maint.on := one m true }

theorem wit_MaintenanceAndConfiguration :
    (PageReady (kept 143) (maintPage 11) ∧ argOutside 0x11F (if (11 : Nat) < 10 then 0x107 else 0x11F) = false
      ∧ inMaint (kept 143) (maintNum 11 (fld (0x11F : BitVec 24) 0 5)) = bitAt (0x11F : BitVec 24) 8)
    ∧ (PageReady up (maintPage 0) ∧ inMaint up (maintNum 0 (fld (0x107 : BitVec 24) 0 3)) ≠ bitAt (0x107 : BitVec 24) 8
      ∧ guarded up (maintNum 0 7) = false)
    ∧ (inMaint (kept 7) (maintNum 0 7) ≠ bitAt (0x007 : BitVec 24) 8 ∧ modeStepLeft (kept 7) (maintNum 0 7) = false)
    ∧ (({ up with maint.asked := [(31, true)] } : State).maint.asked = [(31, true)] ∧ inMaint up 31 = false
      ∧ ({ up with maint.asked := [(111, true)] } : State).maint.asked = [(111, true)] ∧ inMaint up 111 = false)
    ∧ (PageReady up (tilePage 9) ∧ notInService up = false ∧ tileGuarded up 9 = false)
    ∧ (let s := { up with tiles := one 4 { restarting := true }, hdrs := one (tilePage 4) { run := some ⟨.a0, 16, 0⟩ } }
      (tileGet s 4).restarting = true ∧ (tileGet s 4).back = false ∧ domUp s 5 = true
        ∧ (hdr s (tilePage 4)).run = some ⟨.a0, 16, 0⟩)
    ∧ (PageTakes up (32 + 31 / 8) ∧ maintNow (kept 31) 31 = true ∧ ucCfgOk 31 (0xB0000000 : Word).toNat = true
      ∧ ucCfgOk 31 (0x56000000 : Word).toNat = false)
    ∧ (PageTakes up (32 + 79 / 8) ∧ fld (0 : Word) 28 4 = liMode (liGet up (79 - 32)) ∧ liCfgOk (0 : Word).toNat = true
      ∧ liCfgOk (0x20000000 : Word).toNat = false)
    ∧ (PageTakes up (digPage 63) ∧ inMaint (kept 143) (80 + 63) = true ∧ digCfgOk (decide (32 ≤ 63)) (0x18000000 : Word).toNat = true
      ∧ digCfgOk (decide (32 ≤ 63)) (0x20000000 : Word).toNat = false)
    ∧ (bitAt (0x80000000 : Word) 31 = true ∧ maintNow up 0 = false ∧ maintNow (kept 0) 0 = true ∧ bitAt (0 : Word) 31 = false)
    ∧ (PageTakes up 48 ∧ inMaint up (80 + 31) = false ∧ inMaint (kept 111) (80 + 31) = true) := by
  simp only [ready_iff, takes_iff]
  decide +kernel

/-! Digital channels. -/

/-- Digital channel 0 in the mode given, out as given. -/
def dig (cfg : Word) (c : DigChan) (o : DioOut) : State :=
  { up with dig.chans := one 0 { c with cfgF := cfg }, dig.outs := one 0 o }

theorem wit_DigitalInputsAndLamps :
    (domUp (dig 0x10000000 {} {}) 6 = true ∧ digMode (digGet (dig 0x10000000 {} {}) 0) ≠ 0
      ∧ (digGet (dig 0x10000000 {} {}) 0).brk = false ∧ (digGet (dig 0x10000000 {} {}) 0).inp = false
      ∧ (digGet (dig 0x10000000 { raw := true } {}) 0).raw = true ∧ ¬ (5001 : Int) ≤ 5000 ∧ ¬ 11000 ≤ (10999 : Int))
    ∧ (digMode (digGet { up with dig.chans := one 32 { cfgF := 0x10000000 } } 32) = 1
      ∧ bitAt (digGet { up with dig.chans := one 32 { cfgF := 0x10000000 } } 32).cfgF 27 = false)
    ∧ (digGet (dig 0x18000000 { brk := true } {}) 0).brk = true
    ∧ (let s := dig 0x18000000 { debF := 100 } {}
      digMode (digGet s 0) = 1 ∧ bitAt (digGet s 0).cfgF 27 = true ∧ (499 : Half).toNat < 500
        ∧ (digDeb (digGet s 0) + 99) / 100 ≤ (digGet s 0).wbLow + 1)
    ∧ (let s := dig 0x18000000 { debF := 101 } {}
      (digGet s 0).wbLow + 1 < (digDeb (digGet s 0) + 99) / 100 ∧ 500 ≤ (500 : Half).toNat)
    ∧ (let s := dig 0x18000000 { debF := 100, brk := true } {}
      600 ≤ (600 : Half).toNat ∧ (digDeb (digGet s 0) + 99) / 100 ≤ (digGet s 0).wbHigh + 1 ∧ (599 : Half).toNat < 600)
    ∧ (let s := dig 0x26000000 {} { drive := true }
      dioJudged s 0 = true ∧ openChecked s 0 = true ∧ (dioGet s 0).openW = false)
    ∧ (let s := dig 0x26000000 {} { openW := true }
      dioJudged s 0 = true ∧ openChecked s 0 = true ∧ (dioGet s 0).openW = true)
    ∧ (let s := dig 0x30000000 {} { drive := true }
      dioJudged s 0 = true ∧ lampJudged s 0 = true ∧ dioMode s 0 = 3 ∧ (dioGet s 0).learned = false ∧ (dioGet s 0).dark = false)
    ∧ (let s := dig 0x30000000 {} { drive := true, dark := true }
      lampJudged s 0 = true ∧ (dioGet s 0).dark = true ∧ (dioGet s 0).drive = true)
    ∧ (let s := dig 0x30000000 {} { dark := true }
      lampJudged s 0 = true ∧ (dioGet s 0).dark = true ∧ (dioGet s 0).drive = false ∧ (dioGet s 0).darkOff = false)
    ∧ (let s := dig 0x30000000 {} { drive := true, learned := true }
      lampJudged s 0 = true ∧ (dioGet s 0).drive = true ∧ (dioGet s 0).learned = true ∧ (dioGet s 0).degraded ≠ true)
    ∧ (let s := dig 0x20000000 {} {}
      2 ≤ dioMode s 0 ∧ vfJudged s = true ∧ (dioGet s 0).readback ≠ true ∧ (dioGet s 0).clamp = false)
    ∧ (dioGet (dig 0x20000000 {} { readback := true, clamp := true }) 0).readback ≠ false
    ∧ (PageReady (dig 0x30000000 {} {}) 48 ∧ dioMode (dig 0x30000000 {} {}) (0 : BitVec 24).toNat = 3) := by
  simp only [ready_iff]
  decide +kernel

theorem wit_DriverProtection :
    (let s := dig 0x20100000 {} { drive := true, retries := 1 };
      dioLive s 0 = true ∧ (dioGet s 0).drive = true ∧ (dioGet s 0).inrush = false
        ∧ decide (dioRetryN s 0 ≤ (dioGet s 0).retries) = true ∧ (dioGet s 0).overload = false)
    ∧ (let s := dig 0x20100000 {} { overload := true }
      (dioGet s 0).overload = true ∧ (dioGet s 0).latched = false)
    ∧ (((List.range 32).filter (fun k => k ≠ 0 && (dioGet (dig 0x30000000 {} { inrush := true }) k).inrush)).length ≤ 8
      ∧ (dioGet (dig 0x20000000 {} { drive := true }) 0).drive = true)
    ∧ ((dioGet (dig 0 {} {}) 0).therm = false ∧ (dioGet (dig 0 {} { therm := true }) 0).therm = true)
    ∧ (8000 < (8001 : Half).toNat ∧ up.dig.totalOver = false)
    ∧ (PageReady (dig 0x20000000 {} {}) 48 ∧ 2 ≤ dioMode (dig 0x20000000 {} {}) (0 : BitVec 24).toNat
      ∧ (dioGet (dig 0x20000000 {} {}) 0).latched = false ∧ (dioGet (dig 0 {} { latched := true }) 0).latched = true) := by
  simp only [ready_iff]
  decide +kernel

/-! Alarms and calls, commands. -/

/-- Point 5 in group 3 in the state given, the ALARM or CALL page running the command given. -/
def alarms (p : PState) (op : Byte) (arg : BitVec 24) : State :=
  { running [ent 5 5 (body [(4, 3)]), ent 6 3 (body []), ent 12 0 (body [(0, 1), (2, 255), (17, 4)])] with
    alarm.points := one 5 { state := p, sounding := true }
    hdrs := ⟨[(19, { busy := true, run := some ⟨.host, op, arg⟩ }), (20, { busy := true, run := some ⟨.host, op, arg⟩ })]⟩ }

theorem wit_AlarmAndCallCommands :
    PageReady up 19 ∧ PageReady up 20
    ∧ (let s := { alarms .normal 1 0 with red.own := 0 };
      (hdr s 19).run = some ⟨.host, 1, 0⟩ ∧ claimed s = false)
    ∧ (let s := alarms .activeUnack 1 5;
      (hdr s 19).run = some ⟨.host, 1, 5⟩ ∧ claimed s = true ∧ planned s 5 5 = true ∧ (pointGet s 5).state = .activeUnack)
    ∧ (pointGet (alarms .clearedUnack 1 5) 5).state = .clearedUnack
    ∧ (pointGet (alarms .activeAck 1 5) 5).state = .activeAck
    ∧ (let s := alarms .activeUnack 2 3;
      (hdr s 19).run = some ⟨.host, 2, 3⟩ ∧ planned s 6 3 = true ∧ members s 3 = [5] ∧ (pointGet s 5).state = .activeUnack)
    ∧ (let s := alarms .activeUnack 3 0;
      (hdr s 19).run = some ⟨.host, 3, 0⟩ ∧ plannedPoints s = [5] ∧ (pointGet s 5).state = .activeUnack)
    ∧ ((hdr (alarms .activeUnack 4 0) 19).run = some ⟨.host, 4, 0⟩ ∧ plannedPoints (alarms .activeUnack 4 0) = [5])
    ∧ (let s := alarms .normal 5 0x10005;
      (hdr s 19).run = some ⟨.host, 5, 0x10005⟩ ∧ argOutside 0x10005 0x107FF = false
        ∧ planned s 5 (fld (0x10005 : BitVec 24) 0 11) = true ∧ ptNoInhibit (ptBody s 5) = false)
    ∧ (let s := alarms .activeAck 6 3;
      (hdr s 19).run = some ⟨.host, 6, 3⟩ ∧ planned s 6 3 = true ∧ members s 3 = [5]
        ∧ (pointGet s 5).state ≠ .activeUnack)
    ∧ (let s := alarms .normal 1 1;
      (hdr s 20).run = some ⟨.host, 1, 1⟩ ∧ (roster s).isSome = true ∧ rosterDutyDi s = false ∧ xferBusy s = false
        ∧ cabin s 1 = 4)
    ∧ (let s := alarms .normal 2 1;
      (hdr s 20).run = some ⟨.host, 2, 1⟩ ∧ watchEn s = true ∧ enableDi s = 0xFF ∧ s.alarm.call.phase = .off)
    ∧ (hdr (alarms .normal 2 0) 20).run = some ⟨.host, 2, 0⟩
    ∧ (let s := { alarms .normal 3 0 with alarm.call.phase := .expired };
      (hdr s 20).run = some ⟨.host, 3, 0⟩ ∧ claimed s = true ∧ (roster s).isSome = true ∧ s.alarm.call.phase ≠ .off) := by
  simp only [ready_iff]
  decide +kernel

/-! Interrupts and event queues. -/

/-- Shared source 16 pending and enabled for target 0. -/
def icu (x : IcuSrc) (g : IcuTarget) : State :=
  { up with icu := { srcs := ⟨[(16, x), (17, { en := true, prio := 40, pending := true })]⟩, targets := one 0 g } }

theorem wit_InterruptSources :
    (domUp (icu {} {}) 2 = true ∧ icuOnWay { icu {} {} with hdrs := one 0 { edges := 1 } } (.shared 0) = true
      ∧ icuOnWay { icu {} {} with course.pulses := pulseAll {} } (.priv 4 8) = true
      ∧ icuOnWay { icu {} {} with square.pulses := pulseAll {} } (.priv 0 9) = true
      ∧ icuOnWay { icu {} {} with evq.queues := one 3 { pulses := 2 } } (.priv 3 12) = true
      ∧ icuOnWay (icu {} {}) (.shared 0) = false ∧ (∀ n : Fin 5, IcuId.shared 0 ≠ .priv n 11)
      ∧ (pageLevel (icu {} {}) 0 = false ∧ pageDom (icu {} {}) 0 = some 0 ∧ domUp (icu {} {}) 0 = true)
      ∧ bitAt (hdr { icu {} {} with hdrs := one 0 { irqen := 0x80000000 } } 0).irqen 31 = true
      ∧ (icuSrc (icu {} {}).icu (icuKey (.shared 0))).count.toNat ≤ (icuSrc (icu {} {}).icu (icuKey (.shared 0))).counted + 1)
    ∧ (let s := icu { count := 3, counted := 1 } {};
      (icuSrc s.icu (icuKey (.shared 0))).counted + 1 < (icuSrc s.icu (icuKey (.shared 0))).count.toNat)
    ∧ (let s := icu { counted := 1, timer := true } {};
      (icuSrc s.icu (icuKey (.shared 0))).counted ≠ 0 ∧ (icuSrc s.icu (icuKey (.shared 0))).timer = true)
    ∧ (icuSrc (icu {} {}).icu (icuKey (.shared 0))).counted = 0
    ∧ (icuGroup 16 = (0 : Fin 32).val ∧ icuGroup 24 ≠ (0 : Fin 32).val)
    ∧ (PageTakes up (9 + (4 : Fin 5).val) ∧ bitAt (0x80 : Word) 7 = true
      ∧ (icuSrc up.icu (1000 + 16 * 4 + 7)).count.toNat ≤ 1)
    ∧ PageTakes up 8 := by
  simp only [takes_iff]
  decide +kernel

theorem wit_ClaimReturnsSelected :
    ((∀ j ∈ (icu { en := true, prio := 200, pending := true } {}).icu.srcs.keys, 16 ≤ j)
      ∧ icuSelect (icu { en := true, prio := 200, pending := true } {}).icu 0 = some 16
      ∧ icuPresentable (icu { en := true, prio := 200, pending := true } {}).icu 0 17 = true)
    ∧ (let s := icu { en := true, prio := 200, pending := true } {};
      domUp s 2 = true ∧ (icuTgt s.icu 0).window = none ∧ icuPeek s.icu 0 = some 16)
    ∧ icuPeek (icu {} { faultPending := true }).icu 0 = some (1000 + 16 * 0 + 11)
    ∧ icuPeek up.icu 0 = none
    ∧ Requester.host ≠ icuOwner (0 : Fin 5).val := by decide +kernel

theorem wit_EoiPopsTop :
    (PageTakes up (9 + (0 : Fin 5).val) ∧ Requester.host ≠ icuOwner (0 : Fin 5).val)
    ∧ (Requester.a0 = icuOwner (0 : Fin 5).val ∧ fld (0xFFFF03FF : Word) 0 10 = 0x3FF)
    ∧ (fld (11 : Word) 0 10 = 11 ∧ (icuTop (icuTgt (icu {} { faultActive := true }).icu 0)).map Prod.fst = some 11)
    ∧ (fld (17 : Word) 0 10 = 17 ∧ (icuTop (icuTgt (icu {} { stack := [(17, 40)] }).icu 0)).map Prod.fst = some 17)
    ∧ ((icuTop (icuTgt (icu {} { stack := [(17, 40)] }).icu 0)).map Prod.fst ≠ some (fld (16 : Word) 0 10)
      ∧ domUp (icu {} {}) 1 = true) := by
  simp only [takes_iff]
  decide +kernel

theorem wit_TiersWriteNeedsEmptyStacks :
    (PageTakes up 8 ∧ ∀ n, n < 5 → (icuTgt up.icu n).stack = [] ∧ (icuTgt up.icu n).faultActive = false)
    ∧ (PageTakes (icu {} { stack := [(17, 40)] }) 8 ∧ (icuTgt (icu {} { stack := [(17, 40)] }).icu 0).stack ≠ []) := by
  refine ⟨⟨(takes_iff _ _).2 (by decide +kernel), fun n _ => ⟨rfl, rfl⟩⟩, (takes_iff _ _).2 (by decide +kernel), by decide⟩

def rec1 (cls : Byte) : EventRec := { code := 1, cls := cls, source := 5, data := 9, cn := 100 }

/-- One record on its way and a queue in the state given. -/
def queued (e : EventRec) (q : EvQueue) : State :=
  { up with course.cn := 5000, evq := { inflight := [e], queues := one 0 q } }

theorem wit_EventQueues :
    (domUp (queued (rec1 0) {}) 3 = true ∧ (queued (rec1 0) {}).evq.inflight[0]? = some (rec1 0)
      ∧ evqMayPass (queued (rec1 0) {}).evq.inflight 0 = true
      ∧ (evqGet (queued (rec1 0) {}) 0).latches.cells = [] ∧ (evqGet (queued (rec1 0) {}) 0).epoch = none
      ∧ (evqGet (queued (rec1 0) {}) 0).shed = 0 ∧ (evqGet (queued (rec1 0) {}) 0).en = false)
    ∧ (let q := evqGet (queued (rec1 0) { en := true, recs := List.replicate 767 (rec1 0) }) 0;
      q.en = true ∧ evqSelects q (rec1 0) = true ∧ q.recs.length < 768)
    ∧ (let q := evqGet (queued (rec1 0) { en := true, recs := List.replicate 768 (rec1 0) }) 0;
      768 ≤ q.recs.length ∧ q.recs.length < 1024 ∧ evqSelects q (rec1 1) = true ∧ (rec1 0).cls ≠ 1 ∧ (rec1 1).cls = 1)
    ∧ (let q := evqGet (queued (rec1 1) { en := true, recs := List.replicate 1024 (rec1 1) }) 0;
      1024 ≤ q.recs.length ∧ evqSelects q (rec1 1) = true)
    ∧ (PageTakes (queued (rec1 0) {}) 21 ∧ Requester.host ≠ evqOwner (0 : Fin 5).val)
    ∧ (let s := queued (rec1 0) { overload := true, lowSince := some 1000 };
      (evqGet s 0).lowSince = some 1000 ∧ 4000 ≤ since s 1000 ∧ (evqGet s 0).shed = 0) := by
  simp only [takes_iff]
  decide +kernel

/-! The redundant pair. -/

def pair (r : RedBlk) : State := { up with red := { r with role := .a }, course.cn := 5000 }
def beat (r : Role) : Heartbeat :=
  { role := r, serial := 7, cn := 5, ready := true, synced := 3 }

theorem wit_HeartbeatsAndStreets :
    (domUp (pair {}) 1 = true ∧ inPair (pair {}) = true ∧ (street (pair {}) true).waiting = false)
    ∧ (street (pair { streetA := { waiting := true } }) false).waiting = true
    ∧ ({ beat .b with crcOk := false } : Heartbeat).crcOk = false
    ∧ ((beat .b).crcOk = true ∧ (beat .b).role ≠ (pair {}).red.role ∧ (pair {}).red.peerSn = 0
      ∧ (beat .b).serial = (pair { peerSn := 7 }).red.peerSn)
    ∧ ((pair { peerSn := 8 }).red.peerSn ≠ 0 ∧ (beat .b).serial ≠ (pair { peerSn := 8 }).red.peerSn
      ∧ (pair { peerSn := 8 }).red.wrongSerial = false)
    ∧ (let s := pair { streetA := { present := true }, state := .standby };
      (street s false).present = true ∧ s.red.role ≠ .solo ∧ (street s true).present = false ∧ s.red.state = .standby
        ∧ redReady s = true ∧ mayClaim s = true)
    ∧ (let s := pair { streetA := { present := true }, streetB := { present := true }, state := .standby };
      (street s false).present = true ∧ (street s true).present = true)
    ∧ (let s := pair { streetA := { goodRun := 50 } };
      (street s false).present = false ∧ 50 ≤ (street s false).goodRun) := by decide +kernel

theorem wit_ClaimFramesDecide :
    (inPair (pair { own := 5 }) = true ∧ (pair { own := 5 }).red.own ≠ 0 ∧ (pair { own := 5 }).red.gates = false)
    ∧ ((pair {}).red.own = 0 ∧ (pair { own := 5, gates := true }).red.gates = true)
    ∧ (Role.b ≠ (pair { own := 5 }).red.role ∧ (pair { own := 5 }).red.own < (6 : Half))
    ∧ ((pair { own := 5 }).red.role = .a ∧ (pair { own := 5 }).red.own = (5 : Half))
    ∧ (let s := { pair { own := 5 } with red.role := .b };
      inPair s = true ∧ s.red.role = .b ∧ Role.a ≠ s.red.role ∧ s.red.own ≠ 0)
    ∧ ((4 : Half) < (pair { own := 5, state := .active }).red.own
      ∧ (pair { own := 5, state := .active }).red.state ≠ .electing)
    ∧ ((pair { election := true }).red.own = 0 ∧ (pair { election := true }).red.state = .electing
      ∧ (pair { election := true }).red.election = true ∧ (1 : Half) ≠ 0)
    ∧ (pair { claimLine := true }).red.claimLine = true
    ∧ (let s := pair { own := 5, slots := 4, peer := 4 };
      domUp s 6 = true ∧ s.red.own ≠ 0 ∧ s.red.gates = false ∧ 4 ≤ s.red.slots ∧ s.red.peer < s.red.own)
    ∧ ¬ 4 ≤ (pair { own := 5, slots := 3 }).red.slots
    ∧ (let s := pair {};
      (beat .a).crcOk = true ∧ (beat .a).role = s.red.role ∧ domUp s 1 = true ∧ s.red.peerSn = 0 ∧ inPair s = true
        ∧ s.red.roleConflict = false)
    ∧ ({ pair {} with red.role := .solo } : State).red.role = .solo := by decide +kernel

theorem wit_ElectionAndTakeover :
    (domUp up 6 = true ∧ claimed up = true ∧ isSolo up = false ∧ up.red.yieldNext = none)
    ∧ (let s := pair { own := 0xFF01, state := .active, quiet := 4000 };
      s.red.state = .active ∧ 0xFF00 < s.red.own.toNat ∧ s.red.peer = 0 ∧ 4000 ≤ s.red.quiet)
    ∧ ¬ 0xFF00 < (pair { own := 0xFF00, state := .active, quiet := 4000 }).red.own.toNat
    ∧ (let s := pair { state := .electing, election := true };
      s.red.state = .electing ∧ s.red.election = true ∧ redReady s = true ∧ mayClaim s = true ∧ s.red.peer = 0)
    ∧ (let s := pair { state := .standby };
      s.red.role ≠ .solo ∧ domUp s 1 = true ∧ s.red.state = .standby ∧ redReady s = true ∧ mayClaim s = true)
    ∧ mayClaim (pair { conflict := true }) = false := by decide +kernel

theorem wit_YieldAndSync :
    (let p : Street := { present := true };
      let r : RedBlk := { cfg := 1, state := .active, own := 5, peerReady := true, streetA := p, streetB := p };
      let s := { pair r with sync.ackRun := 4000 };
      PageReady s 0x48 ∧ bitAt s.red.cfg 0 = true ∧ s.red.state = .active ∧ s.red.peerReady = true
        ∧ s.red.peerFault = false ∧ s.red.streetA.present = true ∧ s.red.streetB.present = true ∧ 4000 ≤ s.sync.ackRun
        ∧ claimed s = true ∧ isSolo s = false ∧ s.red.yieldNext = none)
    ∧ (let s := { pair { yieldNext := some 3, own := 5 } with hdrs := one 0x48 { run := some ⟨.host, 1, 0⟩ } };
      s.red.yieldNext = some 3 ∧ claimed s = true ∧ (hdr s 0x48).run = some ⟨.host, 1, 0⟩)
    ∧ (let s := pair { state := .standby };
      domUp s 1 = true ∧ domUp s 3 = true ∧ s.red.state = .standby ∧ s.sync.newest = none ∧ s.red.own = 0
        ∧ s.loader.starting = none ∧ s.loader.stopping = none ∧ s.red.inStep = false ∧ 5000 < (5001 : Int).natAbs ∧ (-5000 : Int).natAbs ≤ 5000)
    ∧ (let s := { pair { state := .standby, inStep := true } with sync.newest := some {}, sync.last := 9 };
      s.red.state = .standby ∧ s.sync.newest ≠ none ∧ ((9 : Word) - s.sync.last).toInt ≤ 0 ∧ 0 < ((10 : Word) - s.sync.last).toInt
        ∧ s.red.inStep = true) := by
  simp only [ready_iff]
  decide +kernel

/-! The safety partition. -/

/-- Lane 9 (of LI4) latches; output 3 is a safety output. -/
def safety (b : SafeBlk) : State :=
  { running [ent 0x20 9 (body [(0, 1), (1, 36), (2, 4)]), ent 0x22 3 (body [])] with safe := b, course.cn := 200000 }

theorem wit_SafetyCommands :
    (PageReady (safety {}) 0x18 ∧ (9 : BitVec 24).toNat < 64 ∧ (safety {}).safe.forced = false
      ∧ (safety {}).safe.relPend = none)
    ∧ (relKnown (safety {}) false 9 = true ∧ relReleased (safety {}) false 9 = false
      ∧ relAsked (safety {}) false 9 = false ∧ relTripped (safety {}) false 9 = false)
    ∧ (relKnown (safety {}) true 3 = true ∧ relReleased (safety {}) true 3 = false
      ∧ relAsked (safety {}) true 3 = false ∧ relTripped (safety {}) true 3 = false)
    ∧ (let p : RelPend := { req := .a0, output := true, target := 3, age := 120001 };
      (safety { relPend := some p }).safe.relPend = some p ∧ 120000 < p.age)
    ∧ (let p : RelPend := { req := .a0, output := true, target := 3, age := 120000 };
      (safety { relPend := some p }).safe.relPend = some p ∧ p.age ≤ 120000 ∧ 120000 ≤ p.age ∧ domUp (safety {}) 1 = true ∧ p.req ≠ .host)
    ∧ (relReleased (safety { relTl := 512 }) false 9 = true ∧ restoreBarred (safety { relTl := 512 }) false 9 = false)
    ∧ (relReleased (safety { relOut := 8 }) true 3 = true ∧ restoreBarred (safety { relOut := 8 }) true 3 = false)
    ∧ (127 : BitVec 24).toNat < 128
    ∧ (let s := safety { lanes := one 9 { tripped := true, lastInside := true } };
      planEntry s 0x20 9 = some (ent 0x20 9 (body [(0, 1), (1, 36), (2, 4)])) ∧ (laneGet s 9).tripped = true
        ∧ laneLatch (body [(0, 1), (1, 36), (2, 4)]) = true ∧ (laneGet s 9).lastInside = true
        ∧ (laneGet s 9).stale = false)
    ∧ ((safety {}).course.faultSeen = false ∧ 4000 ≤ since (safety {}) 196000)
    ∧ (safety { forceReset := some .host }).safe.forceReset.isSome = true
    ∧ (argOutside 0x3003FF 0xF003FF = false ∧ fld (0x3003FF : BitVec 24) 20 4 < 4
      ∧ (district (safety {}) 3).state ≠ .updating) := by
  simp only [ready_iff]
  decide +kernel

theorem wit_PartitionGuards :
    (domUp (safety { unserved := 4 }) 1 = true ∧ 4 ≤ (safety { unserved := 4 }).safe.unserved)
    ∧ (safety { unserved := 3 }).safe.unserved < 4
    ∧ (safety { pd1Reset := true }).safe.pd1Reset = true
    ∧ (Requester.a0 ≠ .safe ∧ PageTakes up 0x18) := by
  simp only [takes_iff]
  decide +kernel

/-! The network. -/

/-- Port 0 with the configuration and MAC 01, ring `q` of 16 descriptors at 0x20000000 with one descriptor handed over:
buffer 0x20001000 of 1,536 bytes. -/
def net (cfg : Word) (q : Nat) (t : List (BitVec 48 × Half)) : State :=
  { up with
    eths := ⟨[(0, { cfg := cfg, mac := 1, rings := one q { base := 0x20000000, ctl := 0x80000010, tail := 1 } }),
      (1, { cfg := cfg })]⟩
    prp.table := t
    mem.main := ⟨[(0x20000001, 0x10), (0x20000003, 0x20), (0x20000005, 6), (0x20000007, 0x80)]⟩ }

/-- A frame of `n` bytes to `dst` from MAC 2, with the Ethertype and the trailer given. -/
def frame (dst : Byte) (n : Nat) (ty tr : List Byte) : EthFrame :=
  { bytes := [0, 0, 0, 0, 0, dst, 0, 0, 0, 0, 0, 2] ++ ty ++ List.replicate (n - 14 - tr.length) 0 ++ tr }

theorem wit_EthernetPorts :
    (let s := net 0x8000FA50 0 [];
      let b := (frame 1 60 [8, 6] []).bytes;
      domUp s 7 = true ∧ bitAt (ethGet s 0).cfg 31 = true ∧ prpOn s = false ∧ b.length = 60 ∧ frType b ≠ 0x8808
        ∧ frForUs (ethGet s 0) b = true ∧ frTagged b = false ∧ frPtpEvent b = false ∧ s.mem.main.wf 0 = true
        ∧ frQueue (ethGet s 0) b = 0 ∧ descReady s (ringGet s 0 0) = true ∧ descAt (ringGet s 0 0) 0 = 0x20000000
        ∧ leNat (ramRead s 0x20000000 4) = 0x20001000 ∧ leNat (ramRead s 0x20000004 2) = 1536
        ∧ inRam 0x20001000 b.length = true ∧ 0x20000000 + 16 ≤ 0x20001000)
    ∧ ((frame 1 59 [8, 6] []).bytes.length < 60 ∧ 1518 < (frame 1 1519 [8, 6] []).bytes.length)
    ∧ frForUs (ethGet (net 0x8000FA50 0 []) 0) (frame 3 60 [8, 6] []).bytes = false
    ∧ (let s := net 0xC000FA50 0 [(2, 9)];
      let b := (frame 1 66 [8, 6] [0, 9, 0xA0, 52, 0x88, 0xFB]).bytes;
      prpOn s = true ∧ bitAt (ethGet s 1).cfg 31 = true ∧ b.length = 66 ∧ frType b ≠ 0x8808
        ∧ frForUs (ethGet s 0) b = true ∧ frTagged b = false ∧ frTrailer b = some (9, 10) ∧ portLan 0 = 10
        ∧ s.prp.table.contains (frSrc b, 9) = true)
    ∧ (let s := net 0x8000FA50 7 [];
      [8, 7, 6, 5].find? (fun q => descReady s (ringGet s 0 q)) = some 7)
    ∧ (PageTakes (net 0x8000FA50 0 []) 60 ∧ bitAt (0xC000FA50 : Word) 30 ≠ bitAt (ethGet (net 0x8000FA50 0 []) 0).cfg 30
      ∧ fld (0x9000FA50 : Word) 28 2 ≠ fld (ethGet (net 0x8000FA50 0 []) 0).cfg 28 2)
    ∧ (PageTakes up 60 ∧ ¬ bitAt (ethGet up 0).cfg 31 = true)
    ∧ (bitAt (0x80000010 : Word) 31 = true ∧ bitAt (0x10 : Word) 31 = false)
    ∧ (ethGet up 0).link ≠ true := by
  simp only [takes_iff]
  decide +kernel

theorem wit_TimeAndHostPort :
    PageReady up 62 ∧ up.ptp.asked = []
    ∧ (({ up with ptp.asked := [(1, 7)] } : State).ptp.asked = [(1, 7)]
      ∧ ({ up with ptp.asked := [(2, 7)] } : State).ptp.asked = [(2, 7)])
    ∧ (domUp up 7 = true ∧ netUp up = true)
    ∧ (let s := { up with ptp.synced := true, ptp.valid := true };
      s.ptp.synced = true ∧ s.ptp.valid = true)
    ∧ ¬ crc8 (0x10 :: hostBytes 0x20000000) = 0
    ∧ (crc8 (0x30 :: hostBytes 0x20000000) = 0x98 ∧ fld (0x30 : Byte) 4 4 ≠ 1)
    ∧ (crc8 (0x10 :: hostBytes 0x20000000) = 0xFC ∧ fld (0x10 : Byte) 4 4 = 1 ∧ fld (0x10 : Byte) 0 4 = 0
      ∧ (0x20000000 : Word).toNat % 4 = 0 ∧ inRam (0x20000000 : Word).toNat 4 = true ∧ up.host.cs = false)
    ∧ (crc8 (0x10 :: hostBytes 0x51000000) = 0xD8 ∧ (0x51000000 : Word).toNat % 4 = 0
      ∧ readWaits 0x10 0x51000000 { up with loader.norOp := some {} } = true)
    ∧ (crc8 (0x20 :: (hostBytes 0x20000000 ++ hostBytes 1)) = 0x64 ∧ fld (0x20 : Byte) 4 4 = 2 ∧ fld (0x20 : Byte) 0 4 = 0 ∧ domUp up 2 = true
      ∧ up.mem.main.wf 0 = true)
    ∧ up.host.rstEn = true
    ∧ (let s := { up with host.usb := true };
      netUp s = true ∧ s.host.usb = true ∧ (List.replicate 32 (5 : Byte)).length = 32 ∧ s.plan.key = none ∧ s.safe.key = none)
    ∧ (let s := { up with host.usb := true, red.own := 0 };
      claimed s = false ∧ domUp s 1 = true)
    ∧ List.replicate 32 (1 : Byte) ≠ List.replicate 32 0 := by
  simp only [ready_iff]
  decide +kernel

/-- CAN 2 in service in the state given. -/
def bus (c : CanBlk) : State := { up with cans := one 2 { c with state := 1 } }
def canFrame : CanFrame := {}

theorem wit_CanControllers :
    (let s := bus { cfg := 0x80000000, rxen := 1 };
      domUp s 7 = true ∧ canOn (canGet s 2) = true ∧ (canGet s 2).gate = false
        ∧ canBox (canGet s 2) canFrame = some 0)
    ∧ (let s := bus { cfg := 0x80000000 };
      canBox (canGet s 2) canFrame = none ∧ queueTakes (canGet s 2).q0 canFrame = true
        ∧ (canGet s 2).q0.count < qLen (canGet s 2).layout 0 ∧ bitAt (canGet s 2).cfg 26 = false)
    ∧ (let s := bus { cfg := 0x80000000, q0 := { accept := 0x80000000 }, q1 := { count := 5 } };
      queueTakes (canGet s 2).q0 canFrame = false ∧ queueTakes (canGet s 2).q1 canFrame = true
        ∧ qLen (canGet s 2).layout 1 ≤ (canGet s 2).q1.count)
    ∧ queueTakes (canGet (bus { q1 := { accept := 0x80000000 } }) 2).q1 canFrame = false
    ∧ (PageTakes (bus {}) (56 + (2 : Fin 4).val) ∧ bitAt (0 : Word) 3 = false
      ∧ bitAt (canGet (bus { pend := 8 }) 2).pend 3 = true ∧ bitAt (8 : Word) 3 = true)
    ∧ (let s := bus { cfg := 0x80000000, gate := true, pend := 8 };
      canMaySend (canGet s 2) = true ∧ canNext (canGet s 2) = some 3 ∧ (canGet s 2).late = none
        ∧ bitAt (canGet s 2).cfg 28 = false ∧ (canGet s 2).gate = true)
    ∧ (let s := bus { cfg := 0x90000000, gate := true, pend := 8, tec := 248 };
      247 < (canGet s 2).tec.toNat ∧ canMaySend (canGet s 2) = true ∧ bitAt (canGet s 2).cfg 28 = true)
    ∧ (canGet { up with cans := one 2 { state := 2 } } 2).state = 2
    ∧ (let s := bus { q0 := { count := 1 } };
      (canQueue (canGet s 2) 0).count ≠ 0
        ∧ fld (canRam32 (canGet s 2) (qAddr (canGet s 2).layout 0 (canQueue (canGet s 2) 0).next + 4)) 8 8
          = fld (0 : Word) 0 8)
    ∧ ¬ (canQueue (canGet (bus {}) 2) 0).count ≠ 0
    ∧ (bitAt (canGet (bus {}) 2).cfg 31 = false ∧ timingOk (fld (0x014F3F0F : Word) 16 8) (fld (0x014F3F0F : Word) 8 8) = true
      ∧ timingOk (fld (0xA0014CF3 : Word) 10 6) (fld (0xA0014CF3 : Word) 4 6) = true ∧ canUse 0xFC000505 ≤ 8192)
    ∧ ¬ bitAt (canGet (bus { cfg := 0x80000000 }) 2).cfg 31 = false
    ∧ (domTakes (bus { pend := 1 }) 7 = true ∧ pendingAt (canGet (bus { pend := 1 }) 2) (4 * 0) = true)
    ∧ (pendingAt (canGet (bus {}) 2) (4 * 2047) = false ∧ Mem.wf 0 (canGet (bus {}) 2).ram = true) := by
  simp only [takes_iff]
  decide +kernel

/-! The log store. -/

def store (l : LogBlk) : State := { up with log := { l with ready := true, addr := 0x20000000, len := 32 } }

theorem wit_LogStore :
    (let s := store {};
      PageReady s 64 ∧ s.log.ready = true ∧ s.sup.supplyLoss = false ∧ fld s.log.len 0 17 = 32
        ∧ s.log.addr.toNat % 4 = 0 ∧ inRam s.log.addr.toNat 32 = true ∧ bufUsed s 1 + 32 ≤ bufShare 1
        ∧ (logPart s 1).size + 32 ≤ partRoom s 1 ∧ s.mem.main.wf 0 = true ∧ logTakes s = true)
    ∧ (let s := { store { caps := one 7 { cfgF := 0x80000000 } } with ucs := one 7 { inForce := { cfg := 0x50000000 } } };
      capOn s 7 = true ∧ bitAt (0x80 : BitVec 24) 7 = true)
    ∧ (let s := store { caps := one 7 { trig := some (⟨40, 0⟩, 0) } };
      (capGet s 7).trig = some (⟨40, 0⟩, 0) ∧ capOn s 7 = false ∧ logTakes up = false)
    ∧ (let s := store { trend := { second := some 5, squares := 1 } };
      s.log.trend.second = some 5 ∧ s.log.trend.spoiled = false ∧ s.log.trend.squares ≠ 0)
    ∧ (let s := store { parts := one 0 { items := [(1, List.replicate 32 0)] } };
      domUp s 7 = true ∧ s.log.latches.cells = [] ∧ ((uncommitted s 0).take 1).getLast? = some (1, List.replicate 32 0))
    ∧ (uncommitted (store {}) 0).take 1 = []
    ∧ (0 < (store {}).log.reserve ∧ (store { reserve := 0 }).log.reserve = 0)
    ∧ (up.log.ready = false ∧ up.log.latches.cells = []) := by
  simp only [ready_iff]
  decide +kernel

/-- The accepted image waits to be archived; the archive holds what is given. -/
def archives (l : List (Word × List Byte)) : State :=
  { loader none with log.ready := true, log.parts := one 4 { items := l }, loader.archive := [(false, 0)] }

theorem wit_LogStore_archive :
    (let s := archives [];
      s.loader.archive = [(false, 0)] ∧ logTakes s = true
        ∧ (logPart s 4).items.any (fun i => imgTag i.2 = imgTag (Machine.imageBytes s (false, 0))) = false
        ∧ archiveFit (archiveKept s) (partRoom s 4) (Machine.imageBytes s (false, 0)).length 0 [] = some [])
    ∧ (let s := archives [(1, ((List.range 448).map (fun i => ((imageBytes.find? (fun x => x.1 = i)).map Prod.snd).getD 0)))];
      (logPart s 4).items.any (fun i => imgTag i.2 = imgTag (Machine.imageBytes s (false, 0))) = true) := by decide +kernel

/-! The panel. -/

/-- Areas 3 and 4 of 8 by 8 pixels, A0 may update them; the panel ready with energy. -/
def panel (p : PanelBlk) (a : PanelArea) : State :=
  { running [ent 11 3 (body [(4, 8), (6, 8), (8, 1)]), ent 11 4 (body [(0, 64), (4, 8), (6, 8), (8, 1)])] with
    sup.avail := 9000, panel := { p with ready := true, areas := one 3 a } }

theorem wit_PanelUpdates :
    (let s := panel {} {};
      PageReady s 65 ∧ argOutside 0x103 0x11F = false ∧ planned s 11 (fld (0x103 : BitVec 24) 0 5) = true
        ∧ mayUpdate s 3 .host = false ∧ mayUpdate s 3 .a0 = true ∧ panelBarred s = false ∧ (area s 3).pend = none)
    ∧ (area (panel {} { pend := some true }) 3).pend.isSome = true
    ∧ (let s := panel {} { pend := some true };
      panelUp s = true ∧ canStart s 3 = true ∧ firstToStart s 3 = true)
    ∧ (let r : PanelRun := { x := 0, y := 0, w := 8, h := 8, pix := List.replicate 32 0xFF };
      (area (panel {} { run := some r }) 3).run = some r ∧ (3 : Fin 34).val < 33 ∧ r.start = none)
    ∧ (let r : PanelRun := { w := 8, h := 8, start := some 0 };
      (area (panel {} { run := some r }) 3).run = some r ∧ r.start ≠ none)
    ∧ (let r : PanelRun := { w := 8, h := 8, start := some 0 };
      (area { panel {} {} with panel.areas := one 32 { run := some r } } 32).run = some r)
    ∧ (let s := panel { bannerOwed := true } {};
      s.panel.bannerOwed = true ∧ panelRuns s = [] ∧ s.panel.crack = false ∧ s.panel.cold = false
        ∧ 450 ≤ s.sup.avail.toNat)
    ∧ (panel { bannerOwed := true, crack := true } {}).panel.crack = true
    ∧ (let s := panel { redraws := 1 } {};
      s.panel.redraws ≠ 0 ∧ driveGate s (panelEnergy (waveMs s.panel.band false) 786432) = true)
    ∧ (loopBad (panel {} {}) 2201 = true ∧ loopBad (panel {} {}) 2200 = false ∧ loopBad (panel {} {}) 0xFFFF = true)
    ∧ ((panel {} {}).panel.firstLoop = true ∧ (panel { firstLoop := false } {}).panel.firstLoop = false) := by
  simp only [ready_iff]
  decide +kernel

/-! Power and memory. -/

theorem wit_PowerUpAndClock :
    (State.reset.sys.step = 0 ∧ State.reset.sys.halt = 0)
    ∧ ({ State.reset with sys.halt := 1 } : State).sys.halt = 1
    ∧ ({ State.reset with sys.halt := 3 } : State).sys.halt = 3
    ∧ (State.reset.clk.tcxoOk = false ∧ up.clk.tcxoOk = true)
    ∧ (domUp State.reset 2 = false ∧ domUp up 2 = true) := by decide +kernel

theorem wit_SupplyAndDomains :
    (State.reset.sup.vsUv = false ∧ State.reset.sup.supplyLoss = false ∧ State.reset.sup.vfNone = false
      ∧ State.reset.sup.vf1Fault = false)
    ∧ (let s := { up with sup.vsUv := true, sup.vfNone := true, sup.vf1Fault := true };
      s.sup.vsUv = true ∧ s.sup.supplyLoss = false)
    ∧ (up.clk.tcxoOk = true ∧ ({ up with sup.returned := true, clk.tcxoOk := false } : State).clk.tcxoOk = false)
    ∧ (let s := { up with sup.supplyLoss := true, sup.vsUv := true, sys.shedding := true, sup.returned := true };
      (s.sys.shedding && domUp s 7 && panelQuiet s && !s.panel.bannerOwed) = true
        ∧ (s.sup.returned && panelQuiet s && !s.panel.bannerOwed) = true)
    ∧ (let s := { up with sup.supplyLoss := true, sup.vsUv := true, sys.domOn := 1 };
      (s.sup.vsUv && s.sup.supplyLoss && !domUp s 7) = true)
    ∧ (decide (holdupEnergy 24000 1000 < 2000) ≠ true ∧ decide (holdupEnergy 0 0 < 2000) = State.reset.sup.holdupLow)
    ∧ (PageReady up 0 ∧ argOutside 8 7 = true ∧ fld (2 : BitVec 24) 0 3 = 2)
    ∧ (domUp up 4 = true ∧ notInService up = false
      ∧ domainGuarded { up with red.own := 0, red.gates := false } 4 = false
      ∧ domainGuarded { up with red.own := 0, red.gates := false } 5 = false)
    ∧ (let s := { up with red.own := 0, red.gates := false, red.state := .standby };
      s.red.own = 0 ∧ s.red.state = .standby ∧ offList s 3 = [6, 5, 4, 3]
        ∧ ∀ k ∈ offList s 3, domainGuarded s k = false)
    ∧ notInService { up with sup.supplyLoss := true } = true
    ∧ (domUp { up with sys.domOn := 0x8F } 4 = false ∧ domUp { up with sys.domOn := 0x8F } 1 = true
      ∧ domUp { up with sys.domOn := 0x8F } 3 = true ∧ notInService { up with sys.domOn := 0x8F } = false)
    ∧ (let s := { up with sys.switching := some (0x80, false), hdrs := one 0 { run := some ⟨.host, 1, 7⟩ } };
      s.sys.switching = some (BitVec.ofNat 8 (2 ^ 7), false) ∧ panelQuiet s = true ∧ anyClamp up = false
        ∧ (hdr s 0).run = some ⟨.host, 1, 7⟩)
    ∧ (argOutside 1 1 = false ∧ bitAt (1 : BitVec 24) 0 = true ∧ inService State.reset = false)
    ∧ ({ up with sys.resetAsked := some 3 } : State).sys.resetAsked = some 3
    ∧ (argOutside 9 15 = false ∧ (9 : BitVec 24) ≠ 0 ∧ bitAt (9 : BitVec 24) 3 = true ∧ bitAt (9 : BitVec 24) 1 = false) := by
  simp only [ready_iff]
  decide +kernel

theorem wit_RegistersAndMemory :
    (domUp up 2 = true ∧ inRam (0x20000000 : Word).toNat 4 = true ∧ up.mem.main.wf 0 = true)
    ∧ (coreOf .a3 = some 3 ∧ 0x10000000 ≤ (0x1000FFFC : Word).toNat ∧ (0x1000FFFC : Word).toNat + 4 ≤ 0x10010000
      ∧ (up.mem.tcm.get {} 3).wf 0 = true)
    ∧ coreOf .host = none
    ∧ (0x40000000 ≤ (0x53FFFFFF : Word).toNat ∧ (0x53FFFFFF : Word).toNat < 0x54000000
      ∧ (0x53FFFFFF : Word).toNat % 4 ≠ 0 ∧ windowDom up 0x53FFFFFF = some 7 ∧ domTakes up 7 = true
      ∧ windowDom { up with sys.variant := .b } 0x53FFFFFF = none)
    ∧ (windowDom up 0x50FFFFFF = some 3 ∧ domTakes up 3 = true ∧ pageDom up 0x10 = some 3
      ∧ domTakes { up with sys.domOn := 0xF7 } 3 = false)
    ∧ pageDom up 0x7FFF = none
    ∧ (pageDom { up with sys.domOn := 0x7F } 60 = some 7 ∧ domTakes { up with sys.domOn := 0x7F } 7 = false)
    ∧ (PageTakes up 60 ∧ PageTakes up 16 ∧ PageTakes up 19 ∧ PageTakes up 17) := by
  simp only [takes_iff]
  decide +kernel

/-! Single steps.  Expected values are the manual's worked examples and tables. -/

/-- R32, chapter 02's example: course 0xFFFF_FFFF runs at WI 3295, course 0 at WI 3296. -/
theorem test_course_number_wraps_and_wall_index_goes_on :
    after (exec (.courseBoundary true true)
      { up with course.cn := 0xFFFFFFFF, course.wi := 3295, course.e0.ended := true, course.e1.ended := true, plan.wall := 4000 })
      (fun t => decide (t.course.cn = 0 ∧ t.course.wi = 3296)) = true := by decide +kernel

/-- The last wall index is followed by 0 (R31). -/
theorem test_wall_index_wraps :
    after (exec (.courseBoundary true true)
      { up with course.cn := 7999, course.wi := 3999, course.e0.ended := true, course.e1.ended := true, plan.wall := 4000 })
      (fun t => decide (t.course.cn = 8000 ∧ t.course.wi = 0)) = true := by decide +kernel

/-- R70, chapter 03's example: the words of UC10 take 133 cycles. -/
theorem test_thermocouple_takes_133_cycles :
    ([Instr.fetch 10 {}, .filter 10 {}, .lin 10 (w0 7), .lin 10 (w0 7), .linsum 10 (w0 1), .cvt 10 {}, .recWrite 0 10 {}].map
      (fun i => ((slotCost i).map Prod.snd).getD 0)).sum = 133 := by decide +kernel

/-- R442 and the examples of chapter 18: PG_ID of UT2, ICU target H and CAN1. -/
theorem test_page_ids :
    regWord .host up 0x22 0 = 0x20020100 ∧ regWord .host up 0x0D 0 = 0x09040100
    ∧ regWord .host up 0x39 0 = 0x38010100 := by decide +kernel

/-- R445, chapter 18's example: CAN1 knows no command, so a written opcode 1 is BAD_OPCODE and PG_SEQ goes to 0x42. -/
theorem test_bad_opcode :
    after (exec (.registerWrite .a0 0x40039018 2 0x01000000) { up with hdrs := one 0x39 { seq := 0x41 } })
      (fun t => decide ((hdr t 0x39).status = 1 ∧ (hdr t 0x39).result = 0 ∧ (hdr t 0x39).busy = false
        ∧ (hdr t 0x39).seq = 0x42)) = true := by decide +kernel

/-- Chapter 02's example: PG_CMD 0x0360_0220 updates DS6 from bank 1, block 32. -/
theorem test_update_district_argument :
    after (exec (.registerWrite .host 0x40011018 2 0x03600220) (running []))
      (fun t => decide ((hdr t 0x11).busy = true ∧ (district t 6).state = .verifying
        ∧ t.loader.verifying = some { op := 3, bank := true, block := 32, district := 6, prev := .absent })) = true := by
  decide +kernel

/-- R100, R101, the rows of chapter 04's example: 94 % is reported high and moves UC3 to the low path. -/
theorem test_range_goes_low :
    after (exec (.sampleReady 3 { high := 0x7851EB85 }) { up with tiles := {}, ucs := one 3 { inForce := { cfg := 0x10000000 } } })
      (fun t => decide (fld (t.course.latch.get {} 3).tag 0 2 = 0 ∧ (ucGet t 3).inp.low = true)) = true := by decide +kernel

/-- An overload of the high path forces the low path for its sample: tag 2. -/
theorem test_range_forced_low :
    after (exec (.sampleReady 3 { high := 0x7D70A3D7, low := 7, ovlHigh := true })
        { up with ucs := one 3 { inForce := { cfg := 0x10000000 }, inp := { low := true } } })
      (fun t => decide (fld (t.course.latch.get {} 3).tag 0 2 = 2 ∧ (ucGet t 3).inp.ret = 0)) = true := by decide +kernel

/-- R80, chapter 03's example: the second sample beyond LOWER_H trips a lane with CONFIRM = 2. -/
theorem test_lane_trips_on_second_sample :
    (laneSample (body [(2, 2), (3, 2), (8, 100)]) true 100 0 false {}).tripped = false
    ∧ (laneSample (body [(2, 2), (3, 2), (8, 100)]) true 100 0 false {}).count = 1
    ∧ (laneSample (body [(2, 2), (3, 2), (8, 100)]) true 100 0 false { count := 1 }).tripped = true := by decide +kernel

/-- R267, R268, chapter 10's example: the 3,000th sample in course 20,017 gives stamp 0x4E25_3333 and CHANGES 1. -/
theorem test_debounce_stamp :
    after (exec (.debounceComplete 35 12000 400 50) { up with dig.chans := one 35 { cfgF := 0x10000000, debF := 3000 }, course.cn := 20017 })
      (fun t => decide ((digGet t 35).inp = true ∧ (digGet t 35).stamp.word = 0x4E253333 ∧ (digGet t 35).changes = 1)) = true := by
  decide +kernel

/-- R269, chapter 12's example: 0.687 mA sets no break. -/
theorem test_no_break_at_0_687_mA :
    after (exec (.wireBreakWindow 0 687) (dig 0x18000000 { debF := 100 } {}))
      (fun t => decide ((digGet t 0).brk = false ∧ (digGet t 0).current = 687)) = true := by decide +kernel

/-- ID 50 at PRIO 0x40 and ID 36 at PRIO 0xC0 pending on A1, whose stack is as given. -/
def twoSources (l : List (Nat × Byte)) : State :=
  { up with icu := {
      srcs := ⟨[(36, { en := true, target := 1, prio := 0xC0, pending := true }),
        (50, { en := true, target := 1, prio := 0x40, pending := true })]⟩
      targets := one 1 { stack := l } } }

/-- R294, chapter 11's example: CLAIM returns 36 and stacks it; the line deasserts. -/
theorem test_claim_returns_36 :
    after (exec (.icuClaim .a1 1) (twoSources []))
      (fun t => decide (t.resp.words = [36] ∧ (icuTgt t.icu 1).stack = [(36, 0xC0)] ∧ icuReq t.icu 1 = false)) = true := by
  decide +kernel

/-- R297: EOI 36 empties the stack, EOI 50 is rejected with 36 on top. -/
theorem test_eoi :
    after (exec (.icuEoi .a1 1 36) (twoSources [(36, 0xC0)])) (fun t => decide ((icuTgt t.icu 1).stack = [])) = true
    ∧ after (exec (.icuEoi .a1 1 50) (twoSources [(36, 0xC0)]))
      (fun t => decide ((icuTgt t.icu 1).stack = [(36, 0xC0)] ∧ (icuTgt t.icu 1).faultPending = true
        ∧ (icuTgt t.icu 1).rej = 50 ∧ (icuTgt t.icu 1).top = 36)) = true := by decide +kernel

/-- R312, chapter 11's example: the 768th record sets OVERLOAD, the next event that is no alarm is shed. -/
theorem test_overload_at_768 :
    after (exec (.eventRecordArrival 0) (queued (rec1 0) { en := true, recs := List.replicate 767 (rec1 0) }))
      (fun t => decide ((evqGet t 0).overload = true ∧ (evqGet t 0).recs.length = 768)) = true
    ∧ after (exec (.eventRecordArrival 0) (queued (rec1 0) { en := true, recs := List.replicate 768 (rec1 0) }))
      (fun t => decide ((evqGet t 0).shed = 1 ∧ (evqGet t 0).recs.length = 768)) = true := by decide +kernel

/-- R355, chapter 13's example: HOST asks, A1 completes within 30 s. -/
theorem test_release_needs_two :
    after (exec (.releaseLane .host 9) (safety {}))
      (fun t => decide ((hdr t 0x18).result = 1 ∧ (t.safe.relPend.map (·.target)) = some 9)) = true
    ∧ after (exec (.releaseLane .a1 9) (safety { relPend := some { req := .host, target := 9, age := 40000 } }))
      (fun t => decide ((hdr t 0x18).result = 2 ∧ t.safe.relPend = none ∧ t.safe.asks.length = 1)) = true := by decide +kernel

/-- Chapter 13's example: RESTORE_LANE of a tripped lane is refused with STATE. -/
theorem test_restore_of_tripped_lane :
    after (exec (.restoreLane .a1 9) (safety { relTl := 512, lanes := one 9 { tripped := true } }))
      (fun t => decide ((hdr t 0x18).status = 3 ∧ t.safe.asks = [])) = true := by decide +kernel

/-- R325: of two equal claims unit A's stands, unit B's is given up. -/
theorem test_equal_claims :
    after (exec (.claimFrameReceive 5 .b true) (pair { own := 5, state := .active })) (fun t => decide (t.red.own = 5)) = true
    ∧ after (exec (.claimFrameReceive 5 .a true) { pair { own := 5, state := .active } with red.role := .b })
      (fun t => decide (t.red.own = 0 ∧ t.red.gates = false)) = true := by decide +kernel

/-- R374, R375, chapter 14's example: 80 quanta sampled at 64, 10 at 8. -/
theorem test_can_timing :
    after (exec (.canCfgWrite 0 0 0x02504010) up) (fun t => decide (fld (canGet t 0).nbit 16 8 = 80)) = true
    ∧ after (exec (.canCfgWrite 0 0 0x02404010) up) (fun t => decide ((canGet t 0).nbit = 0x014F3F0F)) = true := by
  decide +kernel

/-- R408, R420, chapters 16 and 17: drive times and energies. -/
theorem test_panel_energy :
    bandOf 400 = 3 ∧ waveMs 3 false = 975 ∧ panelEnergy 975 196608 = 93 ∧ waveMs 3 true = 390
    ∧ panelEnergy 390 (1024 * 96) = 29 ∧ bandOf 2100 = 5 ∧ waveMs 5 false = 650 ∧ waveMs 5 true = 260 := by decide +kernel

/-- Chapter 16's example: an update over a pending one gives result 2 and LOST 1. -/
theorem test_update_replaces_pending :
    after (exec (.panelUpdate .a0 3) (panel {} { pend := some true, run := some {} }))
      (fun t => decide ((hdr t 0x41).result = 2 ∧ (area t 3).lost = 1 ∧ (area t 3).pend = some false)) = true := by
  decide +kernel

/-- R424, chapter 17's example: 36.0 V and 3,480 µF read 2,044 mJ. -/
theorem test_holdup_reads_2044 :
    after (exec (.holdupMeasure 3600 true (some 3480)) up) (fun t => decide (t.sup.avail = 2044 ∧ t.sup.holdupLow = false))
      = true := by decide +kernel

/-- A step takes the command at the front of the queue and runs it with the rest. -/
theorem test_step_takes_front :
    after (step { up with pending := [.hostCsAbort, .clockFault], host.cs := true })
      (fun t => decide (t.pending = [.clockFault] ∧ t.host.cs = false)) = true := by decide +kernel

/-- An empty queue idles. -/
theorem test_step_idles : step up = .next up := rfl

end Sys2Proof.Tests
end

section
/-! A command written to a page whose BUSY is 1 (R23). -/

namespace Sys2Proof.Machine

/-- `t` is what page `p`'s command machinery makes of state `s`, for some opcode, argument and work. -/
def Issued (p : Nat) (req : Requester) (s t : State) : Prop :=
  ∃ (op : Nat) (arg : BitVec 24) (body : State → CmdEnd), t = issueCmd p req op arg body s

theorem Issued.intro (p : Nat) (req : Requester) (op : Nat) (arg : BitVec 24) (body : State → CmdEnd) (s : State) :
    Issued p req s (issueCmd p req op arg body s) := ⟨op, arg, body, rfl⟩

theorem Issued.of_eq {p q : Nat} {req : Requester} {s t : State} (h : q = p) (hi : Issued q req s t) : Issued p req s t :=
  h ▸ hi

theorem Issued.ite {c : Prop} [Decidable c] {p : Nat} {req : Requester} {s t u : State} (ht : c → Issued p req s t)
    (hu : ¬ c → Issued p req s u) : Issued p req s (if c then t else u) := by
  split
  · exact ht ‹c›
  · exact hu ‹¬ c›

/-- A busy page makes of it a lost command alone. -/
theorem Issued.busy {p : Nat} {req : Requester} {s t : State} (h : Issued p req s t) (ht : PageTakes s p)
    (hb : (hdr s p).busy = true) : t = setSticky p 2 s := by
  obtain ⟨op, arg, body, rfl⟩ := h
  exact issueCmd_busy ht hb req op arg body

/-- Every command of a page goes through that page's command machinery (R444). -/
theorem exec_issued {c : Instr} {p : Nat} (h : commandPage c = some p) (s : State) :
    ∃ req t, exec c s = .next t ∧ Issued p req s t := by
  unfold commandPage at h
  split at h
  all_goals cases h
  all_goals exact ⟨_, _, rfl, Issued.intro _ _ _ _ _ _⟩

/-- The tile pages are those of their tiles. -/
theorem maintPage_ofNat {p : Nat} (h1 : 0x20 ≤ p) (h2 : p ≤ 0x29) : maintPage (Fin.ofNat 12 (p - 0x20)).val = p := by
  simp only [Fin.val_ofNat, maintPage, tilePage]
  split <;> omega

theorem tilePage_ofNat {n p : Nat} [NeZero n] (h1 : 0x20 ≤ p) (h2 : p - 0x20 < n) :
    tilePage (Fin.ofNat n (p - 0x20)).val = p := by
  simp only [Fin.val_ofNat, tilePage, Nat.mod_eq_of_lt h2]
  omega

/-- So does every opcode written to PG_CMD, defined or not (R444, R445). -/
theorem commandWrite_issued (req : Requester) (p op : Nat) (arg : BitVec 24) (s : State) :
    Issued p req s (commandWrite req p op arg s) := by
  unfold commandWrite
  extract_lets bad
  refine .ite (fun h => ?_) fun _ => .ite (fun h => ?_) fun _ => .ite (fun h => ?_) fun _ => .ite (fun h => ?_) fun _ =>
    .ite (fun h => ?_) fun _ => .ite (fun h => ?_) fun _ => .ite (fun h => ?tiles) fun _ => .ite (fun h => ?_) fun _ =>
    .ite (fun h => ?_) fun _ => .ite (fun h => ?_) fun _ => .ite (fun h => ?_) fun _ => .ite (fun h => ?_) fun _ =>
    .ite (fun h => ?_) fun _ => .ite (fun h => ?_) fun _ => .ite (fun h => ?_) fun _ => Issued.intro _ _ _ _ _ _
  case tiles =>
    obtain ⟨h1, h2⟩ := h
    split
    · exact (Issued.intro _ _ _ _ _ _).of_eq (maintPage_ofNat h1 h2)
    · exact .ite (fun h => (Issued.intro _ _ _ _ _ _).of_eq (tilePage_ofNat (n := 4) h1 (by omega)))
        fun _ => Issued.intro _ _ _ _ _ _
    · exact (Issued.intro _ _ _ _ _ _).of_eq (tilePage_ofNat (n := 10) h1 (by omega))
    · exact Issued.intro _ _ _ _ _ _
  all_goals subst h
  all_goals split <;> exact Issued.intro _ _ _ _ _ _

/-- An aligned word write to a page that takes writes reaches its header or its own registers (R17, R346). -/
theorem busWrite_page (req : Requester) {p off : Nat} (v : Word) {s : State} (hp : p < 256) (ho : off < 4096)
    (ha : off % 4 = 0) (ht : PageTakes s p) (hs : safetyOwned p off = false) :
    busWrite req (0x40000000 + 4096 * p + off) 4 v s
      = if off < 0x40 then hdrWrite req p off v s else regWrite req p off v s := by
  obtain ⟨d, hd, hd'⟩ := ht
  have h1 : (0x40000000 + 4096 * p + off - 0x40000000) / 0x1000 = p := by omega
  have h2 : (0x40000000 + 4096 * p + off) % 0x1000 = off := by omega
  unfold busWrite
  rw [if_pos (by omega), if_pos (by omega), if_pos (by omega), h1, h2]
  unfold pageAccess
  simp [hd, hd', hs]

/-- The header's command register of page `p` (R441). -/
theorem busWrite_command (req : Requester) {p : Nat} (v : Word) {s : State} (hp : p < 256) (ht : PageTakes s p) :
    Issued p req s (busWrite req (0x40000018 + 4096 * p) 4 v s) := by
  have h := busWrite_page (off := 0x18) req v hp (by omega) (by omega) ht (by simp [safetyOwned])
  rw [show 0x40000018 + 4096 * p = 0x40000000 + 4096 * p + 0x18 by omega, h]
  exact commandWrite_issued _ _ _ _ _

/-- Settles O36: every command of the page, and every write to its PG_CMD, goes through the page's command machinery, which
only sets CMD_LOST while the page is busy. -/
theorem busyPageDropsCommand : Obligations.BusyPageDropsCommand := by
  intro c p s hc ht hb
  have hi : ∃ req t, exec c s = .next t ∧ Issued p req s t := by
    obtain hc | ⟨req, v, rfl, hp⟩ := hc
    · exact exec_issued hc s
    · refine ⟨req, _, rfl, ?_⟩
      rw [BitVec.toNat_ofNat, Nat.mod_eq_of_lt (by omega)]
      exact busWrite_command req v hp ht
  obtain ⟨req, t, he, hi⟩ := hi
  rw [hi.busy ht hb] at he
  exact ⟨_, he, hdr_setSticky_same p 2 s, fun q hq => hdr_setSticky_other p 2 s hq, rfl⟩

end Sys2Proof.Machine
end

section
/-! The clock registers stand in everything a boundary does before the clock moves (R14, R15): `f_clk` says that operation
`f` leaves them as they are.  An operation that is used once is unfolded where it is used. -/

namespace Sys2Proof.Machine

/-! Choices and repetitions. -/

@[simp] theorem clk_ite (c : Prop) [Decidable c] (a b : State) :
    (if c then a else b).clk = if c then a.clk else b.clk := apply_ite _ _ _ _

@[simp] theorem clk_dite (c : Prop) [Decidable c] (a : c → State) (b : ¬ c → State) :
    (if h : c then a h else b h).clk = if h : c then (a h).clk else (b h).clk := apply_dite _ _ _ _

@[simp] theorem clk_foldl {α : Type} (g : State → α → State) (h : ∀ s x, (g s x).clk = s.clk) (l : List α) (s : State) :
    (l.foldl g s).clk = s.clk := by
  induction l generalizing s with
  | nil => rfl
  | cons x l ih => rw [List.foldl_cons, ih, h]

@[simp] theorem clk_iterate (g : State → State) (h : ∀ s, (g s).clk = s.clk) (n : Nat) (s : State) :
    (iterate g n s).clk = s.clk := by
  induction n generalizing s with
  | zero => rfl
  | succ n ih => rw [iterate, ih, h]

@[simp] theorem after_ite (c : Prop) [Decidable c] (a b : CmdEnd) :
    (if c then a else b).after = if c then a.after else b.after := apply_ite _ _ _ _

/-! Events, page headers and commands. -/

@[simp] theorem raiseEv_clk (cls code source : Nat) (data : BitVec 96) (s : State) :
    (raiseEv cls code source data s).clk = s.clk := by simp [raiseEv]

@[simp] theorem blockEv_clk (page code data : Nat) (s : State) : (blockEv page code data s).clk = s.clk := by
  simp [blockEv]

@[simp] theorem setSticky_clk (p bit : Nat) (s : State) : (setSticky p bit s).clk = s.clk := rfl

@[simp] theorem finishCmd_clk (p : Nat) (st : CStat) (result : Nat) (s : State) :
    (finishCmd p st result s).clk = s.clk := by
  cases st
  case state => unfold finishCmd; dsimp only; split <;> simp
  all_goals rfl

@[simp] theorem endIfRunning_clk (p op : Nat) (st : CStat) (result : Nat) (s : State) :
    (endIfRunning p op st result s).clk = s.clk := by
  unfold endIfRunning
  split <;> simp

/-- A held command that keeps the clock leaves it so when it is carried out. -/
theorem runHeld_clk (page : Nat) (apply : Nat → BitVec 24 → Requester → State → CmdEnd) (s : State)
    (h : ∀ op arg req, (apply op arg req s).after.clk = s.clk) : (runHeld page apply s).clk = s.clk := by
  unfold runHeld
  split
  · rename_i r _
    have hr := h r.op.toNat r.arg r.by_
    split <;> rename_i e <;> rw [e] at hr <;> simpa [CmdEnd.after] using hr
  · rfl

/-! Outputs, gates and the claim (ch. 05, 10, 12, 13). -/

@[simp] theorem ucResolve_clk (n : Nat) (s : State) : (ucResolve n s).clk = s.clk := by
  unfold ucResolve
  dsimp only
  split
  · split
    · rfl
    · split <;> rfl
  · rfl

@[simp] theorem dioResolve_clk (n : Nat) (s : State) : (dioResolve n s).clk = s.clk := by
  simp [dioResolve]

@[simp] theorem inrushBudget_clk (s : State) : (inrushBudget s).clk = s.clk := rfl

@[simp] theorem tripUpdate_clk (s : State) : (tripUpdate s).clk = s.clk := by
  simp [tripUpdate, tripDrive]

@[simp] theorem coupleModem_clk (m : Nat) (count : Bool) (s : State) : (coupleModem m count s).clk = s.clk := by
  simp [coupleModem]

@[simp] theorem hartDone_clk (b result : Nat) (s : State) : (hartDone b result s).clk = s.clk := by
  simp [hartDone]

@[simp] theorem hartNoTurn_clk (s : State) : (hartNoTurn s).clk = s.clk := by
  simp [hartNoTurn]

@[simp] theorem hartEnd_clk (m b result : Nat) (s : State) : (hartEnd m b result s).clk = s.clk := by
  simp [hartEnd]

@[simp] theorem hartAbort_clk (p : Nat → Bool) (queued : Bool) (s : State) : (hartAbort p queued s).clk = s.clk := by
  unfold hartAbort
  extract_lets s1
  have h : s1.clk = s.clk := by
    refine clk_foldl _ (fun s m => ?_) _ _
    split <;> simp
  simp [h]

@[simp] theorem hartAdvance_clk (m : Nat) (s : State) : (hartAdvance m s).clk = s.clk := by
  simp [hartAdvance]

@[simp] theorem hartRegate_clk (s : State) : (hartRegate s).clk = s.clk := by
  simp [hartRegate]

@[simp] theorem canGates_clk (takeover : Bool) (s : State) : (canGates takeover s).clk = s.clk := by
  simp [canGates, canEndAll, canSticky]

@[simp] theorem gatesApply_clk (s : State) : (gatesApply s).clk = s.clk := by
  simp [gatesApply, gatesApplyUc]

@[simp] theorem gatesOpen_clk (s : State) : (gatesOpen s).clk = s.clk := by
  simp [gatesOpen]

@[simp] theorem dropClaim_clk (s : State) : (dropClaim s).clk = s.clk := by
  simp [dropClaim]

@[simp] theorem redEvent_clk (code detail : Nat) (s : State) : (redEvent code detail s).clk = s.clk := by
  simp [redEvent]

@[simp] theorem orderYield_clk (cause : Nat) (s : State) : (orderYield cause s).clk = s.clk := by
  simp [orderYield]

@[simp] theorem becomeIdle_clk (s : State) : (becomeIdle s).clk = s.clk := by
  simp [becomeIdle]

@[simp] theorem yieldNow_clk (c : BitVec 3) (s : State) : (yieldNow c s).clk = s.clk := by
  simp [yieldNow, becomeStandby]

@[simp] theorem startElection_clk (s : State) : (startElection s).clk = s.clk := by
  simp [startElection]

@[simp] theorem updInp_clk (n : Nat) (f : UcIn → UcIn) (s : State) : (updInp n f s).clk = s.clk := rfl

@[simp] theorem abortOpenTest_clk (n : Nat) (s : State) : (abortOpenTest n s).clk = s.clk := by
  simp [abortOpenTest]

@[simp] theorem settleUc_clk (n : Nat) (s : State) : (settleUc n s).clk = s.clk := by
  simp [settleUc]

@[simp] theorem dropSamples_clk (c : Nat) (s : State) : (dropSamples c s).clk = s.clk := rfl

@[simp] theorem updCtxOf_clk (c : Nat) (f : ChanCtx → ChanCtx) (s : State) : (updCtxOf c f s).clk = s.clk := rfl

@[simp] theorem newSeries_clk (c : Nat) (s : State) : (newSeries c s).clk = s.clk := by
  simp [newSeries]

@[simp] theorem loadPlanRegs_clk (m : Nat) (s : State) : (loadPlanRegs m s).clk = s.clk := by
  simp [loadPlanRegs]

@[simp] theorem givePlanRegs_clk (m : Nat) (s : State) : (givePlanRegs m s).clk = s.clk := by
  simp [givePlanRegs]

/-! The course that ends (R30, R73, R74, R76, R333). -/

@[simp] theorem faultCourse_clk (e : Nat) (cause : BitVec 2) (s : State) : (faultCourse e cause s).clk = s.clk := by
  simp [faultCourse]

theorem courseOverrun_clk (s : State) : (courseOverrun s).clk = s.clk := by
  simp [courseOverrun]

@[simp] theorem takeBuffer_clk (s : State) : (takeBuffer s).clk = s.clk := rfl

@[simp] theorem ringPut_clk (p : Nat) (mk : Word → List Byte) (s : State) : (ringPut p mk s).clk = s.clk := by
  simp [ringPut]

@[simp] theorem trendEnd_clk (s : State) : (trendEnd s).clk = s.clk := by
  unfold trendEnd
  split <;> simp

@[simp] theorem squarePublish_clk (s : State) : (squarePublish s).clk = s.clk := by
  unfold squarePublish
  split <;> simp [publish, trendGather]

theorem endCourse_clk (s : State) : (endCourse s).clk = s.clk := by
  simp [endCourse]

theorem sendSync_clk (s : State) : (sendSync s).clk = s.clk := by
  simp [sendSync, buildSync]

theorem syncMissed_clk (s : State) : (syncMissed s).clk = s.clk := by
  simp [syncMissed]

theorem nextCourse_clk (s : State) : (nextCourse s).clk = s.clk := by
  simp [nextCourse, warmTick, wallEnd]

/-! Plans and districts (R46, R43, R54 to R60). -/

@[simp] theorem planEvent_clk (code district gen count : Nat) (s : State) :
    (planEvent code district gen count s).clk = s.clk := by
  simp [planEvent]

@[simp] theorem showRestored_clk (src : List (Nat × Bool × Nat)) (s : State) : (showRestored src s).clk = s.clk := by
  refine clk_foldl _ (fun s x => ?_) _ _
  split <;> simp

@[simp] theorem initCall_clk (s : State) : (initCall s).clk = s.clk := rfl

@[simp] theorem claimConfig_clk (s : State) : (claimConfig s).clk = s.clk := by
  simp [claimConfig]

@[simp] theorem startPlan_clk (b : Bool) (k : Nat) (src : List (Nat × Bool × Nat)) (s : State) :
    (startPlan b k src s).clk = s.clk := by
  simp [startPlan, reloadAll, freshStamps, clk_foldl _ (fun s m => updModem_clk m _ s)]

theorem startBoundary_clk (s : State) : (startBoundary s).clk = s.clk := by
  unfold startBoundary
  split <;> simp

theorem stopBoundary_clk (s : State) : (stopBoundary s).clk = s.clk := by
  unfold stopBoundary
  split <;> simp

theorem yieldBoundary_clk (s : State) : (yieldBoundary s).clk = s.clk := by
  unfold yieldBoundary
  split <;> simp

/-! Alarms and the operator call (ch. 08). -/

@[simp] theorem raiseAlarm_clk (p : Nat) (data : BitVec 96) (s : State) : (raiseAlarm p data s).clk = s.clk := by
  simp [raiseAlarm, capAlarm, capTrigger, journalTake]

@[simp] theorem alarmRecord_clk (p : Nat) (old new : Half) (cause by_ : Nat) (s : State) :
    (alarmRecord p old new cause by_ s).clk = s.clk := by
  simp [alarmRecord]

@[simp] theorem alarmEvent_clk (code group point : Nat) (s : State) : (alarmEvent code group point s).clk = s.clk := by
  simp [alarmEvent]

@[simp] theorem emptyFo_clk (g : Nat) (s : State) : (emptyFo g s).clk = s.clk := by
  unfold emptyFo
  split <;> simp

@[simp] theorem updTab_clk (t : Nat) (f : CallTab → CallTab) (s : State) : (updTab t f s).clk = s.clk := rfl

@[simp] theorem callEvent_clk (code table detail : Nat) (s : State) : (callEvent code table detail s).clk = s.clk := by
  simp [callEvent]

@[simp] theorem setTab_clk (t : Nat) (x : CallTab) (s : State) : (setTab t x s).clk = s.clk := by
  simp [setTab]

@[simp] theorem setPhase_clk (ph : WatchPhase) (s : State) : (setPhase ph s).clk = s.clk := by
  simp [setPhase]

@[simp] theorem startWatch_clk (s : State) : (startWatch s).clk = s.clk := by
  simp [startWatch]

@[simp] theorem applyWatch_clk (on : Bool) (s : State) : (applyWatch on s).clk = s.clk := by
  simp [applyWatch]

@[simp] theorem setDuty_clk (e : Nat) (s : State) : (setDuty e s).clk = s.clk := by
  simp [setDuty]

@[simp] theorem ackPoint_clk (p cause by_ : Nat) (s : State) : (ackPoint p cause by_ s).1.clk = s.clk := by
  unfold ackPoint
  dsimp only
  split
  · split <;> simp [ptTo]
  · rfl

@[simp] theorem ackPoints_clk (cause by_ : Nat) (l : List Nat) (s : State) :
    (ackPoints cause by_ l s).1.clk = s.clk := by
  have h : ∀ (l : List Nat) (a : State × Nat), (l.foldl (fun (a : State × Nat) p =>
      let r := ackPoint p cause by_ a.1
      (r.1, a.2 + b2n r.2)) a).1.clk = a.1.clk := by
    intro l
    induction l with
    | nil => exact fun _ => rfl
    | cons p l ih => exact fun a => (ih _).trans (ackPoint_clk p cause by_ a.1)
  exact h l (s, 0)

@[simp] theorem silenceAll_clk (s : State) : (silenceAll s).1.clk = s.clk := by
  simp [silenceAll, clk_foldl _ (fun s p => updPoint_clk p _ s)]

theorem applyAlarmCmd_clk (op : Nat) (arg : BitVec 24) (req : Requester) (s : State) :
    (applyAlarmCmd op arg req s).after.clk = s.clk := by
  unfold applyAlarmCmd
  extract_lets p g mask by_ s'
  split
  · rfl
  · split
    · rfl
    · split
      case h_6 =>
        split
        · rfl
        · split
          · rfl
          · split <;> simp [after_done]
      all_goals simp +zetaDelta [after_done]

theorem applyCallCmd_clk (op : Nat) (arg : BitVec 24) (s : State) : (applyCallCmd op arg s).after.clk = s.clk := by
  unfold applyCallCmd
  extract_lets c mask e
  split
  · rfl
  · split
    · rfl
    · split <;> simp +zetaDelta [after_done]

theorem alarmBoundary_clk (s : State) : (alarmBoundary s).clk = s.clk := by
  unfold alarmBoundary
  extract_lets s1 s2 b s3 s4 s5
  have h1 : s1.clk = s.clk := runHeld_clk _ _ _ (fun op arg req => applyAlarmCmd_clk op arg req s)
  have h2 : s2.clk = s1.clk := runHeld_clk _ _ _ (fun op arg _ => applyCallCmd_clk op arg s1)
  have h3 : s3.clk = s2.clk := by simp +zetaDelta [applyPresses]
  have h4 : s4.clk = s3.clk := by simp +zetaDelta
  have h5 : s5.clk = s4.clk := by
    dsimp only [s5]
    split <;> simp
  rw [updCall_clk, h5, h4, h3, h2, h1]

theorem clearRose_clk (s : State) : (clearRose s).clk = s.clk := by
  simp [clearRose]

theorem alarmCapture_clk (s : State) : (alarmCapture s).clk = s.clk := by
  simp [alarmCapture, noSelector]

/-! Steps of a district update (R55 to R58). -/

@[simp] theorem endRelease_clk (output : Bool) (n : Nat) (s : State) : (endRelease output n s).clk = s.clk := rfl

@[simp] theorem stepAna_clk (c : Nat) (was : Bool) (s : State) : (stepAna c was s).clk = s.clk := by
  simp [stepAna]

@[simp] theorem stepDig_clk (k : Nat) (was : Bool) (s : State) : (stepDig k was s).clk = s.clk := by
  simp [stepDig]

@[simp] theorem stepPoint_clk (p : Nat) (old : Option (List Byte)) (oldWord : Half) (s : State) :
    (stepPoint p old oldWord s).clk = s.clk := by
  simp [stepPoint]

@[simp] theorem stepLane_clk (n : Nat) (old : Option (List Byte)) (s : State) : (stepLane n old s).clk = s.clk := by
  simp [stepLane]

@[simp] theorem watchStep_clk (was : Nat) (s : State) : (watchStep was s).clk = s.clk := by
  simp [watchStep]

@[simp] theorem eraseRecord_clk (m : Nat) (s : State) : (eraseRecord m s).clk = s.clk := by
  simp [eraseRecord]

@[simp] theorem retirePoint_clk (p : Nat) (oldWord : Half) (s : State) : (retirePoint p oldWord s).clk = s.clk := by
  simp [retirePoint]

@[simp] theorem retireTable_clk (t : Nat) (s : State) : (retireTable t s).clk = s.clk := by
  simp [retireTable]

@[simp] theorem dropPanelPend_clk (k : Nat) (s : State) : (dropPanelPend k s).clk = s.clk := by
  simp [dropPanelPend]

@[simp] theorem applyStep_clk (d : DStep) (s : State) : (applyStep d s).clk = s.clk := by
  cases d with
  | apply e =>
    unfold applyStep
    dsimp only
    split <;> simp
  | retire ty t =>
    unfold applyStep
    dsimp only
    split
    · rfl
    · split <;> simp

theorem districtsBoundary_clk (s : State) : (districtsBoundary s).clk = s.clk := by
  have h : ∀ n s, (stepDistrict n s).clk = s.clk := by
    intro n s
    unfold stepDistrict
    split <;> simp [completeUpdate]
  simp [districtsBoundary, h]

/-! The rest of the boundary up to the clock. -/

theorem ptpBoundary_clk (s : State) : (ptpBoundary s).clk = s.clk := by
  simp [ptpBoundary]

@[simp] theorem evqArrive_clk (e : EventRec) (s : State) : (evqArrive e s).clk = s.clk := by
  simp [evqArrive, evqReplace, evqNote]

theorem evqDrain_clk (s : State) : (evqDrain s).clk = s.clk := by
  simp [evqDrain]

theorem loadSync_clk (s : State) : (loadSync s).clk = s.clk := by
  have hl : ∀ (m : SyncMsg) (s : State), (loadLamps m s).clk = s.clk := by
    intro m s
    refine clk_foldl _ (fun s n => ?_) _ _
    split <;> simp
  have ht : ∀ (m : SyncMsg) (s : State), (loadTurns m s).clk = s.clk := by
    intro m s
    refine clk_foldl _ (fun s t => ?_) _ _
    simp
  unfold loadSync
  split <;> simp [hl, ht]

theorem maintBoundary_clk (s : State) : (maintBoundary s).clk = s.clk := by
  simp [maintBoundary, enterMaint, leaveMaint]

theorem tilesBoundary_clk (s : State) : (tilesBoundary s).clk = s.clk := by
  simp [tilesBoundary, tileTake, restartTile, abortTileTests]

@[simp] theorem safeEvent_clk (code target detail : Nat) (s : State) : (safeEvent code target detail s).clk = s.clk := by
  simp [safeEvent]

theorem applyResetLane_clk (arg : BitVec 24) (s : State) : (applyResetLane arg s).after.clk = s.clk := by
  unfold applyResetLane
  extract_lets all ns
  split
  · rfl
  · simp -implicitDefEqProofs [after_done]

theorem safeBoundary_clk (s : State) : (safeBoundary s).clk = s.clk := by
  unfold safeBoundary
  split
  · extract_lets _ s0 _ s1 s2 _ s3
    have h0 : s0.clk = s.clk := by
      dsimp only [s0]
      split <;> rfl
    have h1 : s1.clk = s0.clk := clk_foldl _ (fun s a => by simp [applyAsk]) _ _
    have h2 : s2.clk = s1.clk := by
      dsimp only [s2]
      split
      · rename_i r _
        have hr := applyResetLane_clk r.arg s1
        split
        · split <;> rename_i e <;> rw [e] at hr <;> simpa [CmdEnd.after] using hr
        · rfl
      · rfl
    have h3 : s3.clk = s2.clk := by
      dsimp only [s3]
      split <;> simp
    rw [tripUpdate_clk, h3, h2, h1, h0]
  · rfl

@[simp] theorem updOut_clk (n : Nat) (f : UcOut → UcOut) (s : State) : (updOut n f s).clk = s.clk := rfl

@[simp] theorem ucOSticky_clk (n bit : Nat) (s : State) : (ucOSticky n bit s).clk = s.clk := rfl

@[simp] theorem ucTake_clk (n : Nat) (s : State) : (ucTake n s).clk = s.clk := by
  simp [ucTake, ucNewMode]

@[simp] theorem ucDrive_clk (n : Nat) (win : Option OutWindow) (s : State) : (ucDrive n win s).clk = s.clk := by
  unfold ucDrive
  dsimp only
  split <;> simp [retireOff]

@[simp] theorem chanEvent_clk (c code detail : Nat) (s : State) : (chanEvent c code detail s).clk = s.clk := by
  simp [chanEvent]

@[simp] theorem ucJudge_clk (n : Nat) (s : State) : (ucJudge n s).clk = s.clk := by
  unfold ucJudge
  split <;> simp [openLoopStep, complianceStep, readbackStep]

@[simp] theorem ucBoundary_clk (n : Nat) (s : State) : (ucBoundary n s).clk = s.clk := by
  unfold ucBoundary
  dsimp only
  split
  · split
    · split
      · simp
      · split <;> simp
    · simp
  · rfl

theorem outputsBoundary_clk (s : State) : (outputsBoundary s).clk = s.clk := by
  have hd : ∀ s n, (dioBoundary n s).clk = s.clk := by simp [dioBoundary]
  unfold outputsBoundary
  extract_lets s1
  have h1 : s1.clk = s.clk := clk_foldl _ (fun s n => ucBoundary_clk n s) _ _
  split
  · rw [inrushBudget_clk, clk_foldl _ hd, h1]
  · exact h1

theorem takeRegs_clk (s : State) : (takeRegs s).clk = s.clk := by
  simp [takeRegs, liTake, liNewMode, digTake]

end Sys2Proof.Machine
end

section
/-! The applied correction at a boundary (R14): the clock moves once, and what follows it leaves the correction alone. -/

namespace Sys2Proof.Machine

theorem applied_of_kept {s t : State} (h : kept t = kept s) : t.clk.applied = s.clk.applied :=
  congrArg Kept.applied h

/-! Domains that come up and a node reset. -/

@[simp] theorem domainUp_applied (d : Nat) (trim : Bool) (s : State) :
    (domainUp d trim s).clk.applied = s.clk.applied := congrArg Kept.applied (kept_domainUp d trim s).1

@[simp] theorem domainDown_applied (d : Nat) (s : State) : (domainDown d s).clk.applied = s.clk.applied :=
  congrArg Kept.applied (kept_domainDown d s)

@[simp] theorem shed_applied (l : List Nat) (s : State) : (shed l s).clk.applied = s.clk.applied :=
  (kept_shed l s).2.1

@[simp] theorem applied_foldl {α : Type} (g : State → α → State) (h : ∀ s x, (g s x).clk.applied = s.clk.applied)
    (l : List α) (s : State) : (l.foldl g s).clk.applied = s.clk.applied := by
  induction l generalizing s with
  | nil => rfl
  | cons x l ih => rw [List.foldl_cons, ih, h]

@[simp] theorem applied_ite (c : Prop) [Decidable c] (a b : ClkBlk) :
    (if c then a else b).applied = if c then a.applied else b.applied := apply_ite _ _ _ _

@[simp] theorem startRefs_applied (refs trim : Bool) (s : State) : (startRefs refs trim s).clk.applied = s.clk.applied := by
  simp [startRefs, startDomains]

@[simp] theorem endSwitch_clk (s : State) : (endSwitch s).clk = s.clk := by
  unfold endSwitch
  split <;> simp

@[simp] theorem nodeReset_applied (cause : Nat) (refs trim : Bool) (s : State) :
    (nodeReset cause refs trim s).clk.applied = s.clk.applied := by
  simp [nodeReset]

theorem startupBoundary_applied (s : State) : (startupBoundary s).clk.applied = s.clk.applied := by
  simp [startupBoundary, sysEvent]

theorem resetBoundary_applied (refs trim : Bool) (s : State) :
    (resetBoundary refs trim s).clk.applied = s.clk.applied := by
  unfold resetBoundary
  split <;> simp

/-! The boundary. -/

/-- The clock's move depends on the clock registers alone. -/
theorem clockBoundary_congr {s t : State} (h : s.clk = t.clk) : (clockBoundary s).clk = (clockBoundary t).clk := by
  simp only [clockBoundary, clockMove, clk_ite, h]

/-- Disciplined, the correction moves one step towards TRIM (R14). -/
theorem clockBoundary_applied {s : State} (he : s.clk.en = true) (hh : s.clk.holdover = false) :
    (clockBoundary s).clk.applied = if s.clk.applied < s.clk.trim then s.clk.applied + 1
      else if s.clk.trim < s.clk.applied then s.clk.applied - 1 else s.clk.applied := by
  simp [clockBoundary, clockMove, he, hh]

theorem pairCounts_clk (cn : Word) (s : State) : (pairCounts cn s).clk = s.clk := rfl

theorem takeSnapshot_clk (s : State) : (takeSnapshot s).clk = s.clk := rfl

theorem beginCourse_applied (s : State) : (beginCourse s).clk.applied = (clockBoundary s).clk.applied := by
  unfold beginCourse
  extract_lets _ s0 s1 s2 s3 s4 s5
  have h0 : s0.clk = s.clk := rfl
  have h1 : s1.clk = s.clk := by
    rw [startBoundary_clk, stopBoundary_clk, yieldBoundary_clk, pairCounts_clk, evqDrain_clk, h0]
  have h2 : s2.clk = s1.clk := by
    rw [tilesBoundary_clk, maintBoundary_clk, loadSync_clk, districtsBoundary_clk, ptpBoundary_clk]
  have h3 : s3.clk = s2.clk := by rw [takeSnapshot_clk, alarmBoundary_clk, clearRose_clk]
  have h4 : s4.clk = s3.clk := by rw [alarmCapture_clk, safeBoundary_clk]
  have hc : (outputsBoundary (takeRegs s4)).clk = s.clk := by
    rw [outputsBoundary_clk, takeRegs_clk, h4, h3, h2, h1]
  have hl : s5.clk.applied = (clockBoundary s).clk.applied := by
    rw [applied_of_kept (kept_logBoundary _), clockBoundary_congr hc]
  rw [← hl]
  refine applied_of_kept ?_
  rw [kept_recordsBoundary, kept_calBoundary, kept_hartBoundary, kept_iepeBoundary, kept_icuSleep]
  rfl

/-- At a boundary the correction moves as the clock's own step says, whatever else the boundary does. -/
theorem courseBoundary_applied (refs trim : Bool) (s : State) :
    (courseBoundary refs trim s).clk.applied = (clockBoundary s).clk.applied := by
  unfold courseBoundary
  extract_lets s0 s1
  have h0 : s0.clk = s.clk := rfl
  have h1 : s1.clk.applied = (clockBoundary s).clk.applied := by
    dsimp only [s1]
    split
    · rw [beginCourse_applied]
      refine congrArg ClkBlk.applied (clockBoundary_congr ?_)
      rw [nextCourse_clk, sendSync_clk, syncMissed_clk, endCourse_clk, courseOverrun_clk, h0]
    · exact congrArg ClkBlk.applied (clockBoundary_congr ((ptpBoundary_clk s0).trans h0))
  rw [resetBoundary_applied, startupBoundary_applied, applied_of_kept (kept_daysBoundary s1), h1]

end Sys2Proof.Machine
end

section
/-! The applied correction stands in the operations that write memories, in the accesses by address and in the host port's
transactions (R14): what `kept` does not say of them. -/

namespace Sys2Proof.Machine

theorem applied_of_clk {s t : State} (h : t.clk = s.clk) : t.clk.applied = s.clk.applied := congrArg ClkBlk.applied h

/-! Memories. -/

@[simp] theorem ramWrite_clk (a : Nat) (l : List Byte) (s : State) : (ramWrite a l s).clk = s.clk := rfl

@[simp] theorem dmaWrite_clk (a : Nat) (l : List Byte) (s : State) : (dmaWrite a l s).clk = s.clk := by
  simp [dmaWrite]

@[simp] theorem norDone_clk (ok : Bool) (s : State) : (norDone ok s).clk = s.clk := by
  unfold norDone
  split <;> simp

@[simp] theorem memStore_clk (req : Requester) (a : Nat) (l : List Byte) (s : State) :
    (memStore req a l s).clk = s.clk := by
  unfold memStore
  split
  · split
    · split <;> rfl
    · simp
  · rfl

theorem ethDeliver_clk (p q : Nat) (lanB : Bool) (full : List Byte) (s : State) :
    (ethDeliver p q lanB full s).clk = s.clk := by
  simp [ethDeliver, ethCount, updRing]

theorem ethAccept_clk (p on : Nat) (b : List Byte) (s : State) : (ethAccept p on b s).clk = s.clk := by
  have hp : ∀ src seq s, (prpNote src seq s).clk = s.clk := fun _ _ _ => rfl
  unfold ethAccept
  extract_lets e
  split
  · rfl
  · split
    · simp [ethCount]
    · split
      · split
        · simp [ethDeliver_clk, ethCount, hp]
        · exact ethDeliver_clk _ _ _ _ _
      · exact ethDeliver_clk _ _ _ _ _

/-! Commands. -/

theorem issueCmd_clk (p : Nat) (req : Requester) (op : Nat) (arg : BitVec 24) (body : State → CmdEnd) (s : State)
    (h : ∀ s, (body s).after.clk = s.clk) : (issueCmd p req op arg body s).clk = s.clk := by
  unfold issueCmd
  split
  · rfl
  · split
    · split
      · rfl
      · have hb := h (takeCmd p req op arg s)
        split <;> rename_i e <;> rw [e] at hb
        · exact (finishCmd_clk _ _ _ _).trans hb
        · exact hb
    · simp [offAccess]

theorem coreReset_clk (req : Requester) (arg : BitVec 24) (s : State) : (coreReset req arg s).clk = s.clk := by
  refine issueCmd_clk _ _ _ _ _ _ (fun s => ?_)
  extract_lets m
  split
  · rfl
  · simp [after_done, sysEvent]

theorem readLog_clk (req : Requester) (arg : BitVec 24) (bad : Option Word) (s : State) :
    (readLog req arg bad s).clk = s.clk := by
  refine issueCmd_clk _ _ _ _ _ _ (fun s => ?_)
  simp [after_done, logFault, logEvent]

theorem applied_of_ite {c : Prop} [Decidable c] {s t u : State} (ht : c → t.clk.applied = s.clk.applied)
    (hu : ¬ c → u.clk.applied = s.clk.applied) : (if c then t else u).clk.applied = s.clk.applied := by
  split
  · exact ht ‹c›
  · exact hu ‹¬ c›

theorem commandWrite_applied (req : Requester) (p op : Nat) (arg : BitVec 24) (s : State) :
    (commandWrite req p op arg s).clk.applied = s.clk.applied := by
  unfold commandWrite
  extract_lets bad
  have hbad : bad.clk.applied = s.clk.applied := applied_of_clk (issueCmd_clk _ _ _ _ _ _ (fun _ => rfl))
  refine applied_of_ite (fun _ => ?_) fun _ => applied_of_ite (fun _ => ?_) fun _ => applied_of_ite (fun _ => ?_) fun _ =>
    applied_of_ite (fun _ => ?_) fun _ => applied_of_ite (fun _ => ?_) fun _ => applied_of_ite (fun _ => ?_) fun _ =>
    applied_of_ite (fun _ => ?_) fun _ => applied_of_ite (fun _ => ?_) fun _ => applied_of_ite (fun _ => ?_) fun _ =>
    applied_of_ite (fun _ => ?_) fun _ => applied_of_ite (fun _ => ?_) fun _ => applied_of_ite (fun _ => ?_) fun _ =>
    applied_of_ite (fun _ => ?_) fun _ => applied_of_ite (fun _ => ?_) fun _ => applied_of_ite (fun _ => ?_) fun _ => hbad
  all_goals
    split <;> simp only [hbad, clk_ite, applied_ite, ite_self, coreReset_clk, readLog_clk,
      applied_of_kept (kept_domainCmd _ _ _ _), applied_of_kept (kept_resetCmd _ _ _),
      applied_of_kept (kept_clearPeakCmd _ _ _), applied_of_kept (kept_loadPlan _ _ _),
      applied_of_kept (kept_stopPlan _ _ _), applied_of_kept (kept_updateDistrict _ _ _),
      applied_of_kept (kept_abortUpdate _ _ _), applied_of_kept (kept_verifyCmd _ _ _),
      applied_of_kept (kept_eraseCmd _ _ _), applied_of_kept (kept_programCmd _ _ _),
      applied_of_kept (kept_alarmCmd _ _ _ _), applied_of_kept (kept_callCmd _ _ _ _),
      applied_of_kept (kept_updateSafety _ _ _), applied_of_kept (kept_releaseCmd _ _ _ _),
      applied_of_kept (kept_restoreCmd _ _ _ _), applied_of_kept (kept_resetLane _ _ _),
      applied_of_kept (kept_forceResetCmd _ _ _), applied_of_kept (kept_channelMaint _ _ _ _),
      applied_of_kept (kept_openTest _ _ _ _), applied_of_kept (kept_tileRestart _ _ _ _),
      applied_of_kept (kept_sessionOpen _ _ _), applied_of_kept (kept_measureCmd _ _ _),
      applied_of_kept (kept_commitCmd _ _ _), applied_of_kept (kept_sessionClose _ _ _),
      applied_of_kept (kept_submitCmd _ _ _), applied_of_kept (kept_hartCancel _ _ _),
      applied_of_kept (kept_hartRelease _ _ _), applied_of_kept (kept_outReset _ _ _),
      applied_of_kept (kept_relearn _ _ _), applied_of_kept (kept_ptpAsk _ _ _ _),
      applied_of_kept (kept_appendLog _ _ _), applied_of_kept (kept_captureCmd _ _ _),
      applied_of_kept (kept_panelUpdate _ _ _), applied_of_kept (kept_panelCancel _ _ _),
      applied_of_kept (kept_clearPanel _ _ _), applied_of_kept (kept_switchover _ _ _),
      applied_of_kept (kept_clearCounts _ _ _)]

/-! Accesses by address (R16 to R27). -/

theorem hdrWrite_applied (req : Requester) (p off : Nat) (v : Word) (s : State) :
    (hdrWrite req p off v s).clk.applied = s.clk.applied := by
  unfold hdrWrite
  split
  · exact applied_of_kept (kept_setField _ _ _ (fun _ => rfl))
  · exact applied_of_kept (kept_setField _ _ _ (fun _ => rfl))
  · exact applied_of_kept (kept_setField _ _ _ (fun _ => rfl))
  · exact commandWrite_applied _ _ _ _ _
  · rfl

theorem pageAccess_applied (req : Requester) (p off : Nat) (v : Word) (s : State) :
    (pageAccess req p off v s).clk.applied = s.clk.applied := by
  unfold pageAccess
  split
  · rfl
  · exact applied_of_ite
      (fun _ => applied_of_ite (fun _ => applied_of_kept (kept_accessViolation _ _ _ _ _)) fun _ =>
        applied_of_ite (fun _ => hdrWrite_applied _ _ _ _ _) fun _ => applied_of_kept (kept_regWrite _ _ _ _ _))
      fun _ => applied_of_kept (kept_offAccess _ _)

theorem windowAccess_applied (a : Nat) (v : Word) (s : State) : (windowAccess a v s).clk.applied = s.clk.applied := by
  unfold windowAccess
  split
  · rfl
  · exact applied_of_ite
      (fun _ => applied_of_ite (fun _ => applied_of_kept (kept_windowWrite _)) fun _ =>
        applied_of_ite (fun _ => applied_of_kept (kept_canRamWrite _ _ _ _)) fun _ =>
        applied_of_ite (fun _ => rfl) fun _ => rfl)
      fun _ => applied_of_kept (kept_offAccess _ _)

theorem busWrite_applied (req : Requester) (a size : Nat) (v : Word) (s : State) :
    (busWrite req a size v s).clk.applied = s.clk.applied := by
  unfold busWrite
  exact applied_of_ite
    (fun _ => applied_of_ite
      (fun _ => applied_of_ite (fun _ => pageAccess_applied _ _ _ _ _) fun _ => windowAccess_applied _ _ _)
      fun _ => applied_of_kept (kept_droppedWrite _ _))
    fun _ => applied_of_clk (memStore_clk _ _ _ _)

theorem writeWords_applied (a : Nat) (l : List Word) (s : State) :
    (writeWords a l s).clk.applied = s.clk.applied := by
  induction l generalizing a s with
  | nil => rfl
  | cons w r ih => exact (ih _ _).trans (busWrite_applied _ _ _ _ _)

theorem readWords_applied (a n : Nat) (s : State) : (readWords a n s).1.clk.applied = s.clk.applied := by
  induction n generalizing a s with
  | zero => rfl
  | succ n ih => exact (ih _ _).trans (applied_of_kept (kept_busRead _ _ _ _))

/-! The host port (R381 to R384). -/

@[simp] theorem hostSelect_clk (usb low : Bool) (s : State) : (hostSelect usb low s).clk = s.clk := by
  simp [hostSelect]

@[simp] theorem hostAnswer_clk (st : Byte) (s : State) : (hostAnswer st s).clk = s.clk := rfl

@[simp] theorem hostRefuse_clk (st : Byte) (s : State) : (hostRefuse st s).clk = s.clk := rfl

theorem hostReadNow_applied (usb : Bool) (command : Byte) (addr : Word) (s : State) :
    (hostReadNow usb command addr s).clk.applied = s.clk.applied := by
  simp [hostReadNow, readWords_applied]

theorem hostResume_applied (s : State) : (hostResume s).clk.applied = s.clk.applied := by
  unfold hostResume
  exact applied_foldl _ (fun s (x : Bool × Byte × Word) => hostReadNow_applied x.1 x.2.1 x.2.2 s) _ _

theorem hostTransaction_applied (usb : Bool) (command : Byte) (addr : Word) (sent : List Byte) (crc : Byte) (kind : Nat)
    (run : State → State) (s : State) (h : (run s).clk.applied = s.clk.applied) :
    (hostTransaction usb command addr sent crc kind run s).clk.applied = s.clk.applied := by
  simp [hostTransaction, hostCrcError, h]

end Sys2Proof.Machine
end

section
/-! No command but a boundary, a standby's re-phasing and the loss of all power moves the applied correction (R14): what each
command's meaning does to it. -/

namespace Sys2Proof.Machine

/-- `o` goes on to a state whose applied correction is that of `s`. -/
def AppliedStands (s : State) (o : Out) : Prop := ∃ t, o = .next t ∧ t.clk.applied = s.clk.applied

theorem AppliedStands.of_eq {s t : State} (h : t.clk.applied = s.clk.applied) : AppliedStands s (.next t) := ⟨t, rfl, h⟩

theorem AppliedStands.of_kept {s t : State} (h : kept t = kept s) : AppliedStands s (.next t) := .of_eq (applied_of_kept h)

theorem AppliedStands.of_slotWord {s : State} {e cls : Nat} {own : Option (Nat × Nat)} {w : SlotWord} {f : State → State}
    (h : ∀ s, kept (f s) = kept s) : AppliedStands s (.next (slotWord e cls own w f s)) :=
  .of_kept (kept_slotWord e cls own w f s h)

/-! Operations that several commands share. -/

@[simp] theorem ucSticky_applied (n bit : Nat) (s : State) : (ucSticky n bit s).clk.applied = s.clk.applied :=
  applied_of_kept (kept_ucSticky n bit s)

@[simp] theorem liEvent_applied (n code detail : Nat) (s : State) :
    (liEvent n code detail s).clk.applied = s.clk.applied :=
  applied_of_kept (kept_liEvent n code detail s)

@[simp] theorem hartSend_applied (m b : Nat) (s : State) : (hartSend m b s).clk.applied = s.clk.applied :=
  applied_of_kept (kept_hartSend m b s)

@[simp] theorem calEvent_applied (code tile detail : Nat) (s : State) :
    (calEvent code tile detail s).clk.applied = s.clk.applied :=
  applied_of_kept (kept_calEvent code tile detail s)

@[simp] theorem updConv_applied (t c : Nat) (f : Converter → Converter) (s : State) :
    (updConv t c f s).clk.applied = s.clk.applied :=
  applied_of_kept (kept_updConv t c f s)

@[simp] theorem agedEvent_applied (before s : State) : (agedEvent before s).clk.applied = s.clk.applied :=
  applied_of_kept (kept_agedEvent before s)

@[simp] theorem setLstat_applied (op : Nat) (f : Fail) (s : State) : (setLstat op f s).clk.applied = s.clk.applied :=
  applied_of_kept (kept_setLstat op f s)

@[simp] theorem digEvent_applied (k code detail : Nat) (s : State) :
    (digEvent k code detail s).clk.applied = s.clk.applied :=
  applied_of_kept (kept_digEvent k code detail s)

@[simp] theorem digSticky_applied (k bit : Nat) (s : State) : (digSticky k bit s).clk.applied = s.clk.applied :=
  applied_of_kept (kept_digSticky k bit s)

@[simp] theorem setResp_applied (l : List Word) (s : State) : (setResp l s).clk.applied = s.clk.applied :=
  applied_of_kept (kept_setResp l s)

@[simp] theorem updStreet_applied (b : Bool) (f : Street → Street) (s : State) :
    (updStreet b f s).clk.applied = s.clk.applied :=
  applied_of_kept (kept_updStreet b f s)

@[simp] theorem judgePeerLost_applied (s : State) : (judgePeerLost s).clk.applied = s.clk.applied :=
  applied_of_kept (kept_judgePeerLost s)

@[simp] theorem linkEvent_applied (s : State) : (linkEvent s).clk.applied = s.clk.applied :=
  applied_of_kept (kept_linkEvent s)

@[simp] theorem ethCount_applied (p j : Nat) (s : State) : (ethCount p j s).clk.applied = s.clk.applied :=
  applied_of_kept (kept_ethCount p j s)

@[simp] theorem ethSend_applied (p : Nat) (b : List Byte) (s : State) : (ethSend p b s).clk.applied = s.clk.applied :=
  applied_of_kept (kept_ethSend p b s)

@[simp] theorem canJudge_applied (n : Nat) (s : State) : (canJudge n s).clk.applied = s.clk.applied :=
  applied_of_kept (kept_canJudge n s)

@[simp] theorem endBox_applied (n b st : Nat) (s : State) : (endBox n b st s).clk.applied = s.clk.applied :=
  applied_of_kept (kept_endBox n b st s)

@[simp] theorem canState_applied (n : Nat) (st : BitVec 2) (s : State) :
    (canState n st s).clk.applied = s.clk.applied :=
  applied_of_kept (kept_canState n st s)

@[simp] theorem wearJudge_applied (s : State) : (wearJudge s).clk.applied = s.clk.applied :=
  applied_of_kept (kept_wearJudge s)

@[simp] theorem journalServe_applied (s : State) : (journalServe s).clk.applied = s.clk.applied :=
  applied_of_kept (kept_journalServe s)

@[simp] theorem startWhole_applied (s : State) : (startWhole s).clk.applied = s.clk.applied :=
  applied_of_kept (kept_startWhole s)

@[simp] theorem beginRun_applied (k : Nat) (r : Rect) (fast : Bool) (pix : List Byte) (s : State) :
    (beginRun k r fast pix s).clk.applied = s.clk.applied :=
  applied_of_kept (kept_beginRun k r fast pix s)

@[simp] theorem panelEvent_applied (code k detail : Nat) (s : State) :
    (panelEvent code k detail s).clk.applied = s.clk.applied :=
  applied_of_kept (kept_panelEvent code k detail s)

@[simp] theorem supEvent_applied (code detail : Nat) (s : State) :
    (supEvent code detail s).clk.applied = s.clk.applied :=
  applied_of_kept (kept_supEvent code detail s)

@[simp] theorem takeOver_applied (c : Nat) (s : State) : (takeOver c s).clk.applied = s.clk.applied :=
  congrArg Kept.applied (kept_takeOver c s)

@[simp] theorem pd1Hold_applied (c : Nat) (s : State) : (pd1Hold c s).clk.applied = s.clk.applied :=
  congrArg Kept.applied (kept_pd1Hold c s)

@[simp] theorem raiseClaim_applied (e : Half) (s : State) : (raiseClaim e s).clk.applied = s.clk.applied :=
  congrArg Kept.applied (kept_raiseClaim e s)

@[simp] theorem peerShows_applied (c : Half) (s : State) : (peerShows c s).clk.applied = s.clk.applied :=
  congrArg Kept.applied (kept_peerShows c s)

@[simp] theorem gatesClose_applied (s : State) : (gatesClose s).clk.applied = s.clk.applied :=
  congrArg Kept.applied (kept_gatesClose s)

@[simp] theorem roleConflict_applied (p : Role) (s : State) : (roleConflict p s).clk.applied = s.clk.applied := by
  simp [roleConflict]

@[simp] theorem peerClaim_applied (c : Half) (s : State) : (peerClaim c s).clk.applied = s.clk.applied := by
  obtain ⟨h, _⟩ | h | h := kept_peerClaim c s
  all_goals exact (congrArg Kept.applied h).trans rfl

/-! Commands whose meaning chooses more than once by what State holds. -/

theorem execCanFrameReceive_stands (n : Fin 4) (f : CanFrame) (s : State) : AppliedStands s (execCanFrameReceive n f s) := by
  refine .of_eq ?_
  split
  · extract_lets s1
    have h : s1.clk.applied = s.clk.applied := by
      dsimp only [s1]
      split <;> simp [applied_of_kept (kept_storeBox _ _ _ _), applied_of_kept (kept_storeQueue _ _ _ _)]
    clear_value s1
    simp +zetaDelta [h]
  · rfl

theorem execCommitDone_stands (day : Half) (s : State) : AppliedStands s (execCommitDone day s) := by
  refine .of_eq ?_
  split
  · refine applied_of_ite (fun _ => ?_) fun _ => rfl
    simp [clk_foldl _ (fun s t => updTileCal_clk t _ s), applied_of_kept (kept_predict _ _ _),
      applied_of_kept (kept_closeSession _)]
  · rfl

theorem execEthFrameTransmit_stands (p : Fin 2) (s : State) : AppliedStands s (execEthFrameTransmit p s) := by
  refine .of_eq (applied_of_ite (fun _ => ?_) fun _ => rfl)
  split <;> simp [updRing]

theorem execHartTransactionStart_stands (m : Fin 8) (s : State) : AppliedStands s (execHartTransactionStart m s) := by
  refine .of_eq ?_
  split
  · split <;> simp
  · rfl

theorem execIcuSourceOccurrence_stands (src : IcuId) (s : State) : AppliedStands s (execIcuSourceOccurrence src s) := by
  refine .of_eq (applied_of_ite (fun _ => ?_) fun _ => rfl)
  split <;> simp [applied_of_kept (kept_icuArrive _ _)]

theorem execLoadPlanDone_stands (s : State) : AppliedStands s (execLoadPlanDone s) := by
  refine .of_eq ?_
  split
  · refine applied_of_ite (fun _ => ?_) fun _ => rfl
    dsimp only
    split <;> simp
  · rfl

theorem execVerifyDone_stands (s : State) : AppliedStands s (execVerifyDone s) := by
  refine .of_eq ?_
  split
  · refine applied_of_ite (fun _ => ?_) fun _ => rfl
    dsimp only
    split <;> simp
  · rfl

theorem execUpdateVerifyDone_stands (safety peer : Bool) (s : State) :
    AppliedStands s (execUpdateVerifyDone safety peer s) := by
  refine .of_eq (applied_of_ite (fun _ => ?_) fun _ => ?_)
  all_goals split <;> simp [applied_of_kept (kept_endUpdateVerify _ _ _ _)]

theorem execLogReady_stands (bad : List (Fin 5 × Word × Nat)) (s : State) : AppliedStands s (execLogReady bad s) := by
  refine .of_eq (applied_of_ite (fun _ => ?_) fun _ => rfl)
  simp [clk_foldl _ (fun s p => updPart_clk p _ s), applied_of_kept (kept_trendSpoil _),
    applied_of_kept (kept_discardPages _ _ _)]

theorem execPanelCopyDone_stands (k : Fin 34) (s : State) : AppliedStands s (execPanelCopyDone k s) := by
  refine .of_eq (applied_of_ite (fun _ => ?_) fun _ => rfl)
  split <;> simp

theorem execPanelUpdateDone_stands (k : Fin 34) (s : State) : AppliedStands s (execPanelUpdateDone k s) := by
  refine .of_eq (applied_of_ite (fun _ => ?_) fun _ => rfl)
  split <;> simp [applied_of_kept (kept_wholeDone _), applied_of_kept (kept_showRun _ _),
    applied_of_kept (kept_areaDone _ _ _)]

/-! Every command. -/

theorem exec_appliedStands (c : Instr) (s : State) (hb : ∀ refs trim, c ≠ .courseBoundary refs trim)
    (hr : ∀ cn wi o, c ≠ .standbyRephase cn wi o) (hx : c ≠ .holdupExhausted) : AppliedStands s (exec c s) := by
  cases c with
  | courseBoundary refs trim => exact absurd rfl (hb refs trim)
  | endList => exact .of_eq (by simp [applied_of_kept (kept_updEngine _ _ _)])
  | idle => exact .of_slotWord (fun _ => rfl)
  | move => exact .of_slotWord (fun s => kept_cellSet _ _ _ _)
  | recWrite => exact .of_slotWord (fun s => kept_recWord _ _)
  | fetch => exact .of_slotWord (fun s => by split <;> simp only [kept_fetchWord, kept_fetchDigital])
  | filter => exact .of_slotWord (fun s => kept_filterWord _ _ _)
  | lin => exact .of_slotWord (fun s => kept_linWord _ _ _)
  | linsum => exact .of_slotWord (fun s => kept_linsumWord _ _ _)
  | char => exact .of_slotWord (fun s => kept_charWord _ _ _)
  | cvt => exact .of_slotWord (fun s => kept_cvtWord _ _ _)
  | tilecmdRotation => exact .of_slotWord (fun s => kept_rotationOrder _ _ _ _)
  | tilecmdOpenTest => exact .of_slotWord (fun s => by simp only [kept_ite, kept_updInp, ite_self])
  | hart => exact .of_slotWord (fun s => kept_hartAdvance _ _)
  | cmp => exact .of_slotWord (fun s => kept_cmpWord _ _)
  | rate => exact .of_slotWord (fun s => kept_rateWord _ _)
  | delay => exact .of_slotWord (fun s => kept_delayWord _ _)
  | onDelayConfirmed => exact .of_eq (by simp [applied_of_kept (kept_onConfirmed _ _ _)])
  | offDelayConfirmed => exact .of_eq (by simp [applied_of_kept (kept_offConfirmed _ _ _)])
  | faultDelayConfirmed => exact .of_eq (by simp [applied_of_kept (kept_faultConfirmed _ _ _)])
  | logic => exact .of_slotWord (fun s => kept_logicWord _ _)
  | group => exact .of_slotWord (fun s => kept_groupWord _ _)
  | call => exact .of_slotWord (fun s => by split <;> simp only [kept_callWord, kept_watchWord])
  | callStage1 => exact .of_eq (by simp [applied_of_kept (kept_callStage1 _ _)])
  | callStage2 => exact .of_eq (by simp [applied_of_kept (kept_callStage2 _ _)])
  | callXferFail => exact .of_eq (by simp [applied_of_kept (kept_xferFails _ _)])
  | watchStage2 => exact .of_eq (by simp [applied_of_kept (kept_watchStage2 _)])
  | out => exact .of_slotWord (fun s => kept_outWord _ _ _)
  | courseOverrun => exact .of_kept (kept_courseOverrun _)
  | forceSet => exact .of_eq (by simp [applied_of_kept (kept_forceSet _)])
  | sampleReady => exact .of_kept (kept_sampleReady _ _ _)
  | laneStale => exact .of_eq (by split <;> simp)
  | hartTransactionStart => exact execHartTransactionStart_stands _ _
  | hartRt1Expiry => exact .of_kept (kept_hartFail _ _ _)
  | hartRetry => exact .of_eq (by split <;> simp)
  | hartResponse => exact .of_eq (by split <;> simp [applied_of_kept (kept_hartFail _ _ _)])
  | submit => exact .of_kept (kept_submitCmd _ _ _)
  | hartCancel => exact .of_kept (kept_hartCancel _ _ _)
  | release => exact .of_kept (kept_hartRelease _ _ _)
  | hartDescWrite => exact .of_kept (kept_hartDescWrite _ _ _ _)
  | rotationStepEnd =>
    exact .of_eq (by split <;> simp [applied_of_kept (kept_calibrate _ _ _ _ _), applied_of_kept (kept_endTurn _ _ _),
      applied_of_kept (kept_setSpare _ _ _ _)])
  | sessionOpen => exact .of_kept (kept_sessionOpen _ _ _)
  | measure => exact .of_kept (kept_measureCmd _ _ _)
  | measureDone => exact .of_eq (by simp [applied_of_kept (kept_setPoint _ _ _)])
  | commit => exact .of_kept (kept_commitCmd _ _ _)
  | commitDone => exact execCommitDone_stands _ _
  | sessionClose => exact .of_kept (kept_sessionClose _ _ _)
  | loadPlan => exact .of_kept (kept_loadPlan _ _ _)
  | loadPlanDone => exact execLoadPlanDone_stands _
  | stopPlan => exact .of_kept (kept_stopPlan _ _ _)
  | updateDistrict => exact .of_kept (kept_updateDistrict _ _ _)
  | updateVerifyDone => exact execUpdateVerifyDone_stands _ _ _
  | abortUpdate => exact .of_kept (kept_abortUpdate _ _ _)
  | verify => exact .of_kept (kept_verifyCmd _ _ _)
  | verifyDone => exact execVerifyDone_stands _
  | erase => exact .of_kept (kept_eraseCmd _ _ _)
  | program => exact .of_kept (kept_programCmd _ _ _)
  | norDone => exact .of_eq (by simp [hostResume_applied])
  | planArchive => exact .of_eq (by split <;> simp [applied_of_kept (kept_archiveImage _ _)])
  | clearPeak => exact .of_kept (kept_clearPeakCmd _ _ _)
  | channelMaint => exact .of_kept (kept_channelMaint _ _ _ _)
  | openTest => exact .of_kept (kept_openTest _ _ _ _)
  | tileRestart => exact .of_kept (kept_tileRestart _ _ _ _)
  | tileRestartDone =>
    exact .of_eq (by simp [applied_of_kept (kept_convsBack _ _), applied_of_kept (kept_tileRegs _ _)])
  | channelCfgWrite =>
    exact .of_eq (by simp [applied_of_kept (kept_ucCfgWrite _ _ _), applied_of_kept (kept_liCfgWrite _ _ _)])
  | digitalCfgWrite => exact .of_kept (kept_digCfgWrite _ _ _)
  | outputTestWrite =>
    exact .of_eq (by simp [applied_of_kept (kept_ucOctlWrite _ _ _), applied_of_kept (kept_dioOctlWrite _ _ _)])
  | debounceComplete => exact .of_eq (by simp [raiseEvAt])
  | outReset => exact .of_kept (kept_outReset _ _ _)
  | relearn => exact .of_kept (kept_relearn _ _ _)
  | ackPoint => exact .of_kept (kept_alarmCmd _ _ _ _)
  | ackGroup => exact .of_kept (kept_alarmCmd _ _ _ _)
  | ackAll => exact .of_kept (kept_alarmCmd _ _ _ _)
  | silence => exact .of_kept (kept_alarmCmd _ _ _ _)
  | inhibit => exact .of_kept (kept_alarmCmd _ _ _ _)
  | resetFirstOut => exact .of_kept (kept_alarmCmd _ _ _ _)
  | setDuty => exact .of_kept (kept_callCmd _ _ _ _)
  | watchEnable => exact .of_kept (kept_callCmd _ _ _ _)
  | watchReset => exact .of_kept (kept_callCmd _ _ _ _)
  | squarePin => exact .of_kept (kept_squarePin _ _ _)
  | squareWindowRead => exact .of_eq (by simp [applied_of_kept (kept_windowReadN _ _ _ _)])
  | squareWindowWrite => exact .of_kept (kept_windowWrite _)
  | icuSourceOccurrence => exact execIcuSourceOccurrence_stands _ _
  | icuSwi => exact .of_kept (kept_icuSwi _ _ _)
  | icuClaim => exact .of_kept (kept_icuClaimRead _ _ _)
  | icuEoi => exact .of_kept (kept_icuEoi _ _ _ _)
  | icuTiersWrite => exact .of_kept (kept_icuTiersWrite _ _ _)
  | icuSrcCfgWrite => exact .of_kept (kept_icuSrcCfgWrite _ _ _ _)
  | eventRecordArrival => exact .of_eq (by split <;> simp)
  | evqPop => exact .of_kept (kept_evqPop _ _ _ _)
  | evqDisable => exact .of_kept (kept_evqCtlWrite _ _ _)
  | heartbeatReceive => exact .of_eq (by simp [applied_of_kept (kept_peerSeen _ _)])
  | epochRenumber => exact .of_eq (by simp [applied_of_kept (kept_epochMarkers _ _ _)])
  | standbyRephase cn wi offset => exact absurd rfl (hr cn wi offset)
  | switchover => exact .of_kept (kept_switchover _ _ _)
  | clearCounts => exact .of_kept (kept_clearCounts _ _ _)
  | updateSafetyDistrict => exact .of_kept (kept_updateSafety _ _ _)
  | releaseLane => exact .of_kept (kept_releaseCmd _ _ _ _)
  | restoreLane => exact .of_kept (kept_restoreCmd _ _ _ _)
  | releaseOutput => exact .of_kept (kept_releaseCmd _ _ _ _)
  | restoreOutput => exact .of_kept (kept_restoreCmd _ _ _ _)
  | resetLane => exact .of_kept (kept_resetLane _ _ _)
  | forceReset => exact .of_kept (kept_forceResetCmd _ _ _)
  | releaseLapsed => exact .of_eq (by split <;> simp)
  | pd1Restart => exact .of_eq (by simp [applied_of_kept (kept_domEvent _), applied_of_kept (kept_pd1Up _)])
  | ethFrameReceive => exact .of_eq (by simp [ethAccept_clk])
  | ethFrameTransmit => exact execEthFrameTransmit_stands _ _
  | ethCfgWrite => exact .of_kept (kept_ethCfgWrite _ _ _)
  | ethQueueCtlWrite => exact .of_kept (kept_ethCtlWrite _ _ _ _)
  | ptpSet => exact .of_kept (kept_ptpAsk _ _ _ _)
  | ptpStep => exact .of_kept (kept_ptpAsk _ _ _ _)
  | ptpNowRead => exact .of_eq (by simp [applied_of_kept (kept_ptpNowRead _ _)])
  | ptpValidExpiry => exact .of_eq (by simp [applied_of_kept (kept_ptpValid _ _)])
  | canFrameReceive => exact execCanFrameReceive_stands _ _ _
  | canSend => exact .of_kept (kept_canSend _ _ _)
  | canWithdraw => exact .of_kept (kept_canWithdraw _ _ _)
  | canFrameSent => exact .of_eq (by split <;> simp)
  | canTxError => exact .of_eq (by split <;> simp)
  | canQueueFree => exact .of_kept (kept_canFree _ _ _ _)
  | canCfgWrite => exact .of_kept (kept_canCfgWrite _ _ _ _)
  | canMsgramWrite => exact .of_kept (kept_canRamWrite _ _ _ _)
  | hostRead => exact .of_eq (hostTransaction_applied _ _ _ _ _ _ _ _ (by simp [hostReadNow_applied]))
  | hostWrite =>
    exact .of_eq (applied_of_ite (fun _ => rfl) fun _ =>
      hostTransaction_applied _ _ _ _ _ _ _ _ (by simp [writeWords_applied]))
  | append => exact .of_kept (kept_appendLog _ _ _)
  | logRead => exact .of_eq (applied_of_clk (readLog_clk _ _ _ s))
  | capture => exact .of_kept (kept_captureCmd _ _ _)
  | captureComplete => exact .of_eq (by split <;> simp [applied_of_kept (kept_logEvent _ _ _ _)])
  | trendRecord => exact .of_kept (kept_trendEnd _)
  | logCommit => exact .of_eq (by simp [applied_of_kept (kept_commitItems _ _ _)])
  | logBlockFailure => exact .of_eq (by simp [applied_of_kept (kept_logFault _ _ _)])
  | logReady => exact execLogReady_stands _ _
  | panelUpdate => exact .of_kept (kept_panelUpdate _ _ _)
  | panelCancel => exact .of_kept (kept_panelCancel _ _ _)
  | clearPanel => exact .of_kept (kept_clearPanel _ _ _)
  | panelCopyDone => exact execPanelCopyDone_stands _ _
  | panelUpdateDone => exact execPanelUpdateDone_stands _ _
  | crackLoopMeasure =>
    exact .of_eq (by simp [applied_of_kept (kept_dropAllPend _), clk_foldl _ (fun s k => updArea_clk k _ s)])
  | supplyLoss => exact .of_eq (by simp [applied_of_kept (kept_panelLoss _), applied_of_kept (kept_netReset _)])
  | domainOff => exact .of_kept (kept_domainCmd _ _ _ _)
  | domainOn => exact .of_kept (kept_domainCmd _ _ _ _)
  | domainSwitchDone => exact .of_eq (by split <;> simp)
  | reset => exact .of_kept (kept_resetCmd _ _ _)
  | coreReset => exact .of_eq (applied_of_clk (coreReset_clk _ _ s))
  | registerWrite => exact .of_eq (by simp [busWrite_applied])
  | holdupExhausted => exact absurd rfl hx
  | _ => exact .of_eq (by simp)

end Sys2Proof.Machine
end

section
/-! CLK_DISC (R14): what a write leaves, and what a read shows. -/

namespace Sys2Proof.Machine

/-- The state a write of `value` to CLK_DISC leaves, but for its count. -/
def clkDiscSet (value : Word) (s : State) : State :=
  { s with
    clk.en := bitAt value 16
    clk.trim := max (-5000) (min 5000 (BitVec.ofNat 16 (fld value 0 16)).toInt)
    clk.holdover := false, clk.trimAge := 0 }

theorem exec_clkDisc (req : Requester) (value : Word) {s : State} (ht : PageTakes s 2) :
    exec (.registerWrite req 0x40002044 2 value) s = .next (countWrite 2 (clkDiscSet value s)) := by
  have h : busWrite req 0x40002044 4 value s = clkDiscWrite value s :=
    busWrite_page (p := 2) (off := 0x44) req value (by omega) (by omega) (by omega) ht (by decide)
  have hw : clkDiscWrite value s = countWrite 2 (clkDiscSet value s) := pageWrite_takes ht _
  exact congrArg Host.Outcome.next (h.trans hw)

/-- TRIM reads back as it stands. -/
theorem regWord_trim (req : Requester) (s : State) :
    BitVec.ofNat 16 (fld (regWord req s 2 0x44) 0 16) = BitVec.ofInt 16 s.clk.trim := by
  have h : regWord req s 2 0x44 = pack 32 [(16, b2n s.clk.en), (0, (BitVec.ofInt 16 s.clk.trim).toNat)] := rfl
  have hb : b2n s.clk.en < 2 := by cases s.clk.en <;> decide
  have hv := (BitVec.ofInt 16 s.clk.trim).isLt
  rw [h]
  apply BitVec.eq_of_toNat_eq
  simp only [pack, fld, List.foldl, BitVec.toNat_ofNat]
  omega

/-- Settles O37: no other command moves the correction, a disciplined boundary moves it one step, and a write of CLK_DISC
clamps TRIM. -/
theorem clockCorrection : Obligations.ClockCorrection := by
  refine ⟨fun c s hb hr hx => exec_appliedStands c s hb hr hx, fun refs trim s he hh => ?_, fun req value s ht => ?_⟩
  · exact ⟨_, rfl, (courseBoundary_applied refs trim s).trans (clockBoundary_applied he hh)⟩
  · intro v
    have hclk : (countWrite 2 (clkDiscSet value s)).clk.trim = max (-5000) (min 5000 v) := rfl
    refine ⟨_, exec_clkDisc req value ht, rfl, fun h => ?_, fun h => ?_, fun hl hu => ?_, regWord_trim req _, rfl,
      hdr_countWrite_same 2 _, fun q hq => hdr_countWrite_other 2 _ hq, rfl⟩
    all_goals rw [hclk]; omega

end Sys2Proof.Machine
end

section
/-! The COURSE block under the shared operations: `f_course` says that operation `f` leaves the whole block as it is,
`f_peaks` that of what it writes there nothing is a peak or an accepted CLEAR_PEAK (R87).  An operation that is used once
is unfolded where it is used. -/

namespace Sys2Proof.Machine

/-- The peak of each engine and an accepted CLEAR_PEAK (R72, R87). -/
def CourseBlk.peaks (c : CourseBlk) : Half × Half × Bool := (c.e0.peak, c.e1.peak, c.clearPeak)

/-- What else an update of the block writes, the peaks do not see. -/
@[simp] theorem peaks_mk (cn wi run e0 e1 faulted prevFaulted fltEngine fltWi fltPos fltCause faultCn faultSeen ecc1
    faults clearPeak latch snap prevIn ctx dioLatch dioHeld ucLatch ucHeld pulses) :
    (CourseBlk.mk cn wi run e0 e1 faulted prevFaulted fltEngine fltWi fltPos fltCause faultCn faultSeen ecc1
      faults clearPeak latch snap prevIn ctx dioLatch dioHeld ucLatch ucHeld pulses).peaks
      = (e0.peak, e1.peak, clearPeak) := rfl

@[simp] theorem peaks_fold (c : CourseBlk) : (c.e0.peak, c.e1.peak, c.clearPeak) = c.peaks := rfl

/-! Choices and repetitions. -/

@[simp] theorem course_ite (c : Prop) [Decidable c] (a b : State) :
    (if c then a else b).course = if c then a.course else b.course := apply_ite _ _ _ _

@[simp] theorem course_dite (c : Prop) [Decidable c] (a : c → State) (b : ¬ c → State) :
    (if h : c then a h else b h).course = if h : c then (a h).course else (b h).course := apply_dite _ _ _ _

@[simp] theorem peaks_ite (c : Prop) [Decidable c] (a b : CourseBlk) :
    (if c then a else b).peaks = if c then a.peaks else b.peaks := apply_ite _ _ _ _

/-- A part of the block that one step leaves, any number of steps leaves. -/
theorem part_foldl {α β : Type} (π : CourseBlk → β) (g : State → α → State) (h : ∀ s x, π (g s x).course = π s.course)
    (l : List α) (s : State) : π (l.foldl g s).course = π s.course :=
  List.foldlRecOn (motive := fun t => π t.course = π s.course) l g rfl fun t ht x _ => (h t x).trans ht

theorem part_iterate {β : Type} (π : CourseBlk → β) (g : State → State) (h : ∀ s, π (g s).course = π s.course) (n : Nat)
    (s : State) : π (iterate g n s).course = π s.course := by
  induction n generalizing s with
  | zero => rfl
  | succ n ih => exact (ih (g s)).trans (h s)

@[simp] theorem course_foldl {α : Type} (g : State → α → State) (h : ∀ s x, (g s x).course = s.course) (l : List α)
    (s : State) : (l.foldl g s).course = s.course := part_foldl id g h l s

@[simp] theorem peaks_foldl {α : Type} (g : State → α → State) (h : ∀ s x, (g s x).course.peaks = s.course.peaks)
    (l : List α) (s : State) : (l.foldl g s).course.peaks = s.course.peaks := part_foldl _ g h l s

@[simp] theorem course_iterate (g : State → State) (h : ∀ s, (g s).course = s.course) (n : Nat) (s : State) :
    (iterate g n s).course = s.course := part_iterate id g h n s

@[simp] theorem peaks_iterate (g : State → State) (h : ∀ s, (g s).course.peaks = s.course.peaks) (n : Nat) (s : State) :
    (iterate g n s).course.peaks = s.course.peaks := part_iterate _ g h n s

/-! Events, page headers and commands. -/

@[simp] theorem raiseEv_course (cls code source : Nat) (data : BitVec 96) (s : State) :
    (raiseEv cls code source data s).course = s.course := by simp [raiseEv]

@[simp] theorem blockEv_course (page code data : Nat) (s : State) : (blockEv page code data s).course = s.course := by
  simp [blockEv]

@[simp] theorem setSticky_course (p bit : Nat) (s : State) : (setSticky p bit s).course = s.course := rfl

@[simp] theorem finishCmd_course (p : Nat) (st : CStat) (result : Nat) (s : State) :
    (finishCmd p st result s).course = s.course := by
  cases st
  case state => unfold finishCmd; dsimp only; split <;> simp
  all_goals rfl

@[simp] theorem endIfRunning_course (p op : Nat) (st : CStat) (result : Nat) (s : State) :
    (endIfRunning p op st result s).course = s.course := by
  unfold endIfRunning
  split <;> simp

/-- A page's command ends, or goes on running, with the block as its own work left it. -/
theorem ended_course {e : CmdEnd} {s : State} (p : Nat) (h : e.after.course = s.course) :
    (match e with
      | .done st res t => finishCmd p st res t
      | .hold t => t).course = s.course := by
  cases e with
  | done st res t => exact (finishCmd_course p st res t).trans h
  | hold t => exact h

theorem runHeld_course (page : Nat) (apply : Nat → BitVec 24 → Requester → State → CmdEnd) (s : State)
    (h : ∀ op arg req, (apply op arg req s).after.course = s.course) : (runHeld page apply s).course = s.course := by
  unfold runHeld
  split
  · exact ended_course page (h _ _ _)
  · rfl

/-! Outputs, gates and the claim (ch. 05, 10, 12, 13). -/

@[simp] theorem ucResolve_course (n : Nat) (s : State) : (ucResolve n s).course = s.course := by
  unfold ucResolve
  dsimp only
  split
  · split
    · rfl
    · split <;> rfl
  · rfl

@[simp] theorem dioResolve_course (n : Nat) (s : State) : (dioResolve n s).course = s.course := by
  simp [dioResolve]

@[simp] theorem inrushBudget_course (s : State) : (inrushBudget s).course = s.course := rfl

@[simp] theorem tripUpdate_course (s : State) : (tripUpdate s).course = s.course := by
  simp [tripUpdate, tripDrive]

@[simp] theorem coupleModem_course (m : Nat) (count : Bool) (s : State) :
    (coupleModem m count s).course = s.course := by
  simp [coupleModem]

@[simp] theorem hartDone_course (b result : Nat) (s : State) : (hartDone b result s).course = s.course := by
  simp [hartDone]

@[simp] theorem hartNoTurn_course (s : State) : (hartNoTurn s).course = s.course := by
  simp [hartNoTurn]

@[simp] theorem hartEnd_course (m b result : Nat) (s : State) : (hartEnd m b result s).course = s.course := by
  simp [hartEnd]

@[simp] theorem hartAbort_course (p : Nat → Bool) (queued : Bool) (s : State) :
    (hartAbort p queued s).course = s.course := by
  unfold hartAbort
  extract_lets s1
  have h : s1.course = s.course := by
    refine course_foldl _ (fun s m => ?_) _ _
    split <;> simp
  simp [h]

@[simp] theorem hartAdvance_course (m : Nat) (s : State) : (hartAdvance m s).course = s.course := by
  simp [hartAdvance]

@[simp] theorem hartRegate_course (s : State) : (hartRegate s).course = s.course := by
  simp [hartRegate]

@[simp] theorem canGates_course (takeover : Bool) (s : State) : (canGates takeover s).course = s.course := by
  simp [canGates, canEndAll, canSticky]

@[simp] theorem gatesApply_course (s : State) : (gatesApply s).course = s.course := by
  simp [gatesApply, gatesApplyUc]

@[simp] theorem gatesOpen_course (s : State) : (gatesOpen s).course = s.course := by
  simp [gatesOpen]

@[simp] theorem dropClaim_course (s : State) : (dropClaim s).course = s.course := by
  simp [dropClaim]

@[simp] theorem redEvent_course (code detail : Nat) (s : State) : (redEvent code detail s).course = s.course := by
  simp [redEvent]

@[simp] theorem orderYield_course (cause : Nat) (s : State) : (orderYield cause s).course = s.course := by
  simp [orderYield]

@[simp] theorem becomeIdle_course (s : State) : (becomeIdle s).course = s.course := by
  simp [becomeIdle]

@[simp] theorem yieldNow_course (c : BitVec 3) (s : State) : (yieldNow c s).course = s.course := by
  simp [yieldNow, becomeStandby]

@[simp] theorem startElection_course (s : State) : (startElection s).course = s.course := by
  simp [startElection]

@[simp] theorem updInp_course (n : Nat) (f : UcIn → UcIn) (s : State) : (updInp n f s).course = s.course := rfl

@[simp] theorem abortOpenTest_course (n : Nat) (s : State) : (abortOpenTest n s).course = s.course := by
  simp [abortOpenTest]

@[simp] theorem settleUc_peaks (n : Nat) (s : State) : (settleUc n s).course.peaks = s.course.peaks := by
  simp [settleUc]

@[simp] theorem dropSamples_peaks (c : Nat) (s : State) : (dropSamples c s).course.peaks = s.course.peaks := rfl

@[simp] theorem updCtxOf_peaks (c : Nat) (f : ChanCtx → ChanCtx) (s : State) :
    (updCtxOf c f s).course.peaks = s.course.peaks := rfl

@[simp] theorem newSeries_peaks (c : Nat) (s : State) : (newSeries c s).course.peaks = s.course.peaks := by
  simp [newSeries]

@[simp] theorem loadPlanRegs_course (m : Nat) (s : State) : (loadPlanRegs m s).course = s.course := by
  simp [loadPlanRegs]

@[simp] theorem givePlanRegs_course (m : Nat) (s : State) : (givePlanRegs m s).course = s.course := by
  simp [givePlanRegs]

end Sys2Proof.Machine
end

section
/-! The COURSE block at a boundary: what ends a course leaves an accepted CLEAR_PEAK for the next one, which carries it
out as it begins, and nothing else of the boundary writes a peak (R72, R87). -/

namespace Sys2Proof.Machine

/-! The course that ends (R30, R73, R74, R76, R333). -/

@[simp] theorem faultCourse_peaks (e : Nat) (cause : BitVec 2) (s : State) :
    (faultCourse e cause s).course.peaks = s.course.peaks := by
  simp [faultCourse]

theorem courseOverrun_peaks (s : State) : (courseOverrun s).course.peaks = s.course.peaks := by
  simp [courseOverrun]

@[simp] theorem takeBuffer_course (s : State) : (takeBuffer s).course = s.course := rfl

@[simp] theorem ringPut_course (p : Nat) (mk : Word → List Byte) (s : State) : (ringPut p mk s).course = s.course := by
  simp [ringPut]

@[simp] theorem trendEnd_course (s : State) : (trendEnd s).course = s.course := by
  unfold trendEnd
  split <;> simp

@[simp] theorem squarePublish_course (s : State) : (squarePublish s).course = s.course := by
  unfold squarePublish
  split <;> simp [publish, trendGather]

theorem endCourse_peaks (s : State) : (endCourse s).course.peaks = s.course.peaks := by
  simp [endCourse]

theorem sendSync_course (s : State) : (sendSync s).course = s.course := by
  simp [sendSync, buildSync]

theorem syncMissed_course (s : State) : (syncMissed s).course = s.course := by
  simp [syncMissed]

/-! The peak of an engine that starts anew: cleared on CLEAR_PEAK, kept at the start of a plan. -/

@[simp] theorem engineStart_peak_clear (base : Nat) (ran : Bool) (x : Engine) : (engineStart base ran true x).peak = 0 := rfl

@[simp] theorem engineStart_peak_kept (base : Nat) (x : Engine) : (engineStart base false false x).peak = x.peak := rfl

/-- The course that begins finds an accepted CLEAR_PEAK carried out. -/
theorem nextCourse_peaks {s : State} (h : s.course.clearPeak = true) : (nextCourse s).course.peaks = (0, 0, false) := by
  simp [nextCourse, warmTick, wallEnd, h]

/-! Plans and districts (R46, R43, R54 to R60). -/

@[simp] theorem planEvent_course (code district gen count : Nat) (s : State) :
    (planEvent code district gen count s).course = s.course := by
  simp [planEvent]

@[simp] theorem showRestored_course (src : List (Nat × Bool × Nat)) (s : State) :
    (showRestored src s).course = s.course := by
  refine course_foldl _ (fun s x => ?_) _ _
  split <;> simp

@[simp] theorem initCall_course (s : State) : (initCall s).course = s.course := rfl

@[simp] theorem claimConfig_course (s : State) : (claimConfig s).course = s.course := by
  simp [claimConfig]

@[simp] theorem startPlan_peaks (b : Bool) (k : Nat) (src : List (Nat × Bool × Nat)) (s : State) :
    (startPlan b k src s).course.peaks = s.course.peaks := by
  simp [startPlan, reloadAll, freshStamps, course_foldl _ (fun s m => updModem_course m _ s)]

theorem startBoundary_peaks (s : State) : (startBoundary s).course.peaks = s.course.peaks := by
  unfold startBoundary
  split <;> simp

theorem stopBoundary_peaks (s : State) : (stopBoundary s).course.peaks = s.course.peaks := by
  unfold stopBoundary
  split <;> simp

theorem yieldBoundary_course (s : State) : (yieldBoundary s).course = s.course := by
  unfold yieldBoundary
  split <;> simp

/-! Alarms and the operator call (ch. 08). -/

@[simp] theorem raiseAlarm_course (p : Nat) (data : BitVec 96) (s : State) :
    (raiseAlarm p data s).course = s.course := by
  simp [raiseAlarm, capAlarm, capTrigger, journalTake]

@[simp] theorem alarmRecord_course (p : Nat) (old new : Half) (cause by_ : Nat) (s : State) :
    (alarmRecord p old new cause by_ s).course = s.course := by
  simp [alarmRecord]

@[simp] theorem alarmEvent_course (code group point : Nat) (s : State) :
    (alarmEvent code group point s).course = s.course := by
  simp [alarmEvent]

@[simp] theorem emptyFo_course (g : Nat) (s : State) : (emptyFo g s).course = s.course := by
  unfold emptyFo
  split <;> simp

@[simp] theorem updTab_course (t : Nat) (f : CallTab → CallTab) (s : State) : (updTab t f s).course = s.course := rfl

@[simp] theorem callEvent_course (code table detail : Nat) (s : State) :
    (callEvent code table detail s).course = s.course := by
  simp [callEvent]

@[simp] theorem setTab_course (t : Nat) (x : CallTab) (s : State) : (setTab t x s).course = s.course := by
  simp [setTab]

@[simp] theorem setPhase_course (ph : WatchPhase) (s : State) : (setPhase ph s).course = s.course := by
  simp [setPhase]

@[simp] theorem startWatch_course (s : State) : (startWatch s).course = s.course := by
  simp [startWatch]

@[simp] theorem applyWatch_course (on : Bool) (s : State) : (applyWatch on s).course = s.course := by
  simp [applyWatch]

@[simp] theorem setDuty_course (e : Nat) (s : State) : (setDuty e s).course = s.course := by
  simp [setDuty]

@[simp] theorem ackPoint_course (p cause by_ : Nat) (s : State) : (ackPoint p cause by_ s).1.course = s.course := by
  unfold ackPoint
  dsimp only
  split
  · split <;> simp [ptTo]
  · rfl

@[simp] theorem ackPoints_course (cause by_ : Nat) (l : List Nat) (s : State) :
    (ackPoints cause by_ l s).1.course = s.course :=
  List.foldlRecOn (motive := fun (a : State × Nat) => a.1.course = s.course) l _ rfl
    fun a ha p _ => (ackPoint_course p cause by_ a.1).trans ha

@[simp] theorem silenceAll_course (s : State) : (silenceAll s).1.course = s.course := by
  simp [silenceAll, course_foldl _ (fun s p => updPoint_course p _ s)]

theorem applyAlarmCmd_course (op : Nat) (arg : BitVec 24) (req : Requester) (s : State) :
    (applyAlarmCmd op arg req s).after.course = s.course := by
  unfold applyAlarmCmd
  extract_lets p g mask by_ s'
  split
  · rfl
  · split
    · rfl
    · split
      case h_6 =>
        split
        · rfl
        · split
          · rfl
          · split <;> simp [after_done]
      all_goals simp +zetaDelta [after_done]

theorem applyCallCmd_course (op : Nat) (arg : BitVec 24) (s : State) :
    (applyCallCmd op arg s).after.course = s.course := by
  unfold applyCallCmd
  extract_lets c mask e
  split
  · rfl
  · split
    · rfl
    · split <;> simp +zetaDelta [after_done]

theorem alarmBoundary_course (s : State) : (alarmBoundary s).course = s.course := by
  unfold alarmBoundary
  extract_lets s1 s2 b s3 s4 s5
  have h1 : s1.course = s.course := runHeld_course _ _ _ (fun op arg req => applyAlarmCmd_course op arg req s)
  have h2 : s2.course = s1.course := runHeld_course _ _ _ (fun op arg _ => applyCallCmd_course op arg s1)
  have h3 : s3.course = s2.course := by simp +zetaDelta [applyPresses]
  have h4 : s4.course = s3.course := by simp +zetaDelta
  have h5 : s5.course = s4.course := by
    dsimp only [s5]
    split <;> simp
  rw [updCall_course, h5, h4, h3, h2, h1]

theorem clearRose_course (s : State) : (clearRose s).course = s.course := by
  simp [clearRose]

theorem alarmCapture_course (s : State) : (alarmCapture s).course = s.course := by
  simp [alarmCapture, noSelector]

/-! Steps of a district update (R55 to R58). -/

@[simp] theorem endRelease_course (output : Bool) (n : Nat) (s : State) :
    (endRelease output n s).course = s.course := rfl

@[simp] theorem stepAna_peaks (c : Nat) (was : Bool) (s : State) : (stepAna c was s).course.peaks = s.course.peaks := by
  simp [stepAna]

@[simp] theorem stepDig_course (k : Nat) (was : Bool) (s : State) : (stepDig k was s).course = s.course := by
  simp [stepDig]

@[simp] theorem stepPoint_course (p : Nat) (old : Option (List Byte)) (oldWord : Half) (s : State) :
    (stepPoint p old oldWord s).course = s.course := by
  simp [stepPoint]

@[simp] theorem stepLane_course (n : Nat) (old : Option (List Byte)) (s : State) :
    (stepLane n old s).course = s.course := by
  simp [stepLane]

@[simp] theorem watchStep_course (was : Nat) (s : State) : (watchStep was s).course = s.course := by
  simp [watchStep]

@[simp] theorem eraseRecord_course (m : Nat) (s : State) : (eraseRecord m s).course = s.course := by
  simp [eraseRecord]

@[simp] theorem retirePoint_course (p : Nat) (oldWord : Half) (s : State) :
    (retirePoint p oldWord s).course = s.course := by
  simp [retirePoint]

@[simp] theorem retireTable_course (t : Nat) (s : State) : (retireTable t s).course = s.course := by
  simp [retireTable]

@[simp] theorem dropPanelPend_course (k : Nat) (s : State) : (dropPanelPend k s).course = s.course := by
  simp [dropPanelPend]

@[simp] theorem applyStep_peaks (d : DStep) (s : State) : (applyStep d s).course.peaks = s.course.peaks := by
  cases d with
  | apply e =>
    unfold applyStep
    dsimp only
    split <;> simp
  | retire ty t =>
    unfold applyStep
    dsimp only
    split
    · rfl
    · split <;> simp

theorem districtsBoundary_peaks (s : State) : (districtsBoundary s).course.peaks = s.course.peaks := by
  have h : ∀ n s, (stepDistrict n s).course.peaks = s.course.peaks := by
    intro n s
    unfold stepDistrict
    split <;> simp [completeUpdate]
  simp [districtsBoundary, h]

/-! The rest of the boundary up to the clock. -/

theorem ptpBoundary_course (s : State) : (ptpBoundary s).course = s.course := by
  simp [ptpBoundary]

@[simp] theorem evqArrive_course (e : EventRec) (s : State) : (evqArrive e s).course = s.course := by
  simp [evqArrive, evqReplace, evqNote]

theorem evqDrain_course (s : State) : (evqDrain s).course = s.course := by
  simp [evqDrain]

theorem loadSync_peaks (s : State) : (loadSync s).course.peaks = s.course.peaks := by
  have hl : ∀ (m : SyncMsg) (s : State), (loadLamps m s).course = s.course := by
    intro m s
    refine course_foldl _ (fun s n => ?_) _ _
    split <;> simp
  have ht : ∀ (m : SyncMsg) (s : State), (loadTurns m s).course = s.course := by
    intro m s
    refine course_foldl _ (fun s t => ?_) _ _
    simp
  unfold loadSync
  split <;> simp [hl, ht]

theorem maintBoundary_peaks (s : State) : (maintBoundary s).course.peaks = s.course.peaks := by
  simp [maintBoundary, enterMaint, leaveMaint]

theorem tilesBoundary_peaks (s : State) : (tilesBoundary s).course.peaks = s.course.peaks := by
  simp [tilesBoundary, tileTake, restartTile, abortTileTests]

@[simp] theorem safeEvent_course (code target detail : Nat) (s : State) :
    (safeEvent code target detail s).course = s.course := by
  simp [safeEvent]

theorem applyResetLane_course (arg : BitVec 24) (s : State) : (applyResetLane arg s).after.course = s.course := by
  unfold applyResetLane
  extract_lets all ns
  split
  · rfl
  · simp -implicitDefEqProofs [after_done]

theorem safeBoundary_course (s : State) : (safeBoundary s).course = s.course := by
  unfold safeBoundary
  split
  · extract_lets _ s0 _ s1 s2 _ s3
    have h0 : s0.course = s.course := by
      dsimp only [s0]
      split <;> rfl
    have h1 : s1.course = s0.course := course_foldl _ (fun s a => by simp [applyAsk]) _ _
    have h2 : s2.course = s1.course := by
      dsimp only [s2]
      split
      · split
        · exact ended_course 0x18 (applyResetLane_course _ s1)
        · rfl
      · rfl
    have h3 : s3.course = s2.course := by
      dsimp only [s3]
      split <;> simp
    rw [tripUpdate_course, h3, h2, h1, h0]
  · rfl

@[simp] theorem updOut_course (n : Nat) (f : UcOut → UcOut) (s : State) : (updOut n f s).course = s.course := rfl

@[simp] theorem ucOSticky_course (n bit : Nat) (s : State) : (ucOSticky n bit s).course = s.course := rfl

@[simp] theorem ucTake_peaks (n : Nat) (s : State) : (ucTake n s).course.peaks = s.course.peaks := by
  simp [ucTake, ucNewMode]

@[simp] theorem ucDrive_peaks (n : Nat) (win : Option OutWindow) (s : State) :
    (ucDrive n win s).course.peaks = s.course.peaks := by
  unfold ucDrive
  dsimp only
  split <;> simp [retireOff]

@[simp] theorem chanEvent_course (c code detail : Nat) (s : State) : (chanEvent c code detail s).course = s.course := by
  simp [chanEvent]

@[simp] theorem ucJudge_course (n : Nat) (s : State) : (ucJudge n s).course = s.course := by
  unfold ucJudge
  split <;> simp [openLoopStep, complianceStep, readbackStep]

@[simp] theorem ucBoundary_peaks (n : Nat) (s : State) : (ucBoundary n s).course.peaks = s.course.peaks := by
  unfold ucBoundary
  dsimp only
  split
  · split
    · split
      · simp
      · split <;> simp
    · simp
  · rfl

theorem outputsBoundary_peaks (s : State) : (outputsBoundary s).course.peaks = s.course.peaks := by
  have hd : ∀ s n, (dioBoundary n s).course = s.course := by simp [dioBoundary]
  unfold outputsBoundary
  extract_lets s1
  have h1 : s1.course.peaks = s.course.peaks := peaks_foldl _ (fun s n => ucBoundary_peaks n s) _ _
  split
  · rw [inrushBudget_course, course_foldl _ hd, h1]
  · exact h1

theorem takeRegs_peaks (s : State) : (takeRegs s).course.peaks = s.course.peaks := by
  simp [takeRegs, liTake, liNewMode, digTake]

/-! The clock and what follows it. -/

theorem clockBoundary_course (s : State) : (clockBoundary s).course = s.course := by
  simp [clockBoundary, clockMove]

theorem logBoundary_course (s : State) : (logBoundary s).course = s.course := by
  unfold logBoundary
  dsimp only
  split <;> simp [capTrigger, course_foldl _ (fun s c => updCap_course c _ s)]

theorem hartBoundary_course (s : State) : (hartBoundary s).course = s.course := by
  simp [hartBoundary]

theorem iepeBoundary_course (s : State) : (iepeBoundary s).course = s.course := by
  simp [iepeBoundary]

theorem daysBoundary_course (s : State) : (daysBoundary s).course = s.course := by
  simp [daysBoundary]

theorem takeSnapshot_peaks (s : State) : (takeSnapshot s).course.peaks = s.course.peaks := rfl

theorem pairCounts_course (cn : Word) (s : State) : (pairCounts cn s).course = s.course := rfl

theorem icuSleep_course (s : State) : (icuSleep s).course = s.course := rfl

theorem calBoundary_course (s : State) : (calBoundary s).course = s.course := rfl

theorem recordsBoundary_course (s : State) : (recordsBoundary s).course = s.course := rfl

theorem beginCourse_peaks (s : State) : (beginCourse s).course.peaks = s.course.peaks := by
  unfold beginCourse
  extract_lets _ s0 s1 s2 s3 s4 s5
  have h1 : s1.course.peaks = s.course.peaks := by
    rw [startBoundary_peaks, stopBoundary_peaks, yieldBoundary_course, pairCounts_course, evqDrain_course]
  have h2 : s2.course.peaks = s1.course.peaks := by
    rw [tilesBoundary_peaks, maintBoundary_peaks, loadSync_peaks, districtsBoundary_peaks, ptpBoundary_course]
  have h3 : s3.course.peaks = s2.course.peaks := by
    rw [takeSnapshot_peaks, alarmBoundary_course, clearRose_course]
  have h4 : s4.course.peaks = s3.course.peaks := by rw [alarmCapture_course, safeBoundary_course]
  have h5 : s5.course.peaks = s4.course.peaks := by
    rw [logBoundary_course, clockBoundary_course, outputsBoundary_peaks, takeRegs_peaks]
  rw [recordsBoundary_course, calBoundary_course, hartBoundary_course, iepeBoundary_course, icuSleep_course]
  exact h5.trans (h4.trans (h3.trans (h2.trans h1)))

end Sys2Proof.Machine
end

section
/-! The peaks when domains come up or go off at a boundary: PD3 takes the COURSE block with it, nothing else writes a
peak (R28, R429 to R434). -/

namespace Sys2Proof.Machine

/-! Domains that come up (R28, R428). -/

@[simp] theorem clearHdrs_course (d : Nat) (s : State) : (clearHdrs d s).course = s.course := rfl

@[simp] theorem domEvent_course (s : State) : (domEvent s).course = s.course := by
  simp [domEvent]

@[simp] theorem setLstat_course (op : Nat) (f : Fail) (s : State) : (setLstat op f s).course = s.course := rfl

@[simp] theorem judgeJournal_course (s : State) : (judgeJournal s).course = s.course :=
  course_foldl _ (fun s _ => setLstat_course 0 _ s) _ _

@[simp] theorem bootLoad_course (s : State) : (bootLoad s).course = s.course := by
  unfold bootLoad
  dsimp only
  split
  · rfl
  · split
    · simp
    · split
      · simp [noImage]
      · split <;> simp [noImage]

@[simp] theorem pd1Up_course (s : State) : (pd1Up s).course = s.course := by
  simp [pd1Up, judgePeerLost]

@[simp] theorem icuFresh_peaks (s : State) : (icuFresh s).course.peaks = s.course.peaks := rfl

@[simp] theorem panelStart_course (trim : Bool) (s : State) : (panelStart trim s).course = s.course := by
  simp [panelStart, panelEvent]

@[simp] theorem fieldUp_course (s : State) : (fieldUp s).course = s.course := by
  simp [fieldUp, course_foldl _ (fun s k => updDig_course k _ s)]

@[simp] theorem tilesUp_peaks (lo hi : Nat) (s : State) : (tilesUp lo hi s).course.peaks = s.course.peaks := by
  simp [tilesUp, tileTake, tileRegs, resetTileCal]

@[simp] theorem domainUp_peaks (d : Nat) (trim : Bool) (s : State) :
    (domainUp d trim s).course.peaks = s.course.peaks := by
  unfold domainUp
  dsimp only
  split <;> simp

/-! Domains that go off, and a node reset (R429 to R434). -/

@[simp] theorem safetyOff_course (s : State) : (safetyOff s).course = s.course := by
  simp [safetyOff]

@[simp] theorem tilesOff_course (lo hi : Nat) (s : State) : (tilesOff lo hi s).course = s.course := by
  simp [tilesOff, abortTileTests]

@[simp] theorem logStop_course (s : State) : (logStop s).course = s.course := by
  simp [logStop, trendSpoil, commitAll, course_foldl _ (fun s p => updPart_course p _ s)]

theorem domainDown_peaks (d : Nat) (s : State) :
    (domainDown d s).course.peaks = if d = 3 then (0, 0, false) else s.course.peaks := by
  unfold domainDown
  dsimp only
  split
  case h_1 => split <;> simp
  case h_3 => rw [domEvent_course]; rfl
  case h_8 h3 _ _ _ _ => rw [domEvent_course, if_neg h3]
  all_goals simp [netReset, dropAllPend]

/-- COURSE_PEAK reads 0 and no CLEAR_PEAK waits. -/
def PeakClear (s : State) : Prop := s.course.peaks = (0, 0, false)

theorem PeakClear.e0 {s : State} (h : PeakClear s) : s.course.e0.peak = 0 := congrArg Prod.fst h

theorem PeakClear.e1 {s : State} (h : PeakClear s) : s.course.e1.peak = 0 := congrArg (fun p => p.2.1) h

theorem PeakClear.of_peaks {s t : State} (h : PeakClear s) (ht : t.course.peaks = s.course.peaks) : PeakClear t :=
  ht.trans h

theorem PeakClear.domainDown {s : State} (h : PeakClear s) (d : Nat) : PeakClear (domainDown d s) := by
  unfold PeakClear at *
  rw [domainDown_peaks, h, ite_self]

theorem PeakClear.shed {s : State} (h : PeakClear s) (l : List Nat) : PeakClear (shed l s) := by
  unfold Machine.shed
  induction l generalizing s with
  | nil => exact h
  | cons d l ih =>
    rw [List.foldl_cons]
    refine ih ?_
    split
    · exact h.domainDown d
    · exact h

@[simp] theorem startRefs_peaks (refs trim : Bool) (s : State) :
    (startRefs refs trim s).course.peaks = s.course.peaks := by
  simp [startRefs, startDomains]

@[simp] theorem endSwitch_course (s : State) : (endSwitch s).course = s.course := by
  unfold endSwitch
  split <;> simp

theorem PeakClear.nodeReset {s : State} (h : PeakClear s) (cause : Nat) (refs trim : Bool) :
    PeakClear (nodeReset cause refs trim s) := by
  have hs := (h.of_peaks (t := becomeIdle (endSwitch s)) (by simp)).shed [6, 5, 4, 3, 2, 1, 7]
  exact hs.of_peaks (by simp [Machine.nodeReset])

theorem PeakClear.resetBoundary {s : State} (h : PeakClear s) (refs trim : Bool) :
    PeakClear (resetBoundary refs trim s) := by
  unfold Machine.resetBoundary
  split
  · exact h.nodeReset _ refs trim
  · exact h

theorem startupBoundary_peaks (s : State) : (startupBoundary s).course.peaks = s.course.peaks := by
  simp [startupBoundary, sysEvent]

end Sys2Proof.Machine
end

section
/-! CLEAR_PEAK and the other opcodes of COURSE_PG_CMD (R87). -/

namespace Sys2Proof.Machine

/-! The boundary after CLEAR_PEAK. -/

theorem courseBoundary_peakClear (refs trim : Bool) {s : State} (hu : domUp s 3 = true)
    (hc : s.course.clearPeak = true) : PeakClear (courseBoundary refs trim s) := by
  unfold courseBoundary
  extract_lets s0 s1
  have hend : (sendSync (syncMissed (endCourse (courseOverrun s0)))).course.peaks = s.course.peaks := by
    rw [sendSync_course, syncMissed_course, endCourse_peaks, courseOverrun_peaks]
    rfl
  have hask : (sendSync (syncMissed (endCourse (courseOverrun s0)))).course.clearPeak = true :=
    (congrArg (fun p => p.2.2) hend).trans hc
  have h1 : PeakClear s1 := by
    dsimp only [s1]
    rw [if_pos hu]
    exact (beginCourse_peaks _).trans (nextCourse_peaks hask)
  exact (h1.of_peaks (by rw [startupBoundary_peaks, daysBoundary_course])).resetBoundary refs trim

theorem regWord_coursePeak {s : State} (h : PeakClear s) (req : Requester) : regWord req s 0x10 0x50 = 0 := by
  have hr : regWord req s 0x10 0x50 = pack 32 [(16, s.course.e1.peak.toNat), (0, s.course.e0.peak.toNat)] := rfl
  rw [hr, h.e0, h.e1]
  rfl

/-! The page's command register (R444). -/

theorem exec_coursePgCmd (req : Requester) (value : Word) {s : State} (h : PageReady s 0x10) (ho : fld value 24 8 ≠ 1) :
    exec (.registerWrite req 0x40010018 2 value) s
      = .next (issueCmd 0x10 req (fld value 24 8) (value.setWidth 24) (fun s => .done .badOpcode 0 s) s) := by
  have hw : busWrite req 0x40010018 4 value s = commandWrite req 0x10 (fld value 24 8) (value.setWidth 24) s :=
    busWrite_page (p := 0x10) (off := 0x18) req value (by omega) (by omega) (by omega) h.1 (by decide)
  refine congrArg Host.Outcome.next (hw.trans ?_)
  unfold commandWrite
  rw [if_neg (by decide), if_pos rfl, if_neg ho]

/-- Settles O35: CLEAR_PEAK and the opcodes that the page lacks end at once; a boundary that finds an accepted CLEAR_PEAK
starts both engines with a peak of 0, and nothing later in it raises one. -/
theorem clearPeakZeroesPeak : Obligations.ClearPeakZeroesPeak := by
  refine ⟨fun req s hr => ?_, fun req arg s hr ha => ?_, fun refs trim s hu hc => ?_, fun req value s hr ho => ?_⟩
  · exact answers_done hr rfl rfl (by decide)
  · exact answers_done hr rfl (if_pos ha) (by decide)
  · have h := courseBoundary_peakClear refs trim hu hc
    exact ⟨_, rfl, h.e0, h.e1, regWord_coursePeak h⟩
  · exact answers_done hr (exec_coursePgCmd req value hr ho) rfl (by decide)

end Sys2Proof.Machine
end

section
/-! ICU_TIERS0 and ICU_TIERS1 (R295): a write that finds every stack empty sets its boundaries, any other one only
TIERS_REJ.  A write that applies may wake cores, so what waking leaves alone comes first. -/

namespace Sys2Proof.Machine

/-! Waking (R303). -/

/-- `c` is the controller `b` with at most the sleep of its cores changed. -/
structure SleepOnly (b c : IcuBlk) : Prop where
  frame : c = { b with targets := c.targets }
  target : ∀ n, ∃ z, icuTgt c n = { icuTgt b n with sleep := z }

theorem SleepOnly.refl (b : IcuBlk) : SleepOnly b b := ⟨rfl, fun _ => ⟨_, rfl⟩⟩

theorem SleepOnly.trans {a b c : IcuBlk} (hab : SleepOnly a b) (hbc : SleepOnly b c) : SleepOnly a c := by
  refine ⟨?_, fun n => ?_⟩
  · rw [hbc.frame, hab.frame]
  · obtain ⟨y, hy⟩ := hab.target n
    obtain ⟨z, hz⟩ := hbc.target n
    exact ⟨z, by rw [hz, hy]⟩

/-- One core's sleep written. -/
theorem sleepOnly_upd (b : IcuBlk) (t : Nat) (z : Bool) :
    SleepOnly b { b with targets := b.targets.upd {} t (fun g => { g with sleep := z }) } := by
  refine ⟨rfl, fun n => ?_⟩
  simp only [icuTgt, Tab.get_upd]
  split
  · exact ⟨z, by rw [‹n = t›]⟩
  · exact ⟨_, rfl⟩

theorem sleepOnly_foldl (f : IcuBlk → Nat → IcuBlk) (h : ∀ b t, SleepOnly b (f b t)) (l : List Nat) (b : IcuBlk) :
    SleepOnly b (l.foldl f b) := by
  induction l generalizing b with
  | nil => exact .refl b
  | cons t l ih => exact (h b t).trans (ih (f b t))

theorem icuWake_sleepOnly (b : IcuBlk) : SleepOnly b (icuWake b) := by
  refine sleepOnly_foldl _ (fun b t => ?_) _ b
  split
  · exact sleepOnly_upd b t false
  · exact .refl b

theorem SleepOnly.stack {b c : IcuBlk} (h : SleepOnly b c) (n : Nat) : (icuTgt c n).stack = (icuTgt b n).stack := by
  obtain ⟨z, hz⟩ := h.target n
  rw [hz]

theorem SleepOnly.tiers0 {b c : IcuBlk} (h : SleepOnly b c) : c.tiers0 = b.tiers0 := by rw [h.frame]

theorem SleepOnly.tiers1 {b c : IcuBlk} (h : SleepOnly b c) : c.tiers1 = b.tiers1 := by rw [h.frame]

theorem SleepOnly.srcs {b c : IcuBlk} (h : SleepOnly b c) : c.srcs = b.srcs := by rw [h.frame]

/-! The write. -/

/-- A write its page's block may drop counts in PG_SYNC exactly when it is applied (R22). -/
theorem pageWriteIf_takes {s : State} {p : Nat} (h : PageTakes s p) (f : State → State × Bool) :
    pageWriteIf p f s = if (f s).2 then countWrite p (f s).1 else (f s).1 := by
  obtain ⟨d, hd, ht⟩ := h
  unfold pageWriteIf
  rw [hd]
  dsimp only
  rw [if_pos ht]
  obtain ⟨t, _ | _⟩ := f s <;> rfl

theorem icuIdle_iff (b : IcuBlk) :
    icuIdle b = true ↔ ∀ n, n < 5 → (icuTgt b n).stack = [] ∧ (icuTgt b n).faultActive = false := by
  have hmem : ∀ n, n ∈ [0, 1, 2, 3, 4] ↔ n < 5 := fun n => by simp only [List.mem_cons, List.not_mem_nil, or_false]; omega
  simp only [icuIdle, List.all_eq_true, hmem, Bool.and_eq_true, List.isEmpty_iff, Bool.not_eq_true']

/-- The boundaries as ICU_TIERS0 (`hi` false) or ICU_TIERS1 sets them. -/
def setTiers (hi : Bool) (value : Word) (b : IcuBlk) : IcuBlk :=
  if hi then { b with tiers1 := value &&& 0x00FFFFFF } else { b with tiers0 := value }

@[simp] theorem setTiers_targets (hi : Bool) (value : Word) (b : IcuBlk) :
    (setTiers hi value b).targets = b.targets := by cases hi <;> rfl

@[simp] theorem setTiers_srcs (hi : Bool) (value : Word) (b : IcuBlk) : (setTiers hi value b).srcs = b.srcs := by
  cases hi <;> rfl

@[simp] theorem icuTgt_setTiers (hi : Bool) (value : Word) (b : IcuBlk) (n : Nat) :
    icuTgt (setTiers hi value b) n = icuTgt b n := by rw [icuTgt, setTiers_targets, icuTgt]

/-- With every stack and fault slot empty the write applies. -/
theorem icuTiersWrite_idle (hi : Bool) (value : Word) {s : State} (ht : PageTakes s 8) (h : icuIdle s.icu = true) :
    icuTiersWrite hi value s = countWrite 8 { s with icu := icuWake (setTiers hi value s.icu) } := by
  refine (pageWriteIf_takes ht _).trans ?_
  dsimp only
  rw [if_pos h]
  rfl

/-- Otherwise it is dropped and sets TIERS_REJ. -/
theorem icuTiersWrite_rejected (hi : Bool) (value : Word) {s : State} (ht : PageTakes s 8) (h : ¬ icuIdle s.icu = true) :
    icuTiersWrite hi value s = setSticky 8 8 s := by
  refine (pageWriteIf_takes ht _).trans ?_
  dsimp only
  rw [if_neg h]
  rfl

/-- Settles O45: the boundaries are written only in an idle controller, and neither they nor the waking that follows
reach a stack; a stacked entry anywhere leaves the write with TIERS_REJ alone. -/
theorem tiersWriteNeedsEmptyStacks : Obligations.TiersWriteNeedsEmptyStacks := by
  refine ⟨fun hi v s ht he => ?_, fun hi v n s ht hn hs => ?_⟩
  · have hw : SleepOnly (setTiers hi v s.icu) (icuWake (setTiers hi v s.icu)) := icuWake_sleepOnly _
    refine ⟨_, congrArg Host.Outcome.next (icuTiersWrite_idle hi v ht ((icuIdle_iff _).2 he)), ?_, ?_,
      hdr_countWrite_same 8 _, fun q hq => hdr_countWrite_other 8 _ hq, fun n => ?_, ?_, rfl⟩
    · rintro rfl
      exact ⟨hw.tiers0, hw.tiers1⟩
    · rintro rfl
      exact ⟨hw.tiers1, hw.tiers0⟩
    · exact (hw.stack n).trans (by rw [icuTgt_setTiers])
    · exact hw.srcs.trans (setTiers_srcs hi v s.icu)
  · have hb : ¬ icuIdle s.icu = true := fun h => hs ((icuIdle_iff _).1 h n hn).1
    exact ⟨_, congrArg Host.Outcome.next (icuTiersWrite_rejected hi v ht hb), hdr_setSticky_same 8 8 s,
      fun q hq => hdr_setSticky_other 8 8 s hq, rfl⟩

end Sys2Proof.Machine
end

section
/-! The queue, the claim rule and the canonical memories under every command (R1, R324 to R327): what `kept` gathers is sound
after a command if it was before. -/

namespace Sys2Proof.Machine

/-- The claim rule, on the parts gathered in `kept`. -/
def Kept.ClaimSafe (k : Kept) : Prop :=
  (k.claim.1 = true → k.claim.2.1 ≠ 0 ∧ (k.claim.2.2.2.1 = .solo ∨ k.claim.2.2.1 < k.claim.2.1))
    ∧ (k.claim.2.1 ≠ 0 → k.claim.2.2.2.2.1 = .active ∨ k.claim.2.2.2.2.1 = .solo)
    ∧ (k.claim.2.2.2.2.2 = true → k.claim.2.1 = 0)

/-- The byte memories gathered in `kept` are in canonical form. -/
def Kept.Canon (k : Kept) : Prop :=
  k.bytes.1.wf 0 = true ∧ (∀ n, (k.bytes.2.1.get {} n).wf 0 = true) ∧ k.bytes.2.2.1.wf 0xFF = true
    ∧ k.bytes.2.2.2.wf 0xFF = true

/-- The queue, the ordering code and the serial number stand; the claim rule and the canonical memories are kept. -/
structure Sound (s t : State) : Prop where
  queue : (kept t).queue = (kept s).queue
  claim : (kept s).ClaimSafe → (kept t).ClaimSafe
  bytes : (kept s).Canon → (kept t).Canon

theorem Sound.of_kept {s t : State} (h : kept t = kept s) : Sound s t :=
  ⟨congrArg Kept.queue h, fun hs => h ▸ hs, fun hs => h ▸ hs⟩

theorem Sound.refl (s : State) : Sound s s := .of_kept rfl

theorem Sound.trans {s t u : State} (h : Sound s t) (k : Sound t u) : Sound s u :=
  ⟨k.queue.trans h.queue, k.claim ∘ h.claim, k.bytes ∘ h.bytes⟩

/-- An operation that leaves what is kept alone comes last. -/
theorem Sound.then_kept {s t u : State} (h : Sound s t) (k : kept u = kept t) : Sound s u := h.trans (.of_kept k)

/-- An operation that leaves what is kept alone comes first. -/
theorem Sound.after_kept {s t u : State} (h : kept t = kept s) (k : Sound t u) : Sound s u := (Sound.of_kept h).trans k

theorem Sound.ite {c : Prop} [Decidable c] {s t u : State} (ht : c → Sound s t) (hu : ¬ c → Sound s u) :
    Sound s (if c then t else u) := by
  split
  · exact ht ‹c›
  · exact hu ‹¬ c›

theorem Sound.foldl {α : Type} {g : State → α → State} (h : ∀ s x, Sound s (g s x)) (l : List α) (s : State) :
    Sound s (l.foldl g s) := by
  induction l generalizing s with
  | nil => exact .refl s
  | cons x l ih => exact (h s x).trans (ih _)

/-- Claim 0 and no gates: the claim rule holds whatever it was. -/
theorem Sound.of_claimless {s t : State} {p : Half} {r : Role} {st : RedState} {c : Bool}
    (h : kept t = { kept s with claim := (false, 0, p, r, st, c) }) : Sound s t := by
  refine ⟨by rw [h], fun _ => ?_, fun hs => by rw [h]; exact hs⟩
  rw [h]
  exact ⟨fun h => absurd h (by simp), fun h => absurd rfl h, fun _ => rfl⟩

/-- The gates are disabled and the claim stands. -/
theorem Sound.of_gatesOff {s t : State} {p : Half}
    (h : kept t = { kept s with claim := (false, s.red.own, p, s.red.role, s.red.state, s.red.roleConflict) }) :
    Sound s t := by
  refine ⟨by rw [h], fun hs => ?_, fun hs => by rw [h]; exact hs⟩
  obtain ⟨_, hstate, hconf⟩ := hs
  rw [h]
  exact ⟨fun h => absurd h (by simp), hstate, hconf⟩

/-- Only byte memories change, and stay canonical. -/
theorem Sound.of_bytes {s t : State} (hq : (kept t).queue = (kept s).queue) (hc : (kept t).claim = (kept s).claim)
    (hb : (kept s).Canon → (kept t).Canon) : Sound s t := by
  refine ⟨hq, fun hs => ?_, hb⟩
  unfold Kept.ClaimSafe
  rw [hc]
  exact hs

/-! Claims and gates. -/

theorem dropClaim_sound (s : State) : Sound s (dropClaim s) := .of_claimless (kept_dropClaim s)

theorem becomeStandby_sound (s : State) : Sound s (becomeStandby s) := .of_claimless (kept_becomeStandby s)

theorem becomeIdle_sound (s : State) : Sound s (becomeIdle s) := .of_claimless (kept_becomeIdle s)

theorem yieldNow_sound (c : BitVec 3) (s : State) : Sound s (yieldNow c s) := .of_claimless (kept_yieldNow c s)

theorem gatesOpen_sound (s : State) : Sound s (gatesOpen s) := .of_gatesOff (kept_gatesOpen s)

theorem pd1Hold_sound (c : Nat) (s : State) : Sound s (pd1Hold c s) := .of_claimless (kept_pd1Hold c s)

theorem yieldBoundary_sound (s : State) : Sound s (yieldBoundary s) := by
  obtain h | h := kept_yieldBoundary s
  · exact .of_kept h
  · exact .of_claimless h

theorem stopBoundary_sound (s : State) : Sound s (stopBoundary s) := by
  obtain h | h := kept_stopBoundary s
  · exact .of_kept h
  · exact .of_claimless h

theorem roleConflict_sound (p : Role) (s : State) : Sound s (roleConflict p s) := by
  have h := kept_roleConflict p s
  split at h
  · exact .of_kept h
  · exact .of_claimless h

/-- A claim is raised from 0, by a unit without role conflict. -/
theorem raiseClaim_sound {s : State} {e : Half} (hs : s.red.state ≠ .active ∧ s.red.state ≠ .solo)
    (hm : s.red.roleConflict = false) : Sound s (raiseClaim e s) := by
  have h := kept_raiseClaim e s
  refine ⟨by rw [h], fun hc => ?_, fun hb => by rw [h]; exact hb⟩
  obtain ⟨hgate, hown, _⟩ := hc
  have h0 : s.red.own = 0 := by
    by_contra h0
    exact (hown h0).elim hs.1 hs.2
  rw [h]
  refine ⟨fun hg => absurd h0 (hgate hg).1, fun _ => ?_, fun hc => absurd hc (by simp [hm])⟩
  by_cases hr : isSolo s = true
  · exact .inr (if_pos hr)
  · exact .inl (if_neg hr)

theorem mayClaim_roleConflict {s : State} (h : mayClaim s = true) : s.red.roleConflict = false := by
  simp only [mayClaim, Bool.and_eq_true, Bool.not_eq_true'] at h
  exact h.1.1.2

theorem takeOver_sound {s : State} {c : Nat} (h : mayTakeOver s = true) : Sound s (takeOver c s) := by
  simp only [mayTakeOver, Bool.and_eq_true, decide_eq_true_eq] at h
  obtain ⟨⟨hst, _⟩, hm⟩ := h
  unfold takeOver
  refine Sound.then_kept (Sound.after_kept (t := { s with red.takeCause := BitVec.ofNat 8 c, red.takeCount := satInc s.red.takeCount, red.taking := true }) rfl
    (raiseClaim_sound (e := s.red.peerEpoch + 1) ?_ ?_)) (kept_redEvent _ _ _)
  · exact ⟨by simp [hst], by simp [hst]⟩
  · exact mayClaim_roleConflict hm

theorem startElection_sound (s : State) : Sound s (startElection s) := by
  obtain ⟨h, hown⟩ := kept_startElection s
  refine ⟨by rw [h], fun hs => ?_, fun hb => by rw [h]; exact hb⟩
  obtain ⟨hgate, hstate, hconf⟩ := hs
  rw [h]
  refine ⟨hgate, fun h0 => ?_, hconf⟩
  change (startElection s).red.state = _ ∨ (startElection s).red.state = _
  rw [hown h0]
  exact hstate h0

theorem gatesClose_sound {s : State} (hc : claimed s = true) (hp : s.red.role = .solo ∨ s.red.peer < s.red.own) :
    Sound s (gatesClose s) := by
  have h := kept_gatesClose s
  refine ⟨by rw [h], fun hs => ?_, fun hb => by rw [h]; exact hb⟩
  obtain ⟨_, hstate, hconf⟩ := hs
  rw [h]
  exact ⟨fun _ => ⟨of_decide_eq_true hc, hp⟩, hstate, hconf⟩

/-- The peer's claim is noted by a unit whose gates are disabled, or as lower than its own. -/
theorem Sound.of_peer {s t : State} {c : Half}
    (h : kept t = { kept s with claim := (s.red.gates, s.red.own, c, s.red.role, s.red.state, s.red.roleConflict) })
    (hc : s.red.own = 0 ∨ c < s.red.own) : Sound s t := by
  refine ⟨by rw [h], fun hs => ?_, fun hb => by rw [h]; exact hb⟩
  obtain ⟨hgate, hstate, hconf⟩ := hs
  rw [h]
  exact ⟨fun hg => ⟨(hgate hg).1, .inr (hc.resolve_left (hgate hg).1)⟩, hstate, hconf⟩

theorem peerClaim_sound (c : Half) (s : State) : Sound s (peerClaim c s) := by
  obtain ⟨h, hc⟩ | h | h := kept_peerClaim c s
  · exact .of_peer h hc
  · exact .of_claimless h
  · exact .of_gatesOff h

/-- Another unit in this unit's role: whatever the peer showed, no claim is left. -/
theorem roleConflict_peerShows_sound (p : Role) (c : Half) (s : State) : Sound s (roleConflict p (peerShows c s)) := by
  have hp := kept_peerShows c s
  have h := kept_roleConflict p (peerShows c s)
  rw [hp] at h
  split at h
  · rename_i hr
    have hr' : s.red.roleConflict = true := by
      have := congrArg (fun k => k.claim.2.2.2.2.2) hp
      exact this.symm.trans hr
    refine ⟨by rw [h], fun hs => ?_, fun hb => by rw [h]; exact hb⟩
    obtain ⟨hgate, hstate, hconf⟩ := hs
    rw [h]
    exact ⟨fun hg => absurd (hconf hr') (hgate hg).1, hstate, hconf⟩
  · exact .of_claimless h

/-! Memories. -/

theorem ramWrite_sound (a : Nat) (l : List Byte) (s : State) : Sound s (ramWrite a l s) :=
  .of_bytes rfl rfl fun ⟨hm, hr⟩ => ⟨Mem.writeN_wf l a hm, hr⟩

theorem dmaWrite_sound (a : Nat) (l : List Byte) (s : State) : Sound s (dmaWrite a l s) :=
  .ite (fun _ => ramWrite_sound a l s) fun _ => .refl s

theorem tcm_upd_canon {t : Tab Mem} {c : Nat} {f : Mem → Mem} (h : ∀ n, (t.get {} n).wf 0 = true)
    (hf : ∀ m : Mem, m.wf 0 = true → (f m).wf 0 = true) (n : Nat) : ((t.upd {} c f).get {} n).wf 0 = true := by
  rw [Tab.get_upd]
  split
  · exact hf _ (h c)
  · exact h n

theorem tcm_erase_canon {t : Tab Mem} (c : Nat) (h : ∀ n, (t.get {} n).wf 0 = true) (n : Nat) :
    ((t.erase c).get {} n).wf 0 = true := by
  by_cases hn : n = c
  · rw [hn, Tab.get_erase_same]; rfl
  · rw [Tab.get_erase_other _ _ hn]; exact h n

theorem memStore_sound (req : Requester) (a : Nat) (l : List Byte) (s : State) : Sound s (memStore req a l s) := by
  unfold memStore
  refine .ite (fun _ => .ite (fun _ => ?_) fun _ => .ite (fun _ => ramWrite_sound a l s) fun _ => .refl s) fun _ => .refl s
  split
  · exact .of_bytes rfl rfl fun ⟨hm, ht, hr⟩ => ⟨hm, tcm_upd_canon ht fun m => Mem.writeN_wf l _, hr⟩
  · exact .refl s

theorem norDone_sound (ok : Bool) (s : State) : Sound s (norDone ok s) := by
  unfold norDone
  split
  · exact .refl s
  · refine Sound.then_kept ?_ (kept_planEvent _ _ _ _ _)
    exact .of_bytes rfl rfl fun ⟨hm, ht, hn, hp⟩ => ⟨hm, ht, Mem.writeN_wf _ _ hn, hp⟩

theorem ethDeliver_sound (p q : Nat) (lanB : Bool) (full : List Byte) (s : State) :
    Sound s (ethDeliver p q lanB full s) := by
  unfold ethDeliver
  extract_lets e r strip b d
  refine .ite (fun _ => .of_kept ?_) fun _ => .ite (fun _ => .of_kept ?_) fun _ => ?_
  · rw [kept_setSticky, kept_ethCount, kept_updRing]
  · exact kept_updRing _ _ _ _
  · exact ((dmaWrite_sound _ _ _).trans (dmaWrite_sound _ _ _)).then_kept
      (by rw [kept_setSticky, kept_ethCount, kept_updRing]; rfl)

theorem ethAccept_sound (p on : Nat) (b : List Byte) (s : State) : Sound s (ethAccept p on b s) := by
  unfold ethAccept
  extract_lets e
  refine .ite (fun _ => .refl s) fun _ => .ite (fun _ => .of_kept (kept_ethCount _ _ _)) fun _ => .ite (fun _ => ?_) fun _ =>
    ethDeliver_sound _ _ _ _ _
  split
  · extract_lets s1
    have h1 : kept s1 = kept s := by
      dsimp only [s1]
      rw [kept_ite, kept_ethCount, ite_self]
    refine .after_kept h1 (.ite (fun _ => .of_kept (kept_ethCount _ _ _)) fun _ => ?_)
    exact .after_kept (kept_prpNote _ _ _) (ethDeliver_sound _ _ _ _ _)
  · exact ethDeliver_sound _ _ _ _ _

/-! Commands. -/

theorem issueCmd_sound (p : Nat) (req : Requester) (op : Nat) (arg : BitVec 24) (body : State → CmdEnd) (s : State)
    (h : ∀ s, Sound s (body s).after) : Sound s (issueCmd p req op arg body s) := by
  unfold issueCmd
  split
  · exact .refl s
  · refine .ite (fun _ => .ite (fun _ => .of_kept (kept_setSticky _ _ _)) fun _ => ?_) fun _ => .of_kept (kept_offAccess _ _)
    have hb := Sound.after_kept (kept_takeCmd p req op arg s) (h (takeCmd p req op arg s))
    split <;> rename_i e <;> rw [e] at hb
    · exact hb.then_kept (kept_finishCmd _ _ _ _)
    · exact hb

theorem coreReset_sound (req : Requester) (arg : BitVec 24) (s : State) : Sound s (coreReset req arg s) := by
  refine issueCmd_sound _ _ _ _ _ _ fun s => ?_
  extract_lets m
  split
  · exact .refl s
  · refine Sound.then_kept (Sound.foldl (fun s c => ?_) _ s) (kept_sysEvent _ _ _)
    exact .of_bytes rfl rfl fun ⟨hm, ht, hr⟩ => ⟨hm, tcm_erase_canon c ht, hr⟩

theorem readLog_sound (req : Requester) (arg : BitVec 24) (bad : Option Word) (s : State) :
    Sound s (readLog req arg bad s) := by
  refine issueCmd_sound _ _ _ _ _ _ fun s => ?_
  extract_lets p a
  split
  · exact .refl s
  · split
    · exact .refl s
    · rename_i r _ s1 _ _
      have h1 : Sound s s1 := .after_kept (t := { s with log.rfirst := r.2.1.getD s.log.rfirst }) rfl (ramWrite_sound _ _ _)
      split
      · exact h1.then_kept (kept_logFault _ _ _)
      · exact h1

theorem commandWrite_sound (req : Requester) (p op : Nat) (arg : BitVec 24) (s : State) :
    Sound s (commandWrite req p op arg s) := by
  unfold commandWrite
  extract_lets bad
  have hbad : Sound s bad := .of_kept (kept_issueCmd _ _ _ _ _ _ (fun _ => rfl))
  refine .ite (fun _ => ?page00) fun _ => .ite (fun _ => ?page10) fun _ => .ite (fun _ => ?page11) fun _ =>
    .ite (fun _ => ?page13) fun _ => .ite (fun _ => ?page14) fun _ => .ite (fun _ => ?page18) fun _ =>
    .ite (fun _ => ?tiles) fun _ => .ite (fun _ => ?page2A) fun _ => .ite (fun _ => ?page2B) fun _ =>
    .ite (fun _ => ?page30) fun _ => .ite (fun _ => ?page31) fun _ => .ite (fun _ => ?page3E) fun _ =>
    .ite (fun _ => ?page40) fun _ => .ite (fun _ => ?page41) fun _ => .ite (fun _ => ?page48) fun _ => hbad
  case page00 =>
    split
    exacts [.of_kept (kept_domainCmd _ _ _ _), .of_kept (kept_domainCmd _ _ _ _), .of_kept (kept_resetCmd _ _ _),
      coreReset_sound _ _ _, hbad]
  case page10 => exact .ite (fun _ => .of_kept (kept_clearPeakCmd _ _ _)) fun _ => hbad
  case page11 =>
    split
    exacts [.of_kept (kept_loadPlan _ _ _), .of_kept (kept_stopPlan _ _ _), .of_kept (kept_updateDistrict _ _ _),
      .of_kept (kept_abortUpdate _ _ _), .of_kept (kept_verifyCmd _ _ _), .of_kept (kept_eraseCmd _ _ _),
      .of_kept (kept_programCmd _ _ _), hbad]
  case page13 => exact .ite (fun _ => .of_kept (kept_alarmCmd _ _ _ _)) fun _ => hbad
  case page14 => exact .ite (fun _ => .of_kept (kept_callCmd _ _ _ _)) fun _ => hbad
  case page18 =>
    split
    exacts [.of_kept (kept_updateSafety _ _ _), .of_kept (kept_releaseCmd _ _ _ _), .of_kept (kept_restoreCmd _ _ _ _),
      .of_kept (kept_releaseCmd _ _ _ _), .of_kept (kept_restoreCmd _ _ _ _), .of_kept (kept_resetLane _ _ _),
      .of_kept (kept_forceResetCmd _ _ _), hbad]
  case tiles =>
    split
    exacts [.of_kept (kept_channelMaint _ _ _ _), .ite (fun _ => .of_kept (kept_openTest _ _ _ _)) fun _ => hbad,
      .of_kept (kept_tileRestart _ _ _ _), hbad]
  case page2A =>
    split
    exacts [.of_kept (kept_sessionOpen _ _ _), .of_kept (kept_measureCmd _ _ _), .of_kept (kept_commitCmd _ _ _),
      .of_kept (kept_sessionClose _ _ _), hbad]
  case page2B =>
    split
    exacts [.of_kept (kept_submitCmd _ _ _), .of_kept (kept_hartCancel _ _ _), .of_kept (kept_hartRelease _ _ _), hbad]
  case page30 =>
    split
    exacts [.of_kept (kept_channelMaint _ _ _ _), .of_kept (kept_outReset _ _ _), .of_kept (kept_relearn _ _ _), hbad]
  case page31 => exact .ite (fun _ => .of_kept (kept_channelMaint _ _ _ _)) fun _ => hbad
  case page3E => exact .ite (fun _ => .of_kept (kept_ptpAsk _ _ _ _)) fun _ => hbad
  case page40 =>
    split
    exacts [.of_kept (kept_appendLog _ _ _), readLog_sound _ _ _ _, .of_kept (kept_captureCmd _ _ _), hbad]
  case page41 =>
    split
    exacts [.of_kept (kept_panelUpdate _ _ _), .of_kept (kept_panelCancel _ _ _), .of_kept (kept_clearPanel _ _ _), hbad]
  case page48 =>
    split
    exacts [.of_kept (kept_switchover _ _ _), .of_kept (kept_clearCounts _ _ _), hbad]

/-! Accesses by address (R16 to R27). -/

theorem hdrWrite_sound (req : Requester) (p off : Nat) (v : Word) (s : State) : Sound s (hdrWrite req p off v s) := by
  unfold hdrWrite
  split
  · exact .of_kept (kept_setField _ _ _ (fun _ => rfl))
  · exact .of_kept (kept_setField _ _ _ (fun _ => rfl))
  · exact .of_kept (kept_setField _ _ _ (fun _ => rfl))
  · exact commandWrite_sound _ _ _ _ _
  · exact .refl s

theorem pageAccess_sound (req : Requester) (p off : Nat) (v : Word) (s : State) : Sound s (pageAccess req p off v s) := by
  unfold pageAccess
  split
  · exact .refl s
  · exact .ite (fun _ => .ite (fun _ => .of_kept (kept_accessViolation _ _ _ _ _)) fun _ =>
        .ite (fun _ => hdrWrite_sound _ _ _ _ _) fun _ => .of_kept (kept_regWrite _ _ _ _ _))
      fun _ => .of_kept (kept_offAccess _ _)

theorem windowAccess_sound (a : Nat) (v : Word) (s : State) : Sound s (windowAccess a v s) := by
  unfold windowAccess
  split
  · exact .refl s
  · refine .ite (fun _ => .ite (fun _ => .of_kept (kept_windowWrite _)) fun _ =>
        .ite (fun _ => .of_kept (kept_canRamWrite _ _ _ _)) fun _ => .ite (fun _ => ?_) fun _ => .refl s)
      fun _ => .of_kept (kept_offAccess _ _)
    exact .of_bytes rfl rfl fun ⟨hm, ht, hn, hp⟩ => ⟨hm, ht, hn, Mem.writeN_wf _ _ hp⟩

theorem busWrite_sound (req : Requester) (a size : Nat) (v : Word) (s : State) : Sound s (busWrite req a size v s) := by
  unfold busWrite
  exact .ite
    (fun _ => .ite (fun _ => .ite (fun _ => pageAccess_sound _ _ _ _ _) fun _ => windowAccess_sound _ _ _)
      fun _ => .of_kept (kept_droppedWrite _ _))
    fun _ => memStore_sound _ _ _ _

theorem writeWords_sound (a : Nat) (l : List Word) (s : State) : Sound s (writeWords a l s) := by
  induction l generalizing a s with
  | nil => exact .refl s
  | cons w r ih => exact (busWrite_sound _ _ _ _ _).trans (ih _ _)

theorem kept_readWords (a n : Nat) (s : State) : kept (readWords a n s).1 = kept s := by
  induction n generalizing a s with
  | zero => rfl
  | succ n ih => exact (ih _ _).trans (kept_busRead _ _ _ _)

/-! The host port (R381 to R384). -/

theorem kept_hostReadNow (usb : Bool) (command : Byte) (addr : Word) (s : State) :
    kept (hostReadNow usb command addr s) = kept s := by
  unfold hostReadNow
  extract_lets r
  exact (kept_hostSelect _ _ _).trans ((kept_readWords _ _ _).trans (kept_hostSelect _ _ _))

theorem kept_hostResume (s : State) : kept (hostResume s) = kept s :=
  kept_foldl _ (fun s _ => kept_hostReadNow _ _ _ s) _ _

theorem hostTransaction_sound (usb : Bool) (command : Byte) (addr : Word) (sent : List Byte) (crc : Byte) (kind : Nat)
    (run : State → State) (s : State) (h : Sound s (run s)) :
    Sound s (hostTransaction usb command addr sent crc kind run s) := by
  unfold hostTransaction
  exact .ite (fun _ => .ite (fun _ => .of_kept (kept_hostCrcError s)) fun _ =>
    .ite (fun _ => .of_kept (kept_hostRefuse _ s)) fun _ => h) fun _ => .refl s

/-! Domains and resets. -/

theorem domainUp_sound (d : Nat) (trim : Bool) (s : State) : Sound s (domainUp d trim s) := by
  obtain ⟨h, hf⟩ := kept_domainUp d trim s
  refine .of_bytes (by rw [h]) (by rw [h]) fun ⟨hm, ht, hn, hp⟩ => ?_
  rw [h]
  refine ⟨hm, ht, hn, ?_⟩
  obtain hf | hf := hf
  · rw [hf]; exact hp
  · rw [hf]; rfl

theorem Sound.of_shed {s t : State} (hq : (kept t).queue = (kept s).queue) (hc : (kept t).claim.2 = (kept s).claim.2)
    (hg : t.red.gates = true → s.red.gates = true) (hb : (kept s).Canon → (kept t).Canon) : Sound s t := by
  refine ⟨hq, fun ⟨hgate, hstate, hconf⟩ => ?_, hb⟩
  unfold Kept.ClaimSafe
  rw [hc]
  exact ⟨fun h => hgate (hg h), hstate, hconf⟩

theorem shed_sound (l : List Nat) (s : State) : Sound s (shed l s) := by
  obtain ⟨hq, _, hc, hg, hb, hm, ht⟩ := kept_shed l s
  refine .of_shed hq hc hg fun ⟨cm, ct, cn, cp⟩ => ⟨hm cm, ht ct, ?_⟩
  rw [hb]
  exact ⟨cn, cp⟩

theorem domainDown_sound (d : Nat) (s : State) : Sound s (domainDown d s) := by
  have h := kept_domainDown d s
  refine .of_shed (by rw [h]) (by rw [h]; rfl) (fun hg => ?_) fun ⟨cm, ct, cn, cp⟩ => ?_
  · have e : (domainDown d s).red.gates = if d = 6 then false else s.red.gates := congrArg (fun k => k.claim.1) h
    rw [e] at hg
    split at hg
    · cases hg
    · exact hg
  · rw [h]
    refine ⟨?_, ?_, cn, cp⟩
    · change Mem.wf 0 (if d = 2 then flashOnly s.mem.main else s.mem.main) = true
      split
      · exact flashOnly_wf cm
      · exact cm
    · change ∀ n, Mem.wf 0 ((if d = 2 then ({} : Tab Mem) else s.mem.tcm).get {} n) = true
      split
      · exact fun _ => rfl
      · exact ct

theorem startDomains_sound (trim : Bool) (s : State) : Sound s (startDomains trim s) := by
  unfold startDomains
  extract_lets s1
  have h1 : Sound s s1 := .foldl (fun s d => domainUp_sound d trim s) _ s
  clear_value s1
  exact h1.then_kept rfl

theorem startRefs_sound (refs trim : Bool) (s : State) : Sound s (startRefs refs trim s) := by
  unfold startRefs
  refine .ite (fun _ => ?_) fun _ => .of_kept rfl
  exact .after_kept (t := { s with sys.step := 2, sys.halt := 0 }) rfl (startDomains_sound trim _)

/-- Only the state of the pair changes, of a unit without a claim. -/
theorem Sound.idle_to {s t u : State} {st : RedState} (h : Sound s t) (h0 : t.red.own = 0)
    (hk : kept u = { kept t with claim := (t.red.gates, t.red.own, t.red.peer, t.red.role, st, t.red.roleConflict) }) :
    Sound s u := by
  refine h.trans ⟨by rw [hk], fun ⟨hgate, _, hconf⟩ => ?_, fun hb => by rw [hk]; exact hb⟩
  rw [hk]
  exact ⟨hgate, fun h => absurd h0 h, hconf⟩

theorem own_of_kept {s : State} {k : Kept} (h : kept s = k) : s.red.own = k.claim.2.1 := congrArg (fun k => k.claim.2.1) h

theorem shed_own (l : List Nat) (s : State) : (shed l s).red.own = s.red.own := by
  obtain ⟨_, _, hc, _⟩ := kept_shed l s
  exact congrArg Prod.fst hc

theorem nodeReset_sound (cause : Nat) (refs trim : Bool) (s : State) : Sound s (nodeReset cause refs trim s) := by
  have hi : Sound s (becomeIdle (endSwitch s)) := .after_kept (kept_endSwitch s) (becomeIdle_sound _)
  have h0 : (becomeIdle (endSwitch s)).red.own = 0 := own_of_kept (kept_becomeIdle _)
  unfold nodeReset
  extract_lets s1 _ _ _ _ s2
  have h2 : Sound s s2 := (hi.trans (shed_sound _ _)).idle_to (u := s2) ((shed_own _ _).trans h0) rfl
  exact .ite (fun _ => h2.trans (startRefs_sound refs trim s2)) fun _ => h2.then_kept rfl

theorem resetBoundary_sound (refs trim : Bool) (s : State) : Sound s (resetBoundary refs trim s) := by
  unfold resetBoundary
  split
  · exact nodeReset_sound _ refs trim s
  · exact .refl s

theorem startupBoundary_sound (s : State) : Sound s (startupBoundary s) := by
  unfold startupBoundary
  refine .ite (fun _ => ?_) fun _ => .ite (fun _ => ?_) fun _ => .ite (fun _ => .of_kept rfl) fun _ =>
    .ite (fun _ => .of_kept (kept_sysEvent _ _ _)) fun _ => .ite (fun _ => .of_kept rfl) fun _ => .refl s
  · exact (Sound.foldl (fun s d => domainUp_sound d true s) [4, 5] s).then_kept rfl
  · exact ((domainUp_sound 6 true s).then_kept (u := { domainUp 6 true s with sys.step := 7 }) rfl).trans
      (startElection_sound _)

/-! The boundary. -/

theorem startBoundary_sound (s : State) : Sound s (startBoundary s) := by
  unfold startBoundary
  split
  · rename_i x _
    extract_lets src _ _ s1 _ s2
    have h2 : kept s2 = kept s := (kept_showRestored src _).trans (kept_startPlan _ _ _ _)
    exact .ite (fun _ => .after_kept h2 (startElection_sound s2)) fun _ => .of_kept h2
  · exact .refl s

theorem clockBoundary_sound (s : State) : Sound s (clockBoundary s) := by
  unfold clockBoundary clockMove
  extract_lets aim a
  exact .ite (fun _ => .of_kept rfl) fun _ => .of_bytes rfl rfl id

theorem beginCourse_sound (s : State) : Sound s (beginCourse s) := by
  unfold beginCourse
  extract_lets _ s0 s1 s2 s3 s4 s5
  have h1 : Sound s s1 :=
    .after_kept ((kept_pairCounts _ _).trans (kept_evqDrain s0))
      (((yieldBoundary_sound _).trans (stopBoundary_sound _)).trans (startBoundary_sound _))
  have h2 : kept s2 = kept s1 := by
    dsimp only [s2]
    rw [kept_tilesBoundary, kept_maintBoundary, kept_loadSync, kept_districtsBoundary, kept_ptpBoundary]
  have h4 : kept s4 = kept s2 := by
    dsimp only [s4, s3]
    rw [kept_alarmCapture, kept_safeBoundary, kept_takeSnapshot, kept_alarmBoundary, kept_clearRose]
  have h5 : Sound s s5 := by
    have h : Sound s (outputsBoundary (takeRegs s4)) :=
      (h1.then_kept (h4.trans h2)).then_kept ((kept_outputsBoundary _).trans (kept_takeRegs _))
    exact (h.trans (clockBoundary_sound _)).then_kept (kept_logBoundary _)
  refine h5.then_kept ?_
  rw [kept_recordsBoundary, kept_calBoundary, kept_hartBoundary, kept_iepeBoundary, kept_icuSleep]
  rfl

theorem courseBoundary_sound (refs trim : Bool) (s : State) : Sound s (courseBoundary refs trim s) := by
  unfold courseBoundary
  extract_lets s0 s1
  have h1 : Sound s s1 := by
    dsimp only [s1]
    refine .ite (fun _ => .after_kept ?_ (beginCourse_sound _)) fun _ => .after_kept ?_ (clockBoundary_sound _)
    · rw [kept_nextCourse, kept_sendSync, kept_syncMissed, kept_endCourse, kept_courseOverrun]
      rfl
    · exact kept_ptpBoundary s0
  exact ((h1.then_kept (kept_daysBoundary s1)).trans (startupBoundary_sound _)).trans (resetBoundary_sound refs trim _)

theorem powerless_sound (s : State) : Sound s (powerless s) := by
  refine ⟨rfl, fun _ => ?_, fun ⟨hm, _, hr⟩ => ⟨flashOnly_wf hm, fun _ => rfl, hr⟩⟩
  exact ⟨fun h => absurd h Bool.false_ne_true, fun h => absurd rfl h, fun _ => rfl⟩

/-- `o` goes on to a sound state. -/
def Completes (s : State) (o : Out) : Prop := ∃ t, o = .next t ∧ Sound s t

theorem Completes.of_sound {s t : State} (h : Sound s t) : Completes s (.next t) := ⟨t, rfl, h⟩

theorem Completes.of_kept {s t : State} (h : kept t = kept s) : Completes s (.next t) := .of_sound (.of_kept h)

theorem Completes.of_slotWord {s : State} {e cls : Nat} {own : Option (Nat × Nat)} {w : SlotWord} {f : State → State}
    (h : ∀ s, kept (f s) = kept s) : Completes s (.next (slotWord e cls own w f s)) :=
  .of_kept (kept_slotWord e cls own w f s h)

/-- A choice between operations that leave what is kept alone. -/
theorem kept_choice {c : Prop} [Decidable c] {s t u : State} (ht : c → kept t = kept s) (hu : ¬ c → kept u = kept s) :
    kept (if c then t else u) = kept s := by
  split
  · exact ht ‹c›
  · exact hu ‹¬ c›

theorem Completes.of_choice {c : Prop} [Decidable c] {s t u : State} (ht : c → kept t = kept s)
    (hu : ¬ c → kept u = kept s) : Completes s (.next (if c then t else u)) := .of_kept (kept_choice ht hu)

/-! Commands whose meaning chooses more than once by what State holds. -/

theorem kept_execHartTransactionStart (m : Fin 8) (s : State) :
    ∃ t, execHartTransactionStart m s = .next t ∧ kept t = kept s := by
  refine ⟨_, rfl, ?_⟩
  split
  · split
    · exact kept_choice (fun _ => (kept_hartSend _ _ _).trans (kept_updDesc _ _ _)) fun _ => rfl
    · rfl
  · rfl

theorem execHartResponse_completes (m : Fin 8) (lead chars : List (BitVec 11)) (s : State) :
    Completes s (execHartResponse m lead chars s) := by
  refine .of_sound ?_
  split
  · refine .ite (fun _ => .refl s) fun _ => .ite (fun _ => ?_) fun _ => .of_kept (kept_hartFail _ _ _)
    extract_lets a s1
    have h1 : Sound s s1 := .ite (fun _ => ramWrite_sound _ _ _) fun _ => .refl s
    exact h1.then_kept ((kept_hartEnd _ _ _ _).trans (kept_updDesc _ _ _))
  · exact .refl s

theorem execRotationStepEnd_completes (t : Fin 10) (key : Fin 18) (gain offset : Int) (s : State) :
    Completes s (execRotationStepEnd t key gain offset s) := by
  refine .of_kept ?_
  split
  · rfl
  · simp only [kept_ite, kept_endTurn, kept_updTileCal, kept_calibrate, kept_setSpare, kept_updConv, ite_self]

theorem execCommitDone_completes (day : Half) (s : State) : Completes s (execCommitDone day s) := by
  refine .of_kept ?_
  split
  · refine kept_choice (fun _ => ?_) fun _ => rfl
    simp only [kept_finishCmd, kept_agedEvent, kept_calEvent, kept_closeSession,
      kept_foldl _ (fun s t => kept_updTileCal t _ s), kept_mk, kept_fold, kept_predict]
  · rfl

theorem execLoadPlanDone_completes (s : State) : Completes s (execLoadPlanDone s) := by
  refine .of_kept ?_
  split
  · refine kept_choice (fun _ => ?_) fun _ => rfl
    extract_lets img r _ s1 _ _
    have h1 : kept s1 = kept s := kept_setLstat _ _ _
    clear_value s1 r
    split
    · exact (kept_finishCmd _ _ _ _).trans h1
    · exact (kept_finishCmd _ _ _ _).trans h1
  · rfl

theorem execVerifyDone_completes (s : State) : Completes s (execVerifyDone s) := by
  refine .of_kept ?_
  split
  · refine kept_choice (fun _ => ?_) fun _ => rfl
    extract_lets img r _ s1
    have h1 : kept s1 = kept s := kept_setLstat _ _ _
    clear_value s1 r
    split
    · exact (kept_finishCmd _ _ _ _).trans h1
    · exact (kept_finishCmd _ _ _ _).trans h1
  · rfl

theorem execUpdateVerifyDone_completes (safety peer : Bool) (s : State) :
    Completes s (execUpdateVerifyDone safety peer s) := by
  refine .of_choice (fun _ => ?_) fun _ => ?_
  · split
    · exact kept_choice (fun _ => rfl) fun _ => kept_endUpdateVerify _ _ _ _
    · rfl
  · split
    · exact kept_choice (fun _ => kept_endUpdateVerify _ _ _ _) fun _ => rfl
    · rfl

theorem execIcuSourceOccurrence_completes (src : IcuId) (s : State) : Completes s (execIcuSourceOccurrence src s) := by
  refine .of_choice (fun _ => ?_) fun _ => rfl
  split
  · rfl
  · exact kept_choice (fun _ => kept_icuArrive src s) fun _ => rfl

theorem execHeartbeatReceive_completes (st : Bool) (h : Heartbeat) (s : State) :
    Completes s (execHeartbeatReceive st h s) := by
  refine .of_sound (.ite (fun _ => .ite (fun _ => .of_kept (kept_updStreet _ _ _)) fun _ =>
    .ite (fun _ => roleConflict_sound _ s) fun _ => ?_) fun _ => .refl s)
  extract_lets s1
  have h1 : kept s1 = kept s := kept_updStreet _ _ _
  refine .after_kept h1 (.ite (fun _ => .ite (fun _ => .refl _) fun _ => .of_kept (kept_redEvent _ _ _)) fun _ =>
    .ite (fun _ => roleConflict_sound _ s1) fun _ => .of_kept (kept_peerSeen h s1))

theorem execStreetMissing_completes (st : Bool) (s : State) : Completes s (execStreetMissing st s) := by
  refine .of_sound (.ite (fun _ => ?_) fun _ => .refl s)
  extract_lets _ s1
  have h1 : kept s1 = kept s := by
    dsimp only [s1]
    rw [kept_judgePeerLost, kept_linkEvent, kept_updStreet]
    rfl
  refine .after_kept h1 (.ite (fun h => takeOver_sound ?_) fun _ => .refl s1)
  exact (Bool.and_eq_true_iff.1 h).2

theorem execClaimFrameReceive_completes (c : Half) (role : Role) (ok : Bool) (s : State) :
    Completes s (execClaimFrameReceive c role ok s) :=
  .of_sound (.ite (fun _ => .refl s) fun _ => .ite (fun _ => roleConflict_sound role s) fun _ =>
    .ite (fun _ => roleConflict_peerShows_sound role c s) fun _ => peerClaim_sound c s)

theorem execClaimLineMissing_completes (s : State) : Completes s (execClaimLineMissing s) := by
  refine .of_sound (.ite (fun _ => .of_peer (c := 0) ?_ ?_) fun _ => .refl s)
  · rw [kept_judgePeerLost, kept_linkEvent]; rfl
  · by_cases h : s.red.own = 0
    · exact .inl h
    · right; bv_omega

theorem execGateEnable_completes (s : State) : Completes s (execGateEnable s) := by
  refine .of_sound (.ite (fun h => ?_) fun _ => .refl s)
  simp only [Bool.and_eq_true, Bool.or_eq_true, isSolo, decide_eq_true_eq] at h
  obtain ⟨⟨⟨_, hc⟩, _⟩, hp⟩ := h
  exact gatesClose_sound hc (hp.imp id And.right)

/-- The epoch is renumbered to 1 while the peer shows no claim (R328). -/
theorem execEpochRenumber_completes (s : State) : Completes s (execEpochRenumber s) := by
  refine .of_sound (.ite (fun h => ?_) fun _ => .refl s)
  simp only [Bool.and_eq_true, decide_eq_true_eq] at h
  obtain ⟨⟨⟨hst, hown⟩, hpeer⟩, _⟩ := h
  extract_lets _ s1
  have h1 : Sound s s1 := by
    refine ⟨rfl, fun ⟨hgate, _, hconf⟩ => ⟨fun _ => ⟨(by decide : (1 : Half) ≠ 0), .inr ?_⟩, fun _ => .inl hst, fun hc => ?_⟩, id⟩
    · change s.red.peer < 1
      rw [hpeer]; decide
    · have h0 : s.red.own = 0 := hconf hc
      rw [h0] at hown
      exact absurd hown (by decide)
  exact .ite (fun _ => h1.then_kept (kept_epochMarkers _ _ _)) fun _ => h1

theorem execElectionWindowEnd_completes (s : State) : Completes s (execElectionWindowEnd s) := by
  refine .of_sound (.ite (fun h => ?_) fun _ => .refl s)
  simp only [Bool.and_eq_true, decide_eq_true_eq] at h
  obtain ⟨⟨⟨⟨hst, _⟩, _⟩, hm⟩, _⟩ := h
  extract_lets seen
  refine Sound.then_kept (Sound.after_kept (t := { s with red.election := false, red.alone := inPair s && !seen }) rfl
    (raiseClaim_sound (e := 1) ?_ (mayClaim_roleConflict hm))) (kept_judgePeerLost _)
  exact ⟨by simp [hst], by simp [hst]⟩

theorem execStandbyRephase_completes (cn : Word) (wi : BitVec 12) (offset : Int) (s : State) :
    Completes s (execStandbyRephase cn wi offset s) := by
  refine .of_sound (.ite (fun _ => .ite (fun _ => ?_) fun _ => .of_kept rfl) fun _ => .refl s)
  extract_lets again _ n _ _ _ s1
  have hn : kept n = kept s := kept_nextCourse { s with course.run := false }
  clear_value n
  have h1 : Sound s s1 := by
    refine Sound.after_kept ?_ (beginCourse_sound _)
    exact hn
  exact .ite (fun _ => h1.then_kept (kept_redEvent _ _ _)) fun _ => h1

theorem execPd1Restart_completes (s : State) : Completes s (execPd1Restart s) := by
  refine .of_sound (.ite (fun _ => ?_) fun _ => .refl s)
  exact (Sound.after_kept ((kept_domEvent _).trans (kept_pd1Up s)) (startElection_sound _)).then_kept
    (kept_safeEvent _ _ _ _)

theorem execEthFrameReceive_completes (p : Fin 2) (f : EthFrame) (s : State) :
    Completes s (execEthFrameReceive p f s) :=
  .of_sound (.ite (fun _ => .ite (fun _ => .of_kept (kept_ethCount _ _ _)) fun _ =>
    .ite (fun _ => .of_kept (kept_ethCount _ _ _)) fun _ => ethAccept_sound _ _ _ s) fun _ => .refl s)

theorem execEthFrameTransmit_completes (p : Fin 2) (s : State) : Completes s (execEthFrameTransmit p s) := by
  refine .of_sound (.ite (fun _ => ?_) fun _ => .refl s)
  split
  · extract_lets r d flags ts b s1
    have h1 : Sound s s1 := .after_kept (kept_ethSend _ _ s) (dmaWrite_sound _ _ _)
    exact h1.then_kept (by rw [kept_setSticky, kept_ethCount, kept_updRing]; rfl)
  · exact .refl s

theorem execCanFrameReceive_completes (n : Fin 4) (f : CanFrame) (s : State) :
    Completes s (execCanFrameReceive n f s) := by
  refine .of_choice (fun _ => ?_) fun _ => rfl
  extract_lets s1
  have h1 : kept s1 = kept s := by
    dsimp only [s1]
    split
    · exact kept_storeBox _ _ _ _
    · simp only [kept_ite, kept_storeQueue, kept_updCan, ite_self]
  clear_value s1
  exact kept_choice (fun _ => (kept_canJudge _ _).trans h1) fun _ => h1

theorem execCanFrameSent_completes (n : Fin 4) (sub : Half) (s : State) : Completes s (execCanFrameSent n sub s) := by
  refine .of_kept ?_
  split
  · refine kept_choice (fun _ => ?_) fun _ => rfl
    exact (kept_canJudge _ _).trans ((kept_endBox _ _ _ _).trans (kept_updCan _ _ _))
  · rfl

theorem execCanTxError_completes (n : Fin 4) (arb : Bool) (s : State) : Completes s (execCanTxError n arb s) := by
  refine .of_kept ?_
  split
  · simp only [kept_ite, kept_canState, kept_canJudge, kept_endBox, kept_updCan, ite_self]
  · rfl

theorem execHostRead_completes (usb : Bool) (command : Byte) (addr : Word) (crc : Byte) (s : State) :
    Completes s (execHostRead usb command addr crc s) := by
  refine .of_sound (hostTransaction_sound _ _ _ _ _ _ _ s (.ite (fun _ => .of_kept ?_) fun _ =>
    .of_kept (kept_hostReadNow _ _ _ s)))
  exact (kept_hostAnswer _ _).trans (kept_hostSelect _ _ _)

theorem execHostWrite_completes (usb : Bool) (command : Byte) (addr : Word) (words : List Word) (crc : Byte) (s : State) :
    Completes s (execHostWrite usb command addr words crc s) := by
  refine .of_sound (.ite (fun _ => .refl s) fun _ => hostTransaction_sound _ _ _ _ _ _ _ s ?_)
  exact (Sound.after_kept (kept_hostSelect usb true s) (writeWords_sound _ _ _)).then_kept
    ((kept_hostAnswer _ _).trans (kept_hostSelect _ _ _))

theorem execLogReady_completes (bad : List (Fin 5 × Word × Nat)) (s : State) : Completes s (execLogReady bad s) := by
  refine .of_choice (fun _ => ?_) fun _ => rfl
  simp only [kept_wearJudge, kept_trendSpoil, kept_journalServe, kept_mk, kept_fold,
    kept_foldl _ (fun s p => kept_updPart p _ s), kept_foldl _ (fun s p => kept_discardPages p _ s)]

theorem execPanelCopyDone_completes (k : Fin 34) (s : State) : Completes s (execPanelCopyDone k s) := by
  refine .of_choice (fun _ => ?_) fun _ => rfl
  split
  · simp only [kept_ite, kept_mk, kept_fold, kept_updArea, ite_self]
  · rfl

theorem execPanelUpdateDone_completes (k : Fin 34) (s : State) : Completes s (execPanelUpdateDone k s) := by
  refine .of_choice (fun _ => ?_) fun _ => rfl
  split
  · simp only [kept_ite, kept_mk, kept_fold, kept_wholeDone, kept_panelEvent, kept_showRun, kept_areaDone, kept_setSticky,
      kept_updArea, ite_self]
  · rfl

theorem execCrackLoopMeasure_completes (meas : Half) (s : State) : Completes s (execCrackLoopMeasure meas s) := by
  refine .of_choice (fun _ => ?_) fun _ => rfl
  simp only [kept_ite, kept_mk, kept_fold, kept_panelEvent, kept_foldl _ (fun s k => kept_updArea k _ s), kept_dropAllPend,
    ite_self]

/-! Power. -/

theorem execPowerOn_completes (role : Role) (tcxo refs trim : Bool) (rtc : Option Nat) (s : State) :
    Completes s (execPowerOn role tcxo refs trim rtc s) := by
  refine .of_sound (.ite (fun _ => ?_) fun _ => .refl s)
  extract_lets _ _ _ _ _ s1 s2
  have h1 : Sound s s1 := .of_claimless (p := 0) (r := role) (st := ({ role := role } : RedBlk).state) (c := false) rfl
  have h2 : Sound s s2 := h1.then_kept (kept_agedEvent _ _)
  refine .ite (fun _ => ?_) fun _ => ?_
  · exact (h2.then_kept (u := { s2 with sys.step := 1 }) rfl).trans (startRefs_sound refs trim _)
  · exact h2.then_kept ((kept_supEvent _ _ _).trans (kept_setSticky _ _ _))

theorem execClockFault_completes (s : State) : Completes s (execClockFault s) := by
  refine .of_sound (.ite (fun _ => ?_) fun _ => .refl s)
  extract_lets s1 _ s2
  have h1 : kept s1 = kept s := by
    dsimp only [s1]
    rw [kept_supEvent, kept_setSticky, kept_endSwitch]
  clear_value s1
  have h2 : Sound s s2 := by
    refine Sound.after_kept ?_ ((becomeIdle_sound _).trans (shed_sound [6, 5, 4, 3, 2, 1, 7] _))
    exact h1
  clear_value s2
  exact h2.then_kept rfl

theorem execClockHoldEnd_completes (refs trim : Bool) (s : State) : Completes s (execClockHoldEnd refs trim s) := by
  refine .of_sound (.ite (fun _ => ?_) fun _ => .refl s)
  have hi := becomeIdle_sound s
  have h0 : (becomeIdle s).red.own = 0 := own_of_kept (kept_becomeIdle s)
  generalize becomeIdle s = t at hi h0
  refine Sound.trans ?_ (startRefs_sound refs trim _)
  exact hi.idle_to h0 rfl

theorem kept_sup (b : SupBlk) (s : State) : kept { s with sup := b } = kept s := rfl

theorem execHoldupMeasure_completes (volt : Half) (charging : Bool) (cap : Option Half) (s : State) :
    Completes s (execHoldupMeasure volt charging cap s) := by
  unfold execHoldupMeasure
  extract_lets c e low x s1
  have h1 : kept s1 = kept s := kept_sup _ s
  exact .of_kept (kept_choice (fun _ => h1) fun _ => (kept_supEvent _ _ s1).trans h1)

theorem execSupplyLoss_completes (vs : Half) (s : State) : Completes s (execSupplyLoss vs s) := by
  refine .of_sound (.ite (fun _ => ?_) fun _ => .refl s)
  extract_lets risk s0 _ _ _ s1 s2 s3
  have h2 : kept s2 = kept s := by
    dsimp only [s2, s1, s0]
    rw [kept_panelLoss, kept_supEvent, kept_setSticky]
    exact kept_endSwitch s
  have h3 : Sound s2 s3 :=
    .ite (fun _ => yieldNow_sound 4 s2) fun _ => .ite (fun _ => becomeIdle_sound s2) fun _ => gatesOpen_sound s2
  exact ((Sound.after_kept h2 h3).trans (shed_sound [6, 5, 4, 3, 2, 1] s3)).then_kept (kept_netReset _)

theorem execDomainSwitchDone_completes (trim : Bool) (s : State) : Completes s (execDomainSwitchDone trim s) := by
  refine .of_sound ?_
  split
  · refine .ite (fun _ => .refl s) fun _ => ?_
    extract_lets l _ s0 s1
    have h1 : Sound s0 s1 := .foldl (fun s d => .ite (fun _ => domainUp_sound d trim s) fun _ => domainDown_sound d s) _ _
    exact (Sound.after_kept (s := s) (t := s0) rfl h1).then_kept (kept_endIfRunning _ _ _ _ _)
  · exact .refl s

/-! Every command. -/

theorem exec_completes (c : Instr) (s : State) : Completes s (exec c s) := by
  cases c with
  | courseBoundary => exact .of_sound (courseBoundary_sound _ _ s)
  | endList => exact .of_choice (fun _ => kept_updEngine _ _ _) fun _ => rfl
  | idle => exact .of_slotWord (fun _ => rfl)
  | move => exact .of_slotWord (fun s => kept_cellSet _ _ _ _)
  | recWrite => exact .of_slotWord (fun s => kept_recWord _ _)
  | fetch => exact .of_slotWord (fun s => by split <;> simp only [kept_fetchWord, kept_fetchDigital])
  | filter => exact .of_slotWord (fun s => kept_filterWord _ _ _)
  | lin => exact .of_slotWord (fun s => kept_linWord _ _ _)
  | linsum => exact .of_slotWord (fun s => kept_linsumWord _ _ _)
  | char => exact .of_slotWord (fun s => kept_charWord _ _ _)
  | cvt => exact .of_slotWord (fun s => kept_cvtWord _ _ _)
  | tilecmdRotation => exact .of_slotWord (fun s => kept_rotationOrder _ _ _ _)
  | tilecmdOpenTest => exact .of_slotWord (fun s => by simp only [kept_ite, kept_updInp, ite_self])
  | hart => exact .of_slotWord (fun s => kept_hartAdvance _ _)
  | cmp => exact .of_slotWord (fun s => kept_cmpWord _ _)
  | rate => exact .of_slotWord (fun s => kept_rateWord _ _)
  | delay => exact .of_slotWord (fun s => kept_delayWord _ _)
  | logic => exact .of_slotWord (fun s => kept_logicWord _ _)
  | group => exact .of_slotWord (fun s => kept_groupWord _ _)
  | call => exact .of_slotWord (fun s => by split <;> simp only [kept_callWord, kept_watchWord])
  | out => exact .of_slotWord (fun s => kept_outWord _ _ _)
  | courseOverrun => exact .of_kept (kept_courseOverrun _)
  | sampleReady => exact .of_kept (kept_sampleReady _ _ _)
  | hartRt1Expiry => exact .of_kept (kept_hartFail _ _ _)
  | submit => exact .of_kept (kept_submitCmd _ _ _)
  | hartCancel => exact .of_kept (kept_hartCancel _ _ _)
  | release => exact .of_kept (kept_hartRelease _ _ _)
  | hartDescWrite => exact .of_kept (kept_hartDescWrite _ _ _ _)
  | sessionOpen => exact .of_kept (kept_sessionOpen _ _ _)
  | measure => exact .of_kept (kept_measureCmd _ _ _)
  | commit => exact .of_kept (kept_commitCmd _ _ _)
  | sessionClose => exact .of_kept (kept_sessionClose _ _ _)
  | loadPlan => exact .of_kept (kept_loadPlan _ _ _)
  | stopPlan => exact .of_kept (kept_stopPlan _ _ _)
  | updateDistrict => exact .of_kept (kept_updateDistrict _ _ _)
  | abortUpdate => exact .of_kept (kept_abortUpdate _ _ _)
  | verify => exact .of_kept (kept_verifyCmd _ _ _)
  | erase => exact .of_kept (kept_eraseCmd _ _ _)
  | program => exact .of_kept (kept_programCmd _ _ _)
  | clearPeak => exact .of_kept (kept_clearPeakCmd _ _ _)
  | channelMaint => exact .of_kept (kept_channelMaint _ _ _ _)
  | openTest => exact .of_kept (kept_openTest _ _ _ _)
  | tileRestart => exact .of_kept (kept_tileRestart _ _ _ _)
  | digitalCfgWrite => exact .of_kept (kept_digCfgWrite _ _ _)
  | outReset => exact .of_kept (kept_outReset _ _ _)
  | relearn => exact .of_kept (kept_relearn _ _ _)
  | ackPoint => exact .of_kept (kept_alarmCmd _ _ _ _)
  | ackGroup => exact .of_kept (kept_alarmCmd _ _ _ _)
  | ackAll => exact .of_kept (kept_alarmCmd _ _ _ _)
  | silence => exact .of_kept (kept_alarmCmd _ _ _ _)
  | inhibit => exact .of_kept (kept_alarmCmd _ _ _ _)
  | resetFirstOut => exact .of_kept (kept_alarmCmd _ _ _ _)
  | setDuty => exact .of_kept (kept_callCmd _ _ _ _)
  | watchEnable => exact .of_kept (kept_callCmd _ _ _ _)
  | watchReset => exact .of_kept (kept_callCmd _ _ _ _)
  | squarePin => exact .of_kept (kept_squarePin _ _ _)
  | squareWindowWrite => exact .of_kept (kept_windowWrite _)
  | icuSwi => exact .of_kept (kept_icuSwi _ _ _)
  | icuClaim => exact .of_kept (kept_icuClaimRead _ _ _)
  | icuEoi => exact .of_kept (kept_icuEoi _ _ _ _)
  | icuTiersWrite => exact .of_kept (kept_icuTiersWrite _ _ _)
  | icuSrcCfgWrite => exact .of_kept (kept_icuSrcCfgWrite _ _ _ _)
  | evqPop => exact .of_kept (kept_evqPop _ _ _ _)
  | switchover => exact .of_kept (kept_switchover _ _ _)
  | clearCounts => exact .of_kept (kept_clearCounts _ _ _)
  | updateSafetyDistrict => exact .of_kept (kept_updateSafety _ _ _)
  | releaseLane => exact .of_kept (kept_releaseCmd _ _ _ _)
  | restoreLane => exact .of_kept (kept_restoreCmd _ _ _ _)
  | releaseOutput => exact .of_kept (kept_releaseCmd _ _ _ _)
  | restoreOutput => exact .of_kept (kept_restoreCmd _ _ _ _)
  | resetLane => exact .of_kept (kept_resetLane _ _ _)
  | forceReset => exact .of_kept (kept_forceResetCmd _ _ _)
  | ethCfgWrite => exact .of_kept (kept_ethCfgWrite _ _ _)
  | ethQueueCtlWrite => exact .of_kept (kept_ethCtlWrite _ _ _ _)
  | ptpSet => exact .of_kept (kept_ptpAsk _ _ _ _)
  | ptpStep => exact .of_kept (kept_ptpAsk _ _ _ _)
  | canSend => exact .of_kept (kept_canSend _ _ _)
  | canWithdraw => exact .of_kept (kept_canWithdraw _ _ _)
  | canQueueFree => exact .of_kept (kept_canFree _ _ _ _)
  | canCfgWrite => exact .of_kept (kept_canCfgWrite _ _ _ _)
  | canMsgramWrite => exact .of_kept (kept_canRamWrite _ _ _ _)
  | append => exact .of_kept (kept_appendLog _ _ _)
  | capture => exact .of_kept (kept_captureCmd _ _ _)
  | trendRecord => exact .of_kept (kept_trendEnd _)
  | panelUpdate => exact .of_kept (kept_panelUpdate _ _ _)
  | panelCancel => exact .of_kept (kept_panelCancel _ _ _)
  | clearPanel => exact .of_kept (kept_clearPanel _ _ _)
  | domainOff => exact .of_kept (kept_domainCmd _ _ _ _)
  | domainOn => exact .of_kept (kept_domainCmd _ _ _ _)
  | reset => exact .of_kept (kept_resetCmd _ _ _)
  | laneStale =>
    refine .of_kept ?_
    split
    · exact kept_choice (fun _ => kept_tripUpdate _) fun _ => rfl
    · rfl
  | hartTransactionStart m =>
    obtain ⟨t, ht, hk⟩ := kept_execHartTransactionStart m s
    exact ⟨t, ht, .of_kept hk⟩
  | hartRetry =>
    refine .of_kept ?_
    split
    · exact kept_choice (fun _ => (kept_hartSend _ _ _).trans (kept_updDesc _ _ _)) fun _ => rfl
    · rfl
  | hartResponse => exact execHartResponse_completes _ _ _ s
  | rotationStepEnd => exact execRotationStepEnd_completes _ _ _ _ s
  | commitDone => exact execCommitDone_completes _ s
  | loadPlanDone => exact execLoadPlanDone_completes s
  | updateVerifyDone => exact execUpdateVerifyDone_completes _ _ s
  | verifyDone => exact execVerifyDone_completes s
  | norDone => exact .of_sound ((norDone_sound _ s).then_kept (kept_hostResume _))
  | planArchive =>
    refine .of_kept ?_
    split
    · exact kept_choice (fun _ => kept_archiveImage _ _) fun _ => rfl
    · rfl
  | icuSourceOccurrence => exact execIcuSourceOccurrence_completes _ s
  | eventRecordArrival =>
    refine .of_kept ?_
    split
    · exact kept_choice (fun _ => kept_evqArrive _ _) fun _ => rfl
    · rfl
  | heartbeatReceive => exact execHeartbeatReceive_completes _ _ s
  | streetMissing => exact execStreetMissing_completes _ s
  | claimFrameReceive => exact execClaimFrameReceive_completes _ _ _ s
  | claimLineMissing => exact execClaimLineMissing_completes s
  | gateEnable => exact execGateEnable_completes s
  | epochRenumber => exact execEpochRenumber_completes s
  | electionWindowEnd => exact execElectionWindowEnd_completes s
  | standbyRephase => exact execStandbyRephase_completes _ _ _ s
  | yieldMessageReceive =>
    exact .of_sound (.ite (fun h => takeOver_sound (Bool.and_eq_true_iff.1 h).2) fun _ => .refl s)
  | releaseLapsed =>
    refine .of_kept ?_
    split
    · exact kept_choice (fun _ => kept_safeEvent _ _ _ _) fun _ => rfl
    · rfl
  | watchdogExpiry => exact .of_sound (.ite (fun _ => pd1Hold_sound 1 s) fun _ => .refl s)
  | lockstepMismatch => exact .of_sound (.ite (fun _ => pd1Hold_sound 2 s) fun _ => .refl s)
  | pd1Restart => exact execPd1Restart_completes s
  | ethFrameReceive => exact execEthFrameReceive_completes _ _ s
  | ethFrameTransmit => exact execEthFrameTransmit_completes _ s
  | canFrameReceive => exact execCanFrameReceive_completes _ _ s
  | canFrameSent => exact execCanFrameSent_completes _ _ s
  | canTxError => exact execCanTxError_completes _ _ s
  | hostRead => exact execHostRead_completes _ _ _ _ s
  | hostWrite => exact execHostWrite_completes _ _ _ _ _ s
  | hostReset => exact .of_sound (.ite (fun _ => nodeReset_sound 2 _ _ s) fun _ => .refl s)
  | logRead => exact .of_sound (readLog_sound _ _ _ s)
  | captureComplete =>
    refine .of_kept ?_
    split
    · refine kept_choice (fun _ => ?_) fun _ => rfl
      exact kept_choice (fun _ => (kept_logEvent _ _ _ _).trans (kept_ringPut _ _ _)) fun _ => kept_updCap _ _ _
    · rfl
  | logReady => exact execLogReady_completes _ s
  | panelCopyDone => exact execPanelCopyDone_completes _ s
  | panelUpdateDone => exact execPanelUpdateDone_completes _ s
  | crackLoopMeasure => exact execCrackLoopMeasure_completes _ s
  | powerOn => exact execPowerOn_completes _ _ _ _ _ s
  | refCheckRetry => exact .of_sound (.ite (fun _ => startRefs_sound _ _ s) fun _ => .refl s)
  | clockFault => exact execClockFault_completes s
  | clockHoldEnd => exact execClockHoldEnd_completes _ _ s
  | supplyLoss => exact execSupplyLoss_completes _ s
  | shedPd7Off => exact .of_sound (.ite (fun _ => (domainDown_sound 7 s).then_kept rfl) fun _ => .refl s)
  | supplyReturn => exact .of_sound (.ite (fun _ => nodeReset_sound 1 _ _ s) fun _ => .refl s)
  | holdupMeasure => exact execHoldupMeasure_completes _ _ _ s
  | domainSwitchDone => exact execDomainSwitchDone_completes _ s
  | coreReset => exact .of_sound (coreReset_sound _ _ s)
  | registerWrite => exact .of_sound (busWrite_sound _ _ _ _ s)
  | holdupExhausted => exact .of_sound (.ite (fun _ => powerless_sound s) fun _ => .refl s)
  | _ =>
    exact .of_kept (by simp only [kept_mk, kept_fold, kept_ite, ite_self, kept_onConfirmed, kept_agedEvent, kept_beginRun, kept_blockEv,
      kept_calEvent, kept_callStage1, kept_callStage2, kept_canGates, kept_canJudge, kept_canState, kept_chanEvent,
      kept_commitItems, kept_convsBack, kept_digEvent, kept_digSticky, kept_dioOctlWrite, kept_dioResolve,
      kept_endIfRunning, kept_ethSend, kept_evqCtlWrite, kept_faultConfirmed, kept_faultCourse, kept_forceSet,
      kept_gatesApply, kept_hartAbort, kept_hartRegate, kept_hostAnswer, kept_hostRefuse, kept_inrushBudget,
      kept_journalServe, kept_judgePeerLost, kept_liCfgWrite, kept_liEvent, kept_linkEvent, kept_logFault,
      kept_offConfirmed, kept_orderYield, kept_panelEvent, kept_ptpNowRead, kept_ptpValid, kept_raiseEvAt,
      kept_redEvent, kept_safeEvent, kept_setPhase, kept_setPoint, kept_setResp, kept_setSticky, kept_squarePublish,
      kept_startWhole, kept_supEvent, kept_tileRegs, kept_tripUpdate, kept_ucCfgWrite, kept_ucOctlWrite,
      kept_ucResolve, kept_ucSticky, kept_updCan, kept_updConv, kept_updDig, kept_updDio, kept_updEth, kept_updInp,
      kept_updLi, kept_updModem, kept_updPart, kept_updPoint, kept_updStreet, kept_updTile, kept_updTileCal,
      kept_updUc, kept_watchStage2, kept_wearJudge, kept_windowReadN, kept_xferFails])

/-! What a step takes from the queue it leaves there for the command it runs. -/

/-- Settles O2: every command goes on, and `kept` holds the queue, the ordering code and the serial number. -/
theorem everyCommandCompletes : Obligations.EveryCommandCompletes := by
  intro c s
  obtain ⟨t, ht, hk⟩ := exec_completes c s
  have hq := hk.queue
  simp only [kept, Prod.mk.injEq] at hq
  exact ⟨t, ht, hq⟩

/-- A step runs a command on the state with the queue's rest, or idles. -/
theorem step_cases {s t : State} (h : step s = .next t) :
    t = s ∨ ∃ c r, s.pending = c :: r ∧ exec c { s with pending := r } = .next t := by
  unfold step at h
  split at h
  · cases h
    exact .inl rfl
  · rename_i c r hp
    exact .inr ⟨c, r, hp, h⟩

/-- A command that runs leaves a sound state. -/
theorem exec_sound {c : Instr} {s t : State} (h : exec c s = .next t) : Sound s t := by
  obtain ⟨u, hu, hs⟩ := exec_completes c s
  rw [hu] at h
  cases h
  exact hs

/-- Settles O3: a step is sound, and the claim rule does not read the queue. -/
theorem stepKeepsClaimRule : Obligations.StepKeepsClaimRule := by
  intro s t hs h
  obtain rfl | ⟨c, r, _, he⟩ := step_cases h
  · exact hs
  · exact (exec_sound he).claim hs

/-- Settles O1: the match of `step` on the queue. -/
theorem stepRunsFront : Obligations.StepRunsFront := by
  refine ⟨fun c r s hp => ?_, fun s hp => ?_⟩
  · rw [step, hp]
  · rw [step, hp]

end Sys2Proof.Machine
end

section
/-! The block at reset (R324, register tables of the chapters). -/

namespace Sys2Proof.Machine

/-- Every row of `rows` reads its reset value, whoever reads. -/
def RowsRead (rows : List (Nat × Nat × Word × Word)) : Prop :=
  ∀ (req : Requester), ∀ x ∈ rows, (regWord req State.reset x.1 x.2.1) &&& x.2.2.1 = x.2.2.2

theorem resetRows0_read : RowsRead resetRows0 := by
  intro req
  cases req <;> decide

theorem resetRows1_read : RowsRead resetRows1 := by
  intro req
  cases req <;> decide

theorem resetRows2_read : RowsRead resetRows2 := by
  intro req
  cases req <;> decide

theorem resetRows3_read : RowsRead resetRows3 := by
  intro req
  cases req <;> decide

theorem resetRows4_read : RowsRead resetRows4 := by
  intro req
  cases req <;> decide

theorem resetRows5_read : RowsRead resetRows5 := by
  intro req
  cases req <;> decide

theorem resetRows6_read : RowsRead resetRows6 := by
  intro req
  cases req <;> decide

theorem RowsRead.append {l m : List (Nat × Nat × Word × Word)} (hl : RowsRead l) (hm : RowsRead m) : RowsRead (l ++ m) :=
  fun req x hx => (List.mem_append.1 hx).elim (hl req x) (hm req x)

theorem resetTable_read : RowsRead resetTable :=
  (((((resetRows0_read.append resetRows1_read).append resetRows2_read).append resetRows3_read).append
    resetRows4_read).append resetRows5_read).append resetRows6_read

/-- Settles O4: no claim and empty memories at reset, and the rows of the register tables evaluated chunk by chunk. -/
theorem resetState : Obligations.ResetState := by
  refine ⟨⟨fun h => absurd h Bool.false_ne_true, fun h => absurd rfl h, fun h => absurd h Bool.false_ne_true⟩, ?_, rfl, rfl,
    rfl, rfl, resetTable_read⟩
  exact ⟨rfl, fun _ => rfl, rfl, fun _ => rfl, rfl⟩

end Sys2Proof.Machine
end

section
/-! What each slot word may write: the frame of its work, from which the walk of the engines (R67, R70) follows. -/

namespace Sys2Proof.Machine

/-! Engine 0. -/

/-- Only cells of E0 and channel contexts differ. -/
def ChannelOnly (s t : State) : Prop := ∃ cells ctx, t = { s with course.e0.cells := cells, course.ctx := ctx }

theorem ChannelOnly.ite {c : Prop} [Decidable c] {s t u : State} (ht : ChannelOnly s t) (hu : ChannelOnly s u) :
    ChannelOnly s (if c then t else u) := by
  split
  · exact ht
  · exact hu

theorem ChannelOnly.trans {s t u : State} (h : ChannelOnly s t) (k : ChannelOnly t u) : ChannelOnly s u := by
  obtain ⟨_, _, rfl⟩ := h
  obtain ⟨_, _, rfl⟩ := k
  exact ⟨_, _, rfl⟩

theorem updCtx_channelOnly (c : Nat) (f : ChanCtx → ChanCtx) (s : State) : ChannelOnly s (updCtx c f s) := ⟨_, _, rfl⟩

theorem cellSet_channelOnly (b : Nat) (v : Dword) (s : State) : ChannelOnly s (cellSet 0 b v s) := ⟨_, _, rfl⟩

theorem cellSet_frame (e b : Nat) (v : Dword) (s : State) :
    ∃ c0 c1, cellSet e b v s = { s with course.e0.cells := c0, course.e1.cells := c1 } := by
  unfold cellSet updEngine
  split
  · exact ⟨_, _, rfl⟩
  · exact ⟨_, _, rfl⟩

theorem recWord_frame (r : Nat) (s : State) :
    ∃ a d, recWord r s = { s with square.work.ana := a, square.work.dig := d } := by
  unfold recWord
  by_cases hr : r < 80
  · rw [if_pos hr]
    split <;> exact ⟨_, _, rfl⟩
  · rw [if_neg hr]
    by_cases hp : planned s (if r < 112 then 3 else 4) ((r - 80) % 32) = true
    · rw [if_pos hp]; exact ⟨_, _, rfl⟩
    · rw [if_neg hp]; exact ⟨_, _, rfl⟩

theorem fetchWord_frame (c : Nat) (w : SlotWord) (s : State) : ChannelOnly s (fetchWord c w s) := by
  unfold fetchWord
  extract_lets n x r s1 s2
  have h : ChannelOnly s s2 := (updCtx_channelOnly c _ s).trans (cellSet_channelOnly _ _ s1)
  clear_value s2
  exact h.trans (.ite (updCtx_channelOnly _ _ _) (.ite (((cellSet_channelOnly _ _ _).trans (cellSet_channelOnly _ _ _)).trans
    (cellSet_channelOnly _ _ _)) ⟨_, _, rfl⟩))

theorem fetchDigital_frame (k : Nat) (w : SlotWord) (s : State) : ChannelOnly s (fetchDigital k w s) := ⟨_, _, rfl⟩

theorem filterWord_frame (c : Nat) (w : SlotWord) (s : State) : ChannelOnly s (filterWord c w s) := by
  unfold filterWord
  exact .ite ⟨_, _, rfl⟩ ⟨_, _, rfl⟩

theorem linWord_frame (c : Nat) (w : SlotWord) (s : State) : ChannelOnly s (linWord c w s) := ⟨_, _, rfl⟩

theorem linsumWord_frame (c : Nat) (w : SlotWord) (s : State) :
    ∃ cells, linsumWord c w s = { s with course.e0.cells := cells, free := s.free + 1 } := ⟨_, rfl⟩

theorem charWord_frame (c : Nat) (w : SlotWord) (s : State) : ChannelOnly s (charWord c w s) := by
  unfold charWord
  extract_lets b o u p f cut v
  exact .ite ⟨_, _, rfl⟩ (.ite ⟨_, _, rfl⟩ ⟨_, _, rfl⟩)

theorem cvtWord_frame (c : Nat) (w : SlotWord) (s : State) : ChannelOnly s (cvtWord c w s) := by
  unfold cvtWord
  extract_lets k x t r0 noT v same r good value st out
  exact .ite ⟨_, _, rfl⟩ ⟨_, _, rfl⟩

/-- Only a tile's calibration turns and the count of dropped orders differ. -/
theorem rotationOrder_frame (t c sp : Nat) (s : State) :
    ∃ x y, rotationOrder t c sp s = { s with tileCal := x, cal := y } := by
  unfold rotationOrder startTurn
  extract_lets x
  split
  · split
    · split
      · split <;> exact ⟨_, _, rfl⟩
      · exact ⟨_, _, rfl⟩
    · split <;> exact ⟨_, _, rfl⟩
  · exact ⟨_, _, rfl⟩

/-- Only modems differ. -/
theorem coupleModem_frame (m : Nat) (count : Bool) (s : State) :
    ∃ x, coupleModem m count s = { s with hart.modems := x } := by
  unfold coupleModem
  extract_lets t c
  split
  · exact ⟨_, rfl⟩
  · split
    · exact ⟨_, rfl⟩
    · split <;> exact ⟨_, rfl⟩

theorem hartAdvance_frame (m : Nat) (s : State) : ∃ x, hartAdvance m s = { s with hart.modems := x } := by
  unfold hartAdvance
  extract_lets x ts turn left moved s1
  by_cases he : ts.isEmpty = true
  · rw [if_pos he]
    exact ⟨_, rfl⟩
  · rw [if_neg he]
    obtain ⟨y, hy⟩ := coupleModem_frame m true s1
    split
    · rw [hy]; exact ⟨_, rfl⟩
    · exact ⟨_, rfl⟩

/-! Engine 1: alarms and calls. -/

/-- Only the points and the event record of points that changed, the queues and the log differ. -/
def PointsOnly (s t : State) : Prop :=
  ∃ p r e l f, t = { s with alarm.points := p, alarm.raised := r, evq := e, log := l, free := f }

theorem PointsOnly.refl (s : State) : PointsOnly s s := ⟨_, _, _, _, _, rfl⟩

theorem PointsOnly.trans {s t u : State} (h : PointsOnly s t) (k : PointsOnly t u) : PointsOnly s u := by
  obtain ⟨_, _, _, _, _, rfl⟩ := h
  obtain ⟨_, _, _, _, _, rfl⟩ := k
  exact ⟨_, _, _, _, _, rfl⟩

theorem PointsOnly.ite {c : Prop} [Decidable c] {s t u : State} (ht : PointsOnly s t) (hu : PointsOnly s u) :
    PointsOnly s (if c then t else u) := by
  split
  · exact ht
  · exact hu

/-- Only the log differs. -/
def LogOnly (s t : State) : Prop := ∃ l, t = { s with log := l }

theorem LogOnly.refl (s : State) : LogOnly s s := ⟨_, rfl⟩

theorem LogOnly.trans {s t u : State} (h : LogOnly s t) (k : LogOnly t u) : LogOnly s u := by
  obtain ⟨_, rfl⟩ := h
  obtain ⟨_, rfl⟩ := k
  exact ⟨_, rfl⟩

theorem LogOnly.foldl {α : Type} {g : State → α → State} (h : ∀ s x, LogOnly s (g s x)) (l : List α) (s : State) :
    LogOnly s (l.foldl g s) := by
  induction l generalizing s with
  | nil => exact .refl s
  | cons x l ih => exact (h s x).trans (ih _)

theorem ringPut_logOnly (p : Nat) (f : Word → List Byte) (s : State) : LogOnly s (ringPut p f s) := ⟨_, rfl⟩

theorem journalTake_logOnly (e : EventRec) (s : State) : LogOnly s (journalTake e s) := by
  unfold journalTake
  split
  · exact ringPut_logOnly _ _ _
  · exact ⟨_, rfl⟩

theorem capTrigger_logOnly (c : Nat) (t : Stamp) (s : State) : LogOnly s (capTrigger c t s) := by
  unfold capTrigger
  split
  · split <;> exact ⟨_, rfl⟩
  · exact .refl s

theorem capAlarm_logOnly (e : EventRec) (s : State) : LogOnly s (capAlarm e s) := by
  unfold capAlarm
  split
  · refine .foldl (fun s c => ?_) _ s
    dsimp only
    split
    · exact capTrigger_logOnly _ _ _
    · exact .refl s
  · exact .refl s

theorem raiseEv_evq (cls code source : Nat) (data : BitVec 96) (s : State) :
    ∃ e f, raiseEv cls code source data s = { s with evq := e, free := f } := ⟨_, _, raiseEv_frame cls code source data s⟩

theorem blockEv_evq (page code data : Nat) (s : State) :
    ∃ e f, blockEv page code data s = { s with evq := e, free := f } := raiseEv_evq _ _ _ _ s

theorem raiseAlarm_frame (p : Nat) (data : BitVec 96) (s : State) :
    ∃ e l f, raiseAlarm p data s = { s with evq := e, log := l, free := f } := by
  unfold raiseAlarm
  split
  · obtain ⟨e, f, he⟩ := raiseEv_evq 1 1 p data s
    rw [he]
    obtain ⟨l, hl⟩ := (journalTake_logOnly _ { s with evq := e, free := f }).trans (capAlarm_logOnly _ _)
    exact ⟨e, l, f, hl⟩
  · exact ⟨_, _, _, rfl⟩

theorem alarmRecord_frame (p : Nat) (old new : Half) (cause by_ : Nat) (s : State) :
    ∃ r e l f, alarmRecord p old new cause by_ s = { s with alarm.raised := r, evq := e, log := l, free := f } := by
  obtain ⟨e, l, f, h⟩ := raiseAlarm_frame p _ _
  exact ⟨_, e, l, f, h⟩

theorem updPoint_pointsOnly (p : Nat) (f : Point → Point) (s : State) : PointsOnly s (updPoint p f s) :=
  ⟨_, _, _, _, _, rfl⟩

theorem alarmRecord_pointsOnly (p : Nat) (old new : Half) (cause by_ : Nat) (s : State) :
    PointsOnly s (alarmRecord p old new cause by_ s) := by
  obtain ⟨r, e, l, f, h⟩ := alarmRecord_frame p old new cause by_ s
  exact ⟨_, r, e, l, f, h⟩

theorem ptTo_pointsOnly (p : Nat) (st : PState) (time : Stamp) (cause by_ : Nat) (old : Half) (s : State) :
    PointsOnly s (ptTo p st time cause by_ old s) :=
  (updPoint_pointsOnly _ _ _).trans (alarmRecord_pointsOnly _ _ _ _ _ _)

theorem onConfirmed_pointsOnly (p : Nat) (old : Half) (s : State) : PointsOnly s (onConfirmed p old s) :=
  (updPoint_pointsOnly _ _ _).trans (ptTo_pointsOnly _ _ _ _ _ _ _)

theorem offConfirmed_pointsOnly (p : Nat) (old : Half) (s : State) : PointsOnly s (offConfirmed p old s) :=
  (updPoint_pointsOnly _ _ _).trans (ptTo_pointsOnly _ _ _ _ _ _ _)

theorem faultConfirmed_pointsOnly (p : Nat) (old : Half) (s : State) : PointsOnly s (faultConfirmed p old s) :=
  .ite ((updPoint_pointsOnly _ _ _).trans (ptTo_pointsOnly _ _ _ _ _ _ _)) (updPoint_pointsOnly _ _ _)

theorem toNormal_pointsOnly (p cause : Nat) (c : Bool) (old : Half) (s : State) :
    PointsOnly s (toNormal p cause c old s) :=
  ((updPoint_pointsOnly _ _ _).trans (ptTo_pointsOnly _ _ _ _ _ _ _)).trans (updPoint_pointsOnly _ _ _)

theorem delayRun_pointsOnly (p : Nat) (old : Half) (s : State) : PointsOnly s (delayRun p old s) := by
  unfold delayRun
  refine .ite (.ite (.ite (onConfirmed_pointsOnly _ _ _) ?_) ?_) (.ite (.ite ?_ (.ite (offConfirmed_pointsOnly _ _ _) ?_)) (.refl s))
  all_goals exact updPoint_pointsOnly _ _ _

theorem delayBad_pointsOnly (p : Nat) (old : Half) (s : State) : PointsOnly s (delayBad p old s) := by
  unfold delayBad
  exact .ite (.ite (ptTo_pointsOnly _ _ _ _ _ _ _) (.refl s)) (.ite (faultConfirmed_pointsOnly _ _ _) (updPoint_pointsOnly _ _ _))

theorem delayGood_pointsOnly (p : Nat) (old : Half) (s : State) : PointsOnly s (delayGood p old s) := by
  unfold delayGood
  exact .ite (((updPoint_pointsOnly _ _ _).trans (toNormal_pointsOnly _ _ _ _ _)).trans (delayRun_pointsOnly _ _ _))
    ((updPoint_pointsOnly _ _ _).trans (delayRun_pointsOnly _ _ _))

theorem delayWord_pointsOnly (p : Nat) (s : State) : PointsOnly s (delayWord p s) := by
  unfold delayWord
  extract_lets b sup old s1 left s2 old2
  refine .ite (.trans ?_ (updPoint_pointsOnly _ _ _)) (.refl s)
  have h1 : PointsOnly s s1 := updPoint_pointsOnly _ _ _
  have h2 : PointsOnly s1 s2 := .ite (toNormal_pointsOnly _ _ _ _ _) (.refl s1)
  refine h1.trans ?_
  clear_value s1 s2 sup
  cases sup with
  | some st => exact .ite (updPoint_pointsOnly _ _ _) ((updPoint_pointsOnly _ _ _).trans (alarmRecord_pointsOnly _ _ _ _ _ _))
  | none =>
    refine h2.trans ?_
    dsimp only
    split
    · exact .refl s2
    · exact delayBad_pointsOnly _ _ _
    · exact delayGood_pointsOnly _ _ _

/-- Only the cells of points differ. -/
def CellsOnly (s t : State) : Prop := ∃ p, t = { s with alarm.points := p }

theorem CellsOnly.trans {s t u : State} (h : CellsOnly s t) (k : CellsOnly t u) : CellsOnly s u := by
  obtain ⟨_, rfl⟩ := h
  obtain ⟨_, rfl⟩ := k
  exact ⟨_, rfl⟩

theorem cmpWord_cellsOnly (p : Nat) (s : State) : CellsOnly s (cmpWord p s) := by
  unfold cmpWord
  extract_lets b x
  split <;> exact ⟨_, rfl⟩

theorem rateWindow_cellsOnly (p : Nat) (s : State) : CellsOnly s (rateWindow p s) := by
  unfold rateWindow
  extract_lets b x
  split
  · split <;> exact ⟨_, rfl⟩
  · exact ⟨_, rfl⟩

theorem rateWord_cellsOnly (p : Nat) (s : State) : CellsOnly s (rateWord p s) := by
  unfold rateWord
  split
  · exact (rateWindow_cellsOnly p s).trans (cmpWord_cellsOnly p _)
  · exact rateWindow_cellsOnly p s

theorem logicWord_cellsOnly (p : Nat) (s : State) : CellsOnly s (logicWord p s) := by
  unfold logicWord
  split
  · extract_lets s1
    have h1 : CellsOnly s s1 := ⟨_, rfl⟩
    clear_value s1
    split
    · exact h1.trans (cmpWord_cellsOnly p _)
    · exact h1
  · exact ⟨_, rfl⟩

/-- Only groups and the event queue's intake differ. -/
def GroupsOnly (s t : State) : Prop := ∃ g e f, t = { s with alarm.groups := g, evq := e, free := f }

theorem GroupsOnly.trans {s t u : State} (h : GroupsOnly s t) (k : GroupsOnly t u) : GroupsOnly s u := by
  obtain ⟨_, _, _, rfl⟩ := h
  obtain ⟨_, _, _, rfl⟩ := k
  exact ⟨_, _, _, rfl⟩

theorem updGroup_groupsOnly (g : Nat) (f : Group → Group) (s : State) : GroupsOnly s (updGroup g f s) := ⟨_, _, _, rfl⟩

theorem alarmEvent_groupsOnly (code group point : Nat) (s : State) : GroupsOnly s (alarmEvent code group point s) := by
  obtain ⟨e, f, h⟩ := blockEv_evq 0x13 code (group + point * 2 ^ 16) s
  exact ⟨_, e, f, h⟩

theorem emptyFo_groupsOnly (g : Nat) (s : State) : GroupsOnly s (emptyFo g s) := by
  unfold emptyFo
  split
  · exact (updGroup_groupsOnly _ _ _).trans (alarmEvent_groupsOnly _ _ _ _)
  · exact ⟨_, _, _, rfl⟩

theorem groupWord_groupsOnly (g : Nat) (s : State) : GroupsOnly s (groupWord g s) := by
  unfold groupWord
  split
  · extract_lets ms any quiet s1 s2
    have h1 : GroupsOnly s s1 := by
      unfold s1
      split
      · exact emptyFo_groupsOnly g s
      · exact ⟨_, _, _, rfl⟩
    have h2 : GroupsOnly s s2 := h1.trans (updGroup_groupsOnly _ _ _)
    clear_value s1 s2
    split
    · exact (h2.trans (updGroup_groupsOnly _ _ _)).trans (alarmEvent_groupsOnly _ _ _ _)
    · exact h2
  · exact ⟨_, _, _, rfl⟩

/-- Only the calls and the event queue's intake differ. -/
def CallsOnly (s t : State) : Prop := ∃ c e f, t = { s with alarm.call := c, evq := e, free := f }

theorem CallsOnly.refl (s : State) : CallsOnly s s := ⟨_, _, _, rfl⟩

theorem CallsOnly.trans {s t u : State} (h : CallsOnly s t) (k : CallsOnly t u) : CallsOnly s u := by
  obtain ⟨_, _, _, rfl⟩ := h
  obtain ⟨_, _, _, rfl⟩ := k
  exact ⟨_, _, _, rfl⟩

theorem CallsOnly.ite {c : Prop} [Decidable c] {s t u : State} (ht : CallsOnly s t) (hu : CallsOnly s u) :
    CallsOnly s (if c then t else u) := by
  split
  · exact ht
  · exact hu

theorem updCall_callsOnly (f : CallBlk → CallBlk) (s : State) : CallsOnly s (updCall f s) := ⟨_, _, _, rfl⟩

theorem updTab_callsOnly (t : Nat) (f : CallTab → CallTab) (s : State) : CallsOnly s (updTab t f s) := ⟨_, _, _, rfl⟩

theorem callEvent_callsOnly (code table detail : Nat) (s : State) : CallsOnly s (callEvent code table detail s) := by
  obtain ⟨e, f, h⟩ := blockEv_evq 0x14 code (table + detail * 2 ^ 16) s
  exact ⟨_, e, f, h⟩

theorem setTab_callsOnly (t : Nat) (x : CallTab) (s : State) : CallsOnly s (setTab t x s) := by
  unfold setTab
  extract_lets o y s1 s2
  have h2 : CallsOnly s s2 := .ite ⟨_, _, _, rfl⟩ ⟨_, _, _, rfl⟩
  clear_value s2
  exact .ite (h2.trans (callEvent_callsOnly _ _ _ _)) h2

theorem callAlarm_callsOnly (t : Nat) (s : State) : CallsOnly s (callAlarm t s) := by
  unfold callAlarm
  extract_lets x0 s1 s2
  refine .ite ?_ (.ite (.refl s) (setTab_callsOnly _ _ _))
  have h1 : CallsOnly s s1 := .ite (setTab_callsOnly _ _ _) (.refl s)
  have h2 : CallsOnly s1 s2 := .ite (setTab_callsOnly _ _ _) (.refl s1)
  exact (h1.trans h2).trans (.ite (setTab_callsOnly _ _ _) (.refl s2))

theorem xferFails_callsOnly (t : Nat) (s : State) : CallsOnly s (xferFails t s) := by
  unfold xferFails
  exact .ite (((updCall_callsOnly _ _).trans (updTab_callsOnly _ _ _)).trans (callEvent_callsOnly _ _ _ _)) (.refl s)

theorem callWord_callsOnly (t : Nat) (s : State) : CallsOnly s (callWord t s) := by
  unfold callWord
  exact .ite ((callAlarm_callsOnly t s).trans ((updCall_callsOnly _ _).trans (xferFails_callsOnly t _))) (.refl s)

theorem setPhase_callsOnly (ph : WatchPhase) (s : State) : CallsOnly s (setPhase ph s) := by
  unfold setPhase
  extract_lets t s1 x
  have h1 : CallsOnly s s1 := .ite (.refl s) ((updCall_callsOnly _ _).trans (callEvent_callsOnly _ _ _ _))
  exact .ite (.ite (h1.trans (setTab_callsOnly _ _ _)) h1) (.ite h1 (h1.trans (setTab_callsOnly _ _ _)))

theorem watchWord_callsOnly (s : State) : CallsOnly s (watchWord s) := by
  unfold watchWord
  refine .ite ?_ (.refl s)
  extract_lets s1
  have h1 : CallsOnly s s1 := .ite (setPhase_callsOnly _ _) (.ite (setPhase_callsOnly _ _) (.refl s))
  exact h1.trans (.ite (setTab_callsOnly _ _ _) (.refl s1))

/-- Only output latches differ. -/
theorem outWord_latchOnly (n : Nat) (w : SlotWord) (s : State) :
    ∃ d u, outWord n w s = { s with course.dioLatch := d, course.ucLatch := u } := by
  unfold outWord
  split
  · split <;> exact ⟨_, _, rfl⟩
  · extract_lets c cell st mask flag
    split <;> exact ⟨_, _, rfl⟩

end Sys2Proof.Machine
end

section
/-! The walk of the engines: a slot word's cycles and position (R67, R70), and END, IDLE and MOVE. -/

namespace Sys2Proof.Machine

theorem slotWord_runs {e cls : Nat} {own : Option (Nat × Nat)} {w : SlotWord} {s : State}
    (h : wordRuns s e cls own w = true) (f : State → State) :
    slotWord e cls own w f s = tick e (slotCycles cls w.p.toNat) (f s) := if_pos h

theorem slotWord_idle {e cls : Nat} {own : Option (Nat × Nat)} {w : SlotWord} {s : State}
    (h : wordRuns s e cls own w = false) (f : State → State) : slotWord e cls own w f s = s := if_neg (by simp [h])

theorem engineRuns_notEnded {s : State} {e : Nat} (h : engineRuns s e = true) : (engine s e).ended = false := by
  simp only [engineRuns, Bool.and_eq_true, Bool.not_eq_true'] at h
  exact h.1.2

/-- What a word's work leaves of the walk: its engine's position, cycles and END, and all of the other engine. -/
structure WalkKept (e : Nat) (s t : State) : Prop where
  pos : (engine t e).pos = (engine s e).pos
  cycles : (engine t e).cycles = (engine s e).cycles
  ended : (engine t e).ended = (engine s e).ended
  other : engine t (1 - e) = engine s (1 - e)

theorem WalkKept.of_course {e : Nat} {s t : State} (h0 : t.course.e0 = s.course.e0) (h1 : t.course.e1 = s.course.e1) :
    WalkKept e s t := by
  have h (k : Nat) : engine t k = engine s k := by simp only [engine, h0, h1]
  exact ⟨by rw [h], by rw [h], by rw [h], h _⟩

theorem ChannelOnly.walk {s t : State} (h : ChannelOnly s t) : WalkKept 0 s t := by
  obtain ⟨_, _, rfl⟩ := h
  exact ⟨rfl, rfl, rfl, rfl⟩

theorem PointsOnly.walk {s t : State} (h : PointsOnly s t) : WalkKept 1 s t := by
  obtain ⟨_, _, _, _, _, rfl⟩ := h
  exact .of_course rfl rfl

theorem CellsOnly.walk {s t : State} (h : CellsOnly s t) : WalkKept 1 s t := by
  obtain ⟨_, rfl⟩ := h
  exact .of_course rfl rfl

theorem GroupsOnly.walk {s t : State} (h : GroupsOnly s t) : WalkKept 1 s t := by
  obtain ⟨_, _, _, rfl⟩ := h
  exact .of_course rfl rfl

theorem CallsOnly.walk {s t : State} (h : CallsOnly s t) : WalkKept 1 s t := by
  obtain ⟨_, _, _, rfl⟩ := h
  exact .of_course rfl rfl

theorem linsumWord_walk (c : Nat) (w : SlotWord) (s : State) : WalkKept 0 s (linsumWord c w s) := ⟨rfl, rfl, rfl, rfl⟩

theorem moveWord_walk (e : Fin 2) (b : Nat) (v : Dword) (s : State) : WalkKept e.val s (cellSet e.val b v s) := by
  unfold cellSet
  exact ⟨by rw [engine_updEngine_same], by rw [engine_updEngine_same], by rw [engine_updEngine_same],
    engine_updEngine_other e _ s⟩

theorem recWord_walk (e r : Nat) (s : State) : WalkKept e s (recWord r s) := by
  obtain ⟨_, _, h⟩ := recWord_frame r s
  rw [h]
  exact .of_course rfl rfl

theorem rotationOrder_walk (t c sp : Nat) (s : State) : WalkKept 0 s (rotationOrder t c sp s) := by
  obtain ⟨_, _, h⟩ := rotationOrder_frame t c sp s
  rw [h]
  exact .of_course rfl rfl

theorem hartAdvance_walk (m : Nat) (s : State) : WalkKept 0 s (hartAdvance m s) := by
  obtain ⟨_, h⟩ := hartAdvance_frame m s
  rw [h]
  exact .of_course rfl rfl

theorem outWord_walk (n : Nat) (w : SlotWord) (s : State) : WalkKept 1 s (outWord n w s) := by
  obtain ⟨_, _, h⟩ := outWord_latchOnly n w s
  rw [h]
  exact .of_course rfl rfl

theorem openOrder_walk (c : Nat) (s : State) : WalkKept 0 s
    (if openTestable (ucGet s c) && gateUc s c && tileUp s (c / 8) then updInp c (fun i => { i with openOrder := true }) s
     else s) := by
  split <;> exact .of_course rfl rfl

theorem fetch_walk (c : Nat) (w : SlotWord) (s : State) :
    WalkKept 0 s ((if c < 80 then fetchWord c w else fetchDigital (c - 80) w) s) := by
  split
  · exact (fetchWord_frame c w s).walk
  · exact (fetchDigital_frame (c - 80) w s).walk

theorem call_walk (t : Nat) (s : State) : WalkKept 1 s ((if t < 16 then callWord t else watchWord) s) := by
  split
  · exact (callWord_callsOnly t s).walk
  · exact (watchWord_callsOnly s).walk

/-- What a slot word does to the walk, given that its work leaves the walk alone. -/
theorem slotWord_walk (e : Fin 2) (cls : Nat) (own : Option (Nat × Nat)) (w : SlotWord) (f : State → State) (s : State)
    (hf : WalkKept e.val s (f s)) :
    (wordRuns s e.val cls own w = false → (Host.Outcome.next (slotWord e.val cls own w f s) : Out) = .next s) ∧
    (wordRuns s e.val cls own w = true → ∃ t, (Host.Outcome.next (slotWord e.val cls own w f s) : Out) = .next t
      ∧ (engine t e.val).pos = (engine s e.val).pos + 1
      ∧ (engine t e.val).cycles = (engine s e.val).cycles + slotCycles cls w.p.toNat
      ∧ (engine t e.val).ended = false ∧ engine t (1 - e.val) = engine s (1 - e.val)) := by
  constructor
  · intro h
    rw [slotWord_idle h]
  · intro h
    have hr : engineRuns s e.val = true := by
      simp only [wordRuns, Bool.and_eq_true] at h
      exact h.1
    refine ⟨_, rfl, ?_⟩
    rw [slotWord_runs h, tick, engine_updEngine_same, engine_updEngine_other]
    exact ⟨by rw [hf.pos], by rw [hf.cycles], by rw [hf.ended]; exact engineRuns_notEnded hr, hf.other⟩

/-- Settles O6: each word's work leaves the walk alone, so that only the word's own tick moves its engine. -/
theorem slotWordsCostTheirClass : Obligations.SlotWordsCostTheirClass := by
  unfold Obligations.SlotWordsCostTheirClass
  intro i e cost s h
  cases i with
  | idle e w => cases h; exact slotWord_walk e _ _ w id s (.of_course rfl rfl)
  | move e w => cases h; exact slotWord_walk e _ _ w _ s (moveWord_walk e _ _ s)
  | recWrite e r w => cases h; exact slotWord_walk e _ _ w _ s (recWord_walk e.val r.val s)
  | fetch c w => cases h; exact slotWord_walk 0 _ _ w _ s (fetch_walk c.val w s)
  | filter c w => cases h; exact slotWord_walk 0 _ _ w _ s (filterWord_frame c.val w s).walk
  | lin c w => cases h; exact slotWord_walk 0 _ _ w _ s (linWord_frame c.val w s).walk
  | linsum c w => cases h; exact slotWord_walk 0 _ _ w _ s (linsumWord_walk c.val w s)
  | char c w => cases h; exact slotWord_walk 0 _ _ w _ s (charWord_frame c.val w s).walk
  | cvt c w => cases h; exact slotWord_walk 0 _ _ w _ s (cvtWord_frame c.val w s).walk
  | tilecmdRotation t w => cases h; exact slotWord_walk 0 _ _ w _ s (rotationOrder_walk _ _ _ s)
  | tilecmdOpenTest c w => cases h; exact slotWord_walk 0 _ _ w _ s (openOrder_walk c.val s)
  | hart m w => cases h; exact slotWord_walk 0 _ _ w _ s (hartAdvance_walk m.val s)
  | cmp p w => cases h; exact slotWord_walk 1 _ _ w _ s (cmpWord_cellsOnly p.val s).walk
  | rate p w => cases h; exact slotWord_walk 1 _ _ w _ s (rateWord_cellsOnly p.val s).walk
  | delay p w => cases h; exact slotWord_walk 1 _ _ w _ s (delayWord_pointsOnly p.val s).walk
  | logic p w => cases h; exact slotWord_walk 1 _ _ w _ s (logicWord_cellsOnly p.val s).walk
  | group g w => cases h; exact slotWord_walk 1 _ _ w _ s (groupWord_groupsOnly g.val s).walk
  | call t w => cases h; exact slotWord_walk 1 _ _ w _ s (call_walk t.val s)
  | out n w => cases h; exact slotWord_walk 1 _ _ w _ s (outWord_walk n.val w s)
  | _ => cases h

theorem updEngine_frame (e : Nat) (f : Engine → Engine) (s : State) :
    ∃ a b, updEngine e f s = { s with course.e0 := a, course.e1 := b } := by
  unfold updEngine
  split <;> exact ⟨_, _, rfl⟩

theorem engine_tick (e c : Nat) (s : State) :
    engine (tick e c s) e = { engine s e with pos := (engine s e).pos + 1, cycles := (engine s e).cycles + c } :=
  engine_updEngine_same e _ s

theorem engine_tick_other (e : Fin 2) (c : Nat) (s : State) : engine (tick e.val c s) (1 - e.val) = engine s (1 - e.val) :=
  engine_updEngine_other e _ s

theorem engine_cellSet (e b : Nat) (v : Dword) (s : State) : engine (cellSet e b v s) e
    = { engine s e with cells := (engine s e).cells.set (b % 16384) ⟨v, s.course.cn⟩ } :=
  engine_updEngine_same e _ s

/-- A tick touches only its engine. -/
theorem tick_frame (e c : Nat) (s : State) : ∃ a b, tick e c s = { s with course.e0 := a, course.e1 := b } :=
  updEngine_frame e _ s

/-- Settles O7, from what an engine reads after it is written. -/
theorem endIdleMove : Obligations.EndIdleMove := by
  unfold Obligations.EndIdleMove
  refine ⟨fun e s h => ?_, fun e w s h => ?_, fun e w s h => ?_⟩
  · obtain ⟨a, b, hf⟩ := updEngine_frame e.val (fun x => { x with ended := true, cycles := x.cycles + 1 }) s
    refine ⟨_, congrArg Host.Outcome.next (if_pos h), engine_updEngine_same e.val (fun x => { x with ended := true, cycles := x.cycles + 1 }) s, engine_updEngine_other e _ s, ?_⟩
    rw [hf]
  · obtain ⟨a, b, hf⟩ := tick_frame e.val (slotCycles 0x01 w.p.toNat) s
    refine ⟨_, congrArg Host.Outcome.next (slotWord_runs h id), ?_, engine_tick_other e _ s, ?_, ?_⟩
    · rw [id, engine_tick]
    · rw [id, engine_tick]
      rfl
    · rw [id, hf]
  · obtain ⟨a, b, hf⟩ := cellSet_frame e.val w.b.toNat (cellGet s e.val w.a.toNat) s
    refine ⟨_, congrArg Host.Outcome.next (slotWord_runs h _), ?_, ?_, fun a ha => ?_, ?_, ?_⟩
    · rw [cellGet_tick, cellGet_cellSet_same]
    · rw [engine_tick, engine_cellSet]
      simp [Tab.get_set_same]
    · rw [cellGet_tick, cellGet_cellSet_other _ _ _ _ _ ha]
    · rw [engine_tick_other]
      exact engine_updEngine_other e _ s
    · obtain ⟨a', b', hg⟩ := tick_frame e.val (slotCycles 0x02 w.p.toNat) (cellSet e.val w.b.toNat (cellGet s e.val w.a.toNat) s)
      rw [hg, hf]

end Sys2Proof.Machine
end

section
/-! FETCH, FILTER, LIN, LINSUM, CHAR and CVT: what they leave in cells and channel contexts. -/

namespace Sys2Proof.Machine

/-- The sample FETCH takes: the snapshot's where it is new, else the last one. -/
def fetchedSample (s : State) (c : Nat) : Sample :=
  if (s.course.snap.ana.get {} c).fresh = true then s.course.snap.ana.get {} c else (chanCtx s c).smp

/-- Whether FETCH stores the least, greatest and mean square x too. -/
def fetchFast (s : State) (c : Nat) : Prop := c < 8 ∧ (ucModeF (ucGet s c) = 5 ∨ ucModeF (ucGet s c) = 6)

/-- The context an output's FETCH leaves. -/
def fetchedOut (s : State) (c : Nat) (k : ChanCtx) : ChanCtx :=
  { k with
    value := if chanReason s c (fetchedSample s c) = 1 then qnan32 else (fetchedSample s c).readback
    status := chanStatus s c (chanReason s c (fetchedSample s c)) false (fetchedSample s c)
    lastGood := if chanReason s c (fetchedSample s c) = 0 then some (fetchedSample s c).readback else k.lastGood }

/-- The part every FETCH has: the context's sample and x at B. -/
def fetchedX (c : Nat) (w : SlotWord) (s : State) : State :=
  cellSet 0 w.b.toNat (sampleX s c (fetchedSample s c))
    (updCtx c (fun k => { k with smp := fetchedSample s c, got := (s.course.snap.ana.get {} c).fresh }) s)

theorem fetchWord_out {s : State} {c : Nat} (h : chanIsOut s c = true) (w : SlotWord) :
    fetchWord c w s = updCtx c (fetchedOut s c) (fetchedX c w s) := if_pos h

theorem fetchWord_fast {s : State} {c : Nat} (h : chanIsOut s c = false) (hf : fetchFast s c) (w : SlotWord) :
    fetchWord c w s = cellSet 0 (w.b.toNat + 3)
      (fdiv (fetchedSample s c).sumSq (f64ofInt (max 1 (fetchedSample s c).count)))
      (cellSet 0 (w.b.toNat + 2) (fetchedSample s c).maximum
        (cellSet 0 (w.b.toNat + 1) (fetchedSample s c).minimum (fetchedX c w s))) :=
  (if_neg (by simp [h])).trans (if_pos (by simpa [fetchFast] using hf))

theorem fetchWord_plain {s : State} {c : Nat} (h : chanIsOut s c = false) (hf : ¬ fetchFast s c) (w : SlotWord) :
    fetchWord c w s = fetchedX c w s :=
  (if_neg (by simp [h])).trans (if_neg (by simpa [fetchFast] using hf))

/-- FETCH is that of an output, of a fast mode, or neither. -/
theorem fetchWord_cases (c : Nat) (s : State) (w : SlotWord) :
    (chanIsOut s c = true ∧ fetchWord c w s = updCtx c (fetchedOut s c) (fetchedX c w s))
    ∨ (chanIsOut s c = false ∧ fetchFast s c ∧ fetchWord c w s = cellSet 0 (w.b.toNat + 3)
        (fdiv (fetchedSample s c).sumSq (f64ofInt (max 1 (fetchedSample s c).count)))
        (cellSet 0 (w.b.toNat + 2) (fetchedSample s c).maximum
          (cellSet 0 (w.b.toNat + 1) (fetchedSample s c).minimum (fetchedX c w s))))
    ∨ (chanIsOut s c = false ∧ ¬ fetchFast s c ∧ fetchWord c w s = fetchedX c w s) := by
  by_cases h : chanIsOut s c = true
  · exact .inl ⟨h, fetchWord_out h w⟩
  · have h' : chanIsOut s c = false := by simpa using h
    by_cases hf : fetchFast s c
    · exact .inr (.inl ⟨h', hf, fetchWord_fast h' hf w⟩)
    · exact .inr (.inr ⟨h', hf, fetchWord_plain h' hf w⟩)

theorem fetchedX_ctx (c : Nat) (w : SlotWord) (s : State) : chanCtx (fetchedX c w s) c
    = { chanCtx s c with smp := fetchedSample s c, got := (s.course.snap.ana.get {} c).fresh } := by
  rw [fetchedX, chanCtx_cellSet, chanCtx_updCtx_same]

theorem fetchedX_ctx_other (c : Nat) (w : SlotWord) (s : State) {k : Nat} (h : k ≠ c) :
    chanCtx (fetchedX c w s) k = chanCtx s k := by
  rw [fetchedX, chanCtx_cellSet, chanCtx_updCtx_other _ _ _ _ h]

theorem fetchedX_cell (c : Nat) (w : SlotWord) (s : State) :
    cellGet (fetchedX c w s) 0 w.b.toNat = sampleX s c (fetchedSample s c) := cellGet_cellSet_same _ _ _ _

theorem fetchedX_cell_other (c : Nat) (w : SlotWord) (s : State) {a : Nat} (h : a % 16384 ≠ w.b.toNat % 16384) :
    cellGet (fetchedX c w s) 0 a = cellGet s 0 a := by
  rw [fetchedX, cellGet_cellSet_other _ _ _ _ _ h, cellGet_updCtx]

theorem fetchWord_smp (c : Nat) (w : SlotWord) (s : State) : (chanCtx (fetchWord c w s) c).smp = fetchedSample s c
    ∧ (chanCtx (fetchWord c w s) c).got = (s.course.snap.ana.get {} c).fresh := by
  obtain ⟨-, h⟩ | ⟨-, -, h⟩ | ⟨-, -, h⟩ := fetchWord_cases c s w
  · simp [h, fetchedX_ctx, fetchedOut]
  · simp [h, fetchedX_ctx, chanCtx_cellSet]
  · simp [h, fetchedX_ctx]

theorem fetchWord_ctx_of_input {s : State} {c : Nat} (h : chanIsOut s c = false) (w : SlotWord) :
    chanCtx (fetchWord c w s) c
      = { chanCtx s c with smp := fetchedSample s c, got := (s.course.snap.ana.get {} c).fresh } := by
  obtain ⟨h', -⟩ | ⟨-, -, e⟩ | ⟨-, -, e⟩ := fetchWord_cases c s w
  · rw [h] at h'; cases h'
  · rw [e, chanCtx_cellSet, chanCtx_cellSet, chanCtx_cellSet, fetchedX_ctx]
  · rw [e, fetchedX_ctx]

theorem fetchWord_ctx_of_output {s : State} {c : Nat} (h : chanIsOut s c = true) (w : SlotWord) :
    chanCtx (fetchWord c w s) c = fetchedOut s c
      { chanCtx s c with smp := fetchedSample s c, got := (s.course.snap.ana.get {} c).fresh } := by
  rw [fetchWord_out h, chanCtx_updCtx_same, fetchedX_ctx]

theorem fetchWord_x (c : Nat) (w : SlotWord) (s : State) :
    cellGet (fetchWord c w s) 0 w.b.toNat = sampleX s c (fetchedSample s c) := by
  obtain ⟨-, h⟩ | ⟨-, -, h⟩ | ⟨-, -, h⟩ := fetchWord_cases c s w
  · rw [h, cellGet_updCtx, fetchedX_cell]
  · rw [h, cellGet_cellSet_other _ _ _ _ _ (by omega), cellGet_cellSet_other _ _ _ _ _ (by omega),
      cellGet_cellSet_other _ _ _ _ _ (by omega), fetchedX_cell]
  · rw [h, fetchedX_cell]

theorem fetchWord_cell_far (c : Nat) (w : SlotWord) (s : State) {a : Nat}
    (ha : ∀ i, i < 4 → a % 16384 ≠ (w.b.toNat + i) % 16384) : cellGet (fetchWord c w s) 0 a = cellGet s 0 a := by
  have h0 := ha 0 (by decide)
  obtain ⟨-, h⟩ | ⟨-, -, h⟩ | ⟨-, -, h⟩ := fetchWord_cases c s w
  · rw [h, cellGet_updCtx, fetchedX_cell_other _ _ _ h0]
  · rw [h, cellGet_cellSet_other _ _ _ _ _ (ha 3 (by decide)), cellGet_cellSet_other _ _ _ _ _ (ha 2 (by decide)),
      cellGet_cellSet_other _ _ _ _ _ (ha 1 (by decide)), fetchedX_cell_other _ _ _ h0]
  · rw [h, fetchedX_cell_other _ _ _ h0]

theorem fetchWord_cell_other {s : State} {c : Nat} (hf : ¬ fetchFast s c) (w : SlotWord) {a : Nat}
    (ha : a % 16384 ≠ w.b.toNat % 16384) : cellGet (fetchWord c w s) 0 a = cellGet s 0 a := by
  obtain ⟨-, h⟩ | ⟨-, hf', -⟩ | ⟨-, -, h⟩ := fetchWord_cases c s w
  · rw [h, cellGet_updCtx, fetchedX_cell_other _ _ _ ha]
  · exact absurd hf' hf
  · rw [h, fetchedX_cell_other _ _ _ ha]

theorem fetchWord_ctx_other (c : Nat) (w : SlotWord) (s : State) {k : Nat} (hk : k ≠ c) :
    chanCtx (fetchWord c w s) k = chanCtx s k := by
  obtain ⟨-, h⟩ | ⟨-, -, h⟩ | ⟨-, -, h⟩ := fetchWord_cases c s w
  · rw [h, chanCtx_updCtx_other _ _ _ _ hk, fetchedX_ctx_other _ _ _ hk]
  · rw [h, chanCtx_cellSet, chanCtx_cellSet, chanCtx_cellSet, fetchedX_ctx_other _ _ _ hk]
  · rw [h, fetchedX_ctx_other _ _ _ hk]

theorem fetchWord_fast_cells {s : State} {c : Nat} (h : chanIsOut s c = false) (hf : fetchFast s c) (w : SlotWord) :
    cellGet (fetchWord c w s) 0 (w.b.toNat + 1) = (fetchedSample s c).minimum
    ∧ cellGet (fetchWord c w s) 0 (w.b.toNat + 2) = (fetchedSample s c).maximum
    ∧ cellGet (fetchWord c w s) 0 (w.b.toNat + 3)
        = fdiv (fetchedSample s c).sumSq (f64ofInt (max 1 (fetchedSample s c).count)) := by
  rw [fetchWord_fast h hf]
  refine ⟨?_, ?_, cellGet_cellSet_same _ _ _ _⟩
  · rw [cellGet_cellSet_other _ _ _ _ _ (by omega), cellGet_cellSet_other _ _ _ _ _ (by omega), cellGet_cellSet_same]
  · rw [cellGet_cellSet_other _ _ _ _ _ (by omega), cellGet_cellSet_same]

/-- A word of E0 whose work touches only E0's cells and the contexts leaves everything else. -/
theorem ChannelOnly.tick {s t : State} (h : ChannelOnly s t) (c : Nat) :
    tick 0 c t = { s with course.e0 := (tick 0 c t).course.e0, course.ctx := (tick 0 c t).course.ctx } := by
  obtain ⟨_, _, rfl⟩ := h
  rfl

/-- The same where the contexts stay. -/
theorem ChannelOnly.tick_e0 {s t : State} (h : ChannelOnly s t) (hc : t.course.ctx = s.course.ctx) (c : Nat) :
    Machine.tick 0 c t = { s with course.e0 := (Machine.tick 0 c t).course.e0 } := by
  obtain ⟨_, _, rfl⟩ := h
  cases hc
  rfl

theorem filterWord_keeps {s : State} {c : Nat} (h : filterAdvances s c = false) (w : SlotWord) : filterWord c w s = s :=
  if_neg (by simp [h])

/-- Settles O8, by the cases of FETCH (output, fast mode, other) and of FILTER. -/
theorem fetchAndFilter : Obligations.FetchAndFilter := by
  unfold Obligations.FetchAndFilter
  refine ⟨fun c w s h hc => ?_, fun c w s h hc => ?_, fun c w s h ha => ?_, fun c w s h ha => ?_⟩
  · intro n x fast
    have hrun : exec (.fetch c w) s = .next (tick 0 (slotCycles 0x10 w.p.toNat) (fetchWord c.val w s)) := by
      have e : (if c.val < 80 then fetchWord c.val w else fetchDigital (c.val - 80) w) = fetchWord c.val w := if_pos hc
      exact congrArg Host.Outcome.next ((slotWord_runs h _).trans (by rw [e]))
    refine ⟨_, hrun, ?_, ?_, fun ho => ?_, ?_, fun ho => ⟨?_, ?_⟩, fun hf ho => ?_, fun a ha => ?_, fun hf a ha => ?_,
      fun k hk => ?_, (fetchWord_frame c.val w s).tick _⟩ <;> simp only [chanCtx_tick, cellGet_tick]
    · exact (fetchWord_smp c.val w s).1
    · exact (fetchWord_smp c.val w s).2
    · rw [fetchWord_ctx_of_input ho]
    · exact fetchWord_x c.val w s
    · rw [fetchWord_ctx_of_output ho]; rfl
    · rw [fetchWord_ctx_of_output ho]; rfl
    · exact fetchWord_fast_cells ho hf w
    · exact fetchWord_cell_far c.val w s ha
    · exact fetchWord_cell_other hf w ha
    · exact fetchWord_ctx_other c.val w s hk
  · intro d
    have hrun : exec (.fetch c w) s = .next (tick 0 (slotCycles 0x10 w.p.toNat) (fetchDigital (c.val - 80) w s)) := by
      have e : (if c.val < 80 then fetchWord c.val w else fetchDigital (c.val - 80) w) = fetchDigital (c.val - 80) w :=
        if_neg (by omega)
      exact congrArg Host.Outcome.next ((slotWord_runs h _).trans (by rw [e]))
    refine ⟨_, hrun, ?_, fun a ha => ?_, (fetchDigital_frame _ w s).tick_e0 rfl _⟩ <;> simp only [cellGet_tick]
    · exact cellGet_cellSet_same _ _ _ _
    · exact cellGet_cellSet_other _ _ _ _ _ ha
  · refine ⟨_, congrArg Host.Outcome.next (slotWord_runs h _), ?_, ?_⟩ <;> rw [filterWord_keeps ha]
    · rw [engine_tick]
    · rfl
  · intro k old u
    have hw : filterWord c.val w s = cellSet 0 w.b.toNat (fsub (fsub (fadd (fadd (fmul (k 0) u) (fmul (k 1) (old 2)))
        (fmul (k 2) (old 3))) (fmul (k 3) (old 0))) (fmul (k 4) (old 1))) (cellSet 0 (w.b.toNat + 1) (old 0)
        (cellSet 0 (w.b.toNat + 3) (old 2) (cellSet 0 (w.b.toNat + 2) u s))) := if_pos ha
    refine ⟨_, congrArg Host.Outcome.next (slotWord_runs h _), ?_, ?_, ?_, ?_, fun a hf => ?_,
      (filterWord_frame c.val w s).tick_e0 ?_ _⟩ <;> simp only [cellGet_tick, hw]
    · exact cellGet_cellSet_same _ _ _ _
    · rw [cellGet_cellSet_other _ _ _ _ _ (by omega), cellGet_cellSet_same]
    · rw [cellGet_cellSet_other _ _ _ _ _ (by omega), cellGet_cellSet_other _ _ _ _ _ (by omega),
        cellGet_cellSet_other _ _ _ _ _ (by omega), cellGet_cellSet_same]
    · rw [cellGet_cellSet_other _ _ _ _ _ (by omega), cellGet_cellSet_other _ _ _ _ _ (by omega), cellGet_cellSet_same]
    · have h0 : a % 16384 ≠ w.b.toNat % 16384 := hf 0 (by decide)
      rw [cellGet_cellSet_other _ _ _ _ _ h0, cellGet_cellSet_other _ _ _ _ _ (hf 1 (by decide)),
        cellGet_cellSet_other _ _ _ _ _ (hf 3 (by decide)), cellGet_cellSet_other _ _ _ _ _ (hf 2 (by decide))]
    · rfl

/-! A value cell, and single bits of a word. -/

theorem pack_pair (a b k : Nat) : pack 64 [(0, a), (k, b)] = BitVec.ofNat 64 (a + b * 2 ^ k) := by
  simp [pack]

theorem pack_pair_toNat (a b k : Nat) (h : a + b * 2 ^ k < 2 ^ 64) : (pack 64 [(0, a), (k, b)]).toNat = a + b * 2 ^ k := by
  rw [pack_pair, BitVec.toNat_ofNat, Nat.mod_eq_of_lt h]

theorem valueCell_toNat (v : Word) (st : Half) : (valueCell v st).toNat = v.toNat + st.toNat * 2 ^ 32 := by
  have hv := v.isLt
  have hs := st.isLt
  exact pack_pair_toNat _ _ _ (by omega)

theorem fld_valueCell_value (v : Word) (st : Half) : fld (valueCell v st) 0 32 = v.toNat := by
  have hv := v.isLt
  rw [fld, valueCell_toNat]
  omega

theorem fld_valueCell_status (v : Word) (st : Half) : fld (valueCell v st) 32 16 = st.toNat := by
  have hv := v.isLt
  have hs := st.isLt
  rw [fld, valueCell_toNat]
  omega

theorem horner_single (x k : Dword) : horner x [k] = k := rfl

theorem horner_pair (x k1 k0 : Dword) : horner x [k1, k0] = fadd (fmul k1 x) k0 := rfl

/-! CVT. -/

/-- A record without a reason has a sample and a tile that works. -/
theorem chanReason_zero {s : State} {c : Nat} {x : Sample} (h : chanReason s c x = 0) :
    tileUp s (anaTile c) = true ∧ bitAt x.status 15 = true := by
  unfold chanReason at h
  split at h
  · cases h
  · split at h
    · cases h
    · simp_all

/-- No new sample, and none of the reasons: the last record's value stands. -/
def cvtSame (s : State) (c : Nat) : Bool :=
  !(chanCtx s c).got && decide (chanReason s c (chanCtx s c).smp = 0)

/-- A record without a value for want of T. -/
def cvtNoT (s : State) (c : Nat) : Bool := (tValue s c).2.2 && tileUp s (anaTile c)

/-- The value CVT narrows. -/
def cvtInput (s : State) (c : Nat) (w : SlotWord) : Dword :=
  if 32 ≤ c && liMultidrop (liGet s (c - 32)) then multidropValue s c (chanCtx s c).smp else cellGet s 0 w.a.toNat

/-- The reason CVT shows. -/
def cvtReason (s : State) (c : Nat) (w : SlotWord) : Nat :=
  if cvtSame s c then fld (chanCtx s c).status 10 4 else if cvtNoT s c then 1
  else if (chanReason s c (chanCtx s c).smp = 0 || chanReason s c (chanCtx s c).smp = 8) && !fits32 (cvtInput s c w) then 7
  else chanReason s c (chanCtx s c).smp

/-- The last good value after CVT. -/
def cvtGood (s : State) (c : Nat) (w : SlotWord) : Option Word :=
  if cvtReason s c w = 0 && !cvtSame s c then some (f64to32 (cvtInput s c w)) else (chanCtx s c).lastGood

/-- The value of CVT. -/
def cvtValue (s : State) (c : Nat) (w : SlotWord) : Word :=
  if cvtSame s c then (chanCtx s c).value
  else if bitAt (chanCtx s c).smp.status 15 || !tileUp s (anaTile c) then (cvtGood s c w).getD qnan32 else qnan32

/-- The status an output keeps. -/
def cvtOutStatus (s : State) (c : Nat) : Half := (chanCtx s c).status ||| (if (tValue s c).2.1 then 512 else 0)

theorem cvtWord_out {s : State} {c : Nat} (h : chanIsOut s c = true) (w : SlotWord) :
    cvtWord c w s = cellSet 0 w.b.toNat (valueCell (chanCtx s c).value (cvtOutStatus s c))
      (updCtx c (fun k => { k with status := cvtOutStatus s c }) s) := if_pos h

theorem cvtWord_input {s : State} {c : Nat} (h : chanIsOut s c = false) (w : SlotWord) :
    cvtWord c w s = cellSet 0 w.b.toNat
      (valueCell (cvtValue s c w) (chanStatus s c (cvtReason s c w) (tValue s c).2.1 (chanCtx s c).smp))
      (updCtx c (fun k => { k with
        lastGood := cvtGood s c w, value := cvtValue s c w
        status := chanStatus s c (cvtReason s c w) (tValue s c).2.1 (chanCtx s c).smp }) s) := if_neg (by simp [h])

theorem cvtWord_ctx_out {s : State} {c : Nat} (h : chanIsOut s c = true) (w : SlotWord) :
    chanCtx (cvtWord c w s) c = { chanCtx s c with status := cvtOutStatus s c } := by
  rw [cvtWord_out h, chanCtx_cellSet, chanCtx_updCtx_same]

theorem cvtWord_ctx_input {s : State} {c : Nat} (h : chanIsOut s c = false) (w : SlotWord) :
    chanCtx (cvtWord c w s) c = { chanCtx s c with
      lastGood := cvtGood s c w, value := cvtValue s c w
      status := chanStatus s c (cvtReason s c w) (tValue s c).2.1 (chanCtx s c).smp } := by
  rw [cvtWord_input h, chanCtx_cellSet, chanCtx_updCtx_same]

/-- CVT stores the value and status of its context. -/
theorem cvtWord_cell (c : Nat) (w : SlotWord) (s : State) : cellGet (cvtWord c w s) 0 w.b.toNat
    = valueCell (chanCtx (cvtWord c w s) c).value (chanCtx (cvtWord c w s) c).status := by
  cases h : chanIsOut s c with
  | true => rw [cvtWord_ctx_out h, cvtWord_out h, cellGet_cellSet_same]
  | false => rw [cvtWord_ctx_input h, cvtWord_input h, cellGet_cellSet_same]

theorem cvtWord_cell_other (c : Nat) (w : SlotWord) (s : State) {a : Nat} (ha : a % 16384 ≠ w.b.toNat % 16384) :
    cellGet (cvtWord c w s) 0 a = cellGet s 0 a := by
  cases h : chanIsOut s c with
  | true => rw [cvtWord_out h, cellGet_cellSet_other _ _ _ _ _ ha, cellGet_updCtx]
  | false => rw [cvtWord_input h, cellGet_cellSet_other _ _ _ _ _ ha, cellGet_updCtx]

theorem cvtWord_ctx_other (c : Nat) (w : SlotWord) (s : State) {j : Nat} (hj : j ≠ c) :
    chanCtx (cvtWord c w s) j = chanCtx s j := by
  cases h : chanIsOut s c with
  | true => rw [cvtWord_out h, chanCtx_cellSet, chanCtx_updCtx_other _ _ _ _ hj]
  | false => rw [cvtWord_input h, chanCtx_cellSet, chanCtx_updCtx_other _ _ _ _ hj]

/-- A good new sample with a T value and a value that fits is taken. -/
theorem cvtGood_new {s : State} {c : Nat} {w : SlotWord} (hr : chanReason s c (chanCtx s c).smp = 0)
    (hg : (chanCtx s c).got = true) (hT : cvtNoT s c = false) (hf : fits32 (cvtInput s c w) = true) :
    cvtSame s c = false ∧ cvtGood s c w = some (f64to32 (cvtInput s c w)) := by
  have hs : cvtSame s c = false := by simp [cvtSame, hg]
  refine ⟨hs, ?_⟩
  simp [cvtGood, cvtReason, hs, hT, hf, hr]

/-- Without a new sample the last record stands. -/
theorem cvt_same {s : State} {c : Nat} (w : SlotWord) (hr : chanReason s c (chanCtx s c).smp = 0)
    (hg : (chanCtx s c).got = false) :
    cvtGood s c w = (chanCtx s c).lastGood ∧ cvtValue s c w = (chanCtx s c).value := by
  have hs : cvtSame s c = true := by simp [cvtSame, hg, hr]
  simp [cvtGood, cvtValue, hs]

/-- Whatever gives the record a reason keeps the last good value. -/
theorem cvtGood_kept {s : State} {c : Nat} {w : SlotWord} (h : chanReason s c (chanCtx s c).smp ≠ 0
      ∨ (chanCtx s c).got = true ∧ (cvtNoT s c = true ∨ fits32 (cvtInput s c w) = false)) :
    cvtSame s c = false ∧ cvtGood s c w = (chanCtx s c).lastGood := by
  have hs : cvtSame s c = false := by
    obtain h | ⟨h, -⟩ := h <;> simp [cvtSame, h]
  have hr : cvtReason s c w ≠ 0 := by
    rw [cvtReason, hs, if_neg (by decide)]
    obtain h | ⟨-, h | h⟩ := h
    · split
      · decide
      · split
        · decide
        · exact h
    · rw [h, if_pos rfl]; decide
    · split
      · decide
      · split
        · decide
        · rename_i hn
          simp only [h, Bool.not_false, Bool.and_true, Bool.or_eq_true, decide_eq_true_eq, not_or] at hn
          exact hn.1
  refine ⟨hs, ?_⟩
  simp [cvtGood, hr]

/-- CHAR with a value it passes on. -/
def charPlain (s : State) (c : Nat) (w : SlotWord) : Prop :=
  (chanCtx s c).got = true ∧ f64finite (cellGet s 0 w.a.toNat) = true ∧ chanReason s c (chanCtx s c).smp = 0

/-- Parameter `i` of a square-root characteristic. -/
def rootParam (s : State) (c : Nat) (w : SlotWord) (i : Nat) : Dword := f32to64 (w32At (chanBody s c) (w.t.toNat + 4 + 4 * i))

/-- The fraction of a square-root characteristic. -/
def rootFraction (s : State) (c : Nat) (w : SlotWord) : Dword :=
  fdiv (fsub (cellGet s 0 w.a.toNat) (rootParam s c w 0)) (fsub (rootParam s c w 1) (rootParam s c w 0))

/-- Whether the cut-off holds after CHAR. -/
def rootCut (s : State) (c : Nat) (w : SlotWord) : Bool :=
  if (chanCtx s c).cutOff then flt (rootFraction s c w) (fadd (rootParam s c w 4) (rootParam s c w 5))
  else flt (rootFraction s c w) (rootParam s c w 4)

theorem charWord_passes {s : State} {c : Nat} {w : SlotWord} (h : ¬ charPlain s c w) :
    charWord c w s = cellSet 0 w.b.toNat (cellGet s 0 w.a.toNat) s := by
  refine if_pos ?_
  simp only [charPlain, not_and] at h
  cases hg : (chanCtx s c).got
  · simp
  · cases hf : f64finite (cellGet s 0 w.a.toNat)
    · simp
    · simp [h hg hf]

theorem charWord_table {s : State} {c : Nat} {w : SlotWord} (h : charPlain s c w) (ht : bAt (chanBody s c) w.t.toNat = 2) :
    charWord c w s = cellSet 0 w.b.toNat
      (interpolate (cellGet s 0 w.a.toNat) (charPoints (chanBody s c) w.t.toNat)) s := by
  obtain ⟨hg, hf, hr⟩ := h
  exact (if_neg (by simp [hg, hf, hr])).trans (if_pos ht)

theorem charWord_root {s : State} {c : Nat} {w : SlotWord} (h : charPlain s c w) (ht : bAt (chanBody s c) w.t.toNat ≠ 2) :
    charWord c w s = cellSet 0 w.b.toNat
      (if rootCut s c w then rootParam s c w 2 else fadd (rootParam s c w 2)
        (fmul (fsub (rootParam s c w 3) (rootParam s c w 2)) (fsqrt (rootFraction s c w))))
      (updCtx c (fun k => { k with cutOff := rootCut s c w }) s) := by
  obtain ⟨hg, hf, hr⟩ := h
  exact (if_neg (by simp [hg, hf, hr])).trans (if_neg ht)

theorem charWord_cases (c : Nat) (w : SlotWord) (s : State) :
    (∃ v, charWord c w s = cellSet 0 w.b.toNat v s)
    ∨ ∃ v, charWord c w s = cellSet 0 w.b.toNat v (updCtx c (fun k => { k with cutOff := rootCut s c w }) s) := by
  by_cases hp : charPlain s c w
  · by_cases ht : bAt (chanBody s c) w.t.toNat = 2
    · exact .inl ⟨_, charWord_table hp ht⟩
    · exact .inr ⟨_, charWord_root hp ht⟩
  · exact .inl ⟨_, charWord_passes hp⟩

theorem charWord_cell_other (c : Nat) (w : SlotWord) (s : State) {a : Nat} (ha : a % 16384 ≠ w.b.toNat % 16384) :
    cellGet (charWord c w s) 0 a = cellGet s 0 a := by
  obtain ⟨v, h⟩ | ⟨v, h⟩ := charWord_cases c w s <;> rw [h, cellGet_cellSet_other _ _ _ _ _ ha]
  rw [cellGet_updCtx]

theorem charWord_ctx_other (c : Nat) (w : SlotWord) (s : State) {k : Nat} (hk : k ≠ c) :
    chanCtx (charWord c w s) k = chanCtx s k := by
  obtain ⟨v, h⟩ | ⟨v, h⟩ := charWord_cases c w s <;> rw [h, chanCtx_cellSet]
  rw [chanCtx_updCtx_other _ _ _ _ hk]

/-- Settles O9, by the cases of CHAR and CVT. -/
theorem linearisationAndConversion : Obligations.LinearisationAndConversion := by
  unfold Obligations.LinearisationAndConversion
  refine ⟨fun c w s h => ?_, fun c w s h => ?_, fun c w s h => ?_, fun c w s h => ?_⟩
  · have hx : cellGet (linWord c.val w s) 0 w.b.toNat = _ := cellGet_cellSet_same _ _ _ _
    refine ⟨_, congrArg Host.Outcome.next (slotWord_runs h _), fun k0 hp h0 => ?_, fun k0 k1 hp h0 h1 => ?_, ?_,
      fun a ha => ?_, (linWord_frame c.val w s).tick_e0 rfl _⟩ <;> rw [cellGet_tick]
    · rw [hx]
      simp [hp, h0, horner_single]
    · rw [hx]
      have hr : List.range (1 + 1) = [0, 1] := rfl
      simp only [hp, hr, List.map_cons, List.map_nil, horner_pair]
      rw [← h0, ← h1]
      simp
    · exact hx
    · exact cellGet_cellSet_other _ _ _ _ _ ha
  · have hx : cellGet (linsumWord c.val w s) 0 w.b.toNat = _ := cellGet_cellSet_same _ _ _ _
    refine ⟨_, congrArg Host.Outcome.next (slotWord_runs h _), fun hp => ?_, fun hp => ?_, ?_, fun a ha => ?_, rfl⟩ <;>
      rw [cellGet_tick]
    · rw [hx]
      simp [hp, horner_single]
    · rw [hx]
      have hr : List.range (1 + 1) = [0, 1] := rfl
      simp only [hp, hr, List.map_cons, List.map_nil, horner_pair]
      rfl
    · exact hx
    · exact cellGet_cellSet_other _ _ _ _ _ ha
  · intro b u p f plain
    refine ⟨_, congrArg Host.Outcome.next (slotWord_runs h _), fun hp => ?_, fun hp ht => ?_, fun hp ht => ?_, fun a ha => ?_,
      fun k hk => ?_, (charWord_frame c.val w s).tick _⟩ <;> simp only [cellGet_tick, chanCtx_tick]
    · rw [charWord_passes hp]
      exact ⟨cellGet_cellSet_same _ _ _ _, rfl⟩
    · rw [charWord_table hp ht]
      exact ⟨cellGet_cellSet_same _ _ _ _, rfl⟩
    · rw [charWord_root hp ht, chanCtx_cellSet, chanCtx_updCtx_same, cellGet_cellSet_same]
      exact ⟨rfl, rfl⟩
    · exact charWord_cell_other c.val w s ha
    · exact charWord_ctx_other c.val w s hk
  · intro k r v noT same reason shown
    have hshown (hs : shown) : (bitAt (chanCtx s c.val).smp.status 15 || !tileUp s (anaTile c.val)) = true := by
      simpa [shown, k] using hs
    refine ⟨_, congrArg Host.Outcome.next (slotWord_runs h _), fun ho => ?_, fun ho => ?_, fun ho hr hg hT hf => ?_,
      fun hr hg => ?_, fun ho hr => ?_, fun ho hs => ?_, ?_, ?_, fun a ha => ?_, fun j hj => ?_,
      (cvtWord_frame c.val w s).tick _⟩ <;> simp only [cellGet_tick, chanCtx_tick]
    · rw [cvtWord_ctx_out ho]
      exact ⟨rfl, rfl, rfl⟩
    · rw [cvtWord_ctx_input ho]
      rfl
    · obtain ⟨hsame, hgood⟩ := cvtGood_new (w := w) hr hg hT hf
      rw [cvtWord_ctx_input ho]
      refine ⟨hgood, fun hs => ?_⟩
      simp [cvtValue, hsame, hshown hs, hgood]
      rfl
    · cases ho : chanIsOut s c.val with
      | true =>
        rw [cvtWord_ctx_out ho]
        exact ⟨rfl, rfl⟩
      | false =>
        rw [cvtWord_ctx_input ho]
        exact cvt_same w hr hg
    · obtain ⟨hsame, hgood⟩ := cvtGood_kept (w := w) hr
      rw [cvtWord_ctx_input ho]
      refine ⟨hgood, fun hs => ?_⟩
      simp [cvtValue, hsame, hshown hs, hgood]
      rfl
    · have hn : (bitAt (chanCtx s c.val).smp.status 15 || !tileUp s (anaTile c.val)) = false := by
        simpa [shown, k] using hs
      have hsame : cvtSame s c.val = false := by
        simp only [cvtSame, Bool.and_eq_false_iff, decide_eq_false_iff_not]
        refine .inr fun hr => ?_
        obtain ⟨ht, hb⟩ := chanReason_zero hr
        simp [hb] at hn
      rw [cvtWord_ctx_input ho]
      simp [cvtValue, hsame, hn]
      rfl
    · rw [cvtWord_cell, fld_valueCell_value]
    · rw [cvtWord_cell, fld_valueCell_status]
    · exact cvtWord_cell_other c.val w s ha
    · exact cvtWord_ctx_other c.val w s hj

end Sys2Proof.Machine
end

section
/-! REC, the orders of E0, and OUT: a due word stands in an entry of the plan. -/

namespace Sys2Proof.Machine

/-! Words of a list stand in entries of the plan (R469). -/

theorem insertWord_mem {x y : ListWord} {l : List ListWord} (h : y ∈ insertWord x l) : y = x ∨ y ∈ l := by
  induction l with
  | nil => exact .inl (List.mem_singleton.1 h)
  | cons z r ih =>
    unfold insertWord at h
    split at h
    · exact List.mem_cons.1 h
    · obtain rfl | h := List.mem_cons.1 h
      · exact .inr (.head r)
      · exact (ih h).imp id (.tail z)

theorem foldl_insertWord_mem {y : ListWord} (l acc : List ListWord)
    (h : y ∈ l.foldl (fun acc x => insertWord x acc) acc) : y ∈ l ∨ y ∈ acc := by
  induction l generalizing acc with
  | nil => exact .inr h
  | cons x r ih =>
    obtain h | h := ih _ h
    · exact .inl (.tail x h)
    · obtain rfl | h := insertWord_mem h
      · exact .inl (.head r)
      · exact .inr h

theorem placeWords_owner {e : Entry} {y : ListWord} {pos : Nat} {ws : List Dword} (h : y ∈ placeWords e pos ws) :
    y.owner = (e.ty, e.target) := by
  induction ws generalizing pos with
  | nil => cases h
  | cons w ws ih =>
    obtain rfl | h := List.mem_cons.1 h
    · rfl
    · exact ih h

theorem placeRecs_owner {engine wi : Nat} {e : Entry} {y : ListWord} {rs : List SlotRec} {ws : List Dword}
    (h : y ∈ placeRecs engine wi e rs ws) : y.owner = (e.ty, e.target) := by
  induction rs generalizing ws with
  | nil => cases h
  | cons r rs ih =>
    obtain h | h := List.mem_append.1 h
    · split at h
      · exact placeWords_owner h
      · cases h
    · exact ih h

theorem engineList_owner {es : List Entry} {e wi : Nat} {y : ListWord} (h : y ∈ engineList es e wi) :
    ∃ n ∈ es, y.owner = (n.ty, n.target) := by
  obtain h | h := foldl_insertWord_mem _ _ h
  · obtain ⟨n, hn, hy⟩ := List.mem_flatMap.1 h
    exact ⟨n, hn, placeRecs_owner hy⟩
  · cases h

/-- A due word of an entry has a planned target. -/
theorem wordRuns_planned {s : State} {e cls ty t : Nat} {w : SlotWord} (h : wordRuns s e cls (some (ty, t)) w = true) :
    planned s ty t = true := by
  simp only [wordRuns, wordDue, Bool.and_eq_true] at h
  obtain ⟨-, h⟩ := h
  obtain ⟨x, hx, hw⟩ := (Option.any_eq_true _ _).1 h
  have ho : x.owner = (ty, t) := by
    simp only [Option.all_some, Bool.and_eq_true, decide_eq_true_eq] at hw
    exact hw.2
  obtain ⟨n, hn, hy⟩ := engineList_owner (List.mem_of_getElem? hx)
  have he : n.ty = ty ∧ n.target = t := Prod.mk.inj (hy.symm.trans ho)
  exact List.find?_isSome.2 ⟨n, hn, by simp [he.1, he.2]⟩

/-! Bits of a word. -/

theorem bitAt_setBit_same {n : Nat} (w : BitVec n) {i : Nat} (h : i < n) (v : Bool) : bitAt (setBit w i v) i = v := by
  have h2 : Nat.testBit (2 ^ i) i = true := Nat.testBit_two_pow_self
  cases v
  · simp only [bitAt, setBit, Bool.false_eq_true, if_false, BitVec.getLsbD_and, BitVec.getLsbD_not, BitVec.getLsbD_ofNat, h2,
      h, decide_true, Bool.and_true, Bool.not_true, Bool.and_false]
  · simp only [bitAt, setBit, if_true, BitVec.getLsbD_or, BitVec.getLsbD_ofNat, h2, h, decide_true, Bool.and_true,
      Bool.or_true]

theorem bitAt_setBit_other {n : Nat} (w : BitVec n) {i k : Nat} (h : k ≠ i) (v : Bool) :
    bitAt (setBit w i v) k = bitAt w k := by
  have h2 : Nat.testBit (2 ^ i) k = false := Nat.testBit_two_pow_of_ne (Ne.symm h)
  cases v
  · simp only [bitAt, setBit, Bool.false_eq_true, if_false, BitVec.getLsbD_and, BitVec.getLsbD_not, BitVec.getLsbD_ofNat, h2,
      Bool.and_false, Bool.not_false, Bool.and_true]
    by_cases hk : k < n
    · simp [hk]
    · simp [hk, BitVec.getLsbD_of_ge _ _ (Nat.le_of_not_lt hk)]
  · simp only [bitAt, setBit, if_true, BitVec.getLsbD_or, BitVec.getLsbD_ofNat, h2, Bool.and_false, Bool.or_false]

/-- A bit of a field of a word is a bit of the word. -/
theorem bitAt_fld {n : Nat} (w : BitVec n) (lo len : Nat) {i : Nat} (h : i < len) :
    bitAt (BitVec.ofNat len (fld w lo len)) i = bitAt w (lo + i) := by
  simp [bitAt, fld, h, Nat.testBit_mod_two_pow, Nat.testBit_div_two_pow, BitVec.getLsbD, Nat.add_comm]

/-! REC. -/

theorem tick_square (e c : Nat) (s : State) : (tick e c s).square = s.square := by
  obtain ⟨_, _, h⟩ := tick_frame e c s
  rw [h]

theorem recWord_ana {s : State} {r : Nat} (h : r < 80) (hp : planned s (anaTy r) (anaTarget r) = true) :
    recWord r s = { s with square.work.ana := s.square.work.ana.set r (anaRecord s r) } :=
  (if_pos h).trans (if_pos hp)

theorem recWord_dig {s : State} {k : Nat} (hp : planned s (if k < 32 then 3 else 4) (k % 32) = true) :
    recWord (80 + k) s = { s with square.work.dig := s.square.work.dig.set k (digRecord s k) } := by
  have hd : 80 + k - 80 = k := by omega
  have hi : (if 80 + k < 112 then 3 else 4) = if k < 32 then 3 else 4 := by
    by_cases hk : k < 32
    · rw [if_pos hk, if_pos (by omega)]
    · rw [if_neg hk, if_neg (by omega)]
  unfold recWord
  rw [if_neg (by omega), hi, hd, if_pos hp]

/-- Settles O10: REC sets one record, and its due word names its entry. -/
theorem recWritesRecord : Obligations.RecWritesRecord := by
  unfold Obligations.RecWritesRecord
  refine ⟨fun e r w s h hr hp => ?_, fun e r k w s h hr hp => ?_, fun e r w s h => ?_⟩
  · intro k old
    have hs : (recWord r.val s).square.work.ana.get {} r.val = anaRecord s r.val := by
      rw [recWord_ana hr hp]
      exact Tab.get_set_same _ _ _ _
    refine ⟨_, congrArg Host.Outcome.next (slotWord_runs h _), ?_, ?_, ?_, ?_, ?_, ?_, fun q hq => ?_, ?_⟩
    · rw [tick_square, hs]; rfl
    · rw [tick_square, hs]; rfl
    · rw [tick_square, hs]; rfl
    · rw [tick_square, hs]; rfl
    · rw [tick_square, hs]; rfl
    · rw [tick_square, hs]; rfl
    · rw [tick_square, recWord_ana hr hp]
      exact Tab.get_set_other _ _ _ hq
    · obtain ⟨a, b, ht⟩ := tick_frame e.val (slotCycles 0x03 w.p.toNat) (recWord r.val s)
      rw [ht, recWord_ana hr hp]
  · have hw : recWord r.val s = { s with square.work.dig := s.square.work.dig.set k (digRecord s k) } := by
      rw [hr]
      exact recWord_dig hp
    have hs : (recWord r.val s).square.work.dig.get {} k = digRecord s k := by
      rw [hw]
      exact Tab.get_set_same _ _ _ _
    refine ⟨_, congrArg Host.Outcome.next (slotWord_runs h _), ?_, ?_, ?_, ?_, ?_, fun q hq => ?_, ?_⟩
    · rw [tick_square, hs]; rfl
    · rw [tick_square, hs]; rfl
    · rw [tick_square, hs]; rfl
    · rw [tick_square, hs]; rfl
    · rw [tick_square, hs]; rfl
    · rw [tick_square, hw]
      exact Tab.get_set_other _ _ _ hq
    · obtain ⟨a, b, ht⟩ := tick_frame e.val (slotCycles 0x03 w.p.toNat) (recWord r.val s)
      rw [ht, hw]
  · have hr : r.val < 144 := r.isLt
    have hp := wordRuns_planned (ty := (chanOwner r.val).1) (t := (chanOwner r.val).2) h
    by_cases h80 : r.val < 80
    · rw [if_pos h80]
      simpa [chanOwner, h80] using hp
    · rw [if_neg h80]
      by_cases h112 : r.val < 112
      · have e : (r.val - 80) % 32 = r.val - 80 := by omega
        simpa [chanOwner, h80, h112, e] using hp
      · have e : (r.val - 80) % 32 = r.val - 112 := by omega
        simpa [chanOwner, h80, h112, e] using hp

/-! Orders of E0. -/

theorem rotationOrder_off {s : State} {n : Nat} (h : tileUp s n = false) (c sp : Nat) : rotationOrder n c sp s = s :=
  if_neg (by simp [h])

theorem rotationOrder_starts {s : State} {n sp : Nat} (h : tileUp s n = true) (ht : (tileCal s n).turns.get? sp = none)
    (c : Nat) : rotationOrder n c sp s = startTurn n c sp s := by
  simp [rotationOrder, h, ht]

theorem rotationOrder_held {s : State} {n sp : Nat} (h : tileUp s n = true) (ht : (tileCal s n).turns.get? sp ≠ none)
    (hh : (tileCal s n).held.get? sp = none) (c : Nat) :
    rotationOrder n c sp s = updTileCal n (fun x => { x with held := x.held.set sp c }) s := by
  simp [rotationOrder, h, Option.isNone_iff_eq_none, ht, hh]

theorem rotationOrder_dropped {s : State} {n sp : Nat} (h : tileUp s n = true) (ht : (tileCal s n).turns.get? sp ≠ none)
    (hh : (tileCal s n).held.get? sp ≠ none) (c : Nat) :
    rotationOrder n c sp s = { s with cal.dropped := satInc s.cal.dropped } := by
  simp [rotationOrder, h, Option.isNone_iff_eq_none, ht, hh]

theorem startTurn_other (n c sp : Nat) (s : State) {k : Nat} (hk : k ≠ n) : tileCal (startTurn n c sp s) k = tileCal s k := by
  unfold startTurn
  split
  · split <;> exact updTileCal_other _ _ _ hk
  · rfl

theorem rotationOrder_other (n c sp : Nat) (s : State) {k : Nat} (hk : k ≠ n) :
    tileCal (rotationOrder n c sp s) k = tileCal s k := by
  by_cases hu : tileUp s n = true
  · by_cases ht : (tileCal s n).turns.get? sp = none
    · rw [rotationOrder_starts hu ht, startTurn_other _ _ _ _ hk]
    · by_cases hh : (tileCal s n).held.get? sp = none
      · rw [rotationOrder_held hu ht hh, updTileCal_other _ _ _ hk]
      · rw [rotationOrder_dropped hu ht hh]
        rfl
  · rw [rotationOrder_off (by simpa using hu)]

/-- Coupling changes a modem's channel and its count of conflicts, and no other modem. -/
theorem modem_coupleModem (m : Nat) (count : Bool) (s : State) :
    (∃ c n, modem (coupleModem m count s) m = { modem s m with coupled := c, conflict := n })
    ∧ ∀ k, k ≠ m → modem (coupleModem m count s) k = modem s k := by
  unfold coupleModem
  extract_lets t c
  split
  · exact ⟨⟨_, _, updModem_same _ _ _⟩, fun k hk => updModem_other _ _ _ hk⟩
  · split
    · exact ⟨⟨_, _, updModem_same _ _ _⟩, fun k hk => updModem_other _ _ _ hk⟩
    · split
      · exact ⟨⟨_, _, updModem_same _ _ _⟩, fun k hk => updModem_other _ _ _ hk⟩
      · exact ⟨⟨_, _, rfl⟩, fun _ _ => rfl⟩

/-- The turn after a modem's WI 0. -/
def nextTurn (s : State) (m : Nat) : Nat :=
  if (modem s m).fresh then 0 else if 1 < (modem s m).wallsLeft then (modem s m).turn
  else ((modem s m).turn + 1) % (hartTurns (entBody (planEntry s 9 m))).length

/-- The walls left of that turn. -/
def nextWalls (s : State) (m : Nat) : Nat :=
  if !(modem s m).fresh && 1 < (modem s m).wallsLeft then (modem s m).wallsLeft - 1
  else ((hartTurns (entBody (planEntry s 9 m))).getD (nextTurn s m) (0xFF, 0, 0)).2.2

/-- The modem at that turn. -/
def turned (m : Nat) (s : State) : State :=
  updModem m (fun x => { x with turn := nextTurn s m, wallsLeft := nextWalls s m, fresh := false }) s

theorem hartAdvance_no_turns {s : State} {m : Nat} (h : hartTurns (entBody (planEntry s 9 m)) = []) : hartAdvance m s = s :=
  if_pos (by simp [h])

theorem hartAdvance_turns {s : State} {m : Nat} (h : hartTurns (entBody (planEntry s 9 m)) ≠ []) :
    hartAdvance m s = if ((modem s m).fresh || (modem s m).wallsLeft ≤ 1) && (modem s m).active.isNone
      then coupleModem m true (turned m s) else turned m s :=
  if_neg (by simp [h])

theorem hartAdvance_turn {s : State} {m : Nat} (h : hartTurns (entBody (planEntry s 9 m)) ≠ []) :
    (modem (hartAdvance m s) m).turn = nextTurn s m := by
  rw [hartAdvance_turns h]
  split
  · obtain ⟨⟨c, n, e⟩, -⟩ := modem_coupleModem m true (turned m s)
    rw [e, turned, updModem_same]
  · rw [turned, updModem_same]

theorem hartAdvance_stays {s : State} {m : Nat} (h : hartTurns (entBody (planEntry s 9 m)) ≠ [])
    (hf : (modem s m).fresh = false) (hw : 1 < (modem s m).wallsLeft) : hartAdvance m s = turned m s := by
  rw [hartAdvance_turns h, if_neg (by simp [hf]; omega)]

theorem hartAdvance_other (m : Nat) (s : State) {k : Nat} (hk : k ≠ m) : modem (hartAdvance m s) k = modem s k := by
  by_cases h : hartTurns (entBody (planEntry s 9 m)) = []
  · rw [hartAdvance_no_turns h]
  · rw [hartAdvance_turns h]
    split
    · rw [(modem_coupleModem m true _).2 k hk, turned, updModem_other _ _ _ hk]
    · rw [turned, updModem_other _ _ _ hk]

/-- Settles O11, by the outcomes of each order. -/
theorem tileAndModemOrders : Obligations.TileAndModemOrders := by
  unfold Obligations.TileAndModemOrders
  refine ⟨fun c w s h => ?_, fun n w s h => ?_, fun m w s h => ?_⟩
  · by_cases hc : (openTestable (ucGet s c.val) && gateUc s c.val && tileUp s (c.val / 8)) = true
    · refine ⟨_, congrArg Host.Outcome.next ((slotWord_runs h _).trans (congrArg _ (if_pos hc))), ?_, fun n hn => ?_, rfl⟩
      · have hs : ucGet (updInp c.val (fun i => { i with openOrder := true }) s) c.val = _ := updUc_same _ _ _
        rw [hc, Bool.or_true]
        exact congrArg (fun u : UcChan => u.inp.openOrder) hs
      · exact updUc_other _ _ _ hn
    · refine ⟨_, congrArg Host.Outcome.next ((slotWord_runs h _).trans (congrArg _ (if_neg hc))), ?_, fun n hn => rfl, rfl⟩
      rw [Bool.not_eq_true] at hc
      rw [hc, Bool.or_false]
      rfl
  · intro x c sp
    refine ⟨_, congrArg Host.Outcome.next (slotWord_runs h _), fun hu => ?_, fun hu ht ha hm => ?_, fun hu ht hh => ?_,
      fun hu ht hh => ?_, fun k hk => rotationOrder_other n.val c sp s hk, ?_⟩
    · rw [rotationOrder_off hu]; rfl
    · rw [rotationOrder_starts hu ht, startTurn, if_pos ha, if_neg hm]
      exact updTileCal_same _ _ _
    · rw [rotationOrder_held hu ht hh]
      exact ⟨updTileCal_same _ _ _, rfl⟩
    · rw [rotationOrder_dropped hu ht hh]
      exact ⟨rfl, rfl⟩
    · obtain ⟨_, _, e⟩ := rotationOrder_frame n.val c sp s
      rw [e]
      rfl
  · intro x ts
    refine ⟨_, congrArg Host.Outcome.next (slotWord_runs h _), fun ht => ?_, fun ht hf => ?_, fun ht hf hw => ?_,
      fun ht hf hw => ?_, fun k hk => hartAdvance_other m.val s hk, ?_⟩
    · rw [hartAdvance_no_turns ht]; rfl
    · exact (hartAdvance_turn ht).trans (by simp [nextTurn, show (modem s m.val).fresh = true from hf])
    · have hf' : (modem s m.val).fresh = false := hf
      have hw' : 1 < (modem s m.val).wallsLeft := hw
      rw [hartAdvance_stays ht hf hw]
      have hs : modem (tick 0 (slotCycles 0x17 w.p.toNat) (turned m.val s)) m.val
          = { modem s m.val with turn := nextTurn s m.val, wallsLeft := nextWalls s m.val, fresh := false } := updModem_same _ _ _
      rw [hs]
      exact ⟨by simp [nextTurn, hf', hw', x], by simp [nextWalls, hf', hw', x], rfl⟩
    · have hf' : (modem s m.val).fresh = false := hf
      have hw' : ¬ 1 < (modem s m.val).wallsLeft := Nat.not_lt.2 hw
      exact (hartAdvance_turn ht).trans (by simp [nextTurn, hf', hw', x, ts])
    · obtain ⟨_, e⟩ := hartAdvance_frame m.val s
      rw [e]
      rfl

/-! OUT. -/

theorem outWord_dio {s : State} {n : Nat} (h : n < 32) (hp : planned s 3 n = true) (w : SlotWord) :
    outWord n w s = { s with
      course.dioLatch := (setBit s.course.dioLatch n
        (decide (bAt (entBody (planEntry s 3 n)) 8 = 1) != bitAt (alarmDemand s) n)) } :=
  (if_pos h).trans (if_pos hp)

theorem outWord_uc {s : State} {n : Nat} (h : 32 ≤ n) (hp : planned s 1 (n - 32) = true) (w : SlotWord) :
    outWord n w s = { s with
      course.ucLatch := (s.course.ucLatch.set (n - 32) (BitVec.ofNat 32 (fld (cellGet s 0 w.a.toNat) 0 32),
        ((bAt (outBlock s (n - 32)) 0x14).testBit 0 && bitAt (BitVec.ofNat 16 (fld (cellGet s 0 w.a.toNat) 32 16)) 14)
        || ((bAt (outBlock s (n - 32)) 0x14).testBit 1
          && !bitAt (BitVec.ofNat 16 (fld (cellGet s 0 w.a.toNat) 32 16)) 15))) } :=
  (if_neg (by omega)).trans (if_pos hp)

/-- Settles O12: a due OUT has a planned target, and its status is a field of the cell. -/
theorem outWritesLatch : Obligations.OutWritesLatch := by
  unfold Obligations.OutWritesLatch
  refine ⟨fun n w s h hn => ?_, fun n w s h hn => ?_⟩
  · have hp : planned s 3 n.val = true := by
      have h' : wordRuns s 1 0x26 (some (if n.val < 32 then (3, n.val) else (1, n.val - 32))) w = true := h
      rw [if_pos hn] at h'
      exact wordRuns_planned h'
    refine ⟨_, congrArg Host.Outcome.next ((slotWord_runs h _).trans (congrArg _ (outWord_dio hn hp w))), ?_, fun k hk => ?_, rfl⟩
    · refine (bitAt_setBit_same _ hn _).trans ?_
      simp [Bool.beq_eq_decide_eq]
    · exact bitAt_setBit_other _ hk _
  · intro c cell mask
    have hp : planned s 1 c = true := by
      have h' : wordRuns s 1 0x26 (some (if n.val < 32 then (3, n.val) else (1, n.val - 32))) w = true := h
      rw [if_neg (by omega)] at h'
      exact wordRuns_planned h'
    refine ⟨_, congrArg Host.Outcome.next ((slotWord_runs h _).trans (congrArg _ (outWord_uc hn hp w))), ?_, fun k hk => ?_, rfl⟩
    · refine (Tab.get_set_same _ _ _ _).trans ?_
      rw [bitAt_fld _ 32 16 (by decide), bitAt_fld _ 32 16 (by decide)]
    · exact Tab.get_set_other _ _ _ hk

end Sys2Proof.Machine
end

section
/-! CMP, RATE, LOGIC and the delays of a point (ch. 08). -/

namespace Sys2Proof.Machine

/-- A word of E1 whose work touches only cells of points leaves everything else. -/
theorem CellsOnly.tick {s t : State} (h : CellsOnly s t) (c : Nat) :
    Machine.tick 1 c t = { s with course.e1 := (Machine.tick 1 c t).course.e1, alarm.points := (Machine.tick 1 c t).alarm.points } := by
  obtain ⟨_, rfl⟩ := h
  rfl

/-- CMP judges COND: a planned point outside suppression whose source is good. -/
def Judged (s : State) (p : Nat) : Prop :=
  planned s 5 p = true ∧ suppression s (ptBody s p) (pointGet s p) = none ∧ evalClass s (ptBody s p) (pointGet s p) = .good

/-- COND before a comparator word as it counts for the hysteresis. -/
def condBefore (x : Point) : Bool := x.cond && !x.state.suppressing

/-- What CMP makes of a point's cells. -/
def cmpPoint (s : State) (b : List Byte) (x : Point) : Point :=
  { x with cond := compareCond s b x (condBefore x), condWas := x.cond }

theorem cmpWord_judged {s : State} {p : Nat} (h : Judged s p) :
    cmpWord p s = updPoint p (fun _ => cmpPoint s (ptBody s p) (pointGet s p)) s := by
  obtain ⟨hp, hs, hc⟩ := h
  have e : cmpWord p s = _ := if_pos (by simp [hp, hs, hc])
  rw [e]
  rfl

theorem cmpWord_skips {s : State} {p : Nat} (h : ¬ Judged s p) : cmpWord p s = s := by
  refine if_neg (fun h' => h ?_)
  simpa [Judged, Option.isNone_iff_eq_none, and_assoc] using h'

theorem cmpWord_point {s : State} {p : Nat} (h : Judged s p) :
    pointGet (cmpWord p s) p = cmpPoint s (ptBody s p) (pointGet s p) := by
  rw [cmpWord_judged h, updPoint_same]

theorem cmpWord_other (p : Nat) (s : State) {q : Nat} (hq : q ≠ p) : pointGet (cmpWord p s) q = pointGet s q := by
  by_cases h : Judged s p
  · rw [cmpWord_judged h, updPoint_other _ _ _ hq]
  · rw [cmpWord_skips h]

/-- CMP changes COND and what it was before. -/
theorem cmpWord_cells (p : Nat) (s : State) : pointGet (cmpWord p s) p
    = { pointGet s p with cond := (pointGet (cmpWord p s) p).cond, condWas := (pointGet (cmpWord p s) p).condWas } := by
  by_cases h : Judged s p
  · rw [cmpWord_point h]; rfl
  · rw [cmpWord_skips h]

theorem compareCond_high {s : State} {b : List Byte} (hm : ptMultidrop s b = false) (hk : ptKind b = 1 ∨ ptKind b = 3)
    (x : Point) (prev : Bool) : compareCond s b x prev
      = hystHigh (f32to64 (anaValue s (ptSrcType b) (ptSrc b))) (f32to64 (ptLimit b)) (f32to64 (ptHyst b)) prev := by
  obtain hk | hk := hk <;> simp [compareCond, hm, hk]

theorem compareCond_low {s : State} {b : List Byte} (hm : ptMultidrop s b = false) (hk : ptKind b = 2 ∨ ptKind b = 4)
    (x : Point) (prev : Bool) : compareCond s b x prev
      = hystLow (f32to64 (anaValue s (ptSrcType b) (ptSrc b))) (f32to64 (ptLimit b)) (f32to64 (ptHyst b)) prev := by
  obtain hk | hk := hk <;> simp [compareCond, hm, hk]

theorem compareCond_dio {s : State} {b : List Byte} (hm : ptMultidrop s b = false) (hk : ptKind b = 7) (ht : ptSrcType b = 3)
    (x : Point) (prev : Bool) : compareCond s b x prev = decide ((digSnap s (ptSrc b)).inp = ptLevel b) := by
  simp [compareCond, hm, hk, ht, operand]

theorem compareCond_logic {s : State} {b : List Byte} (hm : ptMultidrop s b = false) (hk : ptKind b = 7) (ht : ptSrcType b = 5)
    (x : Point) (prev : Bool) : compareCond s b x prev = x.logic := by
  simp [compareCond, hm, hk, ht]

/-- The rate as the direction of the point counts it (R218). -/
def rateSigned (b : List Byte) (r : Dword) : Dword := if ptDir b = 1 then r else if ptDir b = 2 then fneg r else fabs r

theorem compareCond_rate {s : State} {b : List Byte} (hm : ptMultidrop s b = false) (hk : ptKind b = 6) (x : Point)
    (prev : Bool) : compareCond s b x prev = match x.rate with
      | none => false
      | some r => hystHigh (rateSigned b r) (f32to64 (ptLimit b)) (f32to64 (ptHyst b)) prev := by
  simp only [compareCond, hm, hk, Bool.false_eq_true, if_false]
  cases x.rate with
  | none => rfl
  | some r =>
    simp only [rateSigned]
    split
    · next h => rw [if_pos h]
    · next h => rw [if_neg (by omega), if_pos h]
    · next h1 h2 => rw [if_neg h1, if_neg h2]

/-- Settles O13. -/
theorem cmpSetsCond : Obligations.CmpSetsCond := by
  unfold Obligations.CmpSetsCond
  intro p w s h b x evaluated prev v lim hy
  have hpt (he : evaluated) : pointGet (tick 1 (slotCycles 0x20 w.p.toNat) (cmpWord p.val s)) p.val = cmpPoint s b x :=
    cmpWord_point he
  refine ⟨_, congrArg Host.Outcome.next (slotWord_runs h _), fun he => ?_, fun he hm hk => ?_, fun he hm hk => ?_,
    fun he hk ht hm => ?_, fun he hk ht hm => ?_, cmpWord_cells p.val s, fun q hq => cmpWord_other p.val s hq,
    (cmpWord_cellsOnly p.val s).tick _⟩
  · rw [cmpWord_skips he]; rfl
  · rw [hpt he]
    exact compareCond_high hm hk x prev
  · rw [hpt he]
    exact compareCond_low hm hk x prev
  · rw [hpt he]
    exact compareCond_dio hm hk ht x prev
  · rw [hpt he]
    exact compareCond_logic hm hk ht x prev

/-! RATE and LOGIC: what the judgement of a point reads of the other points is their STATE and COND (R219). -/

/-- Only cells of points differ, and neither STATE nor COND of any. -/
structure SameJudgement (s t : State) : Prop where
  cells : CellsOnly s t
  state : ∀ q, (pointGet t q).state = (pointGet s q).state
  cond : ∀ q, (pointGet t q).cond = (pointGet s q).cond

theorem SameJudgement.operand {s t : State} (h : SameJudgement s t) (ty n : Nat) : operand t ty n = operand s ty n := by
  have ha : pointActive t n = pointActive s n := by
    obtain ⟨_, rfl⟩ := h.cells
    simp only [pointActive, h.state]
    rfl
  have hc : pointCond t n = pointCond s n := by
    obtain ⟨_, rfl⟩ := h.cells
    simp only [pointCond, h.cond]
    rfl
  obtain ⟨_, rfl⟩ := h.cells
  unfold Machine.operand
  rw [ha, hc]
  rfl

theorem SameJudgement.ptClass {s t : State} (h : SameJudgement s t) (b : List Byte) : ptClass t b = ptClass s b := by
  have ho : (fun (a : SrcClass) (x : Nat × Bool × Nat) => a.worst (Machine.operand t x.1 x.2.2).1)
      = fun a x => a.worst (Machine.operand s x.1 x.2.2).1 := by
    funext a x
    rw [h.operand]
  unfold Machine.ptClass
  rw [ho]
  obtain ⟨_, rfl⟩ := h.cells
  rfl

theorem SameJudgement.evalClass {s t : State} (h : SameJudgement s t) (b : List Byte) (x : Point) :
    evalClass t b x = evalClass s b x := by
  simp only [Machine.evalClass, h.ptClass]

/-- Blocking reads of the cells the block input, BLOCKED and the release timer. -/
theorem SameJudgement.blocking {s t : State} (h : SameJudgement s t) (b : List Byte) {x y : Point}
    (hi : y.blockIn = x.blockIn) (hb : y.blocking = x.blocking) (hr : y.relT = x.relT) :
    (blockStep t b y).blocking = (blockStep s b x).blocking := by
  have hs : since t = since s := by
    obtain ⟨_, rfl⟩ := h.cells
    rfl
  have hcn : t.course.cn = s.course.cn := by
    obtain ⟨_, rfl⟩ := h.cells
    rfl
  simp only [blockStep, h.operand, hi, hb, hr, hs, hcn]
  repeat' split
  all_goals rfl

theorem SameJudgement.suppression {s t : State} (h : SameJudgement s t) (b : List Byte) {x y : Point}
    (hn : y.inhibit = x.inhibit) (hi : y.blockIn = x.blockIn) (hb : y.blocking = x.blocking) (hr : y.relT = x.relT) :
    suppression t b y = suppression s b x := by
  simp only [Machine.suppression, h.ptClass, hn, h.blocking b hi hb hr]

/-- A change of one point's cells that leaves its STATE and COND. -/
theorem SameJudgement.upd {p : Nat} {f : Point → Point} (hs : ∀ x, (f x).state = x.state) (hc : ∀ x, (f x).cond = x.cond)
    (s : State) : SameJudgement s (updPoint p f s) := by
  refine ⟨⟨_, rfl⟩, fun q => ?_, fun q => ?_⟩
  · by_cases hq : q = p
    · rw [hq, updPoint_same, hs]
    · rw [updPoint_other _ _ _ hq]
  · by_cases hq : q = p
    · rw [hq, updPoint_same, hc]
    · rw [updPoint_other _ _ _ hq]

/-- The window after RATE with a source that is not bad, outside suppression. -/
def rateKept (s : State) (p : Nat) : List (Word × Bool) :=
  let w0 := if (pointGet s p).state.suppressing then [] else (pointGet s p).window
  (w0 ++ [(anaValue s (ptSrcType (ptBody s p)) (ptSrc (ptBody s p)), decide (ptClass s (ptBody s p) = .settling))]).drop
    (w0.length - ptWindow (ptBody s p))

/-- Whether RATE forgets the window. -/
def rateForgets (s : State) (p : Nat) : Bool :=
  (suppression s (ptBody s p) (pointGet s p)).isSome || ptClass s (ptBody s p) = .bad

/-- The window after RATE. -/
def rateNext (s : State) (p : Nat) : List (Word × Bool) := if rateForgets s p then [] else rateKept s p

/-- The rate after RATE. -/
def rateNow (s : State) (p : Nat) : Option Dword :=
  if rateForgets s p then none
  else if (rateKept s p).length = ptWindow (ptBody s p) + 1 then
    some (fdiv (fsub (f32to64 (anaValue s (ptSrcType (ptBody s p)) (ptSrc (ptBody s p))))
      (f32to64 ((rateKept s p).headD (0, false)).1)) (f64ofRatio (ptWindow (ptBody s p) * evalPeriod s p) 4000))
  else none

theorem rateWindow_eq {s : State} {p : Nat} (h : planned s 5 p = true) :
    rateWindow p s = updPoint p (fun x => { x with window := rateNext s p, rate := rateNow s p }) s := by
  unfold rateWindow
  extract_lets b x n v w0 w r
  rw [if_pos h]
  by_cases hf : rateForgets s p = true
  · refine (if_pos hf).trans ?_
    rw [rateNext, rateNow, if_pos hf, if_pos hf]
  · refine (if_neg hf).trans ?_
    rw [rateNext, rateNow, if_neg hf, if_neg hf]
    rfl

theorem rateWindow_same (s : State) (p : Nat) (h : planned s 5 p = true) : SameJudgement s (rateWindow p s) := by
  rw [rateWindow_eq h]
  refine .upd ?_ ?_ s <;> exact fun _ => rfl

theorem rateWindow_point {s : State} {p : Nat} (h : planned s 5 p = true) :
    pointGet (rateWindow p s) p = { pointGet s p with window := rateNext s p, rate := rateNow s p } := by
  rw [rateWindow_eq h, updPoint_same]

theorem rateWindow_other {s : State} {p : Nat} (h : planned s 5 p = true) {q : Nat} (hq : q ≠ p) :
    pointGet (rateWindow p s) q = pointGet s q := by
  rw [rateWindow_eq h, updPoint_other _ _ _ hq]

/-- RATE's judgement, in terms of the state before it. -/
theorem rateWindow_judged {s : State} {p : Nat} (h : planned s 5 p = true) : Judged (rateWindow p s) p
    ↔ suppression s (ptBody s p) (pointGet s p) = none
      ∧ evalClass s (ptBody s p) { pointGet s p with window := rateNext s p, rate := rateNow s p } = .good := by
  have hs := rateWindow_same s p h
  have hb : ptBody (rateWindow p s) p = ptBody s p := by rw [rateWindow_eq h]; rfl
  have hp : planned (rateWindow p s) 5 p = true := by rw [rateWindow_eq h]; exact h
  have hsup : suppression (rateWindow p s) (ptBody s p) (pointGet (rateWindow p s) p)
      = suppression s (ptBody s p) (pointGet s p) :=
    hs.suppression _ (by rw [rateWindow_point h]) (by rw [rateWindow_point h]) (by rw [rateWindow_point h])
      (by rw [rateWindow_point h])
  unfold Judged
  rw [hb, hsup, hs.evalClass, rateWindow_point h]
  simp [hp]

theorem rateWord_other {s : State} {p : Nat} (h : planned s 5 p = true) {q : Nat} (hq : q ≠ p) :
    pointGet (rateWord p s) q = pointGet s q := by
  unfold rateWord
  split
  · rw [cmpWord_other _ _ hq, rateWindow_other h hq]
  · rw [rateWindow_other h hq]

/-- RATE changes the window, the rate, COND and what it was before. -/
theorem rateWord_cells {s : State} {p : Nat} (h : planned s 5 p = true) : pointGet (rateWord p s) p
    = { pointGet s p with
        window := rateNext s p, rate := rateNow s p
        cond := (pointGet (rateWord p s) p).cond, condWas := (pointGet (rateWord p s) p).condWas } := by
  unfold rateWord
  split
  · have e := cmpWord_cells p (rateWindow p s)
    rw [rateWindow_point h] at e
    exact e
  · rw [rateWindow_point h]

theorem rateWord_cond_judged {s : State} {p : Nat} (h : planned s 5 p = true) (hk : ptKind (ptBody s p) = 6)
    (hm : ptMultidrop s (ptBody s p) = false) (hj : Judged (rateWindow p s) p) :
    (pointGet (rateWord p s) p).cond = match rateNow s p with
      | none => false
      | some r => hystHigh (rateSigned (ptBody s p) r) (f32to64 (ptLimit (ptBody s p))) (f32to64 (ptHyst (ptBody s p)))
          (condBefore (pointGet s p)) := by
  have hb : ptBody (rateWindow p s) p = ptBody s p := by rw [rateWindow_eq h]; rfl
  have hm' : ptMultidrop (rateWindow p s) (ptBody s p) = false := by rw [rateWindow_eq h]; exact hm
  have e : rateWord p s = cmpWord p (rateWindow p s) := if_pos hk
  rw [e, cmpWord_point hj, hb]
  refine (compareCond_rate hm' hk _ _).trans ?_
  rw [rateWindow_point h]
  rfl

theorem rateWord_cond_kept {s : State} {p : Nat} (h : planned s 5 p = true)
    (hj : ptKind (ptBody s p) ≠ 6 ∨ ¬ Judged (rateWindow p s) p) :
    (pointGet (rateWord p s) p).cond = (pointGet s p).cond := by
  have hw : (pointGet (rateWindow p s) p).cond = (pointGet s p).cond := by rw [rateWindow_point h]
  obtain hk | hj := hj
  · rw [rateWord, if_neg hk, hw]
  · unfold rateWord
    split
    · rw [cmpWord_skips hj, hw]
    · exact hw

theorem rateForgets_false {s : State} {p : Nat} (hs : suppression s (ptBody s p) (pointGet s p) = none)
    (hc : ptClass s (ptBody s p) ≠ .bad) : rateForgets s p = false := by
  simp [rateForgets, hs, hc]

/-- A window that is not yet full has no rate. -/
theorem rateNow_short {s : State} {p : Nat} (h : (rateKept s p).length ≤ ptWindow (ptBody s p)) : rateNow s p = none := by
  unfold rateNow
  split
  · rfl
  · exact if_neg (by omega)

theorem logicWord_same {s : State} {p : Nat} :
    SameJudgement s (updPoint p (fun x => { x with logic := logicValue s (ptBody s p) }) s) := by
  refine .upd ?_ ?_ s <;> exact fun _ => rfl

/-- LOGIC's result in the cells. -/
def logicSet (p : Nat) (s : State) : State := updPoint p (fun x => { x with logic := logicValue s (ptBody s p) }) s

theorem logicWord_eq {s : State} {p : Nat} (h : planned s 5 p = true) :
    logicWord p s = if ptSrcType (ptBody s p) = 5 then cmpWord p (logicSet p s) else logicSet p s := if_pos h

theorem logicSet_point (p : Nat) (s : State) :
    pointGet (logicSet p s) p = { pointGet s p with logic := logicValue s (ptBody s p) } := updPoint_same _ _ _

theorem logicSet_judged {s : State} {p : Nat} (h : planned s 5 p = true) : Judged (logicSet p s) p
    ↔ suppression s (ptBody s p) (pointGet s p) = none ∧ evalClass s (ptBody s p) (pointGet s p) = .good := by
  have hs : SameJudgement s (logicSet p s) := logicWord_same
  have hsup : suppression (logicSet p s) (ptBody s p) (pointGet (logicSet p s) p)
      = suppression s (ptBody s p) (pointGet s p) :=
    hs.suppression _ (by rw [logicSet_point]) (by rw [logicSet_point]) (by rw [logicSet_point]) (by rw [logicSet_point])
  have hb : ptBody (logicSet p s) p = ptBody s p := rfl
  have hp : planned (logicSet p s) 5 p = true := h
  have he : evalClass s (ptBody s p) (pointGet (logicSet p s) p) = evalClass s (ptBody s p) (pointGet s p) := by
    rw [logicSet_point]; rfl
  unfold Judged
  rw [hb, hsup, hs.evalClass, he]
  simp [hp]

theorem logicWord_other {s : State} {p : Nat} (h : planned s 5 p = true) {q : Nat} (hq : q ≠ p) :
    pointGet (logicWord p s) q = pointGet s q := by
  have hs : pointGet (logicSet p s) q = pointGet s q := updPoint_other _ _ _ hq
  rw [logicWord_eq h]
  split
  · rw [cmpWord_other _ _ hq, hs]
  · exact hs

theorem logicWord_cells {s : State} {p : Nat} (h : planned s 5 p = true) : pointGet (logicWord p s) p
    = { pointGet s p with
        logic := logicValue s (ptBody s p)
        cond := (pointGet (logicWord p s) p).cond, condWas := (pointGet (logicWord p s) p).condWas } := by
  rw [logicWord_eq h]
  split
  · have e := cmpWord_cells p (logicSet p s)
    rw [logicSet_point] at e
    exact e
  · rw [logicSet_point]

/-- A settling start of the window makes a RATE point's evaluation only worse, and matters to no other kind. -/
theorem evalClass_of_kind {s : State} {b : List Byte} (x : Point) (hk : ptKind b ≠ 6) : evalClass s b x = ptClass s b :=
  if_neg (by simp [hk])

theorem evalClass_good {s : State} {b : List Byte} {x : Point} (h : evalClass s b x = .good) : ptClass s b = .good := by
  unfold evalClass at h
  split at h
  · cases hc : ptClass s b <;> rw [hc] at h <;> cases h
  · exact h

theorem logicWord_cond_kept {s : State} {p : Nat} (h : planned s 5 p = true)
    (hj : suppression s (ptBody s p) (pointGet s p) ≠ none ∨ ptClass s (ptBody s p) ≠ .good ∨ ptSrcType (ptBody s p) ≠ 5) :
    (pointGet (logicWord p s) p).cond = (pointGet s p).cond := by
  have hs : (pointGet (logicSet p s) p).cond = (pointGet s p).cond := by rw [logicSet_point]
  rw [logicWord_eq h]
  split
  · next h5 =>
    have hn : ¬ Judged (logicSet p s) p := by
      rw [logicSet_judged h]
      rintro ⟨h1, h2⟩
      obtain hj | hj | hj := hj
      · exact hj h1
      · exact hj (evalClass_good h2)
      · exact hj h5
    rw [cmpWord_skips hn, hs]
  · exact hs

theorem logicWord_cond {s : State} {p : Nat} (h : planned s 5 p = true)
    (hs : suppression s (ptBody s p) (pointGet s p) = none) (hc : ptClass s (ptBody s p) = .good)
    (hk : ptKind (ptBody s p) = 7) (ht : ptSrcType (ptBody s p) = 5) :
    (pointGet (logicWord p s) p).cond = logicValue s (ptBody s p) := by
  have hj : Judged (logicSet p s) p := (logicSet_judged h).2 ⟨hs, (evalClass_of_kind _ (by omega)).trans hc⟩
  have hm : ptMultidrop (logicSet p s) (ptBody s p) = false := by simp [ptMultidrop, hk]
  rw [logicWord_eq h, if_pos ht, cmpWord_point hj]
  refine (compareCond_logic hm hk ht _ _).trans ?_
  rw [logicSet_point]

/-- The value of an operand as the expression reads it. -/
def operandOn (s : State) (x : Nat × Bool × Nat) : Bool := (operand s x.1 x.2.2).2 != x.2.1

theorem logicValue_and {s : State} {b : List Byte} (h : ptLogicOp b = 0) :
    logicValue s b = true ↔ ∀ x ∈ ptOperands b, operandOn s x = true := by
  simp [logicValue, h, operandOn]

theorem logicValue_or {s : State} {b : List Byte} (h : ptLogicOp b = 1) :
    logicValue s b = true ↔ ∃ x ∈ ptOperands b, operandOn s x = true := by
  simp [logicValue, h, operandOn]

theorem logicValue_atLeast {s : State} {b : List Byte} (h : 2 ≤ ptLogicOp b) :
    logicValue s b = true ↔ ptLogicK b ≤ ((ptOperands b).filter (operandOn s)).length := by
  have e : logicValue s b = decide (ptLogicK b ≤ (((ptOperands b).map (operandOn s)).filter id).length) := by
    unfold logicValue
    split
    · omega
    · omega
    · rfl
  rw [e, decide_eq_true_eq, List.filter_map, List.length_map]
  rfl

/-- Settles O14: the window and the result change nothing that the judgement after them reads but themselves. -/
theorem rateAndLogic : Obligations.RateAndLogic := by
  unfold Obligations.RateAndLogic
  refine ⟨fun p w s h hp => ?_, fun p w s h hp => ?_⟩
  · intro b x v lim hy prev new
    have hcells := rateWord_cells hp
    have hwin : (pointGet (tick 1 (slotCycles 0x21 w.p.toNat) (rateWord p.val s)) p.val).window = rateNext s p.val :=
      congrArg Point.window hcells
    have hrate : (pointGet (tick 1 (slotCycles 0x21 w.p.toNat) (rateWord p.val s)) p.val).rate = rateNow s p.val :=
      congrArg Point.rate hcells
    have hev : evalClass s b (pointGet (tick 1 (slotCycles 0x21 w.p.toNat) (rateWord p.val s)) p.val)
        = evalClass s b { pointGet s p.val with window := rateNext s p.val, rate := rateNow s p.val } := by
      unfold evalClass
      rw [hwin]
    refine ⟨_, congrArg Host.Outcome.next (slotWord_runs h _), fun hf => ?_, fun hs hc hx hn => ?_, fun hs hc hx hn => ?_,
      fun hs hc hx hn => ?_, fun hs hc hk hm => ?_, fun hk => ?_, ?_, fun q hq => rateWord_other hp hq,
      (rateWord_cellsOnly p.val s).tick _⟩
    · have hf' : rateForgets s p.val = true := by
        simpa [rateForgets, Option.isSome_iff_ne_none] using hf
      rw [hwin, hrate, rateNext, rateNow, if_pos hf', if_pos hf']
      exact ⟨rfl, rfl⟩
    · have hf := rateForgets_false hs hc
      have hk : rateKept s p.val = [new] := by
        simp [rateKept, show (pointGet s p.val).state.suppressing = true from hx]
        rfl
      rw [hwin, hrate, rateNow_short (by rw [hk]; exact hn), rateNext, hf, hk]
      exact ⟨rfl, rfl⟩
    · have hf := rateForgets_false hs hc
      have hk : rateKept s p.val = x.window ++ [new] := by
        have e : x.window.length - ptWindow b = 0 := by omega
        simp only [rateKept, show (pointGet s p.val).state.suppressing = false from hx]
        exact congrArg (fun k => (x.window ++ [new]).drop k) e
      rw [hwin, hrate, rateNow_short (by rw [hk, List.length_append]; exact hn), rateNext, hf, hk]
      exact ⟨rfl, rfl⟩
    · intro full
      have hf := rateForgets_false hs hc
      have hk : rateKept s p.val = full := by
        simp only [rateKept, show (pointGet s p.val).state.suppressing = false from hx]
        exact List.drop_append_of_le_length (Nat.sub_le _ _)
      have hl : (rateKept s p.val).length = ptWindow (ptBody s p.val) + 1 := by
        rw [hk]
        simp only [full, List.length_append, List.length_drop, List.length_singleton]
        have e : ptBody s p.val = b := rfl
        rw [e]
        omega
      rw [hwin, hrate, rateNext, rateNow, hf, if_neg (by decide), if_neg (by decide), if_pos hl, hk]
      exact ⟨rfl, rfl⟩
    · rw [hrate]
      rw [hev] at hc
      exact rateWord_cond_judged hp hk hm ((rateWindow_judged hp).2 ⟨hs, hc⟩)
    · refine rateWord_cond_kept hp ?_
      rw [rateWindow_judged hp]
      rw [hev] at hk
      obtain hk | hk | hk := hk
      · exact .inr fun hj => hk hj.1
      · exact .inr fun hj => hk hj.2
      · exact .inl hk
    · rw [hwin, hrate]
      exact hcells
  · intro b x on
    have hcells := logicWord_cells hp
    have hl : (pointGet (tick 1 (slotCycles 0x23 w.p.toNat) (logicWord p.val s)) p.val).logic = logicValue s b :=
      congrArg Point.logic hcells
    refine ⟨_, congrArg Host.Outcome.next (slotWord_runs h _), fun ho => ?_, fun ho => ?_, fun ho => ?_,
      fun hs hc hk ht => ?_, fun hn => logicWord_cond_kept hp hn, ?_, fun q hq => logicWord_other hp hq,
      (logicWord_cellsOnly p.val s).tick _⟩
    · rw [hl]
      exact logicValue_and ho
    · rw [hl]
      exact logicValue_or ho
    · rw [hl]
      exact logicValue_atLeast ho
    · rw [hl]
      exact logicWord_cond hp hs hc hk ht
    · rw [hl]
      exact hcells

end Sys2Proof.Machine
end

section
/-! The delays of a point as commands, GROUP, and the calls (ch. 08). -/

namespace Sys2Proof.Machine

/-! States of a point. -/

theorem pointGet_alarmRecord (p : Nat) (old new : Half) (cause by_ : Nat) (s : State) (q : Nat) :
    pointGet (alarmRecord p old new cause by_ s) q = pointGet s q := by
  obtain ⟨r, e, l, f, h⟩ := alarmRecord_frame p old new cause by_ s
  rw [h]
  rfl

/-- The cells of a point that takes STATE `st`. -/
def enters (st : PState) (time : Stamp) (x : Point) : Point :=
  { x with
    state := st, time := time
    sounding := x.sounding || st = .activeUnack
    rose := x.rose || st = .activeUnack
    count := if st = .activeUnack then satInc x.count else x.count }

theorem pointGet_ptTo (p : Nat) (st : PState) (time : Stamp) (cause by_ : Nat) (old : Half) (s : State) :
    pointGet (ptTo p st time cause by_ old s) p = enters st time (pointGet s p) := by
  rw [ptTo, pointGet_alarmRecord, updPoint_same]
  rfl

theorem pointGet_ptTo_other (p : Nat) (st : PState) (time : Stamp) (cause by_ : Nat) (old : Half) (s : State) {q : Nat}
    (h : q ≠ p) : pointGet (ptTo p st time cause by_ old s) q = pointGet s q := by
  rw [ptTo, pointGet_alarmRecord, updPoint_other _ _ _ h]

/-- A STATE other than ACTIVE_UNACK neither sounds nor counts. -/
theorem enters_quiet {st : PState} (h : st ≠ .activeUnack) (time : Stamp) (x : Point) :
    enters st time x = { x with state := st, time := time } := by
  simp [enters, h]

theorem pointGet_onConfirmed (p : Nat) (old : Half) (s : State) : pointGet (onConfirmed p old s) p
    = enters .activeUnack (ptStamp s (ptBody s p)) { pointGet s p with onT := none } := by
  rw [onConfirmed, pointGet_ptTo, updPoint_same]

theorem pointGet_onConfirmed_other (p : Nat) (old : Half) (s : State) {q : Nat} (h : q ≠ p) :
    pointGet (onConfirmed p old s) q = pointGet s q := by
  rw [onConfirmed, pointGet_ptTo_other _ _ _ _ _ _ _ h, updPoint_other _ _ _ h]

/-- STATE after the off-delay. -/
def offState (s : State) (p : Nat) : PState :=
  if (pointGet s p).state = .activeUnack && ptLatch (ptBody s p) then .clearedUnack else .normal

theorem offState_quiet (s : State) (p : Nat) : offState s p ≠ .activeUnack := by
  unfold offState
  split <;> exact nofun

theorem pointGet_offConfirmed (p : Nat) (old : Half) (s : State) : pointGet (offConfirmed p old s) p
    = { pointGet s p with state := offState s p, time := ptStamp s (ptBody s p), offT := none } := by
  rw [offConfirmed, pointGet_ptTo, updPoint_same]
  exact enters_quiet (offState_quiet s p) _ _

theorem pointGet_offConfirmed_other (p : Nat) (old : Half) (s : State) {q : Nat} (h : q ≠ p) :
    pointGet (offConfirmed p old s) q = pointGet s q := by
  rw [offConfirmed, pointGet_ptTo_other _ _ _ _ _ _ _ h, updPoint_other _ _ _ h]

theorem pointGet_faultConfirmed (p : Nat) (old : Half) (s : State) :
    (pointGet (faultConfirmed p old s) p).srcBad = true ∧ (pointGet (faultConfirmed p old s) p).faultT = none
    ∧ (pointGet (faultConfirmed p old s) p).state
        = if (pointGet s p).state = .normal ∨ (pointGet s p).state = .clearedUnack then .fault else (pointGet s p).state := by
  unfold faultConfirmed
  extract_lets s1 st
  by_cases h : (pointGet s p).state = .normal ∨ (pointGet s p).state = .clearedUnack
  · have h' : (decide (st = .normal) || decide (st = .clearedUnack)) = true := by simpa using h
    rw [if_pos h', if_pos h, pointGet_ptTo, updPoint_same]
    exact ⟨rfl, rfl, rfl⟩
  · have h' : ¬ (decide (st = .normal) || decide (st = .clearedUnack)) = true := by simpa using h
    rw [if_neg h', if_neg h, updPoint_same]
    exact ⟨rfl, rfl, rfl⟩

theorem pointGet_faultConfirmed_other (p : Nat) (old : Half) (s : State) {q : Nat} (h : q ≠ p) :
    pointGet (faultConfirmed p old s) q = pointGet s q := by
  unfold faultConfirmed
  extract_lets s1 st
  split
  · rw [pointGet_ptTo_other _ _ _ _ _ _ _ h, updPoint_other _ _ _ h]
  · rw [updPoint_other _ _ _ h]

theorem PointsOnly.frame {s t : State} (h : PointsOnly s t) : t = { s with
    alarm.points := t.alarm.points, alarm.raised := t.alarm.raised, evq := t.evq, log := t.log, free := t.free } := by
  obtain ⟨_, _, _, _, _, rfl⟩ := h
  rfl

/-- Settles O16, by what each confirmation leaves in the point's cells. -/
theorem pointDelaysEnd : Obligations.PointDelaysEnd := by
  unfold Obligations.PointDelaysEnd
  intro p s b x onRan offRan faultRan relRan frame
  refine ⟨fun h => ?_, fun h => ?_, fun h => ?_, fun h => ?_, fun h => ?_, fun h => ?_, fun h => ?_, fun h => ?_⟩
  · have hc := h
    obtain ⟨hp, hst, hcond, hr⟩ := hc
    refine ⟨_, congrArg Host.Outcome.next (if_pos (by simpa [and_assoc] using h)),
      ⟨fun q hq => pointGet_onConfirmed_other _ _ _ hq, (onConfirmed_pointsOnly _ _ _).frame⟩, ?_⟩
    rw [pointGet_onConfirmed]
    simp [enters, x, b]
  · exact congrArg Host.Outcome.next (if_neg fun h' => h (by simpa [onRan, and_assoc] using h'))
  · refine ⟨_, congrArg Host.Outcome.next (if_pos (by simpa [and_assoc] using h)),
      ⟨fun q hq => pointGet_offConfirmed_other _ _ _ hq, (offConfirmed_pointsOnly _ _ _).frame⟩, ?_⟩
    rw [pointGet_offConfirmed]
    simp [offState, x, b]
  · exact congrArg Host.Outcome.next (if_neg fun h' => h (by simpa [offRan, and_assoc] using h'))
  · exact ⟨_, congrArg Host.Outcome.next (if_pos (by simpa [and_assoc] using h)),
      ⟨fun q hq => pointGet_faultConfirmed_other _ _ _ hq, (faultConfirmed_pointsOnly _ _ _).frame⟩,
      pointGet_faultConfirmed _ _ _⟩
  · exact congrArg Host.Outcome.next (if_neg fun h' => h (by simpa [faultRan, and_assoc] using h'))
  · exact ⟨_, congrArg Host.Outcome.next (if_pos (by simpa [and_assoc] using h)),
      ⟨fun q hq => updPoint_other _ _ _ hq, rfl⟩, updPoint_same _ _ _, rfl⟩
  · exact congrArg Host.Outcome.next (if_neg fun h' => h (by simpa [relRan, and_assoc] using h'))

/-! GROUP. -/

theorem groupGet_alarmEvent (code group point : Nat) (s : State) (g : Nat) :
    groupGet (alarmEvent code group point s) g = groupGet s g := by
  obtain ⟨e, f, h⟩ := blockEv_evq 0x13 code (group + point * 2 ^ 16) s
  rw [alarmEvent, h]
  rfl

theorem groupGet_emptyFo_other (g : Nat) (s : State) {k : Nat} (h : k ≠ g) : groupGet (emptyFo g s) k = groupGet s k := by
  unfold emptyFo
  split
  · rw [groupGet_alarmEvent, updGroup_other _ _ _ h]
  · rfl

theorem emptyFo_empty {s : State} {g : Nat} (h : (groupGet s g).fo = none) : emptyFo g s = s := by
  simp [emptyFo, h]

/-- A group as its GROUP word leaves it, the first-out latch apart (R228). -/
def groupDerived (s : State) (g : Nat) (x : Group) : Group :=
  { x with
    lamp := if (members s g).any (fun p => (pointGet s p).state = .activeUnack) then 2
      else if (members s g).any (fun p => (pointGet s p).state = .clearedUnack) then 3
      else if (members s g).any (fun p => (pointGet s p).state = .activeAck) then 1 else 0
    horn := (members s g).any (fun p => (pointGet s p).sounding)
    anyFault := (members s g).any (fun p => (pointGet s p).state = .fault || (pointGet s p).srcBad)
    anySuppr := (members s g).any (fun p => (pointGet s p).state.suppressing)
    stage := groupStage s g }

/-- The latch emptied where the group's members are quiet. -/
def groupRefresh (g : Nat) (s : State) : State :=
  if bits (bAt (grpBody s g) 8) 0 1 = 1 && (members s g).all (fun p =>
    (pointGet s p).state = .normal || (pointGet s p).state = .fault || (pointGet s p).state.suppressing) then emptyFo g s else s

/-- The group's cells before its first-out latch is filled. -/
def groupSet (g : Nat) (s : State) : State := updGroup g (groupDerived s g) (groupRefresh g s)

theorem groupWord_eq {s : State} {g : Nat} (h : planned s 6 g = true) :
    groupWord g s = match (groupGet (groupSet g s) g).fo, firstRisen (groupSet g s) (members s g) with
      | none, some p => alarmEvent 0x11 g p
          (updGroup g (fun x => { x with fo := some (p, (pointGet (groupSet g s) p).time) }) (groupSet g s))
      | _, _ => groupSet g s := (if_pos h).trans rfl

theorem groupRefresh_only (g : Nat) (s : State) : GroupsOnly s (groupRefresh g s) := by
  unfold groupRefresh
  split
  · exact emptyFo_groupsOnly g s
  · exact ⟨_, _, _, rfl⟩

theorem groupRefresh_other (g : Nat) (s : State) {k : Nat} (h : k ≠ g) :
    groupGet (groupRefresh g s) k = groupGet s k := by
  unfold groupRefresh
  split
  · exact groupGet_emptyFo_other g s h
  · rfl

theorem groupRefresh_empty {s : State} {g : Nat} (h : (groupGet s g).fo = none) : groupRefresh g s = s := by
  unfold groupRefresh
  rw [emptyFo_empty h]
  exact ite_self s

/-- GROUP changes no other group; it leaves the derived cells, and the latch as it is or filled. -/
theorem groupWord_group {s : State} {g : Nat} (h : planned s 6 g = true) :
    ∃ fo, groupGet (groupWord g s) g = { groupDerived s g (groupGet (groupRefresh g s) g) with fo := fo } := by
  rw [groupWord_eq h]
  have hs : groupGet (groupSet g s) g = groupDerived s g (groupGet (groupRefresh g s) g) := updGroup_same _ _ _
  split
  · rw [groupGet_alarmEvent, updGroup_same, hs]
    exact ⟨_, rfl⟩
  · rw [hs]
    exact ⟨_, rfl⟩

theorem groupWord_other {s : State} {g : Nat} (h : planned s 6 g = true) {k : Nat} (hk : k ≠ g) :
    groupGet (groupWord g s) k = groupGet s k := by
  rw [groupWord_eq h]
  have hs : groupGet (groupSet g s) k = groupGet s k := (updGroup_other _ _ _ hk).trans (groupRefresh_other g s hk)
  split
  · rw [groupGet_alarmEvent, updGroup_other _ _ _ hk, hs]
  · exact hs

/-- An empty latch takes the member that rose first. -/
theorem groupWord_fo {s : State} {g p : Nat} (h : planned s 6 g = true) (hn : (groupGet s g).fo = none)
    (hf : firstRisen s (members s g) = some p) : (groupGet (groupWord g s) g).fo = some (p, (pointGet s p).time) := by
  have hs : groupSet g s = updGroup g (groupDerived s g) s := by rw [groupSet, groupRefresh_empty hn]
  have hfo : (groupGet (groupSet g s) g).fo = none := by rw [hs, updGroup_same]; exact hn
  have hr : firstRisen (groupSet g s) (members s g) = some p := by rw [hs]; exact hf
  have ht : (pointGet (groupSet g s) p).time = (pointGet s p).time := by rw [hs]; rfl
  rw [groupWord_eq h, hfo, hr]
  simp only
  rw [groupGet_alarmEvent, updGroup_same, ht]

/-! Tables of the calls. -/

theorem callTab_updTab_same (t : Nat) (f : CallTab → CallTab) (s : State) : callTab (updTab t f s) t = f (callTab s t) :=
  Tab.get_upd_same _ _ _ _

theorem callTab_updTab_other (t : Nat) (f : CallTab → CallTab) (s : State) {k : Nat} (h : k ≠ t) :
    callTab (updTab t f s) k = callTab s k := Tab.get_upd_other _ _ _ h

theorem call_callEvent (code table detail : Nat) (s : State) : (callEvent code table detail s).alarm.call = s.alarm.call := by
  obtain ⟨e, f, h⟩ := blockEv_evq 0x14 code (table + detail * 2 ^ 16) s
  rw [callEvent, h]

/-- SETTAB writes its table and drops transfers; duty and the watch stay. -/
theorem call_setTab (t : Nat) (x : CallTab) (s : State) : ∃ xs, (setTab t x s).alarm.call
    = { s.alarm.call with
        tables := s.alarm.call.tables.upd {} t (fun _ => { x with xferFail := x.xferFail && tabStage x ≠ 0 }), xfers := xs } := by
  unfold setTab
  extract_lets o y s1 s2
  have h2 : ∃ xs, s2.alarm.call = { s.alarm.call with tables := s.alarm.call.tables.upd {} t (fun _ => y), xfers := xs } := by
    unfold s2
    split <;> exact ⟨_, rfl⟩
  clear_value s2
  split
  · rw [call_callEvent]
    exact h2
  · exact h2

theorem callTab_setTab (t : Nat) (x : CallTab) (s : State) :
    callTab (setTab t x s) t = { x with xferFail := x.xferFail && tabStage x ≠ 0 } := by
  obtain ⟨xs, h⟩ := call_setTab t x s
  rw [callTab, h]
  exact Tab.get_upd_same _ _ _ _

theorem callTab_setTab_other (t : Nat) (x : CallTab) (s : State) {k : Nat} (h : k ≠ t) :
    callTab (setTab t x s) k = callTab s k := by
  obtain ⟨xs, e⟩ := call_setTab t x s
  rw [callTab, e]
  exact Tab.get_upd_other _ _ _ h

theorem phase_setTab (t : Nat) (x : CallTab) (s : State) : (setTab t x s).alarm.call.phase = s.alarm.call.phase := by
  obtain ⟨xs, e⟩ := call_setTab t x s
  rw [e]

theorem duty_setTab (t : Nat) (x : CallTab) (s : State) : (setTab t x s).alarm.call.duty = s.alarm.call.duty := by
  obtain ⟨xs, e⟩ := call_setTab t x s
  rw [e]

theorem CallsOnly.since {s t : State} (h : CallsOnly s t) (c : Word) : since t c = Machine.since s c := by
  obtain ⟨_, _, _, rfl⟩ := h
  rfl

theorem CallsOnly.tabBody {s t : State} (h : CallsOnly s t) (n : Nat) : tabBody t n = Machine.tabBody s n := by
  obtain ⟨_, _, _, rfl⟩ := h
  rfl

theorem since_now (s : State) : since s s.course.cn = 0 := by simp [since]

/-- A table that has just changed its stage is not due before a course has passed. -/
theorem stage1Due_false {s : State} {t : Nat} (h : (callTab s t).stage ≠ 1) : stage1Due s t = false := by
  simp [stage1Due, h]

theorem stage2Due_false {s : State} {t : Nat} (h : (callTab s t).stage ≠ 2) : stage2Due s t = false := by
  simp [stage2Due, h]

/-- A table at its first stage since now. -/
theorem stage1Due_fresh (t : Nat) (x : CallTab) (s : State) (hd : 0 < u16At (tabBody s t) 0)
    (hx : x.start = s.course.cn) : stage1Due (setTab t x s) t = false := by
  have hs := setTab_callsOnly t x s
  have e : since (setTab t x s) (callTab (setTab t x s) t).start = 0 := by
    rw [hs.since, callTab_setTab]
    exact (congrArg (Machine.since s) hx).trans (since_now s)
  simp only [stage1Due, hs.tabBody, e, secCourses, Bool.and_eq_false_iff, decide_eq_false_iff_not]
  exact .inr (by omega)

theorem stage2Due_fresh (t : Nat) (x : CallTab) (s : State) (hd : 0 < u16At (tabBody s t) 2)
    (hx : x.start = s.course.cn) : stage2Due (setTab t x s) t = false := by
  have hs := setTab_callsOnly t x s
  have e : since (setTab t x s) (callTab (setTab t x s) t).start = 0 := by
    rw [hs.since, callTab_setTab]
    exact (congrArg (Machine.since s) hx).trans (since_now s)
  simp only [stage2Due, hs.tabBody, e, secCourses, Bool.and_eq_false_iff, decide_eq_false_iff_not]
  exact .inr (by omega)

theorem callAlarm_called {s : State} {t : Nat} (h : tabCalled s t = true) :
    callAlarm t s =
      let s1 := if (callTab s t).stage = 0 then setTab t { callTab s t with stage := 1, start := s.course.cn } s else s
      let s2 := if stage1Due s1 t then callStage1 t s1 else s1
      if stage2Due s2 t then callStage2 t s2 else s2 := if_pos h

theorem callAlarm_quiet {s : State} {t : Nat} (h : tabCalled s t = false) :
    (callTab (callAlarm t s) t).stage = 0 := by
  unfold callAlarm
  rw [if_neg (by simp [h])]
  split
  · assumption
  · rw [callTab_setTab]

theorem callAlarm_begins {s : State} {t : Nat} (h : tabCalled s t = true) (h0 : (callTab s t).stage = 0)
    (hd : 0 < u16At (tabBody s t) 0) :
    callAlarm t s = setTab t { callTab s t with stage := 1, start := s.course.cn } s := by
  have h1 := stage1Due_fresh t { callTab s t with stage := 1, start := s.course.cn } s hd rfl
  have h2 : stage2Due (setTab t { callTab s t with stage := 1, start := s.course.cn } s) t = false :=
    stage2Due_false (by rw [callTab_setTab]; exact Nat.one_ne_zero ∘ Nat.succ.inj ∘ Eq.symm)
  rw [callAlarm_called h]
  simp only [h0, if_true, h1, h2, Bool.false_eq_true, if_false]

theorem stage1Due_stage {s : State} {t : Nat} (h : stage1Due s t = true) : (callTab s t).stage = 1 := by
  simp only [stage1Due, Bool.and_eq_true, decide_eq_true_eq] at h
  exact h.1

theorem stage2Due_stage {s : State} {t : Nat} (h : stage2Due s t = true) : (callTab s t).stage = 2 := by
  simp only [stage2Due, Bool.and_eq_true, decide_eq_true_eq] at h
  exact h.1

theorem callAlarm_second {s : State} {t : Nat} (h : tabCalled s t = true) (h1 : stage1Due s t = true)
    (hd : 0 < u16At (tabBody s t) 2) : callAlarm t s = callStage1 t s := by
  have hst := stage1Due_stage h1
  have h2 : stage2Due (callStage1 t s) t = false := stage2Due_fresh t _ s hd rfl
  rw [callAlarm_called h]
  simp only [hst, Nat.one_ne_zero, if_false, h1, if_true, h2, Bool.false_eq_true]

theorem callAlarm_third {s : State} {t : Nat} (h : tabCalled s t = true) (h2 : stage2Due s t = true) :
    callAlarm t s = callStage2 t s := by
  have hst := stage2Due_stage h2
  have h1 : stage1Due s t = false := stage1Due_false (by rw [hst]; decide)
  rw [callAlarm_called h]
  simp only [hst, h1, Bool.false_eq_true, if_false, h2, if_true, OfNat.ofNat_ne_zero]

theorem callAlarm_other (t : Nat) (s : State) {k : Nat} (h : k ≠ t) : callTab (callAlarm t s) k = callTab s k := by
  have hset (x : CallTab) (u : State) : callTab (setTab t x u) k = callTab u k := callTab_setTab_other t x u h
  unfold callAlarm
  extract_lets x0 s1 s2
  have h1 : callTab s1 k = callTab s k := by
    unfold s1
    split
    · exact hset _ _
    · rfl
  have h2 : callTab s2 k = callTab s1 k := by
    unfold s2
    split
    · exact hset _ _
    · rfl
  split
  · split
    · exact (hset _ _).trans (h2.trans h1)
    · exact h2.trans h1
  · split
    · rfl
    · exact hset _ _

/-- A transfer whose time is up without its new output on (R236). -/
def xferLate (s : State) (t : Nat) (f : Xfer) : Bool :=
  f.table = t && !f.failed && 40 ≤ since s f.start && !cabinOn s f.new

/-- The transfers of `t` that are late fail. -/
def xfersFailed (t : Nat) (s : State) : State :=
  updTab t (fun x => { x with xferFail := true })
    (updCall (fun c => { c with xfers := c.xfers.map (fun f => if xferLate s t f then { f with failed := true } else f) }) s)

theorem xferFails_late {s : State} {t : Nat} (h : s.alarm.call.xfers.any (xferLate s t) = true) :
    xferFails t s = callEvent 3 t s.alarm.call.duty (xfersFailed t s) := if_pos h

theorem xferFails_none {s : State} {t : Nat} (h : ¬ s.alarm.call.xfers.any (xferLate s t) = true) : xferFails t s = s :=
  if_neg h

theorem callTab_callEvent (code table detail : Nat) (s : State) (k : Nat) :
    callTab (callEvent code table detail s) k = callTab s k := by
  rw [callTab, call_callEvent, callTab]

/-- Transfers that fail change only XFER_FAIL of their table. -/
theorem callTab_xferFails (t : Nat) (s : State) (k : Nat) :
    (k ≠ t → callTab (xferFails t s) k = callTab s k)
    ∧ (callTab (xferFails t s) k).stage = (callTab s k).stage ∧ (callTab (xferFails t s) k).start = (callTab s k).start := by
  by_cases h : s.alarm.call.xfers.any (xferLate s t) = true
  · rw [xferFails_late h, callTab_callEvent, xfersFailed]
    by_cases hk : k = t
    · subst hk
      rw [callTab_updTab_same]
      exact ⟨fun hn => absurd rfl hn, rfl, rfl⟩
    · rw [callTab_updTab_other _ _ _ hk]
      exact ⟨fun _ => rfl, rfl, rfl⟩
  · rw [xferFails_none h]
    exact ⟨fun _ => rfl, rfl, rfl⟩

theorem callTab_callXfer (t : Nat) (s : State) (k : Nat) :
    (k ≠ t → callTab (callXfer t s) k = callTab s k)
    ∧ (callTab (callXfer t s) k).stage = (callTab s k).stage ∧ (callTab (callXfer t s) k).start = (callTab s k).start :=
  callTab_xferFails t _ k

theorem callWord_eq {s : State} {t : Nat} (h : planned s 7 t = true) : callWord t s = callXfer t (callAlarm t s) := if_pos h

theorem callWord_stage {s : State} {t : Nat} (h : planned s 7 t = true) :
    (callTab (callWord t s) t).stage = (callTab (callAlarm t s) t).stage
    ∧ (callTab (callWord t s) t).start = (callTab (callAlarm t s) t).start := by
  rw [callWord_eq h]
  exact (callTab_callXfer t (callAlarm t s) t).2

theorem callWord_other {s : State} {t : Nat} (h : planned s 7 t = true) {k : Nat} (hk : k ≠ t) :
    callTab (callWord t s) k = callTab s k := by
  rw [callWord_eq h, (callTab_callXfer t (callAlarm t s) k).1 hk, callAlarm_other t s hk]

/-! The watch. -/

theorem phase_setPhase (ph : WatchPhase) (s : State) : (setPhase ph s).alarm.call.phase = ph := by
  unfold setPhase
  extract_lets t s1 x
  have h1 : s1.alarm.call.phase = ph := by
    unfold s1
    split
    · assumption
    · rw [call_callEvent]
      rfl
  clear_value s1
  split
  · split
    · rw [phase_setTab, h1]
    · exact h1
  · split
    · exact h1
    · rw [phase_setTab, h1]

theorem watchWord_eq {s : State} (h : (roster s).isSome = true) :
    watchWord s =
      let s1 := if expiryDue s then setPhase .expired s else if prewarnDue s then setPhase .prewarn s else s
      if watch2Due s1 then watchStage2 s1 else s1 := if_pos h

theorem phase_watchWord {s : State} (h : (roster s).isSome = true) : (watchWord s).alarm.call.phase
    = if expiryDue s then .expired else if prewarnDue s then .prewarn else s.alarm.call.phase := by
  rw [watchWord_eq h]
  extract_lets s1
  have h1 : s1.alarm.call.phase = if expiryDue s then .expired else if prewarnDue s then .prewarn else s.alarm.call.phase := by
    unfold s1
    split
    · exact phase_setPhase _ _
    · split
      · exact phase_setPhase _ _
      · rfl
  split
  · rw [watchStage2, phase_setTab, h1]
  · exact h1

theorem GroupsOnly.tick {s t : State} (h : GroupsOnly s t) (c : Nat) : Machine.tick 1 c t = { s with
    course.e1 := (Machine.tick 1 c t).course.e1, alarm.groups := (Machine.tick 1 c t).alarm.groups
    evq := (Machine.tick 1 c t).evq, free := (Machine.tick 1 c t).free } := by
  obtain ⟨_, _, _, rfl⟩ := h
  rfl

theorem CallsOnly.tick {s t : State} (h : CallsOnly s t) (c : Nat) : Machine.tick 1 c t = { s with
    course.e1 := (Machine.tick 1 c t).course.e1, alarm.call := (Machine.tick 1 c t).alarm.call
    evq := (Machine.tick 1 c t).evq, free := (Machine.tick 1 c t).free } := by
  obtain ⟨_, _, _, rfl⟩ := h
  rfl

theorem CallsOnly.frame {s t : State} (h : CallsOnly s t) :
    t = { s with alarm.call := t.alarm.call, evq := t.evq, free := t.free } := by
  obtain ⟨_, _, _, rfl⟩ := h
  rfl

/-- Settles O17. -/
theorem groupAndCall : Obligations.GroupAndCall := by
  unfold Obligations.GroupAndCall
  refine ⟨fun g w s h hp => ?_, fun n w s h hn hp => ?_, fun w s h hr => ?_⟩
  · intro ms has
    obtain ⟨fo, hg⟩ := groupWord_group hp
    have hg' : groupGet (tick 1 (slotCycles 0x24 w.p.toNat) (groupWord g.val s)) g.val
        = { groupDerived s g.val (groupGet (groupRefresh g.val s) g.val) with fo := fo } := hg
    have hany (st : PState) : (members s g.val).any (fun p => decide ((pointGet s p).state = st)) = true ↔ has st := by
      simp [has, ms]
    refine ⟨_, congrArg Host.Outcome.next (slotWord_runs h _), fun h1 => ?_, fun h1 h2 => ?_, fun h1 h2 h3 => ?_,
      fun h1 h2 h3 => ?_, ?_, ?_, ?_, ?_, fun p hn hf => groupWord_fo hp hn hf, fun q hq => groupWord_other hp hq,
      (groupWord_groupsOnly g.val s).tick _⟩ <;> rw [hg']
    · simp [groupDerived, -List.any_eq_true, hany, h1]
    · simp [groupDerived, -List.any_eq_true, hany, h1, h2]
    · simp [groupDerived, -List.any_eq_true, hany, h1, h2, h3]
    · simp [groupDerived, -List.any_eq_true, hany, h1, h2, h3]
    · simp [groupDerived, ms]
    · simp [groupDerived, ms]
    · simp [groupDerived, ms]
    · rfl
  · intro x
    have hrun : exec (.call n w) s = .next (tick 1 (slotCycles 0x25 w.p.toNat) (callWord n.val s)) :=
      congrArg Host.Outcome.next ((slotWord_runs h _).trans (by rw [if_pos hn]))
    obtain ⟨hst, hstart⟩ := callWord_stage hp
    refine ⟨_, hrun, fun hc => ?_, fun hc h0 hd => ?_, fun hc h1 hd => ?_, fun hc h2 => ?_,
      fun k hk => callWord_other hp hk, (callWord_callsOnly n.val s).tick _⟩
    · exact hst.trans (callAlarm_quiet hc)
    · have e := callAlarm_begins hc h0 hd
      exact ⟨hst.trans (by rw [e, callTab_setTab]), hstart.trans (by rw [e, callTab_setTab])⟩
    · have e := callAlarm_second hc h1 hd
      exact ⟨hst.trans (by rw [e, callStage1, callTab_setTab]), hstart.trans (by rw [e, callStage1, callTab_setTab])⟩
    · exact hst.trans (by rw [callAlarm_third hc h2, callStage2, callTab_setTab])
  · have hphase := phase_watchWord hr
    have hrun : exec (.call 16 w) s = .next (tick 1 (slotCycles 0x25 w.p.toNat) (watchWord s)) :=
      congrArg Host.Outcome.next (slotWord_runs h _)
    refine ⟨_, hrun, fun he => ?_, fun he hw => ?_, fun he hw => ?_, (watchWord_callsOnly s).tick _⟩
    · exact hphase.trans (if_pos he)
    · exact hphase.trans (by simp [he, hw])
    · exact hphase.trans (by simp [he, hw])

/-! The stages and phases as commands (R234, R236, R238). -/

/-- A call part and the event queue's intake differ, no table but `t`, and not the duty. -/
structure TableOnly (t : Nat) (s u : State) : Prop where
  only : CallsOnly s u
  other : ∀ k, k ≠ t → callTab u k = callTab s k
  duty : u.alarm.call.duty = s.alarm.call.duty

theorem TableOnly.frame {t : Nat} {s u : State} (h : TableOnly t s u) : (∀ k, k ≠ t → callTab u k = callTab s k)
    ∧ u.alarm.call.duty = s.alarm.call.duty ∧ u = { s with alarm.call := u.alarm.call, evq := u.evq, free := u.free } :=
  ⟨h.other, h.duty, h.only.frame⟩

theorem TableOnly.trans {t : Nat} {s u v : State} (h : TableOnly t s u) (k : TableOnly t u v) : TableOnly t s v :=
  ⟨h.only.trans k.only, fun n hn => (k.other n hn).trans (h.other n hn), k.duty.trans h.duty⟩

theorem setTab_tableOnly (t : Nat) (x : CallTab) (s : State) : TableOnly t s (setTab t x s) :=
  ⟨setTab_callsOnly t x s, fun _ h => callTab_setTab_other t x s h, duty_setTab t x s⟩

theorem xferFails_tableOnly (t : Nat) (s : State) : TableOnly t s (xferFails t s) := by
  refine ⟨xferFails_callsOnly t s, fun k hk => (callTab_xferFails t s k).1 hk, ?_⟩
  by_cases h : s.alarm.call.xfers.any (xferLate s t) = true
  · rw [xferFails_late h, call_callEvent]
    rfl
  · rw [xferFails_none h]

/-- A phase that changes, with its event. -/
def phaseSet (ph : WatchPhase) (s : State) : State :=
  if s.alarm.call.phase = ph then s
  else callEvent 4 (watchTable s) (WatchPhase.num ph) (updCall (fun c => { c with phase := ph }) s)

theorem phaseSet_tableOnly (ph : WatchPhase) (t : Nat) (s : State) : TableOnly t s (phaseSet ph s) := by
  unfold phaseSet
  split
  · exact ⟨.refl s, fun _ _ => rfl, rfl⟩
  · refine ⟨(updCall_callsOnly _ _).trans (callEvent_callsOnly _ _ _ _), fun k _ => ?_, ?_⟩
    · rw [callTab_callEvent]
      rfl
    · rw [call_callEvent]
      rfl

theorem callTab_phaseSet (ph : WatchPhase) (s : State) (k : Nat) : callTab (phaseSet ph s) k = callTab s k := by
  unfold phaseSet
  split
  · rfl
  · rw [callTab_callEvent]
    rfl

theorem planned_phaseSet (ph : WatchPhase) (s : State) (ty n : Nat) : planned (phaseSet ph s) ty n = planned s ty n := by
  obtain ⟨_, _, _, h⟩ := (phaseSet_tableOnly ph 0 s).only
  rw [h]
  rfl

theorem setPhase_eq (ph : WatchPhase) (s : State) : setPhase ph s =
    if ph = .expired then
      if (callTab s (watchTable s)).wstage = 0 && planned s 7 (watchTable s) then
        setTab (watchTable s) { callTab s (watchTable s) with wstage := 2, wstart := s.course.cn } (phaseSet ph s)
      else phaseSet ph s
    else if (callTab s (watchTable s)).wstage = 0 then phaseSet ph s
    else setTab (watchTable s) { callTab s (watchTable s) with wstage := 0, wstart := s.course.cn } (phaseSet ph s) := by
  have h : setPhase ph s = if ph = .expired then
      if (callTab (phaseSet ph s) (watchTable s)).wstage = 0 && planned s 7 (watchTable s) then
        setTab (watchTable s) { callTab (phaseSet ph s) (watchTable s) with wstage := 2, wstart := s.course.cn } (phaseSet ph s)
      else phaseSet ph s
    else if (callTab (phaseSet ph s) (watchTable s)).wstage = 0 then phaseSet ph s
    else setTab (watchTable s) { callTab (phaseSet ph s) (watchTable s) with wstage := 0, wstart := s.course.cn }
      (phaseSet ph s) := rfl
  rw [h, callTab_phaseSet]

theorem setPhase_tableOnly (ph : WatchPhase) (s : State) : TableOnly (watchTable s) s (setPhase ph s) := by
  have h := phaseSet_tableOnly ph (watchTable s) s
  rw [setPhase_eq]
  split
  · split
    · exact h.trans (setTab_tableOnly _ _ _)
    · exact h
  · split
    · exact h
    · exact h.trans (setTab_tableOnly _ _ _)

/-- The watch's expiry begins the watch stage of its table. -/
theorem setPhase_expired_wstage {s : State} (hp : planned s 7 (watchTable s) = true)
    (hw : (callTab s (watchTable s)).wstage = 0) :
    (callTab (setPhase .expired s) (watchTable s)).wstage = 2 := by
  rw [setPhase_eq, if_pos rfl, if_pos (by simp [hp, hw]), callTab_setTab]

theorem blockEv_raised (page code data : Nat) (s : State) : Raised s (blockEv page code data s) 2 code page data := by
  have h := raiseEv_raised 2 code page (BitVec.ofNat 96 data) s
  intro hd
  obtain ⟨e, h1, h2, h3, h4, h5, h6⟩ := h hd
  exact ⟨e, h1, h2, h3, h4, h5, by rw [h6, BitVec.ofNat_toNat, BitVec.setWidth_eq]⟩

theorem stage1Due_iff {s : State} {t : Nat} : stage1Due s t = true
    ↔ (callTab s t).stage = 1 ∧ secCourses (u16At (tabBody s t) 0) ≤ since s (callTab s t).start := by
  simp [stage1Due]

theorem stage2Due_iff {s : State} {t : Nat} : stage2Due s t = true
    ↔ (callTab s t).stage = 2 ∧ secCourses (u16At (tabBody s t) 2) ≤ since s (callTab s t).start := by
  simp [stage2Due]

theorem prewarnDue_iff {s : State} : prewarnDue s = true ↔ watchEn s = true ∧ s.alarm.call.phase = .running
    ∧ secCourses (u16At (rosterBody s) 6 - u16At (rosterBody s) 8) ≤ since s s.alarm.call.watchStart := by
  simp [prewarnDue, watchRan, and_assoc]

theorem expiryDue_iff {s : State} : expiryDue s = true ↔ watchEn s = true
    ∧ (s.alarm.call.phase = .running ∨ s.alarm.call.phase = .prewarn)
    ∧ secCourses (u16At (rosterBody s) 6) ≤ since s s.alarm.call.watchStart := by
  simp [expiryDue, watchRan, and_assoc]

theorem watch2Due_iff {s : State} : watch2Due s = true ↔ watchEn s = true ∧ s.alarm.call.phase = .expired
    ∧ (callTab s (watchTable s)).wstage = 2 ∧ planned s 7 (watchTable s) = true
    ∧ secCourses (u16At (tabBody s (watchTable s)) 2) ≤ since s (callTab s (watchTable s)).wstart := by
  simp [watch2Due, and_assoc]

theorem xferLate_iff {s : State} {t : Nat} {f : Xfer} : xferLate s t f = true
    ↔ f.table = t ∧ f.failed = false ∧ 40 ≤ since s f.start ∧ cabinOn s f.new = false := by
  simp [xferLate, and_assoc]

/-- Settles O18. -/
theorem callStagesAndWatch : Obligations.CallStagesAndWatch := by
  unfold Obligations.CallStagesAndWatch
  refine ⟨fun n s => ?_, fun s hr => ?_⟩
  · intro x called due1 due2 late frame
    have hiff1 : (planned s 7 n.val && tabCalled s n.val && stage1Due s n.val) = true ↔ due1 := by
      simp only [Bool.and_eq_true, stage1Due_iff]
      rfl
    have hiff2 : (planned s 7 n.val && tabCalled s n.val && stage2Due s n.val) = true ↔ due2 := by
      simp only [Bool.and_eq_true, stage2Due_iff]
      rfl
    have hlate (f : Xfer) : xferLate s n.val f = true ↔ late f := xferLate_iff
    refine ⟨fun h => ?_, fun h => ?_, fun h => ?_, fun h => ?_, fun hp h => ?_, fun h => ?_⟩
    · refine ⟨_, congrArg Host.Outcome.next (if_pos (hiff1.2 h)), (setTab_tableOnly _ _ _).frame, ?_, ?_⟩ <;>
        rw [callStage1, callTab_setTab]
    · exact congrArg Host.Outcome.next (if_neg fun h' => h (hiff1.1 h'))
    · refine ⟨_, congrArg Host.Outcome.next (if_pos (hiff2.2 h)), (setTab_tableOnly _ _ _).frame, ?_, ?_⟩ <;>
        rw [callStage2, callTab_setTab]
    · exact congrArg Host.Outcome.next (if_neg fun h' => h (hiff2.1 h'))
    · obtain ⟨f0, hf0, hl0⟩ := h
      have hany : s.alarm.call.xfers.any (xferLate s n.val) = true := List.any_eq_true.2 ⟨f0, hf0, (hlate f0).2 hl0⟩
      refine ⟨_, congrArg Host.Outcome.next (if_pos hp), (xferFails_tableOnly _ _).frame, ?_, fun f hf hl => ?_, ?_⟩
      · rw [xferFails_late hany, callTab_callEvent, xfersFailed, callTab_updTab_same]
      · rw [xferFails_late hany, call_callEvent]
        exact List.mem_map.2 ⟨f, hf, if_pos ((hlate f).2 hl)⟩
      · rw [xferFails_late hany]
        exact blockEv_raised 0x14 3 _ (xfersFailed n.val s)
    · cases hp : planned s 7 n.val with
      | false => exact congrArg Host.Outcome.next (if_neg (by simp [hp]))
      | true =>
        obtain h | h := h
        · rw [hp] at h; cases h
        · refine congrArg Host.Outcome.next ((if_pos hp).trans (xferFails_none fun hany => ?_))
          obtain ⟨f, hf, hl⟩ := List.any_eq_true.1 hany
          exact h f hf ((hlate f).1 hl)
  · intro c tw early wt frame
    refine ⟨fun he hp h1 h2 => ?_, fun h => ?_, fun he hp h1 => ?_, fun h => ?_, fun he hp hpl hw h1 => ?_, fun h => ?_⟩
    · have hd : prewarnDue s = true := prewarnDue_iff.2 ⟨he, hp, h1⟩
      have hx : expiryDue s = false := by
        refine Bool.eq_false_iff.2 fun hx => ?_
        exact absurd (expiryDue_iff.1 hx).2.2 (Nat.not_le.2 h2)
      exact ⟨_, congrArg Host.Outcome.next (if_pos (by simp [hr, hd, hx])), (setPhase_tableOnly _ _).frame,
        phase_setPhase _ _⟩
    · refine congrArg Host.Outcome.next (if_neg fun h' => ?_)
      simp only [Bool.and_eq_true, Bool.not_eq_true'] at h'
      obtain ⟨⟨-, hd⟩, hx⟩ := h'
      obtain ⟨he, hph, hs⟩ := prewarnDue_iff.1 hd
      obtain h | h | h | h := h
      · rw [he] at h; cases h
      · exact h hph
      · exact absurd hs (Nat.not_le.2 h)
      · rw [expiryDue_iff.2 ⟨he, .inl hph, h⟩] at hx
        cases hx
    · have hx : expiryDue s = true := expiryDue_iff.2 ⟨he, hp, h1⟩
      exact ⟨_, congrArg Host.Outcome.next (if_pos (by simp [hr, hx])), (setPhase_tableOnly _ _).frame,
        phase_setPhase _ _, fun hpl hw => setPhase_expired_wstage hpl hw⟩
    · refine congrArg Host.Outcome.next (if_neg fun h' => ?_)
      simp only [Bool.and_eq_true] at h'
      obtain ⟨he, hph, hs⟩ := expiryDue_iff.1 h'.2
      obtain h | h | h | h := h
      · rw [he] at h; cases h
      · obtain hph | hph := hph <;> cases h.symm.trans hph
      · obtain hph | hph := hph <;> cases h.symm.trans hph
      · exact absurd hs (Nat.not_le.2 h)
    · have hd : watch2Due s = true := watch2Due_iff.2 ⟨he, hp, hw, hpl, h1⟩
      refine ⟨_, congrArg Host.Outcome.next (if_pos (by simp [hr, hd])), (setTab_tableOnly _ _ _).frame, ?_, ?_⟩
      · rw [watchStage2, callTab_setTab]
      · rw [watchStage2, phase_setTab]
        exact hp
    · refine congrArg Host.Outcome.next (if_neg fun h' => ?_)
      simp only [Bool.and_eq_true] at h'
      obtain ⟨he, hph, hw, -, -⟩ := watch2Due_iff.1 h'.2
      obtain h | h | h := h
      · rw [he] at h; cases h
      · exact h hph
      · exact h hw

end Sys2Proof.Machine
end

section
/-! Course faults, publication and the readers of the square (R73, R74, R76, R88, ch. 09). -/

namespace Sys2Proof.Machine

/-! Faults. -/

/-- The course faulted and its sticky bit, before anyone is told. -/
def faultMarked (e : Nat) (cause : BitVec 2) (s : State) : State :=
  setSticky 0x10 8 { s with
    course.faulted := true, course.fltEngine := decide (e ≠ 0), course.fltWi := s.course.wi
    course.fltPos := (engine s e).pos, course.fltCause := cause, course.faultCn := s.course.cn
    course.faultSeen := true, course.faults := satInc s.course.faults }

/-- The fault told to the event queues. -/
def faultTold (e : Nat) (cause : BitVec 2) (s : State) : State :=
  blockEv 0x10 1 ((faultWord (faultMarked e cause s)).toNat + s.course.cn.toNat * 2 ^ 32) (faultMarked e cause s)

theorem faultTold_evq (e : Nat) (cause : BitVec 2) (s : State) :
    ∃ ev fr, faultTold e cause s = { faultMarked e cause s with evq := ev, free := fr } := blockEv_evq _ _ _ _

/-- An order to yield is given to an active unit of a pair that has none. -/
theorem orderYield_frame (c : Nat) (s : State) : ∃ y, orderYield c s = { s with red.yieldNext := y }
    ∧ (claimed s = true → isSolo s = false → s.red.yieldNext = none → y = some (BitVec.ofNat 3 c)) := by
  unfold orderYield
  split
  · exact ⟨_, rfl, fun _ _ _ => rfl⟩
  · next h => exact ⟨_, rfl, fun hc hi hn => absurd (by simp [hc, hi, hn]) h⟩

/-- What a fault leaves: the safety partition counts it, and an active unit of a pair will yield. -/
theorem faultCourse_frame (e : Nat) (cause : BitVec 2) (s : State) : ∃ run cf y,
    faultCourse e cause s
      = { faultTold e cause s with safe.faultRun := run, safe.courseFaults := cf, red.yieldNext := y }
    ∧ (domUp s 1 = true → run = satInc s.safe.faultRun)
    ∧ (claimed s = true → isSolo s = false → s.red.yieldNext = none → y = some 1) := by
  obtain ⟨ev, fr, ht⟩ := faultTold_evq e cause s
  have hd : domUp (faultTold e cause s) 1 = domUp s 1 := by rw [ht]; rfl
  have h : faultCourse e cause s = orderYield 1 (if domUp (faultTold e cause s) 1 then { faultTold e cause s with
      safe.faultRun := satInc (faultTold e cause s).safe.faultRun
      safe.courseFaults := satInc (faultTold e cause s).safe.courseFaults } else faultTold e cause s) := rfl
  rw [h, hd]
  cases h1 : domUp s 1 with
  | true =>
    obtain ⟨y, hy, hc⟩ := orderYield_frame 1 { faultTold e cause s with
      safe.faultRun := satInc (faultTold e cause s).safe.faultRun
      safe.courseFaults := satInc (faultTold e cause s).safe.courseFaults }
    rw [ht] at hc hy ⊢
    exact ⟨_, _, y, hy, fun _ => rfl, hc⟩
  | false =>
    obtain ⟨y, hy, hc⟩ := orderYield_frame 1 (faultTold e cause s)
    rw [ht] at hc hy ⊢
    exact ⟨_, _, y, hy, nofun, hc⟩

/-- A command that faults a running course by engine `e` with `cause`. -/
theorem courseFaults_of {c : Instr} {e : Nat} {cause : BitVec 2} {s : State} (he : e = 0 ∨ e = 1)
    (hc : exec c s = .next (faultCourse e cause s)) : ∃ t, exec c s = .next t
      ∧ t.course.faulted = true ∧ t.course.fltEngine = decide (e = 1) ∧ t.course.fltCause = cause
      ∧ t.course.fltWi = s.course.wi ∧ t.course.fltPos = (engine s e).pos ∧ t.course.faultCn = s.course.cn
      ∧ t.course.faults = satInc s.course.faults ∧ bitAt (hdr t 0x10).sticky 8 = true
      ∧ Raised s t 2 1 0x10 ((faultWord t).toNat + s.course.cn.toNat * 2 ^ 32)
      ∧ (domUp s 1 = true → t.safe.faultRun = satInc s.safe.faultRun)
      ∧ (claimed s = true → isSolo s = false → s.red.yieldNext = none → t.red.yieldNext = some 1)
      ∧ t.course.dioHeld = s.course.dioHeld ∧ t.course.ucHeld = s.course.ucHeld
      ∧ t = { s with course := t.course, hdrs := t.hdrs, evq := t.evq, free := t.free, safe.faultRun := t.safe.faultRun
                     safe.courseFaults := t.safe.courseFaults, red.yieldNext := t.red.yieldNext } := by
  obtain ⟨run, cf, y, hf, hrun, hy⟩ := faultCourse_frame e cause s
  obtain ⟨ev, fr, ht⟩ := faultTold_evq e cause s
  have hr : Raised s (faultTold e cause s) 2 1 0x10
      ((faultWord (faultMarked e cause s)).toNat + s.course.cn.toNat * 2 ^ 32) :=
    blockEv_raised 0x10 1 _ (faultMarked e cause s)
  rw [ht] at hf hr
  refine ⟨_, hc, ?_⟩
  rw [hf]
  refine ⟨rfl, ?_, rfl, rfl, rfl, rfl, rfl, ?_, hr, hrun, hy, rfl, rfl, rfl⟩
  · obtain rfl | rfl := he <;> rfl
  · have hs := hdr_setSticky_same 0x10 8 { s with
      course.faulted := true, course.fltEngine := decide (e ≠ 0), course.fltWi := s.course.wi
      course.fltPos := (engine s e).pos, course.fltCause := cause, course.faultCn := s.course.cn
      course.faultSeen := true, course.faults := satInc s.course.faults }
    refine (congrArg (fun h : PageHdr => bitAt h.sticky 8) hs).trans ?_
    exact bitAt_setBit_same _ (by decide) _

/-- Settles O19: every cause runs the same fault of its engine. -/
theorem courseFaults : Obligations.CourseFaults := by
  unfold Obligations.CourseFaults
  refine ⟨fun c e cause s h hr => ?_, fun f s hr => ?_, fun f k s hr => ⟨?_, ?_⟩⟩
  · obtain ⟨rfl, hn, he, rfl⟩ | ⟨f, rfl, ⟨rfl, rfl⟩ | ⟨rfl, rfl⟩⟩ := h
    · have e01 : e = 0 ∨ e = 1 := by
        rw [he]
        split
        · exact .inl rfl
        · exact .inr rfl
      exact courseFaults_of e01 (congrArg Host.Outcome.next ((if_pos (by simp [hr, hn])).trans (by rw [he]; rfl)))
    · exact courseFaults_of (by omega) (congrArg Host.Outcome.next ((if_pos hr).trans (if_neg (by decide))))
    · exact courseFaults_of (by omega) (congrArg Host.Outcome.next ((if_pos hr).trans (if_neg (by decide))))
  · exact congrArg Host.Outcome.next ((if_pos hr).trans (if_pos rfl))
  · exact congrArg Host.Outcome.next (if_neg (by simp [hr]))
  · exact congrArg Host.Outcome.next (if_neg (by simp [hr]))

/-! Publication. -/

theorem trendEnd_logOnly (s : State) : LogOnly s (trendEnd s) := by
  unfold trendEnd
  extract_lets _ s1
  split
  · split
    · exact ⟨_, rfl⟩
    · exact LogOnly.trans ⟨_, rfl⟩ (ringPut_logOnly _ _ s1)
  · exact ⟨_, rfl⟩

theorem trendGather_logOnly (q : Square) (s : State) : LogOnly s (trendGather q s) := by
  unfold trendGather
  extract_lets sec u ul s1 flags sl t first
  have h1 : LogOnly s s1 := by
    unfold s1
    split
    · exact .refl s
    · exact (trendEnd_logOnly s).trans ⟨_, rfl⟩
  exact h1.trans ⟨_, rfl⟩

/-- The square as it is published. -/
def publishedSquare (q : Square) (s : State) : Square := { q with header := q.header.set 25 s.square.prevCn }

/-- The block of the square once `q` has become the newest in buffer `b`. -/
def publishedBlk (q : Square) (b : Nat) (s : State) : SquareBlk :=
  { s.square with
    bufs := s.square.bufs.set b (publishedSquare q s), newest := some b, writing := none, count := s.square.count + 1
    pulses := pulseAll s.square.pulses, prevCn := q.cn, closed := none }

theorem publish_eq {q : Square} {b : Nat} {s : State} (h : s.square.writing = some b) :
    ∃ l, publish q s = { s with square := publishedBlk q b s, log := l } := by
  have hw : (if s.square.writing.isSome then s else takeBuffer s) = s := if_pos (by simp [h])
  have e : publish q s = trendGather (publishedSquare q s) { s with square := publishedBlk q (s.square.writing.getD 0) s } := by
    unfold publish
    rw [hw]
    rfl
  rw [e, h]
  exact trendGather_logOnly _ _

/-- The buffer that is taken is neither the newest nor held. -/
theorem takeBuffer_free {s : State} {k : Nat} (h : (takeBuffer s).square.writing = some k) :
    s.square.newest ≠ some k ∧ heldBuf s k = false := by
  have hm : k ∈ below 8 (fun b => s.square.newest ≠ some b && !heldBuf s b) := List.mem_of_getElem? h
  have hk := (List.mem_filter.1 hm).2
  simpa using hk

theorem takeBuffer_frame (s : State) : ∃ w, takeBuffer s = { s with square.writing := w, free := s.free + 1 } := ⟨_, rfl⟩

/-- Settles O21. -/
theorem publishMakesNewest : Obligations.PublishMakesNewest := by
  unfold Obligations.PublishMakesNewest
  refine ⟨fun q b s hd hr hc hw => ?_, fun s hd hr => ?_⟩
  · obtain ⟨l, hp⟩ := publish_eq (q := q) hw
    have hs : squarePublish s = if (publish q s).course.run && (publish q s).square.writing.isNone then
        takeBuffer (publish q s) else publish q s := by
      unfold squarePublish
      rw [hc]
      simp only [hr, if_true]
    have hbuf : (publishedBlk q b s).bufs.get {} b = publishedSquare q s := Tab.get_set_same _ _ _ _
    have hb (w : Option Nat) : ({ publishedBlk q b s with writing := w } : SquareBlk).bufs.get {} b = publishedSquare q s := hbuf
    have hframe : ∃ w f, squarePublish s = { s with square := { publishedBlk q b s with writing := w }, log := l, free := f }
        ∧ ∀ k, w = some k → k ≠ b ∧ heldBuf s k = false := by
      rw [hs]
      split
      · obtain ⟨w, ht⟩ := takeBuffer_frame (publish q s)
        refine ⟨w, _, ht.trans (by rw [hp]), fun k hk => ?_⟩
        have hf : (publish q s).square.newest ≠ some k ∧ heldBuf (publish q s) k = false := takeBuffer_free (by rw [ht, hk])
        rw [hp] at hf
        exact ⟨fun e => hf.1 (by rw [e]; rfl), hf.2⟩
      · exact ⟨_, _, hp, nofun⟩
    obtain ⟨w, f, ht, hfree⟩ := hframe
    refine ⟨_, congrArg Host.Outcome.next (if_pos hd), ?_⟩
    rw [ht]
    refine ⟨rfl, ?_, ?_, ?_, ?_, ?_, fun k hk => ?_, fun k hk => Tab.get_set_other _ _ _ hk, rfl, rfl, rfl, rfl,
      hfree, rfl⟩
    · rw [hb w]; rfl
    · rw [hb w]; rfl
    · rw [hb w]; rfl
    · rw [hb w]; rfl
    · rw [hb w]
      exact Tab.get_set_same _ _ _ _
    · rw [hb w]
      exact Tab.get_set_other _ _ _ hk
  · have hframe : ∃ w f, squarePublish s = { s with square := { s.square with closed := none, writing := w }, free := f } := by
      unfold squarePublish
      extract_lets _ s1
      have h1 : s1 = { s with square.closed := none } := by
        unfold s1
        split
        · exact if_neg hr
        · next hn => rw [← hn]
      rw [h1]
      split <;> exact ⟨_, _, rfl⟩
    obtain ⟨w, f, ht⟩ := hframe
    refine ⟨_, congrArg Host.Outcome.next (if_pos hd), ?_⟩
    rw [ht]
    exact ⟨rfl, rfl, rfl, rfl, rfl, rfl, rfl⟩

/-! Readers. -/

theorem windowRead_pinned {s : State} {req : Requester} {b : Option Nat} (hd : domUp s 3 = true)
    (h : (readerGet s req.reader).pin = some b) (o : Nat) : windowRead req o s = (s, squareWord (bufSquare s b) o) := by
  unfold windowRead
  rw [if_pos hd, h]

theorem windowRead_latches {s : State} {req : Requester} (hd : domUp s 3 = true)
    (h : (readerGet s req.reader).pin = none) {o : Nat} (ho : o < 0x2000) (h16 : o % 16 = 0) : windowRead req o s
      = (updReader req.reader (fun r => { r with latch := some (s.square.newest, o / 16) }) s,
          squareWord (bufSquare s s.square.newest) o) := by
  unfold windowRead
  rw [if_pos hd, h]
  exact if_pos (by simp [ho, h16])

theorem windowRead_latched {s : State} {req : Requester} {b : Option Nat} (hd : domUp s 3 = true)
    (h : (readerGet s req.reader).pin = none) {o : Nat} (h16 : o % 16 ≠ 0)
    (hl : (readerGet s req.reader).latch = some (b, o / 16)) : windowRead req o s = (s, squareWord (bufSquare s b) o) := by
  unfold windowRead
  rw [if_pos hd, h, hl]
  exact (if_neg (by simp [h16])).trans (if_pos rfl)

theorem windowRead_newest {s : State} {req : Requester} (hd : domUp s 3 = true)
    (h : (readerGet s req.reader).pin = none) {o : Nat} (h16 : o % 16 ≠ 0)
    (hl : ∀ b, (readerGet s req.reader).latch ≠ some (b, o / 16)) :
    windowRead req o s = (s, squareWord (bufSquare s s.square.newest) o) := by
  unfold windowRead
  rw [if_pos hd, h]
  refine (if_neg (by simp [h16])).trans ?_
  split
  · next b k hk =>
    refine if_neg fun e => hl b ?_
    rw [hk, e]
  · rfl

/-- A window read latches at most its reader's record. -/
theorem windowRead_state {s : State} (req : Requester) (o : Nat) (hd : domUp s 3 = true) :
    (windowRead req o s).1 = s ∨ ∃ l, (windowRead req o s).1 = updReader req.reader (fun r => { r with latch := l }) s := by
  unfold windowRead
  rw [if_pos hd]
  split
  · exact .inl rfl
  · split
    · exact .inr ⟨_, rfl⟩
    · split
      · split <;> exact .inl rfl
      · exact .inl rfl

/-- A 32-bit read at an aligned offset. -/
theorem windowReadN_word {a : Nat} (h : a % 4 = 0) (req : Requester) (s : State) : windowReadN req a 4 s = windowRead req a s := by
  have e : a / 4 * 4 = a := by omega
  unfold windowReadN readN
  rw [if_neg (by simp [h]), e]
  rfl

theorem exec_squareWindowRead {a : BitVec 24} (h : a.toNat % 4 = 0) (req : Requester) (s : State) :
    exec (.squareWindowRead req a 2) s
      = .next { (windowRead req a.toNat s).1 with resp := { words := [(windowRead req a.toNat s).2] } } := by
  have e : windowReadN req a.toNat (2 ^ 2) s = windowRead req a.toNat s := windowReadN_word h req s
  refine congrArg Host.Outcome.next ?_
  show setResp [(windowReadN req a.toNat (2 ^ 2) s).2] (windowReadN req a.toNat (2 ^ 2) s).1 = _
  rw [e]
  rfl

/-- Settles O22. -/
theorem squareReaders : Obligations.SquareReaders := by
  unfold Obligations.SquareReaders
  refine ⟨fun req v s ht => ?_, fun req a s hd ha => ?_, fun req a s hd ha => ?_, fun req a size s hs => ?_,
    fun req a v s hd => ?_⟩
  · refine answers_write ht rfl ?_
    have e : s.square.readers.upd {} req.reader (fun _ =>
        { pin := if bitAt v 0 then some s.square.newest else none, latch := none })
        = s.square.readers.set req.reader { pin := if bitAt v 0 then some s.square.newest else none, latch := none } := rfl
    rw [updReader, e]
  · intro r
    refine ⟨_, exec_squareWindowRead ha req s, fun b hb => ?_, fun hp h16 ho => ?_, fun b hp h16 hl => ?_,
      fun hp h16 hl => ?_, fun q hq => ?_, ?_⟩
    · rw [windowRead_pinned hd hb]
      exact ⟨rfl, rfl⟩
    · rw [windowRead_latches hd hp ho h16]
      exact ⟨rfl, updReader_same _ _ _⟩
    · rw [windowRead_latched hd hp h16 hl]
      exact ⟨rfl, rfl⟩
    · rw [windowRead_newest hd hp h16 hl]
      exact ⟨rfl, rfl⟩
    · obtain h | ⟨l, h⟩ := windowRead_state req a.toNat hd <;> rw [h]
      · rfl
      · exact updReader_other _ _ _ hq
    · obtain h | ⟨l, h⟩ := windowRead_state req a.toNat hd <;> rw [h]
      rfl
  · have e : windowReadN req a.toNat (2 ^ 2) s = (s, 0) := if_pos ⟨rfl, ha⟩
    refine congrArg Host.Outcome.next ?_
    show setResp [(windowReadN req a.toNat (2 ^ 2) s).2] (windowReadN req a.toNat (2 ^ 2) s).1 = _
    rw [e]
    rfl
  · have ha : a.toNat < 2 ^ 24 := a.isLt
    have hal : (BitVec.ofNat 24 (a.toNat / 4 * 4)).toNat = a.toNat / 4 * 4 := by
      rw [BitVec.toNat_ofNat, Nat.mod_eq_of_lt (by omega)]
    have h4 : 2 ^ size.val ≠ 4 := by
      obtain h | h : size.val = 0 ∨ size.val = 1 := by omega
      all_goals rw [h]; decide
    have e : windowReadN req a.toNat (2 ^ size.val) s = ((windowRead req (a.toNat / 4 * 4) s).1,
        narrow (windowRead req (a.toNat / 4 * 4) s).2 a.toNat (2 ^ size.val)) := by
      unfold windowReadN readN
      simp only [h4, false_and, if_false]
    refine ⟨(windowRead req (a.toNat / 4 * 4) s).2, _, exec_squareWindowRead (by rw [hal]; omega) req s, ?_, ?_⟩
    · rw [hal]
    · refine congrArg Host.Outcome.next ?_
      show setResp [(windowReadN req a.toNat (2 ^ size.val) s).2] (windowReadN req a.toNat (2 ^ size.val) s).1 = _
      rw [e, hal]
      rfl
  · refine ⟨_, congrArg Host.Outcome.next (if_pos hd), hdr_setSticky_same 0x12 8 s,
      fun q hq => hdr_setSticky_other 0x12 8 s hq, rfl⟩

end Sys2Proof.Machine
end

section
/-! Samples, trip lanes and the trip matrix (R78 to R82, R95, R98, R358, R359). -/

namespace Sys2Proof.Machine

/-! Driving an output after a trip changes no input channel, no lane and no claim. -/

/-- Only outputs, the inrush budget and the free stream differ. -/
structure OutputsOnly (s t : State) : Prop where
  frame : ∃ u o l f, t = { s with ucs := u, dig.outs := o, dig.inrushLimit := l, free := f }
  inp : ∀ n, (ucGet t n).inp = (ucGet s n).inp

theorem OutputsOnly.refl (s : State) : OutputsOnly s s := ⟨⟨_, _, _, _, rfl⟩, fun _ => rfl⟩

theorem OutputsOnly.trans {s t u : State} (h : OutputsOnly s t) (k : OutputsOnly t u) : OutputsOnly s u := by
  refine ⟨?_, fun n => (k.inp n).trans (h.inp n)⟩
  obtain ⟨_, _, _, _, rfl⟩ := h.frame
  obtain ⟨_, _, _, _, rfl⟩ := k.frame
  exact ⟨_, _, _, _, rfl⟩

theorem OutputsOnly.foldl {α : Type} {g : State → α → State} (h : ∀ s x, OutputsOnly s (g s x)) (l : List α) (s : State) :
    OutputsOnly s (l.foldl g s) := by
  induction l generalizing s with
  | nil => exact .refl s
  | cons x l ih => exact (h s x).trans (ih _)

/-- A change of one channel's output part. -/
theorem OutputsOnly.updOut (n : Nat) (f : UcChan → UcOut) (s : State) :
    OutputsOnly s (updUc n (fun u => { u with out := f u }) s) := by
  refine ⟨⟨_, _, _, _, rfl⟩, fun k => ?_⟩
  by_cases h : k = n
  · rw [h, updUc_same]
  · rw [updUc_other _ _ _ h]

theorem ucResolve_outputsOnly (n : Nat) (s : State) : OutputsOnly s (ucResolve n s) := by
  unfold ucResolve
  extract_lets u src waits
  split
  · split
    · exact .updOut _ _ _
    · split
      · exact .updOut _ _ _
      · exact .updOut _ _ _
  · exact .refl s

theorem dioResolve_outputsOnly (n : Nat) (s : State) : OutputsOnly s (dioResolve n s) := ⟨⟨_, _, _, _, rfl⟩, fun _ => rfl⟩

theorem inrushBudget_outputsOnly (s : State) : OutputsOnly s (inrushBudget s) := ⟨⟨_, _, _, _, rfl⟩, fun _ => rfl⟩

theorem tripDrive_outputsOnly (o : Nat) (s : State) : OutputsOnly s (tripDrive o s) := by
  unfold tripDrive
  split
  · exact (dioResolve_outputsOnly o s).trans (inrushBudget_outputsOnly _)
  · exact ucResolve_outputsOnly _ s

/-- The outputs that the matrix trips, noted before they are driven. -/
def tripNoted (s : State) : State :=
  { s with
    safe.outTrip := tripMask s
    safe.outHold := (s.safe.outHold ||| (s.safe.outTrip &&& ~~~(tripMask s))) &&& ~~~(tripMask s) }

theorem tripUpdate_outputsOnly (s : State) : OutputsOnly (tripNoted s) (tripUpdate s) :=
  .foldl (fun s o => tripDrive_outputsOnly o s) _ _

/-- What a trip evaluation leaves of the state but for outputs. -/
theorem tripUpdate_frame (s : State) : ∃ u o l f h, tripUpdate s
    = { s with ucs := u, dig.outs := o, dig.inrushLimit := l, free := f, safe.outTrip := tripMask s, safe.outHold := h } := by
  obtain ⟨u, o, l, f, h⟩ := (tripUpdate_outputsOnly s).frame
  exact ⟨u, o, l, f, _, h⟩

theorem laneGet_tripUpdate (s : State) (n : Nat) : laneGet (tripUpdate s) n = laneGet s n := by
  obtain ⟨_, _, _, _, _, h⟩ := tripUpdate_frame s
  rw [h]
  rfl

theorem inp_tripUpdate (s : State) (n : Nat) : (ucGet (tripUpdate s) n).inp = (ucGet s n).inp :=
  (tripUpdate_outputsOnly s).inp n

/-! The trip mask has a bit per tripped output. -/

theorem foldl_bits_lt (f : Nat → Bool) (n : Nat) :
    (List.range n).foldl (fun a o => if f o then a + 2 ^ o else a) 0 < 2 ^ n := by
  induction n with
  | zero => exact Nat.zero_lt_one
  | succ n ih =>
    rw [List.range_succ, List.foldl_append, Nat.pow_succ]
    simp only [List.foldl_cons, List.foldl_nil]
    split <;> omega

theorem testBit_foldl_bits (f : Nat → Bool) {o n : Nat} (h : o < n) :
    ((List.range n).foldl (fun a o => if f o then a + 2 ^ o else a) 0).testBit o = f o := by
  induction n with
  | zero => omega
  | succ n ih =>
    have hlt := foldl_bits_lt f n
    rw [List.range_succ, List.foldl_append]
    simp only [List.foldl_cons, List.foldl_nil]
    by_cases ho : o = n
    · subst ho
      have h0 := Nat.testBit_lt_two_pow hlt
      split
      · next hf => rw [Nat.add_comm, Nat.testBit_two_pow_add_eq, h0, hf]; rfl
      · next hf => rw [h0]; simpa using hf
    · have hlt' : o < n := by omega
      split
      · rw [Nat.add_comm, Nat.testBit_two_pow_add_gt hlt', ih hlt']
      · exact ih hlt'

theorem bitAt_tripMask (s : State) {o : Nat} (h : o < 64) : bitAt (tripMask s) o = outTripped s o := by
  rw [tripMask, bitAt, BitVec.getLsbD_ofNat, testBit_foldl_bits _ h]
  simp [h]

/-- FORCED trips every safety output of the plan (R358). -/
theorem outTripped_forced {s : State} {o : Nat} (hf : s.safe.forced = true) (h : (safeOut s o).isSome = true) :
    outTripped s o = true := by
  obtain ⟨e, he⟩ := Option.isSome_iff_exists.1 h
  simp [outTripped, he, hf]

/-! Samples of the trip channel. -/

theorem below_nodup (n : Nat) (p : Nat → Bool) : (below n p).Nodup := List.nodup_range.filter _

/-- One update of every lane in a list without repetition. -/
theorem laneGet_foldl_upd (g : State → Nat → Lane → Lane) (hg : ∀ s l n, g { s with safe.lanes := l } n = g s n)
    (l : List Nat) (hl : l.Nodup) (s : State) :
    (∃ x, l.foldl (fun s n => { s with safe.lanes := s.safe.lanes.upd {} n (g s n) }) s = { s with safe.lanes := x })
    ∧ ∀ n, laneGet (l.foldl (fun s n => { s with safe.lanes := s.safe.lanes.upd {} n (g s n) }) s) n
      = if n ∈ l then g s n (laneGet s n) else laneGet s n := by
  induction l generalizing s with
  | nil => exact ⟨⟨_, rfl⟩, fun n => rfl⟩
  | cons m l ih =>
    obtain ⟨hm, hl⟩ := List.nodup_cons.1 hl
    obtain ⟨⟨x, hx⟩, hv⟩ := ih hl { s with safe.lanes := s.safe.lanes.upd {} m (g s m) }
    refine ⟨⟨x, hx⟩, fun n => ?_⟩
    rw [List.foldl_cons, hv n, hg]
    by_cases hn : n = m
    · subst hn
      rw [if_neg hm, if_pos (.head l)]
      exact Tab.get_upd_same _ _ _ _
    · have e : laneGet { s with safe.lanes := s.safe.lanes.upd {} m (g s m) } n = laneGet s n := Tab.get_upd_other _ _ _ hn
      rw [e]
      by_cases hnl : n ∈ l
      · rw [if_pos hnl, if_pos (.tail m hnl)]
      · rw [if_neg hnl, if_neg]
        rintro (_ | ⟨_, h⟩)
        · exact hn rfl
        · exact hnl h

/-- A lane's handling of one sample. -/
def laneTakes (c : Nat) (raw : Int) (tag : Nat) (invalid : Bool) (s : State) (n : Nat) : Lane → Lane :=
  laneSample (entBody (planEntry s 0x20 n)) (32 ≤ c) raw tag invalid

/-- Only lanes, the matrix and outputs differ. -/
structure TripOnly (s t : State) : Prop where
  frame : ∃ u o l f x h k, t = { s with
    ucs := u, dig.outs := o, dig.inrushLimit := l, free := f, safe.lanes := x, safe.outTrip := h, safe.outHold := k }
  inp : ∀ n, (ucGet t n).inp = (ucGet s n).inp

theorem TripOnly.refl (s : State) : TripOnly s s := ⟨⟨_, _, _, _, _, _, _, rfl⟩, fun _ => rfl⟩

/-- The lanes of a channel once they have taken its sample. -/
def lanesTaken (c : Nat) (raw : Int) (tag : Nat) (invalid : Bool) (s : State) : State :=
  (lanesOf s c).foldl (fun s n =>
    { s with safe.lanes := s.safe.lanes.upd {} n (laneTakes c raw tag invalid s n) }) s

theorem lanesTaken_lanes (c : Nat) (raw : Int) (tag : Nat) (invalid : Bool) (s : State) :
    (∃ x, lanesTaken c raw tag invalid s = { s with safe.lanes := x })
    ∧ ∀ n, laneGet (lanesTaken c raw tag invalid s) n
      = if n ∈ lanesOf s c then laneTakes c raw tag invalid s n (laneGet s n) else laneGet s n :=
  laneGet_foldl_upd (laneTakes c raw tag invalid) (fun _ _ _ => rfl) (lanesOf s c) (below_nodup _ _) s

theorem tripChannel_bound {s : State} {c : Nat} (hd : domUp s 1 = true) (he : lanesOf s c ≠ []) (raw : Word) (tag : Nat)
    (invalid : Bool) : tripChannel c raw tag invalid s = tripUpdate (lanesTaken c raw.toInt tag invalid s) :=
  (if_pos hd).trans (if_neg (by simpa using he))

/-- Without an island, or without lanes bound to it, a sample reaches no lane. -/
theorem tripChannel_unbound {s : State} {c : Nat} (h : ¬ (domUp s 1 = true ∧ lanesOf s c ≠ [])) (raw : Word) (tag : Nat)
    (invalid : Bool) : tripChannel c raw tag invalid s = s := by
  unfold tripChannel
  split
  · next hd =>
    refine if_pos ?_
    have he : ¬ lanesOf s c ≠ [] := fun he => h ⟨hd, he⟩
    simpa using he
  · rfl

theorem tripChannel_tripOnly (c : Nat) (raw : Word) (tag : Nat) (invalid : Bool) (s : State) :
    TripOnly s (tripChannel c raw tag invalid s) := by
  by_cases hb : domUp s 1 = true ∧ lanesOf s c ≠ []
  · rw [tripChannel_bound hb.1 hb.2]
    obtain ⟨⟨x, hx⟩, -⟩ := lanesTaken_lanes c raw.toInt tag invalid s
    obtain ⟨u, o, l, f, h, e⟩ := tripUpdate_frame (lanesTaken c raw.toInt tag invalid s)
    refine ⟨⟨u, o, l, f, x, tripMask (lanesTaken c raw.toInt tag invalid s), h, e.trans ?_⟩, fun n => ?_⟩
    · generalize tripMask _ = k
      rw [hx]
    · rw [inp_tripUpdate, hx]
      rfl
  · rw [tripChannel_unbound hb]
    exact .refl s

/-- A sample is taken by exactly the lanes bound to its channel. -/
theorem laneGet_tripChannel {s : State} {c n : Nat} (hd : domUp s 1 = true) (hn : n ∈ lanesOf s c) (raw : Word) (tag : Nat)
    (invalid : Bool) :
    laneGet (tripChannel c raw tag invalid s) n = laneTakes c raw.toInt tag invalid s n (laneGet s n) := by
  rw [tripChannel_bound hd (List.ne_nil_of_mem hn), laneGet_tripUpdate, (lanesTaken_lanes c raw.toInt tag invalid s).2,
    if_pos hn]

theorem mem_lanesOf {s : State} {c n : Nat} {e : Entry} (hn : n < 64) (he : planEntry s 0x20 n = some e)
    (ht : bAt e.body 0 = anaTy c) (hc : bAt e.body 1 = anaTarget c) : n ∈ lanesOf s c := by
  refine List.mem_filter.2 ⟨List.mem_range.2 hn, ?_⟩
  simp [he, ht, hc]

/-! Status and tag of a sample. -/

theorem firstReason_mem (l : List (Bool × Nat)) : firstReason l = 0 ∨ firstReason l ∈ l.map Prod.snd := by
  induction l with
  | nil => exact .inl rfl
  | cons x l ih =>
    obtain ⟨c, r⟩ := x
    cases c
    · exact ih.imp id (.tail r)
    · exact .inr (.head _)

theorem mkStatus_toNat {reason low : Nat} (hr : reason < 16) (hl : low < 1024) :
    (mkStatus reason low).toNat = low + reason * 1024 + b2n (reason ≠ 0) * 16384 + 32768 := by
  have hb : b2n (reason ≠ 0) ≤ 1 := by unfold b2n; split <;> omega
  have e : mkStatus reason low = BitVec.ofNat 16 (low + reason * 1024 + b2n (reason ≠ 0) * 16384 + 32768) := by
    simp only [mkStatus, pack, List.foldl_cons, List.foldl_nil]
    congr 1
    omega
  rw [e, BitVec.toNat_ofNat, Nat.mod_eq_of_lt (by omega)]

/-- A sample's status is VALID and holds its reason. -/
theorem mkStatus_reason {reason low : Nat} (hr : reason < 16) (hl : low < 1024) :
    bitAt (mkStatus reason low) 15 = true ∧ fld (mkStatus reason low) 10 4 = reason := by
  have h := mkStatus_toNat hr hl
  have hb : b2n (reason ≠ 0) ≤ 1 := by unfold b2n; split <;> omega
  constructor
  · have h2 : (mkStatus reason low).toNat.testBit 15 = decide ((mkStatus reason low).toNat / 2 ^ 15 % 2 = 1) :=
      Nat.testBit_eq_decide_div_mod_eq
    rw [bitAt, BitVec.getLsbD, h2, h]
    simp only [decide_eq_true_eq]
    omega
  · rw [fld, h]
    omega

theorem fld_tagByte_zero (sp : Option Nat) : fld (tagByte 0 sp) 0 2 = 0 := by
  simp only [fld, tagByte, pack, List.foldl_cons, List.foldl_nil, BitVec.toNat_ofNat]
  have e : (0 : BitVec 2).toNat = 0 := rfl
  rw [e]
  omega

/-! The latch. -/

theorem latchSample_up {s : State} (h : domUp s 3 = true) (c : Nat) (x : Sample) :
    latchSample c x s = { s with course.latch := s.course.latch.set c x } := if_pos h

/-- A capture stores a sample in the log alone. -/
theorem capSample_logOnly (c : Nat) (t : Stamp) (w : Word) (s : State) : LogOnly s (capSample c t w s) := by
  unfold capSample
  split
  · exact ⟨_, rfl⟩
  · exact .refl s

theorem gatherFast_keeps (old : Option Sample) (v : Dword) (x : Sample) :
    ∃ a b c d, gatherFast old v x = { x with minimum := a, maximum := b, sumSq := c, count := d } := by
  unfold gatherFast
  split
  · split <;> exact ⟨_, _, _, _, rfl⟩
  · exact ⟨_, _, _, _, rfl⟩

/-- A sample well within the high path leaves the channel there. -/
theorem rangeSample_high {ret : Nat} {m : Conversion} (ho : m.ovlHigh = false)
    (hc : (counts m.high).toInt.natAbs < 7864320) : rangeSample false ret m = ⟨false, 0, false, 0⟩ := by
  simp [rangeSample, ho, Nat.not_le.2 hc]

/-- The reasons a sample of a universal input channel can have in its high path (R123). -/
def highReasons (s : State) (n : Nat) : List (Bool × Nat) := [
  ((ucGet s n).inp.excFault || (ucGet s n).inp.excMark ≠ 0, 3), ((ucGet s n).inp.short || (ucGet s n).inp.shortMark ≠ 0, 4),
  ((ucGet s n).inp.openF, 5), (ucModeF (ucGet s n) = 4 && (tileGet s (n / 8)).cjFault, 6), (decide ((0 : BitVec 2) = 3), 7),
  ((ucGet s n).inp.settle ≠ 0 || iepeSettling s (ucGet s n).inp, 8)]

/-- The low status bits of such a sample. -/
def highLow (s : State) (n : Nat) : Nat := if ucModeF (ucGet s n) = 4 && (tileGet s (n / 8)).cjDegraded then 32 else 0

theorem highStatus (s : State) (n : Nat) :
    bitAt (mkStatus (firstReason (highReasons s n)) (highLow s n)) 15 = true
    ∧ fld (mkStatus (firstReason (highReasons s n)) (highLow s n)) 10 4 = firstReason (highReasons s n) := by
  have hr : firstReason (highReasons s n) < 16 := by
    obtain h | h := firstReason_mem (highReasons s n)
    · omega
    · generalize firstReason (highReasons s n) = r at h ⊢
      simp only [highReasons, List.map_cons, List.map_nil, List.mem_cons, List.not_mem_nil, or_false] at h
      omega
  have hl : highLow s n < 1024 := by unfold highLow; split <;> omega
  exact mkStatus_reason hr hl

/-- What the latch takes of a sample in the high path. -/
def highSample (s : State) (n : Nat) (m : Conversion) : Sample :=
  { word := m.high, raw := counts m.high, tag := tagByte 0 (spareFor (tileGet s (n / 8)) (n % 8) false)
    status := mkStatus (firstReason (highReasons s n)) (highLow s n), stamp := stampNow s m.sub, fresh := true
    lead := if ucModeF (ucGet s n) ≠ 3 then 0 else if fld (ucGet s n).inForce.cfg 22 2 = 0 then
        fld (ucGet s n).inForce.lead 0 20
      else if fld (ucGet s n).inForce.cfg 22 2 = 1 then m.lead else 0 }

/-- The channel after such a sample. -/
def highTaken (n : Nat) (s : State) : State :=
  updUc n (fun u => { u with
    inp := { u.inp with
      low := false, ret := 0, tag := 0, spare := (spareFor (tileGet s (n / 8)) (n % 8) false).isSome
      excMark := u.inp.excMark - 1, shortMark := u.inp.shortMark - 1, settle := u.inp.settle - 1 } }) s

/-- R98: a sample well within the high path. -/
theorem sampleIn_high {s : State} {n : Nat} {m : Conversion} (hl : (ucGet s n).inp.low = false) (ho : m.ovlHigh = false)
    (hc : (counts m.high).toInt.natAbs < 7864320) :
    ∃ a b c d, sampleIn n m s = latchSample n { highSample s n m with minimum := a, maximum := b, sumSq := c, count := d }
      (tripChannel n (counts m.high) 0 (firstReason (highReasons s n) ≠ 0 || inMaint s n) (highTaken n s)) := by
  have hr : rangeSample (ucGet s n).inp.low (ucGet s n).inp.ret { m with ovlLow := m.ovlLow && ucModeF (ucGet s n) ≠ 2 }
      = ⟨false, 0, false, 0⟩ := by
    rw [hl]
    exact rangeSample_high ho hc
  obtain ⟨a, b, c, d, hg⟩ := gatherFast_keeps (s.course.latch.get? n) (xOf m.high (ucFullScale (ucGet s n) false))
    (highSample s n m)
  refine ⟨a, b, c, d, ?_⟩
  rw [← hg]
  unfold sampleIn
  extract_lets u i t r
  have hr' : r = ⟨false, 0, false, 0⟩ := hr
  clear_value r
  subst hr'
  rfl

theorem highTaken_low (n : Nat) (s : State) : (ucGet (highTaken n s) n).inp.low = false := by
  rw [highTaken, updUc_same]

/-- Only the latch of channel `c` differs, lanes, outputs, tiles and the log apart. -/
theorem sampleReady_high {c : Nat} {m : Conversion} {s : State} (h32 : c < 32) (hd : domUp s 3 = true)
    (ht : tileUp s (c / 8) = true) (hs : ucSamples s c = true) (hl : (ucGet s c).inp.low = false) (ho : m.ovlHigh = false)
    (hc : (counts m.high).toInt.natAbs < 7864320) :
    ∃ a b e d l, sampleReady c m s = { latchSample c
      { highSample (updTile (c / 8) (fun t => { t with temp := m.temp }) s) c m with
        minimum := a, maximum := b, sumSq := e, count := d }
      (tripChannel c (counts m.high) 0
        (firstReason (highReasons (updTile (c / 8) (fun t => { t with temp := m.temp }) s) c) ≠ 0 || inMaint s c)
        (highTaken c (updTile (c / 8) (fun t => { t with temp := m.temp }) s))) with log := l } := by
  obtain ⟨a, b, e, d, hin⟩ := sampleIn_high (s := updTile (c / 8) (fun t => { t with temp := m.temp }) s) (n := c) hl ho hc
  have hu : sampleUc c m s = sampleIn c m (updTile (c / 8) (fun t => { t with temp := m.temp }) s) :=
    (if_pos ht).trans (if_pos hs)
  have hrun : sampleReady c m s = capSample c ((sampleUc c m s).course.latch.get {} c).stamp
      (capWord (inMaint s c) ((sampleUc c m s).course.latch.get {} c)) (sampleUc c m s) :=
    (if_pos h32).trans (if_pos (by simp [anaTile, ht, hs, hd]))
  obtain ⟨l, hcap⟩ := capSample_logOnly c ((sampleUc c m s).course.latch.get {} c).stamp
    (capWord (inMaint s c) ((sampleUc c m s).course.latch.get {} c)) (sampleUc c m s)
  refine ⟨a, b, e, d, l, ?_⟩
  rw [hrun, hcap, hu, hin]
  rfl

/-! Loop inputs. -/

theorem liBand_fault_low {l : LiChan} {w : Word} (hj : liUnjudged l = false) (h : w.toInt * 250 < 36 * 2147483648) :
    liBand l w = 3 := by
  simp only [liBand, hj, h, if_true, Bool.false_eq_true, if_false]

theorem liBand_fault_high {l : LiChan} {w : Word} (hj : liUnjudged l = false) (h : 210 * 2147483648 < w.toInt * 250) :
    liBand l w = 4 := by
  have h36 : ¬ w.toInt * 250 < 36 * 2147483648 := by omega
  simp only [liBand, hj, h, h36, if_true, Bool.false_eq_true, if_false]

theorem liBand_measurement {l : LiChan} {w : Word} (hj : liUnjudged l = false) (h1 : 38 * 2147483648 ≤ w.toInt * 250)
    (h2 : w.toInt * 250 ≤ 205 * 2147483648) : liBand l w = 0 := by
  have h36 : ¬ w.toInt * 250 < 36 * 2147483648 := by omega
  have h210 : ¬ 210 * 2147483648 < w.toInt * 250 := by omega
  have h38 : ¬ w.toInt * 250 < 38 * 2147483648 := by omega
  have h205 : ¬ 205 * 2147483648 < w.toInt * 250 := by omega
  simp only [liBand, hj, h36, h210, h38, h205, Bool.false_eq_true, if_false]

theorem chanEvent_evq (c code detail : Nat) (s : State) : ∃ e f, chanEvent c code detail s = { s with evq := e, free := f } :=
  blockEv_evq _ _ _ s

/-- Only the event queue's intake differs. -/
def EventsOnly (s t : State) : Prop := ∃ e f, t = { s with evq := e, free := f }

theorem EventsOnly.refl (s : State) : EventsOnly s s := ⟨_, _, rfl⟩

theorem EventsOnly.trans {s t u : State} (h : EventsOnly s t) (k : EventsOnly t u) : EventsOnly s u := by
  obtain ⟨_, _, rfl⟩ := h
  obtain ⟨_, _, rfl⟩ := k
  exact ⟨_, _, rfl⟩

theorem EventsOnly.ite {c : Prop} [Decidable c] {s t u : State} (ht : EventsOnly s t) (hu : EventsOnly s u) :
    EventsOnly s (if c then t else u) := by
  split
  · exact ht
  · exact hu

theorem liEvent_eventsOnly (n code detail : Nat) (s : State) : EventsOnly s (liEvent n code detail s) :=
  chanEvent_evq _ _ _ s

/-- R159 to R165: what a sample of a loop input without overload leaves in the latch and in its channel. -/
theorem sampleLi_result {n : Nat} {m : Conversion} {s : State} (hd : domUp s 3 = true) (ht : tileUp s (4 + n / 8) = true)
    (hs : liSamples s n = true) (ho : m.ovlHigh = false) : ∃ (x : Sample) (l : LiChan),
      (sampleLi n m s).course.latch = s.course.latch.set (32 + n) x
      ∧ (∀ k, liGet (sampleLi n m s) k = liGet (updLi n (fun _ => l) s) k)
      ∧ x.word = m.high ∧ x.raw = counts m.high
      ∧ l.band = BitVec.ofNat 4 (liBand (liGet s n) m.high)
      ∧ (liBand (liGet s n) m.high = 3 → bitAt l.sticky 0 = true) := by
  have hc : (tileUp s (4 + n / 8) && liSamples s n) = true := by simp [ht, hs]
  unfold sampleLi
  rw [if_pos hc]
  extract_lets l word raw tag band fault sp l1 reason low x was st s1 micro cur per s2 s3
  have h2 : EventsOnly s1 s2 := .ite (liEvent_eventsOnly _ _ _ _) (.ite (liEvent_eventsOnly _ _ _ _) (.refl s1))
  have h3 : EventsOnly s2 s3 := .ite (liEvent_eventsOnly _ _ _ _) (.ite (liEvent_eventsOnly _ _ _ _) (.refl s2))
  obtain ⟨e, f, h13⟩ := h2.trans h3
  have hraw : raw = counts m.high := if_neg (by simp [ho])
  clear_value s3
  subst h13
  generalize hu : updTile (4 + n / 8) (fun t => { t with temp := m.temp }) { s1 with evq := e, free := f } = u
  have hup : domUp u 3 = true := by rw [← hu]; exact hd
  have hlatch : u.course.latch = s.course.latch := by rw [← hu]; rfl
  have hlis (k : Nat) : liGet u k = liGet s1 k := by rw [← hu]; rfl
  obtain ⟨a, b, c, d, y, z, w, hf⟩ :=
    (tripChannel_tripOnly (32 + n) raw tag.toNat (reason ≠ 0 || inMaint s (32 + n)) u).frame
  generalize tripChannel (32 + n) raw tag.toNat (reason ≠ 0 || inMaint s (32 + n)) u = v at hf
  have hvup : domUp v 3 = true := by rw [hf]; exact hup
  have hvl : v.course.latch = s.course.latch := by rw [hf]; exact hlatch
  have hvi (k : Nat) : liGet v k = liGet s1 k := by rw [hf]; exact hlis k
  rw [latchSample_up hvup]
  refine ⟨x, _, ?_, fun k => hvi k, rfl, hraw, rfl, fun h => ?_⟩
  · exact congrArg (fun t => t.set (32 + n) x) hvl
  · have hfault : fault = true := by simp [fault, band, word, l, h]
    refine (bitAt_setBit_same _ (by decide) _).trans ?_
    rw [hfault]
    rfl

/-- Settles O23. -/
theorem samplesReachLatch : Obligations.SamplesReachLatch := by
  unfold Obligations.SamplesReachLatch
  refine ⟨fun c m s h32 hd ht hs hl ho hc => ?_, fun c m s h32 hd ht hs ho => ?_⟩
  · obtain ⟨a, b, e, d, l, hrun⟩ := sampleReady_high h32 hd ht hs hl ho hc
    generalize hv : updTile (c.val / 8) (fun t => { t with temp := m.temp }) s = v at hrun
    have hlane0 (n : Nat) : laneGet (highTaken c.val v) n = laneGet s n := by rw [← hv]; rfl
    have hup : domUp (highTaken c.val v) 3 = true := by rw [← hv]; exact hd
    have hlatch : (highTaken c.val v).course.latch = s.course.latch := by rw [← hv]; rfl
    have hstamp : stampNow v m.sub = ⟨s.course.cn.setWidth 16, m.sub⟩ := by rw [← hv]; rfl
    have hplan (n : Nat) : planEntry (highTaken c.val v) 0x20 n = planEntry s 0x20 n := by rw [← hv]; rfl
    have hd1 : domUp (highTaken c.val v) 1 = domUp s 1 := by rw [← hv]; rfl
    obtain ⟨hvalid, hreason⟩ := highStatus v c.val
    obtain ⟨⟨u, o, q, f, x, h, k, hf⟩, hinp⟩ := tripChannel_tripOnly c.val (counts m.high) 0
      (firstReason (highReasons v c.val) ≠ 0 || inMaint s c.val) (highTaken c.val v)
    have hlane (n : Nat) (e : Entry) (hn : n < 64) (hd : domUp s 1 = true) (he : planEntry s 0x20 n = some e)
        (h0 : bAt e.body 0 = 1) (h1 : bAt e.body 1 = c.val) :
        laneGet (tripChannel c.val (counts m.high) 0 (firstReason (highReasons v c.val) ≠ 0 || inMaint s c.val)
          (highTaken c.val v)) n = laneSample e.body false (counts m.high).toInt 0
            (decide (firstReason (highReasons v c.val) ≠ 0) || inMaint s c.val) (laneGet s n) := by
      have hm : n ∈ lanesOf (highTaken c.val v) c.val := mem_lanesOf hn ((hplan n).trans he)
        (h0.trans (if_pos h32).symm) (h1.trans (if_pos h32).symm)
      rw [laneGet_tripChannel (hd1.trans hd) hm, laneTakes, hplan, he, hlane0]
      have h32' : decide (32 ≤ c.val) = false := by simpa using h32
      rw [h32']
      rfl
    generalize htr : tripChannel c.val (counts m.high) 0 (firstReason (highReasons v c.val) ≠ 0 || inMaint s c.val)
      (highTaken c.val v) = w at hrun hf hinp hlane
    have hwup : domUp w 3 = true := by rw [hf]; exact hup
    have hwl : w.course.latch = s.course.latch := by rw [hf]; exact hlatch
    have hlow : (ucGet w c.val).inp.low = false := by rw [hinp]; exact highTaken_low c.val v
    rw [latchSample_up hwup] at hrun
    refine ⟨_, congrArg Host.Outcome.next hrun, ?_⟩
    have hget (y : Sample) : (w.course.latch.set c.val y).get {} c.val = y := Tab.get_set_same _ _ _ _
    simp only [hget]
    refine ⟨rfl, rfl, fld_tagByte_zero _, hvalid, hstamp, rfl, fun k hk => ?_, hlow, fun n e hn hd he h0 h1 => ?_⟩
    · rw [Tab.get_set_other _ _ _ hk, hwl]
    · refine (hlane n e hn hd he h0 h1).trans ?_
      rw [← hreason]
      rfl
  · have h4 : 4 + (c.val - 32) / 8 = c.val / 8 := by omega
    have hc32 : 32 + (c.val - 32) = c.val := by omega
    obtain ⟨x, l, hlatch, hli, hw, hr, hb, hst⟩ := sampleLi_result hd (by rw [h4]; exact ht) hs ho
    have hrun : exec (.sampleReady c m) s = .next (sampleLi (c.val - 32) m s) :=
      congrArg Host.Outcome.next (if_neg (by omega))
    rw [hc32] at hlatch
    have hget : (sampleLi (c.val - 32) m s).course.latch.get {} c.val = x := by
      rw [hlatch]
      exact Tab.get_set_same _ _ _ _
    have hl : liGet (sampleLi (c.val - 32) m s) (c.val - 32) = l := (hli _).trans (updLi_same _ _ _)
    refine ⟨_, hrun, ?_, ?_, fun hj hlo => ?_, fun hj hhi => ?_, fun hj h1 h2 => ?_, fun k hk => ?_, fun k hk => ?_⟩
    · rw [hget, hw]
    · rw [hget, hr]
    · have h3 := liBand_fault_low hj hlo
      rw [hl, hb, h3]
      exact ⟨rfl, hst h3⟩
    · rw [hl, hb, liBand_fault_high hj hhi]
      rfl
    · rw [hl, hb, liBand_measurement hj h1 h2]
      rfl
    · rw [hlatch]
      exact Tab.get_set_other _ _ _ hk
    · exact (hli k).trans (updLi_other _ _ _ hk)

/-! STALE, lane faults and FORCED (R81, R358, R359). -/

theorem safeEvent_eventsOnly (code target detail : Nat) (s : State) : EventsOnly s (safeEvent code target detail s) :=
  blockEv_evq _ _ _ s

/-- An event after a trip evaluation is raised like one before it. -/
theorem safeEvent_raised (code target detail : Nat) (s : State) :
    Raised s (safeEvent code target detail (tripUpdate s)) 2 code 0x18 (target + detail % 65536 * 2 ^ 16) := by
  have h := blockEv_raised 0x18 code (target + detail % 65536 * 2 ^ 16) (tripUpdate s)
  obtain ⟨_, _, _, _, _, e⟩ := tripUpdate_frame s
  have hd : domUp (tripUpdate s) 3 = domUp s 3 := by rw [e]; rfl
  have hi : (tripUpdate s).evq = s.evq := by rw [e]
  have hc : (tripUpdate s).course = s.course := by rw [e]
  unfold Raised at h
  rw [hd, hi, hc] at h
  exact h

theorem laneGet_orderYield (c : Nat) (s : State) (n : Nat) : laneGet (orderYield c s) n = laneGet s n := by
  obtain ⟨y, h, -⟩ := orderYield_frame c s
  rw [h]
  rfl

theorem laneGet_safeEvent (code target detail : Nat) (s : State) (n : Nat) :
    laneGet (safeEvent code target detail s) n = laneGet s n := by
  obtain ⟨_, _, h⟩ := safeEvent_eventsOnly code target detail s
  rw [h]
  rfl

/-- The lane a STALE leaves. -/
def laneStaled (e : Entry) (l : Lane) : Lane := { lanePolicy e.body l with stale := true, lastInside := false }

theorem lanePolicy_keep {b : List Byte} (h : bits (bAt b 2) 3 1 = 0) (l : Lane) : lanePolicy b l = l :=
  if_neg (by simp [lanePolicyTrip, h])

theorem lanePolicy_trip {b : List Byte} (h : bits (bAt b 2) 3 1 = 1) (l : Lane) : lanePolicy b l = laneBeyond b l :=
  if_pos (by simp [lanePolicyTrip, h])

theorem laneBeyond_tripped {b : List Byte} {l : Lane} (h : l.tripped = false) :
    (laneBeyond b l).tripped = true ↔ bAt b 3 ≤ l.count + 1 := by
  unfold laneBeyond laneConfirm
  rw [h]
  simp only [Bool.false_eq_true, if_false]
  split
  · next hc => exact ⟨fun _ => hc, fun _ => rfl⟩
  · next hc => exact ⟨fun ht => absurd ht Bool.false_ne_true, fun h' => absurd h' hc⟩

/-- FORCED, before the matrix is evaluated. -/
theorem tripUpdate_forced {s : State} (hf : s.safe.forced = true) {o : Nat} (ho : o < 64) (h : (safeOut s o).isSome = true) :
    bitAt (tripUpdate s).safe.outTrip o = true := by
  obtain ⟨_, _, _, _, _, e⟩ := tripUpdate_frame s
  rw [e]
  exact (bitAt_tripMask s ho).trans (outTripped_forced hf h)

/-- Settles O24: the trip evaluation that follows each change leaves the lanes and the claim alone. -/
theorem lanesAndForced : Obligations.LanesAndForced := by
  unfold Obligations.LanesAndForced
  refine ⟨fun n e s he hd => ?_, fun n s hd => ?_, fun s hd h8 hg hn => ?_, fun s h => ?_⟩
  · have hrun : exec (.laneStale n) s
        = .next (tripUpdate { s with safe.lanes := s.safe.lanes.upd {} n.val (laneStaled e) }) := by
      refine congrArg Host.Outcome.next ?_
      rw [he]
      exact if_pos hd
    have hl : laneGet { s with safe.lanes := s.safe.lanes.upd {} n.val (laneStaled e) } n.val
        = laneStaled e (laneGet s n.val) := Tab.get_upd_same _ _ _ _
    refine ⟨_, hrun, ?_, fun hp => ?_, fun hp ht => ?_, fun k hk => ?_⟩ <;> rw [laneGet_tripUpdate]
    · rw [hl]; rfl
    · rw [hl, laneStaled, lanePolicy_keep hp]
    · rw [hl, laneStaled, lanePolicy_trip hp]
      exact laneBeyond_tripped ht
    · exact Tab.get_upd_other _ _ _ hk
  · generalize hu : ({ s with safe.lanes := s.safe.lanes.upd {} n.val (fun l => { l with fault := true }) } : State) = u
    have hrun : exec (.laneFault n) s = .next (orderYield 4 (safeEvent 8 n.val 0 (tripUpdate u))) := by
      rw [← hu]
      exact congrArg Host.Outcome.next (if_pos hd)
    obtain ⟨y, hy, hset⟩ := orderYield_frame 4 (safeEvent 8 n.val 0 (tripUpdate u))
    obtain ⟨a, b, c, d, h, htrip⟩ := tripUpdate_frame u
    obtain ⟨ev, fr, hev⟩ := safeEvent_eventsOnly 8 n.val 0 (tripUpdate u)
    have hred : (safeEvent 8 n.val 0 (tripUpdate u)).red = s.red := by rw [hev, htrip, ← hu]
    refine ⟨_, hrun, ?_, fun k hk => ?_, ?_, fun hc hs hn => ?_⟩
    · rw [laneGet_orderYield, laneGet_safeEvent, laneGet_tripUpdate, ← hu]
      exact congrArg Lane.fault (Tab.get_upd_same _ _ _ _)
    · rw [laneGet_orderYield, laneGet_safeEvent, laneGet_tripUpdate, ← hu]
      exact Tab.get_upd_other _ _ _ hk
    · have hr := safeEvent_raised 8 n.val 0 u
      rw [hy]
      rw [← hu] at hr ⊢
      exact hr
    · rw [hy]
      refine hset ?_ ?_ ?_
      · simpa [claimed, hred] using hc
      · simpa [isSolo, hred] using hs
      · rw [hred]; exact hn
  · have hrun : exec .forceSet s = .next (forceSet s) :=
      congrArg Host.Outcome.next (if_pos (by simp [hd, h8, hg, hn]))
    obtain ⟨ev, fr, hev⟩ := safeEvent_eventsOnly 6 0 s.safe.faultRun.toNat (tripUpdate { s with safe.forced := true })
    obtain ⟨a, b, c, d, h, htrip⟩ := tripUpdate_frame { s with safe.forced := true }
    refine ⟨_, hrun, ?_, fun o ho hso => ?_, ?_⟩
    · rw [forceSet, hev, htrip]
    · rw [forceSet, hev]
      exact tripUpdate_forced (s := { s with safe.forced := true }) rfl ho hso
    · have hr := safeEvent_raised 6 0 s.safe.faultRun.toNat { s with safe.forced := true }
      have hlt : s.safe.faultRun.toNat % 65536 = s.safe.faultRun.toNat := Nat.mod_eq_of_lt (Nat.lt_trans s.safe.faultRun.isLt (by decide))
      rw [hlt, Nat.zero_add] at hr
      exact hr
  · refine congrArg Host.Outcome.next (if_neg fun h' => ?_)
    simp only [Bool.and_eq_true, decide_eq_true_eq] at h'
    obtain ⟨⟨⟨-, h8⟩, hg⟩, -⟩ := h'
    obtain h | h := h
    · omega
    · rw [h] at hg; cases hg

end Sys2Proof.Machine
end

section
/-! Monitors of the tiles: excitation, IEPE, guard, cold junction, loop power, burdens, THERM and open tests (ch. 04 to 06). -/

namespace Sys2Proof.Machine

/-! Events change neither a channel nor a page. -/

theorem chanEvent_eventsOnly (c code detail : Nat) (s : State) : EventsOnly s (chanEvent c code detail s) :=
  blockEv_evq _ _ _ s

theorem EventsOnly.ucGet {s t : State} (h : EventsOnly s t) (n : Nat) : ucGet t n = Machine.ucGet s n := by
  obtain ⟨_, _, rfl⟩ := h
  rfl

theorem EventsOnly.liGet {s t : State} (h : EventsOnly s t) (n : Nat) : liGet t n = Machine.liGet s n := by
  obtain ⟨_, _, rfl⟩ := h
  rfl

theorem EventsOnly.hdr {s t : State} (h : EventsOnly s t) (p : Nat) : hdr t p = Machine.hdr s p := by
  obtain ⟨_, _, rfl⟩ := h
  rfl

/-- One universal channel and the event queue's intake differ. -/
structure ChannelEvent (n : Nat) (u : UcChan) (s t : State) : Prop where
  same : ucGet t n = u
  other : ∀ k, k ≠ n → ucGet t k = ucGet s k
  frame : t = { s with ucs := t.ucs, evq := t.evq, free := t.free }

theorem ChannelEvent.refl (n : Nat) (s : State) : ChannelEvent n (Machine.ucGet s n) s s := ⟨rfl, fun _ _ => rfl, rfl⟩

theorem ChannelEvent.upd {n : Nat} {u : UcChan} {s t : State} (h : ChannelEvent n u s t) (f : UcChan → UcChan) :
    ChannelEvent n (f u) s (updUc n f t) := by
  refine ⟨?_, fun k hk => ?_, ?_⟩
  · rw [updUc_same, h.same]
  · rw [updUc_other _ _ _ hk, h.other k hk]
  · rw [h.frame]
    rfl

theorem ChannelEvent.event {n : Nat} {u : UcChan} {s t v : State} (h : ChannelEvent n u s t) (e : EventsOnly t v) :
    ChannelEvent n u s v := by
  refine ⟨?_, fun k hk => ?_, ?_⟩
  · rw [e.ucGet, h.same]
  · rw [e.ucGet, h.other k hk]
  · obtain ⟨_, _, rfl⟩ := e
    rw [h.frame]

/-- A reading of the excitation monitor, before it is judged (R105). -/
def excRead (v : BitVec 12) (bias : Half) (u : UcChan) : UcChan :=
  { u with inp := { u.inp with
      excmon := v, excLow := if v.toNat < 900 then u.inp.excLow + 1 else 0
      excGood := if 950 ≤ v.toNat then u.inp.excGood + 1 else 0
      bias := if ucModeF u = 6 then bias else u.inp.bias } }

/-- EXC_FAULT sets. -/
def excFaulted (u : UcChan) : UcChan := { u with sticky := setBit u.sticky 0 true, inp := { u.inp with excFault := true } }

/-- EXC_FAULT clears, and marks the samples that follow; `o` holds the registers in force. -/
def excCleared (cn : Word) (o u : UcChan) : UcChan :=
  { u with inp := { u.inp with
      excFault := false, excMark := rateD (ucRate o)
      iepeUntil := if ucModeF o = 6 then some (cn + (if bitAt o.inForce.cfg 18 then 2000 else 20000)) else u.inp.iepeUntil } }

/-- The channel after a reading. -/
def excJudged (cn : Word) (v : BitVec 12) (bias : Half) (u : UcChan) : UcChan :=
  let r := excRead v bias u
  if !u.inp.excFault && 2 ≤ r.inp.excLow then excFaulted r
  else if u.inp.excFault && 20 ≤ r.inp.excGood then excCleared cn u r else r

theorem ChannelEvent.ite {n : Nat} {u v : UcChan} {s t w : State} {c : Prop} [Decidable c] (h : ChannelEvent n u s t)
    (k : ChannelEvent n v s w) : ChannelEvent n (if c then u else v) s (if c then t else w) := by
  split
  · exact h
  · exact k

theorem exec_excMonitorReading (n : Fin 32) (v : BitVec 12) (bias : Half) {s : State} (ht : tileUp s (n.val / 8) = true)
    (hm : excMonitored (ucGet s n.val) = true) (hg : gateUc s n.val = true) :
    ∃ t, exec (.excMonitorReading n ⟨v, bias⟩) s = .next t
      ∧ ChannelEvent n.val (excJudged s.course.cn v bias (ucGet s n.val)) s t := by
  refine ⟨_, congrArg Host.Outcome.next (if_pos (by simp [ht, hm, hg])), ?_⟩
  extract_lets lowRun goodRun s1
  have h1 : ChannelEvent n.val (excRead v bias (ucGet s n.val)) s s1 := (ChannelEvent.refl n.val s).upd _
  have h2 := ((h1.upd (fun u => { u with inp := { u.inp with excFault := true } })).upd
    (fun u => { u with sticky := setBit u.sticky 0 true })).event (chanEvent_eventsOnly n.val 1 v.toNat _)
  have h3 := (h1.upd (excCleared s.course.cn (ucGet s n.val))).event (chanEvent_eventsOnly n.val 2 0 _)
  exact .ite h2 (.ite h3 h1)

/-- EXC_FAULT after a reading. -/
theorem excJudged_sets {u : UcChan} {v : BitVec 12} (h : u.inp.excFault = false) (hl : 1 ≤ u.inp.excLow)
    (hv : v.toNat < 900) (cn : Word) (bias : Half) : excJudged cn v bias u = excFaulted (excRead v bias u) :=
  if_pos (by simp [excRead, h, hv]; omega)

theorem excJudged_stays_clear {u : UcChan} {v : BitVec 12} (h : u.inp.excFault = false)
    (hl : u.inp.excLow = 0 ∨ 900 ≤ v.toNat) (cn : Word) (bias : Half) : excJudged cn v bias u = excRead v bias u := by
  have hr : (excRead v bias u).inp.excLow < 2 := by
    simp only [excRead]
    split <;> omega
  exact (if_neg (by simp [h]; omega)).trans (if_neg (by simp [h]))

theorem excJudged_clears {u : UcChan} {v : BitVec 12} (h : u.inp.excFault = true) (hl : 19 ≤ u.inp.excGood)
    (hv : 950 ≤ v.toNat) (cn : Word) (bias : Half) :
    excJudged cn v bias u = excCleared cn u (excRead v bias u) :=
  (if_neg (by simp [h])).trans (if_pos (by simp [excRead, h, hv]; omega))

theorem excJudged_stays_set {u : UcChan} {v : BitVec 12} (h : u.inp.excFault = true)
    (hl : u.inp.excGood < 19 ∨ v.toNat < 950) (cn : Word) (bias : Half) : excJudged cn v bias u = excRead v bias u := by
  have hr : (excRead v bias u).inp.excGood < 20 := by
    simp only [excRead]
    split <;> omega
  exact (if_neg (by simp [h])).trans (if_neg (by simp [h]; omega))

/-- Every reading is stored, whatever it means for EXC_FAULT. -/
theorem excJudged_reading (cn : Word) (v : BitVec 12) (bias : Half) (u : UcChan) : (excJudged cn v bias u).inp.excmon = v
    ∧ (excJudged cn v bias u).inp.bias = if ucModeF u = 6 then bias else u.inp.bias := by
  unfold excJudged
  extract_lets r
  split
  · exact ⟨rfl, rfl⟩
  · split <;> exact ⟨rfl, rfl⟩

/-- A tile whose cold-junction sensors have been sampled (R112). -/
def cjTaken (a b : Half) (fa fb : Bool) (x : Tile) : Tile :=
  { x with
    cja := a, cjb := b, cjaFail := fa, cjbFail := fb, cjFault := fa && fb
    cjDegraded := (fa != fb) || (!fa && !fb && 500 < (a.toInt - b.toInt).natAbs) }

/-- The bits of the event. -/
def cjWord (x : Tile) : Nat := b2n x.cjDegraded + 2 * b2n x.cjFault + 4 * b2n x.cjaFail + 8 * b2n x.cjbFail

def cjStored (n : Nat) (a b : Half) (fa fb : Bool) (s : State) : State :=
  { s with tiles := s.tiles.set n (cjTaken a b fa fb (tileGet s n)) }

/-- Settles O25. -/
theorem inputMonitors : Obligations.InputMonitors := by
  unfold Obligations.InputMonitors
  refine ⟨fun n v bias s ht hm hg => ?_, fun n v s ht hm hg => ⟨?_, ?_⟩, fun n on s ht hc hlo h6 => ?_,
    fun n a b fa fb s ht => ?_⟩
  · intro i
    obtain ⟨t, hrun, h⟩ := exec_excMonitorReading n v bias ht hm hg
    obtain ⟨hmon, hbias⟩ := excJudged_reading s.course.cn v bias (ucGet s n.val)
    refine ⟨t, hrun, ?_, ?_, fun hf hl hv => ?_, fun hf hl => ?_, fun hf hl hv => ?_, fun hf hl => ?_, h.other, h.frame⟩ <;>
      rw [h.same]
    · exact hmon
    · exact hbias
    · rw [excJudged_sets hf hl hv]
      exact ⟨rfl, bitAt_setBit_same _ (by decide) _⟩
    · rw [excJudged_stays_clear hf hl]
      exact hf
    · rw [excJudged_clears hf hl hv]
      exact ⟨rfl, rfl⟩
    · rw [excJudged_stays_set hf hl]
      exact hf
  · have h1 := (ChannelEvent.refl n.val s).upd (fun u => { u with inp := { u.inp with bias := v, short := true } })
    cases hs : (ucGet s n.val).inp.short with
    | true =>
      refine ⟨_, congrArg Host.Outcome.next ((if_pos (by simp [ht, hm, hg])).trans (if_pos hs)), ?_, ?_, nofun, h1.other,
        h1.frame⟩
      · exact congrArg (fun u : UcChan => u.inp.short) h1.same
      · exact congrArg (fun u : UcChan => u.inp.bias) h1.same
    | false =>
      have h2 := (h1.upd (fun u => { u with sticky := setBit u.sticky 1 true })).event (chanEvent_eventsOnly n.val 3 v.toNat _)
      refine ⟨_, congrArg Host.Outcome.next ((if_pos (by simp [ht, hm, hg])).trans (if_neg (by simp [hs]))), ?_, ?_,
        fun _ => ?_, h2.other, h2.frame⟩
      · exact congrArg (fun u : UcChan => u.inp.short) h2.same
      · exact congrArg (fun u : UcChan => u.inp.bias) h2.same
      · exact (congrArg (fun u : UcChan => bitAt u.sticky 1) h2.same).trans (bitAt_setBit_same _ (by decide) _)
  · cases hs : (ucGet s n.val).inp.short with
    | true =>
      have h1 := ((ChannelEvent.refl n.val s).upd (fun u => { u with inp := { u.inp with
          bias := v, short := false, shortMark := rateD (ucRate (ucGet s n.val))
          iepeUntil := some (s.course.cn + (if bitAt (ucGet s n.val).inForce.cfg 18 then 2000 else 20000)) } })).event
          (chanEvent_eventsOnly n.val 4 0 _)
      refine ⟨_, congrArg Host.Outcome.next ((if_pos (by simp [ht, hm, hg])).trans (if_pos hs)), ?_, ?_, ?_, h1.other,
        h1.frame⟩
      · exact congrArg (fun u : UcChan => u.inp.short) h1.same
      · exact congrArg (fun u : UcChan => u.inp.bias) h1.same
      · exact (congrArg (fun u : UcChan => u.sticky) h1.same).trans rfl
    | false =>
      have h1 := (ChannelEvent.refl n.val s).upd (fun u => { u with inp := { u.inp with bias := v } })
      refine ⟨_, congrArg Host.Outcome.next ((if_pos (by simp [ht, hm, hg])).trans (if_neg (by simp [hs]))), ?_, ?_, ?_,
        h1.other, h1.frame⟩
      · exact (congrArg (fun u : UcChan => u.inp.short) h1.same).trans hs
      · exact congrArg (fun u : UcChan => u.inp.bias) h1.same
      · exact (congrArg (fun u : UcChan => u.sticky) h1.same).trans rfl
  · have h1 := (ChannelEvent.refl n.val s).upd (fun u => { u with inp := { u.inp with grdLimit := on } })
    by_cases he : on = true ∧ (ucGet s n.val).inp.grdLimit = false
    · have h2 := (h1.upd (fun u => { u with sticky := setBit u.sticky 3 true })).event (chanEvent_eventsOnly n.val 7 0 _)
      refine ⟨_, congrArg Host.Outcome.next ((if_pos (by simp [ht, hc, hlo, h6])).trans (if_pos (by simp [he.1, he.2]))), ?_,
        fun _ _ => ?_, h2.other, h2.frame⟩
      · exact congrArg (fun u : UcChan => u.inp.grdLimit) h2.same
      · exact (congrArg (fun u : UcChan => bitAt u.sticky 3) h2.same).trans (bitAt_setBit_same _ (by decide) _)
    · refine ⟨_, congrArg Host.Outcome.next ((if_pos (by simp [ht, hc, hlo, h6])).trans (if_neg (by simpa using he))), ?_,
        fun ho hl => absurd ⟨ho, hl⟩ he, h1.other, h1.frame⟩
      exact congrArg (fun u : UcChan => u.inp.grdLimit) h1.same
  · have hrun : exec (.cjSample n a b fa fb) s = .next (if cjWord (tileGet s n.val) = cjWord (cjTaken a b fa fb (tileGet s n.val))
        then cjStored n.val a b fa fb s
        else blockEv (tilePage n.val) 8 (cjWord (cjTaken a b fa fb (tileGet s n.val)) * 2 ^ 16) (cjStored n.val a b fa fb s)) :=
      congrArg Host.Outcome.next (if_pos ht)
    have he : EventsOnly (cjStored n.val a b fa fb s) (if cjWord (tileGet s n.val) = cjWord (cjTaken a b fa fb (tileGet s n.val))
        then cjStored n.val a b fa fb s
        else blockEv (tilePage n.val) 8 (cjWord (cjTaken a b fa fb (tileGet s n.val)) * 2 ^ 16) (cjStored n.val a b fa fb s)) :=
      .ite (.refl _) (blockEv_evq _ _ _ _)
    obtain ⟨ev, fr, e⟩ := he
    rw [e] at hrun
    have hs : tileGet { cjStored n.val a b fa fb s with evq := ev, free := fr } n.val
        = cjTaken a b fa fb (tileGet s n.val) := Tab.get_set_same _ _ _ _
    refine ⟨_, hrun, ?_, ?_, ?_, ?_, fun k hk => ?_, rfl⟩
    · rw [hs]; rfl
    · rw [hs]; rfl
    · rw [hs]
      simp [cjTaken]
    · rw [hs]
      simp [cjTaken, and_assoc]
    · exact Tab.get_set_other _ _ _ hk

/-! Loop power and burdens. -/

/-- One loop input and the event queue's intake differ. -/
structure LoopEvent (n : Nat) (l : LiChan) (s t : State) : Prop where
  same : liGet t n = l
  other : ∀ k, k ≠ n → liGet t k = liGet s k
  frame : t = { s with lis := t.lis, evq := t.evq, free := t.free }

theorem LoopEvent.upd (n : Nat) (f : LiChan → LiChan) (s : State) : LoopEvent n (f (liGet s n)) s (updLi n f s) :=
  ⟨updLi_same _ _ _, fun _ hk => updLi_other _ _ _ hk, rfl⟩

theorem LoopEvent.event {n : Nat} {l : LiChan} {s t v : State} (h : LoopEvent n l s t) (e : EventsOnly t v) :
    LoopEvent n l s v := by
  refine ⟨?_, fun k hk => ?_, ?_⟩
  · rw [e.liGet, h.same]
  · rw [e.liGet, h.other k hk]
  · obtain ⟨_, _, rfl⟩ := e
    rw [h.frame]

/-- A change of a loop input, with its event unless `c`. -/
theorem LoopEvent.upd_event (n : Nat) (f : LiChan → LiChan) (code detail : Nat) (s : State) (c : Prop) [Decidable c] :
    LoopEvent n (f (liGet s n)) s (if c then updLi n f s else liEvent n code detail (updLi n f s)) := by
  split
  · exact .upd n f s
  · exact (LoopEvent.upd n f s).event (liEvent_eventsOnly _ _ _ _)

/-- Settles O26. -/
theorem loopProtection : Obligations.LoopProtection := by
  unfold Obligations.LoopProtection
  intro n s ht l
  refine ⟨fun i hp => ?_, fun hs => ?_, fun limited hs htr => ?_, fun i hc => ?_, fun hb => ?_, fun calm hb htr => ?_⟩
  · have h := LoopEvent.upd_event n.val (fun l => { l with
      pwrShort := true, pwrTrial := false, pwrCurrent := i, sticky := setBit l.sticky 1 true }) 1 i.toNat s (l.pwrShort = true)
    exact ⟨_, congrArg Host.Outcome.next (if_pos (by simp [ht]; exact hp)), h.same, h.other, h.frame⟩
  · have h := LoopEvent.upd n.val (fun l => { l with pwrTrial := true }) s
    exact ⟨_, congrArg Host.Outcome.next (if_pos (by simp [ht]; exact hs)), h.same, h.other, rfl⟩
  · have hc : (tileUp s (4 + n.val / 8) && l.pwrShort && l.pwrTrial) = true := by simp [ht, hs, htr]
    cases limited with
    | true =>
      have h := LoopEvent.upd n.val (fun l => { l with pwrTrial := false }) s
      exact ⟨_, congrArg Host.Outcome.next ((if_pos hc).trans (if_pos rfl)), fun _ => h.same, nofun, h.other, h.frame⟩
    | false =>
      have h := (LoopEvent.upd n.val (fun l => { l with pwrTrial := false, pwrShort := false, shortMark := liRateD }) s).event
        (liEvent_eventsOnly n.val 2 0 _)
      exact ⟨_, congrArg Host.Outcome.next ((if_pos hc).trans (if_neg (by decide))), nofun, fun _ => h.same, h.other, h.frame⟩
  · have h := LoopEvent.upd_event n.val (fun l => { l with
      burdenProt := true, burdenTrial := false, sticky := setBit l.sticky 2 true }) 3 i.toNat s (l.burdenProt = true)
    exact ⟨_, congrArg Host.Outcome.next (if_pos (by simp [ht]; exact hc)), h.same, h.other, h.frame⟩
  · have h := LoopEvent.upd n.val (fun l => { l with burdenTrial := true }) s
    exact ⟨_, congrArg Host.Outcome.next (if_pos (by simp [ht]; exact hb)), h.same, h.other, rfl⟩
  · have hc : (tileUp s (4 + n.val / 8) && l.burdenProt && l.burdenTrial) = true := by simp [ht, hb, htr]
    cases calm with
    | true =>
      have h := (LoopEvent.upd n.val (fun l => { l with
        burdenTrial := false, burdenProt := false, burdenMark := liRateD }) s).event (liEvent_eventsOnly n.val 4 0 _)
      exact ⟨_, congrArg Host.Outcome.next ((if_pos hc).trans (if_pos rfl)), fun _ => h.same, nofun, h.other, h.frame⟩
    | false =>
      have h := LoopEvent.upd n.val (fun l => { l with burdenTrial := false }) s
      exact ⟨_, congrArg Host.Outcome.next ((if_pos hc).trans (if_neg (by decide))), nofun, fun _ => h.same, h.other, h.frame⟩

/-! THERM of an output driver, and open tests. -/

/-- What resolving an output leaves of its channel besides the drive: source, THERM, temperature and sticky bits. -/
theorem ucGet_ucResolve (n : Nat) (s : State) (h : ucIsOut (ucGet s n) = true) :
    (∃ o, ucGet (ucResolve n s) n = { ucGet s n with out := o } ∧ o.source = BitVec.ofNat 3 (ucSource s n)
      ∧ o.therm = (ucGet s n).out.therm ∧ o.temp = (ucGet s n).out.temp)
    ∧ ∀ k, k ≠ n → ucGet (ucResolve n s) k = ucGet s k := by
  unfold ucResolve
  rw [if_pos h]
  extract_lets src waits
  split
  · exact ⟨⟨_, updUc_same _ _ _, rfl, rfl, rfl⟩, fun k hk => updUc_other _ _ _ hk⟩
  · split
    · exact ⟨⟨_, updUc_same _ _ _, rfl, rfl, rfl⟩, fun k hk => updUc_other _ _ _ hk⟩
    · exact ⟨⟨_, updUc_same _ _ _, rfl, rfl, rfl⟩, fun k hk => updUc_other _ _ _ hk⟩

theorem ucResolve_frame (n : Nat) (s : State) : ∃ u, ucResolve n s = { s with ucs := u } := by
  unfold ucResolve
  extract_lets u src waits
  split
  · split
    · exact ⟨_, rfl⟩
    · split <;> exact ⟨_, rfl⟩
  · exact ⟨_, rfl⟩

/-- THERM takes the drive of an enabled output. -/
theorem ucSource_therm {s : State} {n : Nat} (hg : gateUc s n = true) (ht : (ucGet s n).out.therm = true) :
    ucSource s n = 1 := by
  simp [ucSource, hg, ht]

/-- Without THERM no output is driven by it. -/
theorem ucSource_not_therm {s : State} {n : Nat} (ht : (ucGet s n).out.therm = false) :
    BitVec.ofNat 3 (ucSource s n) ≠ 1 := by
  have h : ucSource s n ≠ 1 ∧ ucSource s n < 8 := by
    unfold ucSource
    extract_lets u latch blockless
    have ht' : u.out.therm = false := ht
    simp only [ht', Bool.false_eq_true, if_false]
    repeat' split
    all_goals exact ⟨by decide, by decide⟩
  intro e
  have e' := congrArg BitVec.toNat e
  rw [BitVec.toNat_ofNat, Nat.mod_eq_of_lt h.2] at e'
  exact h.1 e'

/-- An output's THERM changed, its drive resolved and the event, if any, raised. -/
theorem thermChanged (n : Nat) (f : UcChan → UcChan) {s t : State} (h : ucIsOut (f (ucGet s n)) = true)
    (e : EventsOnly (ucResolve n (updUc n f s)) t) :
    (∃ o, ucGet t n = { f (ucGet s n) with out := o } ∧ o.source = BitVec.ofNat 3 (ucSource (updUc n f s) n)
      ∧ o.therm = (f (ucGet s n)).out.therm ∧ o.temp = (f (ucGet s n)).out.temp)
    ∧ (∀ k, k ≠ n → ucGet t k = ucGet s k) ∧ t = { s with ucs := t.ucs, evq := t.evq, free := t.free } := by
  have hu : ucGet (updUc n f s) n = f (ucGet s n) := updUc_same _ _ _
  obtain ⟨hs, ho⟩ := ucGet_ucResolve n (updUc n f s) (by rw [hu]; exact h)
  rw [hu] at hs
  refine ⟨?_, fun k hk => ?_, ?_⟩
  · rw [e.ucGet]
    exact hs
  · rw [e.ucGet, ho k hk, updUc_other _ _ _ hk]
  · obtain ⟨u, hr⟩ := ucResolve_frame n (updUc n f s)
    obtain ⟨_, _, rfl⟩ := e
    rw [hr]
    rfl

/-- OPEN after a test: nothing without a limit, at the limit as before (R109). -/
def openJudged (u : UcChan) (ohms : Nat) : Bool :=
  if fld u.inForce.lim 16 16 = 0 then false else if fld u.inForce.lim 16 16 * 1000 < ohms then true
  else if ohms < fld u.inForce.lim 16 16 * 1000 then false else u.inp.openF

/-- A channel after its open test. -/
def openTested (ohms : Nat) (o : Bool) (u : UcChan) : UcChan :=
  { u with inp := { u.inp with
      openR := satNat 24 ohms, openValid := true, openOrder := false, openCmd := false, openF := o } }

/-- An argument within the low `k` bits lies in their mask. -/
theorem argOutside_small (k : Nat) {arg : BitVec 24} (h : arg.toNat < 2 ^ k) :
    argOutside arg (2 ^ k - 1) = false := by
  have e : arg &&& ~~~ (BitVec.ofNat 24 (2 ^ k - 1)) = 0 := by
    refine BitVec.eq_of_getLsbD_eq fun i hi => ?_
    rw [BitVec.getLsbD_and, BitVec.getLsbD_not, BitVec.getLsbD_ofNat, Nat.testBit_two_pow_sub_one]
    by_cases hik : i < k
    · simp [hi, hik]
    · have hb : arg.getLsbD i = false := Nat.testBit_lt_two_pow (Nat.lt_of_lt_of_le h (Nat.pow_le_pow_right (by decide) (by omega)))
      simp [hb]
  simp [argOutside, e]

/-- The conversion of an open test: its channel's cells, the event, and the end of the command. -/
theorem exec_openTestDone (n : Fin 32) (ohms : Nat) {s : State} (ht : tileUp s (n.val / 8) = true)
    (hg : gateUc s n.val = true) (ho : openTestable (ucGet s n.val) = true) (hc : (ucGet s n.val).inp.openCmd = true) :
    ∃ u v, ChannelEvent n.val u s v ∧ u.inp = (openTested ohms (openJudged (ucGet s n.val) ohms) (ucGet s n.val)).inp
      ∧ (∀ p, hdr v p = hdr s p)
      ∧ exec (.openTestDone n ohms) s = .next (endIfRunning (tilePage (n.val / 8)) 2 .ok (min ohms 0xFFFFFF) v) := by
  have h1 := (ChannelEvent.refl n.val s).upd (openTested ohms (openJudged (ucGet s n.val) ohms))
  have h2 := (h1.upd (fun u => { u with sticky := setBit u.sticky 2 true })).event (chanEvent_eventsOnly n.val 5 (ohms / 1000) _)
  have h3 := h1.event (chanEvent_eventsOnly n.val 6 (ohms / 1000) _)
  have hrun {v : State} (hv : v = if openJudged (ucGet s n.val) ohms && !(ucGet s n.val).inp.openF then
        chanEvent n.val 5 (ohms / 1000) (ucSticky n.val 2
          (updUc n.val (openTested ohms (openJudged (ucGet s n.val) ohms)) s))
      else if !openJudged (ucGet s n.val) ohms && (ucGet s n.val).inp.openF then
        chanEvent n.val 6 (ohms / 1000) (updUc n.val (openTested ohms (openJudged (ucGet s n.val) ohms)) s)
      else updUc n.val (openTested ohms (openJudged (ucGet s n.val) ohms)) s) :
      exec (.openTestDone n ohms) s = .next (endIfRunning (tilePage (n.val / 8)) 2 .ok (min ohms 0xFFFFFF) v) := by
    rw [hv]
    exact congrArg Host.Outcome.next ((if_pos (by simp [ht, hg, ho, hc])).trans (if_pos hc))
  by_cases hset : (openJudged (ucGet s n.val) ohms && !(ucGet s n.val).inp.openF) = true
  · refine ⟨_, _, h2, rfl, fun p => (chanEvent_eventsOnly _ _ _ _).hdr p, hrun (if_pos hset).symm⟩
  · by_cases hclr : (!openJudged (ucGet s n.val) ohms && (ucGet s n.val).inp.openF) = true
    · exact ⟨_, _, h3, rfl, fun p => (chanEvent_eventsOnly _ _ _ _).hdr p, hrun ((if_neg hset).trans (if_pos hclr)).symm⟩
    · exact ⟨_, _, h1, rfl, fun p => rfl, hrun ((if_neg hset).trans (if_neg hclr)).symm⟩

/-- Settles O27. -/
theorem thermAndOpenTests : Obligations.ThermAndOpenTests := by
  unfold Obligations.ThermAndOpenTests
  refine ⟨fun n v s hd ho => ⟨?_, fun hth => ?_⟩, fun req p arg s hr ha => ?_, fun n ohms r s ht hg ho hc hm hrun hop => ?_⟩
  · generalize hf : (fun u : UcChan => { u with
      osticky := setBit u.osticky 3 true, out := { u.out with therm := true, temp := v } }) = f
    have hout : ucIsOut (f (ucGet s n.val)) = true := by rw [← hf]; exact ho
    have e : EventsOnly (ucResolve n.val (updUc n.val f s)) (if (ucGet s n.val).out.therm then ucResolve n.val (updUc n.val f s)
        else chanEvent n.val 0x0E (v.toInt / 10).toNat (ucResolve n.val (updUc n.val f s))) :=
      .ite (.refl _) (chanEvent_eventsOnly _ _ _ _)
    obtain ⟨⟨o, hs, hsrc, hth, htemp⟩, hother, hframe⟩ := thermChanged n.val f hout e
    refine ⟨_, congrArg Host.Outcome.next ((if_pos (by simp [hd, ho])).trans (by rw [← hf])), ?_, ?_, ?_, fun hg => ?_, hother,
      hframe⟩ <;> rw [hs]
    · exact hth.trans (by rw [← hf])
    · exact htemp.trans (by rw [← hf])
    · rw [← hf]
      exact bitAt_setBit_same _ (by decide) _
    · refine hsrc.trans ?_
      have h1 : ucSource (updUc n.val f s) n.val = 1 :=
        ucSource_therm hg (by rw [updUc_same, ← hf])
      rw [h1]
      rfl
  · generalize hf : (fun u : UcChan => { u with out := { u.out with therm := false, direct := true, temp := v } }) = f
    have hout : ucIsOut (f (ucGet s n.val)) = true := by rw [← hf]; exact ho
    have e : EventsOnly (ucResolve n.val (updUc n.val f s))
        (chanEvent n.val 0x0F (v.toInt / 10).toNat (ucResolve n.val (updUc n.val f s))) := chanEvent_eventsOnly _ _ _ _
    obtain ⟨⟨o, hs, hsrc, hth', htemp⟩, hother, hframe⟩ := thermChanged n.val f hout e
    refine ⟨_, congrArg Host.Outcome.next ((if_pos (by simp [hd, ho, hth])).trans (by rw [← hf])), ?_, ?_, ?_, ?_, hother,
      hframe⟩ <;> rw [hs]
    · exact hth'.trans (by rw [← hf])
    · exact htemp.trans (by rw [← hf])
    · rw [← hf]
    · rw [hsrc]
      exact ucSource_not_therm (by rw [updUc_same, ← hf])
  · intro n hot hg hrst
    have hn : 8 * p.val + fld arg 0 3 = n := by
      have e : fld arg 0 3 = arg.toNat := by simp [fld]; omega
      rw [e]
    refine ⟨updInp n (fun i => { i with openCmd := true }) (takeCmd (0x20 + p.val) req 2 arg s), ?_, ?_, ?_, fun k hk => ?_,
      rfl⟩
    · refine congrArg Host.Outcome.next ((issueCmd_ready hr req 2 arg _).trans ?_)
      dsimp only
      have hb : argOutside arg 7 = false := argOutside_small 3 ha
      rw [if_neg (by rw [hb]; decide), hn]
      have hok : ¬ (!openTestable (ucGet (takeCmd (0x20 + p.val) req 2 arg s) n) || !gateUc (takeCmd (0x20 + p.val) req 2 arg s) n
          || (tileGet (takeCmd (0x20 + p.val) req 2 arg s) p.val).restarting) = true := by
        have h1 : openTestable (ucGet (takeCmd (0x20 + p.val) req 2 arg s) n) = true := hot
        have h2 : gateUc (takeCmd (0x20 + p.val) req 2 arg s) n = true := hg
        have h3 : (tileGet (takeCmd (0x20 + p.val) req 2 arg s) p.val).restarting = false := hrst
        simp [h1, h2, h3]
      rw [if_neg hok]
    · exact hdr_takeCmd_same _ _ _ _ _
    · exact congrArg (fun u : UcChan => u.inp.openCmd) (updUc_same n _ (takeCmd (0x20 + p.val) req 2 arg s))
    · exact updUc_other _ _ _ hk
  · intro lim
    obtain ⟨u, v, hev, hu, hh, hx⟩ := exec_openTestDone n ohms ht hg ho hc
    have hop' : r.op.toNat = 2 := by rw [hop]; rfl
    have hend : endIfRunning (tilePage (n.val / 8)) 2 .ok (min ohms 0xFFFFFF) v
        = updHdr (0x20 + n.val / 8) (hdrEnd .ok (min ohms 0xFFFFFF)) v := by
      unfold endIfRunning
      rw [hh, show hdr s (tilePage (n.val / 8)) = hdr s (0x20 + n.val / 8) from rfl, hrun]
      simp only [hop', if_true]
      exact finishCmd_eq _ _ _ _ nofun
    rw [hend] at hx
    have hget (k : Nat) : ucGet (updHdr (0x20 + n.val / 8) (hdrEnd .ok (min ohms 0xFFFFFF)) v) k = ucGet v k := rfl
    have hmin : min ohms 0xFFFFFF = ohms := by omega
    refine ⟨_, hx, ?_, ?_, ?_, fun hl => ?_, fun hl hgt => ?_, fun hl hlt => ?_, ?_, ?_, ?_, fun k hk => ?_⟩
    · rw [hget, hev.same, hu]; rfl
    · rw [hget, hev.same, hu]
      have e : min ohms (2 ^ 24 - 1) = ohms := by omega
      simp only [openTested, satNat, e]
    · rw [hget, hev.same, hu]; rfl
    · rw [hget, hev.same, hu]
      exact if_pos hl
    · rw [hget, hev.same, hu]
      exact (if_neg hl).trans (if_pos hgt)
    · rw [hget, hev.same, hu]
      exact (if_neg hl).trans ((if_neg (Nat.lt_asymm hlt)).trans (if_pos hlt))
    · rw [updHdr_same]; rfl
    · rw [updHdr_same]; rfl
    · rw [updHdr_same, hmin]; rfl
    · rw [hget]
      exact hev.other k hk

end Sys2Proof.Machine
end


section
/-! HART transactions (ch. 06): how a transaction starts, fails, ends and is ordered. -/

namespace Sys2Proof.Machine

/-! What a transaction's end leaves. -/

theorem filter_ne_not_mem (b : Nat) (l : List Nat) : b ∉ l.filter (· ≠ b) := by simp

theorem hartDone_frame (b result : Nat) (s : State) :
    ∃ e f, hartDone b result s = { s with
      hart.descs := s.hart.descs.upd {} b (fun d => { d with state := .done, result := BitVec.ofNat 3 result, cn := s.course.cn })
      hart.queue := s.hart.queue.filter (· ≠ b), evq := e, free := f } := by
  unfold hartDone
  obtain ⟨e, f, h⟩ := blockEv_evq 0x2B 1 _ { updDesc b (fun d => { d with
    state := .done, result := BitVec.ofNat 3 result, cn := s.course.cn }) s with
    hart.queue := s.hart.queue.filter (· ≠ b) }
  exact ⟨e, f, h⟩

theorem desc_hartDone_same (b result : Nat) (s : State) : desc (hartDone b result s) b
    = { desc s b with state := .done, result := BitVec.ofNat 3 result, cn := s.course.cn } := by
  obtain ⟨e, f, h⟩ := hartDone_frame b result s
  rw [h]
  exact Tab.get_upd_same _ _ _ _

theorem desc_hartDone_other (b result : Nat) (s : State) {k : Nat} (hk : k ≠ b) :
    desc (hartDone b result s) k = desc s k := by
  obtain ⟨e, f, h⟩ := hartDone_frame b result s
  rw [h]
  exact Tab.get_upd_other _ _ _ hk

theorem queue_hartDone (b result : Nat) (s : State) : b ∉ (hartDone b result s).hart.queue := by
  obtain ⟨e, f, h⟩ := hartDone_frame b result s
  rw [h]
  exact filter_ne_not_mem b _

theorem hartEnd_frame (m b result : Nat) (s : State) :
    ∃ x e f, hartEnd m b result s = { s with
      hart.descs := s.hart.descs.upd {} b (fun d => { d with state := .done, result := BitVec.ofNat 3 result, cn := s.course.cn })
      hart.queue := s.hart.queue.filter (· ≠ b), hart.modems := x, evq := e, free := f } := by
  obtain ⟨e, f, h⟩ := hartDone_frame b result s
  unfold hartEnd
  rw [h]
  obtain ⟨x, hx⟩ := coupleModem_frame m true (updModem m (fun x => { x with
    active := none, tx := false, cd := false, retryWait := false, frame := [], txLeft := 0 }) { s with
      hart.descs := s.hart.descs.upd {} b (fun d => { d with state := .done, result := BitVec.ofNat 3 result, cn := s.course.cn })
      hart.queue := s.hart.queue.filter (· ≠ b), evq := e, free := f })
  exact ⟨x, e, f, hx⟩

theorem desc_hartEnd (m b result : Nat) (s : State) : desc (hartEnd m b result s) b
    = { desc s b with state := .done, result := BitVec.ofNat 3 result, cn := s.course.cn } := by
  obtain ⟨x, e, f, h⟩ := hartEnd_frame m b result s
  rw [h]
  exact Tab.get_upd_same _ _ _ _

theorem queue_hartEnd (m b result : Nat) (s : State) : b ∉ (hartEnd m b result s).hart.queue := by
  obtain ⟨x, e, f, h⟩ := hartEnd_frame m b result s
  rw [h]
  exact filter_ne_not_mem b _

theorem active_hartEnd (m b result : Nat) (s : State) : (modem (hartEnd m b result s) m).active = none := by
  obtain ⟨c, n, h⟩ := (modem_coupleModem m true (updModem m (fun x => { x with
    active := none, tx := false, cd := false, retryWait := false, frame := [], txLeft := 0 }) (hartDone b result s))).1
  exact ((congrArg Modem.active h).trans (congrArg Modem.active (updModem_same m _ _)))

/-! Starting, failing, repeating. -/

theorem exec_hartTransactionStart {m : Fin 8} {c : Fin 80} {b : Nat} {s : State}
    (hc : (modem s m.val).coupled = some c) (hb : hartNext s c.val = some b)
    (h : (domUp s 3 && (modem s m.val).active.isNone && decide ((modem s m.val).deferLeft = 0) && gateAna s c.val
      && hartFits s m.val b) = true) :
    exec (.hartTransactionStart m) s = .next (hartSend m.val b (updDesc b (fun d => { d with state := .active, tries := 0 })
      { s with hart.queue := s.hart.queue.filter (· ≠ b) })) := by
  change execHartTransactionStart m s = _
  unfold execHartTransactionStart
  dsimp only
  rw [hc]
  dsimp only
  rw [hb]
  exact congrArg Host.Outcome.next (if_pos h)

/-- A failed try of the active transaction: RT2, or its end. -/
theorem hartFail_active {m b result : Nat} {s : State} (ha : (modem s m).active = some b)
    (hw : (modem s m).retryWait = false) : hartFail m result s
      = if (desc s b).tries < fld (desc s b).ctl 24 2 then
          updModem m (fun x => { x with tx := false, cd := false, txLeft := 0, retryWait := true }) s
        else hartEnd m b result s := by
  unfold hartFail
  dsimp only
  rw [ha]
  dsimp only
  rw [hw]
  rfl

theorem exec_hartResponse_bad {m : Fin 8} {b : Nat} {f l : List (BitVec 11)} {s : State} (ha : (modem s m.val).active = some b)
    (hw : (modem s m.val).retryWait = false) (hp : hartPasses f l = false) :
    exec (.hartResponse m f l) s = .next (hartFail m.val 2 s) := by
  change execHartResponse m f l s = _
  unfold execHartResponse
  dsimp only
  rw [ha]
  dsimp only
  rw [hw, hp]
  rfl

/-- What a failed try does to its transaction (R171, R177). -/
theorem hartFail_spec {m b result : Nat} {s : State} (ha : (modem s m).active = some b)
    (hw : (modem s m).retryWait = false) :
    ((desc s b).tries < fld (desc s b).ctl 24 2 →
      modem (hartFail m result s) m = { modem s m with tx := false, cd := false, txLeft := 0, retryWait := true }
      ∧ hartFail m result s = { s with hart.modems := (hartFail m result s).hart.modems })
    ∧ (fld (desc s b).ctl 24 2 ≤ (desc s b).tries → (modem (hartFail m result s) m).active = none
      ∧ (desc (hartFail m result s) b).state = .done
      ∧ (desc (hartFail m result s) b).result = BitVec.ofNat 3 result ∧ (desc (hartFail m result s) b).cn = s.course.cn
      ∧ b ∉ (hartFail m result s).hart.queue
      ∧ hartFail m result s = { s with
          hart := (hartFail m result s).hart, evq := (hartFail m result s).evq, free := (hartFail m result s).free }) := by
  refine ⟨fun h => ?_, fun h => ?_⟩
  · have e : hartFail m result s = _ := (hartFail_active ha hw).trans (if_pos h)
    rw [e]
    exact ⟨updModem_same m _ s, rfl⟩
  · have e : hartFail m result s = _ := (hartFail_active ha hw).trans (if_neg (by omega))
    rw [e]
    refine ⟨active_hartEnd _ _ _ _, by rw [desc_hartEnd], by rw [desc_hartEnd], by rw [desc_hartEnd], queue_hartEnd _ _ _ _, ?_⟩
    obtain ⟨x, ev, f, hf⟩ := hartEnd_frame m b result s
    rw [hf]

theorem exec_hartRetry {m : Fin 8} {b : Nat} {s : State} (ha : (modem s m.val).active = some b)
    (hw : (modem s m.val).retryWait = true) :
    exec (.hartRetry m) s = .next (hartSend m.val b (updDesc b (fun d => { d with tries := d.tries + 1 }) s)) := by
  change execHartRetry m s = _
  unfold execHartRetry
  dsimp only
  rw [ha]
  dsimp only
  rw [hw]
  rfl

/-- A descriptor's counters are no part of its frame. -/
theorem hartFrame_updDesc {b : Nat} {f : HartDesc → HartDesc} {s : State} (hr : ∀ d, (f d).req = d.req)
    (hc : ∀ d, (f d).ctl = d.ctl) : hartFrame (updDesc b f s) b = hartFrame s b := by
  unfold hartFrame
  dsimp only
  rw [updDesc_same, hr, hc]
  rfl

/-! A response that passes. -/

theorem exec_hartResponse_good {m : Fin 8} {b : Nat} {lead chars : List (BitVec 11)} {s : State}
    (ha : (modem s m.val).active = some b) (hw : (modem s m.val).retryWait = false)
    (hi : inRam (desc s b).rsp.toNat 264 = true) (hp : hartPasses lead chars = true) :
    exec (.hartResponse m lead chars) s = .next (hartEnd m.val b 0 (updDesc b (fun d => { d with
        rspLen := BitVec.ofNat 9 (((chars.map hartByte).dropLast).take 264).length })
      (ramWrite (desc s b).rsp.toNat (((chars.map hartByte).dropLast).take 264) s))) := by
  change execHartResponse m lead chars s = _
  unfold execHartResponse
  dsimp only
  rw [ha]
  dsimp only
  rw [hw, hp, hi]
  rfl

/-! Commands of the HART page. -/

/-- A command that ends at once: the state it leaves, and the page's header. -/
theorem issueCmd_done {s u : State} {p op r : Nat} {req : Requester} {arg : BitVec 24} {body : State → CmdEnd} {st : CStat}
    (hr : PageReady s p) (hb : body (takeCmd p req op arg s) = .done st r u)
    (hh : u.hdrs = (takeCmd p req op arg s).hdrs) (hs : st ≠ .state) :
    issueCmd p req op arg body s = updHdr p (hdrEnd st r) u
    ∧ hdr (updHdr p (hdrEnd st r) u) p = hdrDone st r (hdr s p) := by
  refine ⟨?_, ?_⟩
  · rw [issueCmd_ready hr, hb]
    exact finishCmd_eq p st r u hs
  · have e : hdr u p = hdr (takeCmd p req op arg s) p := by
      unfold hdr
      rw [hh]
    rw [updHdr_same, e, hdr_takeCmd_same]
    rfl

theorem fld_argument {arg : BitVec 24} (h : arg.toNat < 16) : fld arg 0 4 = arg.toNat := by
  unfold fld
  omega

/-- SUBMIT, CANCEL and RELEASE take their descriptor's number. -/
theorem hartArgument {arg : BitVec 24} (h : arg.toNat < 16) : argOutside arg 0xF = false := argOutside_small 4 h

/-- SUBMIT of a FREE descriptor whose request is legal, by the turn its channel is in (R188). -/
theorem submitBody {req : Requester} {arg : BitVec 24} {s : State} (hr : PageReady s 0x2B) (ha : arg.toNat < 16)
    (hf : (desc s arg.toNat).state = .free) (hl : 4 ≤ fld (desc s arg.toNat).ctl 0 9)
    (hu : fld (desc s arg.toNat).ctl 0 9 ≤ 263) (hab : hartAble s (descChan (desc s arg.toNat)) = true)
    (hg : gateAna s (descChan (desc s arg.toNat)) = true) :
    submitCmd req arg s = updHdr 0x2B (hdrEnd .ok 0) (
      if hartInTurn s (descChan (desc s arg.toNat)) then
        updDesc arg.toNat (fun d => { d with state := .queued, tries := 0, rspLen := 0, result := 0 })
          { takeCmd 0x2B req 1 arg s with hart.queue := s.hart.queue ++ [arg.toNat] }
      else hartDone arg.toNat 5
        (updDesc arg.toNat (fun d => { d with rspLen := 0, tries := 0 }) (takeCmd 0x2B req 1 arg s))) := by
  unfold submitCmd
  rw [issueCmd_ready hr]
  dsimp only
  rw [fld_argument ha, hartArgument ha]
  have e : ∀ k, desc (takeCmd 0x2B req 1 arg s) k = desc s k := fun _ => rfl
  have ei : ∀ k, hartInTurn (takeCmd 0x2B req 1 arg s) k = hartInTurn s k := fun _ => rfl
  have eb : ∀ k, hartAble (takeCmd 0x2B req 1 arg s) k = hartAble s k := fun _ => rfl
  have eg : ∀ k, gateAna (takeCmd 0x2B req 1 arg s) k = gateAna s k := fun _ => rfl
  have hlen : ¬ (decide (fld (desc s arg.toNat).ctl 0 9 < 4) || decide (263 < fld (desc s arg.toNat).ctl 0 9)) = true := by
    simp only [Bool.or_eq_true, decide_eq_true_eq]
    omega
  rw [e, ei, eb, eg, if_neg Bool.false_ne_true, if_neg (not_not_intro hf), if_neg hlen, hab, hg]
  cases hartInTurn s (descChan (desc s arg.toNat)) <;> rfl

theorem updHdr_desc (p : Nat) (f : PageHdr → PageHdr) (s : State) (b : Nat) : desc (updHdr p f s) b = desc s b := rfl

/-- SUBMIT (R188). -/
theorem submit_spec {req : Requester} {arg : BitVec 24} {s : State} (hr : PageReady s 0x2B) (ha : arg.toNat < 16)
    (hf : (desc s arg.toNat).state = .free) (hl : 4 ≤ fld (desc s arg.toNat).ctl 0 9)
    (hu : fld (desc s arg.toNat).ctl 0 9 ≤ 263) (hab : hartAble s (descChan (desc s arg.toNat)) = true)
    (hg : gateAna s (descChan (desc s arg.toNat)) = true) :
    ∃ t, exec (.submit req arg) s = .next t ∧ hdr t 0x2B = hdrDone .ok 0 (hdr s 0x2B)
      ∧ (hartInTurn s (descChan (desc s arg.toNat)) = true → (desc t arg.toNat).state = .queued
        ∧ (desc t arg.toNat).tries = 0 ∧ t.hart.queue = s.hart.queue ++ [arg.toNat])
      ∧ (hartInTurn s (descChan (desc s arg.toNat)) = false → (desc t arg.toNat).state = .done
        ∧ (desc t arg.toNat).result = 5 ∧ (desc t arg.toNat).cn = s.course.cn)
      ∧ (∀ k, k ≠ arg.toNat → desc t k = desc s k)
      ∧ t = { s with hdrs := t.hdrs, hart := t.hart, evq := t.evq, free := t.free } := by
  have he := submitBody (req := req) hr ha hf hl hu hab hg
  have hh : hdr (takeCmd 0x2B req 1 arg s) 0x2B = hdrHeld req 1 arg (hdr s 0x2B) := hdr_takeCmd_same _ _ _ _ _
  refine ⟨_, congrArg Host.Outcome.next he, ?_⟩
  cases hi : hartInTurn s (descChan (desc s arg.toNat)) with
  | true =>
    rw [if_pos rfl]
    refine ⟨?_, fun _ => ⟨?_, ?_, rfl⟩, fun h => absurd h (by decide), fun k hk => ?_, rfl⟩
    · exact (updHdr_same _ _ _).trans (congrArg (hdrEnd .ok 0) hh)
    · rw [updHdr_desc, updDesc_same]
    · rw [updHdr_desc, updDesc_same]
    · rw [updHdr_desc, updDesc_other _ _ _ hk]
      rfl
  | false =>
    rw [if_neg Bool.false_ne_true]
    obtain ⟨e, f, hd⟩ := hartDone_frame arg.toNat 5
      (updDesc arg.toNat (fun d => { d with rspLen := 0, tries := 0 }) (takeCmd 0x2B req 1 arg s))
    refine ⟨?_, fun h => absurd h (by decide), fun _ => ⟨?_, ?_, ?_⟩, fun k hk => ?_, ?_⟩
    · rw [hd]
      exact (updHdr_same _ _ _).trans (congrArg (hdrEnd .ok 0) hh)
    · rw [updHdr_desc, desc_hartDone_same]
    · rw [updHdr_desc, desc_hartDone_same]
      rfl
    · rw [updHdr_desc, desc_hartDone_same]
      rfl
    · rw [updHdr_desc, desc_hartDone_other _ _ _ hk, updDesc_other _ _ _ hk]
      rfl
    · rw [hd]
      rfl

/-- CANCEL of a QUEUED descriptor (R188). -/
theorem hartCancel_spec {req : Requester} {arg : BitVec 24} {s : State} (hr : PageReady s 0x2B) (ha : arg.toNat < 16)
    (hq : (desc s arg.toNat).state = .queued) :
    ∃ t, exec (.hartCancel req arg) s = .next t ∧ hdr t 0x2B = hdrDone .ok 0 (hdr s 0x2B)
      ∧ (desc t arg.toNat).state = .done ∧ (desc t arg.toNat).result = 4 ∧ arg.toNat ∉ t.hart.queue
      ∧ (∀ k, k ≠ arg.toNat → desc t k = desc s k)
      ∧ t = { s with hdrs := t.hdrs, hart := t.hart, evq := t.evq, free := t.free } := by
  have he : hartCancel req arg s = updHdr 0x2B (hdrEnd .ok 0) (hartDone arg.toNat 4 (takeCmd 0x2B req 2 arg s)) := by
    unfold hartCancel
    rw [issueCmd_ready hr]
    dsimp only
    rw [fld_argument ha, hartArgument ha, if_neg Bool.false_ne_true]
    have e : desc (takeCmd 0x2B req 2 arg s) arg.toNat = desc s arg.toNat := rfl
    rw [e, if_pos hq]
    rfl
  have hh : hdr (takeCmd 0x2B req 2 arg s) 0x2B = hdrHeld req 2 arg (hdr s 0x2B) := hdr_takeCmd_same _ _ _ _ _
  obtain ⟨e, f, hd⟩ := hartDone_frame arg.toNat 4 (takeCmd 0x2B req 2 arg s)
  refine ⟨_, congrArg Host.Outcome.next he, ?_, ?_, ?_, queue_hartDone _ _ _, fun k hk => ?_, ?_⟩
  · rw [hd]
    exact (updHdr_same _ _ _).trans (congrArg (hdrEnd .ok 0) hh)
  · rw [updHdr_desc, desc_hartDone_same]
  · rw [updHdr_desc, desc_hartDone_same]
    rfl
  · rw [updHdr_desc, desc_hartDone_other _ _ _ hk]
    rfl
  · rw [hd]
    rfl

/-! Writes of a descriptor's registers. -/

theorem hartDescWrite_free {b : Fin 16} {reg : Fin 3} {v : Word} {s t' : State} (ht : PageTakes s 0x2B)
    (hf : (desc s b.val).state = .free)
    (hu : t' = updDesc b.val (fun d => match reg with
        | 0 => { d with ctl := v &&& 0x03BF01FF }
        | 1 => { d with req := v }
        | 2 => { d with rsp := v }) s) :
    Answers (.hartDescWrite b reg v) s 0x2B hdrCount t' := by
  have e : hartDescWrite b reg v s = countWrite 0x2B t' := by
    unfold hartDescWrite
    rw [pageWriteIf_takes ht, if_pos hf, hu]
    rfl
  refine ⟨_, congrArg Host.Outcome.next e, ?_, fun q hq => ?_, rfl⟩
  · rw [hdr_countWrite_same, hu]
    rfl
  · rw [hdr_countWrite_other _ _ hq, hu]
    rfl

theorem hartDescWrite_taken {b : Fin 16} {reg : Fin 3} {v : Word} {s : State} (ht : PageTakes s 0x2B)
    (hf : (desc s b.val).state ≠ .free) : Answers (.hartDescWrite b reg v) s 0x2B (hdrSticky 1) s := by
  have e : hartDescWrite b reg v s = setSticky 0x2B 1 s := by
    unfold hartDescWrite
    rw [pageWriteIf_takes ht, if_neg hf]
    rfl
  exact ⟨_, congrArg Host.Outcome.next e, hdr_setSticky_same _ _ _, fun q hq => hdr_setSticky_other _ _ _ hq, rfl⟩

/-- Settles O28, by what a transaction's end leaves (`hartDone_frame`, `hartEnd_frame`) in each of its ends. -/
theorem hartTransactions : Obligations.HartTransactions := by
  unfold Obligations.HartTransactions
  refine ⟨?_, ?_, ?_, ?_, ?_, ?_, ?_, ?_, ?_, ?_⟩
  · intro m c b s hc hb hd ha hl hg hf
    have h : (domUp s 3 && (modem s m.val).active.isNone && decide ((modem s m.val).deferLeft = 0) && gateAna s c.val
        && hartFits s m.val b) = true := by
      rw [hd, ha, hl, hg, hf]
      rfl
    refine ⟨_, exec_hartTransactionStart hc hb h, ?_, ?_, ?_, filter_ne_not_mem b _, fun k hk => updModem_other _ _ _ hk,
      fun k hk => ?_, rfl⟩
    · exact congrArg HartDesc.state (updDesc_same b _ _)
    · exact congrArg HartDesc.tries (updDesc_same b _ _)
    · unfold hartSend
      dsimp only
      rw [updModem_same, hartFrame_updDesc (f := fun d => { d with state := .active, tries := 0 })
        (fun _ => rfl) (fun _ => rfl)]
      rfl
    · exact updDesc_other b _ _ hk
  · intro c m b s hc ha hw
    rcases hc with rfl | ⟨f, l, hp, rfl⟩
    · refine ⟨_, rfl, (hartFail_spec ha hw).1, ?_⟩
      rw [if_pos rfl]
      exact (hartFail_spec ha hw).2
    · refine ⟨_, exec_hartResponse_bad ha hw hp, (hartFail_spec ha hw).1, ?_⟩
      rw [if_neg Instr.noConfusion]
      exact (hartFail_spec ha hw).2
  · intro m b s ha hw
    refine ⟨_, exec_hartRetry ha hw, updDesc_same b _ s, ?_, fun k hk => updDesc_other b _ s hk, rfl⟩
    unfold hartSend
    dsimp only
    rw [updModem_same, hartFrame_updDesc (f := fun d => { d with tries := d.tries + 1 }) (fun _ => rfl) (fun _ => rfl),
      ← ha]
    rfl
  · intro m b lead chars s ha hw hi hm hp l
    have hlen : l.length < 2 ^ 9 := Nat.lt_of_le_of_lt (List.length_take_le _ _) (by decide)
    obtain ⟨x, e, f, hf⟩ := hartEnd_frame m.val b 0 (updDesc b (fun d => { d with rspLen := BitVec.ofNat 9 l.length })
      (ramWrite (desc s b).rsp.toNat l s))
    refine ⟨_, exec_hartResponse_good ha hw hi hp, ?_, fun a h => ?_, ?_, ?_, ?_, active_hartEnd _ _ _ _, ?_⟩
    · rw [hf]
      exact Mem.readN_writeN l _ hm
    · rw [hf]
      exact Mem.read_writeN_other l h
    · rw [desc_hartEnd]
    · rw [desc_hartEnd]
      rfl
    · rw [desc_hartEnd]
      refine (congrArg (fun d => d.rspLen.toNat) (updDesc_same b _ _)).trans ?_
      exact (BitVec.toNat_ofNat _ _).trans (Nat.mod_eq_of_lt hlen)
    · rw [hf]
      rfl
  · intro m s hc ha
    have h : ((modem s m.val).coupled.isSome && (modem s m.val).active.isNone) = true := by
      rw [hc, ha]
      rfl
    exact ⟨_, congrArg Host.Outcome.next (if_pos h), updModem_same _ _ s, fun k hk => updModem_other _ _ s hk, rfl⟩
  · intro req arg s hr ha b c hf hl hu hab hg
    exact submit_spec hr ha hf hl hu hab hg
  · intro req arg s hr ha hq
    exact hartCancel_spec hr ha hq
  · intro req arg s hr ha hd
    refine answers_done hr rfl ?_ CStat.noConfusion
    dsimp only
    rw [fld_argument ha, hartArgument ha, if_neg Bool.false_ne_true]
    exact if_pos hd
  · intro b v s ht hf
    exact ⟨hartDescWrite_free ht hf rfl, hartDescWrite_free ht hf rfl, hartDescWrite_free ht hf rfl⟩
  · intro b reg v s ht hf
    exact hartDescWrite_taken ht hf

end Sys2Proof.Machine
end


section
/-! Calibration (ch. 07): the references, the turns of the spares, and the ages. -/

namespace Sys2Proof.Machine

/-! The references. -/

theorem calEvent_evq (code tile detail : Nat) (s : State) :
    ∃ e f, calEvent code tile detail s = { s with evq := e, free := f } := blockEv_evq _ _ _ s

theorem tileCal_calEvent (code tile detail : Nat) (s : State) (k : Nat) :
    tileCal (calEvent code tile detail s) k = tileCal s k := by
  obtain ⟨e, f, h⟩ := calEvent_evq code tile detail s
  rw [h]
  rfl

/-- The comparison of a tile that owes none, by its step from the last good value (R195). -/
theorem exec_transferComparison {n : Fin 10} {v w : Int} {s : State} (hu : tileUp s n.val = true) (hd : domUp s 3 = true)
    (hw : (tileCal s n.val).transfer = some w) (ho : (tileCal s n.val).owesCommit = false) :
    exec (.transferComparison n v) s = .next (
      if (tileCal s n.val).xferFail then
        updTileCal n.val (fun x =>
          { xferJudge (decide ((v - w).natAbs ≤ 1000)) x with
            transfer := if (xferJudge (decide ((v - w).natAbs ≤ 1000)) x).xferFail then x.transfer else some v }) s
      else if 1000 < (v - w).natAbs then
        calEvent 5 n.val (min ((v - w).natAbs / 10) 65535)
          (updTileCal n.val (fun x => { x with xferFail := true, xferOk := 0 }) s)
      else updTileCal n.val (fun x => { x with transfer := some v }) s) := by
  change execTransferComparison n v s = _
  unfold execTransferComparison
  dsimp only
  rw [hu, hd, ho, hw]
  rfl

/-- The comparison that a COMMIT is owed is taken whatever its step (R210). -/
theorem exec_transferComparison_owed {n : Fin 10} {v : Int} {s : State} (hu : tileUp s n.val = true) (hd : domUp s 3 = true)
    (ho : (tileCal s n.val).owesCommit = true) :
    exec (.transferComparison n v) s = .next (updTileCal n.val (fun x =>
      { xferJudge (decide ((match (tileCal s n.val).transfer with
          | some w => (v - w).natAbs
          | none => 0) ≤ 1000)) x with
        transfer := some v, owesCommit := false
        commitTransfer := if x.commitTransfer.isNone || x.owesCommit then some v else x.commitTransfer }) s) := by
  change execTransferComparison n v s = _
  unfold execTransferComparison
  dsimp only
  rw [hu, hd, ho]
  rfl

/-- What clears XFER_FAIL (R195). -/
theorem xferJudge_clears {good : Bool} {x : TileCal} (h : x.xferFail = true) (hc : (xferJudge good x).xferFail = false) :
    2 ≤ x.xferOk ∧ good = true := by
  unfold xferJudge at hc
  rw [h] at hc
  cases good with
  | false => exact absurd (show true = false from hc) (by decide)
  | true =>
    have h3 : ¬ x.xferOk + 1 < 3 := of_decide_eq_false hc
    exact ⟨by omega, rfl⟩

/-- A step within bounds while XFER_FAIL is set (R195). -/
theorem xferJudge_good {x : TileCal} (h : x.xferFail = true) : xferJudge true x
    = { x with xferFail := decide (x.xferOk + 1 < 3), xferOk := if x.xferOk + 1 < 3 then x.xferOk + 1 else 0 } := by
  unfold xferJudge
  rw [h]
  rfl

theorem xferJudge_bad {x : TileCal} : xferJudge false x = { x with xferOk := 0 } := by
  unfold xferJudge
  cases x.xferFail <;> rfl

theorem transferComparison_spec {n : Fin 10} {v w : Int} {s : State} (hu : tileUp s n.val = true) (hd : domUp s 3 = true)
    (hw : (tileCal s n.val).transfer = some w) (ho : (tileCal s n.val).owesCommit = false) :
    let x := tileCal s n.val
    ∃ t, exec (.transferComparison n v) s = .next t
      ∧ (x.xferFail = false → (v - w).natAbs ≤ 1000 → tileCal t n.val = { x with transfer := some v })
      ∧ (x.xferFail = false → 1000 < (v - w).natAbs → tileCal t n.val = { x with xferFail := true, xferOk := 0 })
      ∧ (x.xferFail = true → 1000 < (v - w).natAbs → tileCal t n.val = { x with xferOk := 0 })
      ∧ (x.xferFail = true → (v - w).natAbs ≤ 1000 → x.xferOk < 2 → tileCal t n.val = { x with xferOk := x.xferOk + 1 })
      ∧ (x.xferFail = true → (v - w).natAbs ≤ 1000 → 2 ≤ x.xferOk →
          tileCal t n.val = { x with xferFail := false, xferOk := 0, transfer := some v })
      ∧ (∀ k, k ≠ n.val → tileCal t k = tileCal s k)
      ∧ t = { s with tileCal := t.tileCal, evq := t.evq, free := t.free } := by
  intro x
  refine ⟨_, exec_transferComparison hu hd hw ho, ?_⟩
  by_cases hf : x.xferFail = true
  · rw [if_pos hf]
    have hx : x.xferFail ≠ false := by simp [hf]
    refine ⟨fun h => absurd h hx, fun h => absurd h hx, fun _ hs => ?_, fun _ hs ho => ?_, fun _ hs ho => ?_,
      fun k hk => updTileCal_other _ _ s hk, rfl⟩
    · rw [updTileCal_same, decide_eq_false (by omega), xferJudge_bad]
      exact congrArg (fun y => { x with xferOk := 0, transfer := y }) (if_pos hf)
    · have h3 : x.xferOk + 1 < 3 := by omega
      rw [updTileCal_same, decide_eq_true hs, xferJudge_good hf, if_pos h3, decide_eq_true h3]
      change ({ x with xferFail := true, xferOk := x.xferOk + 1, transfer := x.transfer } : TileCal) = _
      rw [← hf]
    · have h3 : ¬ x.xferOk + 1 < 3 := by omega
      rw [updTileCal_same, decide_eq_true hs, xferJudge_good hf, if_neg h3, decide_eq_false h3]
      rfl
  · have hx : x.xferFail = false := by simpa using hf
    rw [if_neg hf]
    by_cases hs : 1000 < (v - w).natAbs
    · rw [if_pos hs]
      refine ⟨fun _ h => absurd hs (by omega), fun _ _ => ?_, fun h => absurd h hf, fun h => absurd h hf,
        fun h => absurd h hf, fun k hk => ?_, ?_⟩
      · rw [tileCal_calEvent, updTileCal_same]
      · rw [tileCal_calEvent, updTileCal_other _ _ _ hk]
      · obtain ⟨e, f, h⟩ := calEvent_evq 5 n.val (min ((v - w).natAbs / 10) 65535)
          (updTileCal n.val (fun x => { x with xferFail := true, xferOk := 0 }) s)
        rw [h]
        rfl
    · rw [if_neg hs]
      exact ⟨fun _ _ => updTileCal_same _ _ s, fun _ h => absurd h hs, fun h => absurd h hf, fun h => absurd h hf,
        fun h => absurd h hf, fun k hk => updTileCal_other _ _ s hk, rfl⟩

/-- The cross-check, by its difference from the ratio of the last COMMIT (R196). -/
theorem exec_refCrosscheck {ratio : Int} {s : State} (hd : domUp s 3 = true) :
    ∃ s1, (∃ c x y, s1 = { s with cal := { s.cal with ratioLast := c, diff := x, culprit := y } } ∧ c = ratio)
      ∧ exec (.refCrosscheck ratio) s = .next (
        if 2000 < (ratio - s.cal.ratioBase).natAbs then
          if s.cal.refDisagree then { s1 with cal.refDisagree := true, cal.okWalls := 0 }
          else calEvent 1 0xF (min ((ratio - s.cal.ratioBase).natAbs / 10) 65535)
            { s1 with cal.refDisagree := true, cal.okWalls := 0 }
        else if s.cal.refDisagree then
          if 1500 < (ratio - s.cal.ratioBase).natAbs then { s1 with cal.okWalls := 0 }
          else if s.cal.okWalls + 1 < 3 then { s1 with cal.okWalls := s.cal.okWalls + 1 }
          else calEvent 2 0xF ((ratio - s.cal.ratioBase).natAbs / 10) { s1 with cal.okWalls := 0, cal.refDisagree := false }
        else s1) := by
  refine ⟨_, ⟨_, _, _, rfl, rfl⟩, congrArg Host.Outcome.next (if_pos hd)⟩

theorem refCrosscheck_spec {ratio : Int} {s : State} (hd : domUp s 3 = true) :
    let d := (ratio - s.cal.ratioBase).natAbs
    ∃ t, exec (.refCrosscheck ratio) s = .next t ∧ t.cal.ratioLast = ratio
      ∧ (2000 < d → t.cal.refDisagree = true)
      ∧ (d ≤ 2000 → s.cal.refDisagree = false → t.cal.refDisagree = false)
      ∧ (1500 < d → s.cal.refDisagree = true → t.cal.refDisagree = true)
      ∧ (d ≤ 1500 → s.cal.refDisagree = true → s.cal.okWalls < 2 →
          t.cal.refDisagree = true ∧ t.cal.okWalls = s.cal.okWalls + 1)
      ∧ (d ≤ 1500 → s.cal.refDisagree = true → 2 ≤ s.cal.okWalls → t.cal.refDisagree = false)
      ∧ t = { s with cal := t.cal, evq := t.evq, free := t.free } := by
  intro d
  obtain ⟨s1, ⟨c, x, y, hs1, rfl⟩, he⟩ := exec_refCrosscheck (ratio := ratio) hd
  refine ⟨_, he, ?_⟩
  by_cases h2 : 2000 < d
  · rw [if_pos h2]
    by_cases hr : s.cal.refDisagree = true
    · rw [if_pos hr, hs1]
      exact ⟨rfl, fun _ => rfl, fun h => absurd h2 (by omega), fun _ _ => rfl, fun h => absurd h2 (by omega),
        fun h => absurd h2 (by omega), rfl⟩
    · rw [if_neg hr, hs1]
      obtain ⟨e, f, h⟩ := calEvent_evq 1 0xF (min (d / 10) 65535) { s with
        cal := { s.cal with ratioLast := c, diff := x, culprit := y, refDisagree := true, okWalls := 0 } }
      rw [show (c - s.cal.ratioBase).natAbs = d from rfl, h]
      exact ⟨rfl, fun _ => rfl, fun h => absurd h2 (by omega), fun _ _ => rfl, fun h => absurd h2 (by omega),
        fun h => absurd h2 (by omega), rfl⟩
  · rw [if_neg h2]
    by_cases hr : s.cal.refDisagree = true
    · rw [if_pos hr]
      have hn : s.cal.refDisagree ≠ false := by simp [hr]
      by_cases h15 : 1500 < d
      · rw [if_pos h15, hs1]
        exact ⟨rfl, fun h => absurd h h2, fun _ h => absurd h hn, fun _ _ => hr, fun h => absurd h15 (by omega),
          fun h => absurd h15 (by omega), rfl⟩
      · rw [if_neg h15]
        by_cases hk : s.cal.okWalls + 1 < 3
        · rw [if_pos hk, hs1]
          exact ⟨rfl, fun h => absurd h h2, fun _ h => absurd h hn, fun h => absurd h h15, fun _ _ _ => ⟨hr, rfl⟩,
            fun _ _ h => absurd hk (by omega), rfl⟩
        · rw [if_neg hk, hs1]
          obtain ⟨e, f, h⟩ := calEvent_evq 2 0xF (d / 10) { s with
            cal := { s.cal with ratioLast := c, diff := x, culprit := y, okWalls := 0, refDisagree := false } }
          rw [show (c - s.cal.ratioBase).natAbs = d from rfl, h]
          exact ⟨rfl, fun h => absurd h h2, fun _ h => absurd h hn, fun h => absurd h h15,
            fun _ _ h => absurd h (by omega), fun _ _ _ => rfl, rfl⟩
    · rw [if_neg hr, hs1]
      exact ⟨rfl, fun h => absurd h h2, fun _ h => h, fun _ h => absurd h hr, fun _ h => absurd h hr,
        fun _ h => absurd h hr, rfl⟩

/-- Settles O29, by the judgement of XFER_FAIL and the branches of the cross-check. -/
theorem referenceChecks : Obligations.ReferenceChecks := by
  unfold Obligations.ReferenceChecks
  refine ⟨fun n v w s hu hd hw ho => transferComparison_spec hu hd hw ho, fun n v s hu hd ho => ?_,
    fun ratio s hd => refCrosscheck_spec hd⟩
  refine ⟨_, exec_transferComparison_owed hu hd ho, ?_, ?_, ?_, fun hf hc => ?_, fun k hk => updTileCal_other _ _ s hk, rfl⟩
  · rw [updTileCal_same]
  · rw [updTileCal_same, ho, Bool.or_true]
    rfl
  · rw [updTileCal_same]
  · rw [updTileCal_same] at hc
    obtain ⟨h2, hg⟩ := xferJudge_clears hf hc
    refine ⟨h2, fun w hw => ?_⟩
    rw [hw] at hg
    exact of_decide_eq_true hg

end Sys2Proof.Machine
end


section
/-! Calibration (ch. 07): turns of the spares, ages and warm-up. -/

namespace Sys2Proof.Machine

/-! Converters. -/

theorem conv_updConv_same (n c : Nat) (f : Converter → Converter) (s : State) :
    conv (updConv n c f s) n c = f (conv s n c) := by
  unfold conv updConv
  rw [updTileCal_same]
  exact Tab.get_upd_same _ _ _ _

/-- A tile's other fields do not hold its converters. -/
theorem conv_updTileCal (n : Nat) (f : TileCal → TileCal) (s : State) (h : ∀ x, (f x).convs = x.convs) (c : Nat) :
    conv (updTileCal n f s) n c = conv s n c := by
  unfold conv
  rw [updTileCal_same, h]

/-- An event record changes no calibration and no tile. -/
theorem conv_calEvent (code tile detail : Nat) (s : State) (n c : Nat) :
    conv (calEvent code tile detail s) n c = conv s n c := by
  unfold conv
  rw [tileCal_calEvent]

theorem tiles_calEvent (code tile detail : Nat) (s : State) : (calEvent code tile detail s).tiles = s.tiles := by
  obtain ⟨e, f, h⟩ := calEvent_evq code tile detail s
  rw [h]

/-! A step of a turn of tile `n` changes only that tile's calibration and spares. -/

/-- What a turn of tile `n` leaves. -/
def TurnOnly (n : Nat) (s t : State) : Prop :=
  (∀ k, k ≠ n → tileCal t k = tileCal s k ∧ tileGet t k = tileGet s k)
  ∧ t = { s with tileCal := t.tileCal, tiles := t.tiles, evq := t.evq, free := t.free }

theorem TurnOnly.trans {n : Nat} {s t u : State} (h : TurnOnly n s t) (k : TurnOnly n t u) : TurnOnly n s u := by
  obtain ⟨h1, h2⟩ := h
  obtain ⟨k1, k2⟩ := k
  refine ⟨fun i hi => ⟨(k1 i hi).1.trans (h1 i hi).1, (k1 i hi).2.trans (h1 i hi).2⟩, ?_⟩
  rw [k2, h2]

theorem TurnOnly.updTileCal (n : Nat) (f : TileCal → TileCal) (s : State) : TurnOnly n s (updTileCal n f s) :=
  ⟨fun _ hk => ⟨updTileCal_other _ _ s hk, rfl⟩, rfl⟩

theorem TurnOnly.setSpare (n sp : Nat) (r : Option SpareRole) (s : State) : TurnOnly n s (setSpare n sp r s) :=
  ⟨fun _ hk => ⟨rfl, updTile_other _ _ s hk⟩, rfl⟩

theorem TurnOnly.calEvent (n code tile detail : Nat) (s : State) : TurnOnly n s (calEvent code tile detail s) := by
  obtain ⟨e, f, h⟩ := calEvent_evq code tile detail s
  rw [h]
  exact ⟨fun _ _ => ⟨rfl, rfl⟩, rfl⟩

/-! A turn's start and end. -/

theorem startTurn_turns (n c sp : Nat) (s : State) : ∃ x, startTurn n c sp s = updTileCal n (fun y => { y with turns := x }) s
    ∨ startTurn n c sp s = s := by
  unfold startTurn
  split
  · split
    · exact ⟨_, .inl rfl⟩
    · exact ⟨_, .inl rfl⟩
  · exact ⟨{}, .inr rfl⟩

theorem startTurn_turnOnly (n c sp : Nat) (s : State) : TurnOnly n s (startTurn n c sp s) := by
  obtain ⟨x, h | h⟩ := startTurn_turns n c sp s
  · rw [h]
    exact .updTileCal _ _ s
  · rw [h]
    exact ⟨fun _ _ => ⟨rfl, rfl⟩, rfl⟩

theorem conv_startTurn (n c sp : Nat) (s : State) (k : Nat) : conv (startTurn n c sp s) n k = conv s n k := by
  obtain ⟨x, h | h⟩ := startTurn_turns n c sp s
  · rw [h, conv_updTileCal n _ s (fun _ => by rfl)]
  · rw [h]

theorem tiles_startTurn (n c sp : Nat) (s : State) : (startTurn n c sp s).tiles = s.tiles := by
  obtain ⟨x, h | h⟩ := startTurn_turns n c sp s
  · rw [h]
    rfl
  · rw [h]

theorem endTurn_turnOnly (n key : Nat) (s : State) : TurnOnly n s (endTurn n key s) := by
  unfold endTurn
  dsimp only
  split
  · exact (TurnOnly.updTileCal _ _ s).trans (startTurn_turnOnly _ _ _ _)
  · exact .updTileCal _ _ s

theorem conv_endTurn (n key : Nat) (s : State) (k : Nat) : conv (endTurn n key s) n k = conv s n k := by
  unfold endTurn
  dsimp only
  split
  · rw [conv_startTurn, conv_updTileCal n _ s (fun _ => by rfl)]
  · exact conv_updTileCal n _ s (fun _ => by rfl) k

theorem tiles_endTurn (n key : Nat) (s : State) : (endTurn n key s).tiles = s.tiles := by
  unfold endTurn
  dsimp only
  split
  · rw [tiles_startTurn]
    rfl
  · rfl

theorem Tab.get?_erase_same {α : Type} (t : Tab α) (i : Nat) : (t.erase i).get? i = none := Tab.find_filter_same _ _

theorem Tab.get?_set_same {α : Type} (t : Tab α) (i : Nat) (v : α) : (t.set i v).get? i = some v :=
  Tab.find_place_same _ _ _

/-- A turn whose spare holds no order ends. -/
theorem turns_endTurn {n key : Nat} {s : State} (h : (tileCal s n).held.get? key = none) :
    (tileCal (endTurn n key s) n).turns.get? key = none := by
  unfold endTurn
  dsimp only
  rw [h]
  dsimp only
  rw [updTileCal_same]
  exact Tab.get?_erase_same _ _

/-! A calibration's end. -/

/-- The converter as a calibration at wall `mark` leaves it (R200, R201). -/
def calibrated (mark : Nat) (gain offset : Int) (x : Converter) : Converter :=
  { x with
    mark := mark, overdue := false
    consts := if calAccepted x gain offset then some (gain, offset) else x.consts
    rejects := if calAccepted x gain offset then 0 else x.rejects + 1
    out := x.out || (!calAccepted x gain offset && 2 ≤ x.rejects + 1) }

theorem calibrate_cases (n c : Nat) (g o : Int) (s : State) :
    ∃ u, (u = calibrate n c g o s) ∧ conv u n c = calibrated (tileCal s n).walls g o (conv s n c)
      ∧ (tileCal u n).turns = (tileCal s n).turns ∧ TurnOnly n s u := by
  refine ⟨_, rfl, ?_⟩
  have h1 : ∀ f : Converter → Converter, f (conv s n c) = calibrated (tileCal s n).walls g o (conv s n c) →
      conv (updConv n c f s) n c = calibrated (tileCal s n).walls g o (conv s n c)
      ∧ (tileCal (updConv n c f s) n).turns = (tileCal s n).turns ∧ TurnOnly n s (updConv n c f s) := by
    intro f hf
    refine ⟨(conv_updConv_same n c f s).trans hf, ?_, .updTileCal _ _ s⟩
    exact (congrArg TileCal.turns (updTileCal_same n (fun x => { x with convs := x.convs.upd {} c f }) s)).trans rfl
  have h2 := h1 (fun x => { x with
    mark := (tileCal s n).walls, overdue := false
    consts := if calAccepted (conv s n c) g o then some (g, o) else (conv s n c).consts
    rejects := if calAccepted (conv s n c) g o then 0 else (conv s n c).rejects + 1
    out := (conv s n c).out || (!calAccepted (conv s n c) g o && 2 ≤ (conv s n c).rejects + 1) }) rfl
  unfold calibrate
  extract_lets x ok s1
  obtain ⟨hc, ht, hon⟩ := h2
  split
  · rw [conv_calEvent, tileCal_calEvent]
    exact ⟨hc, ht, hon.trans (.calEvent _ _ _ _ _)⟩
  · exact ⟨hc, ht, hon⟩

theorem conv_calibrate (n c : Nat) (g o : Int) (s : State) :
    conv (calibrate n c g o s) n c = calibrated (tileCal s n).walls g o (conv s n c) := by
  obtain ⟨_, rfl, h, _, _⟩ := calibrate_cases n c g o s
  exact h

theorem turns_calibrate (n c : Nat) (g o : Int) (s : State) :
    (tileCal (calibrate n c g o s) n).turns = (tileCal s n).turns := by
  obtain ⟨_, rfl, _, h, _⟩ := calibrate_cases n c g o s
  exact h

theorem calibrate_turnOnly (n c : Nat) (g o : Int) (s : State) : TurnOnly n s (calibrate n c g o s) := by
  obtain ⟨_, rfl, _, _, h⟩ := calibrate_cases n c g o s
  exact h

/-- An accepted calibration of a converter in service leaves it in service. -/
theorem calibrated_accepted {mark : Nat} {g o : Int} {x : Converter} (h : calAccepted x g o = true) (ho : x.out = false) :
    calibrated mark g o x = { x with mark := mark, overdue := false, consts := some (g, o), rejects := 0 } := by
  unfold calibrated
  rw [h, ho]
  rfl

/-- A second rejection in a row puts the converter out of service. -/
theorem calibrated_rejected {mark : Nat} {g o : Int} {x : Converter} (h : calAccepted x g o = false) (hr : 1 ≤ x.rejects) :
    (calibrated mark g o x).out = true ∧ (calibrated mark g o x).consts = x.consts := by
  unfold calibrated
  rw [h]
  refine ⟨?_, rfl⟩
  simp [hr]

/-! The steps of a turn. -/

/-- A turn moves on to step `k`. -/
def moveTurn (n key : Nat) (u : Turn) (k : Nat) (s : State) : State :=
  updTileCal n (fun x => { x with turns := x.turns.set key { u with step := k } }) s

theorem turns_moveTurn (n key : Nat) (u : Turn) (k : Nat) (s : State) :
    (tileCal (moveTurn n key u k s) n).turns.get? key = some { u with step := k } := by
  unfold moveTurn
  rw [updTileCal_same]
  exact Tab.get?_set_same _ _ _

theorem conv_moveTurn (n key : Nat) (u : Turn) (k : Nat) (s : State) (c : Nat) :
    conv (moveTurn n key u k s) n c = conv s n c := conv_updTileCal n _ s (fun _ => by rfl) c

/-- The state a turn's step leaves. -/
def turnStep (n key : Nat) (u : Turn) (g o : Int) (s : State) : State :=
  if u.step = 1 then
    if (conv (calibrate n (16 + key) g o s) n (16 + key)).out then endTurn n key (calibrate n (16 + key) g o s)
    else moveTurn n key u 2 (calibrate n (16 + key) g o s)
  else if u.step = 2 then moveTurn n key u 4 (setSpare n key (some (convRole n u.conv)) s)
  else if u.step = 4 then
    if u.solo then endTurn n key (calibrate n u.conv g o s)
    else if (conv (calibrate n u.conv g o s) n u.conv).out then
      endTurn n key (updConv n u.conv (fun x => { x with served := some key }) (calibrate n u.conv g o s))
    else moveTurn n key u 5 (calibrate n u.conv g o s)
  else endTurn n key (setSpare n key none s)

theorem exec_rotationStepEnd {n : Fin 10} {key : Fin 18} {u : Turn} {g o : Int} {s : State}
    (hu : (tileCal s n.val).turns.get? key.val = some u) :
    exec (.rotationStepEnd n key g o) s = .next (turnStep n.val key.val u g o s) := by
  change execRotationStepEnd n key g o s = _
  unfold execRotationStepEnd
  rw [hu]
  rfl

theorem turnStep_turnOnly (n key : Nat) (u : Turn) (g o : Int) (s : State) : TurnOnly n s (turnStep n key u g o s) := by
  have hm : ∀ k t, TurnOnly n s t → TurnOnly n s (moveTurn n key u k t) := fun k t h => h.trans (.updTileCal _ _ t)
  have he : ∀ t, TurnOnly n s t → TurnOnly n s (endTurn n key t) := fun t h => h.trans (endTurn_turnOnly _ _ t)
  unfold turnStep
  split
  · split
    · exact he _ (calibrate_turnOnly _ _ _ _ s)
    · exact hm _ _ (calibrate_turnOnly _ _ _ _ s)
  · split
    · exact hm _ _ (.setSpare _ _ _ s)
    · split
      · split
        · exact he _ (calibrate_turnOnly _ _ _ _ s)
        · split
          · exact he _ ((calibrate_turnOnly _ _ _ _ s).trans (.updTileCal _ _ _))
          · exact hm _ _ (calibrate_turnOnly _ _ _ _ s)
      · exact he _ (.setSpare _ _ _ s)

theorem turnStep_calibrates {n key : Nat} {u : Turn} {g o : Int} {s : State} (hs : u.step = 1)
    (ho : (conv (calibrate n (16 + key) g o s) n (16 + key)).out = false) :
    turnStep n key u g o s = moveTurn n key u 2 (calibrate n (16 + key) g o s) := by
  unfold turnStep
  rw [if_pos hs, ho]
  rfl

theorem turnStep_rejects {n key : Nat} {u : Turn} {g o : Int} {s : State} (hs : u.step = 1)
    (ho : (conv (calibrate n (16 + key) g o s) n (16 + key)).out = true) :
    turnStep n key u g o s = endTurn n key (calibrate n (16 + key) g o s) := by
  unfold turnStep
  rw [if_pos hs, ho]
  rfl

theorem turnStep_parallel {n key : Nat} {u : Turn} {g o : Int} {s : State} (hs : u.step = 2) :
    turnStep n key u g o s = moveTurn n key u 4 (setSpare n key (some (convRole n u.conv)) s) := by
  unfold turnStep
  rw [hs]
  rfl

theorem turnStep_path {n key : Nat} {u : Turn} {g o : Int} {s : State} (hs : u.step = 4) (hn : u.solo = false)
    (ho : (conv (calibrate n u.conv g o s) n u.conv).out = false) :
    turnStep n key u g o s = moveTurn n key u 5 (calibrate n u.conv g o s) := by
  unfold turnStep
  rw [hs, hn, ho]
  rfl

theorem turnStep_back {n key : Nat} {u : Turn} {g o : Int} {s : State} (hs : u.step = 5) :
    turnStep n key u g o s = endTurn n key (setSpare n key none s) := by
  unfold turnStep
  rw [hs]
  rfl

/-- The spare's own calibration, taken (R198, R200). -/
theorem turnStep_calibrates_spec {n key : Nat} {u : Turn} {g o : Int} {s : State} (hs : u.step = 1)
    (ha : calAccepted (conv s n (16 + key)) g o = true) (ho : (conv s n (16 + key)).out = false) :
    (tileCal (turnStep n key u g o s) n).turns.get? key = some { u with step := 2 }
    ∧ (conv (turnStep n key u g o s) n (16 + key)).consts = some (g, o)
    ∧ (conv (turnStep n key u g o s) n (16 + key)).rejects = 0 := by
  have hc := (conv_calibrate n (16 + key) g o s).trans (calibrated_accepted ha ho)
  rw [turnStep_calibrates hs ((congrArg Converter.out hc).trans ho), conv_moveTurn, hc]
  exact ⟨turns_moveTurn _ _ _ _ _, rfl, rfl⟩

theorem turnStep_path_spec {n key : Nat} {u : Turn} {g o : Int} {s : State} (hs : u.step = 4) (hn : u.solo = false)
    (ha : calAccepted (conv s n u.conv) g o = true) (ho : (conv s n u.conv).out = false) :
    (tileCal (turnStep n key u g o s) n).turns.get? key = some { u with step := 5 }
    ∧ (conv (turnStep n key u g o s) n u.conv).consts = some (g, o)
    ∧ (conv (turnStep n key u g o s) n u.conv).mark = (tileCal s n).walls := by
  have hc := (conv_calibrate n u.conv g o s).trans (calibrated_accepted ha ho)
  rw [turnStep_path hs hn ((congrArg Converter.out hc).trans ho), conv_moveTurn, hc]
  exact ⟨turns_moveTurn _ _ _ _ _, rfl, rfl⟩

/-- Spare 0 takes or leaves its role. -/
theorem spare0_setSpare (n : Nat) (r : Option SpareRole) (s : State) : (tileGet (setSpare n 0 r s) n).spare0 = r :=
  congrArg Tile.spare0 (updTile_same n _ s)

/-! Ages. -/

theorem exec_calAged {d : Half} {s : State} (h : 365 < d.toNat) (hd : s.cal.days.toNat ≤ d.toNat) :
    exec (.calAged d) s = .next (agedEvent s { s with cal.days := d, cal.aged := true }) := by
  have hb : (decide (365 < d.toNat) && decide (s.cal.days.toNat ≤ d.toNat)) = true := by simp [h, hd]
  exact congrArg Host.Outcome.next (if_pos hb)

theorem agedEvent_evq (before s : State) : ∃ e f, agedEvent before s = { s with evq := e, free := f } := by
  unfold agedEvent
  split
  · exact calEvent_evq _ _ _ s
  · exact ⟨_, _, rfl⟩

/-- Settles O30, step by step of a turn (`turnStep`), by what a calibration leaves of its converter (`calibrated`). -/
theorem rotationAndAges : Obligations.RotationAndAges := by
  unfold Obligations.RotationAndAges
  refine ⟨?_, ?_, ?_, ?_⟩
  · intro n key u g o s hu
    refine ⟨_, exec_rotationStepEnd hu, turnStep_calibrates_spec, fun hs ha hr => ?_, fun hs => ?_, turnStep_path_spec,
      fun hs => ?_, turnStep_turnOnly _ _ _ _ _ s⟩
    · have hc := conv_calibrate n.val (16 + key.val) g o s
      obtain ⟨h1, h2⟩ := calibrated_rejected (mark := (tileCal s n.val).walls) ha hr
      rw [turnStep_rejects hs ((congrArg Converter.out hc).trans h1), conv_endTurn, hc]
      exact ⟨h1, h2⟩
    · rw [turnStep_parallel hs]
      refine ⟨turns_moveTurn _ _ _ _ _, fun hk => ?_⟩
      rw [hk]
      exact spare0_setSpare _ _ s
    · rw [turnStep_back hs]
      refine ⟨fun hk => ?_, fun hh => turns_endTurn hh⟩
      have ht := tiles_endTurn n.val key.val (setSpare n.val key.val none s)
      have hg : tileGet (endTurn n.val key.val (setSpare n.val key.val none s)) n.val
          = tileGet (setSpare n.val key.val none s) n.val := by
        unfold tileGet
        rw [ht]
      rw [hg, hk]
      exact spare0_setSpare _ _ s
  · intro n c s hd hk ha hn
    have hb : (domUp s 3 && (convKeys n.val).contains c.val && decide (64 < convAge s n.val c.val)
        && !(conv s n.val c.val).overdue) = true := by
      rw [hd, hk, hn, decide_eq_true ha]
      rfl
    refine ⟨_, congrArg Host.Outcome.next (if_pos hb), ?_, ?_, fun k hk => ?_, ?_⟩
    · rw [conv_calEvent, conv_updConv_same]
    · exact blockEv_raised 0x2A 4 (n.val + min (convAge s n.val c.val) 65535 * 2 ^ 16)
        (updConv n.val c.val (fun x => { x with overdue := true }) s)
    · rw [tileCal_calEvent]
      exact updTileCal_other _ _ s hk
    · obtain ⟨e, f, h⟩ := calEvent_evq 4 n.val (min (convAge s n.val c.val) 65535)
        (updConv n.val c.val (fun x => { x with overdue := true }) s)
      rw [h]
      rfl
  · intro n s hw hl
    have hb : ((tileGet s n.val).warm && decide ((tileGet s n.val).warmLeft = 0)) = true := by
      rw [hw, hl]
      rfl
    obtain ⟨e, f, h⟩ := calEvent_evq 6 n.val 0 (updTile n.val (fun x => { x with warm := false }) s)
    have hr := blockEv_raised 0x2A 6 (n.val + 0 * 2 ^ 16) (updTile n.val (fun x => { x with warm := false }) s)
    refine ⟨_, congrArg Host.Outcome.next (if_pos hb), ?_, ?_, fun k hk => ?_, ?_⟩
    · rw [h]
      exact updTile_same _ _ s
    · rw [Nat.zero_mul, Nat.add_zero] at hr
      exact hr
    · rw [h]
      exact updTile_other _ _ s hk
    · rw [h]
      rfl
  · intro d s h hd
    refine ⟨_, exec_calAged h hd, ?_, fun ha hv => ?_, ?_⟩
    · obtain ⟨e, f, he⟩ := agedEvent_evq s { s with cal.days := d, cal.aged := true }
      rw [he]
    · have hb : (!calAged s && calAged { s with cal.days := d, cal.aged := true }) = true := by
        unfold calAged
        rw [ha, hv]
        rfl
      unfold agedEvent
      rw [if_pos hb]
      exact blockEv_raised 0x2A 7 (0xF + d.toNat * 2 ^ 16) { s with cal.days := d, cal.aged := true }
    · obtain ⟨e, f, he⟩ := agedEvent_evq s { s with cal.days := d, cal.aged := true }
      rw [he]

end Sys2Proof.Machine
end


section
/-! Calibration (ch. 07): field calibration sessions. -/

namespace Sys2Proof.Machine

/-! Fields of a CFG that a session writes. -/

/-- MODE, rate, sub-mode, excitation and filter fields of a CFG. -/
theorem cfgFields_toNat {mode rate sub exc filt : Nat} (hm : mode < 16) (hr : rate < 16) (hs : sub < 4) (he : exc < 2)
    (hf : filt < 8) : (pack 32 [(28, mode), (24, rate), (22, sub), (21, exc), (18, filt)]).toNat
      = mode * 2 ^ 28 + rate * 2 ^ 24 + sub * 2 ^ 22 + exc * 2 ^ 21 + filt * 2 ^ 18 := by
  simp only [pack, List.foldl_cons, List.foldl_nil, BitVec.toNat_ofNat, Nat.zero_add]
  exact Nat.mod_eq_of_lt (by omega)

theorem fld_lt {n : Nat} (w : BitVec n) (lo len : Nat) : fld w lo len < 2 ^ len := Nat.mod_lt _ (Nat.two_pow_pos len)

/-- The CFG of a session's point, as a number. -/
theorem sessionCfg_toNat (s : State) (p : Nat) : ∃ rate exc filt, rate < 16 ∧ exc < 2 ∧ filt < 8 ∧
    (sessionCfg s p).toNat = (if p = 0 then 1 else 3) * 2 ^ 28 + rate * 2 ^ 24 + (if p = 0 then 0 else 2) * 2 ^ 22
      + exc * 2 ^ 21 + filt * 2 ^ 18 := by
  unfold sessionCfg
  extract_lets old f rate
  have hr : rate < 16 := by
    change (if fld old 24 4 ≤ 5 then fld old 24 4 else fld f 8 8 % 6) < 16
    split <;> omega
  have he : (if p = 0 then 0 else fld f 0 1) < 2 := by
    have := fld_lt f 0 1
    split <;> omega
  exact ⟨_, _, _, hr, he, fld_lt old 18 3,
    cfgFields_toNat (by split <;> omega) hr (by split <;> omega) he (fld_lt old 18 3)⟩

theorem sessionCfg_mode (s : State) (p : Nat) : fld (sessionCfg s p) 28 4 = if p = 0 then 1 else 3 := by
  obtain ⟨rate, exc, filt, hr, he, hf, h⟩ := sessionCfg_toNat s p
  rw [fld, h]
  split <;> omega

theorem sessionCfg_wires (s : State) (p : Nat) : fld (sessionCfg s p) 22 2 = if p = 0 then 0 else 2 := by
  obtain ⟨rate, exc, filt, hr, he, hf, h⟩ := sessionCfg_toNat s p
  rw [fld, h]
  split <;> omega

/-! Starting and ending a command that runs. -/

/-- The end of the command that a page runs (R444, R445). -/
theorem endIfRunning_runs {p op r : Nat} {st : CStat} {c : RunCmd} {s : State} (hr : (hdr s p).run = some c)
    (ho : c.op.toNat = op) (hs : st ≠ .state) : endIfRunning p op st r s = updHdr p (hdrEnd st r) s := by
  unfold endIfRunning
  rw [hr]
  dsimp only
  rw [if_pos ho, finishCmd_eq p st r s hs]

/-- A page's argument of few bits. -/
theorem fld_low {k : Nat} {arg : BitVec 24} (h : arg.toNat < 2 ^ k) : fld arg 0 k = arg.toNat := by
  unfold fld
  rw [Nat.pow_zero, Nat.div_one]
  exact Nat.mod_eq_of_lt h

theorem measureCmd_eq {req : Requester} {arg : BitVec 24} {s : State} (hr : PageReady s 0x2A) (ha : arg.toNat < 3)
    (hc : certOk s arg.toNat = true) (hs : s.cal.session = 1) (hg : arg.toNat ≠ 0 → gateUc s s.cal.ch = true) :
    measureCmd req arg s = updUc s.cal.ch (fun u => { u with regs := { u.regs with cfg := sessionCfg s arg.toNat } })
      { takeCmd 0x2A req 2 arg s with cal.session := 2, cal.measuring := arg.toNat, free := s.free + 1 } := by
  unfold measureCmd
  rw [issueCmd_ready hr]
  dsimp only
  rw [fld_low (k := 2) (by omega), show argOutside arg 3 = false from argOutside_small 2 (by omega)]
  have e : certOk (takeCmd 0x2A req 2 arg s) arg.toNat = true := hc
  have hb : (decide ((takeCmd 0x2A req 2 arg s).cal.session ≠ 1) || decide (arg.toNat ≠ 0)
      && !gateUc (takeCmd 0x2A req 2 arg s) (takeCmd 0x2A req 2 arg s).cal.ch) = false := by
    have hs' : (takeCmd 0x2A req 2 arg s).cal.session = 1 := hs
    have hg' : arg.toNat ≠ 0 → gateUc (takeCmd 0x2A req 2 arg s) (takeCmd 0x2A req 2 arg s).cal.ch = true := hg
    by_cases h0 : arg.toNat = 0
    · simp [hs', h0]
    · simp [hs', h0, hg' h0]
  rw [e, decide_eq_false (by omega), hb]
  rfl

/-- MEASURE (R209). -/
theorem measure_spec {req : Requester} {arg : BitVec 24} {s : State} (hr : PageReady s 0x2A) (ha : arg.toNat < 3)
    (hc : certOk s arg.toNat = true) (hs : s.cal.session = 1) (hg : arg.toNat ≠ 0 → gateUc s s.cal.ch = true) :
    ∃ t, exec (.measure req arg) s = .next t ∧ hdr t 0x2A = hdrHeld req 2 arg (hdr s 0x2A)
      ∧ t.cal = { s.cal with session := 2, measuring := arg.toNat }
      ∧ (arg.toNat = 0 → fld (ucGet t s.cal.ch).regs.cfg 28 4 = 1)
      ∧ (arg.toNat ≠ 0 → fld (ucGet t s.cal.ch).regs.cfg 28 4 = 3 ∧ fld (ucGet t s.cal.ch).regs.cfg 22 2 = 2)
      ∧ (∀ k, k ≠ s.cal.ch → ucGet t k = ucGet s k)
      ∧ t = { s with hdrs := t.hdrs, cal := t.cal, ucs := t.ucs, free := t.free } := by
  refine ⟨_, congrArg Host.Outcome.next (measureCmd_eq hr ha hc hs hg), hdr_takeCmd_same 0x2A req 2 arg s, rfl,
    fun h => ?_, fun h => ⟨?_, ?_⟩, fun k hk => updUc_other _ _ _ hk, rfl⟩
  · rw [updUc_same]
    exact (sessionCfg_mode s arg.toNat).trans (if_pos h)
  · rw [updUc_same]
    exact (sessionCfg_mode s arg.toNat).trans (if_neg h)
  · rw [updUc_same]
    exact (sessionCfg_wires s arg.toNat).trans (if_neg h)

theorem setPoint_cal (p : Nat) (x : CalPoint) (s : State) : setPoint p x s = { s with cal := (setPoint p x s).cal } := by
  unfold setPoint
  split
  · rfl
  · split <;> rfl

/-- The measurement's end (R209). -/
theorem measureDone_spec {ok : Bool} {dev : BitVec 24} {r : RunCmd} {s : State} (hs : s.cal.session = 2)
    (hr : (hdr s 0x2A).run = some r) (ho : r.op = 2) :
    let p : CalPoint := if ok then ⟨true, dev⟩ else {}
    ∃ t, exec (.measureDone ok dev) s = .next t
      ∧ t.cal = (if s.cal.measuring = 0 then { s.cal with session := 1, v10 := p }
          else if s.cal.measuring = 1 then { s.cal with session := 1, r100 := p } else { s.cal with session := 1, r10k := p })
      ∧ (hdr t 0x2A).busy = false ∧ (hdr t 0x2A).status = (if ok then 0 else 6)
      ∧ (hdr t 0x2A).result = (if ok then dev else 0) ∧ t = { s with hdrs := t.hdrs, cal := t.cal } := by
  intro p
  have hp : (setPoint s.cal.measuring p { s with cal.session := 1 }).cal
      = if s.cal.measuring = 0 then { s.cal with session := 1, v10 := p }
        else if s.cal.measuring = 1 then { s.cal with session := 1, r100 := p }
        else { s.cal with session := 1, r10k := p } := by
    unfold setPoint
    split
    · rfl
    · split <;> rfl
  have hf := setPoint_cal s.cal.measuring p { s with cal.session := 1 }
  have hh : (hdr (setPoint s.cal.measuring p { s with cal.session := 1 }) 0x2A).run = some r := by
    rw [hf]
    exact hr
  have he : exec (.measureDone ok dev) s = .next (updHdr 0x2A (hdrEnd (if ok then .ok else .hwFault)
      (if ok then dev.toNat else 0)) (setPoint s.cal.measuring p { s with cal.session := 1 })) := by
    refine congrArg Host.Outcome.next ((if_pos hs).trans ?_)
    exact endIfRunning_runs hh (congrArg BitVec.toNat ho) (by cases ok <;> exact CStat.noConfusion)
  refine ⟨_, he, hp, ?_, ?_, ?_, ?_⟩
  · rw [updHdr_same]
    rfl
  · rw [updHdr_same]
    cases ok <;> rfl
  · rw [updHdr_same]
    cases ok with
    | true => exact (BitVec.ofNat_toNat 24 dev).trans (BitVec.setWidth_eq dev)
    | false => rfl
  · rw [hf]
    rfl

/-! COMMIT. -/

/-- Ageing prediction writes its own fields (R207). -/
theorem takeRates_frame (da d100 d10k : Int) (d : Nat) (s : State) : ∃ p b x y z,
    takeRates da d100 d10k d s
      = { s with cal := { s.cal with pred := p, predBase := b, rateA := x, rate100 := y, rate10k := z } } := by
  unfold takeRates
  extract_lets old a b c
  split
  · exact ⟨_, _, _, _, _, rfl⟩
  · exact ⟨_, _, _, _, _, rfl⟩

theorem predict_frame (day : Option Half) (days : Option Nat) (s : State) : ∃ p b q u v w x y z,
    predict day days s = { s with cal := { s.cal with
      pred := p, predBase := b, predDay := q, devA := u, dev100 := v, dev10k := w, rateA := x, rate100 := y
      rate10k := z } } := by
  unfold predict
  extract_lets far _ s1 last
  have h1 : ∃ p b q u v w x y z, s1 = { s with cal := { s.cal with
      pred := p, predBase := b, predDay := q, devA := u, dev100 := v, dev10k := w, rateA := x, rate100 := y
      rate10k := z } } := ⟨_, _, _, _, _, _, _, _, _, rfl⟩
  have ht : ∀ da d100 d10k d, ∃ p b q u v w x y z, takeRates da d100 d10k d s1 = { s with cal := { s.cal with
      pred := p, predBase := b, predDay := q, devA := u, dev100 := v, dev10k := w, rateA := x, rate100 := y
      rate10k := z } } := by
    intro da d100 d10k d
    obtain ⟨p, b, x, y, z, h⟩ := takeRates_frame da d100 d10k d s1
    rw [h]
    exact ⟨_, _, _, _, _, _, _, _, _, rfl⟩
  have hl : ∀ d, ∃ p b q u v w x y z, last d = { s with cal := { s.cal with
      pred := p, predBase := b, predDay := q, devA := u, dev100 := v, dev10k := w, rateA := x, rate100 := y
      rate10k := z } } := fun d => ht _ _ _ d
  clear_value last s1 far
  split
  · split
    · exact hl _
    · exact h1
  · split
    · split
      · exact hl _
      · extract_lets n
        split
        · exact ht _ _ _ _
        · exact h1
      · exact h1
    · split
      · exact ⟨_, _, _, _, _, _, _, _, _, rfl⟩
      · exact ⟨_, _, _, _, _, _, _, _, _, rfl⟩

/-- Every tile of a list owes a comparison (R210). -/
theorem foldl_owes (l : List Nat) : ∀ s : State, ∃ x,
    l.foldl (fun s t => updTileCal t (fun x => { x with owesCommit := true }) s) s = { s with tileCal := x }
      ∧ ∀ k, k ∈ l ∨ (tileCal s k).owesCommit = true → (Tab.get x {} k).owesCommit = true := by
  induction l with
  | nil => exact fun s => ⟨s.tileCal, rfl, fun k hk => hk.resolve_left (List.not_mem_nil)⟩
  | cons n l ih =>
    intro s
    obtain ⟨x, hx, hk⟩ := ih (updTileCal n (fun x => { x with owesCommit := true }) s)
    refine ⟨x, hx, fun k h => hk k ?_⟩
    by_cases hn : k = n
    · subst hn
      exact .inr (congrArg TileCal.owesCommit (updTileCal_same _ _ s))
    · rw [updTileCal_other _ _ s hn]
      exact h.imp_left fun h => (List.mem_cons.mp h).resolve_left hn

/-- The interval since the last COMMIT, if both dates are valid. -/
def commitDays (day : Half) (s : State) : Option Nat :=
  if s.cal.dateValid && s.sup.rtcValid then some (day.toNat - s.cal.lastDay.toNat) else none

/-- The state from which a COMMIT closes its session: the dates and assigned values stored, a comparison owed by every
tile (R210). -/
def committed (day : Half) (s : State) : State :=
  let since := (commitDays day s).getD s.cal.days.toNat
  let a := lessDev (assigned s s.cal.aRef s.cal.rateA since) s.cal.v10.dev
  let b := lessDev (assigned s s.cal.a100 s.cal.rate100 since) s.cal.r100.dev
  let c := lessDev (assigned s s.cal.a10k s.cal.rate10k since) s.cal.r10k.dev
  let s1 := predict (if s.sup.rtcValid then some day else none) (commitDays day s) s
  let s2 := { s1 with
    cal.aRef := a, cal.a100 := b, cal.a10k := c, cal.ratioBase := s.cal.ratioLast
    cal.days := 0, cal.dayCourses := 0, cal.dateValid := s.sup.rtcValid
    cal.lastDay := if s.sup.rtcValid then day else s.cal.lastDay
    cal.aged := false }
  (List.range 10).foldl (fun s t => updTileCal t (fun x => { x with owesCommit := true }) s) s2

theorem exec_commitDone {day : Half} {r : RunCmd} {s : State} (hr : (hdr s 0x2A).run = some r) (ho : r.op = 3) :
    exec (.commitDone day) s = .next (finishCmd 0x2A .ok 0
      (agedEvent s (calEvent 8 0xF (b2n (committed day s).cal.pred) (closeSession (committed day s))))) := by
  change execCommitDone day s = _
  unfold execCommitDone
  rw [hr]
  exact congrArg Host.Outcome.next (if_pos ho)

/-- What a COMMIT stores. -/
theorem committed_spec (day : Half) (s : State) : ∃ c x, committed day s = { s with cal := c, tileCal := x }
    ∧ c.days = 0 ∧ c.aged = false ∧ c.dateValid = s.sup.rtcValid ∧ (s.sup.rtcValid = true → c.lastDay = day)
    ∧ c.ratioBase = s.cal.ratioLast ∧ (s.cal.pred = false → c.aRef = lessDev s.cal.aRef s.cal.v10.dev)
    ∧ c.ch = s.cal.ch ∧ c.savedCfg = s.cal.savedCfg ∧ ∀ k, k < 10 → (Tab.get x {} k).owesCommit = true := by
  unfold committed
  extract_lets since a b c s1 _ s2
  obtain ⟨x, hx, hk⟩ := foldl_owes (List.range 10) s2
  obtain ⟨p, pb, q, u, v, w, ra, rb, rc, h⟩ :=
    predict_frame (if s.sup.rtcValid then some day else none) (commitDays day s) s
  rw [hx]
  refine ⟨s2.cal, x, ?_, rfl, rfl, rfl, fun hv => if_pos hv, rfl, fun hp => ?_, ?_, ?_, fun k h10 =>
    hk k (.inl (List.mem_range.mpr h10))⟩
  · change { s1 with cal := s2.cal, tileCal := x } = _
    change { predict _ _ s with cal := s2.cal, tileCal := x } = _
    rw [h]
  · change lessDev (assigned s s.cal.aRef s.cal.rateA since) _ = _
    unfold assigned
    rw [hp]
    rfl
  · change (predict _ _ s).cal.ch = _
    rw [h]
  · change (predict _ _ s).cal.savedCfg = _
    rw [h]

theorem commitDone_spec {day : Half} {r : RunCmd} {s : State} (hr : (hdr s 0x2A).run = some r) (ho : r.op = 3) :
    ∃ t, exec (.commitDone day) s = .next t ∧ t.cal.session = 0 ∧ t.cal.days = 0 ∧ t.cal.aged = false
      ∧ t.cal.dateValid = s.sup.rtcValid ∧ (s.sup.rtcValid = true → t.cal.lastDay = day)
      ∧ t.cal.ratioBase = s.cal.ratioLast ∧ (∀ k, k < 10 → (tileCal t k).owesCommit = true)
      ∧ (s.cal.pred = false → t.cal.aRef = lessDev s.cal.aRef s.cal.v10.dev)
      ∧ (ucGet t s.cal.ch).regs.cfg = s.cal.savedCfg ∧ (hdr t 0x2A).busy = false ∧ (hdr t 0x2A).status = 0
      ∧ t = { s with hdrs := t.hdrs, cal := t.cal, tileCal := t.tileCal, ucs := t.ucs, evq := t.evq, free := t.free } := by
  obtain ⟨c, x, hcom, hd, ha, hv, hl, hb, hp, hch, hcfg, hk⟩ := committed_spec day s
  have he := exec_commitDone (day := day) hr ho
  rw [hcom] at he
  obtain ⟨e1, f1, h1⟩ := calEvent_evq 8 0xF (b2n c.pred) (closeSession { s with cal := c, tileCal := x })
  obtain ⟨e2, f2, h2⟩ := agedEvent_evq s { closeSession { s with cal := c, tileCal := x } with evq := e1, free := f1 }
  refine ⟨_, he, ?_⟩
  rw [h1, h2, finishCmd_eq 0x2A .ok 0 _ CStat.noConfusion]
  refine ⟨rfl, hd, ha, hv, hl, hb, hk, hp, ?_, ?_, ?_, rfl⟩
  · rw [← hch]
    refine (congrArg (fun u : UcChan => u.regs.cfg) (updUc_same c.ch _ _)).trans ?_
    exact hcfg
  · rw [updHdr_same]
    rfl
  · rw [updHdr_same]
    rfl

/-- Settles O31, by what a COMMIT stores (`committed_spec`) and the CFG of a session (`sessionCfg_mode`). -/
theorem fieldCalibration : Obligations.FieldCalibration := by
  unfold Obligations.FieldCalibration
  refine ⟨?_, fun req arg s => measure_spec, fun ok dev r s => measureDone_spec, ?_,
    fun day r s => commitDone_spec, ?_⟩
  · intro req arg s hr ha hs hm hw hd c
    refine answers_done hr rfl ?_ CStat.noConfusion
    dsimp only
    rw [fld_low (k := 5) (by omega), show argOutside arg 0x1F = false from argOutside_small 5 (by omega)]
    have hb : (decide ((takeCmd 0x2A req 1 arg s).cal.session ≠ 0) || !inMaint (takeCmd 0x2A req 1 arg s) arg.toNat
        || (tileGet (takeCmd 0x2A req 1 arg s) (arg.toNat / 8)).warm || (takeCmd 0x2A req 1 arg s).cal.refDisagree)
        = false := by
      have hs' : (takeCmd 0x2A req 1 arg s).cal.session = 0 := hs
      have hm' : inMaint (takeCmd 0x2A req 1 arg s) arg.toNat = true := hm
      have hw' : (tileGet (takeCmd 0x2A req 1 arg s) (arg.toNat / 8)).warm = false := hw
      have hd' : (takeCmd 0x2A req 1 arg s).cal.refDisagree = false := hd
      rw [hs', hm', hw', hd']
      rfl
    rw [hb]
    rfl
  · intro req s hr hv hr1 hr2 hv' hr1' hr2'
    refine answers_hold hr rfl ?_
    have hb : [s.cal.v10, s.cal.r100, s.cal.r10k].any (fun p => decide (5000 < p.dev.toInt.natAbs)) = false := by
      simp only [List.any_cons, List.any_nil, Bool.or_false, Bool.or_eq_false_iff, decide_eq_false_iff_not]
      exact ⟨by omega, by omega, by omega⟩
    have hw : (!(s.cal.v10.valid && s.cal.r100.valid && s.cal.r10k.valid)) = false := by
      rw [hv, hr1, hr2]
      rfl
    exact (if_neg (not_not_intro rfl)).trans ((if_neg (Bool.not_eq_true _ ▸ hw)).trans (if_neg (Bool.not_eq_true _ ▸ hb)))
  · intro req s hr hs
    refine answers_done hr rfl ?_ CStat.noConfusion
    exact (if_neg (not_not_intro rfl)).trans (if_neg hs)

end Sys2Proof.Machine
end


section
/-! Plans (ch. 02): loading, verification, updates of districts, and the operations of NOR flash. -/

namespace Sys2Proof.Machine

/-! The end of a command that a page runs. -/

theorem hdr_hdrEnd_other (p : Nat) (st : CStat) (r : Nat) (s : State) {q : Nat} (h : q ≠ p) :
    hdr (updHdr p (hdrEnd st r) s) q = hdr s q := updHdr_other p _ s h

/-! Loading and verifying. -/

/-- LOAD_PLAN's verification ends (R46). -/
theorem exec_loadPlanDone {v : Verifying} {s : State} (hv : s.loader.verifying = some v) (ho : v.op = 1)
    (hb : norBusy s v.bank = false) :
    exec .loadPlanDone s = .next (match verifyImage s (readImage s v.bank v.block) (imgRoom v.block) with
      | some (c, d) => updHdr 0x11 (hdrEnd .denied c)
          { setLstat 1 (some (c, d)) { s with loader.verifying := none } with plan.state := s.loader.back }
      | none => updHdr 0x11 (hdrEnd .ok (fld (imgId (readImage s v.bank v.block)) 0 24))
          { setLstat 1 none { s with loader.verifying := none } with
            plan.boot := some (v.bank, v.block)
            plan.alt := s.plan.boot
            plan.districts := ⟨s.plan.districts.cells.map (fun c => (c.1, { c.2 with journal := none }))⟩
            loader.starting := some (v.bank, v.block)
            loader.archive := s.loader.archive ++ [(v.bank, v.block)] }) := by
  change execLoadPlanDone s = _
  unfold execLoadPlanDone
  rw [hv]
  dsimp only
  rw [ho, hb]
  cases verifyImage s (readImage s v.bank v.block) (imgRoom v.block) <;> rfl

theorem exec_verifyDone {v : Verifying} {s : State} (hv : s.loader.verifying = some v) (ho : v.op = 5)
    (hb : norBusy s v.bank = false) :
    exec .verifyDone s = .next (match verifyImage s (readImage s v.bank v.block) (imgRoom v.block) with
      | some (c, d) => updHdr 0x11 (hdrEnd .denied c) (setLstat 5 (some (c, d)) { s with loader.verifying := none })
      | none => updHdr 0x11 (hdrEnd .ok (imgMask (readImage s v.bank v.block)))
          (setLstat 5 none { s with loader.verifying := none })) := by
  change execVerifyDone s = _
  unfold execVerifyDone
  rw [hv]
  dsimp only
  rw [ho, hb]
  cases verifyImage s (readImage s v.bank v.block) (imgRoom v.block) <;> rfl

/-- No verification ends while its bank is worked on (R40). -/
theorem verifications_wait {v : Verifying} {s : State} (hv : s.loader.verifying = some v) (hb : norBusy s v.bank = true) :
    exec .loadPlanDone s = .next s ∧ exec .verifyDone s = .next s ∧ ∀ peer, exec (.updateVerifyDone false peer) s = .next s := by
  have hn : ∀ b : Bool, ¬ (b && !norBusy s v.bank) = true := by
    intro b
    rw [hb]
    cases b <;> exact Bool.false_ne_true
  refine ⟨?_, ?_, fun peer => ?_⟩
  · change execLoadPlanDone s = _
    unfold execLoadPlanDone
    rw [hv]
    exact congrArg Host.Outcome.next (if_neg (hn _))
  · change execVerifyDone s = _
    unfold execVerifyDone
    rw [hv]
    exact congrArg Host.Outcome.next (if_neg (hn _))
  · change execUpdateVerifyDone false peer s = _
    unfold execUpdateVerifyDone
    rw [hv]
    exact congrArg Host.Outcome.next (if_neg (hn _))

theorem Tab.get_map {α : Type} (t : Tab α) (f : α → α) (d : α) (i : Nat) :
    Tab.get ⟨t.cells.map (fun c => (c.1, f c.2))⟩ d i = ((Tab.find t.cells i).map f).getD d := by
  obtain ⟨l⟩ := t
  unfold Tab.get
  dsimp only
  induction l with
  | nil => rfl
  | cons e r ih =>
    obtain ⟨k, x⟩ := e
    simp only [List.map_cons, Tab.find]
    split
    · rfl
    · exact ih

/-- The journal of every district clears (R46). -/
theorem journal_cleared (t : Tab District) (n : Nat) :
    (Tab.get ⟨t.cells.map (fun c => (c.1, { c.2 with journal := none }))⟩ {} n : District).journal = none := by
  rw [Tab.get_map t (fun d => { d with journal := none })]
  cases Tab.find t.cells n <;> rfl

theorem loadPlanDone_spec {v : Verifying} {s : State} (hv : s.loader.verifying = some v) (ho : v.op = 1)
    (hb : norBusy s v.bank = false) :
    let img := readImage s v.bank v.block
    ∃ t, exec .loadPlanDone s = .next t ∧ t.loader.verifying = none ∧ (∀ q, q ≠ 0x11 → hdr t q = hdr s q)
      ∧ (verifyImage s img (imgRoom v.block) = none →
          hdr t 0x11 = hdrEnd .ok (fld (imgId img) 0 24) (hdr s 0x11)
            ∧ t.plan.boot = some (v.bank, v.block) ∧ t.plan.alt = s.plan.boot ∧ t.loader.starting = some (v.bank, v.block)
            ∧ (∀ n, (district t n).journal = none) ∧ t.plan.lcode = 0)
      ∧ (∀ code ds, verifyImage s img (imgRoom v.block) = some (code, ds) →
          hdr t 0x11 = hdrEnd .denied code (hdr s 0x11) ∧ t.plan.boot = s.plan.boot ∧ t.plan.alt = s.plan.alt
            ∧ t.plan.state = s.loader.back ∧ t.plan.lcode = BitVec.ofNat 8 code ∧ t.plan.lds = ds
            ∧ t.loader.starting = s.loader.starting)
      ∧ t.plan.entries = s.plan.entries ∧ t.plan.nor = s.plan.nor
      ∧ t = { s with hdrs := t.hdrs, plan := t.plan, loader := t.loader } := by
  intro img
  refine ⟨_, exec_loadPlanDone hv ho hb, ?_⟩
  cases hr : verifyImage s img (imgRoom v.block) with
  | none =>
    refine ⟨rfl, fun q hq => updHdr_other _ _ _ hq, fun _ => ⟨updHdr_same _ _ _, rfl, rfl, rfl, fun n => ?_, rfl⟩,
      by nofun, rfl, rfl, rfl⟩
    exact journal_cleared s.plan.districts n
  | some f =>
    obtain ⟨c, d⟩ := f
    refine ⟨rfl, fun q hq => updHdr_other _ _ _ hq, by nofun, fun code ds h => ?_, rfl, rfl, rfl⟩
    obtain ⟨rfl, rfl⟩ := Prod.mk.inj (Option.some.inj h)
    exact ⟨updHdr_same _ _ _, rfl, rfl, rfl, rfl, rfl, rfl⟩

theorem verifyDone_spec {v : Verifying} {s : State} (hv : s.loader.verifying = some v) (ho : v.op = 5)
    (hb : norBusy s v.bank = false) :
    let img := readImage s v.bank v.block
    ∃ t, exec .verifyDone s = .next t ∧ t.loader = { s.loader with verifying := none }
      ∧ (verifyImage s img (imgRoom v.block) = none → hdr t 0x11 = hdrEnd .ok (imgMask img) (hdr s 0x11) ∧ t.plan.lcode = 0)
      ∧ (∀ code ds, verifyImage s img (imgRoom v.block) = some (code, ds) →
          hdr t 0x11 = hdrEnd .denied code (hdr s 0x11) ∧ t.plan.lcode = BitVec.ofNat 8 code ∧ t.plan.lds = ds)
      ∧ t.plan = { s.plan with lcode := t.plan.lcode, lopc := 5, lds := t.plan.lds }
      ∧ (∀ q, q ≠ 0x11 → hdr t q = hdr s q) ∧ t = { s with hdrs := t.hdrs, plan := t.plan, loader := t.loader } := by
  intro img
  refine ⟨_, exec_verifyDone hv ho hb, ?_⟩
  cases hr : verifyImage s img (imgRoom v.block) with
  | none =>
    exact ⟨rfl, fun _ => ⟨updHdr_same _ _ _, rfl⟩, by nofun, rfl,
      fun q hq => updHdr_other _ _ _ hq, rfl⟩
  | some f =>
    obtain ⟨c, d⟩ := f
    refine ⟨rfl, by nofun, fun code ds h => ?_, rfl, fun q hq => updHdr_other _ _ _ hq, rfl⟩
    obtain ⟨rfl, rfl⟩ := Prod.mk.inj (Option.some.inj h)
    exact ⟨updHdr_same _ _ _, rfl, rfl⟩

/-- STOP_PLAN in a unit without a claim (R46). -/
theorem stopPlan_spec {req : Requester} {arg : BitVec 24} {s : State} (hr : PageReady s 0x11) (ha : arg.toNat < 2)
    (hc : claimed s = false) :
    (s.plan.state = .running →
      Answers (.stopPlan req arg) s 0x11 (hdrDone .ok 0) { s with loader.stopping := some false })
    ∧ (s.plan.state = .noPlan ∨ s.plan.state = .stopped → Answers (.stopPlan req arg) s 0x11 (hdrDone .ok 0) s) := by
  have ho : argOutside arg 1 = false := argOutside_small 1 ha
  refine ⟨fun h => ?_, fun h => ?_⟩
  · refine answers_done hr rfl ?_ CStat.noConfusion
    dsimp only
    have hp : (takeCmd 0x11 req 0x02 arg s).plan.state = .running := h
    have hc' : claimed (takeCmd 0x11 req 0x02 arg s) = false := hc
    rw [ho, hp, hc']
    rfl
  · refine answers_done hr rfl ?_ CStat.noConfusion
    dsimp only
    rw [ho]
    rcases h with h | h
    · have hp : (takeCmd 0x11 req 0x02 arg s).plan.state = .noPlan := h
      rw [hp]
      rfl
    · have hp : (takeCmd 0x11 req 0x02 arg s).plan.state = .stopped := h
      rw [hp]
      rfl

/-- Settles O32, by the two outcomes of an image's verification. -/
theorem planLoading : Obligations.PlanLoading := by
  unfold Obligations.PlanLoading
  refine ⟨fun req arg s hr ha hc hs => ?_, fun v s => verifications_wait, fun v s => loadPlanDone_spec,
    fun req arg s => stopPlan_spec, fun req arg s hr ha => ?_, fun v s => verifyDone_spec⟩
  · refine answers_hold hr rfl ?_
    dsimp only
    have hb : (claimed (takeCmd 0x11 req 0x01 arg s) || decide ((takeCmd 0x11 req 0x01 arg s).plan.state = .loading)) = false := by
      have hc' : claimed (takeCmd 0x11 req 0x01 arg s) = false := hc
      rw [hc', Bool.false_or]
      exact decide_eq_false hs
    rw [show argOutside arg 0x3FF = false from argOutside_small 10 ha, hb]
    rfl
  · refine answers_hold hr rfl ?_
    dsimp only
    rw [show argOutside arg 0x3FF = false from argOutside_small 10 ha]
    rfl

/-! Updates of districts. -/

/-- No check of an update reads what the loader does. -/
theorem verifyUpdate_loader (s : State) (l : LoaderBlk) (img : List Byte) (room n : Nat) (mixed peer : Bool) :
    verifyUpdate { s with loader := l } img room n mixed peer = verifyUpdate s img room n mixed peer := rfl

/-- The district that an update is taken into. -/
theorem district_acceptUpdate (v : Verifying) (img : List Byte) (s : State) :
    district (acceptUpdate v img s) v.district =
      (fun (steps : List DStep) (d : District) => { d with
        state := .updating, genTo := BitVec.ofNat 8 (dirGen img v.district), total := steps.length, done := 0, steps := steps
        ubank := v.bank, ublock := v.block, newCost0 := max (distCost d 0) (blobCost img v.district 0)
        newCost1 := max (distCost d 1) (blobCost img v.district 1), newLen := d.newLen + dirLen img v.district })
      (updateSteps s.plan.entries (blobEntries img v.district) v.district) (district s v.district) := by
  unfold acceptUpdate
  extract_lets n steps
  exact updDistrict_same _ _ _

/-- An update that has been verified is taken, as a state whose other parts stand. -/
theorem acceptUpdate_frame (v : Verifying) (img : List Byte) (s : State) :
    ∃ x, acceptUpdate v img s = { s with plan.districts := x } := ⟨_, rfl⟩

theorem district_acceptUpdate_other (v : Verifying) (img : List Byte) (s : State) {k : Nat} (hk : k ≠ v.district) :
    district (acceptUpdate v img s) k = district s k := by
  unfold acceptUpdate
  extract_lets n steps
  exact updDistrict_other n _ _ hk

/-- What an accepted update leaves on its page. -/
theorem acceptUpdate_spec (page : Nat) (v : Verifying) (img : List Byte) (s : State) (l : LoaderBlk) (steps : List DStep)
    (hst : steps = updateSteps s.plan.entries (blobEntries img v.district) v.district) :
    ∃ t, finishCmd page .ok (district (acceptUpdate v img (setLstat v.op.toNat none { s with loader := l })) v.district).total
        (acceptUpdate v img (setLstat v.op.toNat none { s with loader := l })) = t
      ∧ hdr t page = hdrEnd .ok steps.length (hdr s page) ∧ (district t v.district).state = .updating
      ∧ (district t v.district).steps = steps ∧ (district t v.district).total = steps.length
      ∧ (district t v.district).done = 0 ∧ (district t v.district).gen = (district s v.district).gen
      ∧ (district t v.district).genTo = BitVec.ofNat 8 (dirGen img v.district)
      ∧ (∀ k, k ≠ v.district → district t k = district s k) ∧ t.plan.entries = s.plan.entries
      ∧ (∀ q, q ≠ page → hdr t q = hdr s q) ∧ t = { s with hdrs := t.hdrs, plan := t.plan, loader := t.loader } := by
  have hd := district_acceptUpdate v img (setLstat v.op.toNat none { s with loader := l })
  have hk := fun k (h : k ≠ v.district) => district_acceptUpdate_other v img (setLstat v.op.toNat none { s with loader := l }) h
  have e : (setLstat v.op.toNat none { s with loader := l }).plan.entries = s.plan.entries := rfl
  rw [e, ← hst] at hd
  obtain ⟨x, hx⟩ := acceptUpdate_frame v img (setLstat v.op.toNat none { s with loader := l })
  refine ⟨_, finishCmd_eq page .ok _ _ CStat.noConfusion, ?_⟩
  rw [hd]
  rw [hx] at hd hk ⊢
  refine ⟨updHdr_same _ _ _, ?_, ?_, ?_, ?_, ?_, ?_, hk, rfl, fun q hq => updHdr_other _ _ _ hq, rfl⟩
  · exact congrArg District.state hd
  · exact congrArg District.steps hd
  · exact congrArg District.total hd
  · exact congrArg District.done hd
  · exact (congrArg District.gen hd).trans rfl
  · exact congrArg District.genTo hd

theorem readImage_loader (s : State) (l : LoaderBlk) (bank : Bool) (block : Nat) :
    readImage { s with loader := l } bank block = readImage s bank block := rfl

/-- The end of an update's verification, by its outcome. -/
theorem endUpdateVerify_eq {page : Nat} {v : Verifying} {peer : Bool} {s : State} {img : List Byte} {r : Fail}
    (hi : readImage s v.bank v.block = img)
    (hr : verifyUpdate s img (imgRoom v.block) v.district (v.prev = .mixed) peer = r) :
    endUpdateVerify page v peer s = match (generalizing := false) r with
      | some (c, _) => finishCmd page .denied c (updDistrict v.district (fun d => { d with state := v.prev })
          (setLstat v.op.toNat r s))
      | none => finishCmd page .ok (district (acceptUpdate v img (setLstat v.op.toNat r s)) v.district).total
          (acceptUpdate v img (setLstat v.op.toNat r s)) := by
  unfold endUpdateVerify
  dsimp only
  rw [hi, hr] <;> rfl

/-- What the end of an update's verification leaves (R52, R54). -/
theorem endUpdateVerify_spec {page : Nat} {v : Verifying} {peer : Bool} {s : State} {l : LoaderBlk} {img : List Byte}
    {r : Fail} {steps : List DStep} (hi : readImage s v.bank v.block = img)
    (hr : verifyUpdate s img (imgRoom v.block) v.district (v.prev = .mixed) peer = r)
    (hst : steps = updateSteps s.plan.entries (blobEntries img v.district) v.district) :
    ∃ t, endUpdateVerify page v peer { s with loader := l } = t
      ∧ (r = none → hdr t page = hdrEnd .ok steps.length (hdr s page) ∧ (district t v.district).state = .updating
          ∧ (district t v.district).steps = steps ∧ (district t v.district).total = steps.length
          ∧ (district t v.district).done = 0 ∧ (district t v.district).gen = (district s v.district).gen
          ∧ (district t v.district).genTo = BitVec.ofNat 8 (dirGen img v.district))
      ∧ (∀ code ds, r = some (code, ds) → hdr t page = hdrEnd .denied code (hdr s page)
          ∧ district t v.district = { district s v.district with state := v.prev }
          ∧ t.plan.lcode = BitVec.ofNat 8 code)
      ∧ (∀ k, k ≠ v.district → district t k = district s k) ∧ t.plan.entries = s.plan.entries
      ∧ (∀ q, q ≠ page → hdr t q = hdr s q) ∧ t = { s with hdrs := t.hdrs, plan := t.plan, loader := t.loader } := by
  have he := endUpdateVerify_eq (page := page) ((readImage_loader s l v.bank v.block).trans hi)
    ((verifyUpdate_loader s l img (imgRoom v.block) v.district (v.prev = .mixed) peer).trans hr)
  rw [he]
  clear he hr hi
  cases r with
  | none =>
    obtain ⟨t, ht, h1, h2, h3, h4, h5, h6, h7, hk, he, hq, hf⟩ := acceptUpdate_spec page v img s l steps hst
    exact ⟨t, ht, fun _ => ⟨h1, h2, h3, h4, h5, h6, h7⟩, by nofun, hk, he, hq, hf⟩
  | some f =>
    obtain ⟨c, d⟩ := f
    refine ⟨_, finishCmd_eq page .denied c _ CStat.noConfusion, by nofun, fun code ds h => ?_,
      fun k hk => updDistrict_other _ _ _ hk, rfl, fun q hq => updHdr_other _ _ _ hq, rfl⟩
    obtain ⟨rfl, rfl⟩ := Prod.mk.inj (Option.some.inj h)
    exact ⟨updHdr_same _ _ _, updDistrict_same _ _ _, rfl⟩

theorem exec_updateVerifyDone {safety peer : Bool} {v : Verifying} {s : State}
    (hv : if safety then s.loader.safeVerifying = some v else s.loader.verifying = some v ∧ v.op = 3)
    (hb : norBusy s v.bank = false) :
    ∃ l, exec (.updateVerifyDone safety peer) s
      = .next (endUpdateVerify (if safety then 0x18 else 0x11) v peer { s with loader := l }) := by
  change ∃ l, execUpdateVerifyDone safety peer s = _
  unfold execUpdateVerifyDone
  cases safety with
  | true =>
    have hv' : s.loader.safeVerifying = some v := hv
    rw [if_pos rfl, hv']
    exact ⟨_, congrArg Host.Outcome.next (if_neg (Bool.not_eq_true _ ▸ hb))⟩
  | false =>
    obtain ⟨hv', ho⟩ : s.loader.verifying = some v ∧ v.op = 3 := hv
    have h : (decide (v.op = 3) && !norBusy s v.bank) = true := by
      rw [hb, decide_eq_true ho]
      rfl
    rw [if_neg Bool.false_ne_true, hv']
    exact ⟨_, congrArg Host.Outcome.next (if_pos h)⟩

/-- ABORT_UPDATE (R60, R61). -/
theorem abortUpdate_spec {req : Requester} {arg : BitVec 24} {s : State} (hr : PageReady s 0x11) (ha : arg.toNat < 16)
    (hd : (district s arg.toNat).state = .updating) :
    ∃ t, exec (.abortUpdate req arg) s = .next t ∧ hdr t 0x11 = hdrDone .ok (district s arg.toNat).done (hdr s 0x11)
      ∧ district t arg.toNat = { district s arg.toNat with state := .mixed, steps := [] }
      ∧ (∀ k, k ≠ arg.toNat → district t k = district s k)
      ∧ Raised s t 2 2 0x11 (arg.toNat + (district s arg.toNat).genTo.toNat * 2 ^ 8
          + (district s arg.toNat).done % 65536 * 2 ^ 16)
      ∧ t = { s with hdrs := t.hdrs, plan.districts := t.plan.districts, evq := t.evq, free := t.free } := by
  have he : abortUpdate req arg s = updHdr 0x11 (hdrEnd .ok (district s arg.toNat).done)
      (planEvent 2 arg.toNat (district s arg.toNat).genTo.toNat (district s arg.toNat).done
        (updDistrict arg.toNat (fun d => { d with state := .mixed, steps := [] }) (takeCmd 0x11 req 0x04 arg s))) := by
    unfold abortUpdate
    rw [issueCmd_ready hr]
    dsimp only
    rw [fld_argument ha, show argOutside arg 0xF = false from hartArgument ha, if_neg Bool.false_ne_true]
    have e : district (takeCmd 0x11 req 0x04 arg s) arg.toNat = district s arg.toNat := rfl
    rw [e, if_pos hd]
    rfl
  have hra := blockEv_raised 0x11 2 (arg.toNat + (district s arg.toNat).genTo.toNat * 2 ^ 8
    + (district s arg.toNat).done % 65536 * 2 ^ 16)
    (updDistrict arg.toNat (fun d => { d with state := .mixed, steps := [] }) (takeCmd 0x11 req 0x04 arg s))
  obtain ⟨e, f, h⟩ := blockEv_evq 0x11 2 (arg.toNat + (district s arg.toNat).genTo.toNat * 2 ^ 8
    + (district s arg.toNat).done % 65536 * 2 ^ 16)
    (updDistrict arg.toNat (fun d => { d with state := .mixed, steps := [] }) (takeCmd 0x11 req 0x04 arg s))
  refine ⟨_, congrArg Host.Outcome.next he, ?_⟩
  unfold planEvent
  rw [h] at hra ⊢
  refine ⟨?_, ?_, fun k hk => ?_, hra, rfl⟩
  · exact (updHdr_same _ _ _).trans (congrArg (hdrEnd .ok _) (hdr_takeCmd_same 0x11 req 0x04 arg s))
  · exact updDistrict_same arg.toNat _ _
  · exact updDistrict_other arg.toNat _ _ hk

/-- Settles O33, by the two outcomes of an update's verification (`endUpdateVerify_spec`). -/
theorem districtUpdates : Obligations.DistrictUpdates := by
  unfold Obligations.DistrictUpdates
  refine ⟨?_, ?_, ?_⟩
  · intro req arg s hr ha n v
    refine ⟨fun h => ?_, fun h hs => ?_⟩
    · refine answers_done hr rfl ?_ CStat.noConfusion
      dsimp only
      rw [ha]
      exact if_pos h
    · refine answers_hold hr rfl ?_
      dsimp only
      rw [ha]
      exact (if_neg (by omega : ¬ n < 4)).trans (if_neg hs)
  · intro safety peer v s hv hb
    obtain ⟨l, he⟩ := exec_updateVerifyDone (peer := peer) hv hb
    obtain ⟨t, ht, h⟩ := endUpdateVerify_spec (page := if safety then 0x18 else 0x11) (v := v) (peer := peer)
      (s := s) (l := l) rfl rfl rfl
    exact ⟨t, he.trans (congrArg Host.Outcome.next ht), h⟩
  · intro req arg s hr ha d hd
    exact abortUpdate_spec hr ha hd

end Sys2Proof.Machine
end


section
/-! Operations of NOR flash (R40 to R42). -/

namespace Sys2Proof.Machine

/-! Bytes of a range that has been written. -/

theorem Mem.readN_length (d : Byte) (m : Mem) (n : Nat) : ∀ a, (m.readN d a n).length = n := by
  induction n with
  | zero => exact fun _ => rfl
  | succ n ih => exact fun a => congrArg (· + 1) (ih (a + 1))

/-- A range filled with one value reads it at every address. -/
theorem Mem.read_writeN_replicate {d : Byte} (b : Byte) (n : Nat) : ∀ {m : Mem} (a i : Nat), m.wf d = true → i < n →
    (m.writeN d a (List.replicate n b)).read d (a + i) = b := by
  induction n with
  | zero => exact fun _ _ _ h => absurd h (Nat.not_lt_zero _)
  | succ n ih =>
    intro m a i hm hi
    rw [List.replicate_succ]
    change ((m.write d a b).writeN d (a + 1) (List.replicate n b)).read d (a + i) = b
    cases i with
    | zero => rw [Mem.read_writeN_other _ (.inl (by omega)), Nat.add_zero, Mem.read_write_same a b hm]
    | succ i =>
      rw [show a + (i + 1) = a + 1 + i by omega]
      exact ih (a + 1) i (Mem.write_wf a b hm) (by omega)

/-! Ends of an operation. -/

theorem planEvent_evq (code district gen count : Nat) (s : State) :
    ∃ e f, planEvent code district gen count s = { s with evq := e, free := f } := blockEv_evq _ _ _ s

/-- The bytes an operation without a failure leaves in its range (R41). -/
def norBytes (o : NorOp) (s : State) : List Byte :=
  if o.erase then List.replicate (65536 * o.count) 0xFF else ramRead s o.src o.len

theorem norDone_frame {o : NorOp} {s : State} (ho : s.loader.norOp = some o) :
    ∃ w e f, norDone true s = { s with
      plan := { s.plan with
        nor := Mem.writeN 0xFF s.plan.nor (norBase o.bank o.block) (norBytes o s), erases := w, norLast := 0 }
      loader := { s.loader with norOp := none }, evq := e, free := f } := by
  unfold norDone
  rw [ho]
  dsimp only
  obtain ⟨e, f, h⟩ := planEvent_evq 5 0 0 0 { s with
    plan := { s.plan with
      nor := Mem.writeN 0xFF s.plan.nor (norBase o.bank o.block)
        (if o.erase then List.replicate (if o.erase then 65536 * o.count else o.len) 0xFF
          else ramRead s o.src (if o.erase then 65536 * o.count else o.len))
      erases := if o.erase then
          (List.range o.count).foldl (fun t i =>
            t.upd 0 ((if o.bank then 512 else 0) + o.block + i) (· + 1)) s.plan.erases
        else s.plan.erases
      norLast := 0 }
    loader := { s.loader with norOp := none } }
  have hb : (if o.erase then List.replicate (if o.erase then 65536 * o.count else o.len) 0xFF
      else ramRead s o.src (if o.erase then 65536 * o.count else o.len)) = norBytes o s := by
    unfold norBytes
    cases o.erase <;> rfl
  rw [hb] at h
  rw [hb]
  exact ⟨_, e, f, h⟩

/-- A record raised after steps that leave the queues, the course number and the domain alone. -/
theorem blockEv_raised_from {s u : State} (page code data : Nat) (hd : domUp u 3 = domUp s 3)
    (he : u.evq.inflight = s.evq.inflight) (hc : u.course.cn = s.course.cn) :
    Raised s (blockEv page code data u) 2 code page data := by
  intro h
  obtain ⟨e, h1, h2, h3⟩ := blockEv_raised page code data u (hd.trans h)
  exact ⟨e, h1.trans (by rw [he]), h2.trans hc, h3⟩

theorem norDone_raised {o : NorOp} {s : State} (ho : s.loader.norOp = some o) : Raised s (norDone true s) 2 5 0x11 0 := by
  unfold norDone
  rw [ho]
  exact blockEv_raised_from 0x11 5 0 rfl rfl rfl

/-- No READ waits: nothing goes on. -/
theorem hostResume_idle {s : State} (h : s.host.waiting = []) : hostResume s = s := by
  unfold hostResume
  rw [h]
  change { s with host := { s.host with waiting := [] } } = s
  rw [← h]

theorem hostResume_one {s : State} {usb : Bool} {command : Byte} {addr : Word} (h : s.host.waiting = [(usb, command, addr)]) :
    hostResume s = hostReadNow usb command addr { s with host.waiting := [] } := by
  unfold hostResume
  rw [h]
  rfl

theorem readWords_length (n : Nat) : ∀ (a : Nat) (s : State), (readWords a n s).2.length = n := by
  induction n with
  | zero => exact fun _ _ => rfl
  | succ n ih => exact fun a s => congrArg (· + 1) (ih (a + 4) _)

/-- The bytes of an operation's range. -/
theorem norBytes_length (o : NorOp) (s : State) :
    (norBytes o s).length = if o.erase then 65536 * o.count else o.len := by
  unfold norBytes
  split
  · exact List.length_replicate
  · exact Mem.readN_length _ _ _ _

theorem norDone_spec {o : NorOp} {s : State} (ho : s.loader.norOp = some o) (hw : s.host.waiting = [])
    (hm : s.plan.nor.wf 0xFF = true) :
    let a := norBase o.bank o.block
    let n := if o.erase then 65536 * o.count else o.len
    ∃ t, exec (.norDone true) s = .next t ∧ t.loader = { s.loader with norOp := none } ∧ t.plan.norLast = 0
      ∧ (o.erase = true → ∀ i, i < n → t.plan.nor.read 0xFF (a + i) = 0xFF)
      ∧ (o.erase = false → norRead t a n = ramRead s o.src n)
      ∧ (∀ b, b < a ∨ a + n ≤ b → t.plan.nor.read 0xFF b = s.plan.nor.read 0xFF b)
      ∧ Raised s t 2 5 0x11 0
      ∧ t.plan = { s.plan with nor := t.plan.nor, erases := t.plan.erases, norLast := 0 }
      ∧ t = { s with plan := t.plan, loader := t.loader, evq := t.evq, free := t.free } := by
  intro a n
  have hr := norDone_raised ho
  have hl : (norBytes o s).length = n := norBytes_length o s
  obtain ⟨w, e, f, h⟩ := norDone_frame ho
  have hres : hostResume (norDone true s) = norDone true s := hostResume_idle (by rw [h]; exact hw)
  refine ⟨_, congrArg Host.Outcome.next hres, ?_⟩
  rw [h] at hr ⊢
  refine ⟨rfl, rfl, fun he i hi => ?_, fun he => ?_, fun b hb => ?_, hr, rfl, rfl⟩
  · have hb : norBytes o s = List.replicate n 0xFF := by
      change norBytes o s = List.replicate (if o.erase then 65536 * o.count else o.len) 0xFF
      unfold norBytes
      rw [he]
      rfl
    rw [hb]
    exact Mem.read_writeN_replicate 0xFF n a i hm hi
  · have hb : norBytes o s = ramRead s o.src n := by
      change norBytes o s = ramRead s o.src (if o.erase then 65536 * o.count else o.len)
      unfold norBytes
      rw [he]
      rfl
    have hx := Mem.readN_writeN (d := 0xFF) (norBytes o s) a hm
    rw [hl] at hx
    exact hx.trans hb
  · exact Mem.read_writeN_other _ (by rw [hl]; exact hb)

/-- A READ that waited gets its words (R40). -/
theorem norDone_resumes {o : NorOp} {usb : Bool} {command : Byte} {addr : Word} {s : State} (ho : s.loader.norOp = some o)
    (hw : s.host.waiting = [(usb, command, addr)]) :
    ∃ w t, exec (.norDone true) s = .next t ∧ t = hostReadNow usb command addr w ∧ w.loader.norOp = none
      ∧ w.host.waiting = [] ∧ (∀ b, w.plan.nor.read 0xFF b = (norDone true s).plan.nor.read 0xFF b)
      ∧ t.resp.hostStatus = some 0xC3 ∧ t.resp.words.length = command.toNat % 16 + 1 ∧ (usb = false → t.host.cs = false) := by
  obtain ⟨x, e, f, h⟩ := norDone_frame ho
  have hres := hostResume_one (s := norDone true s) (usb := usb) (command := command) (addr := addr) (by rw [h]; exact hw)
  refine ⟨_, _, congrArg Host.Outcome.next hres, rfl, ?_, rfl, fun b => rfl, rfl, ?_, fun hu => ?_⟩
  · rw [h]
  · refine (readWords_length (readCount command) _ _).trans ?_
    unfold readCount fld
    omega
  · subst hu
    rfl

/-! The commands. -/

theorem erase_spec {req : Requester} {arg : BitVec 24} {s : State} (hr : PageReady s 0x11)
    (ha : argOutside arg 0xFF03FF = false) (hn : argBlock arg + (fld arg 16 8 + 1) ≤ 512) (ho : s.loader.norOp = none)
    (hh : norHeld s (argBank arg) (argBlock arg) (fld arg 16 8 + 1) = false) :
    Answers (.erase req arg) s 0x11 (hdrDone .ok 0) { s with
      plan.norBank := argBank arg
      loader.norOp := some { erase := true, bank := argBank arg, block := argBlock arg, count := fld arg 16 8 + 1 } } := by
  refine answers_done hr rfl ?_ CStat.noConfusion
  dsimp only
  have ho' : (takeCmd 0x11 req 0x06 arg s).loader.norOp = none := ho
  have hh' : norHeld (takeCmd 0x11 req 0x06 arg s) (argBank arg) (argBlock arg) (fld arg 16 8 + 1) = false := hh
  rw [ha, decide_eq_false (by omega : ¬ 512 < argBlock arg + (fld arg 16 8 + 1)), ho', hh']
  rfl

theorem program_spec {req : Requester} {arg : BitVec 24} {s : State} (hr : PageReady s 0x11) (ha : arg.toNat < 1024)
    (h1 : s.plan.len.toNat % 256 = 0) (h2 : s.plan.len.toNat ≤ 0x1000000) (h3 : s.plan.src.toNat % 4 = 0)
    (h4 : inRam s.plan.src.toNat s.plan.len.toNat = true) (h5 : s.plan.len.toNat ≤ imgRoom (argBlock arg))
    (ho : s.loader.norOp = none)
    (hh : norHeld s (argBank arg) (argBlock arg) ((s.plan.len.toNat + 65535) / 65536) = false)
    (hb : ∀ b ∈ norRead s (norBase (argBank arg) (argBlock arg)) s.plan.len.toNat, b = 0xFF) :
    Answers (.program req arg) s 0x11 (hdrDone .ok 0) { s with
      plan.norBank := argBank arg
      loader.norOp := some {
        bank := argBank arg, block := argBlock arg, count := (s.plan.len.toNat + 65535) / 65536, src := s.plan.src.toNat
        len := s.plan.len.toNat } } := by
  refine answers_done hr rfl ?_ CStat.noConfusion
  dsimp only
  have e : (takeCmd 0x11 req 0x07 arg s).plan = s.plan := rfl
  have ho' : (takeCmd 0x11 req 0x07 arg s).loader.norOp = none := ho
  have hh' : norHeld (takeCmd 0x11 req 0x07 arg s) (argBank arg) (argBlock arg) ((s.plan.len.toNat + 65535) / 65536) = false :=
    hh
  have hb' : (norRead (takeCmd 0x11 req 0x07 arg s) (norBase (argBank arg) (argBlock arg)) s.plan.len.toNat).any (· ≠ 0xFF)
      = false := by
    rw [List.any_eq_false]
    intro b hm
    rw [hb b hm]
    decide
  rw [e, show argOutside arg 0x3FF = false from argOutside_small 10 ha, h4, ho', hh', hb',
    decide_eq_false (not_not_intro h1), decide_eq_false (not_not_intro h3),
    decide_eq_false (Nat.not_lt.mpr h2), decide_eq_false (Nat.not_lt.mpr h5)]
  rfl

/-- Settles O34, by the bytes that an operation leaves in its range (`norDone_frame`). -/
theorem norOperations : Obligations.NorOperations := by
  unfold Obligations.NorOperations
  refine ⟨?_, ?_, fun o s => norDone_spec, fun o usb command addr s => norDone_resumes⟩
  · intro req arg s hr ha n hn ho hh o
    exact erase_spec hr ha hn ho hh
  · intro req arg s hr ha len src n o h1 h2 h3 h4 h5 ho hh hb
    exact program_spec hr ha h1 h2 h3 h4 h5 ho hh hb

end Sys2Proof.Machine
end


section
/-! Maintenance of channels, configuration writes and tile restarts (ch. 04, 05, 10, 17). -/

namespace Sys2Proof.Machine

/-! CHANNEL_MAINT. -/

theorem channelMaint_body {req : Requester} {p : Fin 12} {arg : BitVec 24} {s : State} (hr : PageReady s (maintPage p.val))
    (ha : argOutside arg (if p.val < 10 then 0x107 else 0x11F) = false) :
    let m := maintNum p.val (fld arg 0 (if p.val < 10 then 3 else 5))
    let enter := bitAt arg 8
    (inMaint s m = enter → Answers (.channelMaint req p arg) s (maintPage p.val) (hdrDone .ok 0) s)
    ∧ (inMaint s m ≠ enter → (enter = true → guarded s m = false) →
        (enter = false → 32 ≤ m ∨ modeStepLeft s m = false) →
        Answers (.channelMaint req p arg) s (maintPage p.val) (hdrDone .ok 0)
          { s with maint.asked := s.maint.asked ++ [(m, enter)] }) := by
  intro m enter
  have em : inMaint (takeCmd (maintPage p.val) req 1 arg s) m = inMaint s m := rfl
  refine ⟨fun h => ?_, fun h hg hm => ?_⟩
  · refine answers_done hr rfl ?_ CStat.noConfusion
    dsimp only
    rw [ha, if_neg Bool.false_ne_true]
    exact if_pos (h.symm.trans em.symm)
  · refine answers_done hr rfl ?_ CStat.noConfusion
    dsimp only
    rw [ha, if_neg Bool.false_ne_true]
    refine (if_neg (fun he => h (em.symm.trans he.symm))).trans ?_
    have h1 : ¬ (enter && guarded (takeCmd (maintPage p.val) req 1 arg s) m) = true := by
      intro hb
      obtain ⟨h1, h2⟩ := Bool.and_eq_true_iff.mp hb
      exact Bool.false_ne_true ((hg h1).symm.trans h2)
    have h2 : ¬ (!enter && decide (m < 32) && modeStepLeft (takeCmd (maintPage p.val) req 1 arg s) m) = true := by
      intro hb
      obtain ⟨hb, hl⟩ := Bool.and_eq_true_iff.mp hb
      obtain ⟨he, hm32⟩ := Bool.and_eq_true_iff.mp hb
      rcases hm (by simpa using he) with h3 | h3
      · exact absurd (of_decide_eq_true hm32) (Nat.not_lt.mpr h3)
      · exact Bool.false_ne_true (h3.symm.trans hl)
    exact (if_neg h1).trans (if_neg h2)

/-- A channel that enters maintenance at a boundary (R130, R273). -/
theorem maintBoundary_enters {m : Nat} {s : State} (ha : s.maint.asked = [(m, true)]) (hm : inMaint s m = false) :
    maintBoundary s = enterMaint m { s with maint.asked := [] } := by
  unfold maintBoundary
  rw [ha]
  have h : ¬ inMaint { s with maint.asked := [] } m = true := fun h => Bool.false_ne_true (hm.symm.trans h)
  exact (if_neg h).trans (if_pos rfl)

theorem maint_enterMaint (m : Nat) (s : State) : (enterMaint m s).maint = { s.maint with on := s.maint.on.set m true } := by
  unfold enterMaint
  dsimp only
  split
  · rfl
  · split <;> rfl

theorem maintBoundary_spec {m : Nat} {s : State} (ha : s.maint.asked = [(m, true)]) (hm : inMaint s m = false) :
    inMaint (maintBoundary s) m = true ∧ (maintBoundary s).maint.asked = []
      ∧ (m < 32 → (ucGet (maintBoundary s) m).out.maintHeld = (ucGet s m).out.drive)
      ∧ (80 ≤ m → m < 112 → (dioGet (maintBoundary s) (m - 80)).held = (dioGet s (m - 80)).drive)
      ∧ (∀ k, k ≠ m → inMaint (maintBoundary s) k = inMaint s k) := by
  rw [maintBoundary_enters ha hm]
  have hk := maint_enterMaint m { s with maint.asked := [] }
  refine ⟨?_, ?_, fun h => ?_, fun h1 h2 => ?_, fun k hne => ?_⟩
  · unfold inMaint
    rw [hk]
    exact Tab.get_set_same _ _ _ _
  · rw [hk]
  · unfold enterMaint
    dsimp only
    rw [if_pos h, updUc_same]
    rfl
  · unfold enterMaint
    dsimp only
    rw [if_neg (by omega), if_pos ⟨h1, h2⟩, updDio_same]
    rfl
  · unfold inMaint
    rw [hk]
    exact Tab.get_set_other _ _ _ hne

/-! TILE_RESTART. -/

/-- The plan's registers of an analogue channel change that channel. -/
theorem loadPlanRegs_frame {m : Nat} (h : m < 80) (s : State) : ∃ x y, loadPlanRegs m s = { s with ucs := x, lis := y } := by
  unfold loadPlanRegs
  split
  · exact ⟨_, _, rfl⟩
  · exact ⟨_, _, rfl⟩

/-- A tile's registers at reset and from the plan. -/
theorem tileRegs_frame {n : Nat} (h : n < 10) (s : State) :
    ∃ x y z, tileRegs n s = { s with ucs := x, lis := y, maint.owed := z } := by
  have hl : ∀ (l : List Nat), (∀ k ∈ l, k < 8) → ∀ s : State, ∃ x y z, l.foldl (fun s k =>
      (fun m : Nat => (fun s1 : State => if m < 32 then updUc m (fun u => { u with inForce := u.regs }) s1
        else updLi (m - 32) (fun l => { l with cfgF := l.cfg, parkF := l.park }) s1)
        (loadPlanRegs m { (if m < 32 then updUc m (fun u => { inp := inpKept u.inp, out := outKept u.out }) s
          else updLi (m - 32) (fun _ => {}) s) with
          maint.owed := s.maint.owed.filter (· ≠ m) })) (8 * n + k)) s
      = { s with ucs := x, lis := y, maint.owed := z } := by
    intro l
    induction l with
    | nil => exact fun _ s => ⟨s.ucs, s.lis, s.maint.owed, rfl⟩
    | cons k l ih =>
      intro hk s
      have hm : 8 * n + k < 80 := by
        have := hk k List.mem_cons_self
        omega
      rw [List.foldl_cons]
      dsimp only
      obtain ⟨x, y, hxy⟩ := loadPlanRegs_frame hm { (if 8 * n + k < 32 then
          updUc (8 * n + k) (fun u => { inp := inpKept u.inp, out := outKept u.out }) s
        else updLi (8 * n + k - 32) (fun _ => {}) s) with
        maint.owed := s.maint.owed.filter (· ≠ 8 * n + k) }
      rw [hxy]
      split
      · obtain ⟨x', y', z', h'⟩ := ih (fun k hk' => hk k (List.mem_cons_of_mem _ hk')) (updUc (8 * n + k)
          (fun u => { u with inForce := u.regs }) { s with
            ucs := x, lis := y, maint.owed := s.maint.owed.filter (· ≠ 8 * n + k) })
        exact ⟨x', y', z', h'⟩
      · obtain ⟨x', y', z', h'⟩ := ih (fun k hk' => hk k (List.mem_cons_of_mem _ hk')) (updLi (8 * n + k - 32)
          (fun l => { l with cfgF := l.cfg, parkF := l.park }) { s with
            ucs := x, lis := y, maint.owed := s.maint.owed.filter (· ≠ 8 * n + k) })
        exact ⟨x', y', z', h'⟩
  exact hl (List.range 8) (fun k hk => List.mem_range.mp hk) s

/-- Converters of a tile that has restarted (R201, R435). -/
theorem conv_convsBack (n c : Nat) (s : State) :
    (conv (convsBack n s) n c).out = false ∧ (conv (convsBack n s) n c).consts = (conv s n c).consts := by
  unfold conv convsBack
  rw [updTileCal_same]
  dsimp only
  rw [Tab.get_map _ (fun x : Converter => { x with out := false, rejects := 0, served := none })]
  unfold Tab.get
  change (((Tab.find (tileCal s n).convs.cells c).map _).getD ({} : Converter)).out = false
    ∧ (((Tab.find (tileCal s n).convs.cells c).map _).getD ({} : Converter)).consts = _
  cases Tab.find (tileCal s n).convs.cells c with
  | none => exact ⟨rfl, rfl⟩
  | some x => exact ⟨rfl, rfl⟩

theorem tileRestartDone_spec {n : Fin 10} {r : RunCmd} {s : State} (h1 : (tileGet s n.val).restarting = true)
    (h2 : (tileGet s n.val).back = false) (hd : domUp s (if n.val < 4 then 4 else 5) = true)
    (hr : (hdr s (tilePage n.val)).run = some r) (ho : r.op = 0x10) :
    ∃ t, exec (.tileRestartDone n) s = .next t
      ∧ hdr t (tilePage n.val) = hdrEnd .ok 0 (hdr s (tilePage n.val)) ∧ (∀ q, q ≠ tilePage n.val → hdr t q = hdr s q)
      ∧ tileGet t n.val = { tileGet s n.val with back := true, spare0 := none, spare1 := none }
      ∧ (∀ c, (conv t n.val c).out = false ∧ (conv t n.val c).consts = (conv s n.val c).consts)
      ∧ (∀ k, k ≠ n.val → tileGet t k = tileGet s k ∧ tileCal t k = tileCal s k)
      ∧ t = { s with hdrs := t.hdrs, tiles := t.tiles, tileCal := t.tileCal, ucs := t.ucs, lis := t.lis
                     maint.owed := t.maint.owed } := by
  have hb : ((tileGet s n.val).restarting && !(tileGet s n.val).back && domUp s (if n.val < 4 then 4 else 5)) = true := by
    rw [h1, h2, hd]
    rfl
  obtain ⟨x, y, z, h⟩ := tileRegs_frame n.isLt s
  have he : exec (.tileRestartDone n) s = .next (updHdr (tilePage n.val) (hdrEnd .ok 0)
      (updTile n.val (fun x => { x with back := true }) (convsBack n.val (tileRegs n.val s)))) := by
    refine congrArg Host.Outcome.next ((if_pos hb).trans ?_)
    refine endIfRunning_runs (c := r) ?_ (congrArg BitVec.toNat ho) CStat.noConfusion
    rw [h]
    exact hr
  refine ⟨_, he, ?_⟩
  rw [h]
  refine ⟨updHdr_same _ _ _, fun q hq => updHdr_other _ _ _ hq, ?_, fun c => conv_convsBack n.val c _, fun k hk => ⟨?_, ?_⟩, rfl⟩
  · refine (updTile_same n.val _ _).trans ?_
    exact congrArg (fun x : Tile => { x with back := true }) (updTile_same n.val _ _)
  · refine (updTile_other n.val _ _ hk).trans ?_
    exact updTile_other n.val _ _ hk
  · exact updTileCal_other n.val _ _ hk

/-! Configuration writes. -/

/-- A register write that its block takes, or drops. -/
theorem pageWriteIf_answers {c : Instr} {p : Nat} {s t' : State} {f : State → State × Bool} (ht : PageTakes s p)
    (he : exec c s = .next (pageWriteIf p f s)) (hf : f s = (t', true)) (hh : t'.hdrs = s.hdrs) :
    Answers c s p hdrCount t' := by
  rw [pageWriteIf_takes ht, hf] at he
  have hq : ∀ q, hdr t' q = hdr s q := by
    intro q
    unfold hdr
    rw [hh]
  exact ⟨_, he, (hdr_countWrite_same _ _).trans (congrArg hdrCount (hq p)),
    fun q hne => (hdr_countWrite_other _ _ hne).trans (hq q), rfl⟩

theorem pageWriteIf_drops {c : Instr} {p : Nat} {s t' : State} {f : State → State × Bool} (ht : PageTakes s p)
    (he : exec c s = .next (pageWriteIf p f s)) (hf : f s = (t', false)) : exec c s = .next t' := by
  rw [pageWriteIf_takes ht, hf] at he
  exact he

/-- The three outcomes of a CFG write, by whether the mode is kept and the value is legal. -/
theorem cfgWrite_taken {α : Type} {m : Bool} {x y : Nat} {ok : Bool} {a b c : α} (hk : m = true ∨ x = y) (ho : ok = true) :
    (if (!m && decide (x ≠ y)) = true then a else if (!ok) = true then b else c) = c := by
  have h : ¬ (!m && decide (x ≠ y)) = true := by
    rcases hk with rfl | rfl <;> simp
  rw [if_neg h, ho]
  rfl

theorem cfgWrite_dropped {α : Type} {m : Bool} {x y : Nat} {ok : Bool} {a b c : α}
    (h : ¬ ((m = true ∨ x = y) ∧ ok = true)) :
    (if (!m && decide (x ≠ y)) = true then a else if (!ok) = true then b else c) = if m = true ∨ x = y then b else a := by
  by_cases hk : m = true ∨ x = y
  · have h1 : ¬ (!m && decide (x ≠ y)) = true := by
      rcases hk with rfl | rfl <;> simp
    have h2 : (!ok) = true := by
      rw [Bool.not_eq_true']
      exact Bool.eq_false_iff.mpr fun ho => h ⟨hk, ho⟩
    rw [if_neg h1, if_pos h2, if_pos hk]
  · obtain ⟨h1, h2⟩ := not_or.mp hk
    have h3 : (!m && decide (x ≠ y)) = true := by
      rw [Bool.eq_false_iff.mpr h1, decide_eq_true h2]
      rfl
    rw [if_pos h3, if_neg hk]

theorem ucCfgWrite_spec {c : Fin 80} {v : Word} {s : State} (hc : c.val < 32) (ht : PageTakes s (0x20 + c.val / 8)) :
    let kept := maintNow s c.val = true ∨ fld v 28 4 = ucModeF (ucGet s c.val)
    (kept → ucCfgOk c.val v.toNat = true → Answers (.channelCfgWrite c v) s (0x20 + c.val / 8) hdrCount
      (updUc c.val (fun u => { u with regs := { u.regs with cfg := v &&& 0xFFFC0000 } }) s))
    ∧ (¬ (kept ∧ ucCfgOk c.val v.toNat = true) → ∃ t, exec (.channelCfgWrite c v) s = .next t
        ∧ ucGet t c.val = { ucGet s c.val with sticky := setBit (ucGet s c.val).sticky (if kept then 6 else 5) true }
        ∧ (∀ k, k ≠ c.val → ucGet t k = ucGet s k)
        ∧ t = { s with ucs := t.ucs, evq := t.evq, free := t.free }) := by
  intro kept
  have he : exec (.channelCfgWrite c v) s = .next (ucCfgWrite c.val v s) := congrArg Host.Outcome.next (if_pos hc)
  refine ⟨fun hk ho => pageWriteIf_answers ht he (cfgWrite_taken hk ho) rfl, fun h => ?_⟩
  have hx := pageWriteIf_drops (t' := chanEvent c.val 9
    (fld (ucGet (ucSticky c.val (if kept then 6 else 5) s) c.val).sticky 5 2) (ucSticky c.val (if kept then 6 else 5) s)) ht he
    (by
      refine (cfgWrite_dropped h).trans ?_
      change (if kept then _ else _) = _
      split <;> rfl)
  obtain ⟨e, f, hf⟩ := chanEvent_evq c.val 9
    (fld (ucGet (ucSticky c.val (if kept then 6 else 5) s) c.val).sticky 5 2) (ucSticky c.val (if kept then 6 else 5) s)
  refine ⟨_, hx, ?_⟩
  rw [hf]
  exact ⟨updUc_same _ _ s, fun k hk => updUc_other _ _ s hk, rfl⟩

theorem liCfgWrite_spec {c : Fin 80} {v : Word} {s : State} (hc : 32 ≤ c.val) (ht : PageTakes s (0x20 + c.val / 8)) :
    let n := c.val - 32
    let kept := maintNow s c.val = true ∨ fld v 28 4 = liMode (liGet s n)
    (kept → liCfgOk v.toNat = true → Answers (.channelCfgWrite c v) s (0x20 + c.val / 8) hdrCount
      (updLi n (fun l => { l with cfg := v &&& 0xFFFE0000 }) s))
    ∧ (¬ (kept ∧ liCfgOk v.toNat = true) → ∃ t, exec (.channelCfgWrite c v) s = .next t
        ∧ liGet t n = { liGet s n with sticky := setBit (liGet s n).sticky (if kept then 5 else 4) true }
        ∧ (∀ k, k ≠ n → liGet t k = liGet s k)
        ∧ t = { s with lis := t.lis, evq := t.evq, free := t.free }) := by
  intro n kept
  have he : exec (.channelCfgWrite c v) s = .next (liCfgWrite n v s) := congrArg Host.Outcome.next (if_neg (by omega))
  have hn : 32 + n = c.val := by omega
  have hp : 0x20 + c.val / 8 = tilePage (4 + n / 8) := by
    unfold tilePage
    omega
  rw [hp] at ht ⊢
  unfold liCfgWrite at he
  rw [hn] at he
  refine ⟨fun hk ho => pageWriteIf_answers ht he (cfgWrite_taken hk ho) rfl, fun h => ?_⟩
  have hx := pageWriteIf_drops (t' := liEvent n 9
    (fld (liGet (updLi n (fun l => { l with sticky := setBit l.sticky (if kept then 5 else 4) true }) s) n).sticky 4 2)
    (updLi n (fun l => { l with sticky := setBit l.sticky (if kept then 5 else 4) true }) s)) ht he
    (by
      refine (cfgWrite_dropped h).trans ?_
      change (if kept then _ else _) = _
      split <;> rfl)
  obtain ⟨e, f, hf⟩ := chanEvent_evq (32 + n) 9
    (fld (liGet (updLi n (fun l => { l with sticky := setBit l.sticky (if kept then 5 else 4) true }) s) n).sticky 4 2)
    (updLi n (fun l => { l with sticky := setBit l.sticky (if kept then 5 else 4) true }) s)
  refine ⟨_, hx, ?_⟩
  unfold liEvent
  rw [hf]
  exact ⟨updLi_same _ _ s, fun k hk => updLi_other _ _ s hk, rfl⟩

theorem digEvent_evq (k code detail : Nat) (s : State) : ∃ e f, digEvent k code detail s = { s with evq := e, free := f } :=
  blockEv_evq _ _ _ s

theorem digCfgWrite_spec {k : Fin 64} {v : Word} {s : State} (ht : PageTakes s (digPage k.val)) :
    let di := decide (32 ≤ k.val)
    let kept := inMaint s (80 + k.val) = true ∨ fld v 28 4 = digMode (digGet s k.val)
    (kept → digCfgOk di v.toNat = true → Answers (.digitalCfgWrite k v) s (digPage k.val) hdrCount
      (updDig k.val (fun c => { c with cfg := v &&& (if di then 0xF8000000 else 0xFFFFF000) }) s))
    ∧ (¬ (kept ∧ digCfgOk di v.toNat = true) → ∃ t, exec (.digitalCfgWrite k v) s = .next t
        ∧ digGet t k.val = { digGet s k.val with
            sticky := setBit (digGet s k.val).sticky (if di then (if kept then 2 else 1) else (if kept then 10 else 9)) true }
        ∧ (∀ j, j ≠ k.val → digGet t j = digGet s j)
        ∧ t = { s with dig.chans := t.dig.chans, evq := t.evq, free := t.free }) := by
  intro di kept
  have he : exec (.digitalCfgWrite k v) s = .next (digCfgWrite k.val v s) := rfl
  have hdi : (!decide (k.val < 32)) = di := by
    by_cases h : k.val < 32
    · rw [decide_eq_true h]
      exact (decide_eq_false (by omega)).symm
    · rw [decide_eq_false h]
      exact (decide_eq_true (by omega)).symm
  unfold digCfgWrite at he
  dsimp only at he
  rw [hdi] at he
  refine ⟨fun hk ho => pageWriteIf_answers ht he (cfgWrite_taken hk ho) rfl, fun h => ?_⟩
  have hx : ∃ detail, exec (.digitalCfgWrite k v) s = .next (digEvent k.val 0x0C detail (digSticky k.val
      (if di then (if kept then 2 else 1) else (if kept then 10 else 9)) s)) := by
    have hd := cfgWrite_dropped (α := State × Bool)
      (a := (digEvent k.val 0x0C (if di then 2 * fld (digGet (digSticky k.val (if di then 1 else 9) s) k.val).sticky 1 2
        else fld (digGet (digSticky k.val (if di then 1 else 9) s) k.val).sticky 8 3)
        (digSticky k.val (if di then 1 else 9) s), false))
      (b := (digEvent k.val 0x0C (if di then 2 * fld (digGet (digSticky k.val (if di then 2 else 10) s) k.val).sticky 1 2
        else fld (digGet (digSticky k.val (if di then 2 else 10) s) k.val).sticky 8 3)
        (digSticky k.val (if di then 2 else 10) s), false))
      (c := (updDig k.val (fun c => { c with cfg := v &&& (if di then 0xF8000000 else 0xFFFFF000) }) s, true)) h
    by_cases hk : kept
    · rw [if_pos hk] at hd ⊢
      rw [if_pos hk]
      exact ⟨_, pageWriteIf_drops ht he hd⟩
    · rw [if_neg hk] at hd ⊢
      rw [if_neg hk]
      exact ⟨_, pageWriteIf_drops ht he hd⟩
  obtain ⟨detail, hx⟩ := hx
  obtain ⟨e, f, hf⟩ := digEvent_evq k.val 0x0C detail (digSticky k.val
    (if di then (if kept then 2 else 1) else (if kept then 10 else 9)) s)
  refine ⟨_, hx, ?_⟩
  rw [hf]
  exact ⟨updDig_same _ _ s, fun j hj => updDig_other _ _ s hj, rfl⟩

/-! TEST writes. -/

/-- TEST is taken when it is 0 or the channel is in maintenance, and otherwise dropped. -/
theorem testWrite_taken {α : Type} {b m : Bool} {x y : α} (h : b = false ∨ m = true) :
    (if (b && !m) = true then x else y) = y := by
  rcases h with rfl | rfl
  · rfl
  · rw [Bool.not_true, Bool.and_false]
    rfl

theorem testWrite_dropped {α : Type} {b m : Bool} {x y : α} (hb : b = true) (hm : m = false) :
    (if (b && !m) = true then x else y) = x := by
  rw [hb, hm]
  rfl

/-- Settles O38, write by write and command by command. -/
theorem maintenanceAndConfiguration : Obligations.MaintenanceAndConfiguration := by
  unfold Obligations.MaintenanceAndConfiguration
  refine ⟨fun req p arg s hr ha => channelMaint_body hr ha, fun m s => maintBoundary_spec, ?_,
    fun n r s => tileRestartDone_spec, fun c v s => ucCfgWrite_spec, fun c v s => liCfgWrite_spec,
    fun k v s => digCfgWrite_spec, ?_, ?_⟩
  · intro req n s hr hs hg
    refine answers_hold hr rfl ?_
    have hb : ¬ (notInService (takeCmd (tilePage n.val) req 0x10 0 s) || tileGuarded (takeCmd (tilePage n.val) req 0x10 0 s) n.val)
        = true := by
      have h1 : notInService (takeCmd (tilePage n.val) req 0x10 0 s) = false := hs
      have h2 : tileGuarded (takeCmd (tilePage n.val) req 0x10 0 s) n.val = false := hg
      rw [h1, h2]
      exact Bool.false_ne_true
    exact (if_neg (not_not_intro rfl)).trans (if_neg hb)
  · intro n v s ht
    have he : exec (.outputTestWrite true n v) s = .next (ucOctlWrite n.val v s) := rfl
    unfold ucOctlWrite at he
    refine ⟨fun h => ?_, fun hb hm => ?_⟩
    · exact pageWriteIf_answers (t' := updUc n.val (fun u => { u with regs := { u.regs with octl := v &&& 0x83003FFF } }) s)
        ht he (testWrite_taken h) rfl
    · exact pageWriteIf_drops (t' := updUc n.val (fun u => { u with osticky := setBit u.osticky 0 true }) s)
        ht he (testWrite_dropped hb hm)
  · intro n v s ht
    have he : exec (.outputTestWrite false n v) s = .next (dioOctlWrite n.val v s) := rfl
    unfold dioOctlWrite at he
    refine ⟨fun h => ?_, fun hb hm => ?_⟩
    · exact pageWriteIf_answers (t' := updDig n.val (fun c => { c with octl := v &&& 0x80000001 }) s)
        ht he (testWrite_taken h) rfl
    · have hx := pageWriteIf_drops (t' := digEvent n.val 0x0C (fld (digGet (digSticky n.val 8 s) n.val).sticky 8 3)
        (digSticky n.val 8 s)) (c := .outputTestWrite false n v) ht he (testWrite_dropped hb hm)
      obtain ⟨e, f, hf⟩ := digEvent_evq n.val 0x0C (fld (digGet (digSticky n.val 8 s) n.val).sticky 8 3) (digSticky n.val 8 s)
      refine ⟨_, hx, ?_⟩
      rw [hf]
      exact ⟨updDig_same _ _ s, fun j hj => updDig_other _ _ s hj, rfl⟩

end Sys2Proof.Machine
end


section
/-! Digital inputs, wire breaks, lamps and the readback of drivers (ch. 10). -/

namespace Sys2Proof.Machine

/-! What an operation on one DIO leaves. -/

/-- Only DIO `n`'s driver and digital channel change, to `o` and `c`, and records may leave. -/
structure DioChange (n : Nat) (o : DioOut) (c : DigChan) (s t : State) : Prop where
  dio : dioGet t n = o
  dig : digGet t n = c
  others : ∀ k, k ≠ n → dioGet t k = dioGet s k ∧ digGet t k = digGet s k
  frame : t = { s with dig.outs := t.dig.outs, dig.chans := t.dig.chans, evq := t.evq, free := t.free }

theorem DioChange.refl (n : Nat) (s : State) : DioChange n (dioGet s n) (digGet s n) s s :=
  ⟨rfl, rfl, fun _ _ => ⟨rfl, rfl⟩, rfl⟩

theorem DioChange.updDio {n : Nat} {o : DioOut} {c : DigChan} {s t : State} (h : DioChange n o c s t)
    (f : DioOut → DioOut) : DioChange n (f o) c s (updDio n f t) := by
  obtain ⟨h1, h2, h3, h4⟩ := h
  refine ⟨by rw [updDio_same, h1], h2, fun k hk => ⟨(updDio_other _ _ _ hk).trans (h3 k hk).1, (h3 k hk).2⟩, ?_⟩
  rw [h4]
  rfl

theorem DioChange.updDig {n : Nat} {o : DioOut} {c : DigChan} {s t : State} (h : DioChange n o c s t)
    (f : DigChan → DigChan) : DioChange n o (f c) s (updDig n f t) := by
  obtain ⟨h1, h2, h3, h4⟩ := h
  refine ⟨h1, by rw [updDig_same, h2], fun k hk => ⟨(h3 k hk).1, (updDig_other _ _ _ hk).trans (h3 k hk).2⟩, ?_⟩
  rw [h4]
  rfl

theorem DioChange.sticky {n : Nat} {o : DioOut} {c : DigChan} {s t : State} (h : DioChange n o c s t) (bit : Nat) :
    DioChange n o { c with sticky := setBit c.sticky bit true } s (digSticky n bit t) :=
  h.updDig (fun c => { c with sticky := setBit c.sticky bit true })

theorem DioChange.event {n : Nat} {o : DioOut} {c : DigChan} {s t : State} (h : DioChange n o c s t)
    (k code detail : Nat) : DioChange n o c s (digEvent k code detail t) := by
  obtain ⟨h1, h2, h3, h4⟩ := h
  obtain ⟨e, f, he⟩ := digEvent_evq k code detail t
  rw [he]
  refine ⟨h1, h2, h3, ?_⟩
  rw [h4]

theorem DioChange.ite {n : Nat} {o : DioOut} {c d : DigChan} {s t u : State} {p : Prop} [Decidable p]
    (h : DioChange n o c s t) (k : DioChange n o d s u) :
    DioChange n o (if p then c else d) s (if p then t else u) := by
  split
  · exact h
  · exact k

/-- Sticky bits of a channel. -/
theorem sticky_set (w : Word) {i : Nat} (h : i < 32) : bitAt (setBit w i true) i = true := bitAt_setBit_same w h true

/-- A driver's change with a record, where no sticky bit is set. -/
theorem updDio_event (n code detail : Nat) (f : DioOut → DioOut) (s : State) :
    ∃ t, t = digEvent n code detail (updDio n f s) ∧ dioGet t n = f (dioGet s n)
      ∧ (∀ k, k ≠ n → dioGet t k = dioGet s k) ∧ t = { s with dig.outs := t.dig.outs, evq := t.evq, free := t.free } := by
  obtain ⟨e, g, h⟩ := digEvent_evq n code detail (updDio n f s)
  refine ⟨_, rfl, ?_⟩
  rw [h]
  exact ⟨updDio_same _ _ s, fun k hk => updDio_other _ _ s hk, rfl⟩

/-! Debounce. -/

theorem genOf_lt (s : State) (ty t : Nat) : genOf s ty t < 256 := by
  unfold genOf
  split
  · exact BitVec.isLt _
  · exact Nat.zero_lt_succ _

/-- A digital event's DATA with the time of its sample (R289). -/
theorem digRecord_toNat {a g l u : Nat} (ha : a < 256) (hg : g < 256) (hl : l < 2) (hu : u < 65536) :
    (BitVec.ofNat 96 (a + g * 2 ^ 8 + l * 2 ^ 16 + u * 2 ^ 32)).toNat = a + g * 2 ^ 8 + l * 2 ^ 16 + u * 2 ^ 32 := by
  rw [BitVec.toNat_ofNat]
  exact Nat.mod_eq_of_lt (by omega)

theorem digRecord_fields {a g u : Nat} {l : Bool} (ha : a < 256) (hg : g < 256) (hu : u < 65536) :
    fld (BitVec.ofNat 96 (a + g * 2 ^ 8 + b2n l * 2 ^ 16 + u * 2 ^ 32)) 0 8 = a
    ∧ bitAt (BitVec.ofNat 96 (a + g * 2 ^ 8 + b2n l * 2 ^ 16 + u * 2 ^ 32)) 16 = l
    ∧ fld (BitVec.ofNat 96 (a + g * 2 ^ 8 + b2n l * 2 ^ 16 + u * 2 ^ 32)) 8 8 = g
    ∧ fld (BitVec.ofNat 96 (a + g * 2 ^ 8 + b2n l * 2 ^ 16 + u * 2 ^ 32)) 32 16 = u := by
  have hl : b2n l < 2 := by cases l <;> decide
  have h := digRecord_toNat ha hg hl hu
  refine ⟨?_, ?_, ?_, ?_⟩
  · rw [fld, h]
    omega
  · unfold bitAt
    rw [← BitVec.testBit_toNat, h, Nat.testBit_eq_decide_div_mod_eq]
    have e : (a + g * 2 ^ 8 + b2n l * 2 ^ 16 + u * 2 ^ 32) / 2 ^ 16 % 2 = b2n l := by omega
    rw [e]
    cases l <;> rfl
  · rw [fld, h]
    omega
  · rw [fld, h]
    omega

theorem raiseEvAt_frame (cn : Word) (cls code source : Nat) (data : BitVec 96) (s : State) :
    ∃ e f, raiseEvAt cn cls code source data s = { s with evq := e, free := f } := by
  unfold raiseEvAt
  split
  · exact ⟨_, _, rfl⟩
  · exact ⟨_, _, rfl⟩

theorem raiseEvAt_raised {cn : Word} {cls code source : Nat} {data : BitVec 96} {s : State} (h : domUp s 3 = true) :
    ∃ e : EventRec, (raiseEvAt cn cls code source data s).evq.inflight = s.evq.inflight ++ [e] ∧ e.cn = cn
      ∧ e.cls = BitVec.ofNat 8 cls ∧ e.code = BitVec.ofNat 8 code ∧ e.source = BitVec.ofNat 16 source ∧ e.data = data := by
  unfold raiseEvAt
  rw [if_pos h]
  exact ⟨_, rfl, rfl, rfl, rfl, rfl, rfl⟩

/-- The state in which a debounce is judged: the input current of a DI without wire-break mode is measured (R266). -/
def measured (k : Nat) (mv : Int) (limit : Fin 1001) (s : State) : State :=
  if 32 ≤ k && digMode (digGet s k) = 1 && !bitAt (digGet s k).cfgF 27 then
    updDig k (fun c => { c with current := inputCurrent limit mv }) s
  else s

/-- The current that a debounce leaves. -/
def measuredCurrent (k : Nat) (mv : Int) (limit : Fin 1001) (c : DigChan) : Half :=
  if 32 ≤ k && digMode c = 1 && !bitAt c.cfgF 27 then inputCurrent limit mv else c.current

theorem digGet_measured (k : Nat) (mv : Int) (limit : Fin 1001) (s : State) :
    digGet (measured k mv limit s) k = { digGet s k with current := measuredCurrent k mv limit (digGet s k) } := by
  unfold measured measuredCurrent
  split
  · exact updDig_same _ _ s
  · rfl

theorem measured_frame (k : Nat) (mv : Int) (limit : Fin 1001) (s : State) :
    (∃ x, measured k mv limit s = { s with dig.chans := x })
    ∧ ∀ j, j ≠ k → digGet (measured k mv limit s) j = digGet s j := by
  unfold measured
  split
  · exact ⟨⟨_, rfl⟩, fun j hj => updDig_other _ _ s hj⟩
  · exact ⟨⟨s.dig.chans, rfl⟩, fun _ _ => rfl⟩

theorem rawLevel_eq (mv : Int) (was : Bool) :
    rawLevel mv was = if mv ≤ 5000 then false else if 11000 ≤ mv then true else was := by
  unfold rawLevel
  split
  · rw [if_neg (by omega)]
  · rfl

theorem inputCurrent_low {mv : Int} (limit : Fin 1001) (h : mv ≤ 4400) : (inputCurrent limit mv).toNat = mv.toNat * 10 / 22 := by
  unfold inputCurrent
  rw [BitVec.toNat_ofNat, Nat.min_eq_left (by omega)]
  exact Nat.mod_eq_of_lt (by omega)

theorem inputCurrent_high {mv : Int} (limit : Fin 1001) (h : 6600 ≤ mv) : (inputCurrent limit mv).toNat = 2000 + limit.val := by
  have hl := limit.isLt
  unfold inputCurrent
  rw [BitVec.toNat_ofNat, Nat.min_eq_right (by omega)]
  exact Nat.mod_eq_of_lt (by omega)

/-- The outcome of a debounce, by the wire break and the level (R267, R269). -/
theorem exec_debounceComplete {k : Fin 64} {mv : Int} {limit : Fin 1001} {idx : Fin 250} {s : State} (hd : domUp s 6 = true)
    (hm : digMode (digGet s k.val) ≠ 0) :
    exec (.debounceComplete k mv limit idx) s = .next (
      if (digGet s k.val).brk then
        updDig k.val (fun c => { c with raw := rawLevel mv (digGet s k.val).raw }) (measured k.val mv limit s)
      else if (digGet s k.val).inp = rawLevel mv (digGet s k.val).raw then
        updDig k.val (fun c => { c with raw := rawLevel mv (digGet s k.val).raw, settling := false })
          (measured k.val mv limit s)
      else
        raiseEvAt (s.course.cn - BitVec.ofNat 32 ((digDeb (digGet s k.val) - 1 + idx.val) / 250)) 2 1 (digPage k.val)
          (BitVec.ofNat 96 (digData (measured k.val mv limit s) k.val (b2n (rawLevel mv (digGet s k.val).raw))
            + (BitVec.ofNat 16 (idx.val * 65536 / 250)).toNat * 2 ^ 32))
          (updDig k.val (fun c => { c with
            raw := rawLevel mv (digGet s k.val).raw, inp := rawLevel mv (digGet s k.val).raw, settling := false
            stamp := ⟨(s.course.cn - BitVec.ofNat 32 ((digDeb (digGet s k.val) - 1 + idx.val) / 250)).setWidth 16,
              BitVec.ofNat 16 (idx.val * 65536 / 250)⟩
            changes := c.changes + 1 }) (measured k.val mv limit s))) := by
  have hu : domUp (measured k.val mv limit s) 6 = true := by
    obtain ⟨⟨x, hx⟩, _⟩ := measured_frame k.val mv limit s
    rw [hx]
    exact hd
  have hb : (domUp (measured k.val mv limit s) 6 && decide (digMode (digGet s k.val) ≠ 0)) = true := by
    rw [hu, decide_eq_true hm]
    rfl
  exact congrArg Host.Outcome.next (if_pos hb)

/-- The current that a debounce measures (R266). -/
theorem measuredCurrent_spec (k : Nat) (mv : Int) (limit : Fin 1001) (c : DigChan) :
    (k < 32 ∨ digMode c ≠ 1 ∨ bitAt c.cfgF 27 = true → measuredCurrent k mv limit c = c.current)
    ∧ (32 ≤ k → digMode c = 1 → bitAt c.cfgF 27 = false → mv ≤ 4400 →
        (measuredCurrent k mv limit c).toNat = mv.toNat * 10 / 22)
    ∧ (32 ≤ k → digMode c = 1 → bitAt c.cfgF 27 = false → 6600 ≤ mv →
        (measuredCurrent k mv limit c).toNat = 2000 + limit.val) := by
  have hb : 32 ≤ k → digMode c = 1 → bitAt c.cfgF 27 = false → measuredCurrent k mv limit c = inputCurrent limit mv := by
    intro h1 h2 h3
    unfold measuredCurrent
    rw [decide_eq_true h1, decide_eq_true h2, h3]
    rfl
  refine ⟨fun h => ?_, fun h1 h2 h3 h4 => ?_, fun h1 h2 h3 h4 => ?_⟩
  · unfold measuredCurrent
    refine if_neg fun hc => ?_
    simp only [Bool.and_eq_true, decide_eq_true_eq, Bool.not_eq_true'] at hc
    obtain ⟨⟨h1, h2⟩, h3⟩ := hc
    rcases h with h | h | h
    · exact absurd h (by omega)
    · exact h h2
    · exact Bool.false_ne_true (h3.symm.trans h)
  · rw [hb h1 h2 h3]
    exact inputCurrent_low limit h4
  · rw [hb h1 h2 h3]
    exact inputCurrent_high limit h4

/-- The states that a debounce can leave differ from the one before in this channel, and in the records that leave. -/
theorem updDig_measured (k : Nat) (mv : Int) (limit : Fin 1001) (f : DigChan → DigChan) (s : State) :
    ∃ x, updDig k f (measured k mv limit s) = { s with dig.chans := x }
      ∧ digGet { s with dig.chans := x } k = f { digGet s k with current := measuredCurrent k mv limit (digGet s k) }
      ∧ ∀ j, j ≠ k → digGet { s with dig.chans := x } j = digGet s j := by
  obtain ⟨⟨y, hy⟩, ho⟩ := measured_frame k mv limit s
  refine ⟨(updDig k f (measured k mv limit s)).dig.chans, ?_, ?_, fun j hj => ?_⟩
  · rw [hy]
    rfl
  · exact (updDig_same k f _).trans (congrArg f (digGet_measured k mv limit s))
  · exact (updDig_other k f _ hj).trans (ho j hj)

theorem debounceComplete_spec {k : Fin 64} {mv : Int} {limit : Fin 1001} {idx : Fin 250} {s : State} (hd : domUp s 6 = true)
    (hm : digMode (digGet s k.val) ≠ 0) :
    let c := digGet s k.val
    let level : Bool := if mv ≤ 5000 then false else if 11000 ≤ mv then true else c.raw
    let cn := s.course.cn - BitVec.ofNat 32 ((max 1 (fld c.debF 0 16) - 1 + idx.val) / 250)
    let st : Stamp := ⟨cn.setWidth 16, BitVec.ofNat 16 (idx.val * 65536 / 250)⟩
    ∃ t, exec (.debounceComplete k mv limit idx) s = .next t
      ∧ (let cur := (digGet t k.val).current
        (c.brk = true → digGet t k.val = { c with raw := level, current := cur })
        ∧ (c.brk = false → c.inp = level →
            digGet t k.val = { c with raw := level, settling := false, current := cur } ∧ t.evq = s.evq)
        ∧ (c.brk = false → c.inp ≠ level → digGet t k.val = { c with
            raw := level, inp := level, settling := false, stamp := st, changes := c.changes + 1, current := cur })
        ∧ (k.val < 32 ∨ digMode c ≠ 1 ∨ bitAt c.cfgF 27 = true → cur = c.current)
        ∧ (32 ≤ k.val → digMode c = 1 → bitAt c.cfgF 27 = false → mv ≤ 4400 → cur.toNat = mv.toNat * 10 / 22)
        ∧ (32 ≤ k.val → digMode c = 1 → bitAt c.cfgF 27 = false → 6600 ≤ mv → cur.toNat = 2000 + limit.val))
      ∧ (c.brk = false → c.inp ≠ level → domUp s 3 = true → ∃ e : EventRec, t.evq.inflight = s.evq.inflight ++ [e]
          ∧ e.cn = cn ∧ e.cls = 2 ∧ e.code = 1 ∧ e.source = (if k.val < 32 then 0x30 else 0x31)
          ∧ fld e.data 0 8 = k.val % 32 ∧ bitAt e.data 16 = level
          ∧ fld e.data 8 8 = genOf s (if k.val < 32 then 3 else 4) (k.val % 32)
          ∧ fld e.data 32 16 = idx.val * 65536 / 250)
      ∧ (∀ j, j ≠ k.val → digGet t j = digGet s j)
      ∧ t = { s with dig.chans := t.dig.chans, evq := t.evq, free := t.free } := by
  intro c level cn st
  have he := exec_debounceComplete (limit := limit) (idx := idx) (mv := mv) hd hm
  have hl : rawLevel mv (digGet s k.val).raw = level := rawLevel_eq mv _
  rw [hl] at he
  have hc := measuredCurrent_spec k.val mv limit c
  by_cases hb : c.brk = true
  · have hnb : c.brk ≠ false := by simp [hb]
    rw [if_pos hb] at he
    refine ⟨_, he, ?_⟩
    obtain ⟨x, hx, hs, ho⟩ := updDig_measured k.val mv limit (fun c => { c with raw := level }) s
    rw [hx]
    have hcur : (digGet { s with dig.chans := x } k.val).current = measuredCurrent k.val mv limit c :=
      congrArg DigChan.current hs
    dsimp only
    rw [hcur]
    exact ⟨⟨fun _ => hs, fun h => absurd h hnb, fun h => absurd h hnb, hc⟩, fun h => absurd h hnb, ho, rfl⟩
  · rw [if_neg hb] at he
    by_cases hi : c.inp = level
    · rw [if_pos hi] at he
      refine ⟨_, he, ?_⟩
      obtain ⟨x, hx, hs, ho⟩ := updDig_measured k.val mv limit (fun c => { c with raw := level, settling := false }) s
      rw [hx]
      have hcur : (digGet { s with dig.chans := x } k.val).current = measuredCurrent k.val mv limit c :=
        congrArg DigChan.current hs
      dsimp only
      rw [hcur]
      exact ⟨⟨fun h => absurd h hb, fun _ _ => ⟨hs, rfl⟩, fun _ h => absurd hi h, hc⟩, fun _ h => absurd hi h, ho, rfl⟩
    · rw [if_neg hi] at he
      obtain ⟨x, hx, hs, ho⟩ := updDig_measured k.val mv limit (fun c => { c with
        raw := level, inp := level, settling := false, stamp := st, changes := c.changes + 1 }) s
      have hu : (BitVec.ofNat 16 (idx.val * 65536 / 250)).toNat = idx.val * 65536 / 250 := by
        have := idx.isLt
        rw [BitVec.toNat_ofNat]
        exact Nat.mod_eq_of_lt (by omega)
      obtain ⟨⟨y, hy⟩, _⟩ := measured_frame k.val mv limit s
      have hdata : digData (measured k.val mv limit s) k.val (b2n level) = k.val % 32
          + genOf s (if k.val < 32 then 3 else 4) (k.val % 32) * 2 ^ 8 + b2n level * 2 ^ 16 := by
        rw [hy]
        rfl
      have hst : raiseEvAt cn 2 1 (digPage k.val) (BitVec.ofNat 96 (digData (measured k.val mv limit s) k.val (b2n level)
          + (BitVec.ofNat 16 (idx.val * 65536 / 250)).toNat * 2 ^ 32))
          (updDig k.val (fun c => { c with
            raw := level, inp := level, settling := false, stamp := st, changes := c.changes + 1 })
            (measured k.val mv limit s))
          = raiseEvAt cn 2 1 (digPage k.val) (BitVec.ofNat 96 (k.val % 32
            + genOf s (if k.val < 32 then 3 else 4) (k.val % 32) * 2 ^ 8 + b2n level * 2 ^ 16
            + idx.val * 65536 / 250 * 2 ^ 32)) { s with dig.chans := x } := by
        rw [hx, hdata, hu]
      refine ⟨_, he.trans (congrArg Host.Outcome.next hst), ?_⟩
      obtain ⟨f1, f2, f3, f4⟩ := digRecord_fields (a := k.val % 32) (u := idx.val * 65536 / 250) (l := level)
        (by omega) (genOf_lt s (if k.val < 32 then 3 else 4) (k.val % 32)) (by have := idx.isLt; omega)
      have hr := fun h3 => raiseEvAt_raised (cn := cn) (cls := 2) (code := 1) (source := digPage k.val)
        (data := BitVec.ofNat 96 (k.val % 32 + genOf s (if k.val < 32 then 3 else 4) (k.val % 32) * 2 ^ 8
          + b2n level * 2 ^ 16 + idx.val * 65536 / 250 * 2 ^ 32)) (s := { s with dig.chans := x }) h3
      obtain ⟨e, f, hf⟩ := raiseEvAt_frame cn 2 1 (digPage k.val)
        (BitVec.ofNat 96 (k.val % 32 + genOf s (if k.val < 32 then 3 else 4) (k.val % 32) * 2 ^ 8
          + b2n level * 2 ^ 16 + idx.val * 65536 / 250 * 2 ^ 32)) { s with dig.chans := x }
      rw [hf] at hr ⊢
      have hcur : (digGet { s with dig.chans := x, evq := e, free := f } k.val).current = measuredCurrent k.val mv limit c :=
        congrArg DigChan.current hs
      dsimp only
      rw [hcur]
      refine ⟨⟨fun h => absurd h hb, fun _ h => absurd h hi, fun _ _ => hs, hc⟩, fun _ _ h3 => ?_, ho, rfl⟩
      obtain ⟨r, g1, g2, g3, g4, g5, g6⟩ := hr h3
      refine ⟨r, g1, g2, g3, g4, g5.trans ?_, ?_, ?_, ?_, ?_⟩
      · unfold digPage
        split <;> rfl
      · rw [g6]
        exact f1
      · rw [g6]
        exact f2
      · rw [g6]
        exact f3
      · rw [g6]
        exact f4

/-! Wire breaks. -/

/-- The channel with the counts of a window's current (R269). -/
def windowed (avg : Half) (c : DigChan) : DigChan :=
  { c with
    current := avg, wbLow := if avg.toNat < 500 then c.wbLow + 1 else 0
    wbHigh := if 600 ≤ avg.toNat then c.wbHigh + 1 else 0 }

/-- Only digital channel `k` changes, to `c`, and records may leave. -/
structure DigChange (k : Nat) (c : DigChan) (s t : State) : Prop where
  dig : digGet t k = c
  others : ∀ j, j ≠ k → digGet t j = digGet s j
  frame : t = { s with dig.chans := t.dig.chans, evq := t.evq, free := t.free }

theorem DigChange.refl (k : Nat) (s : State) : DigChange k (digGet s k) s s := ⟨rfl, fun _ _ => rfl, rfl⟩

theorem DigChange.updDig {k : Nat} {c : DigChan} {s t : State} (h : DigChange k c s t) (f : DigChan → DigChan) :
    DigChange k (f c) s (updDig k f t) := by
  obtain ⟨h1, h2, h3⟩ := h
  refine ⟨by rw [updDig_same, h1], fun j hj => (updDig_other _ _ _ hj).trans (h2 j hj), ?_⟩
  rw [h3]
  rfl

theorem DigChange.event {k : Nat} {c : DigChan} {s t : State} (h : DigChange k c s t) (code detail : Nat) :
    DigChange k c s (digEvent k code detail t) := by
  obtain ⟨h1, h2, h3⟩ := h
  obtain ⟨e, f, he⟩ := digEvent_evq k code detail t
  rw [he]
  refine ⟨h1, h2, ?_⟩
  rw [h3]

/-- What a window with its average current does (R269). -/
theorem exec_wireBreakWindow {k : Fin 64} {avg : Half} {s : State} (hd : domUp s 6 = true)
    (hm : digMode (digGet s k.val) = 1) (hw : bitAt (digGet s k.val).cfgF 27 = true) :
    exec (.wireBreakWindow k avg) s = .next (
      if (!(digGet s k.val).brk
          && decide ((digDeb (digGet s k.val) + 99) / 100 ≤ (windowed avg (digGet s k.val)).wbLow)) = true then
        digEvent k.val 2 1 (digSticky k.val (if k.val < 32 then 7 else 0)
          (updDig k.val (fun c => { c with brk := true }) (updDig k.val (windowed avg) s)))
      else if ((digGet s k.val).brk
          && decide ((digDeb (digGet s k.val) + 99) / 100 ≤ (windowed avg (digGet s k.val)).wbHigh)) = true then
        digEvent k.val 2 0 (updDig k.val (fun c => { c with brk := false }) (updDig k.val (windowed avg) s))
      else updDig k.val (windowed avg) s) := by
  have hb : (domUp s 6 && decide (digMode (digGet s k.val) = 1) && bitAt (digGet s k.val).cfgF 27) = true := by
    rw [hd, decide_eq_true hm, hw]
    rfl
  refine congrArg Host.Outcome.next ((if_pos hb).trans ?_)
  have hs : updDig k.val (fun c => { c with
      current := avg, wbLow := if avg.toNat < 500 then (digGet s k.val).wbLow + 1 else 0
      wbHigh := if 600 ≤ avg.toNat then (digGet s k.val).wbHigh + 1 else 0 }) s = updDig k.val (windowed avg) s := rfl
  dsimp only
  rw [hs]
  rfl

/-- The channel that a window leaves, judged by the counts against `need` (R269). -/
def judged (k need : Nat) (c : DigChan) : DigChan :=
  if (!c.brk && decide (need ≤ c.wbLow)) = true then
    { c with brk := true, sticky := setBit c.sticky (if k < 32 then 7 else 0) true }
  else if (c.brk && decide (need ≤ c.wbHigh)) = true then { c with brk := false } else c

theorem wireBreakWindow_change {k : Fin 64} {avg : Half} {s : State} (hd : domUp s 6 = true)
    (hm : digMode (digGet s k.val) = 1) (hw : bitAt (digGet s k.val).cfgF 27 = true) :
    ∃ t, exec (.wireBreakWindow k avg) s = .next t
      ∧ DigChange k.val (judged k.val ((digDeb (digGet s k.val) + 99) / 100) (windowed avg (digGet s k.val))) s t := by
  have hwin : DigChange k.val (windowed avg (digGet s k.val)) s (updDig k.val (windowed avg) s) :=
    (DigChange.refl k.val s).updDig (windowed avg)
  have he := exec_wireBreakWindow (k := k) (avg := avg) hd hm hw
  have hb : (windowed avg (digGet s k.val)).brk = (digGet s k.val).brk := rfl
  refine ⟨_, he, ?_⟩
  unfold judged
  rw [hb]
  split
  · exact ((hwin.updDig (fun c => { c with brk := true })).updDig (fun c => { c with
      sticky := setBit c.sticky (if k.val < 32 then 7 else 0) true })).event 2 1
  · split
    · exact (hwin.updDig (fun c => { c with brk := false })).event 2 0
    · exact hwin

/-- What a window can do to a channel. -/
theorem judged_spec {k need : Nat} {c : DigChan} (hn : 1 ≤ need) (avg : Half) :
    let d := judged k need (windowed avg c)
    d.current = avg ∧ (c.brk = false → avg.toNat < 500 → need ≤ c.wbLow + 1 → d.brk = true
        ∧ bitAt d.sticky (if k < 32 then 7 else 0) = true)
    ∧ (c.brk = false → 500 ≤ avg.toNat ∨ c.wbLow + 1 < need → d.brk = false)
    ∧ (c.brk = true → 600 ≤ avg.toNat → need ≤ c.wbHigh + 1 → d.brk = false)
    ∧ (c.brk = true → avg.toNat < 600 ∨ c.wbHigh + 1 < need → d.brk = true) ∧ d.inp = c.inp := by
  intro d
  have hbrk : (windowed avg c).brk = c.brk := rfl
  have hlo : (windowed avg c).wbLow = if avg.toNat < 500 then c.wbLow + 1 else 0 := rfl
  have hhi : (windowed avg c).wbHigh = if 600 ≤ avg.toNat then c.wbHigh + 1 else 0 := rfl
  have hd : d = judged k need (windowed avg c) := rfl
  clear_value d
  unfold judged at hd
  rw [hbrk, hlo, hhi] at hd
  cases hb : c.brk with
  | false =>
    rw [hb, Bool.false_and, if_neg Bool.false_ne_true, Bool.not_false, Bool.true_and] at hd
    by_cases hk : need ≤ if avg.toNat < 500 then c.wbLow + 1 else 0
    · rw [if_pos (decide_eq_true hk)] at hd
      subst hd
      refine ⟨rfl, fun _ _ _ => ⟨rfl, sticky_set _ (by split <;> omega)⟩, fun _ h => ?_, by nofun, by nofun, rfl⟩
      split at hk <;> omega
    · rw [if_neg (by rw [decide_eq_true_eq]; exact hk)] at hd
      subst hd
      refine ⟨rfl, fun _ h5 hx => ?_, fun _ _ => hb, by nofun, by nofun, rfl⟩
      rw [if_pos h5] at hk
      exact absurd hx hk
  | true =>
    rw [hb, Bool.not_true, Bool.false_and, if_neg Bool.false_ne_true, Bool.true_and] at hd
    by_cases hk : need ≤ if 600 ≤ avg.toNat then c.wbHigh + 1 else 0
    · rw [if_pos (decide_eq_true hk)] at hd
      subst hd
      refine ⟨rfl, by nofun, by nofun, fun _ _ _ => rfl, fun _ h => ?_, rfl⟩
      split at hk <;> omega
    · rw [if_neg (by rw [decide_eq_true_eq]; exact hk)] at hd
      subst hd
      refine ⟨rfl, by nofun, by nofun, fun _ h6 hx => ?_, fun _ _ => hb, rfl⟩
      rw [if_pos h6] at hk
      exact absurd hx hk

/-! Lamps, open wire and readback. -/

/-- A live driver whose field power has been back long enough is live. -/
theorem dioLive_of_judged {s : State} {n : Nat} (h : dioJudged s n = true) : dioLive s n = true :=
  (Bool.and_eq_true_iff.mp h).1

/-- A state of a driver that is set with its sticky bit, and cleared without. -/
theorem setWithSticky (n : Fin 32) (b : Bool) (bit code detail : Nat) (hbit : bit < 32) (f : DioOut → DioOut) (s : State) :
    ∃ t, t = digEvent n.val code detail (if b then digSticky n.val bit (updDio n.val f s) else updDio n.val f s)
      ∧ dioGet t n.val = f (dioGet s n.val) ∧ (b = true → bitAt (digGet t n.val).sticky bit = true)
      ∧ (∀ k, k ≠ n.val → dioGet t k = dioGet s k)
      ∧ t = { s with dig.outs := t.dig.outs, dig.chans := t.dig.chans, evq := t.evq, free := t.free } := by
  have h0 := (DioChange.refl n.val s).updDio f
  cases b with
  | true =>
    obtain ⟨h1, h2, h3, h4⟩ := (h0.sticky bit).event n.val code detail
    exact ⟨_, rfl, h1, fun _ => (congrArg (fun c => bitAt c.sticky bit) h2).trans (sticky_set _ hbit),
      fun k hk => (h3 k hk).1, h4⟩
  | false =>
    obtain ⟨h1, h2, h3, h4⟩ := h0.event n.val code detail
    exact ⟨_, rfl, h1, by nofun, fun k hk => (h3 k hk).1, h4⟩

theorem openWire_spec {n : Fin 32} {s : State} (hj : dioJudged s n.val = true) (hc : openChecked s n.val = true) :
    let o := dioGet s n.val
    (o.openW = false → ∃ t, exec (.openWireSet n) s = .next t
        ∧ dioGet t n.val = { o with openW := true } ∧ bitAt (digGet t n.val).sticky 5 = true
        ∧ (∀ k, k ≠ n.val → dioGet t k = dioGet s k)
        ∧ t = { s with dig.outs := t.dig.outs, dig.chans := t.dig.chans, evq := t.evq, free := t.free })
    ∧ (o.openW = true → ∃ t, exec (.openWireClear n) s = .next t
        ∧ dioGet t n.val = { o with openW := false } ∧ (∀ k, k ≠ n.val → dioGet t k = dioGet s k)
        ∧ t = { s with dig.outs := t.dig.outs, evq := t.evq, free := t.free }) := by
  intro o
  refine ⟨fun ho => ?_, fun ho => ?_⟩
  · have hb : (dioJudged s n.val && openChecked s n.val && !(dioGet s n.val).openW) = true := by
      rw [hj, hc, show (dioGet s n.val).openW = false from ho]
      rfl
    obtain ⟨t, ht, h1, h2, h3, h4⟩ := setWithSticky n true 5 6 1 (by decide) (fun o => { o with openW := true }) s
    exact ⟨t, congrArg Host.Outcome.next ((if_pos hb).trans ht.symm), h1, h2 rfl, h3, h4⟩
  · have hb : (dioJudged s n.val && openChecked s n.val && (dioGet s n.val).openW) = true := by
      rw [hj, hc, show (dioGet s n.val).openW = true from ho]
      rfl
    obtain ⟨t, ht, h1, h2, h3⟩ := updDio_event n.val 6 0 (fun o => { o with openW := false }) s
    exact ⟨t, congrArg Host.Outcome.next ((if_pos hb).trans ht.symm), h1, h2, h3⟩

theorem lampLearned_spec {n : Fin 32} {i : Half} {s : State} (hj : dioJudged s n.val = true) (hm : dioMode s n.val = 3)
    (ho : (dioGet s n.val).learned = false) : ∃ t, exec (.lampLearned n i) s = .next t
      ∧ dioGet t n.val = { dioGet s n.val with learned := true, progress := 100, learnT := 0, iL := i }
      ∧ (∀ k, k ≠ n.val → dioGet t k = dioGet s k)
      ∧ t = { s with dig.outs := t.dig.outs, evq := t.evq, free := t.free } := by
  have hb : (dioLive s n.val && decide (dioMode s n.val = 3) && !(dioGet s n.val).learned) = true := by
    rw [dioLive_of_judged hj, decide_eq_true hm, ho]
    rfl
  obtain ⟨t, ht, h1, h2, h3⟩ := updDio_event n.val 0x0A i.toNat
    (fun o => { o with learned := true, progress := 100, learnT := 0, iL := i }) s
  exact ⟨t, congrArg Host.Outcome.next ((if_pos hb).trans ht.symm), h1, h2, h3⟩

theorem darkSet_spec {n : Fin 32} {s : State} (hj : lampJudged s n.val = true) (ho : (dioGet s n.val).dark = false) :
    let o := dioGet s n.val
    ∃ t, exec (.darkSet n) s = .next t ∧ (dioGet t n.val).dark = true
        ∧ (dioGet t n.val).darkOff = !o.drive ∧ (dioGet t n.val).drive = o.drive
        ∧ (o.learned = false → (dioGet t n.val).progress = 0)
        ∧ bitAt (digGet t n.val).sticky 3 = true ∧ (∀ k, k ≠ n.val → dioGet t k = dioGet s k)
        ∧ t = { s with dig.outs := t.dig.outs, dig.chans := t.dig.chans, evq := t.evq, free := t.free } := by
  intro o
  have hb : (lampJudged s n.val && !(dioGet s n.val).dark) = true := by
    rw [hj, ho]
    rfl
  obtain ⟨t, ht, h1, h2, h3, h4⟩ := setWithSticky n true 3 7 (1 + 2 * b2n (!o.drive)) (by decide)
    (fun o' => { discardLearning o' with dark := true, darkOff := !o.drive }) s
  refine ⟨t, congrArg Host.Outcome.next ((if_pos hb).trans ht.symm), ?_, ?_, ?_, fun hl => ?_, h2 rfl, h3, h4⟩
  · rw [h1]
  · rw [h1]
  · rw [h1]
    change (discardLearning o).drive = o.drive
    unfold discardLearning
    split <;> rfl
  · rw [h1]
    change (discardLearning o).progress = 0
    unfold discardLearning
    rw [hl]
    rfl

theorem darkClear_spec {n : Fin 32} {s : State} (hj : lampJudged s n.val = true) (ho : (dioGet s n.val).dark = true) :
    let o := dioGet s n.val
    (o.drive = false → o.darkOff = false → exec (.darkClear n) s = .next s)
    ∧ (o.drive = true ∨ o.darkOff = true → ∃ t, exec (.darkClear n) s = .next t
        ∧ dioGet t n.val = { o with dark := false }
        ∧ (∀ k, k ≠ n.val → dioGet t k = dioGet s k)
        ∧ t = { s with dig.outs := t.dig.outs, evq := t.evq, free := t.free }) := by
  intro o
  have e : (lampJudged s n.val && (dioGet s n.val).dark && ((dioGet s n.val).drive || (dioGet s n.val).darkOff))
      = (o.drive || o.darkOff) := by
    rw [hj, ho]
    rfl
  refine ⟨fun h1 h2 => ?_, fun h => ?_⟩
  · have hb : ¬ (lampJudged s n.val && (dioGet s n.val).dark && ((dioGet s n.val).drive || (dioGet s n.val).darkOff)) = true := by
      rw [e, h1, h2]
      exact Bool.false_ne_true
    exact congrArg Host.Outcome.next (if_neg hb)
  · have hb : (lampJudged s n.val && (dioGet s n.val).dark && ((dioGet s n.val).drive || (dioGet s n.val).darkOff)) = true := by
      rw [e]
      exact Bool.or_eq_true_iff.mpr h
    obtain ⟨t, ht, h1, h2, h3⟩ := updDio_event n.val 7 (2 * b2n (!(dioGet s n.val).drive)) (fun o => { o with dark := false }) s
    exact ⟨t, congrArg Host.Outcome.next ((if_pos hb).trans ht.symm), h1, h2, h3⟩

theorem lampDegraded_spec {n : Fin 32} {d : Bool} {s : State} (hj : lampJudged s n.val = true)
    (h1 : (dioGet s n.val).drive = true) (h2 : (dioGet s n.val).learned = true) (h3 : (dioGet s n.val).degraded ≠ d) :
    ∃ t, exec (.lampDegraded n d) s = .next t ∧ dioGet t n.val = { dioGet s n.val with degraded := d }
      ∧ (d = true → bitAt (digGet t n.val).sticky 2 = true) ∧ (∀ k, k ≠ n.val → dioGet t k = dioGet s k)
      ∧ t = { s with dig.outs := t.dig.outs, dig.chans := t.dig.chans, evq := t.evq, free := t.free } := by
  have hb : (lampJudged s n.val && (dioGet s n.val).drive && (dioGet s n.val).learned
      && decide ((dioGet s n.val).degraded ≠ d)) = true := by
    rw [hj, h1, h2, decide_eq_true h3]
    rfl
  obtain ⟨t, ht, h⟩ := setWithSticky n d 2 8 (b2n d) (by decide) (fun o => { o with degraded := d }) s
  exact ⟨t, congrArg Host.Outcome.next ((if_pos hb).trans ht.symm), h⟩

theorem dioReadback_spec {n : Fin 32} {m : Bool} {s : State} (hd : domUp s 6 = true) (hm : 2 ≤ dioMode s n.val)
    (hv : vfJudged s = true) (hr : (dioGet s n.val).readback ≠ m) (hc : m = false ∨ (dioGet s n.val).clamp = false) :
    ∃ t, exec (.dioReadback n m) s = .next t
      ∧ dioGet t n.val = { dioGet s n.val with readback := m }
      ∧ (m = true → bitAt (digGet t n.val).sticky 1 = true) ∧ (∀ k, k ≠ n.val → dioGet t k = dioGet s k)
      ∧ t = { s with dig.outs := t.dig.outs, dig.chans := t.dig.chans, evq := t.evq, free := t.free } := by
  have hcl : (m && (dioGet s n.val).clamp) = false := by
    rcases hc with rfl | h
    · rfl
    · rw [h, Bool.and_false]
  have hb : (domUp s 6 && decide (2 ≤ dioMode s n.val) && vfJudged s && decide ((dioGet s n.val).readback ≠ m)
      && !(m && (dioGet s n.val).clamp)) = true := by
    rw [hd, decide_eq_true hm, hv, decide_eq_true hr, hcl]
    rfl
  obtain ⟨t, ht, h⟩ := setWithSticky n m 1 9 (b2n m + 2 * b2n (!gateDio s n.val)) (by decide) (fun o => { o with readback := m }) s
  exact ⟨t, congrArg Host.Outcome.next ((if_pos hb).trans ht.symm), h⟩

/-- Settles O39, by the outcomes of a debounce and of a window (`judged`), and the judgements of a driver. -/
theorem digitalInputsAndLamps : Obligations.DigitalInputsAndLamps := by
  unfold Obligations.DigitalInputsAndLamps
  refine ⟨fun k mv limit idx s => debounceComplete_spec, ?_, ?_, fun n m s => dioReadback_spec, ?_⟩
  · intro k avg s hd hm hw c need
    obtain ⟨t, he, h1, h2, h3⟩ := wireBreakWindow_change (avg := avg) hd hm hw
    have hneed : 1 ≤ need := by
      have h : 1 ≤ digDeb c := Nat.le_max_left 1 _
      change 1 ≤ (digDeb c + 99) / 100
      omega
    obtain ⟨j1, j2, j3, j4, j5, j6⟩ := judged_spec (k := k.val) (c := c) hneed avg
    refine ⟨t, he, ?_⟩
    rw [h1]
    exact ⟨j1, j2, j3, j4, j5, j6, h2, h3⟩
  · intro n s hj o
    exact ⟨fun hc => (openWire_spec hj hc).1, fun hc => (openWire_spec hj hc).2, fun i hm ho => lampLearned_spec hj hm ho,
      fun h ho => darkSet_spec h ho, fun h ho => (darkClear_spec h ho).1, fun h ho => (darkClear_spec h ho).2,
      fun d h h1 h2 h3 => lampDegraded_spec h h1 h2 h3⟩
  · intro req arg s hr ha hm
    refine answers_done hr rfl ?_ CStat.noConfusion
    dsimp only
    rw [fld_low (k := 5) ha, show argOutside arg 0x1F = false from argOutside_small 5 ha, if_neg Bool.false_ne_true]
    exact if_neg (not_not_intro hm)

end Sys2Proof.Machine
end


section
/-! Protection of the DIO drivers (ch. 10). -/

namespace Sys2Proof.Machine

/-! The drive state after a protection has changed. -/

/-- A protected driver with its gate takes source 1 (R273). -/
theorem dioSource_protected {s : State} {n : Nat} (hg : gateDio s n = true) (hm : 2 ≤ digMode (digGet s n)) :
    dioSource s n true = 1 := by
  unfold dioSource
  rw [hg]
  simp only [Bool.not_true, Bool.false_eq_true, if_false, if_true]
  exact if_neg (by omega)

/-- Protection leaves no source under which a driver is on. -/
theorem dioValue_protected (s : State) (n : Nat) : dioValue s n (dioSource s n true) = false := by
  unfold dioSource
  simp only [if_true]
  split
  · rfl
  · split <;> rfl

theorem dioSource_updDio (n : Nat) (f : DioOut → DioOut) (s : State) (b : Bool) :
    dioSource (updDio n f s) n b = dioSource s n b := rfl

/-- A source gives the same value where the driver's state and its held state are the same. -/
theorem dioValue_updDio {n : Nat} {f : DioOut → DioOut} {s : State} (hd : (f (dioGet s n)).drive = (dioGet s n).drive)
    (hh : (f (dioGet s n)).held = (dioGet s n).held) (src : Nat) : dioValue (updDio n f s) n src = dioValue s n src := by
  unfold dioValue
  rw [updDio_same, hd, hh]
  rfl

/-- A driver whose protection changes is resolved anew. -/
theorem dioGet_dioResolve_updDio {n : Nat} {f : DioOut → DioOut} {s : State}
    (hd : (f (dioGet s n)).drive = (dioGet s n).drive) (hh : (f (dioGet s n)).held = (dioGet s n).held) :
    dioGet (dioResolve n (updDio n f s)) n = dioSet (dioMode s n)
      (dioSource s n ((f (dioGet s n)).overload || (f (dioGet s n)).therm))
      (dioValue s n (dioSource s n ((f (dioGet s n)).overload || (f (dioGet s n)).therm))) (f (dioGet s n)) := by
  unfold dioResolve
  dsimp only
  rw [updDio_same, updDio_same, dioSource_updDio, dioValue_updDio hd hh]
  rfl

theorem dioResolve_other (n : Nat) (s : State) {k : Nat} (hk : k ≠ n) : dioGet (dioResolve n s) k = dioGet s k :=
  updDio_other n _ s hk

theorem DioChange.resolve {n : Nat} {o : DioOut} {c : DigChan} {s t : State} (h : DioChange n o c s t) :
    DioChange n (dioSet (digMode c) (dioSource t n (o.overload || o.therm))
      (dioValue t n (dioSource t n (o.overload || o.therm))) o) c s (dioResolve n t) := by
  have hr := h.updDio (dioSet (digMode (digGet t n)) (dioSource t n ((dioGet t n).overload || (dioGet t n).therm))
    (dioValue t n (dioSource t n ((dioGet t n).overload || (dioGet t n).therm))))
  have h1 := h.dio
  have h2 := h.dig
  unfold dioResolve
  rw [h1, h2] at hr
  rw [h1, h2]
  exact hr

theorem DioChange.gate {n : Nat} {o : DioOut} {c : DigChan} {s t : State} (h : DioChange n o c s t) (k : Nat) :
    gateDio t k = gateDio s k := by
  rw [h.frame]
  rfl

/-! The inrush budget. -/

theorem inrushBudget_spec (s : State) : ∃ l x f, inrushBudget s = { s with
      dig.inrushLimit := l, dig.outs := x, free := f } ∧ 1000 ≤ l ∧ l ≤ 4000
    ∧ (((List.range 32).filter (fun n => (dioGet s n).inrush)).length ≤ 8 → l = 4000)
    ∧ ∀ k, ∃ b, dioGet (inrushBudget s) k = { dioGet s k with inrushHeld := b } := by
  unfold inrushBudget
  extract_lets k limit
  have hl : limit = if (decide (8 < k) && bitAt (Config.word s.free) 0) = true then max 1000 (32000 / k) else 4000 := rfl
  refine ⟨limit, _, _, rfl, ?_, ?_, fun h => ?_, fun j => ?_⟩
  · rw [hl]
    split
    · exact Nat.le_max_left _ _
    · decide
  · rw [hl]
    split
    · rename_i hk
      have h8 : 8 < k := of_decide_eq_true (Bool.and_eq_true_iff.mp hk).1
      have hq : 32000 / k ≤ 32000 / 9 := Nat.div_le_div_left h8 (by decide)
      exact Nat.max_le.mpr ⟨by decide, Nat.le_trans hq (by decide)⟩
    · exact Nat.le_refl _
  · rw [hl]
    have h8 : ¬ 8 < k := Nat.not_lt.mpr h
    rw [decide_eq_false h8]
    rfl
  · have hm := Tab.get_map s.dig.outs
      (fun c : DioOut => { c with inrushHeld := c.inrushHeld || (c.inrush && decide (limit < 4000)) }) {} j
    refine ⟨(dioGet s j).inrushHeld || ((dioGet s j).inrush && decide (limit < 4000)), hm.trans ?_⟩
    unfold dioGet Tab.get
    cases Tab.find s.dig.outs.cells j <;> rfl

/-! Overload. -/

/-- A driver in overload (R275). -/
def overloaded (last : Bool) (o : DioOut) : DioOut :=
  { discardLearning o with overload := true, latched := last, offSeen := false }

theorem exec_overloadTrip {n : Fin 32} {s : State} (hl : dioLive s n.val = true) (hd : (dioGet s n.val).drive = true)
    (hi : (dioGet s n.val).inrush = false) :
    exec (.overloadTrip n) s = .next (dioResolve n.val (
      if dioRetryN s n.val ≤ (dioGet s n.val).retries then
        digEvent n.val 4 0 (digSticky n.val 0 (digEvent n.val 3 (dioRetryN s n.val - (dioGet s n.val).retries)
          (digSticky n.val 6 (updDio n.val (overloaded (decide (dioRetryN s n.val ≤ (dioGet s n.val).retries))) s))))
      else digEvent n.val 3 (dioRetryN s n.val - (dioGet s n.val).retries)
        (digSticky n.val 6 (updDio n.val (overloaded (decide (dioRetryN s n.val ≤ (dioGet s n.val).retries))) s)))) := by
  have hb : (dioLive s n.val && (dioGet s n.val).drive && !(dioGet s n.val).inrush) = true := by
    rw [hl, hd, hi]
    rfl
  refine congrArg Host.Outcome.next ((if_pos hb).trans ?_)
  by_cases h : dioRetryN s n.val ≤ (dioGet s n.val).retries
  · rw [if_pos h]
    exact congrArg (dioResolve n.val) (if_pos h)
  · rw [if_neg h]
    exact congrArg (dioResolve n.val) (if_neg h)

theorem dioLive_spec {s : State} {n : Nat} (h : dioLive s n = true) : gateDio s n = true ∧ 2 ≤ digMode (digGet s n) := by
  unfold dioLive at h
  simp only [Bool.and_eq_true, decide_eq_true_eq] at h
  exact h.1

/-- A driver's protection sets: it is off, at source 1. -/
theorem DioChange.protect {n : Nat} {o : DioOut} {c : DigChan} {s t : State} (h : DioChange n o c s t)
    (hp : (o.overload || o.therm) = true) : DioChange n (dioSet (digMode c) (dioSource t n true) false o) c s (dioResolve n t) := by
  have hr := h.resolve
  rw [hp, dioValue_protected] at hr
  exact hr

theorem overloaded_retries (last : Bool) (o : DioOut) : (overloaded last o).retries = o.retries := by
  unfold overloaded discardLearning
  cases o.learned <;> rfl

theorem overloadTrip_spec {n : Fin 32} {s : State} (hl : dioLive s n.val = true) (hd : (dioGet s n.val).drive = true)
    (hi : (dioGet s n.val).inrush = false) :
    let o := dioGet s n.val
    let last := decide (dioRetryN s n.val ≤ o.retries)
    ∃ t, exec (.overloadTrip n) s = .next t ∧ (dioGet t n.val).overload = true ∧ (dioGet t n.val).latched = last
      ∧ (dioGet t n.val).drive = false ∧ (dioGet t n.val).source = 1 ∧ (dioGet t n.val).retries = o.retries
      ∧ bitAt (digGet t n.val).sticky 6 = true ∧ (last = true → bitAt (digGet t n.val).sticky 0 = true)
      ∧ (∀ k, k ≠ n.val → dioGet t k = dioGet s k ∧ digGet t k = digGet s k)
      ∧ t = { s with dig.outs := t.dig.outs, dig.chans := t.dig.chans, evq := t.evq, free := t.free } := by
  intro o last
  obtain ⟨hg, hm⟩ := dioLive_spec hl
  have h0 := ((((DioChange.refl n.val s).updDio (overloaded last)).sticky 6).event n.val 3 (dioRetryN s n.val - o.retries))
  have key : ∃ t c, exec (.overloadTrip n) s = .next (dioResolve n.val t) ∧ DioChange n.val (overloaded last o) c s t
      ∧ digMode c = digMode (digGet s n.val) ∧ bitAt c.sticky 6 = true ∧ (last = true → bitAt c.sticky 0 = true) := by
    have he := exec_overloadTrip hl hd hi
    by_cases h : dioRetryN s n.val ≤ (dioGet s n.val).retries
    · rw [if_pos h] at he
      refine ⟨_, _, he, (h0.sticky 0).event n.val 4 0, rfl, ?_, fun _ => sticky_set _ (by decide)⟩
      exact (bitAt_setBit_other _ (by decide : (6 : Nat) ≠ 0) true).trans (sticky_set _ (by decide))
    · rw [if_neg h] at he
      exact ⟨_, _, he, h0, rfl, sticky_set _ (by decide), fun hx => absurd (of_decide_eq_true hx) h⟩
  obtain ⟨t, c, he, hc, hcm, h6, hl0⟩ := key
  have hsrc : dioSource t n.val true = 1 :=
    dioSource_protected ((hc.gate n.val).trans hg) (by rw [hc.dig, hcm]; exact hm)
  obtain ⟨h1, h2, h3, h4⟩ := hc.protect rfl
  rw [hsrc] at h1
  refine ⟨_, he, ?_⟩
  rw [h1, h2]
  exact ⟨rfl, rfl, rfl, rfl, overloaded_retries last o, h6, hl0, h3, h4⟩

/-- A retry, and the end of an inrush window, share the budget anew. -/
theorem overloadRetry_spec {n : Fin 32} {s : State} (hl : dioLive s n.val = true) (ho : (dioGet s n.val).overload = true)
    (hn : (dioGet s n.val).latched = false) :
    let o := dioGet s n.val
    ∃ t, exec (.overloadRetry n) s = .next t ∧ (dioGet t n.val).overload = false
        ∧ (dioGet t n.val).retries = o.retries + 1
        ∧ (dioGet t n.val).drive = dioValue s n.val (dioSource s n.val o.therm)
        ∧ 1000 ≤ t.dig.inrushLimit ∧ t.dig.inrushLimit ≤ 4000
        ∧ (∀ k, k ≠ n.val → dioGet t k = { dioGet s k with inrushHeld := (dioGet t k).inrushHeld })
        ∧ t = { s with dig.outs := t.dig.outs, dig.inrushLimit := t.dig.inrushLimit, free := t.free } := by
  intro o
  have hb : (dioLive s n.val && (dioGet s n.val).overload && !(dioGet s n.val).latched) = true := by
    rw [hl, ho, hn]
    rfl
  have hd := dioGet_dioResolve_updDio (n := n.val) (s := s) (f := fun o => { o with overload := false, retries := o.retries + 1 })
    rfl rfl
  have hothers := fun k (hk : k ≠ n.val) => (dioResolve_other n.val
    (updDio n.val (fun o => { o with overload := false, retries := o.retries + 1 }) s) hk).trans (updDio_other n.val _ s hk)
  have hfr : ∃ x, dioResolve n.val (updDio n.val (fun o => { o with overload := false, retries := o.retries + 1 }) s)
      = { s with dig.outs := x } := ⟨_, rfl⟩
  generalize hu : dioResolve n.val (updDio n.val (fun o => { o with overload := false, retries := o.retries + 1 }) s) = u
    at hd hothers hfr
  obtain ⟨x, hx⟩ := hfr
  obtain ⟨l, y, f, hi, h1, h2, _, hk⟩ := inrushBudget_spec u
  have he : exec (.overloadRetry n) s = .next (inrushBudget u) := by
    rw [← hu]
    exact congrArg Host.Outcome.next (if_pos hb)
  obtain ⟨b, hn⟩ := hk n.val
  rw [hd] at hn
  refine ⟨_, he, ?_, ?_, ?_, ?_, ?_, fun k hkn => ?_, ?_⟩
  · rw [hn]
    rfl
  · rw [hn]
    rfl
  · rw [hn]
    rfl
  · rw [hi]
    exact h1
  · rw [hi]
    exact h2
  · obtain ⟨b, hb⟩ := hk k
    rw [hb, hothers k hkn]
  · rw [hi, hx]

theorem inrushWindowEnd_spec (n : Fin 32) (s : State) :
    ∃ t, exec (.inrushWindowEnd n) s = .next t ∧ (dioGet t n.val).inrush = false
        ∧ (dioGet t n.val).drive = (dioGet s n.val).drive ∧ 1000 ≤ t.dig.inrushLimit
        ∧ (((List.range 32).filter (fun k => k ≠ n.val && (dioGet s k).inrush)).length ≤ 8 → t.dig.inrushLimit = 4000)
        ∧ (∀ k, k ≠ n.val → dioGet t k = { dioGet s k with inrushHeld := (dioGet t k).inrushHeld })
        ∧ t = { s with dig.outs := t.dig.outs, dig.inrushLimit := t.dig.inrushLimit, free := t.free } := by
  obtain ⟨l, y, f, hi, h1, _, h3, hk⟩ := inrushBudget_spec (updDio n.val (fun o => { o with inrush := false }) s)
  obtain ⟨b, hn⟩ := hk n.val
  rw [updDio_same] at hn
  have hcount : (List.range 32).filter (fun k => (dioGet (updDio n.val (fun o => { o with inrush := false }) s) k).inrush)
      = (List.range 32).filter (fun k => k ≠ n.val && (dioGet s k).inrush) := by
    refine List.filter_congr fun k _ => ?_
    by_cases h : k = n.val
    · rw [h, updDio_same, decide_eq_false (not_not_intro rfl)]
      rfl
    · rw [updDio_other _ _ s h, decide_eq_true h]
      rfl
  rw [hcount] at h3
  refine ⟨_, rfl, ?_, ?_, ?_, fun h => ?_, fun k hkn => ?_, ?_⟩
  · rw [hn]
  · rw [hn]
  · rw [hi]
    exact h1
  · rw [hi]
    exact h3 h
  · obtain ⟨b, hb⟩ := hk k
    rw [hb, updDio_other _ _ s hkn]
  · rw [hi]
    rfl

/-! Temperature. -/

theorem exec_dioThermSet {n : Fin 32} {v : Half} {s : State} (hd : domUp s 6 = true) :
    exec (.dioThermSet n v) s = .next (
      if (dioGet s n.val).therm then dioResolve n.val (updDio n.val (fun o => { o with therm := true, temp := v }) s)
      else digEvent n.val 5 1 (digSticky n.val 4
        (dioResolve n.val (updDio n.val (fun o => { o with therm := true, temp := v }) s)))) :=
  congrArg Host.Outcome.next (if_pos hd)

/-- A driver too hot is off (R276). -/
theorem dioThermSet_change {n : Fin 32} {v : Half} {s : State} (hd : domUp s 6 = true) :
    ∃ t c m src, exec (.dioThermSet n v) s = .next t
      ∧ DioChange n.val (dioSet m src false { dioGet s n.val with therm := true, temp := v }) c s t
      ∧ ((dioGet s n.val).therm = false → bitAt c.sticky 4 = true) := by
  have h := ((DioChange.refl n.val s).updDio (fun o => { o with therm := true, temp := v })).protect (Bool.or_true _)
  have he := exec_dioThermSet (n := n) (v := v) hd
  by_cases ht : (dioGet s n.val).therm = true
  · rw [if_pos ht] at he
    exact ⟨_, _, _, _, he, h, fun hf => absurd (ht.symm.trans hf) (by decide)⟩
  · rw [if_neg ht] at he
    exact ⟨_, _, _, _, he, (h.sticky 4).event n.val 5 1, fun _ => sticky_set _ (by decide)⟩

theorem dioThermClear_spec {n : Fin 32} {v : Half} {s : State} (hd : domUp s 6 = true) (ht : (dioGet s n.val).therm = true) :
    ∃ t, exec (.dioThermClear n v) s = .next t ∧ (dioGet t n.val).therm = false ∧ (dioGet t n.val).temp = v
      ∧ (dioGet t n.val).drive = dioValue s n.val (dioSource s n.val (dioGet s n.val).overload)
      ∧ (∀ k, k ≠ n.val → dioGet t k = dioGet s k)
      ∧ t = { s with dig.outs := t.dig.outs, evq := t.evq, free := t.free } := by
  have hb : (domUp s 6 && (dioGet s n.val).therm) = true := by
    rw [hd, ht]
    rfl
  have hg := dioGet_dioResolve_updDio (n := n.val) (s := s) (f := fun o => { o with therm := false, temp := v }) rfl rfl
  obtain ⟨e, f, h⟩ := digEvent_evq n.val 5 0 (dioResolve n.val (updDio n.val (fun o => { o with therm := false, temp := v }) s))
  refine ⟨_, congrArg Host.Outcome.next (if_pos hb), ?_⟩
  rw [h]
  refine ⟨?_, ?_, ?_, fun k hk => ?_, rfl⟩
  · exact (congrArg DioOut.therm hg).trans rfl
  · exact (congrArg DioOut.temp hg).trans rfl
  · refine (congrArg DioOut.drive hg).trans ?_
    change dioValue s n.val (dioSource s n.val ((dioGet s n.val).overload || false)) = _
    rw [Bool.or_false]
  · exact (dioResolve_other n.val _ hk).trans (updDio_other n.val _ s hk)

/-! The sum of the currents, and OUT_RESET. -/

theorem totalOver_spec {avg : Half} {s : State} (hd : domUp s 6 = true) :
    ∃ t, exec (.totalOver avg) s = .next t ∧ t.dig.total = avg
      ∧ t.dig.totalOver = decide (8000 < avg.toNat)
      ∧ (8000 < avg.toNat → s.dig.totalOver = false → Raised s t 2 11 0x30 (avg.toNat * 2 ^ 16))
      ∧ t = { s with dig.total := avg, dig.totalOver := t.dig.totalOver, evq := t.evq, free := t.free } := by
  by_cases h : (decide (8000 < avg.toNat) && !s.dig.totalOver) = true
  · refine ⟨_, congrArg Host.Outcome.next ((if_pos hd).trans (if_pos h)), ?_⟩
    have hr := blockEv_raised_from (s := s)
      (u := { s with dig.total := avg, dig.totalOver := decide (8000 < avg.toNat) }) 0x30 0x0B (avg.toNat * 2 ^ 16) rfl rfl rfl
    obtain ⟨e, f, hf⟩ := blockEv_evq 0x30 0x0B (avg.toNat * 2 ^ 16)
      { s with dig.total := avg, dig.totalOver := decide (8000 < avg.toNat) }
    rw [hf] at hr ⊢
    exact ⟨rfl, rfl, fun _ _ => hr, rfl⟩
  · refine ⟨_, congrArg Host.Outcome.next ((if_pos hd).trans (if_neg h)), rfl, rfl, fun h1 h2 => ?_, rfl⟩
    exact absurd (by rw [decide_eq_true h1, h2]; rfl) h

theorem outReset_spec {req : Requester} {arg : BitVec 24} {s : State} (hr : PageReady s 0x30) (ha : arg.toNat < 32)
    (hm : 2 ≤ dioMode s arg.toNat) :
    let n := arg.toNat
    ∃ t, exec (.outReset req arg) s = .next t ∧ hdr t 0x30 = hdrDone .ok 0 (hdr s 0x30)
      ∧ ((dioGet s n).latched = true → (dioGet t n).latched = false ∧ (dioGet t n).overload = false
          ∧ (dioGet t n).retries = 0 ∧ (dioGet t n).drive = dioValue s n (dioSource s n (dioGet s n).therm))
      ∧ ((dioGet s n).latched = false → dioGet t n = dioGet s n)
      ∧ (∀ k, k ≠ n → dioGet t k = dioGet s k) ∧ t = { s with hdrs := t.hdrs, dig.outs := t.dig.outs } := by
  intro n
  have he : outReset req arg s = updHdr 0x30 (hdrEnd .ok 0) (if (dioGet s n).latched then
      dioResolve n (updDio n (fun o => { o with latched := false, overload := false, retries := 0 }) (takeCmd 0x30 req 2 arg s))
      else takeCmd 0x30 req 2 arg s) := by
    unfold outReset
    rw [issueCmd_ready hr]
    dsimp only
    have h1 : ¬ dioMode (takeCmd 0x30 req 2 arg s) arg.toNat < 2 := Nat.not_lt.mpr hm
    have h2 : dioGet (takeCmd 0x30 req 2 arg s) arg.toNat = dioGet s n := rfl
    rw [fld_low (k := 5) ha, show argOutside arg 0x1F = false from argOutside_small 5 ha, if_neg Bool.false_ne_true,
      if_neg h1, h2]
    cases (dioGet s n).latched <;> rfl
  have hh : hdr (takeCmd 0x30 req 2 arg s) 0x30 = hdrHeld req 2 arg (hdr s 0x30) := hdr_takeCmd_same _ _ _ _ _
  refine ⟨_, congrArg Host.Outcome.next he, ?_⟩
  cases hl : (dioGet s n).latched with
  | true =>
    rw [if_pos rfl]
    have hg := dioGet_dioResolve_updDio (n := n) (s := takeCmd 0x30 req 2 arg s)
      (f := fun o => { o with latched := false, overload := false, retries := 0 }) rfl rfl
    refine ⟨(updHdr_same _ _ _).trans (congrArg (hdrEnd .ok 0) hh), fun _ => ⟨?_, ?_, ?_, ?_⟩, by nofun, fun k hk => ?_, rfl⟩
    · exact (congrArg DioOut.latched hg).trans rfl
    · exact (congrArg DioOut.overload hg).trans rfl
    · exact (congrArg DioOut.retries hg).trans rfl
    · exact (congrArg DioOut.drive hg).trans rfl
    · exact (dioResolve_other n _ hk).trans (updDio_other n _ _ hk)
  | false =>
    rw [if_neg Bool.false_ne_true]
    exact ⟨(updHdr_same _ _ _).trans (congrArg (hdrEnd .ok 0) hh), by nofun, fun _ => rfl, fun _ _ => rfl, rfl⟩

/-- Settles O40, by the drive state that each change of a protection resolves to. -/
theorem driverProtection : Obligations.DriverProtection := by
  unfold Obligations.DriverProtection
  refine ⟨?_, fun n v s hd => ⟨?_, dioThermClear_spec hd, fun hdr => ?_, congrArg Host.Outcome.next (if_pos hd)⟩,
    fun avg s => totalOver_spec, fun req arg s => outReset_spec⟩
  · intro n s o
    refine ⟨overloadTrip_spec, overloadRetry_spec, fun h1 h2 h3 => ?_, inrushWindowEnd_spec n s⟩
    have hb : (dioLive s n.val && (dioGet s n.val).drive && !(dioGet s n.val).overload) = true := by
      rw [h1, show (dioGet s n.val).drive = true from h2, show (dioGet s n.val).overload = false from h3]
      rfl
    exact congrArg Host.Outcome.next (if_pos hb)
  · obtain ⟨t, c, m, src, he, ⟨h1, h2, h3, h4⟩, hs⟩ := dioThermSet_change (n := n) (v := v) hd
    refine ⟨t, he, ?_⟩
    rw [h1, h2]
    exact ⟨rfl, rfl, rfl, hs, h3, h4⟩
  · obtain ⟨t, c, m, src, he, ⟨h1, h2, h3, h4⟩, hs⟩ := dioThermSet_change (n := n) (v := v) hd
    refine ⟨t, he, ?_⟩
    rw [h1]
    change (if (dioGet s n.val).drive && !false then true else _) = true
    rw [hdr]
    rfl

end Sys2Proof.Machine
end


section
/-! Commands of the ALARM and CALL pages (ch. 08): held, and applied at a boundary. -/

namespace Sys2Proof.Machine

/-! Planned points. -/

theorem mem_plannedPoints_ins {e : Entry} {q : Nat} (l : List Nat) (h : q ∈ plannedPoints.ins e l) :
    q = e.target ∨ q ∈ l := by
  induction l with
  | nil => exact .inl (List.mem_singleton.mp h)
  | cons m r ih =>
    unfold plannedPoints.ins at h
    split at h
    · rcases List.mem_cons.mp h with h | h
      · exact .inl h
      · exact .inr h
    · rcases List.mem_cons.mp h with h | h
      · exact .inr (h ▸ List.mem_cons_self)
      · exact (ih h).imp_right (List.mem_cons_of_mem m)

theorem planned_of_mem_plannedPoints {s : State} {q : Nat} (h : q ∈ plannedPoints s) : planned s 5 q = true := by
  have hl : ∀ (l : List Entry) (acc : List Nat), q ∈ l.foldl (fun acc e => if e.ty = 5 then plannedPoints.ins e acc else acc) acc →
      q ∈ acc ∨ ∃ e ∈ l, e.ty = 5 ∧ e.target = q := by
    intro l
    induction l with
    | nil => exact fun acc h => .inl h
    | cons e l ih =>
      intro acc h
      rcases ih _ h with h | ⟨e', he', h⟩
      · dsimp only at h
        split at h
        · rename_i hty
          rcases mem_plannedPoints_ins acc h with h | h
          · exact .inr ⟨e, List.mem_cons_self, hty, h.symm⟩
          · exact .inl h
        · exact .inl h
      · exact .inr ⟨e', List.mem_cons_of_mem e he', h⟩
  rcases hl s.plan.entries [] h with h | ⟨e, he, h5, hq⟩
  · exact absurd h List.not_mem_nil
  · unfold planned planEntry
    rw [List.find?_isSome]
    exact ⟨e, he, by simp [h5, hq]⟩

theorem planned_of_mem_members {s : State} {g q : Nat} (h : q ∈ members s g) : planned s 5 q = true :=
  planned_of_mem_plannedPoints (List.mem_of_mem_filter h)

theorem PointsOnly.planned {s t : State} (h : PointsOnly s t) (ty n : Nat) : planned t ty n = Machine.planned s ty n := by
  obtain ⟨_, _, _, _, _, rfl⟩ := h
  rfl

/-! Acknowledgement. -/

/-- A point acknowledged (R227). -/
def acknowledged (time : Stamp) (x : Point) : Point :=
  match x.state with
  | .activeUnack => { x with sounding := false, state := .activeAck, time := time }
  | .clearedUnack => { x with sounding := false, state := if x.srcBad then .fault else .normal, time := time }
  | _ => x

theorem ackPoint_pointsOnly (p cause by_ : Nat) (s : State) : PointsOnly s (ackPoint p cause by_ s).1 := by
  unfold ackPoint
  dsimp only
  split
  · split
    · exact (updPoint_pointsOnly _ _ _).trans (ptTo_pointsOnly _ _ _ _ _ _ _)
    · exact (updPoint_pointsOnly _ _ _).trans (ptTo_pointsOnly _ _ _ _ _ _ _)
    · exact .refl s
  · exact .refl s

theorem ackPoint_unack {p : Nat} {cause by_ : Nat} {s : State} (hp : planned s 5 p = true)
    (h : (pointGet s p).state = .activeUnack) : ackPoint p cause by_ s
      = (ptTo p .activeAck (stampNow s 0) cause by_ (ptWord s p) (updPoint p (fun x => { x with sounding := false }) s), true) := by
  unfold ackPoint
  dsimp only
  rw [if_pos hp, h]

theorem ackPoint_cleared {p : Nat} {cause by_ : Nat} {s : State} (hp : planned s 5 p = true)
    (h : (pointGet s p).state = .clearedUnack) : ackPoint p cause by_ s
      = (ptTo p (if (pointGet s p).srcBad then .fault else .normal) (stampNow s 0) cause by_ (ptWord s p)
          (updPoint p (fun x => { x with sounding := false }) s), true) := by
  unfold ackPoint
  dsimp only
  rw [if_pos hp, h]

theorem ackPoint_other_state {p : Nat} {cause by_ : Nat} {s : State} (h1 : (pointGet s p).state ≠ .activeUnack)
    (h2 : (pointGet s p).state ≠ .clearedUnack) : ackPoint p cause by_ s = (s, false) := by
  unfold ackPoint
  dsimp only
  split
  · split
    · rename_i h
      exact absurd h h1
    · rename_i h
      exact absurd h h2
    · rfl
  · rfl

theorem pointGet_ackPoint {p : Nat} {cause by_ : Nat} {s : State} (hp : planned s 5 p = true) :
    pointGet (ackPoint p cause by_ s).1 p = acknowledged (stampNow s 0) (pointGet s p) := by
  unfold acknowledged
  split
  · rename_i h
    rw [ackPoint_unack hp h, pointGet_ptTo, updPoint_same, enters_quiet (by decide)]
  · rename_i h
    rw [ackPoint_cleared hp h, pointGet_ptTo, updPoint_same, enters_quiet (by split <;> decide)]
  · rename_i h1 h2
    rw [ackPoint_other_state h1 h2]

theorem pointGet_ackPoint_other {p : Nat} {cause by_ : Nat} {s : State} {q : Nat} (hq : q ≠ p) :
    pointGet (ackPoint p cause by_ s).1 q = pointGet s q := by
  unfold ackPoint
  dsimp only
  split
  · split
    · exact (pointGet_ptTo_other _ _ _ _ _ _ _ hq).trans (updPoint_other _ _ _ hq)
    · exact (pointGet_ptTo_other _ _ _ _ _ _ _ hq).trans (updPoint_other _ _ _ hq)
    · rfl
  · rfl

theorem acknowledged_unack {time : Stamp} {x : Point} (h : x.state = .activeUnack) :
    acknowledged time x = { x with sounding := false, state := .activeAck, time := time } := by
  unfold acknowledged
  rw [h]

theorem acknowledged_cleared {time : Stamp} {x : Point} (h : x.state = .clearedUnack) :
    acknowledged time x = { x with sounding := false, state := if x.srcBad then .fault else .normal, time := time } := by
  unfold acknowledged
  rw [h]

theorem acknowledged_ack {time : Stamp} {x : Point} (h : x.state = .activeAck) : acknowledged time x = x := by
  unfold acknowledged
  rw [h]

/-- The acknowledgement of several points, the count apart. -/
def ackAcc (cause by_ : Nat) (l : List Nat) (a : State × Nat) : State × Nat :=
  l.foldl (fun (a : State × Nat) p => ((ackPoint p cause by_ a.1).1, a.2 + b2n (ackPoint p cause by_ a.1).2)) a

theorem ackAcc_spec (cause by_ : Nat) (l : List Nat) : ∀ a : State × Nat, (∀ q ∈ l, planned a.1 5 q = true) →
    PointsOnly a.1 (ackAcc cause by_ l a).1
    ∧ (∀ q, (pointGet a.1 q).state = .activeAck → (pointGet (ackAcc cause by_ l a).1 q).state = .activeAck)
    ∧ (∀ q ∈ l, (pointGet a.1 q).state = .activeUnack → (pointGet (ackAcc cause by_ l a).1 q).state = .activeAck)
    ∧ ∀ q, q ∉ l → pointGet (ackAcc cause by_ l a).1 q = pointGet a.1 q := by
  induction l with
  | nil => exact fun a _ => ⟨.refl _, fun _ h => h, fun _ h => absurd h List.not_mem_nil, fun _ _ => rfl⟩
  | cons p l ih =>
    intro a hp
    have hpt := ackPoint_pointsOnly p cause by_ a.1
    obtain ⟨h1, h2, h3, h4⟩ := ih ((ackPoint p cause by_ a.1).1, a.2 + b2n (ackPoint p cause by_ a.1).2)
      (fun q hq => (hpt.planned 5 q).trans (hp q (List.mem_cons_of_mem p hq)))
    have hpp := hp p List.mem_cons_self
    have hack : ∀ q, (pointGet a.1 q).state = .activeAck → (pointGet (ackPoint p cause by_ a.1).1 q).state = .activeAck := by
      intro q hq
      by_cases hqp : q = p
      · subst hqp
        rw [pointGet_ackPoint hpp, acknowledged_ack hq, hq]
      · rw [pointGet_ackPoint_other hqp, hq]
    refine ⟨hpt.trans h1, fun q hq => h2 q (hack q hq), fun q hq hu => ?_, fun q hq => ?_⟩
    · by_cases hqp : q = p
      · subst hqp
        refine h2 q ?_
        rw [pointGet_ackPoint hpp, acknowledged_unack hu]
      · refine h3 q ((List.mem_cons.mp hq).resolve_left hqp) ?_
        rw [pointGet_ackPoint_other hqp, hu]
    · refine (h4 q fun h => hq (List.mem_cons_of_mem p h)).trans ?_
      exact pointGet_ackPoint_other fun h => hq (h ▸ List.mem_cons_self)

/-! SILENCE. -/

theorem alarmEvent_evq (code group point : Nat) (s : State) :
    ∃ e f, alarmEvent code group point s = { s with evq := e, free := f } := blockEv_evq _ _ _ s

theorem foldl_silence (l : List Nat) : ∀ s : State,
    (∃ x, l.foldl (fun s p => updPoint p (fun x => { x with sounding := false }) s) s = { s with alarm.points := x })
    ∧ ∀ q, pointGet (l.foldl (fun s p => updPoint p (fun x => { x with sounding := false }) s) s) q
      = if q ∈ l then { pointGet s q with sounding := false } else pointGet s q := by
  induction l with
  | nil => exact fun s => ⟨⟨s.alarm.points, rfl⟩, fun q => (if_neg List.not_mem_nil).symm⟩
  | cons p l ih =>
    intro s
    obtain ⟨⟨x, hx⟩, h⟩ := ih (updPoint p (fun x => { x with sounding := false }) s)
    refine ⟨⟨x, hx⟩, fun q => (h q).trans ?_⟩
    by_cases hq : q = p
    · subst hq
      rw [updPoint_same, if_pos List.mem_cons_self]
      split <;> rfl
    · rw [updPoint_other _ _ s hq]
      by_cases hl : q ∈ l
      · rw [if_pos hl, if_pos (List.mem_cons_of_mem p hl)]
      · rw [if_neg hl, if_neg fun h => hl ((List.mem_cons.mp h).resolve_left hq)]

/-! Commands that a boundary applies (R232, R244, R246). -/

/-- A command that ends with a status other than STATE. -/
theorem runHeld_done {page res : Nat} {apply : Nat → BitVec 24 → Requester → State → CmdEnd} {r : RunCmd} {st : CStat}
    {s t : State} (hr : (hdr s page).run = some r) (ha : apply r.op.toNat r.arg r.by_ s = .done st res t) (hs : st ≠ .state) :
    runHeld page apply s = updHdr page (hdrEnd st res) t := by
  unfold runHeld
  rw [hr]
  dsimp only
  rw [ha]
  exact finishCmd_eq page st res t hs

/-- A command refused with STATE: its status, CMD_STATE, and no other change but a record. -/
theorem finishCmd_state {page res : Nat} {r : RunCmd} {s : State} (hr : (hdr s page).run = some r) :
    ∃ e f, finishCmd page .state res s = { setSticky page 1 (updHdr page (hdrEnd .state res) s) with evq := e, free := f } := by
  unfold finishCmd
  dsimp only
  rw [hr]
  exact raiseEv_evq _ _ _ _ _

theorem alarmCmd_state {r : RunCmd} {s : State} (hr : (hdr s 0x13).run = some r) (hc : claimed s = false) :
    (hdr (runHeld 0x13 applyAlarmCmd s) 0x13).status = 3 ∧ bitAt (hdr (runHeld 0x13 applyAlarmCmd s) 0x13).sticky 1 = true
      ∧ (runHeld 0x13 applyAlarmCmd s).alarm = s.alarm := by
  have ha : applyAlarmCmd r.op.toNat r.arg r.by_ s = .done .state 0 s := by
    unfold applyAlarmCmd
    dsimp only
    rw [hc]
    rfl
  have he : runHeld 0x13 applyAlarmCmd s = finishCmd 0x13 .state 0 s := by
    unfold runHeld
    rw [hr]
    dsimp only
    rw [ha]
  obtain ⟨e, f, h⟩ := finishCmd_state (res := 0) hr
  rw [he, h]
  have hh : hdr { setSticky 0x13 1 (updHdr 0x13 (hdrEnd .state 0) s) with evq := e, free := f } 0x13
      = hdrSticky 1 (hdrEnd .state 0 (hdr s 0x13)) :=
    (hdr_setSticky_same 0x13 1 _).trans (congrArg (hdrSticky 1) (updHdr_same _ _ _))
  rw [hh]
  exact ⟨rfl, bitAt_setBit_same _ (by decide) true, rfl⟩

/-- The state in which an acknowledgement acts: the code of a safety requester is free. -/
def byTaken (req : Requester) (s : State) : State := if req = .safe then { s with free := s.free + 1 } else s

theorem byTaken_frame (req : Requester) (s : State) : ∃ f, byTaken req s = { s with free := f } := by
  unfold byTaken
  split
  · exact ⟨_, rfl⟩
  · exact ⟨s.free, rfl⟩

theorem claimed_taken {s : State} (h : claimed s = true) : ¬ (!claimed s) = true := by
  rw [h]
  exact Bool.false_ne_true

theorem applyAlarmCmd_ackPoint {arg : BitVec 24} {req : Requester} {s : State} (hc : claimed s = true)
    (ha : arg.toNat < 2048) (hp : planned s 5 (fld arg 0 11) = true) :
    applyAlarmCmd 1 arg req s = .done .ok (b2n (ackPoint (fld arg 0 11) 1 (byCode req s) (byTaken req s)).2)
      (ackPoint (fld arg 0 11) 1 (byCode req s) (byTaken req s)).1 := by
  have ho : argOutside arg 0x7FF = false := argOutside_small 11 ha
  exact (if_neg (claimed_taken hc)).trans ((if_neg (Bool.not_eq_true _ ▸ ho)).trans (if_pos hp))

theorem applyAlarmCmd_ackSome {op : Nat} {arg : BitVec 24} {req : Requester} {s : State} {l : List Nat}
    (hc : claimed s = true) (h : op = 2 ∧ arg.toNat < 256 ∧ planned s 6 (fld arg 0 8) = true ∧ l = members s (fld arg 0 8)
      ∨ op = 3 ∧ arg = 0 ∧ l = plannedPoints s) :
    applyAlarmCmd op arg req s = .done .ok (ackAcc 1 (byCode req s) l (byTaken req s, 0)).2
      (ackAcc 1 (byCode req s) l (byTaken req s, 0)).1 := by
  rcases h with ⟨rfl, ha, hp, rfl⟩ | ⟨rfl, rfl, rfl⟩
  · have ho : argOutside arg 0xFF = false := argOutside_small 8 ha
    exact (if_neg (claimed_taken hc)).trans ((if_neg (Bool.not_eq_true _ ▸ ho)).trans (if_pos hp))
  · exact (if_neg (claimed_taken hc)).trans (if_neg (by decide : ¬ argOutside 0 0 = true))

theorem applyAlarmCmd_silence {req : Requester} {s : State} (hc : claimed s = true) :
    applyAlarmCmd 4 0 req s = .done .ok ((plannedPoints s).filter (fun q => (pointGet s q).sounding)).length
      (alarmEvent 0x10 0 0 (((plannedPoints s).filter (fun q => (pointGet s q).sounding)).foldl
        (fun s p => updPoint p (fun x => { x with sounding := false }) s) s)) := by
  exact (if_neg (claimed_taken hc)).trans (if_neg (by decide : ¬ argOutside 0 0 = true))

theorem applyAlarmCmd_inhibit {arg : BitVec 24} {req : Requester} {s : State} (hc : claimed s = true)
    (ha : argOutside arg 0x107FF = false) (hp : planned s 5 (fld arg 0 11) = true)
    (hn : ptNoInhibit (ptBody s (fld arg 0 11)) = false) :
    applyAlarmCmd 5 arg req s = .done .ok 0 (updPoint (fld arg 0 11) (fun x => { x with inhibit := bitAt arg 16 }) s) := by
  have h1 : ¬ (!planned s 5 (fld arg 0 11)) = true := by
    rw [hp]
    exact Bool.false_ne_true
  exact (if_neg (claimed_taken hc)).trans ((if_neg (Bool.not_eq_true _ ▸ ha)).trans
    ((if_neg h1).trans (if_neg (Bool.not_eq_true _ ▸ hn))))

theorem applyAlarmCmd_resetFirstOut {arg : BitVec 24} {req : Requester} {s : State} (hc : claimed s = true)
    (ha : arg.toNat < 256) (hp : planned s 6 (fld arg 0 8) = true)
    (hm : ∀ q ∈ members s (fld arg 0 8), (pointGet s q).state ≠ .activeUnack) :
    applyAlarmCmd 6 arg req s = .done .ok (((groupGet s (fld arg 0 8)).fo.map Prod.fst).getD 0x800)
      (emptyFo (fld arg 0 8) s) := by
  have hb : ((members s (fld arg 0 8)).any fun p => decide ((pointGet s p).state = .activeUnack)) = false := by
    rw [List.any_eq_false]
    intro q hq
    rw [decide_eq_true_eq]
    exact hm q hq
  have ho : argOutside arg 0xFF = false := argOutside_small 8 ha
  have h1 : ¬ (!planned s 6 (fld arg 0 8)) = true := by
    rw [hp]
    exact Bool.false_ne_true
  refine (if_neg (claimed_taken hc)).trans ((if_neg (Bool.not_eq_true _ ▸ ho)).trans
    ((if_neg h1).trans ((if_neg (Bool.not_eq_true _ ▸ hb)).trans ?_)))
  cases hf : (groupGet s (fld arg 0 8)).fo with
  | none =>
    rw [emptyFo_empty hf]
    rfl
  | some x => rfl

end Sys2Proof.Machine
end


section
/-! What a boundary does for the commands of the ALARM and CALL pages (ch. 08). -/

namespace Sys2Proof.Machine

/-- The parts of a point's group and of the header that a held command ends with. -/
theorem runHeld_hdr {page res : Nat} {st : CStat} {t : State} :
    (hdr (updHdr page (hdrEnd st res) t) page).status = st.code
    ∧ (hdr (updHdr page (hdrEnd st res) t) page).result = BitVec.ofNat 24 res := by
  rw [updHdr_same]
  exact ⟨rfl, rfl⟩

theorem pointGet_byTaken (req : Requester) (s : State) (q : Nat) : pointGet (byTaken req s) q = pointGet s q := by
  obtain ⟨f, h⟩ := byTaken_frame req s
  rw [h]
  rfl

theorem planned_byTaken (req : Requester) (s : State) (ty n : Nat) : planned (byTaken req s) ty n = planned s ty n := by
  obtain ⟨f, h⟩ := byTaken_frame req s
  rw [h]
  rfl

theorem alarm_byTaken (req : Requester) (s : State) : (byTaken req s).alarm = s.alarm := by
  obtain ⟨f, h⟩ := byTaken_frame req s
  rw [h]

/-- ACK_POINT (R232). -/
theorem ackPointHeld_spec {r : RunCmd} {s : State} (hr : (hdr s 0x13).run = some r) (hc : claimed s = true) (ho : r.op = 1)
    (ha : r.arg.toNat < 2048) (hp : planned s 5 (fld r.arg 0 11) = true) :
    let t := runHeld 0x13 applyAlarmCmd s
    let p := fld r.arg 0 11
    (hdr t 0x13).status = 0
    ∧ ((pointGet s p).state = .activeUnack → (pointGet t p).state = .activeAck ∧ (pointGet t p).sounding = false
        ∧ (hdr t 0x13).result = 1)
    ∧ ((pointGet s p).state = .clearedUnack → (pointGet t p).sounding = false ∧ (hdr t 0x13).result = 1
        ∧ (pointGet t p).state = if (pointGet s p).srcBad then .fault else .normal)
    ∧ ((pointGet s p).state ≠ .activeUnack → (pointGet s p).state ≠ .clearedUnack → t.alarm = s.alarm
        ∧ (hdr t 0x13).result = 0)
    ∧ (∀ q, q ≠ p → pointGet t q = pointGet s q) := by
  intro t p
  have e : t = updHdr 0x13 (hdrEnd .ok (b2n (ackPoint p 1 (byCode r.by_ s) (byTaken r.by_ s)).2))
      (ackPoint p 1 (byCode r.by_ s) (byTaken r.by_ s)).1 := by
    refine runHeld_done hr ?_ CStat.noConfusion
    rw [show r.op.toNat = 1 from congrArg BitVec.toNat ho]
    exact applyAlarmCmd_ackPoint hc ha hp
  clear_value t
  have hp' : planned (byTaken r.by_ s) 5 p = true := (planned_byTaken _ _ _ _).trans hp
  have hx := pointGet_byTaken r.by_ s p
  have hg := pointGet_ackPoint (cause := 1) (by_ := byCode r.by_ s) hp'
  rw [hx] at hg
  obtain ⟨hs, hres⟩ := runHeld_hdr (page := 0x13) (st := .ok)
    (res := b2n (ackPoint p 1 (byCode r.by_ s) (byTaken r.by_ s)).2) (t := (ackPoint p 1 (byCode r.by_ s) (byTaken r.by_ s)).1)
  have hgt : pointGet t p = acknowledged (stampNow (byTaken r.by_ s) 0) (pointGet s p) := by
    rw [e]
    exact hg
  rw [← e] at hs hres
  refine ⟨hs, fun h => ?_, fun h => ?_, fun h1 h2 => ?_, fun q hq => ?_⟩
  · rw [hgt, acknowledged_unack h, hres, ackPoint_unack hp' ((congrArg Point.state hx).trans h)]
    exact ⟨rfl, rfl, rfl⟩
  · rw [hgt, acknowledged_cleared h, hres, ackPoint_cleared hp' ((congrArg Point.state hx).trans h)]
    exact ⟨rfl, rfl, rfl⟩
  · have hk := ackPoint_other_state (p := p) (cause := 1) (by_ := byCode r.by_ s) (s := byTaken r.by_ s)
      (fun h => h1 ((congrArg Point.state hx).symm.trans h)) (fun h => h2 ((congrArg Point.state hx).symm.trans h))
    refine ⟨?_, ?_⟩
    · rw [e, hk]
      exact alarm_byTaken _ _
    · rw [hres, hk]
      rfl
  · rw [e]
    exact (pointGet_ackPoint_other hq).trans (pointGet_byTaken _ _ _)

/-- ACK_GROUP and ACK_ALL (R232). -/
theorem ackSomeHeld_spec {r : RunCmd} {s : State} (hr : (hdr s 0x13).run = some r) (hc : claimed s = true)
    (h : r.op = 2 ∧ r.arg.toNat < 256 ∧ planned s 6 (fld r.arg 0 8) = true ∨ r.op = 3 ∧ r.arg = 0) :
    let t := runHeld 0x13 applyAlarmCmd s
    let l := if r.op = 2 then members s (fld r.arg 0 8) else plannedPoints s
    (hdr t 0x13).status = 0
    ∧ (∀ q ∈ l, (pointGet s q).state = .activeUnack → (pointGet t q).state = .activeAck)
    ∧ (∀ q, q ∉ l → pointGet t q = pointGet s q) := by
  intro t l
  have hl : r.op.toNat = 2 ∧ r.arg.toNat < 256 ∧ planned s 6 (fld r.arg 0 8) = true ∧ l = members s (fld r.arg 0 8)
      ∨ r.op.toNat = 3 ∧ r.arg = 0 ∧ l = plannedPoints s := by
    rcases h with ⟨h1, h2, h3⟩ | ⟨h1, h2⟩
    · exact .inl ⟨congrArg BitVec.toNat h1, h2, h3, if_pos h1⟩
    · exact .inr ⟨congrArg BitVec.toNat h1, h2, if_neg (by rw [h1]; decide)⟩
  have hpl : ∀ q ∈ l, planned (byTaken r.by_ s) 5 q = true := by
    intro q hq
    rw [planned_byTaken]
    rcases hl with ⟨_, _, _, hl⟩ | ⟨_, _, hl⟩
    · exact planned_of_mem_members (hl ▸ hq)
    · exact planned_of_mem_plannedPoints (hl ▸ hq)
  have e : t = updHdr 0x13 (hdrEnd .ok (ackAcc 1 (byCode r.by_ s) l (byTaken r.by_ s, 0)).2)
      (ackAcc 1 (byCode r.by_ s) l (byTaken r.by_ s, 0)).1 :=
    runHeld_done hr (applyAlarmCmd_ackSome hc hl) CStat.noConfusion
  obtain ⟨_, _, h3, h4⟩ := ackAcc_spec 1 (byCode r.by_ s) l (byTaken r.by_ s, 0) hpl
  rw [e]
  refine ⟨(runHeld_hdr).1, fun q hq hu => ?_, fun q hq => ?_⟩
  · exact h3 q hq ((congrArg Point.state (pointGet_byTaken _ _ _)).trans hu)
  · exact (h4 q hq).trans (pointGet_byTaken _ _ _)

/-- SILENCE (R232). -/
theorem silenceHeld_spec {r : RunCmd} {s : State} (hr : (hdr s 0x13).run = some r) (hc : claimed s = true) (ho : r.op = 4)
    (ha : r.arg = 0) :
    let t := runHeld 0x13 applyAlarmCmd s
    let l := (plannedPoints s).filter (fun q => (pointGet s q).sounding)
    (hdr t 0x13).status = 0 ∧ (hdr t 0x13).result = BitVec.ofNat 24 l.length
    ∧ (∀ q ∈ plannedPoints s, pointGet t q = { pointGet s q with sounding := false })
    ∧ (∀ q, q ∉ plannedPoints s → pointGet t q = pointGet s q) := by
  intro t l
  have e : t = updHdr 0x13 (hdrEnd .ok l.length) (alarmEvent 0x10 0 0
      (l.foldl (fun s p => updPoint p (fun x => { x with sounding := false }) s) s)) := by
    refine runHeld_done hr ?_ CStat.noConfusion
    rw [show r.op.toNat = 4 from congrArg BitVec.toNat ho, ha]
    exact applyAlarmCmd_silence hc
  obtain ⟨_, hl⟩ := foldl_silence l s
  have hg : ∀ q, pointGet t q = if q ∈ l then { pointGet s q with sounding := false } else pointGet s q := by
    intro q
    rw [e]
    obtain ⟨ev, f, hev⟩ := alarmEvent_evq 0x10 0 0
      (l.foldl (fun s p => updPoint p (fun x => { x with sounding := false }) s) s)
    rw [hev]
    exact hl q
  refine ⟨?_, ?_, fun q hq => ?_, fun q hq => ?_⟩
  · rw [e]
    exact (runHeld_hdr).1
  · rw [e]
    exact (runHeld_hdr).2
  · rw [hg q]
    by_cases hs : q ∈ l
    · exact if_pos hs
    · rw [if_neg hs]
      have hf : (pointGet s q).sounding = false := by
        by_contra h
        exact hs (List.mem_filter.mpr ⟨hq, by simpa using h⟩)
      rw [← hf]
  · rw [hg q]
    exact if_neg fun h => hq (List.mem_of_mem_filter h)

/-- INHIBIT (R232). -/
theorem inhibitHeld_spec {r : RunCmd} {s : State} (hr : (hdr s 0x13).run = some r) (hc : claimed s = true) (ho : r.op = 5)
    (ha : argOutside r.arg 0x107FF = false) (hp : planned s 5 (fld r.arg 0 11) = true)
    (hn : ptNoInhibit (ptBody s (fld r.arg 0 11)) = false) :
    let t := runHeld 0x13 applyAlarmCmd s
    let p := fld r.arg 0 11
    (hdr t 0x13).status = 0 ∧ pointGet t p = { pointGet s p with inhibit := bitAt r.arg 16 }
      ∧ (∀ q, q ≠ p → pointGet t q = pointGet s q) := by
  intro t p
  have e : t = updHdr 0x13 (hdrEnd .ok 0) (updPoint p (fun x => { x with inhibit := bitAt r.arg 16 }) s) := by
    refine runHeld_done hr ?_ CStat.noConfusion
    rw [show r.op.toNat = 5 from congrArg BitVec.toNat ho]
    exact applyAlarmCmd_inhibit hc ha hp hn
  rw [e]
  exact ⟨(runHeld_hdr).1, updPoint_same _ _ s, fun q hq => updPoint_other _ _ s hq⟩

/-- A group whose first-out latch has been emptied. -/
theorem fo_emptyFo (g : Nat) (s : State) : (groupGet (emptyFo g s) g).fo = none := by
  cases h : (groupGet s g).fo with
  | none =>
    rw [emptyFo_empty h]
    exact h
  | some x =>
    unfold emptyFo
    rw [h]
    dsimp only
    rw [groupGet_alarmEvent, updGroup_same]

/-- RESET_FIRST_OUT (R232). -/
theorem resetFirstOutHeld_spec {r : RunCmd} {s : State} (hr : (hdr s 0x13).run = some r) (hc : claimed s = true)
    (ho : r.op = 6) (ha : r.arg.toNat < 256) (hp : planned s 6 (fld r.arg 0 8) = true)
    (hm : ∀ q ∈ members s (fld r.arg 0 8), (pointGet s q).state ≠ .activeUnack) :
    let t := runHeld 0x13 applyAlarmCmd s
    let g := fld r.arg 0 8
    (hdr t 0x13).status = 0 ∧ (groupGet t g).fo = none
      ∧ (hdr t 0x13).result = BitVec.ofNat 24 (((groupGet s g).fo.map Prod.fst).getD 0x800)
      ∧ (∀ k, k ≠ g → groupGet t k = groupGet s k) ∧ t.alarm.points = s.alarm.points := by
  intro t g
  have e : t = updHdr 0x13 (hdrEnd .ok (((groupGet s g).fo.map Prod.fst).getD 0x800)) (emptyFo g s) := by
    refine runHeld_done hr ?_ CStat.noConfusion
    rw [show r.op.toNat = 6 from congrArg BitVec.toNat ho]
    exact applyAlarmCmd_resetFirstOut hc ha hp hm
  rw [e]
  refine ⟨(runHeld_hdr).1, fo_emptyFo g s, (runHeld_hdr).2, fun k hk => groupGet_emptyFo_other g s hk, ?_⟩
  obtain ⟨x, ev, f, h⟩ := emptyFo_groupsOnly g s
  rw [h]
  rfl

/-! The CALL page. -/

theorem setDuty_duty (e : Nat) (s : State) : (setDuty e s).alarm.call.duty = e := by
  unfold setDuty
  dsimp only
  split
  · rename_i h
    exact h.symm
  · rw [call_callEvent]
    rfl

/-- A change of the watch's phase leaves its switch and its start. -/
theorem setPhase_watch (ph : WatchPhase) (s : State) : (setPhase ph s).alarm.call.watchOn = s.alarm.call.watchOn
    ∧ (setPhase ph s).alarm.call.watchStart = s.alarm.call.watchStart := by
  have hp : (phaseSet ph s).alarm.call.watchOn = s.alarm.call.watchOn
      ∧ (phaseSet ph s).alarm.call.watchStart = s.alarm.call.watchStart := by
    unfold phaseSet
    split
    · exact ⟨rfl, rfl⟩
    · rw [call_callEvent]
      exact ⟨rfl, rfl⟩
  have ht : ∀ t x, (setTab t x (phaseSet ph s)).alarm.call.watchOn = s.alarm.call.watchOn
      ∧ (setTab t x (phaseSet ph s)).alarm.call.watchStart = s.alarm.call.watchStart := by
    intro t x
    obtain ⟨xs, e⟩ := call_setTab t x (phaseSet ph s)
    rw [e]
    exact hp
  rw [setPhase_eq]
  split
  · split
    · exact ht _ _
    · exact hp
  · split
    · exact hp
    · exact ht _ _

theorem startWatch_spec (s : State) : (startWatch s).alarm.call.phase = .running
    ∧ (startWatch s).alarm.call.watchStart = s.course.cn ∧ (startWatch s).alarm.call.watchOn = s.alarm.call.watchOn :=
  ⟨phase_setPhase _ _, (setPhase_watch _ _).2, (setPhase_watch _ _).1⟩

theorem applyCallCmd_duty {arg : BitVec 24} {s : State} (hc : claimed s = true) (hro : (roster s).isSome = true)
    (ha : arg.toNat < 16) (hd : rosterDutyDi s = false) (hx : xferBusy s = false) (hcab : cabin s arg.toNat ≠ 0xFF) :
    applyCallCmd 1 arg s = .done .ok s.alarm.call.duty (setDuty arg.toNat s) := by
  have ho : argOutside arg 0xF = false := hartArgument ha
  have hn : ¬ (roster s).isNone = true := by
    rw [Option.isNone_iff_eq_none]
    intro h
    rw [h] at hro
    exact Bool.false_ne_true hro
  have hb : ¬ (rosterDutyDi s || xferBusy s) = true := by
    rw [hd, hx]
    exact Bool.false_ne_true
  have e : fld arg 0 4 = arg.toNat := fld_argument ha
  refine (if_neg (claimed_taken hc)).trans ((if_neg (Bool.not_eq_true _ ▸ ho)).trans ((if_neg hn).trans ((if_neg hb).trans ?_)))
  rw [e]
  exact if_neg hcab

theorem applyCallCmd_watch {arg : BitVec 24} {s : State} (hc : claimed s = true) (hro : (roster s).isSome = true)
    (ha : arg.toNat < 2) (hw : watchEn s = true) (he : enableDi s = 0xFF) :
    applyCallCmd 2 arg s = .done .ok 0 (applyWatch (bitAt arg 0) (updCall (fun c => { c with watchOn := bitAt arg 0 }) s)) := by
  have ho : argOutside arg 1 = false := argOutside_small 1 ha
  have hb : ¬ ((roster s).isNone || !watchEn s || decide (enableDi s ≠ 0xFF)) = true := by
    have hn : (roster s).isNone = false := by
      cases h : roster s with
      | none =>
        rw [h] at hro
        exact absurd hro Bool.false_ne_true
      | some x => rfl
    rw [hn, hw, decide_eq_false (not_not_intro he)]
    exact Bool.false_ne_true
  exact (if_neg (claimed_taken hc)).trans ((if_neg (Bool.not_eq_true _ ▸ ho)).trans (if_neg hb))

theorem applyCallCmd_reset {s : State} (hc : claimed s = true) (hp : s.alarm.call.phase ≠ .off) :
    applyCallCmd 3 0 s = .done .ok 0 (startWatch s) :=
  (if_neg (claimed_taken hc)).trans ((if_neg (by decide : ¬ argOutside 0 0 = true)).trans (if_neg hp))

theorem applyWatch_off (s : State) : (applyWatch false s).alarm.call.phase = .off
    ∧ (applyWatch false s).alarm.call.watchOn = s.alarm.call.watchOn := by
  unfold applyWatch
  rw [Bool.and_false, if_neg Bool.false_ne_true]
  split
  · rename_i h
    exact ⟨h, rfl⟩
  · exact ⟨phase_setPhase _ _, (setPhase_watch _ _).1⟩

theorem applyWatch_on {s : State} (h : ((roster s).isSome && watchEn s) = true) :
    (applyWatch true s).alarm.call.watchOn = s.alarm.call.watchOn
    ∧ (s.alarm.call.phase = .off → (applyWatch true s).alarm.call.phase = .running
      ∧ (applyWatch true s).alarm.call.watchStart = s.course.cn) := by
  obtain ⟨h1, h2, h3⟩ := startWatch_spec s
  unfold applyWatch
  rw [Bool.and_true, if_pos h]
  split
  · exact ⟨h3, fun _ => ⟨h1, h2⟩⟩
  · rename_i hp
    exact ⟨rfl, fun h => absurd h hp⟩

theorem watchHeld_spec {r : RunCmd} {s : State} (hr : (hdr s 0x14).run = some r) (hc : claimed s = true)
    (hro : (roster s).isSome = true) (ho : r.op = 2) (ha : r.arg.toNat < 2) (hw : watchEn s = true) (he : enableDi s = 0xFF) :
    let t := runHeld 0x14 (fun op arg _ => applyCallCmd op arg) s
    (hdr t 0x14).status = 0 ∧ t.alarm.call.watchOn = bitAt r.arg 0
      ∧ (bitAt r.arg 0 = false → t.alarm.call.phase = .off)
      ∧ (bitAt r.arg 0 = true → s.alarm.call.phase = .off → t.alarm.call.phase = .running
          ∧ t.alarm.call.watchStart = s.course.cn) := by
  intro t
  have e : t = updHdr 0x14 (hdrEnd .ok 0) (applyWatch (bitAt r.arg 0) (updCall (fun c => { c with watchOn := bitAt r.arg 0 }) s)) := by
    refine runHeld_done hr ?_ CStat.noConfusion
    rw [show r.op.toNat = 2 from congrArg BitVec.toNat ho]
    exact applyCallCmd_watch hc hro ha hw he
  rw [e]
  refine ⟨(runHeld_hdr).1, ?_⟩
  cases bitAt r.arg 0 with
  | false =>
    obtain ⟨h1, h2⟩ := applyWatch_off (updCall (fun c => { c with watchOn := false }) s)
    exact ⟨h2, fun _ => h1, by nofun⟩
  | true =>
    have hb : ((roster (updCall (fun c => { c with watchOn := true }) s)).isSome
        && watchEn (updCall (fun c => { c with watchOn := true }) s)) = true := by
      have h1 : (roster (updCall (fun c => { c with watchOn := true }) s)).isSome = true := hro
      have h2 : watchEn (updCall (fun c => { c with watchOn := true }) s) = true := hw
      rw [h1, h2]
      rfl
    obtain ⟨h1, h2⟩ := applyWatch_on hb
    exact ⟨h1, by nofun, fun _ hp => h2 hp⟩

/-- Settles O41, command by command. -/
theorem alarmAndCallCommands : Obligations.AlarmAndCallCommands := by
  unfold Obligations.AlarmAndCallCommands
  refine ⟨?_, ?_, ?_, ?_⟩
  · rintro c op req arg s (⟨rfl, rfl⟩ | ⟨rfl, rfl⟩ | ⟨rfl, rfl⟩ | ⟨rfl, rfl⟩ | ⟨rfl, rfl⟩ | ⟨rfl, rfl⟩) hr
    all_goals exact answers_hold hr rfl rfl
  · rintro c op req arg s (⟨rfl, rfl⟩ | ⟨rfl, rfl⟩ | ⟨rfl, rfl⟩) hr
    all_goals exact answers_hold hr rfl rfl
  · intro r s hr t p g word
    exact ⟨fun hc => alarmCmd_state hr hc, fun hc ho ha hp => ackPointHeld_spec hr hc ho ha hp,
      fun hc h => ackSomeHeld_spec hr hc h, fun hc ho ha => silenceHeld_spec hr hc ho ha,
      fun hc ho ha hp hn => inhibitHeld_spec hr hc ho ha hp hn,
      fun hc ho ha hp hm => resetFirstOutHeld_spec hr hc ho ha hp hm⟩
  · intro r s hr hc hro t
    refine ⟨fun ho ha hd hx hcab => ?_, fun ho ha hw he => watchHeld_spec hr hc hro ho ha hw he, fun ho ha hp => ?_⟩
    · have e : t = updHdr 0x14 (hdrEnd .ok s.alarm.call.duty) (setDuty r.arg.toNat s) := by
        refine runHeld_done hr ?_ CStat.noConfusion
        rw [show r.op.toNat = 1 from congrArg BitVec.toNat ho]
        exact applyCallCmd_duty hc hro ha hd hx hcab
      rw [e]
      exact ⟨(runHeld_hdr).1, setDuty_duty _ s, (runHeld_hdr).2⟩
    · have e : t = updHdr 0x14 (hdrEnd .ok 0) (startWatch s) := by
        refine runHeld_done hr ?_ CStat.noConfusion
        rw [show r.op.toNat = 3 from congrArg BitVec.toNat ho, ha]
        exact applyCallCmd_reset hc hp
      obtain ⟨h1, h2, _⟩ := startWatch_spec s
      rw [e]
      exact ⟨(runHeld_hdr).1, h1, h2⟩

end Sys2Proof.Machine
end


section
/-! The sources of the interrupt controller (ch. 11): how an occurrence arrives and becomes pending. -/

namespace Sys2Proof.Machine

/-! Sources and targets after an occurrence. -/

theorem SleepOnly.src {b c : IcuBlk} (h : SleepOnly b c) (k : Nat) : icuSrc c k = icuSrc b k := by
  unfold icuSrc
  rw [h.srcs]

theorem icuSrc_wake (b : IcuBlk) (k : Nat) : icuSrc (icuWake b) k = icuSrc b k := (icuWake_sleepOnly b).src k

theorem icuSrc_set_same (b : IcuBlk) (k : Nat) (x : IcuSrc) : icuSrc { b with srcs := b.srcs.set k x } k = x :=
  Tab.get_set_same _ _ _ _

theorem icuSrc_set_other (b : IcuBlk) (k : Nat) (x : IcuSrc) {j : Nat} (h : j ≠ k) :
    icuSrc { b with srcs := b.srcs.set k x } j = icuSrc b j := Tab.get_set_other _ _ _ h

/-- A source after one more occurrence (R292, R304). -/
def occurred (x : IcuSrc) : IcuSrc :=
  if max 1 x.count.toNat ≤ x.counted + 1 then { x with pending := true, counted := 0, timer := false }
  else { x with counted := x.counted + 1, timer := decide (x.time ≠ 0) }

theorem icuSrc_icuOccur_same (k : Nat) (b : IcuBlk) : icuSrc (icuOccur k b) k = occurred (icuSrc b k) := by
  unfold icuOccur
  dsimp only
  rw [icuSrc_wake, icuSrc_set_same]
  rfl

theorem icuSrc_icuOccur_other (k : Nat) (b : IcuBlk) {j : Nat} (h : j ≠ k) : icuSrc (icuOccur k b) j = icuSrc b j := by
  unfold icuOccur
  dsimp only
  rw [icuSrc_wake, icuSrc_set_other _ _ _ h]

theorem stack_icuOccur (k : Nat) (b : IcuBlk) (n : Nat) : (icuTgt (icuOccur k b) n).stack = (icuTgt b n).stack :=
  (icuWake_sleepOnly _).stack n

theorem occurred_pending {x : IcuSrc} (h : x.count.toNat ≤ x.counted + 1) :
    occurred x = { x with pending := true, counted := 0, timer := false } :=
  if_pos (Nat.max_le.mpr ⟨by omega, h⟩)

theorem occurred_counts {x : IcuSrc} (h : x.counted + 1 < x.count.toNat) :
    occurred x = { x with counted := x.counted + 1, timer := decide (x.time ≠ 0) } :=
  if_neg fun hx => absurd (Nat.max_le.mp hx).2 (by omega)

/-! Arrival. -/

/-- What is on its way is not a stack error. -/
theorem stackError_onWay {s : State} {src : IcuId} (h : icuOnWay s src = true) : stackError src = none := by
  cases src with
  | shared g => rfl
  | priv t i =>
    refine if_neg fun hi => ?_
    unfold icuOnWay at h
    dsimp only at h
    rw [hi] at h
    exact Bool.false_ne_true h

theorem exec_icuSourceOccurrence {s : State} {src : IcuId} (hd : domUp s 2 = true) (h : icuOnWay s src = true) :
    exec (.icuSourceOccurrence src) s = .next { icuArrive src s with icu := icuOccur (icuKey src) s.icu } := by
  refine congrArg Host.Outcome.next ((if_pos hd).trans ?_)
  rw [stackError_onWay h]
  exact if_pos h

theorem icuArrive_frame (src : IcuId) (s : State) : ∃ a b c d, icuArrive src s = { s with
    hdrs := a, course.pulses := b, square.pulses := c, evq.queues := d } := by
  unfold icuArrive
  cases src with
  | shared g => exact ⟨_, _, _, _, rfl⟩
  | priv t i =>
    dsimp only
    split
    · exact ⟨_, _, _, _, rfl⟩
    · split
      · exact ⟨_, _, _, _, rfl⟩
      · exact ⟨_, _, _, _, rfl⟩

/-- A pulse that has arrived is on its way no more. -/
theorem pred_succ_of_ne {n : Nat} (h : n ≠ 0) : n - 1 + 1 = n := by omega

theorem icuSourceOccurrence_spec {s : State} {src : IcuId} (hd : domUp s 2 = true) (h : icuOnWay s src = true) :
    let k := icuKey src
    let x := icuSrc s.icu k
    ∃ t, exec (.icuSourceOccurrence src) s = .next t
      ∧ (x.count.toNat ≤ x.counted + 1 → icuSrc t.icu k = { x with pending := true, counted := 0, timer := false })
      ∧ (x.counted + 1 < x.count.toNat →
          icuSrc t.icu k = { x with counted := x.counted + 1, timer := decide (x.time ≠ 0) })
      ∧ (∀ j, j ≠ k → icuSrc t.icu j = icuSrc s.icu j)
      ∧ (∀ g, src = .shared g → (hdr t g.val).edges + 1 = (hdr s g.val).edges)
      ∧ (∀ n : Fin 5, src = .priv n 8 → t.course.pulses.get 0 n.val + 1 = s.course.pulses.get 0 n.val)
      ∧ (∀ n : Fin 5, src = .priv n 9 → t.square.pulses.get 0 n.val + 1 = s.square.pulses.get 0 n.val)
      ∧ (∀ n : Fin 5, src = .priv n 12 →
          (t.evq.queues.get {} n.val).pulses + 1 = (s.evq.queues.get {} n.val).pulses)
      ∧ t = { s with icu := t.icu, hdrs := t.hdrs, course.pulses := t.course.pulses, square.pulses := t.square.pulses
                     evq.queues := t.evq.queues } := by
  intro k x
  refine ⟨_, exec_icuSourceOccurrence hd h, fun hx => ?_, fun hx => ?_, fun j hj => icuSrc_icuOccur_other k s.icu hj,
    ?_, ?_, ?_, ?_, ?_⟩
  · exact (icuSrc_icuOccur_same k s.icu).trans (occurred_pending hx)
  · exact (icuSrc_icuOccur_same k s.icu).trans (occurred_counts hx)
  · rintro g rfl
    have he : (hdr s g.val).edges ≠ 0 := of_decide_eq_true (Bool.and_eq_true_iff.mp h).2
    refine (congrArg (fun h : PageHdr => h.edges + 1) (updHdr_same g.val _ s)).trans ?_
    exact pred_succ_of_ne he
  · rintro n rfl
    have he : s.course.pulses.get 0 n.val ≠ 0 := of_decide_eq_true h
    refine (congrArg (· + 1) (Tab.get_upd_same s.course.pulses 0 n.val (· - 1))).trans ?_
    exact pred_succ_of_ne he
  · rintro n rfl
    have he : s.square.pulses.get 0 n.val ≠ 0 := of_decide_eq_true h
    refine (congrArg (· + 1) (Tab.get_upd_same s.square.pulses 0 n.val (· - 1))).trans ?_
    exact pred_succ_of_ne he
  · rintro n rfl
    have he : (s.evq.queues.get {} n.val).pulses ≠ 0 := of_decide_eq_true h
    refine (congrArg (fun q : EvQueue => q.pulses + 1) (Tab.get_upd_same s.evq.queues {} n.val
      (fun q => { q with pulses := q.pulses - 1 }))).trans ?_
    exact pred_succ_of_ne he
  · obtain ⟨a, b, c, d, hf⟩ := icuArrive_frame src s
    rw [hf]

theorem stackError_eq_some {src : IcuId} {t : Nat} (h : stackError src = some t) : ∃ n : Fin 5, src = .priv n 11 := by
  cases src with
  | shared g => exact absurd h (by nofun)
  | priv n i =>
    have hi : i.val = 11 := by
      by_contra hi
      exact absurd (h.symm.trans (if_neg hi)) (by nofun)
    have h11 : i = 11 := Fin.ext hi
    exact ⟨n, by rw [h11]⟩

/-- A source with nothing on its way does nothing. -/
theorem icuSourceOccurrence_idle {s : State} {src : IcuId} (h : icuOnWay s src = false) (hn : ∀ n : Fin 5, src ≠ .priv n 11) :
    exec (.icuSourceOccurrence src) s = .next s := by
  refine congrArg Host.Outcome.next ?_
  have he : stackError src = none := by
    cases hx : stackError src with
    | none => rfl
    | some t =>
      obtain ⟨n, hn'⟩ := stackError_eq_some hx
      exact absurd hn' (hn n)
  rw [he]
  split
  · exact if_neg (Bool.not_eq_true _ ▸ h)
  · rfl

/-! Levels (R291). -/

theorem hdrLevel_of_bits {h : PageHdr} {bit : Nat} (h1 : bitAt h.sticky bit = true)
    (h2 : bitAt h.irqen bit = true) : hdrLevel h = true := by
  refine decide_eq_true fun h0 => ?_
  have h3 : (h.sticky &&& h.irqen).getLsbD bit = true := by
    rw [BitVec.getLsbD_and]
    exact Bool.and_eq_true_iff.mpr ⟨h1, h2⟩
  rw [h0] at h3
  simp at h3

/-- A sticky bit that sets raises the level of an enabled page: an occurrence is on its way. -/
theorem setSticky_level {p bit : Nat} {s : State} (hl : pageLevel s p = false) (hi : bitAt (hdr s p).irqen bit = true)
    (hd : ∃ d, pageDom s p = some d ∧ domUp s d = true) (hb : bit < 32) :
    (hdr (setSticky p bit s) p).edges = (hdr s p).edges + 1 ∧ pageLevel (setSticky p bit s) p = true := by
  obtain ⟨d, hp, hu⟩ := hd
  have hold : hdrLevel (hdr s p) = false := by
    unfold pageLevel at hl
    rw [hp] at hl
    dsimp only at hl
    rw [hu] at hl
    exact hl
  have hnew : hdrLevel { hdr s p with sticky := setBit (hdr s p).sticky bit true } = true :=
    hdrLevel_of_bits (bitAt_setBit_same _ hb true) hi
  have hs := hdr_setSticky_same p bit s
  have hedge : hdrSticky bit (hdr s p) = { hdr s p with
      sticky := setBit (hdr s p).sticky bit true, edges := (hdr s p).edges + 1 } := by
    unfold hdrSticky hdrEdge
    rw [hold, hnew]
    rfl
  refine ⟨by rw [hs, hedge], ?_⟩
  have hp' : pageDom (setSticky p bit s) p = some d := hp
  have hu' : domUp (setSticky p bit s) d = true := hu
  unfold pageLevel
  rw [hp', hs, hedge]
  dsimp only
  rw [hu']
  exact hnew

/-! Stack faults, timers and hold-offs. -/

theorem icuTgt_wake (b : IcuBlk) (n : Nat) : ∃ z, icuTgt (icuWake b) n = { icuTgt b n with sleep := z } :=
  (icuWake_sleepOnly b).target n

theorem icuTgt_upd_same (b : IcuBlk) (n : Nat) (f : IcuTarget → IcuTarget) :
    icuTgt { b with targets := b.targets.upd {} n f } n = f (icuTgt b n) := Tab.get_upd_same _ _ _ _

theorem icuTgt_upd_other (b : IcuBlk) (n : Nat) (f : IcuTarget → IcuTarget) {m : Nat} (h : m ≠ n) :
    icuTgt { b with targets := b.targets.upd {} n f } m = icuTgt b m := Tab.get_upd_other _ _ _ h

theorem icuPendFault_spec (n : Nat) (b : IcuBlk) :
    (∃ z, icuTgt (icuPendFault n b) n
      = { icuTgt b n with faultPending := true, faultCount := satInc (icuTgt b n).faultCount, sleep := z })
    ∧ (∀ m, m ≠ n → ∃ z, icuTgt (icuPendFault n b) m = { icuTgt b m with sleep := z })
    ∧ (icuPendFault n b).srcs = b.srcs := by
  have hw := icuWake_sleepOnly { b with targets := b.targets.upd {} n (fun g => { g with
    faultPending := true, faultCount := satInc g.faultCount }) }
  refine ⟨?_, fun m hm => ?_, hw.srcs⟩
  · obtain ⟨z, hz⟩ := hw.target n
    exact ⟨z, hz.trans (by rw [icuTgt_upd_same])⟩
  · obtain ⟨z, hz⟩ := hw.target m
    exact ⟨z, hz.trans (by rw [icuTgt_upd_other _ _ _ hm])⟩

theorem stackFault_spec {n : Fin 5} {s : State} (hd : domUp s 2 = true) :
    ∃ t, exec (.icuSourceOccurrence (.priv n 11)) s = .next t ∧ (icuTgt t.icu n.val).faultPending = true
      ∧ (icuTgt t.icu n.val).faultCount = satInc (icuTgt s.icu n.val).faultCount
      ∧ (∀ m, m ≠ n.val → (icuTgt t.icu m).faultPending = (icuTgt s.icu m).faultPending)
      ∧ t.icu.srcs = s.icu.srcs ∧ t = { s with icu := t.icu } := by
  obtain ⟨⟨z, h1⟩, h2, h3⟩ := icuPendFault_spec n.val s.icu
  refine ⟨{ s with icu := icuPendFault n.val s.icu }, congrArg Host.Outcome.next (if_pos hd), ?_, ?_, fun m hm => ?_, h3, rfl⟩
  · exact congrArg IcuTarget.faultPending h1
  · exact congrArg IcuTarget.faultCount h1
  · obtain ⟨z, hz⟩ := h2 m hm
    exact (congrArg IcuTarget.faultPending hz).trans rfl

theorem coalesceTimeout_spec {src : IcuId} {s : State} (hd : domUp s 2 = true) :
    let k := icuKey src
    let x := icuSrc s.icu k
    (x.counted = 0 ∨ x.timer = false → exec (.coalesceTimeout src) s = .next s)
    ∧ (x.counted ≠ 0 → x.timer = true → ∃ t, exec (.coalesceTimeout src) s = .next t
      ∧ icuSrc t.icu k = { x with pending := true, counted := 0, timer := false }
      ∧ (∀ j, j ≠ k → icuSrc t.icu j = icuSrc s.icu j) ∧ t = { s with icu := t.icu }) := by
  intro k x
  refine ⟨fun h => ?_, fun h1 h2 => ?_⟩
  · have hb : ¬ (domUp s 2 && decide (x.counted ≠ 0) && x.timer) = true := by
      rcases h with h | h
      · rw [decide_eq_false (not_not_intro h), Bool.and_false, Bool.false_and]
        exact Bool.false_ne_true
      · rw [h, Bool.and_false]
        exact Bool.false_ne_true
    exact congrArg Host.Outcome.next (if_neg hb)
  · have hb : (domUp s 2 && decide (x.counted ≠ 0) && x.timer) = true := by
      rw [hd, decide_eq_true h1, h2]
      rfl
    refine ⟨_, congrArg Host.Outcome.next (if_pos hb), ?_, fun j hj => ?_, rfl⟩
    · exact (icuSrc_wake _ k).trans (icuSrc_set_same s.icu k _)
    · exact (icuSrc_wake _ j).trans (icuSrc_set_other s.icu k _ hj)

theorem holdoffEnd_spec (g : Fin 32) (s : State) : ∃ t, exec (.holdoffEnd g) s = .next t
      ∧ (∀ key, icuGroup key = g.val → icuHeld t.icu key = false) ∧ t.icu.srcs = s.icu.srcs
      ∧ (∀ key, icuGroup key ≠ g.val → icuHeld t.icu key = icuHeld s.icu key) ∧ t = { s with icu := t.icu } := by
  have hw := icuWake_sleepOnly { s.icu with holding := s.icu.holding.set g.val false }
  have hh : ∀ key, icuHeld (icuWake { s.icu with holding := s.icu.holding.set g.val false }) key
      = (decide (key < 1000) && (s.icu.holding.set g.val false).get false (icuGroup key)) := by
    intro key
    unfold icuHeld
    rw [hw.frame]
  refine ⟨_, rfl, fun key hk => (hh key).trans ?_, hw.srcs, fun key hk => (hh key).trans ?_, rfl⟩
  · rw [hk, Tab.get_set_same, Bool.and_false]
  · rw [Tab.get_set_other _ _ _ hk]
    rfl

/-! Software interrupts. -/

theorem foldl_icuOccur (f : Nat → Nat) (hf : ∀ i j, f i = f j → i = j) (l : List Nat) (hl : l.Nodup) : ∀ b : IcuBlk,
    (∀ i ∈ l, icuSrc (l.foldl (fun b i => icuOccur (f i) b) b) (f i) = occurred (icuSrc b (f i)))
    ∧ ∀ j, (∀ i ∈ l, j ≠ f i) → icuSrc (l.foldl (fun b i => icuOccur (f i) b) b) j = icuSrc b j := by
  induction l with
  | nil => exact fun b => ⟨fun i h => absurd h List.not_mem_nil, fun _ _ => rfl⟩
  | cons n l ih =>
    intro b
    obtain ⟨hn, hl⟩ := List.nodup_cons.mp hl
    obtain ⟨h1, h2⟩ := ih hl (icuOccur (f n) b)
    refine ⟨fun i hi => ?_, fun j hj => ?_⟩
    · by_cases h : i ∈ l
      · have hin : f i ≠ f n := fun h' => hn (hf i n h' ▸ h)
        exact (h1 i h).trans (by rw [icuSrc_icuOccur_other _ _ hin])
      · have hin : i = n := (List.mem_cons.mp hi).resolve_right h
        subst hin
        refine (h2 (f i) fun k hk h' => h (hf i k h' ▸ hk)).trans (icuSrc_icuOccur_same _ _)
    · refine (h2 j fun i hi => hj i (List.mem_cons_of_mem n hi)).trans ?_
      exact icuSrc_icuOccur_other _ _ (hj n List.mem_cons_self)

theorem icuSwi_spec {n : Fin 5} {v : Word} {s : State} (ht : PageTakes s (9 + n.val)) :
    ∃ t, exec (.icuSwi n v) s = .next t ∧ hdr t (9 + n.val) = hdrCount (hdr s (9 + n.val))
      ∧ (∀ i, i < 8 → bitAt v i = true → (icuSrc s.icu (1000 + 16 * n.val + i)).count.toNat ≤ 1 →
          (icuSrc t.icu (1000 + 16 * n.val + i)).pending = true)
      ∧ (∀ j, (∀ i, i < 8 → bitAt v i = true → j ≠ 1000 + 16 * n.val + i) → icuSrc t.icu j = icuSrc s.icu j)
      ∧ t = { s with icu := t.icu, hdrs := t.hdrs } := by
  have hmem : ∀ i, i ∈ below 8 (fun i => bitAt v i) ↔ i < 8 ∧ bitAt v i = true := by
    intro i
    unfold below
    rw [List.mem_filter, List.mem_range]
  have hnd : (below 8 (fun i => bitAt v i)).Nodup := List.nodup_range.filter _
  obtain ⟨h1, h2⟩ := foldl_icuOccur (fun i => 1000 + 16 * n.val + i) (fun i j h => by omega) _ hnd s.icu
  refine ⟨_, congrArg Host.Outcome.next (pageWrite_takes ht _), ?_, fun i hi hb hc => ?_, fun j hj => ?_, rfl⟩
  · exact hdr_countWrite_same _ _
  · refine (congrArg IcuSrc.pending (h1 i ((hmem i).mpr ⟨hi, hb⟩))).trans ?_
    rw [occurred_pending (by omega)]
  · exact h2 j fun i hi => hj i ((hmem i).mp hi).1 ((hmem i).mp hi).2

/-! A source's configuration. -/

/-- Windows that close change nothing else of their targets. -/
theorem foldl_windows (p : IcuTarget → Bool) (l : List Nat) : ∀ ts : Tab IcuTarget, ∀ n, ∃ w,
    Tab.get (l.foldl (fun ts i => if p (ts.get ({} : IcuTarget) i) then ts.upd {} i (fun g => { g with window := none }) else ts)
      ts) {} n = { Tab.get ts ({} : IcuTarget) n with window := w } := by
  induction l with
  | nil => exact fun ts n => ⟨_, rfl⟩
  | cons i l ih =>
    intro ts n
    rw [List.foldl_cons]
    split
    · obtain ⟨w, hw⟩ := ih (ts.upd {} i (fun g => { g with window := none })) n
      refine ⟨w, hw.trans ?_⟩
      by_cases hn : n = i
      · rw [hn, Tab.get_upd_same]
      · rw [Tab.get_upd_other _ _ _ hn]
    · exact ih ts n

theorem icuSrcCfg_spec (req : Requester) {key : Nat} (hk : key < 1000) (v : Word) (b : IcuBlk) :
    icuSrc (icuSrcCfg req key v b) key = { icuSrc b key with
      en := bitAt v 31, prio := BitVec.ofNat 8 (fld v 0 8)
      target := if fld v 16 3 ≤ 4 then fld v 16 3 else (icuSrc b key).target }
    ∧ (∀ j, j ≠ key → icuSrc (icuSrcCfg req key v b) j = icuSrc b j)
    ∧ ∀ n, (icuTgt (icuSrcCfg req key v b) n).stack = (icuTgt b n).stack := by
  unfold icuSrcCfg
  extract_lets x cur tgt moved off ts
  have htgt : tgt = if fld v 16 3 ≤ 4 then fld v 16 3 else x.target := by
    change (if (decide (key < 1000) && decide (fld v 16 3 ≤ 4)) = true then _ else _) = _
    rw [decide_eq_true hk, Bool.true_and]
    by_cases h : fld v 16 3 ≤ 4
    · rw [if_pos h, if_pos (decide_eq_true h)]
    · rw [if_neg h, if_neg (by rw [decide_eq_true_eq]; exact h)]
  have hts : ∀ n, ∃ w, Tab.get ts {} n = { Tab.get b.targets ({} : IcuTarget) n with window := w } := by
    intro n
    dsimp only [ts]
    split
    · by_cases hn : n = cur
      · rw [hn, Tab.get_upd_same]
        exact ⟨_, rfl⟩
      · rw [Tab.get_upd_other _ _ _ hn]
        exact ⟨_, rfl⟩
    · split
      · obtain ⟨w, hw⟩ := foldl_windows (fun g => decide (g.window.map Prod.fst = some key)) [0, 1, 2, 3, 4] b.targets n
        refine ⟨w, Eq.trans ?_ hw⟩
        simp only [decide_eq_true_eq]
      · exact ⟨_, rfl⟩
  clear_value ts tgt
  refine ⟨?_, fun j hj => ?_, fun n => ?_⟩
  · rw [icuSrc_wake, htgt]
    exact Tab.get_set_same _ _ _ _
  · rw [icuSrc_wake]
    exact Tab.get_set_other _ _ _ hj
  · rw [(icuWake_sleepOnly _).stack n]
    obtain ⟨w, hw⟩ := hts n
    exact (congrArg IcuTarget.stack hw).trans rfl

/-- Settles O42, by what an occurrence does to its source (`occurred`). -/
theorem interruptSources : Obligations.InterruptSources := by
  unfold Obligations.InterruptSources
  refine ⟨fun src s => icuSourceOccurrence_spec, fun src s => icuSourceOccurrence_idle,
    fun p bit s => setSticky_level, fun n s => stackFault_spec, fun src s => coalesceTimeout_spec, holdoffEnd_spec,
    fun n v s => icuSwi_spec, ?_⟩
  intro req i v s ht k x
  obtain ⟨h1, h2, h3⟩ := icuSrcCfg_spec req (by have := i.isLt; omega : 16 + i.val < 1000) v s.icu
  exact ⟨_, congrArg Host.Outcome.next (pageWrite_takes ht _), h1, h2, h3, hdr_countWrite_same _ _,
    fun q hq => hdr_countWrite_other _ _ hq, rfl⟩

end Sys2Proof.Machine
end


section
/-! Claiming (ch. 11): the selected source is ahead of every other presentable one. -/

namespace Sys2Proof.Machine

/-! The order of selection (R294). -/

theorem icuTier_mono (b : IcuBlk) {p q : Nat} (h : p ≤ q) : icuTier b p ≤ icuTier b q := by
  refine List.Sublist.length_le (List.monotone_filter_right _ fun t ht => ?_)
  obtain ⟨h0, ht⟩ := of_decide_eq_true ht
  exact decide_eq_true ⟨h0, ht.trans h⟩

/-- A tier rises with its priority, so that the order is of priorities, then of IDs. -/
theorem icuAhead_iff (b : IcuBlk) (a c : Nat) : icuAhead b a c = true ↔
    (icuSrc b c).prio.toNat < (icuSrc b a).prio.toNat
      ∨ (icuSrc b a).prio.toNat = (icuSrc b c).prio.toNat ∧ icuIdOf a < icuIdOf c := by
  unfold icuAhead
  dsimp only
  generalize (icuSrc b a).prio.toNat = pa
  generalize (icuSrc b c).prio.toNat = pc
  have hac : pa ≤ pc → icuTier b pa ≤ icuTier b pc := icuTier_mono b
  have hca : pc ≤ pa → icuTier b pc ≤ icuTier b pa := icuTier_mono b
  split
  · rw [decide_eq_true_eq]
    omega
  · split
    · rw [decide_eq_true_eq]
      omega
    · rw [decide_eq_true_eq]
      omega

theorem icuAhead_trans {b : IcuBlk} {i j k : Nat} (hij : icuAhead b i j = true) (hjk : icuAhead b j k = true) :
    icuAhead b i k = true := by
  rw [icuAhead_iff] at *
  omega

theorem icuPresentable_target {b : IcuBlk} {n k : Nat} (h : icuPresentable b n k = true) : icuTargetOf b k = n := by
  unfold icuPresentable at h
  simp only [Bool.and_eq_true, decide_eq_true_eq] at h
  exact h.1.1.1.2

/-- A target knows what it can claim by its ID. -/
theorem icuIdOf_inj {b : IcuBlk} {j k : Nat} (hj : 16 ≤ j) (hk : 16 ≤ k) (ht : icuTargetOf b j = icuTargetOf b k)
    (h : icuIdOf j = icuIdOf k) : j = k := by
  unfold icuIdOf at h
  unfold icuTargetOf at ht
  by_cases h1 : 1000 ≤ j
  · by_cases h2 : 1000 ≤ k
    · rw [if_pos h1, if_pos h2] at h ht
      omega
    · rw [if_pos h1, if_neg h2] at h
      omega
  · by_cases h2 : 1000 ≤ k
    · rw [if_neg h1, if_pos h2] at h
      omega
    · rw [if_neg h1, if_neg h2] at h
      exact h

theorem icuAhead_total {b : IcuBlk} {n j k : Nat} (hj : 16 ≤ j) (hk : 16 ≤ k) (pj : icuPresentable b n j = true)
    (pk : icuPresentable b n k = true) (hne : j ≠ k) (h : ¬ icuAhead b j k = true) : icuAhead b k j = true := by
  have hid : icuIdOf j ≠ icuIdOf k := fun he =>
    hne (icuIdOf_inj hj hk ((icuPresentable_target pj).trans (icuPresentable_target pk).symm) he)
  rw [icuAhead_iff] at *
  omega

/-! The selection. -/

/-- What a selection among the sources `l` is. -/
def Selects (b : IcuBlk) (n : Nat) (l : List Nat) : Option Nat → Prop
  | none => ∀ j ∈ l, ¬ icuPresentable b n j = true
  | some k => k ∈ l ∧ icuPresentable b n k = true
      ∧ ∀ j ∈ l, icuPresentable b n j = true → j ≠ k → icuAhead b k j = true

/-- The better of the selection so far and one more source. -/
def icuBetter (b : IcuBlk) (n : Nat) (best : Option Nat) (k : Nat) : Option Nat :=
  if icuPresentable b n k then
    match best with
    | some c => if icuAhead b k c then some k else some c
    | none => some k
  else best

theorem icuSelect_eq (b : IcuBlk) (n : Nat) : icuSelect b n = b.srcs.keys.foldl (icuBetter b n) none := rfl

theorem icuBetter_selects {b : IcuBlk} {n : Nat} {l : List Nat} {best : Option Nat} {k : Nat}
    (hl : ∀ j ∈ l, 16 ≤ j) (hk : 16 ≤ k) (h : Selects b n l best) : Selects b n (l ++ [k]) (icuBetter b n best k) := by
  unfold icuBetter
  by_cases hp : icuPresentable b n k = true
  · rw [if_pos hp]
    cases best with
    | none =>
      refine ⟨by simp, hp, fun j hj pj hne => ?_⟩
      rcases List.mem_append.mp hj with hj | hj
      · exact absurd pj (h j hj)
      · exact absurd (List.mem_singleton.mp hj) hne
    | some c =>
      obtain ⟨hc, pc, hc2⟩ := h
      dsimp only
      split
      next ha =>
        refine ⟨by simp, hp, fun j hj pj hne => ?_⟩
        rcases List.mem_append.mp hj with hj | hj
        · by_cases hjc : j = c
          · rw [hjc]
            exact ha
          · exact icuAhead_trans ha (hc2 j hj pj hjc)
        · exact absurd (List.mem_singleton.mp hj) hne
      next ha =>
        refine ⟨List.mem_append_left _ hc, pc, fun j hj pj hne => ?_⟩
        rcases List.mem_append.mp hj with hj | hj
        · exact hc2 j hj pj hne
        · rw [List.mem_singleton.mp hj] at hne ⊢
          exact icuAhead_total hk (hl c hc) hp pc hne ha
  · rw [if_neg hp]
    cases best with
    | none =>
      intro j hj
      rcases List.mem_append.mp hj with hj | hj
      · exact h j hj
      · rw [List.mem_singleton.mp hj]
        exact hp
    | some c =>
      obtain ⟨hc, pc, hc2⟩ := h
      refine ⟨List.mem_append_left _ hc, pc, fun j hj pj hne => ?_⟩
      rcases List.mem_append.mp hj with hj | hj
      · exact hc2 j hj pj hne
      · rw [List.mem_singleton.mp hj] at pj
        exact absurd pj hp

theorem foldl_selects (b : IcuBlk) (n : Nat) (l : List Nat) :
    (∀ j ∈ l, 16 ≤ j) → Selects b n l (l.foldl (icuBetter b n) none) := by
  induction l using List.reverseRecOn with
  | nil => exact fun _ j hj => absurd hj List.not_mem_nil
  | append_singleton l k ih =>
    intro h
    rw [List.foldl_append]
    have hl : ∀ j ∈ l, 16 ≤ j := fun j hj => h j (List.mem_append_left _ hj)
    exact icuBetter_selects hl (h k (by simp)) (ih hl)

theorem icuSelect_selects {b : IcuBlk} {n k : Nat} (h : ∀ j ∈ b.srcs.keys, 16 ≤ j) (hs : icuSelect b n = some k) :
    icuPresentable b n k = true
      ∧ ∀ j ∈ b.srcs.keys, icuPresentable b n j = true → j ≠ k → icuAhead b k j = true := by
  have hf : Selects b n b.srcs.keys (icuSelect b n) := foldl_selects b n _ h
  rw [hs] at hf
  exact hf.2

/-! What a claim takes (R296, R298). -/

/-- Closes the windows of a source that is taken. -/
def closeWindows (key : Nat) (ts : Tab IcuTarget) : Tab IcuTarget :=
  [0, 1, 2, 3, 4].foldl (fun ts i =>
    if (ts.get ({} : IcuTarget) i).window.map Prod.fst = some key
    then ts.upd {} i (fun g => { g with window := none }) else ts) ts

theorem closeWindows_get (key : Nat) (ts : Tab IcuTarget) (n : Nat) :
    ∃ w, Tab.get (closeWindows key ts) ({} : IcuTarget) n = { Tab.get ts ({} : IcuTarget) n with window := w } := by
  obtain ⟨w, hw⟩ := foldl_windows (fun g => decide (g.window.map Prod.fst = some key)) [0, 1, 2, 3, 4] ts n
  refine ⟨w, Eq.trans ?_ hw⟩
  simp only [decide_eq_true_eq]
  rfl

theorem foldl_windows_none (p : IcuTarget → Prop) [DecidablePred p] (l : List Nat) (n : Nat) : ∀ ts : Tab IcuTarget,
    (Tab.get ts ({} : IcuTarget) n).window = none →
    (Tab.get (l.foldl (fun ts i =>
      if p (ts.get ({} : IcuTarget) i) then ts.upd {} i (fun g => { g with window := none }) else ts) ts)
      ({} : IcuTarget) n).window = none := by
  induction l with
  | nil => exact fun ts h => h
  | cons i l ih =>
    intro ts h
    rw [List.foldl_cons]
    refine ih _ ?_
    split
    · by_cases hn : n = i
      · rw [hn, Tab.get_upd_same]
      · rw [Tab.get_upd_other _ _ _ hn]
        exact h
    · exact h

theorem closeWindows_none {key : Nat} {ts : Tab IcuTarget} {n : Nat}
    (h : (Tab.get ts ({} : IcuTarget) n).window = none) :
    (Tab.get (closeWindows key ts) ({} : IcuTarget) n).window = none :=
  foldl_windows_none (fun g => g.window.map Prod.fst = some key) _ n ts h

theorem icuTake_fault (n : Nat) (b : IcuBlk) : icuTake n (1000 + 16 * n + 11) b = { b with
    targets := b.targets.upd {} n (fun g => { g with faultPending := false, faultActive := true }) } := if_pos rfl

/-- What a claim of a maskable source leaves. -/
theorem icuTake_spec {n key : Nat} (h : key ≠ 1000 + 16 * n + 11) (b : IcuBlk) :
    icuSrc (icuTake n key b) key = { icuSrc b key with pending := false }
    ∧ (∀ j, j ≠ key → icuSrc (icuTake n key b) j = icuSrc b j)
    ∧ (icuTgt (icuTake n key b) n).stack = (icuIdOf key, (icuSrc b key).prio) :: (icuTgt b n).stack
    ∧ (∀ m, m ≠ n → (icuTgt (icuTake n key b) m).stack = (icuTgt b m).stack)
    ∧ ((icuTgt b n).window = none → (icuTgt (icuTake n key b) n).window = none) := by
  have hs : (icuTake n key b).srcs = b.srcs.set key { icuSrc b key with pending := false } := by
    unfold icuTake
    rw [if_neg h]
    dsimp only
    split <;> rfl
  have ht : (icuTake n key b).targets = closeWindows key
      (b.targets.upd {} n (fun g => { g with stack := (icuIdOf key, (icuSrc b key).prio) :: g.stack })) := by
    unfold icuTake
    rw [if_neg h]
    dsimp only
    split <;> rfl
  unfold icuTgt
  rw [ht]
  refine ⟨?_, fun j hj => ?_, ?_, fun m hm => ?_, fun hw => ?_⟩
  · exact (congrArg (fun t => Tab.get t {} key) hs).trans (Tab.get_set_same _ _ _ _)
  · exact (congrArg (fun t => Tab.get t {} j) hs).trans (Tab.get_set_other _ _ _ hj)
  · obtain ⟨w, hw⟩ := closeWindows_get key
      (b.targets.upd {} n (fun g => { g with stack := (icuIdOf key, (icuSrc b key).prio) :: g.stack })) n
    rw [hw, Tab.get_upd_same]
  · obtain ⟨w, hw⟩ := closeWindows_get key
      (b.targets.upd {} n (fun g => { g with stack := (icuIdOf key, (icuSrc b key).prio) :: g.stack })) m
    rw [hw, Tab.get_upd_other _ _ _ hm]
  · refine closeWindows_none ?_
    rw [Tab.get_upd_same]
    exact hw

/-! The read (R296, R299). -/

/-- The claiming target awake and its window closed. -/
def claimer (n : Nat) (s : State) : State :=
  { s with
    icu.targets := s.icu.targets.upd {} n (fun g => { g with window := none, sleep := false })
    free := s.free + 1 }

theorem claimer_same (n : Nat) (s : State) :
    icuTgt (claimer n s).icu n = { icuTgt s.icu n with window := none, sleep := false } := Tab.get_upd_same _ _ _ _

theorem claimer_other (s : State) {n m : Nat} (h : m ≠ n) : icuTgt (claimer n s).icu m = icuTgt s.icu m :=
  Tab.get_upd_other _ _ _ h

theorem icuClaim_some {n k : Nat} {s : State} (h : icuWould s n = some k) : icuClaim n s = { claimer n s with
    icu := icuTake n k (claimer n s).icu, resp := { words := [BitVec.ofNat 32 (icuIdOf k)] } } := by
  unfold icuClaim
  rw [h]
  rfl

theorem icuClaim_none {n : Nat} {s : State} (h : icuWould s n = none) :
    icuClaim n s = { claimer n s with resp := { words := [0x3FF] } } := by
  unfold icuClaim
  rw [h]
  rfl

theorem icuPeekId_some {n k : Nat} {s : State} (h : icuWould s n = some k) : icuPeekId s n = icuIdOf k := by
  unfold icuPeekId
  rw [h]

theorem icuPeekId_none {n : Nat} {s : State} (h : icuWould s n = none) : icuPeekId s n = 0x3FF := by
  unfold icuPeekId
  rw [h]

theorem icuWould_peek {n : Nat} {s : State} (h : (icuTgt s.icu n).window = none) : icuWould s n = icuPeek s.icu n := by
  have hl : icuLate s n = none := by
    unfold icuLate
    dsimp only
    rw [h]
  unfold icuWould
  rw [hl]
  rfl

theorem exec_icuClaim {s : State} (hd : domUp s 2 = true) (n : Fin 5) :
    exec (.icuClaim (icuOwner n.val) n) s = .next (icuClaim n.val s) :=
  congrArg Host.Outcome.next ((if_pos hd).trans (if_pos rfl))

theorem exec_icuClaim_other {s : State} (hd : domUp s 2 = true) {n : Fin 5} {req : Requester} (h : req ≠ icuOwner n.val) :
    exec (.icuClaim req n) s = .next { s with resp := { words := [BitVec.ofNat 32 (icuPeekId s n.val)] } } :=
  congrArg Host.Outcome.next ((if_pos hd).trans (if_neg h))

theorem icuClaim_spec {n : Fin 5} {s : State} (hd : domUp s 2 = true) (hw : (icuTgt s.icu n.val).window = none) :
    let g := icuTgt s.icu n.val
    ∃ t, exec (.icuClaim (icuOwner n.val) n) s = .next t
      ∧ (∀ k, icuPeek s.icu n.val = some k → t.resp = { words := [BitVec.ofNat 32 (icuIdOf k)] })
      ∧ (∀ k, icuPeek s.icu n.val = some k → k ≠ 1000 + 16 * n.val + 11 →
          icuSrc t.icu k = { icuSrc s.icu k with pending := false }
            ∧ (icuTgt t.icu n.val).stack = (icuIdOf k, (icuSrc s.icu k).prio) :: g.stack)
      ∧ (icuPeek s.icu n.val = some (1000 + 16 * n.val + 11) → (icuTgt t.icu n.val).faultPending = false
          ∧ (icuTgt t.icu n.val).faultActive = true ∧ (icuTgt t.icu n.val).stack = g.stack)
      ∧ (icuPeek s.icu n.val = none → t.resp = { words := [0x3FF] } ∧ t.icu.srcs = s.icu.srcs
          ∧ icuTgt t.icu n.val = { g with sleep := false })
      ∧ (∀ k, icuPeek s.icu n.val ≠ some k → icuSrc t.icu k = icuSrc s.icu k)
      ∧ (∀ m, m ≠ n.val → (icuTgt t.icu m).stack = (icuTgt s.icu m).stack)
      ∧ t = { s with icu := t.icu, resp := t.resp, free := t.free } := by
  intro g
  have hp := icuWould_peek hw
  have hg : icuTgt (claimer n.val s).icu n.val = { g with sleep := false } := by
    rw [claimer_same]
    change { g with window := none, sleep := false } = _
    rw [← hw]
  have hother : ∀ m, m ≠ n.val → (icuTgt (claimer n.val s).icu m).stack = (icuTgt s.icu m).stack := fun m hm =>
    congrArg IcuTarget.stack (claimer_other s hm)
  cases hk : icuPeek s.icu n.val with
  | none =>
    refine ⟨_, (exec_icuClaim hd n).trans (congrArg _ (icuClaim_none (hp.trans hk))), by nofun, by nofun, by nofun,
      fun _ => ⟨rfl, rfl, hg⟩, fun k _ => rfl, hother, rfl⟩
  | some k =>
    refine ⟨_, (exec_icuClaim hd n).trans (congrArg _ (icuClaim_some (hp.trans hk))), ?_, ?_, ?_, by nofun, ?_, ?_, rfl⟩
    · rintro j hj
      rw [Option.some.inj hj]
    · rintro j hj hne
      rw [← Option.some.inj hj] at hne ⊢
      obtain ⟨h1, -, h3, -⟩ := icuTake_spec hne (claimer n.val s).icu
      refine ⟨h1, h3.trans ?_⟩
      rw [hg]
      rfl
    · intro hf
      rw [Option.some.inj hf, icuTake_fault]
      refine ⟨?_, ?_, ?_⟩
      · exact congrArg IcuTarget.faultPending (Tab.get_upd_same _ _ _ _)
      · exact congrArg IcuTarget.faultActive (Tab.get_upd_same _ _ _ _)
      · refine Eq.trans (congrArg IcuTarget.stack (Tab.get_upd_same _ _ _ _)) ?_
        exact (congrArg IcuTarget.stack hg).trans rfl
    · intro j hj
      have hne : j ≠ k := fun h => hj (congrArg some h.symm)
      by_cases hf : k = 1000 + 16 * n.val + 11
      · rw [hf, icuTake_fault]
        rfl
      · exact (icuTake_spec hf (claimer n.val s).icu).2.1 j hne
    · intro m hm
      refine Eq.trans ?_ (hother m hm)
      by_cases hf : k = 1000 + 16 * n.val + 11
      · rw [hf, icuTake_fault]
        exact congrArg IcuTarget.stack (Tab.get_upd_other _ _ _ hm)
      · exact (icuTake_spec hf (claimer n.val s).icu).2.2.2.1 m hm

theorem icuClaim_closes {n : Fin 5} {s : State} (hd : domUp s 2 = true) :
    ∃ t, exec (.icuClaim (icuOwner n.val) n) s = .next t
      ∧ t.resp = { words := [BitVec.ofNat 32 (icuPeekId s n.val)] } ∧ (icuTgt t.icu n.val).window = none := by
  have hw : (icuTgt (claimer n.val s).icu n.val).window = none := congrArg IcuTarget.window (claimer_same n.val s)
  cases hk : icuWould s n.val with
  | none =>
    refine ⟨_, (exec_icuClaim hd n).trans (congrArg _ (icuClaim_none hk)), ?_, hw⟩
    rw [icuPeekId_none hk]
    rfl
  | some k =>
    refine ⟨_, (exec_icuClaim hd n).trans (congrArg _ (icuClaim_some hk)), ?_, ?_⟩
    · rw [icuPeekId_some hk]
    · by_cases hf : k = 1000 + 16 * n.val + 11
      · rw [hf, icuTake_fault]
        exact (congrArg IcuTarget.window (Tab.get_upd_same _ _ _ _)).trans hw
      · exact (icuTake_spec hf (claimer n.val s).icu).2.2.2.2 hw

/-- Settles O43, by the selection kept over the sources seen so far (`foldl_selects`). -/
theorem claimReturnsSelected : Obligations.ClaimReturnsSelected := by
  unfold Obligations.ClaimReturnsSelected
  exact ⟨fun b n k => icuSelect_selects, fun n s => icuClaim_spec, fun n s => icuClaim_closes,
    fun req n s hd h => exec_icuClaim_other hd h⟩

end Sys2Proof.Machine
end


section
/-! Completing (ch. 11): an EOI pops the top of its target's stack, or is rejected. -/

namespace Sys2Proof.Machine

/-! Popping (R297). -/

/-- What an accepted EOI leaves. -/
theorem icuPop_spec (n id : Nat) (s : State) :
    (id = 11 → (icuTgt (icuPop n id s).icu n).faultActive = false
      ∧ (icuTgt (icuPop n id s).icu n).stack = (icuTgt s.icu n).stack)
    ∧ (id ≠ 11 → (icuTgt (icuPop n id s).icu n).stack = (icuTgt s.icu n).stack.tail)
    ∧ (∀ m, m ≠ n → (icuTgt (icuPop n id s).icu m).stack = (icuTgt s.icu m).stack)
    ∧ (∀ k, k ≠ id → icuSrc (icuPop n id s).icu k = icuSrc s.icu k)
    ∧ icuPop n id s = { s with icu := (icuPop n id s).icu } := by
  by_cases h : id = 11
  · have hp : icuPop n id s = { s with icu := icuWake { s.icu with
        targets := s.icu.targets.upd {} n (fun g => { g with faultActive := false }) } } := if_pos h
    rw [hp]
    refine ⟨fun _ => ?_, fun hne => absurd h hne, fun m hm => ?_, fun k _ => ?_, rfl⟩
    · obtain ⟨z, hz⟩ := icuTgt_wake
        { s.icu with targets := s.icu.targets.upd {} n (fun g => { g with faultActive := false }) } n
      rw [hz, icuTgt_upd_same]
      exact ⟨rfl, rfl⟩
    · rw [(icuWake_sleepOnly _).stack m, icuTgt_upd_other _ _ _ hm]
    · exact icuSrc_wake _ k
  · have hp : icuPop n id s = { s with icu := (icuPop n id s).icu } ∧
        (∀ m, (icuTgt (icuPop n id s).icu m).stack = (icuTgt { s.icu with
          targets := s.icu.targets.upd {} n (fun g => { g with stack := g.stack.tail }) } m).stack)
        ∧ ∀ k, k ≠ id → icuSrc (icuPop n id s).icu k = icuSrc s.icu k := by
      unfold icuPop
      rw [if_neg h]
      dsimp only
      split
      · exact ⟨rfl, fun m => stack_icuOccur id _ m, fun k hk => icuSrc_icuOccur_other id _ hk⟩
      · exact ⟨rfl, fun m => (icuWake_sleepOnly _).stack m, fun k _ => icuSrc_wake _ k⟩
    obtain ⟨hf, hst, hsrc⟩ := hp
    refine ⟨fun he => absurd he h, fun _ => ?_, fun m hm => ?_, hsrc, hf⟩
    · rw [hst, icuTgt_upd_same]
    · rw [hst, icuTgt_upd_other _ _ _ hm]

/-! Rejecting (R297, R298, R360). -/

/-- The ID on top of a target's stack, as the fault record holds it. -/
def topId (g : IcuTarget) : Nat := ((icuTop g).map Prod.fst).getD 0x3FF

/-- The ICU after a rejected EOI. -/
def rejected (n id : Nat) (b : IcuBlk) : IcuBlk :=
  icuPendFault n { b with targets := b.targets.upd {} n (fun g =>
    { g with rej := BitVec.ofNat 10 id, top := BitVec.ofNat 10 (topId (icuTgt b n)) }) }

/-- The safety partition's count of rejected EOIs, while PD1 is up. -/
def stackFaultTold (s : State) : State :=
  if domUp s 1 then { s with safe.stackFaults := satInc s.safe.stackFaults } else s

theorem stackFaultTold_frame (s : State) : stackFaultTold s = { s with safe.stackFaults := (stackFaultTold s).safe.stackFaults } := by
  unfold stackFaultTold
  split <;> rfl

theorem icuReject_eq (n id : Nat) (s : State) : icuReject n id s =
    raiseEv 5 1 (9 + n) (BitVec.ofNat 96 (id + topId (icuTgt s.icu n) * 2 ^ 16))
      (stackFaultTold { s with icu := rejected n id s.icu }) := by
  unfold icuReject rejected stackFaultTold topId
  dsimp only
  cases icuTop (icuTgt s.icu n) with
  | none => rfl
  | some x => rfl

theorem rejected_spec (n id : Nat) (b : IcuBlk) :
    (∃ z, icuTgt (rejected n id b) n = { icuTgt b n with
      rej := BitVec.ofNat 10 id, top := BitVec.ofNat 10 (topId (icuTgt b n)), faultPending := true
      faultCount := satInc (icuTgt b n).faultCount, sleep := z })
    ∧ (∀ m, m ≠ n → (icuTgt (rejected n id b) m).stack = (icuTgt b m).stack) ∧ (rejected n id b).srcs = b.srcs := by
  obtain ⟨⟨z, h1⟩, h2, h3⟩ := icuPendFault_spec n { b with targets := b.targets.upd {} n (fun g =>
    { g with rej := BitVec.ofNat 10 id, top := BitVec.ofNat 10 (topId (icuTgt b n)) }) }
  refine ⟨⟨z, h1.trans ?_⟩, fun m hm => ?_, h3⟩
  · rw [icuTgt_upd_same]
  · obtain ⟨z, hz⟩ := h2 m hm
    unfold rejected
    rw [hz, icuTgt_upd_other _ _ _ hm]

/-- What a rejected EOI leaves. -/
theorem icuReject_spec {n : Fin 5} {id : Nat} {s : State} :
    let g := icuTgt s.icu n.val
    let t := icuReject n.val id s
    t.hdrs = s.hdrs ∧ (icuTgt t.icu n.val).stack = g.stack ∧ (icuTgt t.icu n.val).faultPending = true
      ∧ (icuTgt t.icu n.val).rej = BitVec.ofNat 10 id ∧ (icuTgt t.icu n.val).top = BitVec.ofNat 10 (topId g)
      ∧ (icuTgt t.icu n.val).faultCount = satInc g.faultCount
      ∧ (domUp s 1 = true → t.safe.stackFaults = satInc s.safe.stackFaults)
      ∧ Raised s t 5 1 (9 + n.val) (id + topId g * 2 ^ 16)
      ∧ (∀ m, m ≠ n.val → (icuTgt t.icu m).stack = (icuTgt s.icu m).stack) ∧ t.icu.srcs = s.icu.srcs
      ∧ t = { s with icu := t.icu, safe.stackFaults := t.safe.stackFaults, evq := t.evq, free := t.free } := by
  intro g t
  have ht : t = raiseEv 5 1 (9 + n.val) (BitVec.ofNat 96 (id + topId g * 2 ^ 16))
      (stackFaultTold { s with icu := rejected n.val id s.icu }) := icuReject_eq n.val id s
  have hd3 : domUp (stackFaultTold { s with icu := rejected n.val id s.icu }) 3 = domUp s 3 := by
    rw [stackFaultTold_frame]
    rfl
  have hev : (stackFaultTold { s with icu := rejected n.val id s.icu }).evq = s.evq
      ∧ (stackFaultTold { s with icu := rejected n.val id s.icu }).course = s.course := by
    rw [stackFaultTold_frame]
    exact ⟨rfl, rfl⟩
  have hr : Raised s t 5 1 (9 + n.val) (id + topId g * 2 ^ 16) := by
    intro hd
    obtain ⟨e, h1, h2, h3, h4, h5, h6⟩ := raiseEv_raised 5 1 (9 + n.val) (BitVec.ofNat 96 (id + topId g * 2 ^ 16))
      (stackFaultTold { s with icu := rejected n.val id s.icu }) (hd3.trans hd)
    refine ⟨e, ?_, ?_, h3, h4, h5, ?_⟩
    · rw [ht, h1, hev.1]
    · rw [h2, hev.2]
    · rw [h6, BitVec.ofNat_toNat, BitVec.setWidth_eq]
  have hsf : domUp s 1 = true → (stackFaultTold { s with icu := rejected n.val id s.icu }).safe.stackFaults
      = satInc s.safe.stackFaults := fun hd => congrArg (fun u : State => u.safe.stackFaults) (if_pos hd)
  obtain ⟨⟨z, hz⟩, hm, hsrc⟩ := rejected_spec n.val id s.icu
  rw [raiseEv_frame, stackFaultTold_frame] at ht
  have hicu : t.icu = rejected n.val id s.icu := (congrArg State.icu ht).trans rfl
  refine ⟨(congrArg State.hdrs ht).trans rfl, ?_, ?_, ?_, ?_, ?_, fun hd => ?_, hr, fun m hne => ?_, ?_, ?_⟩
  · rw [hicu, hz]
  · rw [hicu, hz]
  · rw [hicu, hz]
  · rw [hicu, hz]
  · rw [hicu, hz]
  · exact (congrArg (fun u : State => u.safe.stackFaults) ht).trans (hsf hd)
  · rw [hicu]
    exact hm m hne
  · rw [hicu, hsrc]
  · rw [ht]

/-- What an EOI write does, and whether it counts as applied. -/
def eoiAnswer (req : Requester) (n : Fin 5) (id : Nat) (s : State) : State × Bool :=
  if req ≠ icuOwner n.val then (setSticky (9 + n.val) 8 s, false)
  else if id = 0x3FF then (s, false)
  else if (icuTop (icuTgt s.icu n.val)).map Prod.fst = some id then (icuPop n.val id s, true)
  else (icuReject n.val id s, false)

theorem exec_icuEoi (req : Requester) (n : Fin 5) (v : Word) (s : State) :
    exec (.icuEoi req n v) s = .next (pageWriteIf (9 + n.val) (eoiAnswer req n (fld v 0 10)) s) := rfl

/-- Settles O44, by the four answers of an EOI. -/
theorem eoiPopsTop : Obligations.EoiPopsTop := by
  unfold Obligations.EoiPopsTop
  intro req n v s ht g id
  have he := exec_icuEoi req n v s
  refine ⟨fun h => ?_, fun h h1 => ?_, fun h h1 h2 => ?_, fun h h1 h2 => ?_⟩
  · have hf : eoiAnswer req n id s = (setSticky (9 + n.val) 8 s, false) := if_pos h
    refine ⟨_, pageWriteIf_drops ht he hf, hdr_setSticky_same _ _ _, fun q hq => hdr_setSticky_other _ _ _ hq, ?_⟩
    rw [setSticky_eq]
    rfl
  · have hf : eoiAnswer req n id s = (s, false) := (if_neg (not_not.mpr h)).trans (if_pos h1)
    exact pageWriteIf_drops ht he hf
  · have hf : eoiAnswer req n id s = (icuPop n.val id s, true) :=
      (if_neg (not_not.mpr h)).trans ((if_neg h1).trans (if_pos h2))
    obtain ⟨p1, p2, p3, p4, p5⟩ := icuPop_spec n.val id s
    have hh : (icuPop n.val id s).hdrs = s.hdrs := by rw [p5]
    obtain ⟨t, h3, h4, -, h5⟩ := pageWriteIf_answers ht he hf hh
    refine ⟨t, h3, h4, ?_⟩
    rw [h5]
    refine ⟨p1, p2, p3, p4, ?_⟩
    rw [p5]
  · have hf : eoiAnswer req n id s = (icuReject n.val id s, false) :=
      (if_neg (not_not.mpr h)).trans ((if_neg h1).trans (if_neg h2))
    exact ⟨_, pageWriteIf_drops ht he hf, icuReject_spec⟩

end Sys2Proof.Machine
end


section
/-! The event queues (ch. 11): writing, shedding, latching and popping. -/

namespace Sys2Proof.Machine

/-! One queue. -/

theorem evqLow_frame (cn : Word) (q : EvQueue) : ∃ l, evqLow cn q = { q with lowSince := l } := by
  unfold evqLow
  split
  · split
    · exact ⟨_, rfl⟩
    · exact ⟨_, rfl⟩
  · exact ⟨_, rfl⟩

theorem evqPut_frame (cn : Word) (e : EventRec) (q : EvQueue) : ∃ l, evqPut cn e q = { q with
    recs := q.recs ++ [{ e with seq := q.seq }], seq := q.seq + 1
    hwm := max q.hwm (q.recs ++ [{ e with seq := q.seq }]).length, pulses := q.pulses + 1
    overload := q.overload || 768 ≤ (q.recs ++ [{ e with seq := q.seq }]).length, lowSince := l } :=
  evqLow_frame cn _

/-- A queue with no EPOCH marker to write serves its latches, then its SHED marker. -/
theorem evqServe_noEpoch {cn : Word} {p : Dword} {q : EvQueue} (he : q.epoch = none) :
    evqServe cn p q = (let q2 := iterate (evqSummary cn p) q.latches.cells.length q
      if q2.shed ≠ 0 ∧ evqFill q2 < 768 then
        evqPut cn { cn := cn, ptp := p, cls := 6, code := 1,
                    data := BitVec.ofNat 96 (q2.shed + q2.firstShed.toNat * 2 ^ 32 + q2.lastShed.toNat * 2 ^ 64) }
          { q2 with shed := 0 }
      else q2) := by
  unfold evqServe
  rw [he]
  dsimp only
  rw [he]
  exact if_neg (by nofun)

/-- A queue with nothing latched, shed or marked has nothing to serve. -/
theorem evqServe_quiet {cn : Word} {p : Dword} {q : EvQueue} (he : q.epoch = none) (hl : q.latches.cells = [])
    (hs : q.shed = 0) : evqServe cn p q = q := by
  rw [evqServe_noEpoch he, hl]
  exact if_neg fun h => h.1 hs

/-- A queue without room for a SHED marker keeps what it has shed. -/
theorem evqServe_full {cn : Word} {p : Dword} {q : EvQueue} (he : q.epoch = none) (hl : q.latches.cells = [])
    (hf : 768 ≤ q.recs.length) : evqServe cn p q = q := by
  rw [evqServe_noEpoch he, hl]
  exact if_neg fun h => absurd h.2 (Nat.not_lt.mpr hf)

theorem evqSummary_full {cn : Word} {p : Dword} {q : EvQueue} (hf : 1024 ≤ q.recs.length) : evqSummary cn p q = q := by
  unfold evqSummary
  cases evqNextPoint q with
  | none => rfl
  | some k => exact if_neg (Nat.not_lt.mpr hf)

theorem iterate_fixed {α : Type} {f : α → α} {x : α} (h : f x = x) (n : Nat) : iterate f n x = x := by
  induction n with
  | zero => rfl
  | succ n ih =>
    change iterate f n (f x) = x
    rw [h, ih]

/-- A queue without any room serves nothing. -/
theorem evqServe_stuffed {cn : Word} {p : Dword} {q : EvQueue} (he : q.epoch = none) (hf : 1024 ≤ q.recs.length) :
    evqServe cn p q = q := by
  rw [evqServe_noEpoch he, iterate_fixed (evqSummary_full hf)]
  exact if_neg fun h => absurd h.2 (Nat.not_lt.mpr (by unfold evqFill; omega))

/-- A queue after a record has reached it and what it owes is served. -/
def evqServed (cn : Word) (p : Dword) (e : EventRec) (q : EvQueue) : EvQueue :=
  evqServe cn p (evqLow cn (evqWrite cn e q))

theorem evqWrite_selected {cn : Word} {e : EventRec} {q : EvQueue} (h1 : q.en = true) (h2 : evqSelects q e = true) :
    evqWrite cn e q = if e.cls = 1 then evqAlarm cn e q else evqOther cn e q := by
  unfold evqWrite
  rw [h1, h2]
  exact if_pos rfl

section
variable {cn : Word} {p : Dword} {e : EventRec} {q : EvQueue}
variable (hl : q.latches.cells = []) (he : q.epoch = none) (hs : q.shed = 0)
include hl he

theorem evqServed_ignored (hs : q.shed = 0) (h : q.en = false ∨ evqSelects q e = false) :
    (evqServed cn p e q).recs = q.recs ∧ (evqServed cn p e q).seq = q.seq := by
  have hw : evqWrite cn e q = q := by
    refine if_neg fun hx => ?_
    obtain ⟨h1, h2⟩ := Bool.and_eq_true_iff.mp hx
    rcases h with h | h
    · exact absurd (h.symm.trans h1) (by nofun)
    · exact absurd (h.symm.trans h2) (by nofun)
  obtain ⟨l, hlow⟩ := evqLow_frame cn q
  unfold evqServed
  rw [hw, hlow, evqServe_quiet (q := { q with lowSince := l }) he hl hs]
  exact ⟨rfl, rfl⟩

theorem evqServed_put (hs : q.shed = 0) (hw : evqWrite cn e q = evqPut cn e q) :
    (evqServed cn p e q).recs = q.recs ++ [{ e with seq := q.seq }] ∧ (evqServed cn p e q).seq = q.seq + 1
      ∧ (evqServed cn p e q).shed = 0 := by
  obtain ⟨l, hp⟩ := evqPut_frame cn e q
  obtain ⟨l', hlow⟩ := evqLow_frame cn (evqPut cn e q)
  unfold evqServed
  rw [hw, hlow, hp, evqServe_quiet]
  · exact ⟨rfl, rfl, hs⟩
  · exact he
  · exact hl
  · exact hs

/-- A record finds room: 768 places for any record, 1,024 for an alarm. -/
theorem evqWrite_room (h1 : q.en = true) (h2 : evqSelects q e = true)
    (hr : q.recs.length < 768 ∨ q.recs.length < 1024 ∧ e.cls = 1) : evqWrite cn e q = evqPut cn e q := by
  rw [evqWrite_selected h1 h2]
  by_cases hc : e.cls = 1
  · rw [if_pos hc]
    exact if_pos ⟨by unfold evqFill; omega, hl, he⟩
  · rw [if_neg hc]
    refine if_pos ⟨?_, he⟩
    rcases hr with hr | ⟨-, hr⟩
    · exact hr
    · exact absurd hr hc

theorem evqServed_shed (hs : q.shed = 0) (h1 : q.en = true) (h2 : evqSelects q e = true) (hf : 768 ≤ q.recs.length)
    (hc : e.cls ≠ 1) :
    (evqServed cn p e q).recs = q.recs ∧ (evqServed cn p e q).shed = 1 ∧ (evqServed cn p e q).firstShed = e.cn
      ∧ (evqServed cn p e q).lastShed = e.cn ∧ (evqServed cn p e q).shedTotal = satInc q.shedTotal := by
  have hw : evqWrite cn e q = { q with
      firstShed := e.cn, lastShed := e.cn, shed := 1, shedTotal := satInc q.shedTotal } := by
    rw [evqWrite_selected h1 h2, if_neg hc]
    refine (if_neg fun h => absurd h.1 (Nat.not_lt.mpr hf)).trans ?_
    rw [if_pos hs, hs]
  unfold evqServed
  rw [hw]
  obtain ⟨l, hlow⟩ := evqLow_frame cn { q with
    firstShed := e.cn, lastShed := e.cn, shed := 1, shedTotal := satInc q.shedTotal }
  rw [hlow, evqServe_full]
  · exact ⟨rfl, rfl, rfl, rfl, rfl⟩
  · exact he
  · exact hl
  · exact hf

theorem evqServed_latched (h1 : q.en = true) (h2 : evqSelects q e = true) (hf : 1024 ≤ q.recs.length) (hc : e.cls = 1) :
    (evqServed cn p e q).recs = q.recs
      ∧ (evqServed cn p e q).latches.get? e.source.toNat = some { data := e.data, lost := 1 } := by
  have hg : q.latches.get? e.source.toNat = none := congrArg (fun l => Tab.find l e.source.toNat) hl
  have hw : evqWrite cn e q = { q with latches := q.latches.set e.source.toNat { data := e.data, lost := 1 } } := by
    rw [evqWrite_selected h1 h2, if_pos hc]
    refine (if_neg fun h => absurd h.1 (Nat.not_lt.mpr hf)).trans ?_
    dsimp only
    rw [hg]
  unfold evqServed
  rw [hw]
  obtain ⟨l, hlow⟩ := evqLow_frame cn { q with latches := q.latches.set e.source.toNat { data := e.data, lost := 1 } }
  rw [hlow, evqServe_stuffed]
  · exact ⟨rfl, Tab.get?_set_same _ _ _⟩
  · exact he
  · exact hf

end

/-! All queues. -/

theorem evqNote_frame (x y : EvQueue) (s : State) : evqNote x y s = { s with hdrs := (evqNote x y s).hdrs } := by
  unfold evqNote
  split
  · rw [setSticky_eq]
    rfl
  · rfl

theorem evqReplace_frame (q : Nat) (f : EvQueue → EvQueue) (s : State) :
    ∃ p h, evqReplace q f s = { s with
      evq.queues := s.evq.queues.set q (evqServe s.course.cn p (evqLow s.course.cn (f (evqGet s q)))), hdrs := h
      free := s.free + 1 } := ⟨_, _, evqNote_frame _ _ _⟩

theorem evqReplace_other (q : Nat) (f : EvQueue → EvQueue) (s : State) {k : Nat} (hk : k ≠ q) :
    evqGet (evqReplace q f s) k = evqGet s k := by
  obtain ⟨p, h, hr⟩ := evqReplace_frame q f s
  rw [hr]
  exact Tab.get_set_other _ _ _ hk

theorem foldl_evqReplace (e : EventRec) (l : List Nat) : ∀ s : State, l.Nodup →
    ∃ a h f, l.foldl (fun s q => evqReplace q (evqWrite s.course.cn e) s) s
        = { s with evq.queues := a, hdrs := h, free := f }
      ∧ (∀ q, q ∉ l → a.get {} q = evqGet s q)
      ∧ ∀ q, q ∈ l → ∃ p, a.get {} q = evqServed s.course.cn p e (evqGet s q) := by
  induction l with
  | nil => exact fun s _ => ⟨_, _, _, rfl, fun q _ => rfl, fun q hq => absurd hq List.not_mem_nil⟩
  | cons k l ih =>
    intro s hn
    obtain ⟨hk, hn⟩ := List.nodup_cons.mp hn
    rw [List.foldl_cons]
    obtain ⟨p, h, hr⟩ := evqReplace_frame k (evqWrite s.course.cn e) s
    have hother : ∀ q, q ≠ k → evqGet (evqReplace k (evqWrite s.course.cn e) s) q = evqGet s q := fun q hq =>
      evqReplace_other k _ s hq
    have hsame : evqGet (evqReplace k (evqWrite s.course.cn e) s) k = evqServed s.course.cn p e (evqGet s k) := by
      rw [hr]
      exact Tab.get_set_same _ _ _ _
    obtain ⟨a, h', f, h1, h2, h3⟩ := ih (evqReplace k (evqWrite s.course.cn e) s) hn
    have hcn : (evqReplace k (evqWrite s.course.cn e) s).course.cn = s.course.cn := by rw [hr]
    refine ⟨a, h', f, h1.trans (by rw [hr]), fun q hq => ?_, fun q hq => ?_⟩
    · obtain ⟨hqk, hql⟩ := not_or.mp (fun h => hq (List.mem_cons.mpr h))
      exact (h2 q hql).trans (hother q hqk)
    · rcases List.mem_cons.mp hq with rfl | hq
      · exact ⟨p, (h2 q hk).trans hsame⟩
      · obtain ⟨p', hp⟩ := h3 q hq
        refine ⟨p', hp.trans ?_⟩
        rw [hcn, hother q (fun hqk => hk (hqk ▸ hq))]

/-! The commands. -/

theorem eventRecordArrival_spec {k : Nat} {e : EventRec} {s : State} (hd : domUp s 3 = true) :
    let i := if evqMayPass s.evq.inflight k then k else 0
    s.evq.inflight[i]? = some e →
    ∃ t, exec (.eventRecordArrival k) s = .next t ∧ t.evq.inflight = s.evq.inflight.eraseIdx i
      ∧ (∀ q, q < 5 → ∃ p, evqGet t q = evqServed s.course.cn p e (evqGet s q))
      ∧ t = { s with evq := t.evq, hdrs := t.hdrs, free := t.free } := by
  intro i hi
  have he : exec (.eventRecordArrival k) s = .next (evqArrive e { s with evq.inflight := s.evq.inflight.eraseIdx i }) := by
    refine congrArg Host.Outcome.next ?_
    dsimp only
    rw [show (if evqMayPass s.evq.inflight k then k else 0) = i from rfl, hi]
    exact if_pos hd
  obtain ⟨a, h, f, h1, -, h3⟩ := foldl_evqReplace e [0, 1, 2, 3, 4]
    { s with evq.inflight := s.evq.inflight.eraseIdx i } (by decide)
  refine ⟨_, he, ?_⟩
  rw [show evqArrive e { s with evq.inflight := s.evq.inflight.eraseIdx i } = _ from h1]
  refine ⟨rfl, fun q hq => h3 q ?_, rfl⟩
  rw [show [0, 1, 2, 3, 4] = List.range 5 from rfl]
  exact List.mem_range.mpr hq

theorem evqPop_spec {q : Fin 5} {v : Word} {s : State} (ht : PageTakes s 0x15)
    (hl : (evqGet s q.val).latches.cells = []) (he : (evqGet s q.val).epoch = none) (hs : (evqGet s q.val).shed = 0) :
    ∃ t, exec (.evqPop (evqOwner q.val) q v) s = .next t ∧ hdr t 0x15 = hdrCount (hdr s 0x15)
      ∧ (evqGet t q.val).recs = (evqGet s q.val).recs.drop (fld v 0 11) ∧ (evqGet t q.val).seq = (evqGet s q.val).seq
      ∧ (∀ k, k ≠ q.val → evqGet t k = evqGet s k) ∧ t = { s with evq := t.evq, hdrs := t.hdrs, free := t.free } := by
  have hx : exec (.evqPop (evqOwner q.val) q v) s = .next (pageWriteIf 0x15 (fun s =>
      if evqOwner q.val = evqOwner q.val then
        (evqReplace q.val (fun x => { x with recs := x.recs.drop (fld v 0 11) }) s, true)
      else (setSticky 0x15 9 s, false)) s) := rfl
  obtain ⟨l, hlow⟩ := evqLow_frame s.course.cn { evqGet s q.val with recs := (evqGet s q.val).recs.drop (fld v 0 11) }
  have hnew : evqServe s.course.cn (ptpNow s) (evqLow s.course.cn
      { evqGet s q.val with recs := (evqGet s q.val).recs.drop (fld v 0 11) })
      = { evqGet s q.val with recs := (evqGet s q.val).recs.drop (fld v 0 11), lowSince := l } := by
    rw [hlow]
    exact evqServe_quiet he hl hs
  have hrep : evqReplace q.val (fun x => { x with recs := x.recs.drop (fld v 0 11) }) s = { s with
      evq.queues := s.evq.queues.set q.val { evqGet s q.val with
        recs := (evqGet s q.val).recs.drop (fld v 0 11), lowSince := l }
      free := s.free + 1 } := by
    unfold evqReplace
    dsimp only
    rw [hnew]
    refine if_neg ?_
    cases (evqGet s q.val).overload with
    | false => nofun
    | true => nofun
  obtain ⟨t, h1, h2, -, h3⟩ := pageWriteIf_answers ht hx
    ((if_pos rfl).trans (congrArg (·, true) hrep)) rfl
  refine ⟨t, h1, h2, ?_⟩
  rw [h3]
  refine ⟨?_, ?_, fun k hk => Tab.get_set_other _ _ _ hk, rfl⟩
  · exact (congrArg EvQueue.recs (Tab.get_set_same s.evq.queues ({} : EvQueue) _ q.val)).trans rfl
  · exact (congrArg EvQueue.seq (Tab.get_set_same s.evq.queues ({} : EvQueue) _ q.val)).trans rfl

theorem evqOverloadClear_spec {q : Fin 5} {c : Word} {s : State} (hd : domUp s 3 = true)
    (hl : (evqGet s q.val).latches.cells = []) (hs : (evqGet s q.val).shed = 0)
    (hc : (evqGet s q.val).lowSince = some c) (h4 : 4000 ≤ since s c) :
    ∃ t, exec (.evqOverloadClear q) s = .next t ∧ evqGet t q.val = { evqGet s q.val with overload := false }
      ∧ (∀ k, k ≠ q.val → evqGet t k = evqGet s k) ∧ t = { s with evq := t.evq } := by
  cases ho : (evqGet s q.val).overload with
  | false =>
    refine ⟨s, congrArg Host.Outcome.next (if_neg ?_), ?_, fun k _ => rfl, rfl⟩
    · rw [ho, Bool.and_false]
      nofun
    · rw [← ho]
  | true =>
    refine ⟨{ s with evq.queues := s.evq.queues.set q.val { evqGet s q.val with overload := false } },
      congrArg Host.Outcome.next (if_pos ?_), Tab.get_set_same _ _ _ _, fun k hk => Tab.get_set_other _ _ _ hk, rfl⟩
    rw [hc, hd, ho, hl, hs]
    exact decide_eq_true h4

theorem evqDisable_spec {q : Fin 5} {a : Bool} {s : State} (ht : PageTakes s 0x15) :
    ∃ t, exec (.evqDisable q a) s = .next t ∧ hdr t 0x15 = hdrCount (hdr s 0x15)
      ∧ (evqGet t q.val).en = false ∧ (evqGet t q.val).alarms = a ∧ (evqGet t q.val).recs = []
      ∧ (evqGet t q.val).latches.cells = [] ∧ (evqGet t q.val).shed = 0 ∧ (evqGet t q.val).overload = false
      ∧ (∀ k, k ≠ q.val → evqGet t k = evqGet s k) ∧ t = { s with evq := t.evq, hdrs := t.hdrs } := by
  have h31 : bitAt (if a then (0x40000000 : Word) else 0) 31 = false := by cases a <;> rfl
  have h30 : bitAt (if a then (0x40000000 : Word) else 0) 30 = a := by cases a <;> rfl
  have he : exec (.evqDisable q a) s = .next (pageWrite 0x15 (fun s =>
      { s with evq.queues := s.evq.queues.upd {} q.val (evqCtl (if a then 0x40000000 else 0) s.course.cn) }) s) := rfl
  rw [pageWrite_takes ht] at he
  have hq : evqGet { s with
      evq.queues := s.evq.queues.upd {} q.val (evqCtl (if a then 0x40000000 else 0) s.course.cn) } q.val
      = { evqGet s q.val with
        en := false, alarms := a, recs := [], latches := {}, shed := 0, shedTotal := 0
        summaries := 0, overload := false, epoch := none, lowSince := some s.course.cn } := by
    refine (Tab.get_upd_same _ _ _ _).trans ((if_neg (by rw [h31]; nofun)).trans ?_)
    rw [h30]
    rfl
  refine ⟨_, he, hdr_countWrite_same _ _, ?_⟩
  refine ⟨(congrArg EvQueue.en hq).trans rfl, (congrArg EvQueue.alarms hq).trans rfl,
    (congrArg EvQueue.recs hq).trans rfl, (congrArg (fun x : EvQueue => x.latches.cells) hq).trans rfl,
    (congrArg EvQueue.shed hq).trans rfl, (congrArg EvQueue.overload hq).trans rfl,
    fun k hk => Tab.get_upd_other _ _ _ hk, rfl⟩

/-- Settles O46, by what a record leaves in one queue (`evqServed_put`, `evqServed_shed`, `evqServed_latched`). -/
theorem eventQueues : Obligations.EventQueues := by
  unfold Obligations.EventQueues
  refine ⟨fun k e s hd => ?_, fun q v s => evqPop_spec, fun req q v s ht hr => ?_, fun q c s => evqOverloadClear_spec,
    fun q a s => evqDisable_spec⟩
  · intro i hi
    obtain ⟨t, h1, h2, h3, h4⟩ := eventRecordArrival_spec hd hi
    refine ⟨t, h1, h2, fun q hq hl he hs => ?_, h4⟩
    intro x y
    obtain ⟨p, hp⟩ := h3 q hq
    have hy : y = evqServed s.course.cn p e x := hp
    rw [hy]
    refine ⟨fun h => evqServed_ignored hl he hs h, fun he1 hs1 hr => ?_, fun he1 hs1 hr hc => ?_, fun he1 hs1 _ hr hc => ?_,
      fun he1 hs1 hr hc => evqServed_latched hl he he1 hs1 hr hc⟩
    · exact evqServed_put hl he hs (evqWrite_room hl he he1 hs1 (.inl hr))
    · exact evqServed_shed hl he hs he1 hs1 hr hc
    · exact (evqServed_put hl he hs (evqWrite_room hl he he1 hs1 (.inr ⟨hr, hc⟩))).1
  · have hx : exec (.evqPop req q v) s = .next (pageWriteIf 0x15 (fun s =>
        if req = evqOwner q.val then
          (evqReplace q.val (fun x => { x with recs := x.recs.drop (fld v 0 11) }) s, true)
        else (setSticky 0x15 9 s, false)) s) := rfl
    refine ⟨_, pageWriteIf_drops ht hx (if_neg hr), hdr_setSticky_same _ _ _, fun q hq => hdr_setSticky_other _ _ _ hq, ?_⟩
    rw [setSticky_eq]
    rfl

end Sys2Proof.Machine
end


section
/-! Heartbeats and streets (ch. 12). -/

namespace Sys2Proof.Machine

/-! The two streets. -/

theorem street_updStreet_same (b : Bool) (f : Street → Street) (s : State) : street (updStreet b f s) b = f (street s b) := by
  cases b
  · rfl
  · rfl

theorem street_updStreet_other (b : Bool) (f : Street → Street) (s : State) :
    street (updStreet b f s) (!b) = street s (!b) := by
  cases b
  · rfl
  · rfl

theorem updStreet_frame (b : Bool) (f : Street → Street) (s : State) :
    ∃ x y, updStreet b f s = { s with red.streetA := x, red.streetB := y } := by
  cases b
  · exact ⟨_, _, rfl⟩
  · exact ⟨_, _, rfl⟩

/-- An update of one street shows in the two streets alone. -/
theorem updStreet_eq (b : Bool) (f : Street → Street) (s : State) : updStreet b f s =
    { s with red.streetA := (updStreet b f s).red.streetA, red.streetB := (updStreet b f s).red.streetB } := by
  obtain ⟨x, y, h⟩ := updStreet_frame b f s
  rw [h]

/-! The judgement of the peer, and the pair's events. -/

theorem redEvent_evq (code detail : Nat) (s : State) : ∃ e f, redEvent code detail s = { s with evq := e, free := f } :=
  blockEv_evq _ _ _ s

theorem linkEvent_evq (s : State) : ∃ e f, linkEvent s = { s with evq := e, free := f } := redEvent_evq _ _ s

theorem judgePeerLost_frame (s : State) :
    ∃ l e f, judgePeerLost s = { s with red.peerLost := l, evq := e, free := f } := by
  unfold judgePeerLost
  extract_lets v
  split
  · exact ⟨_, _, _, rfl⟩
  · obtain ⟨e, f, h⟩ := redEvent_evq 4 (b2n v) { s with red.peerLost := v }
    exact ⟨_, _, _, h⟩

theorem isSolo_iff (s : State) : isSolo s = true ↔ s.red.role = .solo := decide_eq_true_iff

theorem isSolo_false {s : State} (h : s.red.role ≠ .solo) : isSolo s = false := decide_eq_false h

theorem inPair_iff (s : State) : inPair s = true ↔ s.red.role = .a ∨ s.red.role = .b := by
  simp [inPair]

theorem isSolo_of_inPair {s : State} (h : inPair s = true) : isSolo s = false := by
  refine isSolo_false fun hr => ?_
  rw [inPair_iff, hr] at h
  rcases h with h | h
  · exact absurd h (by decide)
  · exact absurd h (by decide)

/-! Sending (R319). -/

/-- The streets after a heartbeat has gone out on both. -/
def heartbeatOut (s : State) : State :=
  updStreet false sendOn (updStreet true sendOn { s with red.hbSent := some (ownHeartbeat s), free := s.free + 1 })

theorem street_heartbeatOut (s : State) (b : Bool) : street (heartbeatOut s) b = sendOn (street s b) := by
  cases b
  · rfl
  · rfl

theorem heartbeatSend_spec {s : State} (hd : domUp s 1 = true) (hr : s.red.role ≠ .solo) :
    ∃ t, exec .heartbeatSend s = .next t
      ∧ t.red.hbSent = some (ownHeartbeat s)
      ∧ (∀ b, (street s b).waiting = false → street t b = { street s b with waiting := true })
      ∧ (∀ b, (street s b).waiting = true →
          street t b = { street s b with missed := satInc (street s b).missed, goodRun := 0 })
      ∧ t = { s with
        red.hbSent := t.red.hbSent, red.streetA := t.red.streetA, red.streetB := t.red.streetB, free := t.free } := by
  have he : exec .heartbeatSend s = .next (heartbeatOut s) := by
    refine congrArg Host.Outcome.next (if_pos ?_)
    rw [hd, isSolo_false hr]
    rfl
  refine ⟨_, he, rfl, fun b hb => ?_, fun b hb => ?_, rfl⟩
  · exact (street_heartbeatOut s b).trans (if_neg (by rw [hb]; nofun))
  · exact (street_heartbeatOut s b).trans (if_pos hb)

/-! Receiving (R319, R327, R330, R331). -/

theorem exec_heartbeatReceive {st : Bool} {h : Heartbeat} {s : State} (hd : domUp s 1 = true) :
    exec (.heartbeatReceive st h) s = .next (
      if !h.crcOk then updStreet st notGood s
      else if isSolo s then roleConflict h.role s
      else
        let s1 := updStreet st (fun x => { x with echo := some h }) s
        if s.red.peerSn ≠ 0 && h.serial ≠ s.red.peerSn then
          if s.red.wrongSerial then s1
          else redEvent 5 (Role.num h.role) { s1 with red.wrongSerial := true, red.conflict := true }
        else if inPair s && h.role = s.red.role then roleConflict h.role s1
        else peerSeen h s1) := congrArg Host.Outcome.next (if_pos hd)

theorem heartbeatReceive_bad {st : Bool} {h : Heartbeat} {s : State} (hd : domUp s 1 = true) (hc : h.crcOk = false) :
    ∃ t, exec (.heartbeatReceive st h) s = .next t
        ∧ street t st = { street s st with missed := satInc (street s st).missed, goodRun := 0 }
        ∧ street t (!st) = street s (!st)
        ∧ t = { s with red.streetA := t.red.streetA, red.streetB := t.red.streetB } := by
  refine ⟨_, (exec_heartbeatReceive hd).trans (congrArg _ (if_pos (by rw [hc]; rfl))), street_updStreet_same _ _ _,
    street_updStreet_other _ _ _, updStreet_eq _ _ _⟩

/-- What a heartbeat of the accepted peer leaves. -/
theorem peerSeen_spec (h : Heartbeat) (s : State) :
    ∃ l e f, peerSeen h s = { s with
      red.peerReady := h.ready, red.peerFault := h.fault, red.peerCn := h.cn, red.peerRole := h.role, red.alone := false
      red.wrongSerial := false, red.peerSynced := h.synced
      red.conflict := s.red.roleConflict
      red.peerEpoch := if h.claim = 0 then s.red.peerEpoch else h.claim
      red.peerLost := l, evq := e, free := f } := by
  obtain ⟨l, e, f, hj⟩ := judgePeerLost_frame { s with
    red.peerReady := h.ready, red.peerFault := h.fault, red.peerCn := h.cn, red.peerRole := h.role, red.alone := false
    red.wrongSerial := false, red.peerSynced := h.synced
    red.conflict := s.red.roleConflict
    red.peerEpoch := if h.claim = 0 then s.red.peerEpoch else h.claim }
  exact ⟨l, e, f, hj⟩

theorem heartbeatReceive_peer {st : Bool} {h : Heartbeat} {s : State} (hd : domUp s 1 = true) (hc : h.crcOk = true)
    (hp : inPair s = true) (hr : h.role ≠ s.red.role) (hs : s.red.peerSn = 0 ∨ h.serial = s.red.peerSn) :
    ∃ t, exec (.heartbeatReceive st h) s = .next t ∧ (street t st).echo = some h
      ∧ t.red.peerReady = h.ready ∧ t.red.peerFault = h.fault ∧ t.red.peerCn = h.cn ∧ t.red.peerRole = h.role
      ∧ t.red.peerSynced = h.synced ∧ t.red.wrongSerial = false
      ∧ t.red.own = s.red.own ∧ t.red.peer = s.red.peer ∧ t.red.gates = s.red.gates ∧ t.red.state = s.red.state
      ∧ t = { s with red := t.red, evq := t.evq, free := t.free } := by
  have he := exec_heartbeatReceive (st := st) (h := h) hd
  rw [hc, isSolo_of_inPair hp] at he
  have h1 : ¬ (decide (s.red.peerSn ≠ 0) && decide (h.serial ≠ s.red.peerSn)) = true := by
    rcases hs with hs | hs
    · rw [hs]
      nofun
    · rw [hs]
      simp
  have h2 : ¬ (inPair s && decide (h.role = s.red.role)) = true := by
    rw [decide_eq_false hr, Bool.and_false]
    nofun
  have he := he.trans (congrArg Host.Outcome.next ((if_neg h1).trans (if_neg h2)))
  refine ⟨_, he, ?_⟩
  have hst := street_updStreet_same st (fun x => { x with echo := some h }) s
  obtain ⟨x, y, hu⟩ := updStreet_frame st (fun x => { x with echo := some h }) s
  rw [hu] at hst ⊢
  obtain ⟨l, e, f, hs⟩ := peerSeen_spec h { s with red.streetA := x, red.streetB := y }
  rw [hs]
  exact ⟨(congrArg Street.echo hst).trans rfl, rfl, rfl, rfl, rfl, rfl, rfl, rfl, rfl, rfl, rfl, rfl⟩

theorem heartbeatReceive_wrong {st : Bool} {h : Heartbeat} {s : State} (hd : domUp s 1 = true) (hc : h.crcOk = true)
    (hp : inPair s = true) (h0 : s.red.peerSn ≠ 0) (hs : h.serial ≠ s.red.peerSn) (hw : s.red.wrongSerial = false) :
    ∃ t, exec (.heartbeatReceive st h) s = .next t ∧ t.red.wrongSerial = true ∧ t.red.conflict = true
      ∧ t.red.peerReady = s.red.peerReady ∧ t.red.own = s.red.own ∧ t.red.gates = s.red.gates
      ∧ t = { s with red := t.red, evq := t.evq, free := t.free } := by
  have he := exec_heartbeatReceive (st := st) (h := h) hd
  rw [hc, isSolo_of_inPair hp] at he
  have h1 : (decide (s.red.peerSn ≠ 0) && decide (h.serial ≠ s.red.peerSn)) = true := by
    rw [decide_eq_true h0, decide_eq_true hs]
    rfl
  have he := he.trans (congrArg Host.Outcome.next ((if_pos h1).trans (if_neg (by rw [hw]; nofun))))
  refine ⟨_, he, ?_⟩
  obtain ⟨x, y, hu⟩ := updStreet_frame st (fun x => { x with echo := some h }) s
  rw [hu]
  obtain ⟨e, f, hr⟩ := redEvent_evq 5 (Role.num h.role)
    { s with red.streetA := x, red.streetB := y, red.wrongSerial := true, red.conflict := true }
  rw [hr]
  exact ⟨rfl, rfl, rfl, rfl, rfl, rfl⟩

/-! Echoes (R319). -/

theorem echoReceive_spec {st : Bool} {rtt : Nat} {s : State} (hd : domUp s 1 = true) (hw : (street s st).waiting = true) :
    let x := street s st
    ∃ t, exec (.echoReceive st rtt) s = .next t
      ∧ (rtt ≤ 200 → street t st = { x with waiting := false, rtt := satNat 8 rtt, goodRun := x.goodRun + 1 })
      ∧ (200 < rtt → street t st = { x with waiting := false, rtt := satNat 8 rtt, missed := satInc x.missed, goodRun := 0 })
      ∧ street t (!st) = street s (!st)
      ∧ t = { s with red.streetA := t.red.streetA, red.streetB := t.red.streetB } := by
  intro x
  have he : exec (.echoReceive st rtt) s = .next (updStreet st (fun x =>
      let y := { x with waiting := false, rtt := satNat 8 rtt }
      if rtt ≤ 200 then { y with goodRun := x.goodRun + 1 } else notGood y) s) := by
    refine congrArg Host.Outcome.next (if_pos ?_)
    rw [hd, hw]
    rfl
  refine ⟨_, he, fun h => ?_, fun h => ?_, street_updStreet_other _ _ _, updStreet_eq _ _ _⟩
  · exact (street_updStreet_same _ _ _).trans (if_pos h)
  · exact (street_updStreet_same _ _ _).trans (if_neg (Nat.not_le.mpr h))

/-! Streets that go missing and come back (R320, R338). -/

/-- The streets' judgement after one of them has changed. -/
theorem streetJudged_frame (b : Bool) (f : Street → Street) (s : State) : ∃ l e g,
    judgePeerLost (linkEvent (updStreet b f s)) = { updStreet b f s with red.peerLost := l, evq := e, free := g } := by
  obtain ⟨e, g, h⟩ := linkEvent_evq (updStreet b f s)
  rw [h]
  obtain ⟨l, e', g', hj⟩ := judgePeerLost_frame { updStreet b f s with evq := e, free := g }
  exact ⟨l, e', g', hj⟩

theorem mayTakeOver_iff (s : State) : mayTakeOver s = true
    ↔ s.red.state = .standby ∧ redReady s = true ∧ mayClaim s = true := by
  simp [mayTakeOver, and_assoc]

/-- What a takeover leaves (R338). -/
theorem takeOver_spec {s : State} (cause : Nat) (hr : s.red.role ≠ .solo) : ∃ e f, takeOver cause s = { s with
    red.takeCause := BitVec.ofNat 8 cause, red.takeCount := satInc s.red.takeCount, red.taking := true
    red.own := s.red.peerEpoch + 1, red.slots := 0, red.state := .active, red.quiet := 0, evq := e, free := f } := by
  obtain ⟨e, f, h⟩ := redEvent_evq 1 (s.red.peerEpoch + 1).toNat (raiseClaim (s.red.peerEpoch + 1) { s with
    red.takeCause := BitVec.ofNat 8 cause, red.takeCount := satInc s.red.takeCount, red.taking := true })
  refine ⟨e, f, h.trans ?_⟩
  have hst : (if isSolo s = true then RedState.solo else .active) = .active :=
    if_neg (by rw [isSolo_false hr]; nofun)
  rw [← hst]
  rfl

theorem streetMissing_spec {st : Bool} {s : State} (hd : domUp s 1 = true) (hp : (street s st).present = true)
    (hr : s.red.role ≠ .solo) :
    let takes := (street s (!st)).present = false ∧ s.red.state = .standby ∧ redReady s = true ∧ mayClaim s = true
    ∃ t, exec (.streetMissing st) s = .next t ∧ (street t st).present = false ∧ (street t st).goodRun = 0
      ∧ street t (!st) = street s (!st) ∧ t.red.gates = s.red.gates
      ∧ (takes → t.red.own = s.red.peerEpoch + 1 ∧ t.red.state = .active ∧ t.red.taking = true
          ∧ t.red.takeCause = 0 ∧ t.red.takeCount = satInc s.red.takeCount)
      ∧ (¬ takes → t.red.own = s.red.own ∧ t.red.state = s.red.state)
      ∧ t = { s with red := t.red, evq := t.evq, free := t.free } := by
  intro takes
  obtain ⟨l, e, g, hj⟩ := streetJudged_frame st (fun x => { x with present := false, goodRun := 0 })
    { s with red.quiet := 0 }
  have hsame := street_updStreet_same st (fun x => { x with present := false, goodRun := 0 }) { s with red.quiet := 0 }
  have hother := street_updStreet_other st (fun x => { x with present := false, goodRun := 0 }) { s with red.quiet := 0 }
  obtain ⟨x, y, hu⟩ := updStreet_frame st (fun x => { x with present := false, goodRun := 0 }) { s with red.quiet := 0 }
  rw [hu] at hj hsame hother
  have he : exec (.streetMissing st) s = .next (
      let s1 : State := { s with
        red.quiet := 0, red.streetA := x, red.streetB := y, red.peerLost := l, evq := e, free := g }
      if !s1.red.streetA.present && !s1.red.streetB.present && mayTakeOver s1 then takeOver 0 s1 else s1) := by
    refine congrArg Host.Outcome.next ((if_pos (by rw [hd, hp]; rfl)).trans ?_)
    rw [hu, hj]
  have ht : takes ↔ (!x.present && !y.present && mayTakeOver { s with
      red.quiet := 0, red.streetA := x, red.streetB := y, red.peerLost := l, evq := e, free := g }) = true := by
    rw [Bool.and_eq_true, mayTakeOver_iff]
    refine and_congr ?_ Iff.rfl
    have ho : (street s (!st)).present
        = (street { s with red.quiet := 0, red.streetA := x, red.streetB := y } (!st)).present :=
      (congrArg Street.present hother).symm.trans rfl
    rw [ho]
    have hs : (street { s with red.quiet := 0, red.streetA := x, red.streetB := y } st).present = false := by rw [hsame]
    cases st
    · have hx : x.present = false := hs
      change y.present = false ↔ _
      rw [hx]
      simp
    · have hy : y.present = false := hs
      change x.present = false ↔ _
      rw [hy]
      simp
  have hstreets : ∀ t : State, t.red.streetA = x → t.red.streetB = y →
      (street t st).present = false ∧ (street t st).goodRun = 0 ∧ street t (!st) = street s (!st) := by
    intro t hx hy
    have hb : ∀ b, street t b = street { s with red.quiet := 0, red.streetA := x, red.streetB := y } b := by
      intro b
      cases b
      · exact hx
      · exact hy
    rw [hb, hb, hsame]
    exact ⟨rfl, rfl, hother⟩
  by_cases hk : takes
  · have he := he.trans (congrArg Host.Outcome.next (if_pos (ht.mp hk)))
    obtain ⟨e', f', hto⟩ := takeOver_spec (s := { s with
      red.quiet := 0, red.streetA := x, red.streetB := y, red.peerLost := l, evq := e, free := g }) 0 hr
    rw [hto] at he
    refine ⟨_, he, ?_⟩
    obtain ⟨p1, p2, p3⟩ := hstreets { s with
      red.streetA := x, red.streetB := y } rfl rfl
    exact ⟨p1, p2, p3, rfl, fun _ => ⟨rfl, rfl, rfl, rfl, rfl⟩, fun h => absurd hk h, rfl⟩
  · have he := he.trans (congrArg Host.Outcome.next (if_neg (fun h => hk (ht.mpr h))))
    refine ⟨_, he, ?_⟩
    obtain ⟨p1, p2, p3⟩ := hstreets { s with
      red.streetA := x, red.streetB := y } rfl rfl
    exact ⟨p1, p2, p3, rfl, fun h => absurd h hk, fun _ => ⟨rfl, rfl⟩, rfl⟩

theorem streetPresent_spec {st : Bool} {s : State} (hd : domUp s 1 = true) (hp : (street s st).present = false)
    (hg : 50 ≤ (street s st).goodRun) :
    ∃ t, exec (.streetPresent st) s = .next t ∧ street t st = { street s st with present := true }
      ∧ street t (!st) = street s (!st) ∧ t.red.own = s.red.own ∧ t.red.gates = s.red.gates
      ∧ t.red.state = s.red.state ∧ t = { s with red := t.red, evq := t.evq, free := t.free } := by
  obtain ⟨l, e, g, hj⟩ := streetJudged_frame st (fun x => { x with present := true }) s
  have hsame := street_updStreet_same st (fun x => { x with present := true }) s
  have hother := street_updStreet_other st (fun x => { x with present := true }) s
  obtain ⟨x, y, hu⟩ := updStreet_frame st (fun x => { x with present := true }) s
  rw [hu] at hsame hother
  have he : exec (.streetPresent st) s = .next { s with
      red.streetA := x, red.streetB := y, red.peerLost := l, evq := e, free := g } := by
    refine congrArg Host.Outcome.next ((if_pos ?_).trans (hj.trans (by rw [hu])))
    rw [hd, hp, decide_eq_true hg]
    rfl
  have hb : ∀ b, street { s with red.streetA := x, red.streetB := y, red.peerLost := l, evq := e, free := g } b
      = street { s with red.streetA := x, red.streetB := y } b := by
    intro b
    cases b
    · rfl
    · rfl
  exact ⟨_, he, (hb st).trans hsame, (hb (!st)).trans hother, rfl, rfl, rfl, rfl⟩

/-- Settles O47, by the frames of the streets' updates and of the judgement of the peer. -/
theorem heartbeatsAndStreets : Obligations.HeartbeatsAndStreets := by
  unfold Obligations.HeartbeatsAndStreets
  exact ⟨fun s => heartbeatSend_spec,
    fun st h s hd => ⟨heartbeatReceive_bad hd, heartbeatReceive_peer hd, heartbeatReceive_wrong hd⟩,
    fun st rtt s => echoReceive_spec, fun st s => streetMissing_spec, fun st s => streetPresent_spec⟩

end Sys2Proof.Machine
end


section
/-! Claims and gates (ch. 12): what opening and closing the gates leaves alone. -/

namespace Sys2Proof.Machine

/-! What hangs on the gates. -/

/-- Only channels, modems, CAN controllers, records of the square, events and page headers differ. -/
def GateOnly (s t : State) : Prop := ∃ h x w e u l d m c f, t = { s with
  hdrs := h, course.ctx := x, square.work := w, evq := e, ucs := u, lis := l, dig := d, hart := m, cans := c, free := f }

theorem GateOnly.refl (s : State) : GateOnly s s := ⟨_, _, _, _, _, _, _, _, _, _, rfl⟩

theorem GateOnly.trans {s t u : State} (h : GateOnly s t) (k : GateOnly t u) : GateOnly s u := by
  obtain ⟨_, _, _, _, _, _, _, _, _, _, rfl⟩ := h
  obtain ⟨_, _, _, _, _, _, _, _, _, _, rfl⟩ := k
  exact ⟨_, _, _, _, _, _, _, _, _, _, rfl⟩

theorem GateOnly.foldl {α : Type} {g : State → α → State} (h : ∀ s x, GateOnly s (g s x)) (l : List α) (s : State) :
    GateOnly s (l.foldl g s) := by
  induction l generalizing s with
  | nil => exact .refl s
  | cons x l ih => exact (h s x).trans (ih _)

theorem GateOnly.ite {c : Prop} [Decidable c] {s t u : State} (ht : GateOnly s t) (hu : GateOnly s u) :
    GateOnly s (if c then t else u) := by
  split
  · exact ht
  · exact hu

theorem GateOnly.of_outputs {s t : State} (h : OutputsOnly s t) : GateOnly s t := by
  obtain ⟨u, o, l, f, h⟩ := h.frame
  exact ⟨_, _, _, _, u, _, _, _, _, f, h⟩

theorem GateOnly.of_events {s t : State} (h : ∃ e f, t = { s with evq := e, free := f }) : GateOnly s t := by
  obtain ⟨e, f, h⟩ := h
  exact ⟨_, _, _, e, _, _, _, _, _, f, h⟩

theorem updHdr_gateOnly (p : Nat) (f : PageHdr → PageHdr) (s : State) : GateOnly s (updHdr p f s) :=
  ⟨_, _, _, _, _, _, _, _, _, _, rfl⟩

theorem setSticky_gateOnly (p bit : Nat) (s : State) : GateOnly s (setSticky p bit s) := updHdr_gateOnly p _ s

theorem updUc_gateOnly (n : Nat) (f : UcChan → UcChan) (s : State) : GateOnly s (updUc n f s) :=
  ⟨_, _, _, _, _, _, _, _, _, _, rfl⟩

theorem updLi_gateOnly (n : Nat) (f : LiChan → LiChan) (s : State) : GateOnly s (updLi n f s) :=
  ⟨_, _, _, _, _, _, _, _, _, _, rfl⟩

theorem updDio_gateOnly (n : Nat) (f : DioOut → DioOut) (s : State) : GateOnly s (updDio n f s) :=
  ⟨_, _, _, _, _, _, _, _, _, _, rfl⟩

theorem finishCmd_gateOnly (p : Nat) (st : CStat) (r : Nat) (s : State) : GateOnly s (finishCmd p st r s) := by
  by_cases h : st = .state
  · unfold finishCmd
    rw [h]
    dsimp only
    split
    · exact ((updHdr_gateOnly p _ s).trans (setSticky_gateOnly _ _ _)).trans (.of_events (raiseEv_evq _ _ _ _ _))
    · exact (updHdr_gateOnly p _ s).trans (setSticky_gateOnly _ _ _)
  · rw [finishCmd_eq p st r s h]
    exact updHdr_gateOnly _ _ _

theorem endIfRunning_gateOnly (p op : Nat) (st : CStat) (r : Nat) (s : State) : GateOnly s (endIfRunning p op st r s) := by
  unfold endIfRunning
  split
  · exact .ite (finishCmd_gateOnly _ _ _ _) (.refl s)
  · exact .refl s

/-! Stages (R324, R341). -/

theorem gatesApplyUc_outputsOnly (s : State) : OutputsOnly s (gatesApplyUc s) :=
  .foldl (fun s n => ucResolve_outputsOnly n s) _ s

theorem gatesApply_outputsOnly (s : State) : OutputsOnly s (gatesApply s) := by
  unfold gatesApply
  dsimp only
  split
  · exact (gatesApplyUc_outputsOnly s).trans (.foldl (fun s n => dioResolve_outputsOnly n s) _ _)
  · exact gatesApplyUc_outputsOnly s

theorem dioTake_gateOnly (w : Word) (s : State) : GateOnly s (dioTake w s) := by
  refine .ite (.foldl (fun s n => ?_) _ s) (.refl s)
  exact .ite (updDio_gateOnly _ _ s) (.of_outputs (dioResolve_outputsOnly n s))

theorem settleGated_gateOnly (s : State) : GateOnly s (settleGated s) :=
  .foldl (fun s _ => .ite (.ite (updUc_gateOnly _ _ s) (updLi_gateOnly _ _ s)) (.refl s)) _ s

theorem seedGated_gateOnly (m : SyncMsg) (s : State) : GateOnly s (seedGated m s) :=
  .foldl (fun s _ => .ite ⟨_, _, _, _, _, _, _, _, _, _, rfl⟩ (.refl s)) _ s

theorem outputsFromStart_gateOnly (s : State) : GateOnly s (outputsFromStart s) :=
  .foldl (fun s _ => .ite (updUc_gateOnly _ _ s) (.refl s)) _ s

theorem outputsFromSync_gateOnly (m : SyncMsg) (s : State) : GateOnly s (outputsFromSync m s) :=
  .foldl (fun s _ => .ite (updUc_gateOnly _ _ s) (.refl s)) _ s

theorem epochMarkers_gateOnly (new old : Half) (s : State) : GateOnly s (epochMarkers new old s) := by
  refine .foldl (fun s q => .ite ?_ (.refl s)) _ s
  obtain ⟨p, h, hr⟩ := evqReplace_frame q (fun x => { x with epoch := some (new, old) }) s
  rw [hr]
  exact ⟨_, _, _, _, _, _, _, _, _, _, rfl⟩

/-! HART and CAN traffic (R178, R179, R380). -/

/-- Only the modems' block and the events differ. -/
def HartOnly (s t : State) : Prop := ∃ m e f, t = { s with hart := m, evq := e, free := f }

theorem HartOnly.refl (s : State) : HartOnly s s := ⟨_, _, _, rfl⟩

theorem HartOnly.trans {s t u : State} (h : HartOnly s t) (k : HartOnly t u) : HartOnly s u := by
  obtain ⟨_, _, _, rfl⟩ := h
  obtain ⟨_, _, _, rfl⟩ := k
  exact ⟨_, _, _, rfl⟩

theorem HartOnly.foldl {α : Type} {g : State → α → State} (h : ∀ s x, HartOnly s (g s x)) (l : List α) (s : State) :
    HartOnly s (l.foldl g s) := by
  induction l generalizing s with
  | nil => exact .refl s
  | cons x l ih => exact (h s x).trans (ih _)

theorem HartOnly.gateOnly {s t : State} (h : HartOnly s t) : GateOnly s t := by
  obtain ⟨m, e, f, h⟩ := h
  exact ⟨_, _, _, e, _, _, _, m, _, f, h⟩

theorem hartDone_hartOnly (b r : Nat) (s : State) : HartOnly s (hartDone b r s) := by
  obtain ⟨e, f, h⟩ := hartDone_frame b r s
  exact ⟨_, e, f, h⟩

theorem hartEnd_hartOnly (m b r : Nat) (s : State) : HartOnly s (hartEnd m b r s) := by
  obtain ⟨x, e, f, h⟩ := hartEnd_frame m b r s
  exact ⟨_, e, f, h⟩

theorem hartAbort_hartOnly (p : Nat → Bool) (queued : Bool) (s : State) : HartOnly s (hartAbort p queued s) := by
  unfold hartAbort
  extract_lets s1
  have h1 : HartOnly s s1 := by
    refine .foldl (fun s m => ?_) _ s
    split
    · split
      · exact hartEnd_hartOnly _ _ _ s
      · exact .refl s
    · exact .refl s
  clear_value s1
  split
  · exact h1.trans (.foldl (fun s b => hartDone_hartOnly b 3 s) _ _)
  · exact h1

theorem hartRegate_hartOnly (s : State) : HartOnly s (hartRegate s) := by
  refine .foldl (fun s m => ?_) _ s
  split
  · obtain ⟨x, h⟩ := coupleModem_frame m false s
    exact ⟨_, _, _, h⟩
  · exact .refl s

/-- Only the CAN controllers, their pages and the events differ. -/
def CansOnly (s t : State) : Prop := ∃ h e c f, t = { s with hdrs := h, evq := e, cans := c, free := f }

theorem CansOnly.refl (s : State) : CansOnly s s := ⟨_, _, _, _, rfl⟩

theorem CansOnly.trans {s t u : State} (h : CansOnly s t) (k : CansOnly t u) : CansOnly s u := by
  obtain ⟨_, _, _, _, rfl⟩ := h
  obtain ⟨_, _, _, _, rfl⟩ := k
  exact ⟨_, _, _, _, rfl⟩

theorem CansOnly.foldl {α : Type} {g : State → α → State} (h : ∀ s x, CansOnly s (g s x)) (l : List α) (s : State) :
    CansOnly s (l.foldl g s) := by
  induction l generalizing s with
  | nil => exact .refl s
  | cons x l ih => exact (h s x).trans (ih _)

theorem CansOnly.gateOnly {s t : State} (h : CansOnly s t) : GateOnly s t := by
  obtain ⟨h, e, c, f, ht⟩ := h
  exact ⟨_, _, _, _, _, _, _, _, _, _, ht⟩

theorem canSticky_cansOnly (n bit : Nat) (s : State) : CansOnly s (canSticky n bit s) := ⟨_, _, _, _, rfl⟩

theorem updCan_cansOnly (n : Nat) (f : CanBlk → CanBlk) (s : State) : CansOnly s (updCan n f s) := ⟨_, _, _, _, rfl⟩

theorem blockEv_cansOnly (page code data : Nat) (s : State) : CansOnly s (blockEv page code data s) := by
  obtain ⟨e, f, h⟩ := blockEv_evq page code data s
  exact ⟨_, _, _, _, h⟩

theorem canEndAll_cansOnly (n : Nat) (s : State) : CansOnly s (canEndAll n s) := by
  unfold canEndAll
  extract_lets c bs
  split
  · exact .refl s
  · exact (updCan_cansOnly n _ s).trans (canSticky_cansOnly n 10 _)

theorem canGates_cansOnly (b : Bool) (s : State) : CansOnly s (canGates b s) := by
  unfold canGates
  split
  · refine .foldl (fun s n => ?_) _ s
    extract_lets g s1
    split
    · exact .refl s
    · have h1 : CansOnly s s1 :=
        ((updCan_cansOnly n _ s).trans (canSticky_cansOnly n 11 _)).trans (blockEv_cansOnly _ _ _ _)
      split
      · exact h1
      · exact h1.trans (canEndAll_cansOnly n s1)
  · exact .refl s

/-! Opening (R324). -/

theorem gatesOpen_gateOnly (s : State) :
    GateOnly { s with red.gates := false, red.slots := 0 } (gatesOpen s) := by
  unfold gatesOpen
  split
  · exact (((GateOnly.of_outputs (gatesApply_outputsOnly _)).trans (hartAbort_hartOnly _ _ _).gateOnly).trans
      (hartRegate_hartOnly _).gateOnly).trans (canGates_cansOnly _ _).gateOnly
  · next h =>
    have hg : s.red.gates = false := Bool.eq_false_iff.mpr h
    rw [← hg]
    exact .refl _

theorem dropClaim_gateOnly (s : State) : GateOnly
    { s with red.own := 0, red.taking := false, red.yieldNext := none, red.gates := false, red.slots := 0 }
    (dropClaim s) :=
  (gatesOpen_gateOnly _).trans (endIfRunning_gateOnly _ _ _ _ _)

theorem becomeStandby_gateOnly (s : State) : GateOnly
    { s with
      red.own := 0, red.taking := false, red.yieldNext := none, red.gates := false, red.slots := 0
      red.state := .standby, red.inStep := false
      sync.newest := none, sync.applied := none, sync.loaded := none, sync.okRun := 0, sync.ok := false, sync.seen := []
      sync.unacked := [] } (becomeStandby s) := by
  obtain ⟨_, _, _, _, _, _, _, _, _, _, h⟩ := dropClaim_gateOnly s
  unfold becomeStandby
  rw [h]
  exact ⟨_, _, _, _, _, _, _, _, _, _, rfl⟩

theorem becomeIdle_gateOnly (s : State) : GateOnly
    { s with
      red.own := 0, red.taking := false, red.yieldNext := none, red.gates := false, red.slots := 0, red.state := .idle }
    (becomeIdle s) := by
  obtain ⟨_, _, _, _, _, _, _, _, _, _, h⟩ := dropClaim_gateOnly s
  unfold becomeIdle
  rw [h]
  exact ⟨_, _, _, _, _, _, _, _, _, _, rfl⟩

theorem redEvent_gateOnly (code detail : Nat) (s : State) : GateOnly s (redEvent code detail s) :=
  .of_events (redEvent_evq code detail s)

/-- Another unit is there where none may be (R327, R330). -/
theorem roleConflict_gateOnly {s : State} (p : Role) (h : s.red.roleConflict = false) : GateOnly
    { s with
      red.roleConflict := true, red.conflict := true, red.own := 0, red.taking := false, red.yieldNext := none
      red.gates := false, red.slots := 0, red.state := .idle } (roleConflict p s) := by
  unfold roleConflict
  rw [h]
  exact (becomeIdle_gateOnly _).trans (redEvent_gateOnly _ _ _)

/-! Closing (R326, R341, R283). -/

theorem dioGet_noInrush {n : Nat} (h : n < 32) (s : State) : (dioGet (noInrush s) n).inrush = false := by
  have hk : ∀ (l : List Nat) (s : State), (n ∈ l ∨ (dioGet s n).inrush = false) →
      (dioGet (l.foldl (fun s n => updDio n (fun o => { o with inrush := false }) s) s) n).inrush = false := by
    intro l
    induction l with
    | nil => exact fun s h => h.resolve_left List.not_mem_nil
    | cons k l ih =>
      intro s h
      refine ih _ ?_
      by_cases hn : n = k
      · refine .inr ?_
        rw [hn]
        exact congrArg DioOut.inrush (updDio_same k (fun o => { o with inrush := false }) s)
      · refine (h.imp (fun hm => ?_) fun hi => ?_)
        · exact (List.mem_cons.mp hm).resolve_left hn
        · rw [updDio_other _ _ _ hn]
          exact hi
  exact hk _ s (.inl (List.mem_range.mpr h))

theorem noInrush_gateOnly (s : State) : GateOnly s (noInrush s) := .foldl (fun s _ => updDio_gateOnly _ _ s) _ s

/-- The outputs and channels of a takeover before its inrush windows are shut. -/
def takenOver (s : State) : State :=
  match s.sync.applied with
  | some m => dioTake m.dioDrive (gatesApplyUc (settleGated (seedGated m (outputsFromSync m s))))
  | none => gatesApply (settleGated s)

theorem takenOver_gateOnly (s : State) : GateOnly s (takenOver s) := by
  unfold takenOver
  split
  · exact ((((outputsFromSync_gateOnly _ s).trans (seedGated_gateOnly _ _)).trans (settleGated_gateOnly _)).trans
      (.of_outputs (gatesApplyUc_outputsOnly _))).trans (dioTake_gateOnly _ _)
  · exact (settleGated_gateOnly s).trans (.of_outputs (gatesApply_outputsOnly _))

theorem gatesClose_taking {s : State} (h : s.red.taking = true) : ∃ x,
    GateOnly { s with red.gates := true, red.taking := false, red.takeCn := s.course.cn } x
      ∧ gatesClose s = canGates true (hartRegate (noInrush x)) := by
  refine ⟨_, ?_, (if_pos h).trans rfl⟩
  exact (takenOver_gateOnly _).trans (.ite (epochMarkers_gateOnly _ _ _) (.refl _))

theorem gatesClose_elected {s : State} (h : ¬ s.red.taking = true) : gatesClose s = canGates false (hartRegate
    (gatesApply (settleGated (outputsFromStart { s with red.gates := true, red.taking := false })))) := if_neg h

/-- What the gates' closing leaves alone. -/
theorem gatesClose_gateOnly (s : State) : ∃ c, GateOnly
    { s with red.gates := true, red.taking := false, red.takeCn := c } (gatesClose s) := by
  by_cases h : s.red.taking = true
  · obtain ⟨x, hx, hc⟩ := gatesClose_taking h
    rw [hc]
    exact ⟨_, ((hx.trans (noInrush_gateOnly _)).trans (hartRegate_hartOnly _).gateOnly).trans
      (canGates_cansOnly _ _).gateOnly⟩
  · rw [gatesClose_elected h]
    exact ⟨s.red.takeCn, ((((outputsFromStart_gateOnly _).trans (settleGated_gateOnly _)).trans
      (.of_outputs (gatesApply_outputsOnly _))).trans (hartRegate_hartOnly _).gateOnly).trans
      (canGates_cansOnly _ _).gateOnly⟩

/-- A takeover opens no inrush window. -/
theorem gatesClose_noInrush {s : State} (ht : s.red.taking = true) {n : Nat} (hn : n < 32) :
    (dioGet (gatesClose s) n).inrush = false := by
  obtain ⟨x, -, hc⟩ := gatesClose_taking ht
  obtain ⟨_, _, _, h1⟩ := hartRegate_hartOnly (noInrush x)
  obtain ⟨_, _, _, _, h2⟩ := canGates_cansOnly true (hartRegate (noInrush x))
  rw [hc, h2, h1]
  exact dioGet_noInrush hn x

theorem gateEnable_spec (s : State) :
    let may := domUp s 6 = true ∧ s.red.own ≠ 0 ∧ s.red.gates = false
      ∧ (s.red.role = .solo ∨ 4 ≤ s.red.slots ∧ s.red.peer < s.red.own)
    (¬ may → exec .gateEnable s = .next s)
    ∧ (may → ∃ t, exec .gateEnable s = .next t ∧ t.red.gates = true ∧ t.red.taking = false
      ∧ (s.red.taking = true → ∀ n, n < 32 → (dioGet t n).inrush = false)
      ∧ t.red.own = s.red.own ∧ t.red.peer = s.red.peer ∧ t.red.state = s.red.state ∧ t.red.role = s.red.role
      ∧ t.plan = s.plan ∧ t.safe = s.safe) := by
  intro may
  have hm : (domUp s 6 && claimed s && !s.red.gates && (isSolo s || (4 ≤ s.red.slots && s.red.peer < s.red.own))) = true
      ↔ may := by
    simp only [Bool.and_eq_true, Bool.or_eq_true, Bool.not_eq_true', decide_eq_true_eq, claimed, isSolo_iff, and_assoc, may]
  refine ⟨fun h => congrArg Host.Outcome.next (if_neg (fun hx => h (hm.mp hx))), fun h => ?_⟩
  refine ⟨gatesClose s, congrArg Host.Outcome.next (if_pos (hm.mpr h)), ?_⟩
  have hn : s.red.taking = true → ∀ n, n < 32 → (dioGet (gatesClose s) n).inrush = false := fun ht n => gatesClose_noInrush ht
  obtain ⟨c, _, _, _, _, _, _, _, _, _, _, hg⟩ := gatesClose_gateOnly s
  rw [hg] at hn ⊢
  exact ⟨rfl, rfl, hn, rfl, rfl, rfl, rfl, rfl, rfl⟩

end Sys2Proof.Machine
end


section
/-! Claim frames (ch. 12): how two units' claims are decided. -/

namespace Sys2Proof.Machine

/-! Sending and missing frames (R321, R326). -/

theorem claimFrameSend_spec {s : State} (hp : inPair s = true) :
    ∃ t, exec .claimFrameSend s = .next t ∧ t.red.frameSent = some (s.red.own, s.red.role)
      ∧ (s.red.own ≠ 0 → s.red.gates = false → t.red.slots = if s.red.peer < s.red.own then s.red.slots + 1 else 0)
      ∧ (s.red.own = 0 ∨ s.red.gates = true → t.red.slots = s.red.slots)
      ∧ t = { s with red.frameSent := t.red.frameSent, red.slots := t.red.slots } := by
  refine ⟨_, congrArg Host.Outcome.next (if_pos hp), rfl, fun h0 hg => if_pos ?_, fun h => if_neg ?_, rfl⟩
  · rw [decide_eq_true h0, hg]
    rfl
  · rcases h with h | h
    · rw [h]
      nofun
    · rw [h, Bool.not_true, Bool.and_false]
      nofun

/-- The pair's judgement after a link event. -/
theorem linkJudged_frame (s : State) :
    ∃ l e f, judgePeerLost (linkEvent s) = { s with red.peerLost := l, evq := e, free := f } := by
  obtain ⟨e, f, h⟩ := linkEvent_evq s
  rw [h]
  obtain ⟨l, e', f', hj⟩ := judgePeerLost_frame { s with evq := e, free := f }
  exact ⟨l, e', f', hj⟩

theorem claimLineMissing_spec {s : State} (h : s.red.claimLine = true) :
    ∃ t, exec .claimLineMissing s = .next t
      ∧ t.red.peer = 0 ∧ t.red.claimLine = false ∧ t.red.own = s.red.own ∧ t.red.gates = s.red.gates
      ∧ t.red.state = s.red.state ∧ t = { s with red := t.red, evq := t.evq, free := t.free } := by
  obtain ⟨l, e, f, hj⟩ := linkJudged_frame { s with red.claimLine := false, red.peer := 0 }
  refine ⟨_, congrArg Host.Outcome.next ((if_pos h).trans hj), rfl, rfl, rfl, rfl, rfl, rfl⟩

/-! A frame from the peer (R324 to R327, R329). -/

theorem peerShows_frame (c : Half) (s : State) : ∃ l e f, peerShows c s = { s with
    red.peer := c, red.claimLine := true, red.alone := false, red.quiet := if c = 0 then s.red.quiet else 0
    red.peerEpoch := if c = 0 then s.red.peerEpoch else c, red.peerLost := l, evq := e, free := f } := by
  unfold peerShows
  dsimp only
  split
  · exact judgePeerLost_frame _
  · exact linkJudged_frame _

/-- A valid frame of the accepted peer leaves the plan, the course's number and the safety partition. -/
structure PeerFrame (c : Half) (s t : State) : Prop where
  peer : t.red.peer = c
  line : t.red.claimLine = true
  plan : t.plan = s.plan
  cn : t.course.cn = s.course.cn
  safe : t.safe = s.safe

theorem PeerFrame.then_gateOnly {c : Half} {s t u : State} (h : PeerFrame c s t) (k : GateOnly t u) :
    PeerFrame c s u ∧ u.red = t.red := by
  obtain ⟨_, _, _, _, _, _, _, _, _, _, rfl⟩ := k
  exact ⟨⟨h.peer, h.line, h.plan, h.cn, h.safe⟩, rfl⟩

theorem peerShows_peerFrame (c : Half) (s : State) : PeerFrame c s (peerShows c s)
    ∧ (peerShows c s).red.own = s.red.own ∧ (peerShows c s).red.gates = s.red.gates
    ∧ (peerShows c s).red.state = s.red.state ∧ (peerShows c s).red.election = s.red.election := by
  obtain ⟨l, e, f, h⟩ := peerShows_frame c s
  rw [h]
  exact ⟨⟨rfl, rfl, rfl, rfl, rfl⟩, rfl, rfl, rfl, rfl⟩

/-- A unit that becomes standby has no claim and no gates. -/
theorem PeerFrame.becomeStandby {c : Half} {s t : State} (h : PeerFrame c s t) : PeerFrame c s (becomeStandby t)
    ∧ (Machine.becomeStandby t).red.own = 0 ∧ (Machine.becomeStandby t).red.gates = false
    ∧ (Machine.becomeStandby t).red.state = .standby := by
  obtain ⟨_, _, _, _, _, _, _, _, _, _, hs⟩ := becomeStandby_gateOnly t
  rw [hs]
  exact ⟨⟨h.peer, h.line, h.plan, h.cn, h.safe⟩, rfl, rfl, rfl⟩

theorem PeerFrame.gatesOpen {c : Half} {s t : State} (h : PeerFrame c s t) : PeerFrame c s (gatesOpen t)
    ∧ (Machine.gatesOpen t).red.own = t.red.own ∧ (Machine.gatesOpen t).red.gates = false
    ∧ (Machine.gatesOpen t).red.state = t.red.state := by
  obtain ⟨_, _, _, _, _, _, _, _, _, _, hs⟩ := gatesOpen_gateOnly t
  rw [hs]
  exact ⟨⟨h.peer, h.line, h.plan, h.cn, h.safe⟩, rfl, rfl, rfl⟩

section
variable {c : Half} {s : State}

theorem peerClaim_higher (h0 : s.red.own ≠ 0) (h : s.red.own < c) :
    PeerFrame c s (peerClaim c s) ∧ (peerClaim c s).red.own = 0 ∧ (peerClaim c s).red.gates = false
      ∧ (peerClaim c s).red.state = .standby := by
  obtain ⟨hp, ho, -, -, -⟩ := peerShows_peerFrame c s
  have hb : (decide ((peerShows c s).red.own ≠ 0) && decide ((peerShows c s).red.own < c)) = true := by
    rw [ho, decide_eq_true h0, decide_eq_true h]
    rfl
  rw [show peerClaim c s = redEvent 8 c.toNat (becomeStandby (peerShows c s)) from if_pos hb]
  obtain ⟨hs, h1, h2, h3⟩ := hp.becomeStandby
  obtain ⟨ht, hr⟩ := hs.then_gateOnly (redEvent_gateOnly 8 c.toNat _)
  rw [hr]
  exact ⟨ht, h1, h2, h3⟩

theorem peerClaim_equal (h0 : s.red.own ≠ 0) (h : s.red.own = c) :
    peerClaim c s = if s.red.role = .b then becomeStandby (peerShows c s) else gatesOpen (peerShows c s) := by
  obtain ⟨-, ho, -, -, -⟩ := peerShows_peerFrame c s
  have h1 : ¬ (decide ((peerShows c s).red.own ≠ 0) && decide ((peerShows c s).red.own < c)) = true := by
    rw [ho, h, decide_eq_false (by bv_omega : ¬ c < c), Bool.and_false]
    nofun
  have h2 : (decide ((peerShows c s).red.own ≠ 0) && decide ((peerShows c s).red.own = c)) = true := by
    rw [ho, decide_eq_true h0, decide_eq_true h]
    rfl
  exact (if_neg h1).trans (if_pos h2)

theorem peerClaim_else (h : s.red.own = 0 ∨ c < s.red.own) : peerClaim c s =
    if (peerShows c s).red.state = .electing && (peerShows c s).red.election && c ≠ 0 then becomeStandby (peerShows c s)
    else peerShows c s := by
  obtain ⟨-, ho, -, -, -⟩ := peerShows_peerFrame c s
  have h1 : ¬ (decide ((peerShows c s).red.own ≠ 0) && decide ((peerShows c s).red.own < c)) = true := by
    rw [ho]
    rcases h with h | h
    · rw [h]
      nofun
    · rw [decide_eq_false (by bv_omega : ¬ s.red.own < c), Bool.and_false]
      nofun
  have h2 : ¬ (decide ((peerShows c s).red.own ≠ 0) && decide ((peerShows c s).red.own = c)) = true := by
    rw [ho]
    rcases h with h | h
    · rw [h]
      nofun
    · rw [decide_eq_false (by bv_omega : ¬ s.red.own = c), Bool.and_false]
      nofun
  exact (if_neg h1).trans (if_neg h2)

theorem peerClaim_lower (h : c < s.red.own) (he : s.red.state ≠ .electing) : peerClaim c s = peerShows c s := by
  obtain ⟨-, -, -, hs, -⟩ := peerShows_peerFrame c s
  rw [peerClaim_else (.inr h)]
  refine if_neg ?_
  rw [hs, decide_eq_false he]
  nofun

theorem peerClaim_elected (h0 : s.red.own = 0) (h1 : s.red.state = .electing) (h2 : s.red.election = true) (hc : c ≠ 0) :
    peerClaim c s = becomeStandby (peerShows c s) := by
  obtain ⟨-, -, -, hs, he⟩ := peerShows_peerFrame c s
  rw [peerClaim_else (.inl h0)]
  refine if_pos ?_
  rw [hs, he, h1, h2, decide_eq_true hc]
  rfl

/-- Whatever the claims, a valid frame leaves plan, course number and safety partition. -/
theorem peerClaim_peerFrame (c : Half) (s : State) : PeerFrame c s (peerClaim c s) := by
  have hp := (peerShows_peerFrame c s).1
  unfold peerClaim
  dsimp only
  split
  · exact (hp.becomeStandby.1.then_gateOnly (redEvent_gateOnly _ _ _)).1
  · split
    · split
      · exact hp.becomeStandby.1
      · exact hp.gatesOpen.1
    · split
      · exact hp.becomeStandby.1
      · exact hp

end

theorem exec_claimFrameReceive {c : Half} {role : Role} {s : State} (hp : inPair s = true) (hr : role ≠ s.red.role) :
    exec (.claimFrameReceive c role true) s = .next (peerClaim c s) := by
  refine congrArg Host.Outcome.next ((if_neg (by nofun)).trans ((if_neg ?_).trans (if_neg ?_)))
  · rw [isSolo_of_inPair hp]
    nofun
  · rw [decide_eq_false hr, Bool.and_false]
    nofun

theorem claimFrameReceive_spec {c : Half} {role : Role} {s : State} (hp : inPair s = true) (hr : role ≠ s.red.role) :
    ∃ t, exec (.claimFrameReceive c role true) s = .next t ∧ t.red.peer = c ∧ t.red.claimLine = true
      ∧ (s.red.own ≠ 0 → s.red.own < c → t.red.own = 0 ∧ t.red.gates = false ∧ t.red.state = .standby)
      ∧ (s.red.own ≠ 0 → s.red.own = c → s.red.role = .b → t.red.own = 0 ∧ t.red.gates = false ∧ t.red.state = .standby)
      ∧ (s.red.own ≠ 0 → s.red.own = c → s.red.role = .a → t.red.own = s.red.own ∧ t.red.gates = false
          ∧ t.red.state = s.red.state)
      ∧ (c < s.red.own → s.red.state ≠ .electing → t.red.own = s.red.own ∧ t.red.gates = s.red.gates
          ∧ t.red.state = s.red.state)
      ∧ (s.red.own = 0 → s.red.state = .electing → s.red.election = true → c ≠ 0 → t.red.state = .standby)
      ∧ t.plan = s.plan ∧ t.course.cn = s.course.cn ∧ t.safe = s.safe := by
  obtain ⟨hf, ho, hg, hs, -⟩ := peerShows_peerFrame c s
  have ht := peerClaim_peerFrame c s
  refine ⟨_, exec_claimFrameReceive hp hr, ht.peer, ht.line, fun h0 h => (peerClaim_higher h0 h).2, fun h0 h hb => ?_,
    fun h0 h ha => ?_, fun h he => ?_, fun h0 h1 h2 hc => ?_, ht.plan, ht.cn, ht.safe⟩
  · rw [peerClaim_equal h0 h, if_pos hb]
    exact hf.becomeStandby.2
  · rw [peerClaim_equal h0 h, if_neg (by rw [ha]; nofun)]
    obtain ⟨-, h1, h2, h3⟩ := hf.gatesOpen
    exact ⟨h1.trans ho, h2, h3.trans hs⟩
  · rw [peerClaim_lower h he]
    exact ⟨ho, hg, hs⟩
  · rw [peerClaim_elected h0 h1 h2 hc]
    exact hf.becomeStandby.2.2.2

/-! Another unit where none may be (R327, R330). -/

/-- What a role conflict leaves. -/
structure Conflicted (s t : State) : Prop where
  own : t.red.own = 0
  gates : t.red.gates = false
  state : t.red.state = .idle
  role : t.red.roleConflict = true
  conflict : t.red.conflict = true
  plan : t.plan = s.plan
  safe : t.safe = s.safe

theorem roleConflict_conflicted {s : State} (p : Role) (h : s.red.roleConflict = false) : Conflicted s (roleConflict p s) := by
  obtain ⟨_, _, _, _, _, _, _, _, _, _, hs⟩ := roleConflict_gateOnly p h
  rw [hs]
  exact ⟨rfl, rfl, rfl, rfl, rfl, rfl, rfl⟩

theorem claimFrameReceive_conflict {c : Half} {role : Role} {s : State}
    (hr : s.red.role = .solo ∨ inPair s = true ∧ role = s.red.role) (h : s.red.roleConflict = false) :
    ∃ t, exec (.claimFrameReceive c role true) s = .next t ∧ Conflicted s t := by
  rcases hr with hr | ⟨hp, hr⟩
  · refine ⟨_, congrArg Host.Outcome.next ((if_neg (by nofun)).trans (if_pos ((isSolo_iff s).mpr hr))), ?_⟩
    exact roleConflict_conflicted role h
  · obtain ⟨l, e, f, hs⟩ := peerShows_frame c s
    refine ⟨roleConflict role (peerShows c s),
      congrArg Host.Outcome.next ((if_neg (by nofun)).trans ((if_neg ?_).trans (if_pos ?_))), ?_⟩
    · rw [isSolo_of_inPair hp]
      nofun
    · rw [hp, decide_eq_true hr]
      rfl
    · have hk := roleConflict_conflicted (s := peerShows c s) role (by rw [hs]; exact h)
      obtain ⟨-, -, h3, -, h4⟩ := (peerShows_peerFrame c s).1
      exact ⟨hk.own, hk.gates, hk.state, hk.role, hk.conflict, hk.plan.trans h3, hk.safe.trans h4⟩

theorem heartbeatReceive_conflict {st : Bool} {x : Heartbeat} {s : State} (hc : x.crcOk = true) (hd : domUp s 1 = true)
    (hs : s.red.peerSn = 0 ∨ x.serial = s.red.peerSn)
    (hr : s.red.role = .solo ∨ inPair s = true ∧ x.role = s.red.role) (h : s.red.roleConflict = false) :
    ∃ t, exec (.heartbeatReceive st x) s = .next t ∧ Conflicted s t := by
  have he := exec_heartbeatReceive (st := st) (h := x) hd
  have h0 : ¬ (!x.crcOk) = true := by
    rw [hc]
    nofun
  rcases hr with hr | ⟨hp, hr⟩
  · exact ⟨_, he.trans (congrArg Host.Outcome.next ((if_neg h0).trans (if_pos ((isSolo_iff s).mpr hr)))),
      roleConflict_conflicted _ h⟩
  · have h1 : ¬ isSolo s = true := by
      rw [isSolo_of_inPair hp]
      nofun
    have h2 : ¬ (decide (s.red.peerSn ≠ 0) && decide (x.serial ≠ s.red.peerSn)) = true := by
      rcases hs with hs | hs
      · rw [hs]
        nofun
      · rw [hs]
        simp
    have h3 : (inPair s && decide (x.role = s.red.role)) = true := by
      rw [hp, decide_eq_true hr]
      rfl
    refine ⟨_, he.trans (congrArg Host.Outcome.next ((if_neg h0).trans ((if_neg h1).trans ((if_neg h2).trans (if_pos h3))))), ?_⟩
    obtain ⟨a, b, hu⟩ := updStreet_frame st (fun y => { y with echo := some x }) s
    rw [hu]
    have hk := roleConflict_conflicted (s := { s with red.streetA := a, red.streetB := b }) x.role h
    exact ⟨hk.own, hk.gates, hk.state, hk.role, hk.conflict, hk.plan, hk.safe⟩

/-- Settles O48, by the cases of a peer's claim against the own (`peerClaim_higher`, `peerClaim_equal`, `peerClaim_lower`)
and by what the gates' closing leaves alone. -/
theorem claimFramesDecide : Obligations.ClaimFramesDecide := by
  unfold Obligations.ClaimFramesDecide
  refine ⟨fun s => claimFrameSend_spec, fun c role s => rfl, fun c role s => claimFrameReceive_spec,
    fun s => claimLineMissing_spec, gateEnable_spec, fun c role s hc hr h => ?_⟩
  obtain ⟨t, ht, hk⟩ : ∃ t, exec c s = .next t ∧ Conflicted s t := by
    rcases hc with ⟨st, x, rfl, hcrc, rfl, hd, hs⟩ | ⟨n, rfl⟩
    · exact heartbeatReceive_conflict hcrc hd hs hr h
    · exact claimFrameReceive_conflict hr h
  exact ⟨t, ht, hk.own, hk.gates, hk.state, hk.role, hk.conflict, hk.plan, hk.safe⟩

end Sys2Proof.Machine
end


section
/-! Gate faults, renumbering, the election and the yield message (ch. 12). -/

namespace Sys2Proof.Machine

/-! Records on their way are added to. -/

/-- Records on their way have only been added to, and CN and the domains stand. -/
structure Adds (s t : State) : Prop where
  more : ∃ l, t.evq.inflight = s.evq.inflight ++ l
  course : t.course.cn = s.course.cn
  up : domUp t 3 = domUp s 3

theorem Adds.refl (s : State) : Adds s s := ⟨⟨[], (List.append_nil _).symm⟩, rfl, rfl⟩

theorem Adds.trans {s t u : State} (h : Adds s t) (k : Adds t u) : Adds s u := by
  obtain ⟨l, hl⟩ := h.more
  obtain ⟨m, hm⟩ := k.more
  exact ⟨⟨l ++ m, by rw [hm, hl, List.append_assoc]⟩, k.course.trans h.course, k.up.trans h.up⟩

theorem Adds.foldl {α : Type} {g : State → α → State} (h : ∀ s x, Adds s (g s x)) (l : List α) (s : State) :
    Adds s (l.foldl g s) := by
  induction l generalizing s with
  | nil => exact .refl s
  | cons x l ih => exact (h s x).trans (ih _)

theorem Adds.of_evq {s t : State} (he : t.evq = s.evq) (hc : t.course.cn = s.course.cn) (hu : domUp t 3 = domUp s 3) :
    Adds s t := ⟨⟨[], by rw [he, List.append_nil]⟩, hc, hu⟩

/-- What differs elsewhere comes first. -/
theorem Adds.after {s t u : State} (k : Adds t u) (he : t.evq = s.evq) (hc : t.course.cn = s.course.cn)
    (hu : domUp t 3 = domUp s 3) : Adds s u := (Adds.of_evq he hc hu).trans k

theorem raiseEv_adds (cls code source : Nat) (data : BitVec 96) (s : State) : Adds s (raiseEv cls code source data s) := by
  unfold raiseEv
  split
  · exact ⟨⟨_, rfl⟩, rfl, rfl⟩
  · exact .refl s

theorem blockEv_adds (page code data : Nat) (s : State) : Adds s (blockEv page code data s) := raiseEv_adds _ _ _ _ s

theorem gatesApply_adds (s : State) : Adds s (gatesApply s) := by
  obtain ⟨_, _, _, _, h⟩ := (gatesApply_outputsOnly s).frame
  rw [h]
  exact .of_evq rfl rfl rfl

theorem coupleModem_adds (m : Nat) (count : Bool) (s : State) : Adds s (coupleModem m count s) := by
  obtain ⟨_, h⟩ := coupleModem_frame m count s
  rw [h]
  exact .of_evq rfl rfl rfl

theorem hartDone_adds (b r : Nat) (s : State) : Adds s (hartDone b r s) :=
  (blockEv_adds 0x2B 1 _ _).after rfl rfl rfl

theorem hartEnd_adds (m b r : Nat) (s : State) : Adds s (hartEnd m b r s) :=
  (hartDone_adds b r s).trans ((coupleModem_adds m true _).after rfl rfl rfl)

theorem hartAbort_adds (p : Nat → Bool) (queued : Bool) (s : State) : Adds s (hartAbort p queued s) := by
  unfold hartAbort
  extract_lets s1
  have h1 : Adds s s1 := by
    refine .foldl (fun s m => ?_) _ s
    split
    · split
      · exact hartEnd_adds _ _ _ s
      · exact .refl s
    · exact .refl s
  clear_value s1
  split
  · exact h1.trans (.foldl (fun s b => hartDone_adds b 3 s) _ _)
  · exact h1

theorem hartRegate_adds (s : State) : Adds s (hartRegate s) := by
  refine .foldl (fun s m => ?_) _ s
  split
  · exact coupleModem_adds _ _ s
  · exact .refl s

theorem canEndAll_adds (n : Nat) (s : State) : Adds s (canEndAll n s) := by
  unfold canEndAll
  extract_lets c bs
  split
  · exact .refl s
  · exact .of_evq rfl rfl rfl

theorem canGates_adds (b : Bool) (s : State) : Adds s (canGates b s) := by
  unfold canGates
  split
  · refine .foldl (fun s n => ?_) _ s
    extract_lets g s1
    split
    · exact .refl s
    · have h1 : Adds s s1 := (blockEv_adds (canPage n) 2 _ _).after rfl rfl rfl
      split
      · exact h1
      · exact h1.trans (canEndAll_adds n s1)
  · exact .refl s

/-! Gate faults (R324). -/

/-- The stages after a gate's comparators have disagreed. -/
def stagesOff (i : Nat) (s : State) : State :=
  let s1 := { s with red.flt := gateFltSet i s.red.flt, red.fltReg := gateFltSet i s.red.fltReg }
  canGates false (hartRegate (hartAbort (fun c => gateAna s c && !gateAna s1 c) true (gatesApply s1)))

theorem stagesOff_gateOnly (i : Nat) (s : State) :
    GateOnly { s with red.flt := gateFltSet i s.red.flt, red.fltReg := gateFltSet i s.red.fltReg } (stagesOff i s) :=
  (((GateOnly.of_outputs (gatesApply_outputsOnly _)).trans (hartAbort_hartOnly _ _ _).gateOnly).trans
    (hartRegate_hartOnly _).gateOnly).trans (canGates_cansOnly _ _).gateOnly

theorem stagesOff_adds (i : Nat) (s : State) : Adds s (stagesOff i s) := by
  have h : Adds s { s with red.flt := gateFltSet i s.red.flt, red.fltReg := gateFltSet i s.red.fltReg } :=
    .of_evq rfl rfl rfl
  unfold stagesOff
  dsimp only
  exact (((h.trans (gatesApply_adds _)).trans (hartAbort_adds _ _ _)).trans (hartRegate_adds _)).trans (canGates_adds _ _)

/-- The event that follows what has been added is the last that leaves. -/
theorem Adds.redEvent {s t : State} (h : Adds s t) (code detail : Nat) :
    RaisedLast s (redEvent code detail t) 2 code 0x48 (detail * 2 ^ 16) := by
  intro hd
  obtain ⟨l, hl⟩ := h.more
  obtain ⟨e, h1, h2, h3⟩ := blockEv_raised 0x48 code (detail * 2 ^ 16) t (h.up.trans hd)
  exact ⟨l, e, by rw [← hl]; exact h1, h2.trans h.course, h3⟩

/-- A stage whose fault bit is set has its gate disabled. -/
theorem gate_faulted {x y z : Bool} (h : z = true) : (x && y && !z) = false := by
  rw [h]
  exact Bool.and_false _

theorem gateFltSet_dio {i : Nat} (f : GateFlt) (h : i < 32) : gateFltSet i f = { f with dio := setBit f.dio i true } :=
  if_pos h

theorem gateFltSet_uc {i : Nat} (f : GateFlt) (h1 : 32 ≤ i) (h2 : i < 64) :
    gateFltSet i f = { f with uc := setBit f.uc (i - 32) true } :=
  (if_neg (Nat.not_lt.mpr h1)).trans (if_pos h2)

theorem gateFltSet_lt {i : Nat} (f : GateFlt) (h1 : 64 ≤ i) (h2 : i < 70) :
    gateFltSet i f = { f with lt := setBit f.lt (i - 64) true } :=
  (if_neg (by omega)).trans ((if_neg (by omega)).trans (if_pos h2))

theorem gateFltSet_can {i : Nat} (f : GateFlt) (h : 70 ≤ i) :
    gateFltSet i f = { f with can := setBit f.can (i - 70) true } :=
  (if_neg (by omega)).trans ((if_neg (by omega)).trans (if_neg (by omega)))

theorem gateFault_spec {g : Fin 74} {s : State} (hd : domUp s 6 = true) : ∃ t, exec (.gateFault g) s = .next t
      ∧ (g.val < 32 → t.red.flt = { s.red.flt with dio := setBit s.red.flt.dio g.val true } ∧ gateDio t g.val = false)
      ∧ (32 ≤ g.val → g.val < 64 → t.red.flt = { s.red.flt with uc := setBit s.red.flt.uc (g.val - 32) true }
          ∧ gateUc t (g.val - 32) = false)
      ∧ (64 ≤ g.val → g.val < 70 → t.red.flt = { s.red.flt with lt := setBit s.red.flt.lt (g.val - 64) true }
          ∧ gateLt t (g.val - 64) = false)
      ∧ (70 ≤ g.val → t.red.flt = { s.red.flt with can := setBit s.red.flt.can (g.val - 70) true }
          ∧ gateCan t (g.val - 70) = false)
      ∧ RaisedLast s t 2 6 0x48 (g.val * 2 ^ 16)
      ∧ (claimed s = true → isSolo s = false → s.red.yieldNext = none → t.red.yieldNext = some 2)
      ∧ t.red.own = s.red.own ∧ t.red.gates = s.red.gates ∧ t.red.state = s.red.state ∧ t.plan = s.plan := by
  have he : exec (.gateFault g) s = .next (orderYield 2 (redEvent 6 g.val (stagesOff g.val s))) :=
    congrArg Host.Outcome.next (if_pos hd)
  have hl := (stagesOff_adds g.val s).redEvent 6 g.val
  obtain ⟨_, _, _, _, _, _, _, _, _, _, hg⟩ := (stagesOff_gateOnly g.val s).trans (redEvent_gateOnly 6 g.val _)
  rw [hg] at hl
  obtain ⟨y, hy, hc⟩ := orderYield_frame 2 (redEvent 6 g.val (stagesOff g.val s))
  rw [hg] at hy hc
  refine ⟨_, he, ?_⟩
  rw [hg, hy]
  refine ⟨fun h => ?_, fun h1 h2 => ?_, fun h1 h2 => ?_, fun h => ?_, hl, hc, rfl, rfl, rfl, rfl⟩
  · have hf := gateFltSet_dio s.red.flt h
    exact ⟨hf, gate_faulted ((congrArg (fun f : GateFlt => bitAt f.dio g.val) hf).trans (bitAt_setBit_same _ h true))⟩
  · have hf := gateFltSet_uc s.red.flt h1 h2
    refine ⟨hf, gate_faulted ((congrArg (fun f : GateFlt => bitAt f.uc (g.val - 32)) hf).trans ?_)⟩
    exact bitAt_setBit_same _ (by omega) true
  · have hf := gateFltSet_lt s.red.flt h1 h2
    refine ⟨hf, gate_faulted ((congrArg (fun f : GateFlt => bitAt f.lt (g.val - 64)) hf).trans ?_)⟩
    exact bitAt_setBit_same _ (by omega) true
  · have hf := gateFltSet_can s.red.flt h
    refine ⟨hf, gate_faulted ((congrArg (fun f : GateFlt => bitAt f.can (g.val - 70)) hf).trans ?_)⟩
    exact bitAt_setBit_same _ (by omega) true

/-! Renumbering (R328, R315). -/

/-- Only the event queues and page headers differ. -/
def QueuesOnly (s t : State) : Prop := ∃ h e f, t = { s with hdrs := h, evq := e, free := f }

theorem QueuesOnly.foldl {α : Type} {g : State → α → State} (h : ∀ s x, QueuesOnly s (g s x)) (l : List α) (s : State) :
    QueuesOnly s (l.foldl g s) := by
  induction l generalizing s with
  | nil => exact ⟨_, _, _, rfl⟩
  | cons x l ih =>
    obtain ⟨_, _, _, h1⟩ := h s x
    obtain ⟨_, _, _, h2⟩ := ih (g s x)
    exact ⟨_, _, _, h2.trans (by rw [h1])⟩

theorem epochMarkers_queuesOnly (new old : Half) (s : State) : QueuesOnly s (epochMarkers new old s) := by
  refine .foldl (fun s q => ?_) _ s
  split
  · obtain ⟨p, h, hr⟩ := evqReplace_frame q (fun x => { x with epoch := some (new, old) }) s
    exact ⟨_, _, _, hr⟩
  · exact ⟨_, _, _, rfl⟩

theorem epochRenumber_spec (s : State) :
    let due := s.red.state = .active ∧ 0xFF00 < s.red.own.toNat ∧ s.red.peer = 0 ∧ 4000 ≤ s.red.quiet
    (¬ due → exec .epochRenumber s = .next s)
    ∧ (due → ∃ t, exec .epochRenumber s = .next t ∧ t.red = { s.red with own := 1, quiet := 0 }
      ∧ t = { s with red := t.red, evq := t.evq, hdrs := t.hdrs, free := t.free }) := by
  intro due
  have hd : (decide (s.red.state = .active) && decide (0xFF00 < s.red.own.toNat) && decide (s.red.peer = 0)
      && decide (4000 ≤ s.red.quiet)) = true ↔ due := by
    simp only [Bool.and_eq_true, decide_eq_true_eq, and_assoc, due]
  refine ⟨fun h => congrArg Host.Outcome.next (if_neg (fun hx => h (hd.mp hx))), fun h => ?_⟩
  have he : exec .epochRenumber s = .next (if domUp s 3 then epochMarkers 1 s.red.own { s with red.own := 1, red.quiet := 0 }
      else { s with red.own := 1, red.quiet := 0 }) := congrArg Host.Outcome.next (if_pos (hd.mpr h))
  refine ⟨_, he, ?_⟩
  split
  · obtain ⟨_, _, _, hq⟩ := epochMarkers_queuesOnly 1 s.red.own { s with red.own := 1, red.quiet := 0 }
    rw [hq]
    exact ⟨rfl, rfl⟩
  · exact ⟨rfl, rfl⟩

/-! The election's window and the yield message (R329, R338). -/

theorem electionWindowEnd_spec (s : State) :
    let may := s.red.state = .electing ∧ s.red.election = true ∧ redReady s = true ∧ mayClaim s = true
      ∧ (s.red.role = .solo ∨ s.red.peer = 0)
    (¬ may → exec .electionWindowEnd s = .next s)
    ∧ (may → ∃ t, exec .electionWindowEnd s = .next t
      ∧ t.red.own = 1 ∧ t.red.state = (if s.red.role = .solo then .solo else .active) ∧ t.red.election = false
      ∧ t.red.gates = s.red.gates ∧ t.red.peer = s.red.peer ∧ t.red.role = s.red.role
      ∧ t = { s with red := t.red, evq := t.evq, free := t.free }) := by
  intro may
  have hm : (decide (s.red.state = .electing) && s.red.election && redReady s && mayClaim s
      && (isSolo s || decide (s.red.peer = 0))) = true ↔ may := by
    simp only [Bool.and_eq_true, Bool.or_eq_true, decide_eq_true_eq, isSolo_iff, and_assoc, may]
  refine ⟨fun h => congrArg Host.Outcome.next (if_neg (fun hx => h (hm.mp hx))), fun h => ?_⟩
  have hs : (if isSolo s = true then RedState.solo else .active) = if s.red.role = .solo then .solo else .active := by
    by_cases hr : s.red.role = .solo
    · rw [if_pos hr, if_pos ((isSolo_iff s).mpr hr)]
    · rw [if_neg hr, if_neg (by rw [isSolo_false hr]; nofun)]
  obtain ⟨l, e, f, hj⟩ := judgePeerLost_frame (raiseClaim 1 { s with
    red.election := false
    red.alone := inPair s && !(s.red.streetA.present || s.red.streetB.present || s.red.claimLine) })
  refine ⟨_, (congrArg Host.Outcome.next (if_pos (hm.mpr h))).trans (congrArg _ hj), rfl, hs, rfl, rfl, rfl, rfl, rfl⟩

theorem yieldMessageReceive_spec {st : Bool} {cause : BitVec 3} {s : State} (hr : s.red.role ≠ .solo) :
    let may := domUp s 1 = true ∧ s.red.state = .standby ∧ redReady s = true ∧ mayClaim s = true
    (¬ may → exec (.yieldMessageReceive st cause) s = .next s)
    ∧ (may → ∃ t, exec (.yieldMessageReceive st cause) s = .next t
      ∧ t.red.own = s.red.peerEpoch + 1 ∧ t.red.state = .active ∧ t.red.taking = true
      ∧ t.red.takeCause.toNat = cause.toNat ∧ t.red.takeCount = satInc s.red.takeCount
      ∧ t.red.gates = s.red.gates ∧ t = { s with red := t.red, evq := t.evq, free := t.free }) := by
  intro may
  have hm : (domUp s 1 && mayTakeOver s) = true ↔ may := by
    rw [Bool.and_eq_true, mayTakeOver_iff]
  refine ⟨fun h => congrArg Host.Outcome.next (if_neg (fun hx => h (hm.mp hx))), fun h => ?_⟩
  obtain ⟨e, f, ht⟩ := takeOver_spec (s := s) cause.toNat hr
  refine ⟨_, (congrArg Host.Outcome.next (if_pos (hm.mpr h))).trans (congrArg _ ht), rfl, rfl, rfl, ?_, rfl, rfl, rfl⟩
  exact (BitVec.toNat_ofNat _ _).trans (Nat.mod_eq_of_lt (by have := cause.isLt; omega))

/-- Settles O49, by what a gate's fault, a renumbering, an election and a takeover leave. -/
theorem electionAndTakeover : Obligations.ElectionAndTakeover := by
  unfold Obligations.ElectionAndTakeover
  exact ⟨fun g s => gateFault_spec, epochRenumber_spec, electionWindowEnd_spec,
    fun st cause s => yieldMessageReceive_spec⟩

end Sys2Proof.Machine
end


section
/-! What a boundary does on its way through the blocks leaves the closed square, the standby's phase and the progress of
start-up: `f_still` says so of operation `f`, and `f_walk` that where the course stands stays too, for the operations that
write channel contexts in the course block. -/

namespace Sys2Proof.Machine

/-! The parts. -/

/-- Where the block stands in its course: CN, WI and faults, the engines, and the commands in the holding latches. -/
def CourseBlk.walk (c : CourseBlk) : (Word × Nat × Bool × Bool) × ((Bool × Nat) × Bool × Nat) × Word × Tab (Word × Bool) :=
  ((c.cn, c.wi, c.faulted, c.prevFaulted), ((c.e0.ended, c.e0.pos), c.e1.ended, c.e1.pos), c.dioHeld, c.ucHeld)

@[simp] theorem walk_mk (cn wi run e0 e1 faulted prevFaulted fltEngine fltWi fltPos fltCause faultCn faultSeen ecc1
    faults clearPeak latch snap prevIn ctx dioLatch dioHeld ucLatch ucHeld pulses) :
    (CourseBlk.mk cn wi run e0 e1 faulted prevFaulted fltEngine fltWi fltPos fltCause faultCn faultSeen ecc1
      faults clearPeak latch snap prevIn ctx dioLatch dioHeld ucLatch ucHeld pulses).walk
      = ((cn, wi, faulted, prevFaulted), ((e0.ended, e0.pos), e1.ended, e1.pos), dioHeld, ucHeld) := rfl

@[simp] theorem walk_fold (c : CourseBlk) :
    ((c.cn, c.wi, c.faulted, c.prevFaulted), ((c.e0.ended, c.e0.pos), c.e1.ended, c.e1.pos), c.dioHeld, c.ucHeld) = c.walk := rfl

@[simp] theorem walk_ite (c : Prop) [Decidable c] (a b : CourseBlk) :
    (if c then a else b).walk = if c then a.walk else b.walk := apply_ite _ _ _ _

@[simp] theorem walk_foldl {α : Type} (g : State → α → State) (h : ∀ s x, (g s x).course.walk = s.course.walk)
    (l : List α) (s : State) : (l.foldl g s).course.walk = s.course.walk := part_foldl _ g h l s

@[simp] theorem walk_iterate (g : State → State) (h : ∀ s, (g s).course.walk = s.course.walk) (n : Nat) (s : State) :
    (iterate g n s).course.walk = s.course.walk := part_iterate _ g h n s

/-- The standby's phase and the unit's state. -/
def RedBlk.phasing (r : RedBlk) : Bool × Word × RedState := (r.inStep, r.phase, r.state)

/-- Progress of start-up, and a node reset that is asked for. -/
def SysBlk.begun (y : SysBlk) : Nat × Option Byte := (y.step, y.resetAsked)

/-- What is still: the closed square, the phase and the progress of start-up. -/
abbrev Still (s t : State) : Prop :=
  t.square.closed = s.square.closed ∧ t.red.phasing = s.red.phasing ∧ t.sys.begun = s.sys.begun

@[simp] theorem phasing_mk (state cfg peerSn peerEpoch peerSynced alone inStep hbSent frameSent role own peer streetA streetB
    claimLine gates slots conflict roleConflict strapFault peerReady peerFault peerLost peerCn peerRole wrongSerial takeCause
    takeCount takeCn taking election phase flt fltReg quiet yieldNext) :
    (RedBlk.mk state cfg peerSn peerEpoch peerSynced alone inStep hbSent frameSent role own peer streetA streetB
      claimLine gates slots conflict roleConflict strapFault peerReady peerFault peerLost peerCn peerRole wrongSerial takeCause
      takeCount takeCn taking election phase flt fltReg quiet yieldNext).phasing = (inStep, phase, state) := rfl

@[simp] theorem phasing_fold (r : RedBlk) : (r.inStep, r.phase, r.state) = r.phasing := rfl

section
variable (c : Prop) [Decidable c] (a b : State)

@[simp] theorem still_ite : (if c then a else b).square.closed = (if c then a.square.closed else b.square.closed)
    ∧ (if c then a else b).red.phasing = (if c then a.red.phasing else b.red.phasing)
    ∧ (if c then a else b).sys.begun = (if c then a.sys.begun else b.sys.begun) :=
  ⟨apply_ite (fun s : State => s.square.closed) _ _ _, apply_ite (fun s : State => s.red.phasing) _ _ _,
    apply_ite (fun s : State => s.sys.begun) _ _ _⟩

@[simp] theorem still_dite (a : c → State) (b : ¬ c → State) :
    (if h : c then a h else b h).square.closed = (if h : c then (a h).square.closed else (b h).square.closed)
    ∧ (if h : c then a h else b h).red.phasing = (if h : c then (a h).red.phasing else (b h).red.phasing)
    ∧ (if h : c then a h else b h).sys.begun = (if h : c then (a h).sys.begun else (b h).sys.begun) :=
  ⟨apply_dite (fun s : State => s.square.closed) _ _ _, apply_dite (fun s : State => s.red.phasing) _ _ _,
    apply_dite (fun s : State => s.sys.begun) _ _ _⟩

end

theorem still_part_foldl {α β : Type} (π : State → β) (g : State → α → State) (h : ∀ s x, π (g s x) = π s)
    (l : List α) (s : State) : π (l.foldl g s) = π s :=
  List.foldlRecOn (motive := fun t => π t = π s) l g rfl fun t ht x _ => (h t x).trans ht

@[simp] theorem closed_foldl {α : Type} (g : State → α → State) (h : ∀ s x, (g s x).square.closed = s.square.closed) (l : List α)
    (s : State) : (l.foldl g s).square.closed = s.square.closed := still_part_foldl (fun s => s.square.closed) g h l s

@[simp] theorem phasing_foldl {α : Type} (g : State → α → State) (h : ∀ s x, (g s x).red.phasing = s.red.phasing) (l : List α)
    (s : State) : (l.foldl g s).red.phasing = s.red.phasing := still_part_foldl (fun s => s.red.phasing) g h l s

@[simp] theorem begun_foldl {α : Type} (g : State → α → State) (h : ∀ s x, (g s x).sys.begun = s.sys.begun) (l : List α)
    (s : State) : (l.foldl g s).sys.begun = s.sys.begun := still_part_foldl (fun s => s.sys.begun) g h l s

theorem Still.refl (s : State) : Still s s := ⟨rfl, rfl, rfl⟩

theorem Still.trans {s t u : State} (h : Still s t) (k : Still t u) : Still s u :=
  ⟨k.1.trans h.1, k.2.1.trans h.2.1, k.2.2.trans h.2.2⟩

theorem Still.ite {c : Prop} [Decidable c] {s t u : State} (ht : Still s t) (hu : Still s u) :
    Still s (if c then t else u) := by
  split
  · exact ht
  · exact hu

theorem Still.foldl {α : Type} {g : State → α → State} (h : ∀ s x, Still s (g s x)) (l : List α) (s : State) :
    Still s (l.foldl g s) :=
  List.foldlRecOn (motive := fun t => Still s t) l g (.refl s) fun t ht x _ => ht.trans (h t x)

theorem Still.iterate {g : State → State} (h : ∀ s, Still s (g s)) (n : Nat) (s : State) : Still s (iterate g n s) := by
  induction n generalizing s with
  | zero => exact .refl s
  | succ n ih => exact (h s).trans (ih (g s))

/-- What differs elsewhere comes first. -/
theorem Still.after {s t u : State} (k : Still t u) (h1 : t.square.closed = s.square.closed)
    (h2 : t.red.phasing = s.red.phasing) (h3 : t.sys.begun = s.sys.begun) : Still s u := Still.trans ⟨h1, h2, h3⟩ k

theorem updCap_still (c : Nat) (f : CapBlk → CapBlk) (s : State) : Still s (updCap c f s) := ⟨rfl, rfl, rfl⟩


/-! Events, page headers and commands. -/

@[simp] theorem raiseEv_still (cls code source : Nat) (data : BitVec 96) (s : State) : Still s (raiseEv cls code source data s) := by simp [Still, raiseEv]

@[simp] theorem blockEv_still (page code data : Nat) (s : State) : Still s (blockEv page code data s) := by
  simp [Still, blockEv]

@[simp] theorem setSticky_still (p bit : Nat) (s : State) : Still s (setSticky p bit s) := ⟨rfl, rfl, rfl⟩

@[simp] theorem finishCmd_still (p : Nat) (st : CStat) (result : Nat) (s : State) : Still s (finishCmd p st result s) := by
  cases st
  case state => unfold finishCmd; dsimp only; split <;> simp [Still]
  all_goals exact ⟨rfl, rfl, rfl⟩

@[simp] theorem endIfRunning_still (p op : Nat) (st : CStat) (result : Nat) (s : State) : Still s (endIfRunning p op st result s) := by
  unfold endIfRunning
  split <;> simp [Still]

/-! Outputs, gates and the claim (ch. 05, 10, 12, 13). -/

@[simp] theorem ucResolve_still (n : Nat) (s : State) : Still s (ucResolve n s) := by
  obtain ⟨_, _, _, _, h⟩ := (ucResolve_outputsOnly n s).frame
  rw [h]
  exact ⟨rfl, rfl, rfl⟩

@[simp] theorem dioResolve_still (n : Nat) (s : State) : Still s (dioResolve n s) := by
  simp [Still, dioResolve]

@[simp] theorem inrushBudget_still (s : State) : Still s (inrushBudget s) := ⟨rfl, rfl, rfl⟩

@[simp] theorem tripUpdate_still (s : State) : Still s (tripUpdate s) := by
  simp [Still, tripUpdate, tripDrive]

@[simp] theorem coupleModem_still (m : Nat) (count : Bool) (s : State) : Still s (coupleModem m count s) := by
  simp [Still, coupleModem]

@[simp] theorem hartDone_still (b result : Nat) (s : State) : Still s (hartDone b result s) := by
  simp [Still, hartDone]

@[simp] theorem hartNoTurn_still (s : State) : Still s (hartNoTurn s) := by
  simp [Still, hartNoTurn]

@[simp] theorem hartEnd_still (m b result : Nat) (s : State) : Still s (hartEnd m b result s) := by
  simp [Still, hartEnd]

@[simp] theorem hartAbort_still (p : Nat → Bool) (queued : Bool) (s : State) : Still s (hartAbort p queued s) := by
  obtain ⟨_, _, _, h⟩ := hartAbort_hartOnly p queued s
  rw [h]
  exact ⟨rfl, rfl, rfl⟩

@[simp] theorem hartAdvance_still (m : Nat) (s : State) : Still s (hartAdvance m s) := by
  simp [Still, hartAdvance]

@[simp] theorem hartRegate_still (s : State) : Still s (hartRegate s) := by
  simp [Still, hartRegate]

@[simp] theorem canGates_still (takeover : Bool) (s : State) : Still s (canGates takeover s) := by
  simp [Still, canGates, canEndAll, canSticky]

@[simp] theorem gatesApply_still (s : State) : Still s (gatesApply s) := by
  simp [Still, gatesApply, gatesApplyUc]

@[simp] theorem gatesOpen_still (s : State) : Still s (gatesOpen s) := by
  simp [Still, gatesOpen]

@[simp] theorem dropClaim_still (s : State) : Still s (dropClaim s) := by
  simp [Still, dropClaim]

@[simp] theorem redEvent_still (code detail : Nat) (s : State) : Still s (redEvent code detail s) := by
  simp [Still, redEvent]

@[simp] theorem orderYield_still (cause : Nat) (s : State) : Still s (orderYield cause s) := by
  simp [Still, orderYield]

@[simp] theorem updInp_still (n : Nat) (f : UcIn → UcIn) (s : State) : Still s (updInp n f s) := ⟨rfl, rfl, rfl⟩

@[simp] theorem abortOpenTest_still (n : Nat) (s : State) : Still s (abortOpenTest n s) := by
  simp [Still, abortOpenTest]

@[simp] theorem settleUc_still (n : Nat) (s : State) : Still s (settleUc n s) := by
  simp [Still, settleUc]

@[simp] theorem settleUc_walk (n : Nat) (s : State) : (settleUc n s).course.walk = s.course.walk := by
  simp [settleUc]

@[simp] theorem dropSamples_still (c : Nat) (s : State) : Still s (dropSamples c s) := ⟨rfl, rfl, rfl⟩

@[simp] theorem dropSamples_walk (c : Nat) (s : State) : (dropSamples c s).course.walk = s.course.walk := rfl

@[simp] theorem updCtxOf_still (c : Nat) (f : ChanCtx → ChanCtx) (s : State) : Still s (updCtxOf c f s) := ⟨rfl, rfl, rfl⟩

@[simp] theorem updCtxOf_walk (c : Nat) (f : ChanCtx → ChanCtx) (s : State) : (updCtxOf c f s).course.walk = s.course.walk := rfl

@[simp] theorem newSeries_still (c : Nat) (s : State) : Still s (newSeries c s) := by
  simp [Still, newSeries]

@[simp] theorem newSeries_walk (c : Nat) (s : State) : (newSeries c s).course.walk = s.course.walk := by
  simp [newSeries]

@[simp] theorem loadPlanRegs_still (m : Nat) (s : State) : Still s (loadPlanRegs m s) := by
  simp [Still, loadPlanRegs]

@[simp] theorem givePlanRegs_still (m : Nat) (s : State) : Still s (givePlanRegs m s) := by
  simp [Still, givePlanRegs]

/-! The course that ends (R30, R73, R74, R76, R333). -/

@[simp] theorem ringPut_still (p : Nat) (mk : Word → List Byte) (s : State) : Still s (ringPut p mk s) := by
  simp [Still, ringPut]

@[simp] theorem trendEnd_still (s : State) : Still s (trendEnd s) := by
  unfold trendEnd
  split <;> simp [Still]

@[simp] theorem sendSync_still (s : State) : Still s (sendSync s) := by
  simp [Still, sendSync, buildSync]

@[simp] theorem syncMissed_still (s : State) : Still s (syncMissed s) := by
  simp [Still, syncMissed]

/-! Plans and districts (R46, R43, R54 to R60). -/

@[simp] theorem planEvent_still (code district gen count : Nat) (s : State) : Still s (planEvent code district gen count s) := by
  simp [Still, planEvent]

@[simp] theorem initCall_still (s : State) : Still s (initCall s) := ⟨rfl, rfl, rfl⟩

@[simp] theorem claimConfig_still (s : State) : Still s (claimConfig s) := by
  simp [Still, claimConfig]

/-! Alarms and the operator call (ch. 08). -/

@[simp] theorem raiseAlarm_still (p : Nat) (data : BitVec 96) (s : State) : Still s (raiseAlarm p data s) := by
  simp [Still, raiseAlarm, capAlarm, capTrigger, journalTake]

@[simp] theorem alarmRecord_still (p : Nat) (old new : Half) (cause by_ : Nat) (s : State) : Still s (alarmRecord p old new cause by_ s) := by
  simp [Still, alarmRecord]

@[simp] theorem alarmEvent_still (code group point : Nat) (s : State) : Still s (alarmEvent code group point s) := by
  simp [Still, alarmEvent]

@[simp] theorem emptyFo_still (g : Nat) (s : State) : Still s (emptyFo g s) := by
  unfold emptyFo
  split <;> simp [Still]

@[simp] theorem updTab_still (t : Nat) (f : CallTab → CallTab) (s : State) : Still s (updTab t f s) := ⟨rfl, rfl, rfl⟩

@[simp] theorem callEvent_still (code table detail : Nat) (s : State) : Still s (callEvent code table detail s) := by
  simp [Still, callEvent]

@[simp] theorem setTab_still (t : Nat) (x : CallTab) (s : State) : Still s (setTab t x s) := by
  simp [Still, setTab]

@[simp] theorem setPhase_still (ph : WatchPhase) (s : State) : Still s (setPhase ph s) := by
  simp [Still, setPhase]

@[simp] theorem startWatch_still (s : State) : Still s (startWatch s) := by
  simp [Still, startWatch]

@[simp] theorem applyWatch_still (on : Bool) (s : State) : Still s (applyWatch on s) := by
  simp [Still, applyWatch]

@[simp] theorem setDuty_still (e : Nat) (s : State) : Still s (setDuty e s) := by
  simp [Still, setDuty]

@[simp] theorem clearRose_still (s : State) : Still s (clearRose s) := by
  simp [Still, clearRose]

@[simp] theorem alarmCapture_still (s : State) : Still s (alarmCapture s) := by
  simp [Still, alarmCapture, noSelector]

/-! Steps of a district update (R55 to R58). -/

@[simp] theorem endRelease_still (output : Bool) (n : Nat) (s : State) : Still s (endRelease output n s) := ⟨rfl, rfl, rfl⟩

@[simp] theorem stepAna_still (c : Nat) (was : Bool) (s : State) : Still s (stepAna c was s) := by
  simp [Still, stepAna]

@[simp] theorem stepAna_walk (c : Nat) (was : Bool) (s : State) : (stepAna c was s).course.walk = s.course.walk := by
  simp [stepAna]

@[simp] theorem stepDig_still (k : Nat) (was : Bool) (s : State) : Still s (stepDig k was s) := by
  simp [Still, stepDig]

@[simp] theorem stepPoint_still (p : Nat) (old : Option (List Byte)) (oldWord : Half) (s : State) : Still s (stepPoint p old oldWord s) := by
  simp [Still, stepPoint]

@[simp] theorem stepLane_still (n : Nat) (old : Option (List Byte)) (s : State) : Still s (stepLane n old s) := by
  simp [Still, stepLane]

@[simp] theorem watchStep_still (was : Nat) (s : State) : Still s (watchStep was s) := by
  simp [Still, watchStep]

@[simp] theorem eraseRecord_still (m : Nat) (s : State) : Still s (eraseRecord m s) := by
  simp [Still, eraseRecord]

@[simp] theorem retirePoint_still (p : Nat) (oldWord : Half) (s : State) : Still s (retirePoint p oldWord s) := by
  simp [Still, retirePoint]

@[simp] theorem retireTable_still (t : Nat) (s : State) : Still s (retireTable t s) := by
  simp [Still, retireTable]

@[simp] theorem dropPanelPend_still (k : Nat) (s : State) : Still s (dropPanelPend k s) := by
  simp [Still, dropPanelPend]

@[simp] theorem applyStep_still (d : DStep) (s : State) : Still s (applyStep d s) := by
  cases d with
  | apply e =>
    unfold applyStep
    dsimp only
    split <;> simp [Still]
  | retire ty t =>
    unfold applyStep
    dsimp only
    split
    · exact ⟨rfl, rfl, rfl⟩
    · split <;> simp [Still]

@[simp] theorem applyStep_walk (d : DStep) (s : State) : (applyStep d s).course.walk = s.course.walk := by
  cases d with
  | apply e =>
    unfold applyStep
    dsimp only
    split <;> simp
  | retire ty t =>
    unfold applyStep
    dsimp only
    split
    · rfl
    · split <;> simp

/-! The rest of the boundary up to the clock. -/

@[simp] theorem ptpBoundary_still (s : State) : Still s (ptpBoundary s) := by
  simp [Still, ptpBoundary]

@[simp] theorem evqArrive_still (e : EventRec) (s : State) : Still s (evqArrive e s) := by
  simp [Still, evqArrive, evqReplace, evqNote]

@[simp] theorem evqDrain_still (s : State) : Still s (evqDrain s) := by
  simp [Still, evqDrain]

@[simp] theorem maintBoundary_still (s : State) : Still s (maintBoundary s) := by
  simp [Still, maintBoundary, enterMaint, leaveMaint]

@[simp] theorem maintBoundary_walk (s : State) : (maintBoundary s).course.walk = s.course.walk := by
  simp [maintBoundary, enterMaint, leaveMaint]

@[simp] theorem tilesBoundary_still (s : State) : Still s (tilesBoundary s) := by
  simp [Still, tilesBoundary, tileTake, restartTile, abortTileTests]

@[simp] theorem tilesBoundary_walk (s : State) : (tilesBoundary s).course.walk = s.course.walk := by
  simp [tilesBoundary, tileTake, restartTile, abortTileTests]

@[simp] theorem safeEvent_still (code target detail : Nat) (s : State) : Still s (safeEvent code target detail s) := by
  simp [Still, safeEvent]

@[simp] theorem updOut_still (n : Nat) (f : UcOut → UcOut) (s : State) : Still s (updOut n f s) := ⟨rfl, rfl, rfl⟩

@[simp] theorem ucOSticky_still (n bit : Nat) (s : State) : Still s (ucOSticky n bit s) := ⟨rfl, rfl, rfl⟩

@[simp] theorem ucTake_still (n : Nat) (s : State) : Still s (ucTake n s) := by
  simp [Still, ucTake, ucNewMode]

@[simp] theorem ucTake_walk (n : Nat) (s : State) : (ucTake n s).course.walk = s.course.walk := by
  simp [ucTake, ucNewMode]

@[simp] theorem ucDrive_still (n : Nat) (win : Option OutWindow) (s : State) : Still s (ucDrive n win s) := by
  unfold ucDrive
  dsimp only
  split <;> simp [Still, retireOff]

@[simp] theorem ucDrive_walk (n : Nat) (win : Option OutWindow) (s : State) : (ucDrive n win s).course.walk = s.course.walk := by
  unfold ucDrive
  dsimp only
  split <;> simp [retireOff]

@[simp] theorem chanEvent_still (c code detail : Nat) (s : State) : Still s (chanEvent c code detail s) := by
  simp [Still, chanEvent]

@[simp] theorem ucJudge_still (n : Nat) (s : State) : Still s (ucJudge n s) := by
  unfold ucJudge
  split <;> simp [Still, openLoopStep, complianceStep, readbackStep]

@[simp] theorem ucBoundary_still (n : Nat) (s : State) : Still s (ucBoundary n s) := by
  unfold ucBoundary
  dsimp only
  split
  · split
    · split
      · simp [Still, Still]
      · split <;> simp [Still]
    · simp [Still, Still]
  · exact ⟨rfl, rfl, rfl⟩

@[simp] theorem ucBoundary_walk (n : Nat) (s : State) : (ucBoundary n s).course.walk = s.course.walk := by
  unfold ucBoundary
  dsimp only
  split
  · split
    · split
      · simp
      · split <;> simp
    · simp
  · rfl

@[simp] theorem takeRegs_still (s : State) : Still s (takeRegs s) := by
  simp [Still, takeRegs, liTake, liNewMode, digTake]

@[simp] theorem takeRegs_walk (s : State) : (takeRegs s).course.walk = s.course.walk := by
  simp [takeRegs, liTake, liNewMode, digTake]

@[simp] theorem clockBoundary_still (s : State) : Still s (clockBoundary s) := by
  simp [Still, clockBoundary, clockMove]

@[simp] theorem hartBoundary_still (s : State) : Still s (hartBoundary s) := by
  simp [Still, hartBoundary]

@[simp] theorem iepeBoundary_still (s : State) : Still s (iepeBoundary s) := by
  simp [Still, iepeBoundary]

@[simp] theorem daysBoundary_still (s : State) : Still s (daysBoundary s) := by
  simp [Still, daysBoundary]

@[simp] theorem icuSleep_still (s : State) : Still s (icuSleep s) := ⟨rfl, rfl, rfl⟩

/-! Districts, the sync of a standby, captures and outputs. -/

theorem stepDistrict_still (n : Nat) (s : State) : Still s (stepDistrict n s) := by
  unfold stepDistrict
  split <;> simp [Still, completeUpdate]

theorem stepDistrict_walk (n : Nat) (s : State) : (stepDistrict n s).course.walk = s.course.walk := by
  unfold stepDistrict
  split <;> simp [completeUpdate]

theorem districtsBoundary_still (s : State) : Still s (districtsBoundary s) := by
  unfold districtsBoundary
  exact Still.foldl (fun s n => Still.iterate (stepDistrict_still n) _ s) _ s

theorem districtsBoundary_walk (s : State) : (districtsBoundary s).course.walk = s.course.walk := by
  simp [districtsBoundary, stepDistrict_walk]

theorem loadLamps_still (m : SyncMsg) (s : State) : Still s (loadLamps m s) := by
  refine .foldl (fun s n => ?_) _ s
  split
  · exact ⟨rfl, rfl, rfl⟩
  · exact .ite ⟨rfl, rfl, rfl⟩ (.refl s)

theorem loadTurns_still (m : SyncMsg) (s : State) : Still s (loadTurns m s) := by
  refine .foldl (fun s t => .ite (.refl s) ?_) _ s
  exact (Still.iterate (fun s => hartAdvance_still t.1 s) _
    (updModem t.1 (fun x => { x with turn := t.2.1, wallsLeft := t.2.2 }) s)).after rfl rfl rfl

theorem loadSync_still (s : State) : Still s (loadSync s) := by
  unfold loadSync
  split
  · split
    · exact .refl s
    · exact (((loadTurns_still _ _).trans (loadLamps_still _ _)).trans
        (.foldl (fun s e => raiseAlarm_still _ _ s) _ _)).after rfl rfl rfl
  · exact .refl s

theorem logBoundary_still (s : State) : Still s (logBoundary s) := by
  have h1 : Still s ((List.range 8).foldl (fun s c => updCap c (fun x => { x with cfgF := x.cfg }) s) s) :=
    .foldl (fun s c => updCap_still c _ s) _ s
  unfold logBoundary
  dsimp only
  split
  · refine h1.trans (((Still.foldl (fun s c => ?_) _ _).trans (endIfRunning_still _ _ _ _ _)).after rfl rfl rfl)
    exact .ite (.ite ⟨rfl, rfl, rfl⟩ (updCap_still _ _ s)) (.refl s)
  · exact h1

theorem dioBoundary_still (n : Nat) (s : State) : Still s (dioBoundary n s) := by
  unfold Still
  simp [dioBoundary]

theorem outputsBoundary_still (s : State) : Still s (outputsBoundary s) := by
  have h1 := Still.foldl (fun s n => ucBoundary_still n s) (List.range 32) s
  unfold outputsBoundary
  dsimp only
  split
  · exact (h1.trans (.foldl (fun s n => dioBoundary_still n s) _ _)).trans (inrushBudget_still _)
  · exact h1

theorem outputsBoundary_walk (s : State) : (outputsBoundary s).course.walk = s.course.walk := by
  have h1 := walk_foldl (fun s n => ucBoundary n s) (fun s n => ucBoundary_walk n s) (List.range 32) s
  have hd : ∀ s n, (dioBoundary n s).course = s.course := by simp [dioBoundary]
  unfold outputsBoundary
  dsimp only
  split
  · rw [inrushBudget_course, course_foldl _ hd, h1]
  · exact h1


end Sys2Proof.Machine
end


section
/-! What the course that begins leaves still (R31, R32, R332). -/

namespace Sys2Proof.Machine

/-! Commands of the ALARM, CALL and SAFE pages at the boundary. -/

/-- A page's command ends, or goes on running, with what its own work left still. -/
theorem Still.ended {e : CmdEnd} {s : State} (p : Nat) (h : Still s e.after) : Still s (match (generalizing := false) e with
      | .done st res t => finishCmd p st res t
      | .hold t => t) := by
  cases e with
  | done st res t => exact Still.trans h (finishCmd_still p st res t)
  | hold t => exact h

theorem runHeld_still (page : Nat) (apply : Nat → BitVec 24 → Requester → State → CmdEnd) (s : State)
    (h : ∀ op arg req, Still s (apply op arg req s).after) : Still s (runHeld page apply s) := by
  unfold runHeld
  split
  · exact Still.ended page (h _ _ _)
  · exact Still.refl s

@[simp] theorem ackPoint_still (p cause by_ : Nat) (s : State) : Still s (ackPoint p cause by_ s).1 := by
  unfold ackPoint
  dsimp only
  split
  · split <;> simp [Still, ptTo]
  · exact Still.refl s

@[simp] theorem ackPoints_still (cause by_ : Nat) (l : List Nat) (s : State) : Still s (ackPoints cause by_ l s).1 :=
  List.foldlRecOn (motive := fun (a : State × Nat) => Still s a.1) l _ (Still.refl s)
    fun a ha p _ => Still.trans ha (ackPoint_still p cause by_ a.1)

theorem updPoint_still (p : Nat) (f : Point → Point) (s : State) : Still s (updPoint p f s) := ⟨rfl, rfl, rfl⟩

@[simp] theorem silenceAll_still (s : State) : Still s (silenceAll s).1 := by
  exact Still.trans (Still.foldl (fun s p => updPoint_still p _ s) _ s) (alarmEvent_still _ _ _ _)

theorem applyAlarmCmd_still (op : Nat) (arg : BitVec 24) (req : Requester) (s : State) :
    Still s (applyAlarmCmd op arg req s).after := by
  unfold applyAlarmCmd
  extract_lets p g mask by_ s'
  split
  · exact Still.refl s
  · split
    · exact Still.refl s
    · split
      case h_6 =>
        split
        · exact Still.refl s
        · split
          · exact Still.refl s
          · split <;> simp [Still, after_done]
      all_goals simp +zetaDelta [Still, after_done]

theorem applyCallCmd_still (op : Nat) (arg : BitVec 24) (s : State) : Still s (applyCallCmd op arg s).after := by
  unfold applyCallCmd
  extract_lets c mask e
  split
  · exact Still.refl s
  · split
    · exact Still.refl s
    · split <;> simp +zetaDelta [Still, after_done]

theorem alarmBoundary_still (s : State) : Still s (alarmBoundary s) := by
  unfold alarmBoundary
  extract_lets s1 s2 b s3 s4 s5
  have h1 : Still s s1 := runHeld_still _ _ _ (fun op arg req => applyAlarmCmd_still op arg req s)
  have h2 : Still s1 s2 := runHeld_still _ _ _ (fun op arg _ => applyCallCmd_still op arg s1)
  have h3 : Still s2 s3 := by simp +zetaDelta [Still, applyPresses]
  have h4 : Still s3 s4 := by simp +zetaDelta [Still]
  have h5 : Still s4 s5 := by
    dsimp only [s5]
    split
    · simp [Still]
    · exact Still.refl s4
  exact Still.trans h1 (Still.trans h2 (Still.trans h3 (Still.trans h4 (Still.trans h5 ⟨rfl, rfl, rfl⟩))))

theorem applyResetLane_still (arg : BitVec 24) (s : State) : Still s (applyResetLane arg s).after := by
  unfold applyResetLane
  extract_lets all ns
  split
  · exact Still.refl s
  · rw [after_done]
    exact Still.foldl (fun s n => (⟨rfl, rfl, rfl⟩ : Still s
      { s with safe.lanes := s.safe.lanes.upd {} n (fun l => { l with tripped := false, count := 0 }) })) ns s

theorem applyAsk_still (s : State) (a : RelAsk) : Still s (applyAsk s a) := by
  simp [Still, applyAsk]

theorem safeBoundary_still (s : State) : Still s (safeBoundary s) := by
  unfold safeBoundary
  split
  · extract_lets _ s0 _ s1 s2 _ s3
    have h0 : Still s s0 := by
      dsimp only [s0]
      split <;> exact ⟨rfl, rfl, rfl⟩
    have h1 : Still s0 s1 := by
      refine Still.after ?_ rfl rfl rfl (t := { s0 with safe.asks := [] })
      exact Still.foldl applyAsk_still _ _
    have h2 : Still s1 s2 := by
      dsimp only [s2]
      split
      · split
        · exact Still.ended 0x18 (applyResetLane_still _ s1)
        · exact Still.refl s1
      · exact Still.refl s1
    have h3 : Still s2 s3 := by
      dsimp only [s3]
      split
      · split
        · simp [Still]
        · exact ⟨rfl, rfl, rfl⟩
      · exact Still.refl s2
    exact Still.trans h0 (Still.trans h1 (Still.trans h2 (Still.trans h3 (tripUpdate_still s3))))
  · exact Still.refl s

/-! The course that begins. -/

theorem takeSnapshot_still (s : State) : Still s (takeSnapshot s) := ⟨rfl, rfl, rfl⟩

theorem takeSnapshot_walk (s : State) : (takeSnapshot s).course.walk = s.course.walk := rfl

theorem calBoundary_still (s : State) : Still s (calBoundary s) := ⟨rfl, rfl, rfl⟩

theorem recordsBoundary_still (s : State) : Still s (recordsBoundary s) := ⟨rfl, rfl, rfl⟩

/-- What the boundary does first: records on their way arrive, the pair yields, plans stop and start. -/
def plansSettled (s : State) : State :=
  startBoundary (stopBoundary (yieldBoundary (pairCounts s.course.cn (evqDrain { s with safe.outHold := 0 }))))

/-- Districts step and a standby loads its sync. -/
def syncLoaded (s : State) : State := loadSync (districtsBoundary (ptpBoundary s))

/-- Channels and tiles, alarms and calls. -/
def alarmsSettled (s : State) : State := alarmBoundary (clearRose (tilesBoundary (maintBoundary s)))

/-- The snapshot and the safety partition. -/
def safetySettled (s : State) : State := alarmCapture (safeBoundary (takeSnapshot s))

/-- Registers, outputs, the clock and the captures. -/
def outputsSettled (s : State) : State := logBoundary (clockBoundary (outputsBoundary (takeRegs s)))

/-- The pulses of the boundary, modems, calibration and the records. -/
def recordsSettled (s : State) : State :=
  recordsBoundary (calBoundary (hartBoundary (iepeBoundary (icuSleep { s with
    course.pulses := pulseAll s.course.pulses }))))

theorem beginCourse_eq (s : State) : beginCourse s
    = recordsSettled (outputsSettled (safetySettled (alarmsSettled (syncLoaded (plansSettled s))))) := rfl

theorem alarmsSettled_still (s : State) : Still s (alarmsSettled s) := by
  have h1 := Still.trans (maintBoundary_still s) (tilesBoundary_still (maintBoundary s))
  have h2 := Still.trans h1 (clearRose_still (tilesBoundary (maintBoundary s)))
  exact Still.trans h2 (alarmBoundary_still (clearRose (tilesBoundary (maintBoundary s))))

theorem alarmsSettled_walk (s : State) : (alarmsSettled s).course.walk = s.course.walk := by
  unfold alarmsSettled
  rw [alarmBoundary_course, clearRose_course, tilesBoundary_walk, maintBoundary_walk]

theorem safetySettled_still (s : State) : Still s (safetySettled s) := by
  have h1 := Still.trans (takeSnapshot_still s) (safeBoundary_still (takeSnapshot s))
  exact Still.trans h1 (alarmCapture_still (safeBoundary (takeSnapshot s)))

theorem safetySettled_walk (s : State) : (safetySettled s).course.walk = s.course.walk := by
  unfold safetySettled
  rw [alarmCapture_course, safeBoundary_course, takeSnapshot_walk]

theorem outputsSettled_still (s : State) : Still s (outputsSettled s) := by
  have h1 := Still.trans (takeRegs_still s) (outputsBoundary_still (takeRegs s))
  have h2 := Still.trans h1 (clockBoundary_still (outputsBoundary (takeRegs s)))
  exact Still.trans h2 (logBoundary_still (clockBoundary (outputsBoundary (takeRegs s))))

theorem outputsSettled_walk (s : State) : (outputsSettled s).course.walk = s.course.walk := by
  unfold outputsSettled
  rw [logBoundary_course, clockBoundary_course, outputsBoundary_walk, takeRegs_walk]

theorem recordsSettled_still (s : State) : Still s (recordsSettled s) := by
  have h1 : Still s (icuSleep { s with course.pulses := pulseAll s.course.pulses }) := ⟨rfl, rfl, rfl⟩
  have h2 := Still.trans h1 (iepeBoundary_still _)
  have h3 := Still.trans h2 (hartBoundary_still _)
  unfold recordsSettled
  generalize hartBoundary _ = v at h3 ⊢
  have h4 := Still.trans h3 (calBoundary_still v)
  generalize calBoundary v = w at h4 ⊢
  exact Still.trans h4 (recordsBoundary_still w)

theorem recordsSettled_walk (s : State) : (recordsSettled s).course.walk = s.course.walk := by
  unfold recordsSettled
  rw [recordsBoundary_course, calBoundary_course, hartBoundary_course, iepeBoundary_course, icuSleep_course]
  rfl

/-- From the loaded sync on, the boundary leaves the course, the closed square and the phase. -/
theorem beginCourse_still (s : State) : Still (syncLoaded (plansSettled s)) (beginCourse s)
    ∧ (beginCourse s).course.walk = (syncLoaded (plansSettled s)).course.walk := by
  rw [beginCourse_eq]
  generalize syncLoaded (plansSettled s) = u
  refine ⟨?_, ?_⟩
  · have h1 := Still.trans (alarmsSettled_still u) (safetySettled_still _)
    have h2 := Still.trans h1 (outputsSettled_still _)
    exact Still.trans h2 (recordsSettled_still _)
  · rw [recordsSettled_walk, outputsSettled_walk, safetySettled_walk, alarmsSettled_walk]

theorem syncLoaded_still (s : State) : Still s (syncLoaded s) := by
  have h1 := ptpBoundary_still s
  have h2 := districtsBoundary_still (ptpBoundary s)
  have h3 := loadSync_still (districtsBoundary (ptpBoundary s))
  unfold syncLoaded
  generalize ptpBoundary s = u at h1 h2 h3 ⊢
  generalize districtsBoundary u = v at h2 h3 ⊢
  exact Still.trans (Still.trans h1 h2) h3

/-- What a loaded sync leaves of the course: CN and WI among it. -/
theorem loadSync_cn_wi (s : State) : (loadSync s).course.cn = s.course.cn ∧ (loadSync s).course.wi = s.course.wi := by
  have hl : ∀ (m : SyncMsg) (s : State), (loadLamps m s).course = s.course := by
    intro m s
    refine course_foldl _ (fun s n => ?_) _ _
    split <;> simp
  have ht : ∀ (m : SyncMsg) (s : State), (loadTurns m s).course = s.course := by
    intro m s
    refine course_foldl _ (fun s t => ?_) _ _
    simp
  unfold loadSync
  split
  · split
    · exact ⟨rfl, rfl⟩
    · dsimp only
      rw [course_foldl _ (fun s e => raiseAlarm_course _ _ s), hl, ht]
      exact ⟨rfl, rfl⟩
  · exact ⟨rfl, rfl⟩

theorem CourseBlk.walk_cn_wi {c d : CourseBlk} (h : c.walk = d.walk) : c.cn = d.cn ∧ c.wi = d.wi :=
  ⟨congrArg (fun w => w.1.1) h, congrArg (fun w => w.1.2.1) h⟩

theorem syncLoaded_cn_wi (s : State) : (syncLoaded s).course.cn = s.course.cn ∧ (syncLoaded s).course.wi = s.course.wi := by
  obtain ⟨h1, h2⟩ := loadSync_cn_wi (districtsBoundary (ptpBoundary s))
  obtain ⟨h3, h4⟩ := CourseBlk.walk_cn_wi (districtsBoundary_walk (ptpBoundary s))
  have hp := ptpBoundary_course s
  unfold syncLoaded
  rw [h1, h2, h3, h4, hp]
  exact ⟨rfl, rfl⟩

end Sys2Proof.Machine
end


section
/-! Yielding, and the standby's sync and phase (R332, R333, R339, R343). -/

namespace Sys2Proof.Machine

/-! Orders to yield. -/

theorem orderYield_takeCmd (c p : Nat) (req : Requester) (op : Nat) (arg : BitVec 24) (s : State) :
    orderYield c (takeCmd p req op arg s) = { orderYield c s with hdrs := (takeCmd p req op arg s).hdrs } := by
  by_cases h : (claimed s && !isSolo s && s.red.yieldNext.isNone) = true
  · have e : orderYield c s = { s with red.yieldNext := some (BitVec.ofNat 3 c) } := if_pos h
    rw [e]
    exact if_pos h
  · have e : orderYield c s = s := if_neg h
    rw [e]
    exact if_neg h

theorem switchover_spec {req : Requester} {s : State} (hr : PageReady s 0x48) (h1 : bitAt s.red.cfg 0 = true)
    (h2 : s.red.state = .active) (h3 : s.red.peerReady = true) (h4 : s.red.peerFault = false)
    (h5 : s.red.streetA.present = true) (h6 : s.red.streetB.present = true) (h7 : 4000 ≤ s.sync.ackRun) :
    Answers (.switchover req 0) s 0x48 (hdrHeld req 1 0) (orderYield 3 s)
    ∧ (claimed s = true → isSolo s = false → s.red.yieldNext = none → (orderYield 3 s).red.yieldNext = some 3) := by
  refine ⟨answers_hold (op := 1) hr rfl ?_, fun hc hs hn => ?_⟩
  · refine (if_neg (by nofun)).trans ((if_neg ?_).trans (congrArg CmdEnd.hold (orderYield_takeCmd 3 0x48 req 1 0 s)))
    change ¬ (!bitAt s.red.cfg 0 || decide (s.red.state ≠ .active) || !s.red.peerReady || s.red.peerFault
      || !s.red.streetA.present || !s.red.streetB.present || decide (s.sync.ackRun < 4000)) = true
    rw [h1, h2, h3, h4, h5, h6, decide_eq_false (Nat.not_lt.mpr h7)]
    decide
  · obtain ⟨y, hy, hyc⟩ := orderYield_frame 3 s
    rw [hy]
    exact hyc hc hs hn

theorem clearCounts_spec {req : Requester} {s : State} (hr : PageReady s 0x48) :
    Answers (.clearCounts req 0) s 0x48 (hdrDone .ok 0)
      { s with
        red.streetA := { s.red.streetA with missed := 0 }, red.streetB := { s.red.streetB with missed := 0 }
        sync.lost := 0, red.takeCount := 0 } :=
  answers_done (op := 2) hr rfl (if_neg (by nofun)) (by nofun)

/-! A boundary that carries out an order to yield (R339). -/

theorem hdr_canEndAll {q n : Nat} (h : q ≠ canPage n) (s : State) : hdr (canEndAll n s) q = hdr s q := by
  unfold canEndAll
  dsimp only
  split
  · rfl
  · unfold canSticky
    rw [hdr_setSticky_other _ _ _ h]
    rfl

/-- The transmit gates of CAN leave the pages of the other blocks. -/
theorem hdr_canGates {q : Nat} (h : ∀ n < 4, q ≠ canPage n) (b : Bool) (s : State) : hdr (canGates b s) q = hdr s q := by
  unfold canGates
  split
  · refine List.foldlRecOn (motive := fun t => hdr t q = hdr s q) _ _ rfl fun t ht n hn => ?_
    have hq := h n (List.mem_range.mp hn)
    have h1 : ∀ x : State, hdr (blockEv (canPage n) 2 (b2n (gateCan t n) * 2 ^ 16) (canSticky n 11 x)) q = hdr x q := by
      intro x
      obtain ⟨e, f, he⟩ := blockEv_evq (canPage n) 2 (b2n (gateCan t n) * 2 ^ 16) (canSticky n 11 x)
      rw [he]
      exact hdr_setSticky_other _ _ x hq
    dsimp only
    split
    · exact ht
    · split
      · rw [h1]
        exact ht
      · rw [hdr_canEndAll hq, h1]
        exact ht
  · rfl

theorem hdr_gatesOpen {q : Nat} (h : ∀ n < 4, q ≠ canPage n) (s : State) : hdr (gatesOpen s) q = hdr s q := by
  unfold gatesOpen
  split
  · rw [hdr_canGates h]
    obtain ⟨_, _, _, h1⟩ := (hartAbort_hartOnly (fun _ => true) true (gatesApply { s with
      red.gates := false, red.slots := 0 })).trans (hartRegate_hartOnly _)
    obtain ⟨_, _, _, _, h2⟩ := (gatesApply_outputsOnly { s with red.gates := false, red.slots := 0 }).frame
    rw [h1, h2]
    rfl
  · rfl

theorem endIfRunning_free {p op r : Nat} {st : CStat} {s : State} (h : (hdr s p).run = none) :
    endIfRunning p op st r s = s := by
  unfold endIfRunning
  rw [h]

/-- What a unit that yields leaves. -/
theorem yieldNow_gateOnly (c : BitVec 3) (s : State) : GateOnly
    { s with
      red.own := 0, red.taking := false, red.yieldNext := none, red.gates := false, red.slots := 0
      red.state := .standby, red.inStep := false
      sync.newest := none, sync.applied := none, sync.loaded := none, sync.okRun := 0, sync.ok := false, sync.seen := []
      sync.unacked := [], sync.yieldSent := some c } (yieldNow c s) := by
  obtain ⟨_, _, _, _, _, _, _, _, _, _, h⟩ := becomeStandby_gateOnly s
  unfold yieldNow
  rw [h]
  exact GateOnly.trans ⟨_, _, _, _, _, _, _, _, _, _, rfl⟩ (redEvent_gateOnly _ _ _)

/-- A page whose command has ended is left by the yielding. -/
theorem hdr_yieldNow {c : BitVec 3} {s : State} (h : (hdr s 0x48).run = none) : hdr (yieldNow c s) 0x48 = hdr s 0x48 := by
  have hq : ∀ n < 4, 0x48 ≠ canPage n := by
    intro n hn
    unfold canPage
    omega
  obtain ⟨e, f, he⟩ := redEvent_evq 2 c.toNat { becomeStandby s with sync.yieldSent := some c }
  have hg := hdr_gatesOpen hq { s with red.own := 0, red.taking := false, red.yieldNext := none }
  unfold yieldNow
  rw [he]
  change hdr (dropClaim s) 0x48 = _
  unfold dropClaim
  rw [endIfRunning_free (by rw [hg]; exact h), hg]
  rfl

theorem yieldBoundary_yields {c : BitVec 3} {s : State} (hy : s.red.yieldNext = some c) (hc : claimed s = true) :
    yieldBoundary s = yieldNow c (endIfRunning 0x48 1 .ok 0 s) := by
  unfold yieldBoundary
  rw [hy]
  exact if_pos hc

theorem yieldBoundary_spec {c : BitVec 3} {s : State} (hy : s.red.yieldNext = some c) (hc : claimed s = true) :
    let t := yieldBoundary s
    t.red.own = 0 ∧ t.red.gates = false ∧ t.red.state = .standby ∧ t.red.yieldNext = none ∧ t.sync.yieldSent = some c
      ∧ (∀ r, (hdr s 0x48).run = some r → r.op = 1 → (hdr t 0x48).busy = false ∧ (hdr t 0x48).status = 0) := by
  intro t
  have ht : t = yieldNow c (endIfRunning 0x48 1 .ok 0 s) := yieldBoundary_yields hy hc
  have hh : ∀ r, (hdr s 0x48).run = some r → r.op = 1 → hdr t 0x48 = hdrEnd .ok 0 (hdr s 0x48) := by
    intro r hr ho
    rw [ht, endIfRunning_runs (op := 1) (st := .ok) hr (congrArg BitVec.toNat ho) (by nofun)]
    refine (hdr_yieldNow ?_).trans (updHdr_same _ _ _)
    rw [updHdr_same]
    rfl
  have hb : ∀ r, (hdr s 0x48).run = some r → r.op = 1 → (hdr t 0x48).busy = false ∧ (hdr t 0x48).status = 0 := by
    intro r hr ho
    rw [hh r hr ho]
    exact ⟨rfl, rfl⟩
  obtain ⟨_, _, _, _, _, _, _, _, _, _, hg⟩ := yieldNow_gateOnly c (endIfRunning 0x48 1 .ok 0 s)
  rw [← ht] at hg
  refine ⟨?_, ?_, ?_, ?_, ?_, hb⟩
  · rw [hg]
  · rw [hg]
  · rw [hg]
  · rw [hg]
  · rw [hg]

/-! Syncs of the active unit (R333). -/

/-- One course more, as the difference of two course numbers shows it. -/
theorem next_course_iff {a b : Word} (h : 0 < (a - b).toInt) : (a - b).toNat - 1 = 0 ↔ a = b + 1 := by
  have h0 : (a - b).toNat ≠ 0 := by
    intro hz
    have : a - b = 0 := BitVec.eq_of_toNat_eq hz
    rw [this] at h
    exact absurd h (by decide)
  constructor
  · intro h1
    have : a - b = 1 := BitVec.eq_of_toNat_eq (by have : (1 : Word).toNat = 1 := rfl; omega)
    bv_omega
  · rintro rfl
    have : b + 1 - b = 1 := by bv_omega
    rw [this]
    rfl

theorem stateSyncReceive_idle {st ok : Bool} {m : SyncMsg} {s : State}
    (h : ok = false ∨ s.sync.newest ≠ none ∧ (m.cn - s.sync.last).toInt ≤ 0) :
    exec (.stateSyncReceive st ok m) s = .next s := by
  refine congrArg Host.Outcome.next (if_neg fun hx => ?_)
  simp only [Bool.and_eq_true, Bool.or_eq_true, Option.isNone_iff_eq_none, decide_eq_true_eq] at hx
  obtain ⟨⟨-, hok⟩, hn⟩ := hx
  rcases h with h | ⟨h1, h2⟩
  · exact absurd (h.symm.trans hok) (by nofun)
  · rcases hn with hn | hn
    · exact h1 hn
    · omega

theorem stateSyncReceive_taken {st : Bool} {m : SyncMsg} {s : State} (hd1 : domUp s 1 = true) (hd3 : domUp s 3 = true)
    (hs : s.red.state = .standby) (h : s.sync.newest = none ∨ 0 < (m.cn - s.sync.last).toInt) :
    ∃ t, exec (.stateSyncReceive st true m) s = .next t
      ∧ (s.sync.newest = none → t.sync.last = m.cn ∧ t.sync.okRun = 1 ∧ t.sync.lost = satNat 16 s.sync.lost.toNat
          ∧ t.red.peerEpoch = m.epoch ∧ t.sync.newest.map (·.points) = some m.points)
      ∧ (s.sync.newest ≠ none →
          t.sync.last = m.cn ∧ t.red.peerEpoch = m.epoch ∧ t.sync.newest.map (·.records) = some m.records
            ∧ t.sync.lost = satNat 16 (s.sync.lost.toNat + ((m.cn - s.sync.last).toNat - 1))
            ∧ t.sync.okRun = if m.cn = s.sync.last + 1 then s.sync.okRun + 1 else 1)
      ∧ t = { s with sync := t.sync, red.peerEpoch := t.red.peerEpoch } := by
  have hc : (domUp s 1 && domUp s 3 && decide (s.red.state = .standby) && true
      && (s.sync.newest.isNone || decide (0 < (m.cn - s.sync.last).toInt))) = true := by
    simp only [Bool.and_eq_true, Bool.or_eq_true, Option.isNone_iff_eq_none, decide_eq_true_eq]
    exact ⟨⟨⟨⟨hd1, hd3⟩, hs⟩, trivial⟩, h⟩
  refine ⟨_, congrArg Host.Outcome.next (if_pos hc), fun hn => ?_, fun hn => ?_, rfl⟩
  · refine ⟨rfl, ?_, ?_, rfl, rfl⟩
    · refine if_neg ?_
      rw [hn]
      nofun
    · dsimp only
      rw [hn]
      rfl
  · have hsome : s.sync.newest.isNone = false := by
      cases hx : s.sync.newest with
      | none => exact absurd hx hn
      | some x => rfl
    have hgap : (if s.sync.newest.isNone = true then 0 else (m.cn - s.sync.last).toNat - 1)
        = (m.cn - s.sync.last).toNat - 1 := if_neg (by rw [hsome]; nofun)
    have hisSome : s.sync.newest.isSome = true := by
      rw [← Option.not_isNone, hsome]
      rfl
    refine ⟨rfl, rfl, rfl, ?_, ?_⟩
    · dsimp only
      rw [hgap]
    · dsimp only
      rw [hgap, hisSome, Bool.true_and]
      have hn1 := next_course_iff (h.resolve_left hn)
      by_cases hm : m.cn = s.sync.last + 1
      · rw [if_pos hm, if_pos (decide_eq_true (hn1.mpr hm))]
      · rw [if_neg hm, if_neg (fun hx => hm (hn1.mp (of_decide_eq_true hx)))]

/-! Re-phasing (R332). -/

theorem evqArrive_queuesOnly (e : EventRec) (s : State) : QueuesOnly s (evqArrive e s) := by
  refine .foldl (fun s q => ?_) _ s
  obtain ⟨p, h, hr⟩ := evqReplace_frame q (evqWrite s.course.cn e) s
  exact ⟨_, _, _, hr⟩

theorem evqDrain_queuesOnly (s : State) : QueuesOnly s (evqDrain s) := by
  unfold evqDrain
  dsimp only
  obtain ⟨_, _, _, h⟩ := QueuesOnly.foldl (fun s e => evqArrive_queuesOnly e s)
    (s.evq.inflight.filter (fun e => decide (e.cn ≠ s.course.cn) && decide (e.cn ≠ s.course.cn - 1)))
    { s with evq.inflight := s.evq.inflight.filter (fun e =>
      !(decide (e.cn ≠ s.course.cn) && decide (e.cn ≠ s.course.cn - 1))) }
  exact ⟨_, _, _, h⟩

/-- Without an order to yield that a claim makes good, the boundary of the pair changes no more than the order. -/
theorem yieldBoundary_unclaimed {s : State} (h : s.red.own = 0) :
    ∃ y, yieldBoundary s = { s with red.yieldNext := y } := by
  unfold yieldBoundary
  split
  · next c _ =>
    have hc : ¬ claimed s = true := by
      unfold claimed
      rw [h]
      nofun
    exact ⟨_, if_neg hc⟩
  · exact ⟨_, rfl⟩

/-- A unit without a claim, with no plan to start or stop, begins a course with its records alone. -/
theorem plansSettled_unclaimed {s : State} (h0 : s.red.own = 0) (h1 : s.loader.starting = none)
    (h2 : s.loader.stopping = none) :
    Still s (plansSettled s) ∧ (plansSettled s).course = s.course := by
  obtain ⟨h, e, f, hd⟩ := evqDrain_queuesOnly { s with safe.outHold := 0 }
  have hx : plansSettled s = startBoundary (stopBoundary (yieldBoundary (pairCounts s.course.cn
    { s with safe.outHold := 0, hdrs := h, evq := e, free := f }))) := by
    unfold plansSettled
    rw [hd]
  obtain ⟨y, hy⟩ := yieldBoundary_unclaimed (s := pairCounts s.course.cn
    { s with safe.outHold := 0, hdrs := h, evq := e, free := f }) h0
  rw [hx, hy]
  have hstop : ∀ u : State, u.loader.stopping = none → stopBoundary u = u := by
    intro u hu
    unfold stopBoundary
    rw [hu]
  have hstart : ∀ u : State, u.loader.starting = none → startBoundary u = u := by
    intro u hu
    unfold startBoundary
    rw [hu]
  rw [hstop, hstart]
  · exact ⟨⟨rfl, rfl, rfl⟩, rfl⟩
  · exact h1
  · exact h2

theorem wallEnd_frame (s : State) : ∃ x, wallEnd s = { s with tileCal := x } :=
  List.foldlRecOn (motive := fun t => ∃ x, t = { s with tileCal := x }) _ _ ⟨_, rfl⟩ fun t ht n _ => by
    obtain ⟨x, rfl⟩ := ht
    split
    · exact ⟨_, rfl⟩
    · exact ⟨_, rfl⟩

theorem warmTick_frame (s : State) : ∃ x, warmTick s = { s with tiles := x } :=
  List.foldlRecOn (motive := fun t => ∃ x, t = { s with tiles := x }) _ _ ⟨_, rfl⟩ fun t ht n _ => by
    obtain ⟨x, rfl⟩ := ht
    by_cases hc : domUp { s with tiles := x } (if n < 4 then 4 else 5) = true
    · exact ⟨_, if_pos hc⟩
    · exact ⟨_, if_neg hc⟩

/-- The course that begins, but for what its tiles count. -/
theorem nextCourse_frame (s : State) : ∃ x y, nextCourse s = { s with
    course.cn := s.course.cn + 1
    course.wi := if s.course.run then wallNext s else s.course.wi
    course.prevFaulted := s.course.run && s.course.faulted
    course.faulted := false
    course.clearPeak := false
    course.e0 := engineStart s.plan.base0 (s.course.run && !s.course.faulted) s.course.clearPeak s.course.e0
    course.e1 := engineStart s.plan.base1 (s.course.run && !s.course.faulted) s.course.clearPeak s.course.e1
    alarm.raised := [], tiles := x, tileCal := y } := by
  obtain ⟨tiles, ht⟩ := Classical.skolem.mp warmTick_frame
  obtain ⟨walls, hw⟩ := Classical.skolem.mp wallEnd_frame
  unfold nextCourse
  dsimp only
  rw [ht]
  split
  · rw [hw]
    exact ⟨_, _, rfl⟩
  · exact ⟨_, _, rfl⟩

/-- The standby as its re-phased course begins. -/
def rephased (cn : Word) (wi : BitVec 12) (o : Int) (s : State) : State :=
  { nextCourse { s with course.run := false } with
    course.run := s.course.run, course.cn := cn, course.wi := wi.toNat
    red.inStep := true, red.phase := BitVec.ofInt 32 o, square.writing := none
    square.work := s.square.kept }

theorem execStandbyRephase_off {cn : Word} {wi : BitVec 12} {o : Int} {s : State}
    (hc : (decide (s.red.state = .standby) && domUp s 3) = true)
    (hp : (!s.red.inStep || decide (5000 < o.natAbs)) = true) :
    execStandbyRephase cn wi o s = .next (if s.red.inStep then
      redEvent 7 (syncsLost (beginCourse (rephased cn wi o s))) (beginCourse (rephased cn wi o s))
    else beginCourse (rephased cn wi o s)) := by
  unfold execStandbyRephase
  rw [if_pos hc, if_pos hp]
  rfl

theorem rephased_spec (cn : Word) (wi : BitVec 12) (o : Int) (s : State) :
    (rephased cn wi o s).red.own = s.red.own ∧ (rephased cn wi o s).loader = s.loader
      ∧ (rephased cn wi o s).course.cn = cn ∧ (rephased cn wi o s).course.wi = wi.toNat
      ∧ (rephased cn wi o s).red.phasing = (true, BitVec.ofInt 32 o, s.red.state) := by
  obtain ⟨x, y, hn⟩ := nextCourse_frame { s with course.run := false }
  unfold rephased
  rw [hn]
  exact ⟨rfl, rfl, rfl, rfl, rfl⟩

theorem RedBlk.phasing_parts {r : RedBlk} {i : Bool} {p : Word} {st : RedState} (h : r.phasing = (i, p, st)) :
    r.inStep = i ∧ r.phase = p := ⟨congrArg (fun x => x.1) h, congrArg (fun x => x.2.1) h⟩

theorem standbyRephase_spec {cn : Word} {wi : BitVec 12} {o : Int} {s : State} (hs : s.red.state = .standby)
    (hd : domUp s 3 = true) (h0 : s.red.own = 0) (h1 : s.loader.starting = none) (h2 : s.loader.stopping = none) :
    ∃ t, exec (.standbyRephase cn wi o) s = .next t ∧ t.red.phase = BitVec.ofInt 32 o
      ∧ (s.red.inStep = true → o.natAbs ≤ 5000 → t = { s with red.phase := BitVec.ofInt 32 o })
      ∧ (s.red.inStep = false ∨ 5000 < o.natAbs → t.course.cn = cn ∧ t.course.wi = wi.toNat ∧ t.red.inStep = true) := by
  have hc : (decide (s.red.state = .standby) && domUp s 3) = true := by
    rw [decide_eq_true hs, hd]
    rfl
  by_cases hp : (!s.red.inStep || decide (5000 < o.natAbs)) = true
  · have he := execStandbyRephase_off (cn := cn) (wi := wi) hc hp
    obtain ⟨hown, hload, hcn, hwi, hph⟩ := rephased_spec cn wi o s
    generalize rephased cn wi o s = u at he hown hload hcn hwi hph
    obtain ⟨hb, hbw⟩ := beginCourse_still u
    obtain ⟨hps, hpc⟩ := plansSettled_unclaimed (hown.trans h0) ((congrArg LoaderBlk.starting hload).trans h1)
      ((congrArg LoaderBlk.stopping hload).trans h2)
    obtain ⟨hc1, hc2⟩ := CourseBlk.walk_cn_wi hbw
    obtain ⟨hc3, hc4⟩ := syncLoaded_cn_wi (plansSettled u)
    obtain ⟨hin2, hph2⟩ := RedBlk.phasing_parts (
      (hb.2.1.trans ((syncLoaded_still _).2.1.trans hps.2.1)).trans hph)
    have hcn2 : (beginCourse u).course.cn = cn := hc1.trans (hc3.trans ((congrArg CourseBlk.cn hpc).trans hcn))
    have hwi2 : (beginCourse u).course.wi = wi.toNat := hc2.trans (hc4.trans ((congrArg CourseBlk.wi hpc).trans hwi))
    have hfin : ∀ t : State, t.course = (beginCourse u).course → t.red = (beginCourse u).red →
        t.red.phase = BitVec.ofInt 32 o ∧ (s.red.inStep = true → o.natAbs ≤ 5000 → t = { s with red.phase := BitVec.ofInt 32 o })
        ∧ (s.red.inStep = false ∨ 5000 < o.natAbs → t.course.cn = cn ∧ t.course.wi = wi.toNat ∧ t.red.inStep = true) := by
      intro t ht hr
      rw [ht, hr]
      refine ⟨hph2, fun hi ho => ?_, fun _ => ⟨hcn2, hwi2, hin2⟩⟩
      rw [hi, decide_eq_false (Nat.not_lt.mpr ho)] at hp
      exact absurd hp (by decide)
    refine ⟨_, he, hfin _ ?_ ?_⟩
    · split
      · exact redEvent_course _ _ _
      · rfl
    · split
      · obtain ⟨e, f, hr⟩ := redEvent_evq 7 (syncsLost (beginCourse u)) (beginCourse u)
        rw [hr]
      · rfl
  · have he : exec (.standbyRephase cn wi o) s = .next { s with red.phase := BitVec.ofInt 32 o } :=
      congrArg Host.Outcome.next ((if_pos hc).trans (if_neg hp))
    refine ⟨_, he, rfl, fun _ _ => rfl, fun h => absurd ?_ hp⟩
    rcases h with h | h
    · rw [h]
      rfl
    · rw [decide_eq_true h, Bool.or_true]

/-- Settles O50, by the boundary's frames (`beginCourse_still`) for the re-phasing. -/
theorem yieldAndSync : Obligations.YieldAndSync := by
  unfold Obligations.YieldAndSync
  refine ⟨fun req s => switchover_spec, fun c s => yieldBoundary_spec, fun req s hr => clearCounts_spec hr,
    fun st ok m s hd1 hd3 hs => ⟨stateSyncReceive_idle, fun hok h => ?_⟩, fun cn wi o s => standbyRephase_spec⟩
  rw [hok]
  exact stateSyncReceive_taken hd1 hd3 hs h

end Sys2Proof.Machine
end


section
/-! Releases, restores, RESET_LANE, FORCE_RESET and updates of safety districts (R349 to R358, O51). -/

namespace Sys2Proof.Machine

theorem safePage_done {c : Instr} {s u : State} {op r : Nat} {req : Requester} {arg : BitVec 24} {body : State → CmdEnd}
    (hr : PageReady s 0x18) (he : exec c s = .next (issueCmd 0x18 req op arg body s))
    (hb : body (takeCmd 0x18 req op arg s) = .done .ok r { u with hdrs := (takeCmd 0x18 req op arg s).hdrs }) :
    Answers c s 0x18 (hdrDone .ok r) u := answers_done hr he hb (by decide)

/-! Releases and restores (R351 to R354). -/

/-- The work of a release command. -/
def releaseBody (output : Bool) (req : Requester) (n : Nat) (s : State) : CmdEnd :=
  match s.safe.relPend with
  | some p =>
    if relLive p then
      if p.output ≠ output || p.target ≠ n then .done .state 0 s
      else if p.req = req then .done .ok 1 s
      else .done .ok 2 { s with
        safe.relPend := none
        safe.asks := s.safe.asks ++ [{ release := true, output := output, target := n, req := req }] }
    else .done .ok 1 (safeEvent 5 p.target (b2n p.output) { s with
      safe.relPend := some { req := req, output := output, target := n } })
  | none => .done .ok 1 { s with safe.relPend := some { req := req, output := output, target := n } }

theorem exec_release (output : Bool) (req : Requester) (arg : BitVec 24) (s : State) :
    exec (if output then .releaseOutput req arg else .releaseLane req arg) s = .next (releaseCmd output req arg s) := by
  cases output <;> rfl

theorem exec_restore (output : Bool) (req : Requester) (arg : BitVec 24) (s : State) :
    exec (if output then .restoreOutput req arg else .restoreLane req arg) s = .next (restoreCmd output req arg s) := by
  cases output <;> rfl

/-- A release of a target that may be released does that work. -/
theorem releaseCmd_may {output : Bool} {req : Requester} {arg : BitVec 24} {s : State} (ha : arg.toNat < 64)
    (hk : relKnown s output arg.toNat = true) (hr : relReleased s output arg.toNat = false)
    (hq : relAsked s output arg.toNat = false) (ht : relTripped s output arg.toNat = false) (hf : s.safe.forced = false)
    (hp : PageReady s 0x18) {r : Nat} {u : State}
    (hb : releaseBody output req arg.toNat (takeCmd 0x18 req (if output then 4 else 2) arg s)
      = .done .ok r { u with hdrs := (takeCmd 0x18 req (if output then 4 else 2) arg s).hdrs }) :
    Answers (if output then .releaseOutput req arg else .releaseLane req arg) s 0x18 (hdrDone .ok r) u := by
  refine safePage_done hp (exec_release output req arg s) ?_
  refine Eq.trans ?_ hb
  dsimp only
  generalize hop : (if output then 4 else 2) = op
  have h1 : relKnown (takeCmd 0x18 req op arg s) output arg.toNat = true := hk
  have h2 : relReleased (takeCmd 0x18 req op arg s) output arg.toNat = false := hr
  have h3 : relAsked (takeCmd 0x18 req op arg s) output arg.toNat = false := hq
  have h4 : relTripped (takeCmd 0x18 req op arg s) output arg.toNat = false := ht
  have h5 : (takeCmd 0x18 req op arg s).safe.forced = false := hf
  have hl : fld arg 0 6 = arg.toNat := fld_low (k := 6) ha
  have ho : argOutside arg 0x3F = false := argOutside_small 6 ha
  rw [hl, ho, h1, h2, h3, h4]
  refine (if_neg (by decide)).trans ((if_neg (by decide)).trans ((if_neg (by simp [h5])).trans ?_))
  rfl

theorem relLive_iff (p : RelPend) : relLive p = true ↔ p.age ≤ 120000 := decide_eq_true_iff

section
variable {output : Bool} {req : Requester} {n : Nat} {s : State} {q : RelPend}

theorem releaseBody_first (h : s.safe.relPend = none) : releaseBody output req n s
    = .done .ok 1 { s with safe.relPend := some { req := req, output := output, target := n } } := by
  unfold releaseBody
  rw [h]

theorem releaseBody_lapsed (h : s.safe.relPend = some q) (ha : 120000 < q.age) : releaseBody output req n s
    = .done .ok 1 (safeEvent 5 q.target (b2n q.output) { s with
        safe.relPend := some { req := req, output := output, target := n } }) := by
  unfold releaseBody
  rw [h]
  exact if_neg (fun hl => absurd ((relLive_iff q).1 hl) (by omega))

theorem releaseBody_live (h : s.safe.relPend = some q) (ha : q.age ≤ 120000) (ho : q.output = output)
    (ht : q.target = n) : releaseBody output req n s = if q.req = req then .done .ok 1 s
      else .done .ok 2 { s with
        safe.relPend := none
        safe.asks := s.safe.asks ++ [{ release := true, output := output, target := n, req := req }] } := by
  unfold releaseBody
  rw [h]
  refine (if_pos ((relLive_iff q).2 ha)).trans (if_neg ?_)
  simp [ho, ht]

end

/-- An event reads no page header. -/
theorem safeEvent_withHdrs (code target detail : Nat) (h : Tab PageHdr) (s : State) :
    safeEvent code target detail { s with hdrs := h } = { safeEvent code target detail s with hdrs := h } := by
  change raiseEv _ _ _ _ _ = { raiseEv _ _ _ _ _ with hdrs := h }
  unfold raiseEv
  change (if domUp s 3 then _ else _) = _
  by_cases hd : domUp s 3 = true
  · rw [if_pos hd, if_pos hd]
    rfl
  · rw [if_neg hd, if_neg hd]

theorem release_spec {output : Bool} {req : Requester} {arg : BitVec 24} {s : State} (hp : PageReady s 0x18)
    (ha : arg.toNat < 64) (hk : relKnown s output arg.toNat = true) (hr : relReleased s output arg.toNat = false)
    (hq : relAsked s output arg.toNat = false) (ht : relTripped s output arg.toNat = false) (hf : s.safe.forced = false) :
    let c := if output then Instr.releaseOutput req arg else .releaseLane req arg
    let n := arg.toNat
    let p : RelPend := { req := req, output := output, target := n }
    let a : RelAsk := { release := true, output := output, target := n, req := req }
    (s.safe.relPend = none → Answers c s 0x18 (hdrDone .ok 1) { s with safe.relPend := some p })
    ∧ (∀ q, s.safe.relPend = some q → 120000 < q.age →
        Answers c s 0x18 (hdrDone .ok 1) (safeEvent 5 q.target (b2n q.output) { s with safe.relPend := some p }))
    ∧ (∀ q, s.safe.relPend = some q → q.age ≤ 120000 → q.output = output → q.target = n → q.req = req →
        Answers c s 0x18 (hdrDone .ok 1) s)
    ∧ (∀ q, s.safe.relPend = some q → q.age ≤ 120000 → q.output = output → q.target = n → q.req ≠ req →
        Answers c s 0x18 (hdrDone .ok 2) { s with safe.relPend := none, safe.asks := s.safe.asks ++ [a] }) := by
  intro c n p a
  have may := fun {r : Nat} {u : State} => releaseCmd_may (req := req) (r := r) (u := u) ha hk hr hq ht hf hp
  generalize hu : takeCmd 0x18 req (if output then 4 else 2) arg s = u at may
  have hs : u = { s with hdrs := u.hdrs } := by rw [← hu]; rfl
  have hq : ∀ q, s.safe.relPend = q → u.safe.relPend = q := fun q h => by rw [hs]; exact h
  refine ⟨fun h => may ((releaseBody_first (hq _ h)).trans ?_), fun q h hage => may ((releaseBody_lapsed (hq _ h) hage).trans ?_),
    fun q h hage ho hn he => may (((releaseBody_live (hq _ h) hage ho hn).trans (if_pos he)).trans ?_),
    fun q h hage ho hn he => may (((releaseBody_live (hq _ h) hage ho hn).trans (if_neg he)).trans ?_)⟩
  · rw [hs]
  · refine congrArg (CmdEnd.done .ok 1) ?_
    refine Eq.trans ?_ (safeEvent_withHdrs 5 q.target (b2n q.output) u.hdrs { s with
      safe.relPend := some { req := req, output := output, target := arg.toNat } })
    rw [hs]
  · rw [← hs]
  · rw [hs]

theorem restore_spec {output : Bool} {req : Requester} {arg : BitVec 24} {s : State} (hp : PageReady s 0x18)
    (ha : arg.toNat < 64) (hr : relReleased s output arg.toNat = true) (hb : restoreBarred s output arg.toNat = false) :
    Answers (if output then Instr.restoreOutput req arg else .restoreLane req arg) s 0x18 (hdrDone .ok 0) { s with
      safe.asks := s.safe.asks ++ [{ release := false, output := output, target := arg.toNat, req := req }] } := by
  refine safePage_done hp (exec_restore output req arg s) ?_
  dsimp only
  generalize (if output then 5 else 3) = op
  have h2 : relReleased (takeCmd 0x18 req op arg s) output arg.toNat = true := hr
  have h3 : restoreBarred (takeCmd 0x18 req op arg s) output arg.toNat = false := hb
  have hl : fld arg 0 6 = arg.toNat := fld_low (k := 6) ha
  have ho : argOutside arg 0x3F = false := argOutside_small 6 ha
  rw [hl, ho, h2, h3]
  rfl

/-- The releases as an ask leaves them. -/
theorem applyAsk_frame (s : State) (a : RelAsk) : ∃ e f l, applyAsk s a = { s with
    evq := e, free := f, safe.lanes := l
    safe.relOut := if a.output then setBit s.safe.relOut a.target a.release else s.safe.relOut
    safe.relTl := if a.output then s.safe.relTl else setBit s.safe.relTl a.target a.release } := by
  unfold applyAsk
  dsimp only
  generalize (if a.release then 1 else 2) + (if a.output then 2 else 0) = code
  cases a.output
  · obtain ⟨e, f, h⟩ := safeEvent_eventsOnly code a.target a.req.code { s with
      safe.relTl := setBit s.safe.relTl a.target a.release
      safe.lanes := if a.release then s.safe.lanes else s.safe.lanes.upd {} a.target (fun l => { l with count := 0 }) }
    exact ⟨e, f, _, h⟩
  · obtain ⟨e, f, h⟩ := safeEvent_eventsOnly code a.target a.req.code { s with
      safe.relOut := setBit s.safe.relOut a.target a.release }
    exact ⟨e, f, _, h⟩

theorem applyAsk_spec {a : RelAsk} {s : State} (ha : a.target < 64) :
    (a.output = true → outReleased (applyAsk s a) a.target = a.release ∧ (applyAsk s a).safe.relTl = s.safe.relTl)
    ∧ (a.output = false → laneReleased (applyAsk s a) a.target = a.release
      ∧ (applyAsk s a).safe.relOut = s.safe.relOut) := by
  obtain ⟨e, f, l, h⟩ := applyAsk_frame s a
  rw [h]
  refine ⟨fun ho => ?_, fun ho => ?_⟩ <;> simp only [ho, if_true, if_false, Bool.false_eq_true] <;>
    exact ⟨bitAt_setBit_same _ ha _, trivial⟩

theorem releaseLapsed_spec {p : RelPend} {s : State} (h : s.safe.relPend = some p) (hd : domUp s 1 = true)
    (ha : 120000 ≤ p.age) : ∃ t, exec .releaseLapsed s = .next t ∧ t.safe = { s.safe with relPend := none }
      ∧ t = { s with safe := t.safe, evq := t.evq, free := t.free } := by
  have he : exec .releaseLapsed s = .next (safeEvent 5 p.target (b2n p.output) { s with safe.relPend := none }) := by
    refine congrArg Host.Outcome.next ?_
    rw [h]
    refine if_pos ?_
    rw [hd, decide_eq_true ha]
    rfl
  obtain ⟨e, f, hs⟩ := safeEvent_eventsOnly 5 p.target (b2n p.output) { s with safe.relPend := none }
  refine ⟨_, he, ?_, ?_⟩ <;> rw [hs]

/-! RESET_LANE (R355). -/

theorem below_single {m n : Nat} {p : Nat → Bool} (hn : n < m) (hp : p n = true) :
    below m (fun k => p k && decide (k = n)) = [n] := by
  have h1 : (List.range m).filter (fun k => k = n) = [n] := by
    rw [List.filter_eq, List.count_eq_one_of_mem List.nodup_range (List.mem_range.2 hn)]
    rfl
  unfold below
  rw [← List.filter_filter, h1]
  simp [hp]

theorem applyResetLane_one {n : Nat} {s : State} (hn : n < 64) (hr : resettable s n = true) :
    applyResetLane (BitVec.ofNat 24 n) s = .done .ok 1 { s with
      safe.lanes := s.safe.lanes.upd {} n (fun l => { l with tripped := false, count := 0 }) } := by
  have ht : (BitVec.ofNat 24 n).toNat = n := by
    rw [BitVec.toNat_ofNat]
    omega
  have hall : bitAt (BitVec.ofNat 24 n) 6 = false := by
    unfold bitAt
    rw [BitVec.getLsbD_ofNat]
    simp only [Nat.reduceLT, decide_true, Bool.true_and]
    exact Nat.testBit_lt_two_pow hn
  have hl : fld (BitVec.ofNat 24 n) 0 6 = n := by
    rw [fld_low (k := 6) (by omega), ht]
  unfold applyResetLane
  dsimp only
  rw [hall, hl, show below 64 (fun k => resettable s k && (false || decide (k = n))) = [n] from below_single hn hr]
  rfl

theorem resettable_of {n : Nat} {e : Entry} {s : State} (hp : planEntry s 0x20 n = some e)
    (ht : (laneGet s n).tripped = true) (hl : laneLatch e.body = true) (hi : (laneGet s n).lastInside = true)
    (hs : (laneGet s n).stale = false) : resettable s n = true := by
  unfold resettable
  rw [hp]
  change ((laneGet s n).tripped && laneLatch e.body && (laneGet s n).lastInside && !(laneGet s n).stale) = true
  rw [ht, hl, hi, hs]
  rfl

/-! FORCE_RESET (R358). -/

theorem forceReset_spec {req : Requester} {s : State} (hp : PageReady s 0x18)
    (h : s.course.faultSeen = false ∨ 4000 ≤ since s s.course.faultCn) :
    Answers (.forceReset req 0) s 0x18 (hdrDone .ok 0) { s with safe.forceReset := some req } := by
  refine safePage_done (op := 7) (arg := 0) (req := req) hp rfl ?_
  refine (if_neg (by simp)).trans (if_neg ?_)
  change ¬ (s.course.faultSeen && decide (since s s.course.faultCn < 4000)) = true
  rcases h with h | h
  · rw [h]
    exact Bool.false_ne_true
  · rw [decide_eq_false (Nat.not_lt.2 h), Bool.and_false]
    exact Bool.false_ne_true

/-- What FORCE_RESET asks for is kept. -/
abbrev AskKept (s t : State) : Prop := t.safe.forceReset = s.safe.forceReset

theorem asks_kept (l : List RelAsk) (s : State) : AskKept s (l.foldl applyAsk s) := by
  induction l generalizing s with
  | nil => rfl
  | cons a l ih =>
    obtain ⟨_, _, _, h⟩ := applyAsk_frame s a
    refine (ih (applyAsk s a)).trans ?_
    rw [h]

theorem resetLanes_kept (l : List Nat) (s : State) : AskKept s (l.foldl (fun s n =>
    { s with safe.lanes := s.safe.lanes.upd {} n (fun l => { l with tripped := false, count := 0 }) }) s) := by
  induction l generalizing s with
  | nil => rfl
  | cons n l ih => exact ih _

theorem finishCmd_kept (p : Nat) (st : CStat) (r : Nat) (s : State) : AskKept s (finishCmd p st r s) := by
  obtain ⟨_, _, _, _, _, _, _, _, _, _, h⟩ := finishCmd_gateOnly p st r s
  rw [h]

/-- The boundary's answer to a held RESET_LANE. -/
def resetLaneBoundary (s u : State) : State :=
  match (hdr s 0x18).run with
  | some r => if r.op = 6 then
      (match applyResetLane r.arg u with
        | .done st res x => finishCmd 0x18 st res x
        | .hold x => x)
    else u
  | none => u

theorem applyResetLane_kept (arg : BitVec 24) (s : State) : ∃ st r t, applyResetLane arg s = .done st r t ∧ AskKept s t := by
  unfold applyResetLane
  dsimp only
  split
  · exact ⟨_, _, _, rfl, rfl⟩
  · exact ⟨_, _, _, rfl, resetLanes_kept _ s⟩

theorem resetLaneBoundary_kept (s u : State) : AskKept u (resetLaneBoundary s u) := by
  unfold resetLaneBoundary
  split
  · next r _ =>
    split
    · obtain ⟨st, res, t, h, hk⟩ := applyResetLane_kept r.arg u
      rw [h]
      exact (finishCmd_kept _ _ _ _).trans hk
    · rfl
  · rfl

/-- The releases that the safety firmware wrote are taken. -/
def relTaken (s : State) : State :=
  match s.safe.relNext with
  | some (tl, out) => { s with safe.relTl := tl, safe.relOut := out, safe.relNext := none }
  | none => s

theorem relTaken_kept (s : State) : AskKept s (relTaken s) := by
  unfold relTaken
  split <;> rfl

/-- FORCED as an accepted FORCE_RESET leaves it. -/
def forcedCleared (s : State) : State :=
  match s.safe.forceReset with
  | some req =>
    if s.safe.forced then safeEvent 7 0 req.code { s with safe.forced := false, safe.forceReset := none }
    else { s with safe.forceReset := none }
  | none => s

theorem forcedCleared_spec {s : State} (h : s.safe.forceReset.isSome = true) :
    (forcedCleared s).safe.forced = false ∧ (forcedCleared s).safe.forceReset = none := by
  obtain ⟨req, h⟩ := Option.isSome_iff_exists.1 h
  unfold forcedCleared
  rw [h]
  dsimp only
  split
  · obtain ⟨_, _, he⟩ := safeEvent_eventsOnly 7 0 req.code { s with safe.forced := false, safe.forceReset := none }
    rw [he]
    exact ⟨rfl, rfl⟩
  · next hf => exact ⟨Bool.eq_false_iff.2 hf, rfl⟩

theorem safeBoundary_eq {s : State} (hd : domUp s 1 = true) : safeBoundary s = tripUpdate (forcedCleared
    (resetLaneBoundary ((relTaken s).safe.asks.foldl applyAsk { relTaken s with safe.asks := [] })
      ((relTaken s).safe.asks.foldl applyAsk { relTaken s with safe.asks := [] }))) := by
  unfold safeBoundary
  rw [if_pos hd]
  rfl

theorem safeBoundary_forceReset {s : State} (hd : domUp s 1 = true) (h : s.safe.forceReset.isSome = true) :
    (safeBoundary s).safe.forced = false ∧ (safeBoundary s).safe.forceReset = none := by
  have h1 : AskKept s ((relTaken s).safe.asks.foldl applyAsk { relTaken s with safe.asks := [] }) :=
    (asks_kept _ _).trans (relTaken_kept s)
  rw [safeBoundary_eq hd]
  generalize (relTaken s).safe.asks.foldl applyAsk { relTaken s with safe.asks := [] } = u at h1 ⊢
  have h2 : AskKept s (resetLaneBoundary u u) := (resetLaneBoundary_kept u u).trans h1
  obtain ⟨hf, hr⟩ := forcedCleared_spec (s := resetLaneBoundary u u) (by rw [h2]; exact h)
  obtain ⟨_, _, _, _, _, ht⟩ := tripUpdate_frame (forcedCleared (resetLaneBoundary u u))
  rw [ht]
  exact ⟨hf, hr⟩

/-! Updates of safety districts (R349). -/

theorem updateSafetyDistrict_spec {req : Requester} {arg : BitVec 24} {s : State} (hp : PageReady s 0x18)
    (ho : argOutside arg 0xF003FF = false) (hn : fld arg 20 4 < 4) (hu : (district s (fld arg 20 4)).state ≠ .updating) :
    Answers (.updateSafetyDistrict req arg) s 0x18 (hdrHeld req 1 arg)
      (updDistrict (fld arg 20 4) (fun d => { d with state := .verifying }) { s with
        loader.safeVerifying := some { op := 1, bank := argBank arg, block := argBlock arg, district := fld arg 20 4,
                                       prev := (district s (fld arg 20 4)).state } }) := by
  refine answers_hold (op := 1) (arg := arg) (req := req) hp rfl ?_
  dsimp only
  rw [if_neg]
  · exact if_neg hu
  · have h3 : ¬ 3 < fld arg 20 4 := by omega
    simp [argDistrict, ho, h3]

/-- Settles O51: a command's own work, and what each boundary stage keeps of it. -/
theorem safetyCommands : Obligations.SafetyCommands := by
  unfold Obligations.SafetyCommands
  refine ⟨fun output req arg s hp ha hk hr hq ht hf => release_spec hp ha hk hr hq ht hf,
    fun output req arg s hp ha hr hb => restore_spec hp ha hr hb, fun a s ha => applyAsk_spec ha,
    fun p s h hd ha => releaseLapsed_spec h hd ha, fun req arg s hp ha => ?_, fun n e s hn hp ht hl hi hs => ?_,
    fun req s hp h => forceReset_spec hp h, fun s hd h => safeBoundary_forceReset hd h,
    fun req arg s hp ho hn hu => updateSafetyDistrict_spec hp ho hn hu⟩
  · refine answers_hold (op := 6) (arg := arg) (req := req) hp rfl (if_neg ?_)
    rw [show argOutside arg 0x7F = false from argOutside_small 7 ha]
    exact Bool.false_ne_true
  · exact ⟨_, applyResetLane_one hn (resettable_of hp ht hl hi hs), Tab.get_upd_same _ _ _ _,
      fun k hk => Tab.get_upd_other _ _ _ hk, rfl⟩

end Sys2Proof.Machine
end


section
/-! The guards of the safety partition: watchdog, lockstep, the restart of PD1 and the ownership of its registers
(R345, R346, R356, R357, O52). -/

namespace Sys2Proof.Machine

/-! PD1 is held in reset (R356). -/

/-- An update of a safety district under verification falls with PD1. -/
def safeVerifyingDropped (s : State) : State :=
  match s.loader.safeVerifying with
  | some v => updDistrict v.district (fun d => { d with state := v.prev }) { s with loader.safeVerifying := none }
  | none => s

/-- The unit without its claim: standby of a pair, else idle. -/
def claimTaken (s : State) : State :=
  if inPair s && (claimed s || s.red.state = .standby) then becomeStandby s else becomeIdle s

/-- PD1 off and held. -/
def pd1Held (cause : Nat) (s : State) : State :=
  { s with
    sys.domOn := setBit s.sys.domOn 1 false, sys.offSeen := setBit s.sys.offSeen 1 false
    plan.entries := if domUp s 3 then s.plan.entries else []
    safe.pd1Reset := true, safe.lastCause := BitVec.ofNat 4 cause, safe.restarts := satInc s.safe.restarts
    safe.outTrip := 0, safe.outHold := 0
    red.streetA := {}, red.streetB := {} }

theorem pd1Hold_eq (cause : Nat) (s : State) : pd1Hold cause s = domEvent (pd1Held cause (claimTaken (safeVerifyingDropped s))) :=
  rfl

theorem domEvent_evq (s : State) : ∃ e f, domEvent s = { s with evq := e, free := f } := blockEv_evq _ _ _ s

/-- The blocks that losing the claim leaves alone. -/
theorem claimTaken_frame (s : State) : (claimTaken s).sys = s.sys ∧ (claimTaken s).safe = s.safe
    ∧ (claimTaken s).plan = s.plan ∧ (claimTaken s).course = s.course := by
  unfold claimTaken
  split
  · refine ⟨?_, ?_, ?_, dropClaim_course s⟩ <;>
      obtain ⟨_, _, _, _, _, _, _, _, _, _, h⟩ := becomeStandby_gateOnly s <;> rw [h]
  · refine ⟨?_, ?_, ?_, becomeIdle_course s⟩ <;>
      obtain ⟨_, _, _, _, _, _, _, _, _, _, h⟩ := becomeIdle_gateOnly s <;> rw [h]

theorem safeVerifyingDropped_frame (s : State) : ∃ l d, safeVerifyingDropped s
    = { s with loader.safeVerifying := l, plan.districts := d } := by
  unfold safeVerifyingDropped
  split
  · exact ⟨_, _, rfl⟩
  · exact ⟨_, _, rfl⟩

theorem domUp_setBit_other {w : BitVec 8} {d k : Nat} (h : k ≠ d) (v : Bool) : (setBit w d v).getLsbD k = w.getLsbD k :=
  bitAt_setBit_other w h v

/-- PD1's hold on everything but the claim. -/
theorem pd1Hold_frame (cause : Nat) (s : State) : (pd1Hold cause s).course = s.course
    ∧ (pd1Hold cause s).plan.entries = (if domUp s 3 then s.plan.entries else [])
    ∧ (pd1Hold cause s).sys.domOn = setBit s.sys.domOn 1 false ∧ (pd1Hold cause s).safe.pd1Reset = true
    ∧ (pd1Hold cause s).safe.lastCause = BitVec.ofNat 4 cause
    ∧ (pd1Hold cause s).safe.restarts = satInc s.safe.restarts ∧ (pd1Hold cause s).safe.outTrip = 0 := by
  obtain ⟨l, d, h0⟩ := safeVerifyingDropped_frame s
  obtain ⟨hsys, hsafe, hplan, hcourse⟩ := claimTaken_frame (safeVerifyingDropped s)
  rw [pd1Hold_eq]
  generalize claimTaken (safeVerifyingDropped s) = u at hsys hsafe hplan hcourse ⊢
  obtain ⟨e, f, he⟩ := domEvent_evq (pd1Held cause u)
  rw [h0] at hsys hsafe hplan hcourse
  rw [he]
  refine ⟨hcourse, ?_, ?_, rfl, rfl, ?_, rfl⟩
  · change (if domUp u 3 then u.plan.entries else []) = _
    unfold domUp
    rw [hsys, hplan]
  · change setBit u.sys.domOn 1 false = _
    rw [hsys]
  · change satInc u.safe.restarts = _
    rw [hsafe]

theorem pd1Hold_claim (cause : Nat) (s : State) : (pd1Hold cause s).red.own = 0 ∧ (pd1Hold cause s).red.gates = false
    ∧ (pd1Hold cause s).red.state
      = (if inPair s = true ∧ (s.red.own ≠ 0 ∨ s.red.state = .standby) then .standby else .idle) := by
  have h := congrArg Kept.claim (kept_pd1Hold cause s)
  generalize pd1Hold cause s = t at h
  refine ⟨congrArg (fun x => x.2.1) h, congrArg (fun x => x.1) h, (congrArg (fun x => x.2.2.2.2.1) h).trans ?_⟩
  simp only [claimed, Bool.and_eq_true, Bool.or_eq_true, decide_eq_true_eq]

theorem pd1Hold_spec (cause : Nat) (s : State) :
    (pd1Hold cause s).red.own = 0 ∧ (pd1Hold cause s).red.gates = false
      ∧ (pd1Hold cause s).red.state
        = (if inPair s = true ∧ (s.red.own ≠ 0 ∨ s.red.state = .standby) then .standby else .idle)
      ∧ domUp (pd1Hold cause s) 1 = false ∧ (pd1Hold cause s).safe.pd1Reset = true
      ∧ (pd1Hold cause s).safe.lastCause = BitVec.ofNat 4 cause
      ∧ (pd1Hold cause s).safe.restarts = satInc s.safe.restarts ∧ (pd1Hold cause s).safe.outTrip = 0
      ∧ (∀ d, d ≠ 1 → d < 8 → domUp (pd1Hold cause s) d = domUp s d)
      ∧ (pd1Hold cause s).course = s.course
      ∧ (pd1Hold cause s).plan.entries = if domUp s 3 then s.plan.entries else [] := by
  obtain ⟨hown, hgates, hstate⟩ := pd1Hold_claim cause s
  obtain ⟨hc, hp, hd, hr, hl, hn, ho⟩ := pd1Hold_frame cause s
  refine ⟨hown, hgates, hstate, ?_, hr, hl, hn, ho, fun d h _ => ?_, hc, hp⟩ <;> unfold domUp <;> rw [hd]
  · exact bitAt_setBit_same _ (by decide) _
  · exact domUp_setBit_other h _

/-! PD1 restarts (R357). -/

/-- PD1's blocks as it comes up, before the matrix and the peer are judged. -/
def pd1Fresh (s : State) : State :=
  clearHdrs 1 { s with
    sys.domOn := setBit s.sys.domOn 1 true
    safe := { lastCause := s.safe.lastCause, restarts := s.safe.restarts, key := s.safe.key }
    red := { state := s.red.state, role := s.red.role, own := s.red.own, peer := s.red.peer, claimLine := s.red.claimLine
             gates := s.red.gates, slots := s.red.slots, conflict := s.red.roleConflict
             roleConflict := s.red.roleConflict, strapFault := s.red.strapFault, takeCount := s.red.takeCount
             takeCause := s.red.takeCause, takeCn := s.red.takeCn, flt := s.red.flt, peerEpoch := s.red.peerEpoch
             frameSent := s.red.frameSent }
    sync := {} }

theorem claimConfig_frame (s : State) : ∃ c n, claimConfig s = { s with red.cfg := c, red.peerSn := n } := by
  unfold claimConfig
  dsimp only
  split
  · exact ⟨_, _, rfl⟩
  · exact ⟨_, _, rfl⟩

theorem startElection_frame (s : State) : ∃ x y z, startElection s
    = { s with red.state := x, red.election := y, red.strapFault := z } := by
  unfold startElection
  split
  · exact ⟨_, _, _, rfl⟩
  · split
    · exact ⟨_, _, _, rfl⟩
    · split
      · exact ⟨_, _, _, rfl⟩
      · split <;> exact ⟨_, _, _, rfl⟩

/-- What PD1's restart leaves of the state as PD1 comes up. -/
structure Risen (s t : State) : Prop where
  sys : t.sys = s.sys
  course : t.course = s.course
  plan : t.plan = s.plan
  lanes : t.safe.lanes = s.safe.lanes
  held : t.safe.pd1Reset = s.safe.pd1Reset
  forced : t.safe.forced = s.safe.forced
  relTl : t.safe.relTl = s.safe.relTl
  relOut : t.safe.relOut = s.safe.relOut
  relPend : t.safe.relPend = s.safe.relPend
  lastCause : t.safe.lastCause = s.safe.lastCause
  restarts : t.safe.restarts = s.safe.restarts
  key : t.safe.key = s.safe.key
  own : t.red.own = s.red.own
  gates : t.red.gates = s.red.gates
  role : t.red.role = s.red.role

theorem Risen.refl (s : State) : Risen s s := ⟨rfl, rfl, rfl, rfl, rfl, rfl, rfl, rfl, rfl, rfl, rfl, rfl, rfl, rfl, rfl⟩

/-- Steps that change other fields only. -/
theorem Risen.then_frame {s t u : State} (h : Risen s t) (k : Risen t u) : Risen s u :=
  ⟨k.sys.trans h.sys, k.course.trans h.course, k.plan.trans h.plan, k.lanes.trans h.lanes, k.held.trans h.held,
    k.forced.trans h.forced, k.relTl.trans h.relTl, k.relOut.trans h.relOut, k.relPend.trans h.relPend,
    k.lastCause.trans h.lastCause, k.restarts.trans h.restarts, k.key.trans h.key, k.own.trans h.own,
    k.gates.trans h.gates, k.role.trans h.role⟩

theorem Risen.of_events {s t : State} (h : ∃ e f, t = { s with evq := e, free := f }) : Risen s t := by
  obtain ⟨e, f, rfl⟩ := h
  exact ⟨rfl, rfl, rfl, rfl, rfl, rfl, rfl, rfl, rfl, rfl, rfl, rfl, rfl, rfl, rfl⟩

theorem tripUpdate_risen (s : State) : Risen s (tripUpdate s) := by
  obtain ⟨_, _, _, _, _, h⟩ := tripUpdate_frame s
  rw [h]
  exact ⟨rfl, rfl, rfl, rfl, rfl, rfl, rfl, rfl, rfl, rfl, rfl, rfl, rfl, rfl, rfl⟩

theorem claimConfig_risen (s : State) : Risen s (claimConfig s) := by
  obtain ⟨_, _, h⟩ := claimConfig_frame s
  rw [h]
  exact ⟨rfl, rfl, rfl, rfl, rfl, rfl, rfl, rfl, rfl, rfl, rfl, rfl, rfl, rfl, rfl⟩

theorem judgePeerLost_risen (s : State) : Risen s (judgePeerLost s) := by
  obtain ⟨_, _, _, h⟩ := judgePeerLost_frame s
  rw [h]
  exact ⟨rfl, rfl, rfl, rfl, rfl, rfl, rfl, rfl, rfl, rfl, rfl, rfl, rfl, rfl, rfl⟩

theorem startElection_risen (s : State) : Risen s (startElection s) := by
  obtain ⟨_, _, _, h⟩ := startElection_frame s
  rw [h]
  exact ⟨rfl, rfl, rfl, rfl, rfl, rfl, rfl, rfl, rfl, rfl, rfl, rfl, rfl, rfl, rfl⟩

theorem pd1Up_risen (s : State) : Risen (pd1Fresh s) (pd1Up s) :=
  ((tripUpdate_risen (pd1Fresh s)).then_frame (claimConfig_risen _)).then_frame (judgePeerLost_risen _)

theorem execPd1Restart_risen {s : State} (h : s.safe.pd1Reset = true) :
    ∃ t, exec .pd1Restart s = .next t ∧ Risen (pd1Fresh s) t :=
  ⟨_, congrArg Host.Outcome.next (if_pos h), (((pd1Up_risen s).then_frame (.of_events (domEvent_evq _))).then_frame
    (startElection_risen _)).then_frame (.of_events (safeEvent_eventsOnly _ _ _ _))⟩

theorem pd1Restart_spec {s : State} (h : s.safe.pd1Reset = true) :
    ∃ t, exec .pd1Restart s = .next t ∧ domUp t 1 = true ∧ t.safe.pd1Reset = false ∧ t.safe.forced = false
      ∧ t.safe.relTl = 0 ∧ t.safe.relOut = 0 ∧ t.safe.relPend = none ∧ (∀ n, (laneGet t n).fault = false)
      ∧ t.safe.lastCause = s.safe.lastCause ∧ t.safe.restarts = s.safe.restarts ∧ t.safe.key = s.safe.key
      ∧ t.red.own = s.red.own ∧ t.red.gates = s.red.gates ∧ t.red.role = s.red.role
      ∧ (∀ d, d ≠ 1 → d < 8 → domUp t d = domUp s d) ∧ t.course = s.course ∧ t.plan.entries = s.plan.entries := by
  obtain ⟨t, he, hr⟩ := execPd1Restart_risen h
  have hd : t.sys.domOn = setBit s.sys.domOn 1 true := congrArg SysBlk.domOn hr.sys
  refine ⟨t, he, ?_, hr.held, hr.forced, hr.relTl, hr.relOut, hr.relPend, fun n => ?_, hr.lastCause, hr.restarts, hr.key,
    hr.own, hr.gates, hr.role, fun d hd1 _ => ?_, hr.course, congrArg PlanBlk.entries hr.plan⟩
  · unfold domUp
    rw [hd]
    exact bitAt_setBit_same _ (by decide) _
  · unfold laneGet
    rw [hr.lanes]
    rfl
  · unfold domUp
    rw [hd]
    exact domUp_setBit_other hd1 _

/-! Ownership (R345, R346). -/

theorem safetyOwned_safe {off : Nat} (h1 : 0x100 ≤ off) (h2 : off < 0x140) : safetyOwned 0x18 off = true := by
  simp [safetyOwned, h1, h2]

theorem pageTakes_safe_up {s : State} (h : PageTakes s 0x18) : domUp s 1 = true := by
  obtain ⟨d, hd, ht⟩ := h
  have h1 : pageDom s 0x18 = some 1 := rfl
  obtain rfl : 1 = d := Option.some.inj (h1.symm.trans hd)
  unfold domTakes at ht
  exact (Bool.and_eq_true _ _ ▸ ht).1

theorem busWrite_owned {req : Requester} {off : Nat} {v : Word} {s : State} (hr : req ≠ .safe) (h1 : 0x100 ≤ off)
    (h2 : off < 0x140) (ha : off % 4 = 0) (ht : PageTakes s 0x18) :
    busWrite req (0x40018000 + off) 4 v s = accessViolation 0x18 off req v s := by
  obtain ⟨d, hd, hd'⟩ := ht
  have e1 : (0x40018000 + off - 0x40000000) / 0x1000 = 0x18 := by omega
  have e2 : (0x40018000 + off) % 0x1000 = off := by omega
  unfold busWrite
  rw [if_pos (by omega), if_pos (by omega), if_pos (by omega), e1, e2]
  unfold pageAccess
  simp [hd, hd', safetyOwned_safe h1 h2, hr]

/-- The violation is noted. -/
def violationNoted (off : Nat) (req : Requester) (s : State) : State :=
  { setSticky 0x18 0 s with
    safe.accReq := BitVec.ofNat 8 req.code, safe.accPage := 0x18
    safe.accOff := BitVec.ofNat 12 off, safe.accCnt := satInc s.safe.accCnt }

theorem accessViolation_up {off : Nat} {req : Requester} {v : Word} {s : State} (hd : domUp s 1 = true) :
    accessViolation 0x18 off req v s = raiseEv 4 1 0x18 (BitVec.ofNat 96 (off + req.code * 2 ^ 24 + v.toNat * 2 ^ 32))
      (violationNoted off req s) := by
  unfold accessViolation
  dsimp only
  rw [if_pos (show domUp s 1 = true from hd)]
  rfl

theorem accessViolation_spec {req : Requester} {off : Nat} {v : Word} {s : State} (hr : req ≠ .safe) (h1 : 0x100 ≤ off)
    (h2 : off < 0x140) (ha : off % 4 = 0) (ht : PageTakes s 0x18) :
    ∃ t, exec (.registerWrite req (BitVec.ofNat 32 (0x40018000 + off)) 2 v) s = .next t
      ∧ hdr t 0x18 = hdrSticky 0 (hdr s 0x18) ∧ (∀ q, q ≠ 0x18 → hdr t q = hdr s q)
      ∧ t.safe.accReq = BitVec.ofNat 8 req.code ∧ t.safe.accPage = 0x18 ∧ t.safe.accOff = BitVec.ofNat 12 off
      ∧ t.safe.accCnt = satInc s.safe.accCnt
      ∧ t.safe = { s.safe with accReq := t.safe.accReq, accPage := 0x18, accOff := t.safe.accOff, accCnt := t.safe.accCnt }
      ∧ Raised s t 4 1 0x18 (off + req.code * 2 ^ 24 + v.toNat * 2 ^ 32)
      ∧ t = { s with hdrs := t.hdrs, safe := t.safe, evq := t.evq, free := t.free } := by
  have hn : (BitVec.ofNat 32 (0x40018000 + off)).toNat = 0x40018000 + off := by
    rw [BitVec.toNat_ofNat]
    omega
  have he : exec (.registerWrite req (BitVec.ofNat 32 (0x40018000 + off)) 2 v) s
      = .next (accessViolation 0x18 off req v s) := by
    refine congrArg Host.Outcome.next ?_
    rw [hn]
    exact busWrite_owned hr h1 h2 ha ht
  rw [accessViolation_up (pageTakes_safe_up ht)] at he
  obtain ⟨e, f, hev⟩ := raiseEv_evq 4 1 0x18 (BitVec.ofNat 96 (off + req.code * 2 ^ 24 + v.toNat * 2 ^ 32))
    (violationNoted off req s)
  refine ⟨_, he, ?_, fun q hq => ?_, ?_, ?_, ?_, ?_, ?_, fun hup => ?_, ?_⟩
  · rw [hev]
    exact hdr_setSticky_same 0x18 0 s
  · rw [hev]
    exact hdr_setSticky_other 0x18 0 s hq
  · rw [hev]
    rfl
  · rw [hev]
    rfl
  · rw [hev]
    rfl
  · rw [hev]
    rfl
  · rw [hev]
    rfl
  · obtain ⟨x, hx⟩ := raiseEv_raised 4 1 0x18 (BitVec.ofNat 96 (off + req.code * 2 ^ 24 + v.toNat * 2 ^ 32))
      (violationNoted off req s) hup
    rw [BitVec.ofNat_toNat, BitVec.setWidth_eq] at hx
    exact ⟨x, hx⟩
  · rw [hev]
    rfl

/-- Settles O52: the claim from `kept_pd1Hold`, the rest from the frames of the stages of PD1's hold and restart. -/
theorem partitionGuards : Obligations.PartitionGuards := by
  unfold Obligations.PartitionGuards
  refine ⟨fun s hd => congrArg Host.Outcome.next (if_pos hd), fun c cause s hd h => ?_, fun s hu => ?_,
    fun s h => pd1Restart_spec h, fun req off v s hr h1 h2 ha ht => accessViolation_spec hr h1 h2 ha ht⟩
  · rcases h with ⟨rfl, rfl, hu⟩ | ⟨rfl, rfl⟩
    · refine ⟨pd1Hold 1 s, congrArg Host.Outcome.next (if_pos ?_), pd1Hold_spec 1 s⟩
      rw [hd, decide_eq_true hu]
      rfl
    · exact ⟨pd1Hold 2 s, congrArg Host.Outcome.next (if_pos hd), pd1Hold_spec 2 s⟩
  · refine congrArg Host.Outcome.next (if_neg ?_)
    rw [decide_eq_false (Nat.not_le.2 hu), Bool.and_false]
    exact Bool.false_ne_true

end Sys2Proof.Machine
end


section
/-! Ranges of a byte memory, and little-endian numbers in it. -/

namespace Sys2Proof

theorem leBytes_length (n : Nat) : ∀ v, (leBytes n v).length = n := by
  induction n with
  | zero => exact fun _ => rfl
  | succ n ih => exact fun v => congrArg (· + 1) (ih (v / 256))

theorem leNat_leBytes (n : Nat) : ∀ v, leNat (leBytes n v) = v % 256 ^ n := by
  induction n with
  | zero => exact fun v => (Nat.mod_one v).symm
  | succ n ih =>
    intro v
    have e : 256 ^ (n + 1) = 256 * 256 ^ n := Nat.pow_succ'
    simp only [leBytes, leNat, ih, BitVec.toNat_ofNat]
    rw [e, Nat.mod_mul]

theorem Mem.readN_congr {d : Byte} {m k : Mem} (n : Nat) : ∀ a, (∀ i, a ≤ i → i < a + n → m.read d i = k.read d i) →
    m.readN d a n = k.readN d a n := by
  induction n with
  | zero => exact fun _ _ => rfl
  | succ n ih =>
    intro a h
    simp only [Mem.readN]
    rw [h a (by omega) (by omega), ih (a + 1) fun i h1 h2 => h i (by omega) (by omega)]

/-- A write apart from the range read. -/
theorem Mem.readN_writeN_apart {d : Byte} {m : Mem} {a c n : Nat} {l : List Byte} (h : c + n ≤ a ∨ a + l.length ≤ c) :
    (m.writeN d a l).readN d c n = m.readN d c n :=
  Mem.readN_congr n c fun i h1 h2 => Mem.read_writeN_other l (by omega)

theorem Mem.writeN_append (d : Byte) (l k : List Byte) : ∀ (m : Mem) (a : Nat),
    m.writeN d a (l ++ k) = (m.writeN d a l).writeN d (a + l.length) k := by
  induction l with
  | nil => exact fun _ _ => rfl
  | cons b l ih =>
    intro m a
    simp only [List.cons_append, Mem.writeN, ih, List.length_cons]
    rw [show a + 1 + l.length = a + (l.length + 1) by omega]

/-- The first bytes of a write, whatever follows them. -/
theorem Mem.readN_writeN_first {d : Byte} {m : Mem} (h : m.wf d = true) (a : Nat) (l k : List Byte) :
    (m.writeN d a (l ++ k)).readN d a l.length = l := by
  rw [Mem.writeN_append, Mem.readN_writeN_apart (.inl (Nat.le_refl _)), Mem.readN_writeN l a h]

/-- The last bytes of a write. -/
theorem Mem.readN_writeN_last {d : Byte} {m : Mem} (h : m.wf d = true) (a : Nat) (l k : List Byte) :
    (m.writeN d a (l ++ k)).readN d (a + l.length) k.length = k := by
  rw [Mem.writeN_append, Mem.readN_writeN k _ (Mem.writeN_wf l a h)]

/-- A number written reads back, whatever follows it. -/
theorem Mem.leNat_writeN {d : Byte} {m : Mem} (h : m.wf d = true) (a n v : Nat) (k : List Byte) :
    leNat ((m.writeN d a (leBytes n v ++ k)).readN d a n) = v % 256 ^ n := by
  have e := Mem.readN_writeN_first h a (leBytes n v) k
  rw [leBytes_length] at e
  rw [e, leNat_leBytes]

end Sys2Proof
end

section
/-! Ethernet ports: frames, descriptor rings, registers and links (R364 to R369, R389, O53). -/

namespace Sys2Proof.Machine

/-! Ports. -/

@[simp] theorem ethGet_updEth_same (p : Nat) (f : EthBlk → EthBlk) (s : State) : ethGet (updEth p f s) p = f (ethGet s p) :=
  Tab.get_upd_same _ _ _ _

theorem ethGet_updEth_other {p k : Nat} (h : k ≠ p) (f : EthBlk → EthBlk) (s : State) :
    ethGet (updEth p f s) k = ethGet s k := Tab.get_upd_other _ _ _ h

theorem ringGet_updRing_same (p q : Nat) (f : EthRing → EthRing) (s : State) :
    ringGet (updRing p q f s) p q = f (ringGet s p q) := by
  unfold ringGet updRing
  rw [ethGet_updEth_same]
  exact Tab.get_upd_same _ _ _ _

theorem cnt_ethCount_same (p j : Nat) (s : State) :
    (ethGet (ethCount p j s) p).cnt.get 0 j = satInc ((ethGet s p).cnt.get 0 j) := by
  unfold ethCount
  rw [ethGet_updEth_same]
  exact Tab.get_upd_same _ _ _ _

/-- A port takes frames: PD7 up, EN set. -/
theorem ethEnabled {p : Nat} {s : State} (hd : domUp s 7 = true) (he : bitAt (ethGet s p).cfg 31 = true) :
    (domUp s 7 && bitAt (ethGet s p).cfg 31) = true := by
  rw [hd, he]
  rfl

/-! Receiving (R365 to R368). -/

section
variable {p : Fin 2} {f : EthFrame} {s : State}

theorem ethFrameReceive_badFcs (hd : domUp s 7 = true) (he : bitAt (ethGet s p.val).cfg 31 = true) (hf : f.fcsOk = false) :
    exec (.ethFrameReceive p f) s = .next (ethCount p.val 2 s) := by
  refine congrArg Host.Outcome.next ((if_pos (ethEnabled hd he)).trans (if_pos ?_))
  rw [hf]
  rfl

theorem ethFrameReceive_badLength (hd : domUp s 7 = true) (he : bitAt (ethGet s p.val).cfg 31 = true)
    (hf : f.fcsOk = true) (hl : wireLen s f.bytes < 64 ∨ 1522 < wireLen s f.bytes) :
    exec (.ethFrameReceive p f) s = .next (ethCount p.val 3 s) := by
  refine congrArg Host.Outcome.next ((if_pos (ethEnabled hd he)).trans ((if_neg ?_).trans (if_pos ?_)))
  · rw [hf]
    decide
  · rw [Bool.or_eq_true, decide_eq_true_eq, decide_eq_true_eq]
    exact hl

theorem ethFrameReceive_whole (hd : domUp s 7 = true) (he : bitAt (ethGet s p.val).cfg 31 = true)
    (hf : f.fcsOk = true) (h1 : 64 ≤ wireLen s f.bytes) (h2 : wireLen s f.bytes ≤ 1522) :
    exec (.ethFrameReceive p f) s = .next (ethAccept (if prpOn s then 0 else p.val) p.val f.bytes s) := by
  refine congrArg Host.Outcome.next ((if_pos (ethEnabled hd he)).trans ((if_neg ?_).trans (if_neg ?_)))
  · rw [hf]
    decide
  · rw [Bool.or_eq_true, decide_eq_true_eq, decide_eq_true_eq]
    omega

end

theorem wireLen_plain {s : State} (hp : prpOn s = false) (b : List Byte) : wireLen s b = b.length + 4 := by
  unfold wireLen
  rw [hp]
  rfl

theorem ethAccept_other {p on : Nat} {b : List Byte} {s : State} (h : frForUs (ethGet s p) b = false) :
    ethAccept p on b s = s := by
  refine if_pos ?_
  rw [h, Bool.not_false, Bool.or_true]

/-- A frame for this node that carries no tag is not judged by its VID. -/
theorem ethAccept_untagged {p on : Nat} {b : List Byte} {s : State} (ht : frType b ≠ 0x8808)
    (hu : frForUs (ethGet s p) b = true) (hg : frTagged b = false) :
    ethAccept p on b s = if prpOn s then
      match frTrailer b with
      | some (seq, lan) =>
        let s1 := if lan = portLan on then s else ethCount 0 7 s
        if s1.prp.table.contains (frSrc b, seq) then ethCount 0 6 s1
        else ethDeliver p (frQueue (ethGet s p) b) (on = 1) b (prpNote (frSrc b) seq s1)
      | none => ethDeliver p (frQueue (ethGet s p) b) (on = 1) b s
    else ethDeliver p (frQueue (ethGet s p) b) false b s := by
  unfold ethAccept
  dsimp only
  rw [decide_eq_false ht, hu, hg]
  rfl

theorem ethAccept_duplicate {on : Nat} {b : List Byte} {s : State} {seq : Half} {lan : Nat} (ht : frType b ≠ 0x8808)
    (hu : frForUs (ethGet s 0) b = true) (hg : frTagged b = false) (hp : prpOn s = true)
    (hr : frTrailer b = some (seq, lan)) (hl : lan = portLan on) (hc : s.prp.table.contains (frSrc b, seq) = true) :
    ethAccept 0 on b s = ethCount 0 6 s := by
  rw [ethAccept_untagged ht hu hg, if_pos hp, hr]
  dsimp only
  rw [if_pos hl]
  exact if_pos hc

/-- Length on the wire of a frame with a trailer. -/
theorem wireLen_trailer {s : State} {b : List Byte} (hp : prpOn s = true) (hr : (frTrailer b).isSome = true) :
    wireLen s b = b.length + 4 - 6 := by
  unfold wireLen
  rw [hp, hr]
  rfl

/-! Delivery to a ring (R367). -/

theorem descReady_inRam {s : State} {r : EthRing} (h : descReady s r = true) : inRam (descAt r r.head.toNat) 16 = true := by
  unfold descReady at h
  simp only [Bool.and_eq_true] at h
  obtain ⟨⟨_, h⟩, _⟩ := h
  exact h

theorem inRam_part {a n c k : Nat} (h : inRam a n = true) (h1 : a ≤ c) (h2 : c + k ≤ a + n) : inRam c k = true := by
  unfold inRam at h ⊢
  simp only [Bool.or_eq_true, Bool.and_eq_true, decide_eq_true_eq] at h ⊢
  omega

theorem dmaWrite_inRam {a : Nat} {l : List Byte} {s : State} (h : inRam a l.length = true) :
    dmaWrite a l s = { s with mem.main := s.mem.main.writeN 0 a l } := if_pos h

/-- Memory after a frame's bytes and its descriptor's length and flags. -/
def deliveredMem (m : Mem) (buf d : Nat) (b : List Byte) : Mem :=
  (m.writeN 0 buf b).writeN 0 (d + 4) (leBytes 2 b.length ++ leBytes 2 0)

/-- The descriptor processed: HEAD moves, the port's count and sticky bit. -/
def ringDone (p q j bit : Nat) (m : Mem) (s : State) : State :=
  setSticky (ethPage p) bit (ethCount p j (updRing p q (fun r => { r with head := ringNext r r.head })
    { s with mem.main := m, free := s.free + 1 }))

theorem ethDeliver_plain {p q : Nat} {b : List Byte} {s : State} (hg : frTagged b = false) (hv : frPtpEvent b = false)
    (hr : descReady s (ringGet s p q) = true)
    (hl : b.length ≤ leNat (ramRead s (descAt (ringGet s p q) (ringGet s p q).head.toNat + 4) 2))
    (hb : inRam (leNat (ramRead s (descAt (ringGet s p q) (ringGet s p q).head.toNat) 4)) b.length = true) :
    ethDeliver p q false b s = ringDone p q 0 8 (deliveredMem s.mem.main
      (leNat (ramRead s (descAt (ringGet s p q) (ringGet s p q).head.toNat) 4))
      (descAt (ringGet s p q) (ringGet s p q).head.toNat) b) s := by
  have hd := descReady_inRam hr
  unfold ethDeliver
  dsimp only
  generalize hrg : ringGet s p q = r at hr hl hb hd ⊢
  generalize hda : descAt r r.head.toNat = d at hl hb hd ⊢
  have hstrip : (frTagged b && bitAt (ethGet s p).cfg 27) = false := by
    rw [hg]
    rfl
  have hfl : inRam (d + 4) (leBytes 2 b.length ++ leBytes 2 0).length = true :=
    inRam_part (k := (leBytes 2 b.length ++ leBytes 2 0).length) hd (by omega)
      (by rw [List.length_append, leBytes_length, leBytes_length]; omega)
  rw [hr, hv, hstrip]
  refine (if_neg (by decide)).trans ((if_neg (Nat.not_lt.2 hl)).trans ?_)
  simp only [Bool.false_eq_true, if_false, b2n, Nat.mul_zero, Nat.add_zero, List.append_nil]
  rw [dmaWrite_inRam hb, dmaWrite_inRam hfl]
  rfl

theorem ringDone_spec {p : Fin 2} (q j bit : Nat) (hbit : bit < 32) (m : Mem) (s : State) :
    (ringDone p.val q j bit m s).mem.main = m
    ∧ ringGet (ringDone p.val q j bit m s) p.val q
      = { ringGet s p.val q with head := ringNext (ringGet s p.val q) (ringGet s p.val q).head }
    ∧ (ethGet (ringDone p.val q j bit m s) p.val).cnt.get 0 j = satInc ((ethGet s p.val).cnt.get 0 j)
    ∧ (ethGet (ringDone p.val q j bit m s) p.val).sent = (ethGet s p.val).sent
    ∧ bitAt (hdr (ringDone p.val q j bit m s) (0x3C + p.val)).sticky bit = true
    ∧ (∀ k, k ≠ p.val → ethGet (ringDone p.val q j bit m s) k = ethGet s k)
    ∧ ∃ e h f, ringDone p.val q j bit m s = { s with mem.main := m, eths := e, hdrs := h, free := f } := by
  refine ⟨rfl, ?_, ?_, ?_, ?_, fun k hk => ?_, ⟨_, _, _, rfl⟩⟩
  · change ringGet (ethCount p.val j _) p.val q = _
    unfold ethCount ringGet
    rw [ethGet_updEth_same]
    exact ringGet_updRing_same p.val q _ { s with mem.main := m, free := s.free + 1 }
  · refine (cnt_ethCount_same p.val j _).trans ?_
    unfold updRing
    rw [ethGet_updEth_same]
    rfl
  · change (ethGet (ethCount p.val j _) p.val).sent = _
    unfold ethCount updRing
    rw [ethGet_updEth_same, ethGet_updEth_same]
    rfl
  · exact (congrArg (fun h : PageHdr => bitAt h.sticky bit) (hdr_setSticky_same (ethPage p.val) bit _)).trans
      (sticky_set _ hbit)
  · change ethGet (ethCount p.val j _) k = _
    unfold ethCount updRing
    rw [ethGet_updEth_other hk, ethGet_updEth_other hk]
    rfl

/-- The frame's bytes lie in its buffer, and its length and flags in the descriptor. -/
theorem deliveredMem_spec {m : Mem} {buf d : Nat} {b : List Byte} (hw : m.wf 0 = true) (hb : b.length < 65536)
    (ha : buf + b.length ≤ d ∨ d + 16 ≤ buf) :
    (deliveredMem m buf d b).readN 0 buf b.length = b
    ∧ leNat ((deliveredMem m buf d b).readN 0 (d + 4) 2) = b.length
    ∧ leNat ((deliveredMem m buf d b).readN 0 (d + 6) 2) = 0
    ∧ ∀ a, (a < buf ∨ buf + b.length ≤ a) → (a < d + 4 ∨ d + 8 ≤ a) → (deliveredMem m buf d b).read 0 a = m.read 0 a := by
  have hlen : (leBytes 2 b.length ++ leBytes 2 0).length = 4 := by
    rw [List.length_append, leBytes_length, leBytes_length]
  have hw1 : (m.writeN 0 buf b).wf 0 = true := Mem.writeN_wf b buf hw
  refine ⟨?_, ?_, ?_, fun a h1 h2 => ?_⟩ <;> unfold deliveredMem
  · rw [Mem.readN_writeN_apart (by omega), Mem.readN_writeN b buf hw]
  · rw [Mem.leNat_writeN hw1]
    exact Nat.mod_eq_of_lt hb
  · have e := Mem.readN_writeN_last hw1 (d + 4) (leBytes 2 b.length) (leBytes 2 0)
    rw [leBytes_length, leBytes_length] at e
    rw [show d + 6 = d + 4 + 2 from rfl, e, leNat_leBytes]
    rfl
  · rw [Mem.read_writeN_other _ (by omega), Mem.read_writeN_other b (by omega)]

theorem ethFrameReceive_delivers {p : Fin 2} {f : EthFrame} {s : State} (hd : domUp s 7 = true)
    (he : bitAt (ethGet s p.val).cfg 31 = true) (hf : f.fcsOk = true) (hp : prpOn s = false) (h1 : 60 ≤ f.bytes.length)
    (h2 : f.bytes.length ≤ 1518) (ht : frType f.bytes ≠ 0x8808) (hu : frForUs (ethGet s p.val) f.bytes = true)
    (hg : frTagged f.bytes = false) (hv : frPtpEvent f.bytes = false) (hw : s.mem.main.wf 0 = true) :
    let e := ethGet s p.val
    let b := f.bytes
    let q := frQueue e b
    let r := ringGet s p.val q
    let d := descAt r r.head.toNat
    let buf := leNat (ramRead s d 4)
    descReady s r = true → b.length ≤ leNat (ramRead s (d + 4) 2) → inRam buf b.length = true →
    buf + b.length ≤ d ∨ d + 16 ≤ buf →
    ∃ t, exec (.ethFrameReceive p f) s = .next t ∧ ramRead t buf b.length = b
      ∧ leNat (ramRead t (d + 4) 2) = b.length ∧ leNat (ramRead t (d + 6) 2) = 0
      ∧ (∀ a, (a < buf ∨ buf + b.length ≤ a) → (a < d + 4 ∨ d + 8 ≤ a) → t.mem.main.read 0 a = s.mem.main.read 0 a)
      ∧ ringGet t p.val q = { r with head := ringNext r r.head }
      ∧ (ethGet t p.val).cnt.get 0 0 = satInc (e.cnt.get 0 0) ∧ bitAt (hdr t (0x3C + p.val)).sticky 8 = true
      ∧ (∀ k, k ≠ p.val → ethGet t k = ethGet s k)
      ∧ t = { s with mem.main := t.mem.main, eths := t.eths, hdrs := t.hdrs, free := t.free } := by
  intro e b q r d buf hr hl hb ha
  have hx : exec (.ethFrameReceive p f) s = .next (ringDone p.val q 0 8 (deliveredMem s.mem.main buf d b) s) := by
    rw [ethFrameReceive_whole hd he hf (by rw [wireLen_plain hp]; omega) (by rw [wireLen_plain hp]; omega), hp]
    refine congrArg Host.Outcome.next ?_
    refine (ethAccept_untagged ht hu hg).trans ?_
    rw [hp]
    exact ethDeliver_plain hg hv hr hl hb
  obtain ⟨hm, hring, hcnt, -, hst, hoth, _, _, _, hfr⟩ := ringDone_spec (p := p) q 0 8 (by decide)
    (deliveredMem s.mem.main buf d b) s
  obtain ⟨hbytes, hlen, hflags, hrest⟩ := deliveredMem_spec (d := d) hw
    (show f.bytes.length < 65536 by omega) ha
  refine ⟨_, hx, ?_, ?_, ?_, fun a h3 h4 => ?_, hring, hcnt, hst, hoth, ?_⟩
  · unfold ramRead
    rw [hm]
    exact hbytes
  · unfold ramRead
    rw [hm]
    exact hlen
  · unfold ramRead
    rw [hm]
    exact hflags
  · rw [hm]
    exact hrest a h3 h4
  · rw [hfr]

/-! Sending (R366, R367). -/

/-- What is written back of a descriptor that has been sent: OWN clear, and the time where it was asked for. -/
def sentBack (s : State) (d : Nat) : List Byte :=
  leBytes 2 (leNat (ramRead s (d + 6) 2) % 32768)
    ++ (if leNat (ramRead s (d + 6) 2) / 16384 % 2 = 1 then leBytes 8 (ptpStamp s).toNat else [])

theorem sentBack_length (s : State) (d : Nat) : 2 ≤ (sentBack s d).length ∧ (sentBack s d).length ≤ 10 := by
  unfold sentBack
  split <;> simp [leBytes_length]

/-- The frame of a descriptor. -/
def descFrame (s : State) (d : Nat) : List Byte := ramRead s (leNat (ramRead s d 4)) (leNat (ramRead s (d + 4) 2))

theorem ethSend_plain {p : Nat} {b : List Byte} {s : State} (hp : prpOn s = false)
    (he : bitAt (ethGet s p).cfg 31 = true) : ethSend p b s = putWire p b s := by
  unfold ethSend
  dsimp only
  rw [hp]
  exact (if_neg Bool.false_ne_true).trans (if_pos he)

theorem exec_ethFrameTransmit {p : Fin 2} {q : Nat} {s : State} (hd : domUp s 7 = true)
    (he : bitAt (ethGet s p.val).cfg 31 = true) (hp : prpOn s = false)
    (hq : [8, 7, 6, 5].find? (fun q => descReady s (ringGet s p.val q)) = some q) {d : Nat}
    (hda : descAt (ringGet s p.val q) (ringGet s p.val q).head.toNat = d) :
    exec (.ethFrameTransmit p) s = .next (ringDone p.val q 1 9 (s.mem.main.writeN 0 (d + 6) (sentBack s d))
      (putWire p.val (descFrame s d) s)) := by
  have hr : descReady s (ringGet s p.val q) = true := List.find?_some (p := fun q => descReady s (ringGet s p.val q)) hq
  have hin := descReady_inRam hr
  rw [hda] at hin
  have hlen := sentBack_length s d
  have hw : inRam (d + 6) (sentBack s d).length = true :=
    inRam_part (k := (sentBack s d).length) hin (by omega) (by omega)
  refine congrArg Host.Outcome.next ((if_pos ?_).trans ?_)
  · rw [ethEnabled hd he, hp, Bool.and_false]
    rfl
  · rw [hq]
    dsimp only
    rw [hda, ethSend_plain hp he]
    exact congrArg (fun x => setSticky (ethPage p.val) 9 (ethCount p.val 1
      (updRing p.val q (fun r => { r with head := ringNext r r.head }) { x with free := x.free + 1 })))
      (dmaWrite_inRam (s := putWire p.val (descFrame s d) s) hw)

theorem ringGet_putWire (p q : Nat) (b : List Byte) (s : State) : ringGet (putWire p b s) p q = ringGet s p q := by
  unfold ringGet putWire
  rw [ethGet_updEth_same]

theorem ethFrameTransmit_spec {p : Fin 2} {q : Nat} {s : State} (hd : domUp s 7 = true)
    (he : bitAt (ethGet s p.val).cfg 31 = true) (hp : prpOn s = false)
    (hq : [8, 7, 6, 5].find? (fun q => descReady s (ringGet s p.val q)) = some q) (hw : s.mem.main.wf 0 = true) :
    let r := ringGet s p.val q
    let d := descAt r r.head.toNat
    ∃ t, exec (.ethFrameTransmit p) s = .next t
      ∧ (ethGet t p.val).sent = (ethGet s p.val).sent ++ [ramRead s (leNat (ramRead s d 4)) (leNat (ramRead s (d + 4) 2))]
      ∧ leNat (ramRead t (d + 6) 2) / 32768 = 0 ∧ ringGet t p.val q = { r with head := ringNext r r.head }
      ∧ (ethGet t p.val).cnt.get 0 1 = satInc ((ethGet s p.val).cnt.get 0 1)
      ∧ bitAt (hdr t (0x3C + p.val)).sticky 9 = true
      ∧ (∀ a, a < d + 6 ∨ d + 16 ≤ a → t.mem.main.read 0 a = s.mem.main.read 0 a)
      ∧ (∀ k, k ≠ p.val → ethGet t k = ethGet s k)
      ∧ t = { s with mem.main := t.mem.main, eths := t.eths, hdrs := t.hdrs, free := t.free } := by
  intro r d
  have hx := exec_ethFrameTransmit hd he hp hq (d := d) rfl
  obtain ⟨hm, hring, hcnt, hsent, hst, hoth, _, _, _, hfr⟩ := ringDone_spec (p := p) q 1 9 (by decide)
    (s.mem.main.writeN 0 (d + 6) (sentBack s d)) (putWire p.val (descFrame s d) s)
  have hport : ethGet (putWire p.val (descFrame s d) s) p.val
      = { ethGet s p.val with sent := (ethGet s p.val).sent ++ [descFrame s d] } := ethGet_updEth_same _ _ _
  have hlen := sentBack_length s d
  rw [ringGet_putWire] at hring
  rw [hport] at hcnt hsent
  refine ⟨_, hx, hsent, ?_, hring, hcnt, hst, fun a h => ?_, fun k hk => (hoth k hk).trans ?_, ?_⟩
  · unfold ramRead
    rw [hm]
    unfold sentBack
    rw [Mem.leNat_writeN hw]
    omega
  · rw [hm]
    exact Mem.read_writeN_other _ (by omega)
  · exact ethGet_updEth_other hk _ s
  · rw [hfr]
    rfl

theorem ethSend_both {p : Nat} {b : List Byte} {s : State} (hp : prpOn s = true) (h0 : bitAt (ethGet s 0).cfg 31 = true)
    (h1 : bitAt (ethGet s 1).cfg 31 = true) : ethSend p b s = { putWire 1 (withTrailer s.prp.seq 0xB b)
      (putWire 0 (withTrailer s.prp.seq 0xA b) s) with prp.seq := s.prp.seq + 1 } := by
  have e1 : bitAt (ethGet (putWire 0 (withTrailer s.prp.seq 0xA b) s) 1).cfg 31 = true := by
    unfold putWire
    rw [ethGet_updEth_other (by decide)]
    exact h1
  unfold ethSend
  dsimp only
  rw [if_pos hp, if_pos h0, if_pos e1]

/-- A supervision frame goes out on both ports (R365). -/
theorem prpSupervisionSend_spec {s : State} (hd : domUp s 7 = true) (hp : prpOn s = true)
    (h0 : bitAt (ethGet s 0).cfg 31 = true) (h1 : bitAt (ethGet s 1).cfg 31 = true) :
    ∃ t, exec .prpSupervisionSend s = .next t ∧ t.prp.supSeq = s.prp.supSeq + 1 ∧ t.prp.seq = s.prp.seq + 1
      ∧ (ethGet t 0).sent.length = (ethGet s 0).sent.length + 1 ∧ (ethGet t 1).sent.length = (ethGet s 1).sent.length + 1
      ∧ t.prp.table = s.prp.table ∧ t = { s with prp := t.prp, eths := t.eths } := by
  have hx := congrArg (Host.Outcome.next (φ := Fault) (ρ := Refusal)) (ethSend_both (p := 0) (b := supervisionFrame s)
    (s := { s with prp.supSeq := s.prp.supSeq + 1 }) hp h0 h1)
  have he : exec .prpSupervisionSend s = .next (ethSend 0 (supervisionFrame s)
      { s with prp.supSeq := s.prp.supSeq + 1 }) := by
    refine congrArg Host.Outcome.next (if_pos ?_)
    rw [hd, hp, h0]
    rfl
  rw [hx] at he
  generalize withTrailer s.prp.seq 0xB (supervisionFrame s) = x at he
  generalize withTrailer s.prp.seq 0xA (supervisionFrame s) = y at he
  have hlen0 : (ethGet (putWire 1 x (putWire 0 y { s with prp.supSeq := s.prp.supSeq + 1 })) 0).sent.length
      = (ethGet s 0).sent.length + 1 := by
    unfold putWire
    rw [ethGet_updEth_other (by decide), ethGet_updEth_same, List.length_append]
    rfl
  have hlen1 : (ethGet (putWire 1 x (putWire 0 y { s with prp.supSeq := s.prp.supSeq + 1 })) 1).sent.length
      = (ethGet s 1).sent.length + 1 := by
    unfold putWire
    rw [ethGet_updEth_same, ethGet_updEth_other (by decide), List.length_append]
    rfl
  exact ⟨_, he, rfl, rfl, hlen0, hlen1, rfl, rfl⟩

/-! Registers and links (R364, R367, R389). -/

theorem ethCfgWrite_clash {p : Fin 2} {v : Word} {s : State} (ht : PageTakes s (0x3C + p.val))
    (h : bitAt (ethGet s p.val).cfg 31 = true ∧ ((p.val = 0 ∧ bitAt v 30 ≠ bitAt (ethGet s p.val).cfg 30)
      ∨ fld v 28 2 ≠ fld (ethGet s p.val).cfg 28 2)) :
    Answers (.ethCfgWrite p v) s (0x3C + p.val) (hdrSticky 12) s := by
  refine ⟨_, pageWriteIf_drops ht rfl (if_pos ?_), hdr_setSticky_same _ _ s,
    fun q hq => hdr_setSticky_other _ _ s hq, rfl⟩
  simpa using h

theorem ethCfgWrite_taken {p : Fin 2} {v : Word} {s : State} (ht : PageTakes s (0x3C + p.val))
    (h : ¬ (bitAt (ethGet s p.val).cfg 31 = true ∧ ((p.val = 0 ∧ bitAt v 30 ≠ bitAt (ethGet s p.val).cfg 30)
      ∨ fld v 28 2 ≠ fld (ethGet s p.val).cfg 28 2))) :
    Answers (.ethCfgWrite p v) s (0x3C + p.val) hdrCount
      (updEth p.val (fun e => { e with cfg := v &&& (if p.val = 0 then 0xFC00FFFF else 0xBC00FFFF) }) s) := by
  refine pageWriteIf_answers ht rfl (if_neg ?_) rfl
  simpa using h

/-- ETH1 shows ETH0's PRP. -/
theorem ethReg_prp (req : Requester) (s : State) : bitAt (regWord req s 0x3D 0x40) 30 = bitAt (ethGet s 0).cfg 30 :=
  bitAt_setBit_same (ethGet s 1).cfg (by decide) _

theorem ethQueueCtlWrite_spec {p : Fin 2} {q : Fin 9} {v : Word} {s : State} (ht : PageTakes s (0x3C + p.val)) :
    let r := ringGet s p.val q.val
    ∃ t, exec (.ethQueueCtlWrite p q v) s = .next t ∧ hdr t (0x3C + p.val) = hdrCount (hdr s (0x3C + p.val))
      ∧ (bitAt v 31 = true → ringGet t p.val q.val = { r with ctl := v &&& 0x800007FF, head := 0, tail := 0 })
      ∧ (bitAt v 31 = false → ringGet t p.val q.val = { r with ctl := v &&& 0x800007FF })
      ∧ (∀ k, k ≠ p.val → ethGet t k = ethGet s k) ∧ t = { s with eths := t.eths, hdrs := t.hdrs } := by
  intro r
  refine ⟨_, congrArg Host.Outcome.next (pageWrite_takes ht _), hdr_countWrite_same _ _, fun hv => ?_, fun hv => ?_,
    fun k hk => ethGet_updEth_other hk _ s, rfl⟩
  · exact (ringGet_updRing_same p.val q.val _ s).trans (if_pos hv)
  · exact (ringGet_updRing_same p.val q.val _ s).trans (if_neg (by rw [hv]; exact Bool.false_ne_true))

theorem ethLinkChange_spec {p : Fin 2} {link g1 mdix : Bool} {s : State} (hd : domUp s 7 = true) :
    ∃ t, exec (.ethLinkChange p link g1 mdix) s = .next t
      ∧ ethGet t p.val = { ethGet s p.val with link := link, g1 := g1, mdix := mdix }
      ∧ ((ethGet s p.val).link ≠ link → bitAt (hdr t (0x3C + p.val)).sticky 11 = true)
      ∧ (∀ k, k ≠ p.val → ethGet t k = ethGet s k)
      ∧ t = { s with eths := t.eths, hdrs := t.hdrs, evq := t.evq, free := t.free } := by
  by_cases hl : (ethGet s p.val).link = link
  · exact ⟨_, congrArg Host.Outcome.next ((if_pos hd).trans (if_pos hl)), ethGet_updEth_same _ _ s, absurd hl,
      fun k hk => ethGet_updEth_other hk _ s, rfl⟩
  · obtain ⟨e, f, h⟩ := blockEv_evq (ethPage p.val) 1 ((b2n link + 2 * b2n g1) * 2 ^ 16) (setSticky (ethPage p.val) 11
      (updEth p.val (fun e => { e with link := link, g1 := g1, mdix := mdix }) s))
    refine ⟨_, congrArg Host.Outcome.next (((if_pos hd).trans (if_neg hl)).trans h), ethGet_updEth_same _ _ s, fun _ => ?_,
      fun k hk => ethGet_updEth_other hk _ s, rfl⟩
    exact (congrArg (fun h : PageHdr => bitAt h.sticky 11) (hdr_setSticky_same (ethPage p.val) 11 _)).trans
      (sticky_set _ (by decide))

/-- Settles O53, a frame by the checks of the wire and then its ring's descriptor. -/
theorem ethernetPorts : Obligations.EthernetPorts := by
  unfold Obligations.EthernetPorts
  refine ⟨fun p f s hd he => ?_, fun p q s hd he hp hq hw => ethFrameTransmit_spec hd he hp hq hw,
    fun s hd hp h0 h1 => prpSupervisionSend_spec hd hp h0 h1, fun s => rfl,
    fun p v s ht => ⟨ethCfgWrite_clash ht, ethCfgWrite_taken ht⟩, ethReg_prp, fun p q v s ht => ethQueueCtlWrite_spec ht,
    fun p link g1 mdix s hd => ethLinkChange_spec hd⟩
  refine ⟨ethFrameReceive_badFcs hd he, fun hf hp hl => ?_, fun hf hp h1 h2 hu => ?_,
    fun hf hp h1 h2 ht hu hg seq lan hr hl hc => ?_,
    fun hf hp h1 h2 ht hu hg hv hw => ethFrameReceive_delivers hd he hf hp h1 h2 ht hu hg hv hw⟩
  · refine ethFrameReceive_badLength hd he hf ?_
    rw [wireLen_plain hp]
    omega
  · rw [ethFrameReceive_whole hd he hf (by rw [wireLen_plain hp]; omega) (by rw [wireLen_plain hp]; omega), hp]
    exact congrArg Host.Outcome.next (ethAccept_other hu)
  · have hlen : wireLen s f.bytes = f.bytes.length + 4 - 6 := wireLen_trailer hp (by rw [hr]; rfl)
    rw [ethFrameReceive_whole hd he hf (by omega) (by omega), hp]
    exact congrArg Host.Outcome.next (ethAccept_duplicate ht hu hg hp hr hl hc)

end Sys2Proof.Machine
end


section
/-! Power domains going up and down: what PD0 keeps, and which domains are up afterwards (R28, R426 to R433). -/

namespace Sys2Proof.Machine

/-- What PD0 holds, and the boot image, are the same. -/
structure Pd0 (s t : State) : Prop where
  sys : t.sys = s.sys
  sup : t.sup = s.sup
  clk : t.clk = s.clk
  boot : t.plan.boot = s.plan.boot

theorem Pd0.refl (s : State) : Pd0 s s := ⟨rfl, rfl, rfl, rfl⟩

theorem Pd0.trans {s t u : State} (h : Pd0 s t) (k : Pd0 t u) : Pd0 s u :=
  ⟨k.sys.trans h.sys, k.sup.trans h.sup, k.clk.trans h.clk, k.boot.trans h.boot⟩

theorem Pd0.foldl {α : Type} {g : State → α → State} (h : ∀ s x, Pd0 s (g s x)) (l : List α) (s : State) :
    Pd0 s (l.foldl g s) := by
  induction l generalizing s with
  | nil => exact .refl s
  | cons x l ih => exact (h s x).trans (ih _)

theorem Pd0.ite {c : Prop} [Decidable c] {s t u : State} (ht : Pd0 s t) (hu : Pd0 s u) : Pd0 s (if c then t else u) := by
  split
  · exact ht
  · exact hu

theorem Pd0.of_gateOnly {s t : State} (h : GateOnly s t) : Pd0 s t := by
  obtain ⟨_, _, _, _, _, _, _, _, _, _, rfl⟩ := h
  exact ⟨rfl, rfl, rfl, rfl⟩

theorem Pd0.of_events {s t : State} (h : ∃ e f, t = { s with evq := e, free := f }) : Pd0 s t :=
  .of_gateOnly (.of_events h)

/-- The pages of PD0 that hold SYS and SUP keep their headers. -/
abbrev LowPages (s t : State) : Prop := ∀ p < 2, hdr t p = hdr s p

theorem LowPages.trans {s t u : State} (h : LowPages s t) (k : LowPages t u) : LowPages s u :=
  fun p hp => (k p hp).trans (h p hp)

theorem LowPages.of_hdrs {s t : State} (h : t.hdrs = s.hdrs) : LowPages s t := fun p _ => by
  unfold hdr
  rw [h]

theorem LowPages.foldl {α : Type} {g : State → α → State} (h : ∀ s x, LowPages s (g s x)) (l : List α) (s : State) :
    LowPages s (l.foldl g s) := by
  induction l generalizing s with
  | nil => exact fun _ _ => rfl
  | cons x l ih => exact (h s x).trans (ih _)

theorem setSticky_lowPages {p : Nat} (h : 2 ≤ p) (bit : Nat) (s : State) : LowPages s (setSticky p bit s) :=
  fun q hq => hdr_setSticky_other p bit s (by omega)

theorem finishCmd_lowPages {p : Nat} (h : 2 ≤ p) (st : CStat) (r : Nat) (s : State) : LowPages s (finishCmd p st r s) :=
  fun _ hq => hdr_finishCmd_other p st r s (by omega)

theorem hdr_endIfRunning_other (p op : Nat) (st : CStat) (r : Nat) (s : State) {q : Nat} (h : q ≠ p) :
    hdr (endIfRunning p op st r s) q = hdr s q := by
  unfold endIfRunning
  split
  · split
    · exact hdr_finishCmd_other p st r s h
    · rfl
  · rfl

theorem endIfRunning_lowPages {p : Nat} (h : 2 ≤ p) (op : Nat) (st : CStat) (r : Nat) (s : State) :
    LowPages s (endIfRunning p op st r s) := fun _ hq => hdr_endIfRunning_other p op st r s (by omega)

/-- A step that touches neither what PD0 holds nor its pages. -/
structure Islands (s t : State) : Prop where
  pd0 : Pd0 s t
  pages : LowPages s t

theorem Islands.refl (s : State) : Islands s s := ⟨.refl s, fun _ _ => rfl⟩

theorem Islands.trans {s t u : State} (h : Islands s t) (k : Islands t u) : Islands s u :=
  ⟨h.pd0.trans k.pd0, h.pages.trans k.pages⟩

theorem Islands.foldl {α : Type} {g : State → α → State} (h : ∀ s x, Islands s (g s x)) (l : List α) (s : State) :
    Islands s (l.foldl g s) := ⟨.foldl (fun s x => (h s x).pd0) l s, .foldl (fun s x => (h s x).pages) l s⟩

theorem Islands.ite {c : Prop} [Decidable c] {s t u : State} (ht : Islands s t) (hu : Islands s u) :
    Islands s (if c then t else u) := by
  split
  · exact ht
  · exact hu

theorem Islands.of_pd0 {s t : State} (h : Pd0 s t) (k : t.hdrs = s.hdrs) : Islands s t := ⟨h, .of_hdrs k⟩

/-- A step after one that changes other fields only. -/
theorem Islands.after {s m t : State} (k : Islands m t) (h1 : m.sys = s.sys) (h2 : m.sup = s.sup) (h3 : m.clk = s.clk)
    (h4 : m.plan.boot = s.plan.boot) (h5 : m.hdrs = s.hdrs) : Islands s t :=
  (Islands.of_pd0 ⟨h1, h2, h3, h4⟩ h5).trans k

theorem Islands.of_events {s t : State} (h : ∃ e f, t = { s with evq := e, free := f }) : Islands s t := by
  obtain ⟨e, f, rfl⟩ := h
  exact .of_pd0 (.of_events ⟨e, f, rfl⟩) rfl

theorem Islands.of_outputs {s t : State} (h : OutputsOnly s t) : Islands s t := by
  obtain ⟨_, _, _, _, rfl⟩ := h.frame
  exact .of_pd0 ⟨rfl, rfl, rfl, rfl⟩ rfl

theorem Islands.of_hart {s t : State} (h : HartOnly s t) : Islands s t := by
  obtain ⟨_, _, _, rfl⟩ := h
  exact .of_pd0 ⟨rfl, rfl, rfl, rfl⟩ rfl

theorem Islands.of_log {s t : State} (h : LogOnly s t) : Islands s t := by
  obtain ⟨_, rfl⟩ := h
  exact .of_pd0 ⟨rfl, rfl, rfl, rfl⟩ rfl

theorem setSticky_islands {p : Nat} (h : 2 ≤ p) (bit : Nat) (s : State) : Islands s (setSticky p bit s) :=
  ⟨⟨rfl, rfl, rfl, rfl⟩, setSticky_lowPages h bit s⟩

/-! The claim and the gates (R324). -/

theorem canPage_high {q : Nat} (h : q < 2) : ∀ n < 4, q ≠ canPage n := fun n _ => by
  unfold canPage
  omega

theorem gatesOpen_islands (s : State) : Islands s (gatesOpen s) := by
  refine ⟨?_, fun q hq => hdr_gatesOpen (canPage_high hq) s⟩
  have h := Pd0.of_gateOnly (gatesOpen_gateOnly s)
  exact ⟨h.sys, h.sup, h.clk, h.boot⟩

theorem dropClaim_islands (s : State) : Islands s (dropClaim s) := by
  have h := Pd0.of_gateOnly (dropClaim_gateOnly s)
  refine ⟨⟨h.sys, h.sup, h.clk, h.boot⟩, fun q hq => ?_⟩
  exact (endIfRunning_lowPages (by decide) 1 .aborted 0 (gatesOpen { s with
    red.own := 0, red.taking := false, red.yieldNext := none }) q hq).trans (hdr_gatesOpen (canPage_high hq) _)

theorem becomeIdle_islands (s : State) : Islands s (becomeIdle s) :=
  (dropClaim_islands s).trans (.of_pd0 ⟨rfl, rfl, rfl, rfl⟩ rfl)

theorem becomeStandby_islands (s : State) : Islands s (becomeStandby s) :=
  (dropClaim_islands s).trans (.of_pd0 ⟨rfl, rfl, rfl, rfl⟩ rfl)

theorem yieldNow_islands (c : BitVec 3) (s : State) : Islands s (yieldNow c s) :=
  (becomeStandby_islands s).trans ((Islands.of_events (redEvent_evq 2 c.toNat { becomeStandby s with
    sync.yieldSent := some c })).after rfl rfl rfl rfl rfl)

/-! Panel and log store. -/

theorem dropPanelPend_islands (k : Nat) (s : State) : Islands s (dropPanelPend k s) := by
  unfold dropPanelPend
  split
  · exact (Islands.of_pd0 ⟨rfl, rfl, rfl, rfl⟩ rfl : Islands s { s with
      panel.areas := s.panel.areas.upd {} k (fun a => { a with pend := none, lost := satInc a.lost }) }).trans
      (setSticky_islands (by decide) 9 _)
  · exact .refl s

theorem dropAllPend_islands (s : State) : Islands s (dropAllPend s) := .foldl (fun s k => dropPanelPend_islands k s) _ s

theorem panelLoss_islands (s : State) : Islands s (panelLoss s) := by
  unfold panelLoss
  split
  · have h := dropAllPend_islands s
    generalize dropAllPend s = u at h
    exact h.trans (.of_pd0 ⟨rfl, rfl, rfl, rfl⟩ rfl)
  · exact .refl s

theorem updPart_logOnly (p : Nat) (f : LogPart → LogPart) (s : State) : LogOnly s (updPart p f s) := ⟨_, rfl⟩

theorem logStop_frame (s : State) : ∃ l f, logStop s = { s with log := l, free := f } := by
  unfold logStop
  extract_lets lost s1
  have h1 : LogOnly s s1 := by
    change LogOnly s (if lost = true then _ else _)
    split
    · exact .foldl (fun s p => updPart_logOnly p _ s) _ s
    · exact .foldl (fun s p => updPart_logOnly p _ s) _ s
  obtain ⟨l, h1⟩ := h1
  dsimp only
  rw [h1]
  exact ⟨_, _, rfl⟩

theorem logStop_islands (s : State) : Islands s (logStop s) := by
  obtain ⟨l, f, h⟩ := logStop_frame s
  rw [h]
  exact .of_pd0 ⟨rfl, rfl, rfl, rfl⟩ rfl

theorem panelStart_islands (trim : Bool) (s : State) : Islands s (panelStart trim s) := by
  unfold panelStart
  split
  · dsimp only
    split
    · exact .of_pd0 ⟨rfl, rfl, rfl, rfl⟩ rfl
    · obtain ⟨_, _, h⟩ := blockEv_evq 0x41 4 (0 + 0 * 2 ^ 16) { s with panel :=
        { ready := true, trimBad := !trim, redraws := if s.panel.intent.isEmpty then 0 else 3
          crack := s.panel.crack, banner := s.panel.banner, loopRef := s.panel.loopRef
          clkOfs := s.panel.clkOfs, pos := s.panel.pos, last := s.panel.last
          target := s.panel.target, glassImg := s.panel.glassImg, intent := s.panel.intent } }
      refine Islands.of_pd0 ?_ ?_
      · exact (congrArg (Pd0 s) h).mpr ⟨rfl, rfl, rfl, rfl⟩
      · exact (congrArg State.hdrs h).trans rfl
  · exact .refl s

/-! The safety island. -/

theorem tripUpdate_islands (s : State) : Islands s (tripUpdate s) := by
  obtain ⟨_, _, _, _, _, h⟩ := tripUpdate_frame s
  rw [h]
  exact .of_pd0 ⟨rfl, rfl, rfl, rfl⟩ rfl

theorem claimConfig_islands (s : State) : Islands s (claimConfig s) := by
  obtain ⟨_, _, h⟩ := claimConfig_frame s
  rw [h]
  exact .of_pd0 ⟨rfl, rfl, rfl, rfl⟩ rfl

theorem judgePeerLost_islands (s : State) : Islands s (judgePeerLost s) := by
  obtain ⟨_, _, _, h⟩ := judgePeerLost_frame s
  rw [h]
  exact .of_pd0 ⟨rfl, rfl, rfl, rfl⟩ rfl

theorem Tab.find_filter {α : Type} (l : List (Nat × α)) (f : Nat → Bool) {i : Nat} (h : f i = true) :
    Tab.find (l.filter (fun c => f c.1)) i = Tab.find l i := by
  induction l with
  | nil => rfl
  | cons c l ih =>
    obtain ⟨k, x⟩ := c
    rw [List.filter_cons]
    by_cases hk : k = i
    · subst hk
      rw [if_pos h]
      simp [Tab.find]
    · split
      · simp [Tab.find, hk, ih]
      · simp [Tab.find, hk, ih]

/-- A domain's pages at reset: those of PD0 are not among them. -/
theorem clearHdrs_lowPages {d : Nat} (h : d ≠ 0) (s : State) : LowPages s (clearHdrs d s) := fun p hp => by
  refine congrArg (fun o : Option PageHdr => o.getD {})
    (Tab.find_filter s.hdrs.cells (fun p => decide (pageDom s p ≠ some d)) ?_)
  have hd : pageDom s p = some 0 := by
    unfold pageDom pageInfo
    rw [if_pos (by omega)]
    rfl
  rw [decide_eq_true_eq, hd]
  exact fun e => h (Option.some.inj e).symm

/-! Tile domains. -/

theorem abortOpenTest_islands {n : Nat} (s : State) : Islands s (abortOpenTest n s) := by
  unfold abortOpenTest
  dsimp only
  have h1 : Islands s (updInp n (fun i => { i with openOrder := false, openCmd := false }) s) :=
    .of_pd0 ⟨rfl, rfl, rfl, rfl⟩ rfl
  split
  · exact h1.trans ⟨.of_gateOnly (endIfRunning_gateOnly _ _ _ _ _),
      endIfRunning_lowPages (by unfold tilePage; omega) _ _ _ _⟩
  · exact h1

theorem tilesOff_islands (lo hi : Nat) (s : State) : Islands s (tilesOff lo hi s) := by
  refine (Islands.foldl (fun s t => ?_) _ s).trans ((Islands.of_hart (hartAbort_hartOnly _ _ _)).trans
    (.foldl (fun s n => .of_outputs (ucResolve_outputsOnly n s)) _ _))
  exact .ite (.foldl (fun s k => abortOpenTest_islands s) _ s) (.refl s)

theorem tileTake_islands (t : Nat) (s : State) : Islands s (tileTake t s) := by
  refine .foldl (fun s k => ?_) _ s
  dsimp only
  split
  · split <;> exact .of_pd0 ⟨rfl, rfl, rfl, rfl⟩ rfl
  · split <;> exact .of_pd0 ⟨rfl, rfl, rfl, rfl⟩ rfl

theorem tilesUp_islands {lo hi : Nat} (h : hi ≤ 10) (s : State) : Islands s (tilesUp lo hi s) := by
  refine List.foldlRecOn (motive := Islands s) _ _ (.refl s) fun u hu t ht => hu.trans ?_
  have h10 : t < 10 := by
    obtain ⟨i, hi', rfl⟩ := List.mem_range'.1 ht
    omega
  have h0 : Islands u (resetTileCal t (updTile t (fun _ => {}) u)) := .of_pd0 ⟨rfl, rfl, rfl, rfl⟩ rfl
  refine (h0.trans ?_).trans (tileTake_islands t _)
  obtain ⟨_, _, _, hr⟩ := tileRegs_frame h10 (resetTileCal t (updTile t (fun _ => {}) u))
  rw [hr]
  exact .of_pd0 ⟨rfl, rfl, rfl, rfl⟩ rfl

/-! The field island. -/

theorem loadPlanRegs_islands (m : Nat) (s : State) : Islands s (loadPlanRegs m s) := by
  unfold loadPlanRegs
  split
  · exact .of_pd0 ⟨rfl, rfl, rfl, rfl⟩ rfl
  · split <;> exact .of_pd0 ⟨rfl, rfl, rfl, rfl⟩ rfl

theorem updDig_islands (k : Nat) (f : DigChan → DigChan) (s : State) : Islands s (updDig k f s) :=
  .of_pd0 ⟨rfl, rfl, rfl, rfl⟩ rfl

/-- The field island's registers at their planned values. -/
def fieldRegs (s : State) : State :=
  (List.range 64).foldl (fun s k => loadPlanRegs (80 + k) s) { s with dig := {}, red.flt := {}, red.fltReg := {} }

theorem fieldUp_eq (s : State) : fieldUp s = (List.range 64).foldl (fun s k => updDig k (fun c => { c with
    cfgF := c.cfg, debF := c.deb, octlF := c.octl, settling := digMode { c with cfgF := c.cfg } ≠ 0 }) s) (fieldRegs s) :=
  rfl

theorem fieldUp_islands (s : State) : Islands s (fieldUp s) := by
  have h1 : Islands s (fieldRegs s) :=
    (Islands.foldl (fun s k => loadPlanRegs_islands (80 + k) s) _ _).after rfl rfl rfl rfl rfl
  rw [fieldUp_eq]
  exact h1.trans (.foldl (fun s k => updDig_islands k _ s) _ _)

/-! The course island. -/

theorem setLstat_islands (op : Nat) (f : Fail) (s : State) : Islands s (setLstat op f s) :=
  .of_pd0 ⟨rfl, rfl, rfl, rfl⟩ rfl

theorem judgeJournal_islands (s : State) : Islands s (judgeJournal s) :=
  .foldl (fun s _ => setLstat_islands 0 _ s) _ s

theorem noImage_islands (s : State) : Islands s (noImage s) := .of_pd0 ⟨rfl, rfl, rfl, rfl⟩ rfl

theorem bootLoad_islands (s : State) : Islands s (bootLoad s) := by
  unfold bootLoad
  extract_lets judge
  split
  · exact noImage_islands s
  · next x _ =>
    extract_lets r s1
    have h1 : Islands s s1 := setLstat_islands 0 _ s
    clear_value s1 r
    split
    · exact h1.trans ((judgeJournal_islands _).after rfl rfl rfl rfl rfl)
    · next c _ =>
      extract_lets s2
      have h2 : Islands s s2 := h1.trans (.of_events (planEvent_evq _ _ _ _ _))
      clear_value s2
      split
      · exact h2.trans (noImage_islands _)
      · next y _ =>
        extract_lets r2 s3
        have h3 : Islands s s3 := h2.trans (setLstat_islands 0 _ s2)
        clear_value s3 r2
        split
        · exact h3.trans (.of_pd0 ⟨rfl, rfl, rfl, rfl⟩ rfl)
        · exact h3.trans (noImage_islands _)

/-! A domain goes up or down. -/

/-- The switched domain's bit, and its first access yet to come. -/
def switched (d : Nat) (on : Bool) (s : State) : State :=
  { s with sys.domOn := setBit s.sys.domOn d on, sys.offSeen := setBit s.sys.offSeen d false }

/-- What goes with PD1. -/
def safetyDown (s : State) : State :=
  safetyOff { (match s.loader.safeVerifying with
    | some v => updDistrict v.district (fun x => { x with state := v.prev }) { s with loader.safeVerifying := none }
    | none => s) with safe.outTrip := 0, safe.outHold := 0, red.streetA := {}, red.streetB := {} }

theorem safetyDown_islands (s : State) : Islands s (safetyDown s) := by
  unfold safetyDown safetyOff
  split <;> split <;> exact .of_pd0 ⟨rfl, rfl, rfl, rfl⟩ rfl

/-- What goes with PD7. -/
def netDown (s : State) : State :=
  netReset (logStop (dropAllPend { s with
    panel.areas := ⟨s.panel.areas.cells.map (fun c => (c.1, { c.2 with run := none }))⟩ }))

theorem netReset_islands (s : State) : Islands s (netReset s) := .of_pd0 ⟨rfl, rfl, rfl, rfl⟩ rfl

theorem netDown_islands (s : State) : Islands s (netDown s) := by
  have h : ∀ u : State, Islands u (netReset (logStop (dropAllPend u))) := fun u =>
    ((dropAllPend_islands u).trans (logStop_islands _)).trans (netReset_islands _)
  exact (h _).after rfl rfl rfl rfl rfl

theorem domainDown_islands (d : Nat) (s : State) : Islands (switched d false s) (domainDown d s) := by
  unfold domainDown
  dsimp only
  refine Islands.trans ?_ (.of_events (domEvent_evq _))
  split
  · exact safetyDown_islands (switched 1 false s)
  · exact .of_pd0 ⟨rfl, rfl, rfl, rfl⟩ rfl
  · exact .of_pd0 ⟨rfl, rfl, rfl, rfl⟩ rfl
  · exact tilesOff_islands 0 4 _
  · exact tilesOff_islands 4 10 _
  · exact gatesOpen_islands _
  · exact netDown_islands (switched 7 false s)
  · exact .refl _

theorem pd1Up_islands (s : State) : Islands { s with sys.domOn := setBit s.sys.domOn 1 true } (pd1Up s) := by
  have h0 : Islands { s with sys.domOn := setBit s.sys.domOn 1 true } (pd1Fresh s) :=
    ⟨⟨rfl, rfl, rfl, rfl⟩, fun p hp => clearHdrs_lowPages (by decide) { s with
      sys.domOn := setBit s.sys.domOn 1 true } p hp⟩
  exact ((h0.trans (tripUpdate_islands _)).trans (claimConfig_islands _)).trans (judgePeerLost_islands _)

theorem setBit_twice (w : BitVec 8) (d : Nat) : setBit (setBit w d true) d true = setBit w d true := by
  unfold setBit
  rw [if_pos rfl, if_pos rfl, BitVec.or_assoc, BitVec.or_self]

/-- As the domain comes up, its pages are at reset. -/
theorem cleared_islands {d : Nat} (h : d ≠ 0) (s : State) :
    Islands (switched d true s) (clearHdrs d (switched d true s)) :=
  ⟨⟨rfl, rfl, rfl, rfl⟩, clearHdrs_lowPages h _⟩

theorem domainUp_pd0 (d : Nat) (trim : Bool) (s : State) : Pd0 (switched d true s) (domainUp d trim s) := by
  unfold domainUp
  dsimp only
  refine Pd0.trans ?_ (.of_events (domEvent_evq _))
  have h0 : Pd0 (switched d true s) (clearHdrs d (switched d true s)) := ⟨rfl, rfl, rfl, rfl⟩
  split
  · have h := (pd1Up_islands (clearHdrs 1 (switched 1 true s))).pd0
    refine ⟨h.sys.trans ?_, h.sup, h.clk, h.boot⟩
    exact congrArg (fun w => { (switched 1 true s).sys with domOn := w }) (setBit_twice s.sys.domOn 1)
  · exact ⟨rfl, rfl, rfl, rfl⟩
  · exact h0.trans (bootLoad_islands _).pd0
  · exact h0.trans (tilesUp_islands (by decide) _).pd0
  · exact h0.trans (tilesUp_islands (by decide) _).pd0
  · exact h0.trans (fieldUp_islands _).pd0
  · exact h0.trans (panelStart_islands trim _).pd0
  · exact h0

/-- A domain other than PD2, whose ICU clears every page's edges. -/
theorem domainUp_lowPages {d : Nat} (h0 : d ≠ 0) (h2 : d ≠ 2) (trim : Bool) (s : State) : LowPages s (domainUp d trim s) := by
  unfold domainUp
  dsimp only
  have hc : LowPages s (clearHdrs d (switched d true s)) := clearHdrs_lowPages h0 _
  refine LowPages.trans ?_ (Islands.of_events (domEvent_evq _)).pages
  split
  · exact hc.trans (pd1Up_islands _).pages
  · exact absurd rfl h2
  · exact hc.trans (bootLoad_islands _).pages
  · exact hc.trans (tilesUp_islands (by decide) _).pages
  · exact hc.trans (tilesUp_islands (by decide) _).pages
  · exact hc.trans (fieldUp_islands _).pages
  · exact hc.trans (panelStart_islands trim _).pages
  · exact hc

/-! Which domains are up. -/

theorem domUp_of_sys {s t : State} (h : t.sys = s.sys) (d : Nat) : domUp t d = domUp s d := by
  unfold domUp
  rw [h]

theorem domUp_switched_same {d : Nat} (h : d < 8) (on : Bool) (s : State) : domUp (switched d on s) d = on :=
  bitAt_setBit_same _ h _

theorem domUp_switched_other {d k : Nat} (h : k ≠ d) (on : Bool) (s : State) : domUp (switched d on s) k = domUp s k :=
  bitAt_setBit_other _ h _

theorem domUp_domainDown_same {d : Nat} (h : d < 8) (s : State) : domUp (domainDown d s) d = false :=
  (domUp_of_sys (domainDown_islands d s).pd0.sys d).trans (domUp_switched_same h _ s)

theorem domUp_domainDown_other {d k : Nat} (h : k ≠ d) (s : State) : domUp (domainDown d s) k = domUp s k :=
  (domUp_of_sys (domainDown_islands d s).pd0.sys k).trans (domUp_switched_other h _ s)

theorem domUp_domainUp_same {d : Nat} (h : d < 8) (trim : Bool) (s : State) : domUp (domainUp d trim s) d = true :=
  (domUp_of_sys (domainUp_pd0 d trim s).sys d).trans (domUp_switched_same h _ s)

theorem domUp_domainUp_other {d k : Nat} (h : k ≠ d) (trim : Bool) (s : State) : domUp (domainUp d trim s) k = domUp s k :=
  (domUp_of_sys (domainUp_pd0 d trim s).sys k).trans (domUp_switched_other h _ s)

/-- What PD0 holds but for the domains. -/
structure Pd0Else (s t : State) : Prop where
  sys : { t.sys with domOn := 0, offSeen := 0 } = { s.sys with domOn := 0, offSeen := 0 }
  sup : t.sup = s.sup
  clk : t.clk = s.clk
  boot : t.plan.boot = s.plan.boot

theorem Pd0Else.refl (s : State) : Pd0Else s s := ⟨rfl, rfl, rfl, rfl⟩

theorem Pd0Else.trans {s t u : State} (h : Pd0Else s t) (k : Pd0Else t u) : Pd0Else s u :=
  ⟨k.sys.trans h.sys, k.sup.trans h.sup, k.clk.trans h.clk, k.boot.trans h.boot⟩

theorem Pd0.but_domains {s t : State} (h : Pd0 s t) : Pd0Else s t :=
  ⟨congrArg (fun x : SysBlk => { x with domOn := 0, offSeen := 0 }) h.sys, h.sup, h.clk, h.boot⟩

theorem switched_else (d : Nat) (on : Bool) (s : State) : Pd0Else s (switched d on s) := ⟨rfl, rfl, rfl, rfl⟩

theorem domainDown_else (d : Nat) (s : State) : Pd0Else s (domainDown d s) :=
  (switched_else d false s).trans (domainDown_islands d s).pd0.but_domains

theorem domainUp_else (d : Nat) (trim : Bool) (s : State) : Pd0Else s (domainUp d trim s) :=
  (switched_else d true s).trans (domainUp_pd0 d trim s).but_domains

theorem Pd0Else.foldl {α : Type} {g : State → α → State} (h : ∀ s x, Pd0Else s (g s x)) (l : List α) (s : State) :
    Pd0Else s (l.foldl g s) := by
  induction l generalizing s with
  | nil => exact .refl s
  | cons x l ih => exact (h s x).trans (ih _)

theorem Pd0Else.ite {c : Prop} [Decidable c] {s t u : State} (ht : Pd0Else s t) (hu : Pd0Else s u) :
    Pd0Else s (if c then t else u) := by
  split
  · exact ht
  · exact hu

section
variable {s t : State} (h : Pd0Else s t)
include h

theorem Pd0Else.cause : t.sys.cause = s.sys.cause := (congrArg SysBlk.cause h.sys :)
theorem Pd0Else.resets : t.sys.resets = s.sys.resets := (congrArg SysBlk.resets h.sys :)
theorem Pd0Else.step : t.sys.step = s.sys.step := (congrArg SysBlk.step h.sys :)
theorem Pd0Else.halt : t.sys.halt = s.sys.halt := (congrArg SysBlk.halt h.sys :)
theorem Pd0Else.shedding : t.sys.shedding = s.sys.shedding := (congrArg SysBlk.shedding h.sys :)
theorem Pd0Else.resetAsked : t.sys.resetAsked = s.sys.resetAsked := (congrArg SysBlk.resetAsked h.sys :)
theorem Pd0Else.switching : t.sys.switching = s.sys.switching := (congrArg SysBlk.switching h.sys :)
theorem Pd0Else.domBusy : t.sys.domBusy = s.sys.domBusy := (congrArg SysBlk.domBusy h.sys :)

end

/-! Shedding (R426). -/

theorem shed_else (l : List Nat) (s : State) : Pd0Else s (shed l s) :=
  .foldl (fun s d => .ite (domainDown_else d s) (.refl s)) l s

theorem shed_lowPages (l : List Nat) (s : State) : LowPages s (shed l s) := by
  refine .foldl (fun s d => ?_) l s
  split
  · exact (domainDown_islands d s).pages
  · exact fun _ _ => rfl

theorem domUp_shed (l : List Nat) (hl : ∀ d ∈ l, d < 8) (s : State) (k : Nat) :
    domUp (shed l s) k = (domUp s k && !l.contains k) := by
  induction l generalizing s with
  | nil => exact (Bool.and_true _).symm
  | cons d l ih =>
    have ih' := ih (fun x hx => hl x (.tail d hx)) (if domUp s d then domainDown d s else s)
    refine Eq.trans ih' ?_
    have hk : domUp (if domUp s d then domainDown d s else s) k = (domUp s k && !(k == d)) := by
      by_cases hkd : k = d
      · subst hkd
        rw [beq_self_eq_true, Bool.not_true, Bool.and_false]
        split
        · exact domUp_domainDown_same (hl k (.head l)) s
        · next h => exact Bool.eq_false_iff.2 h
      · rw [show (k == d) = false from beq_false_of_ne hkd, Bool.not_false, Bool.and_true]
        split
        · exact domUp_domainDown_other hkd s
        · rfl
    rw [hk, List.contains_cons, Bool.not_or, Bool.and_assoc]

/-- Claim, gates and role after domains have gone off under a unit without claim and gates. -/
theorem shed_claimless (l : List Nat) {s : State} (ho : s.red.own = 0) (hg : s.red.gates = false) :
    (shed l s).red.own = 0 ∧ (shed l s).red.gates = false ∧ (shed l s).red.state = s.red.state
      ∧ (shed l s).red.role = s.red.role ∧ (shed l s).pending = s.pending ∧ (shed l s).plan.nor = s.plan.nor := by
  obtain ⟨hq, -, hc, hgate, hb, -, -⟩ := kept_shed l s
  generalize shed l s = t at hq hc hgate hb ⊢
  refine ⟨(congrArg (fun x => x.1) hc).trans ho, Bool.eq_false_iff.2 fun h => ?_, congrArg (fun x => x.2.2.2.1) hc,
    congrArg (fun x => x.2.2.1) hc, congrArg (fun x => x.1) hq, congrArg (fun x => x.1) hb⟩
  rw [hgate h] at hg
  exact Bool.noConfusion hg

/-! Start-up (R428). -/

/-- The domains of start-up's step 3 as they come up. -/
def domainsUp (trim : Bool) (s : State) : State := [1, 2, 3, 7].foldl (fun s d => domainUp d trim s) s

theorem domainsUp_else (trim : Bool) (s : State) : Pd0Else s (domainsUp trim s) :=
  .foldl (fun s d => domainUp_else d trim s) _ s

theorem domUp_domainsUp (trim : Bool) (s : State) :
    (∀ d ∈ [1, 2, 3, 7], domUp (domainsUp trim s) d = true)
    ∧ ∀ d, d ∉ [1, 2, 3, 7] → domUp (domainsUp trim s) d = domUp s d := by
  have h : domainsUp trim s = domainUp 7 trim (domainUp 3 trim (domainUp 2 trim (domainUp 1 trim s))) := rfl
  rw [h]
  refine ⟨fun d hd => ?_, fun d hd => ?_⟩
  · simp only [List.mem_cons, List.not_mem_nil, or_false] at hd
    rcases hd with rfl | rfl | rfl | rfl
    · rw [domUp_domainUp_other (by decide), domUp_domainUp_other (by decide), domUp_domainUp_other (by decide),
        domUp_domainUp_same (by decide)]
    · rw [domUp_domainUp_other (by decide), domUp_domainUp_other (by decide), domUp_domainUp_same (by decide)]
    · rw [domUp_domainUp_other (by decide), domUp_domainUp_same (by decide)]
    · exact domUp_domainUp_same (by decide) _ _
  · simp only [List.mem_cons, List.not_mem_nil, or_false, not_or] at hd
    obtain ⟨h1, h2, h3, h7⟩ := hd
    rw [domUp_domainUp_other h7, domUp_domainUp_other h3, domUp_domainUp_other h2, domUp_domainUp_other h1]

/-- The claim as domains come up. -/
theorem domainUp_claim (d : Nat) (trim : Bool) (s : State) : (domainUp d trim s).red.own = s.red.own
    ∧ (domainUp d trim s).red.gates = s.red.gates ∧ (domainUp d trim s).red.role = s.red.role
    ∧ (domainUp d trim s).pending = s.pending ∧ (domainUp d trim s).plan.nor = s.plan.nor := by
  have h := (kept_domainUp d trim s).1
  generalize domainUp d trim s = t at h ⊢
  exact ⟨congrArg (fun k => k.claim.2.1) h, congrArg (fun k => k.claim.1) h, congrArg (fun k => k.claim.2.2.2.1) h,
    congrArg (fun k => k.queue.1) h, congrArg (fun k => k.bytes.2.2.1) h⟩

/-- Own claim, gates, role, commands to come and NOR flash. -/
structure ClaimKept (s t : State) : Prop where
  own : t.red.own = s.red.own
  gates : t.red.gates = s.red.gates
  role : t.red.role = s.red.role
  pending : t.pending = s.pending
  nor : t.plan.nor = s.plan.nor

theorem domainsUp_claim (trim : Bool) (s : State) : ClaimKept s (domainsUp trim s) := by
  refine List.foldlRecOn (motive := ClaimKept s) _ _ ⟨rfl, rfl, rfl, rfl, rfl⟩ fun u hu d _ => ?_
  obtain ⟨h1, h2, h3, h4, h5⟩ := domainUp_claim d trim u
  exact ⟨h1.trans hu.own, h2.trans hu.gates, h3.trans hu.role, h4.trans hu.pending, h5.trans hu.nor⟩

/-- Start-up's reference check has passed: domains 1, 2, 3 and 7 come up. -/
theorem startRefs_pass (trim : Bool) (s : State) : startRefs true trim s
    = { domainsUp trim { s with sys.step := 2, sys.halt := 0 } with
        sys.step := 3
        sys.halt := if (domainsUp trim { s with sys.step := 2, sys.halt := 0 }).loader.starting.isSome then 0 else 2 } := rfl

theorem startRefs_fail (trim : Bool) (s : State) : startRefs false trim s = { s with sys.step := 1, sys.halt := 1 } := rfl

theorem startRefs_claim (refs trim : Bool) (s : State) : ClaimKept s (startRefs refs trim s) := by
  cases refs
  · exact ⟨rfl, rfl, rfl, rfl, rfl⟩
  · have h := domainsUp_claim trim { s with sys.step := 2, sys.halt := 0 }
    rw [startRefs_pass]
    exact ⟨h.own, h.gates, h.role, h.pending, h.nor⟩

/-- What start-up leaves of PD0 but for its step and the domains. -/
structure Pd0Start (s t : State) : Prop where
  sys : { t.sys with domOn := 0, offSeen := 0, step := 0, halt := 0 } = { s.sys with domOn := 0, offSeen := 0, step := 0, halt := 0 }
  sup : t.sup = s.sup
  clk : t.clk = s.clk
  boot : t.plan.boot = s.plan.boot

theorem startRefs_start (refs trim : Bool) (s : State) : Pd0Start s (startRefs refs trim s) := by
  cases refs
  · exact ⟨rfl, rfl, rfl, rfl⟩
  · have h := domainsUp_else trim { s with sys.step := 2, sys.halt := 0 }
    rw [startRefs_pass]
    exact ⟨congrArg (fun x : SysBlk => { x with step := 0, halt := 0 }) h.sys, h.sup, h.clk, h.boot⟩

theorem domUp_startRefs (refs trim : Bool) (s : State) :
    (refs = true → ∀ d ∈ [1, 2, 3, 7], domUp (startRefs refs trim s) d = true)
    ∧ (∀ d, refs = false ∨ d ∉ [1, 2, 3, 7] → domUp (startRefs refs trim s) d = domUp s d) := by
  cases refs
  · exact ⟨nofun, fun _ _ => rfl⟩
  · obtain ⟨h1, h2⟩ := domUp_domainsUp trim { s with sys.step := 2, sys.halt := 0 }
    rw [startRefs_pass]
    generalize domainsUp trim { s with sys.step := 2, sys.halt := 0 } = u at h1 h2 ⊢
    exact ⟨fun _ => h1, fun d hd => h2 d (hd.resolve_left nofun)⟩

/-! Node reset (R429, R430). -/

theorem endSwitch_page {p : Nat} (h : p ≠ 0) (s : State) : hdr (endSwitch s) p = hdr s p := by
  unfold endSwitch
  split
  · exact hdr_endIfRunning_other 0 _ .aborted 0 _ h
  · rfl

theorem endSwitch_frame (s : State) : Pd0 { s with sys.switching := none, sys.domBusy := (endSwitch s).sys.domBusy }
    (endSwitch s) ∧ (endSwitch s).red = s.red ∧ (endSwitch s).pending = s.pending ∧ (endSwitch s).plan = s.plan := by
  unfold endSwitch
  split
  · next m on _ =>
    obtain ⟨_, _, _, _, _, _, _, _, _, _, h⟩ := endIfRunning_gateOnly 0 (if on then 2 else 1) .aborted 0
      { s with sys.switching := none, sys.domBusy := 0 }
    rw [h]
    exact ⟨⟨rfl, rfl, rfl, rfl⟩, rfl, rfl, rfl⟩
  · next h => exact ⟨⟨by rw [← h], rfl, rfl, rfl⟩, rfl, rfl, rfl⟩

theorem becomeIdle_claim (s : State) : (becomeIdle s).red.own = 0 ∧ (becomeIdle s).red.gates = false
    ∧ (becomeIdle s).red.state = .idle ∧ (becomeIdle s).red.role = s.red.role ∧ (becomeIdle s).pending = s.pending
    ∧ (becomeIdle s).plan.nor = s.plan.nor := by
  obtain ⟨_, _, _, _, _, _, _, _, _, _, h⟩ := becomeIdle_gateOnly s
  rw [h]
  exact ⟨rfl, rfl, rfl, rfl, rfl, rfl⟩

/-- The node after its domains have gone off, before it starts anew. -/
def resetDown (cause : Nat) (s : State) : State :=
  let s1 := shed [6, 5, 4, 3, 2, 1, 7] (becomeIdle (endSwitch s))
  { s1 with
    sys.cause := BitVec.ofNat 8 cause, sys.resets := satInc s1.sys.resets, sys.resetAsked := none
    sys.shedding := false, safe.pd1Reset := false, sup.returned := false
    red.state := .electing, red.election := false }

theorem nodeReset_eq (cause : Nat) (refs trim : Bool) (s : State) : nodeReset cause refs trim s
    = if (resetDown cause s).clk.tcxoOk then startRefs refs trim (resetDown cause s)
      else { resetDown cause s with sys.step := 0, sys.halt := 3 } := rfl

structure ResetDown (cause : Nat) (s t : State) : Prop where
  cause : t.sys.cause = BitVec.ofNat 8 cause
  resets : t.sys.resets = satInc s.sys.resets
  asked : t.sys.resetAsked = none
  shedding : t.sys.shedding = false
  returned : t.sup.returned = false
  tcxo : t.clk.tcxoOk = s.clk.tcxoOk
  own : t.red.own = 0
  gates : t.red.gates = false
  role : t.red.role = s.red.role
  pending : t.pending = s.pending

theorem resetDown_down (cause : Nat) (s : State) : ResetDown cause s (resetDown cause s)
    ∧ ∀ d ∈ [1, 2, 3, 4, 5, 6, 7], domUp (resetDown cause s) d = false := by
  obtain ⟨he, hred, hpend, -⟩ := endSwitch_frame s
  obtain ⟨ho, hg, -, hr, hp, -⟩ := becomeIdle_claim (endSwitch s)
  obtain ⟨ho2, hg2, -, hr2, hp2, -⟩ := shed_claimless [6, 5, 4, 3, 2, 1, 7] ho hg
  have h := ((he.trans (becomeIdle_islands _).pd0).but_domains).trans (shed_else [6, 5, 4, 3, 2, 1, 7] _)
  refine ⟨⟨rfl, congrArg satInc h.resets, rfl, rfl, rfl, congrArg ClkBlk.tcxoOk h.clk, ho2, hg2, ?_, ?_⟩, fun d hd => ?_⟩
  · exact hr2.trans (hr.trans (congrArg RedBlk.role hred))
  · exact hp2.trans (hp.trans hpend)
  · refine (domUp_shed [6, 5, 4, 3, 2, 1, 7] (by decide) _ d).trans ?_
    have hc : [6, 5, 4, 3, 2, 1, 7].contains d = true := by
      simp only [List.mem_cons, List.not_mem_nil, or_false] at hd
      rcases hd with rfl | rfl | rfl | rfl | rfl | rfl | rfl <;> rfl
    rw [hc, Bool.not_true, Bool.and_false]

theorem nodeReset_spec (cause : Nat) (refs trim : Bool) (s : State) : ResetDown cause s (nodeReset cause refs trim s)
    ∧ (s.clk.tcxoOk = false → (nodeReset cause refs trim s).sys.halt = 3
        ∧ ∀ d ∈ [1, 2, 3, 4, 5, 6, 7], domUp (nodeReset cause refs trim s) d = false)
    ∧ (s.clk.tcxoOk = true → refs = false → (nodeReset cause refs trim s).sys.step = 1
        ∧ (nodeReset cause refs trim s).sys.halt = 1
        ∧ ∀ d ∈ [1, 2, 3, 4, 5, 6, 7], domUp (nodeReset cause refs trim s) d = false)
    ∧ (s.clk.tcxoOk = true → refs = true → ∀ d ∈ [1, 2, 3, 7], domUp (nodeReset cause refs trim s) d = true) := by
  obtain ⟨h, hd⟩ := resetDown_down cause s
  rw [nodeReset_eq]
  generalize resetDown cause s = u at h hd ⊢
  by_cases ht : s.clk.tcxoOk = true
  · rw [if_pos (h.tcxo.trans ht)]
    have hs := startRefs_start refs trim u
    have hc := startRefs_claim refs trim u
    obtain ⟨hup, hoth⟩ := domUp_startRefs refs trim u
    refine ⟨⟨((congrArg SysBlk.cause hs.sys :)).trans h.cause, ((congrArg SysBlk.resets hs.sys :)).trans h.resets,
      ((congrArg SysBlk.resetAsked hs.sys :)).trans h.asked, ((congrArg SysBlk.shedding hs.sys :)).trans h.shedding,
      (congrArg SupBlk.returned hs.sup).trans h.returned, (congrArg ClkBlk.tcxoOk hs.clk).trans h.tcxo,
      hc.own.trans h.own, hc.gates.trans h.gates, hc.role.trans h.role, hc.pending.trans h.pending⟩,
      fun hf => absurd (ht.symm.trans hf) (by decide), fun _ hr => ?_, fun _ hr => hup hr⟩
    refine ⟨?_, ?_, fun d hd' => (hoth d (.inl hr)).trans (hd d hd')⟩
    · rw [hr, startRefs_fail]
    · rw [hr, startRefs_fail]
  · have hf : s.clk.tcxoOk = false := Bool.eq_false_iff.2 ht
    rw [if_neg (by rw [h.tcxo]; exact ht)]
    exact ⟨⟨h.cause, h.resets, h.asked, h.shedding, h.returned, h.tcxo, h.own, h.gates, h.role, h.pending⟩,
      fun _ => ⟨rfl, hd⟩, fun h => absurd h ht, fun h => absurd h ht⟩

end Sys2Proof.Machine
end


section
/-! PTP time, the host port and the service port (R370, R371, R381 to R387, O54). -/

namespace Sys2Proof.Machine

/-! PTP (R370, R371). -/

theorem ptpAsk_spec {op : Nat} {c : Instr} {req : Requester} {s : State} (hp : PageReady s 0x3E)
    (he : exec c s = .next (ptpAsk op req 0 s)) : Answers c s 0x3E (hdrDone .ok 0)
      { s with ptp.asked := s.ptp.asked ++ [(BitVec.ofNat 2 op, s.ptp.adjHi ++ s.ptp.adjLo)] } :=
  answers_done hp he (if_neg (fun h => h rfl)) (by decide)

/-- One SET or STEP at a boundary. -/
def ptpApply (s : State) (a : BitVec 2 × Dword) : State :=
  blockEv 0x3E 1 (a.1.toNat * 2 ^ 16) (setSticky 0x3E 8
    { s with ptp.time := if a.1 = 1#2 then a.2 else s.ptp.time + a.2 })

theorem ptpApply_time (s : State) (a : BitVec 2 × Dword) :
    (ptpApply s a).ptp.time = if a.1 = 1#2 then a.2 else s.ptp.time + a.2 := by
  obtain ⟨_, _, h⟩ := blockEv_evq 0x3E 1 (a.1.toNat * 2 ^ 16) (setSticky 0x3E 8
    { s with ptp.time := if a.1 = 1#2 then a.2 else s.ptp.time + a.2 })
  unfold ptpApply
  rw [h]
  rfl

theorem ptpBoundary_eq (s : State) : ptpBoundary s = s.ptp.asked.foldl ptpApply
    { s with ptp.time := s.ptp.time + 250000, ptp.asked := [] } := rfl

theorem ptpBoundary_spec (x : Dword) (s : State) :
    (s.ptp.asked = [] → (ptpBoundary s).ptp.time = s.ptp.time + 250000)
    ∧ (s.ptp.asked = [(1, x)] → (ptpBoundary s).ptp.time = x)
    ∧ (s.ptp.asked = [(2, x)] → (ptpBoundary s).ptp.time = s.ptp.time + 250000 + x) := by
  refine ⟨fun h => ?_, fun h => ?_, fun h => ?_⟩ <;> rw [ptpBoundary_eq, h]
  · rfl
  · exact (ptpApply_time _ (1, x)).trans (if_pos rfl)
  · exact (ptpApply_time _ (2, x)).trans (if_neg (show ¬ (2 : BitVec 2) = 1#2 by decide))

theorem ptpNowRead_spec {req : Requester} {s : State} (hd : domUp s 7 = true) : ∃ t, exec (.ptpNowRead req) s = .next t
    ∧ t.resp.words = [(ptpNow s).setWidth 32] ∧ t.ptp.now.get 0 req.reader = ptpNow s
    ∧ (∀ k, k ≠ req.reader → t.ptp.now.get 0 k = s.ptp.now.get 0 k)
    ∧ t = { s with ptp.now := t.ptp.now, resp := t.resp, free := t.free } := by
  have h : ptpNowRead req s = ({ s with ptp.now := s.ptp.now.set req.reader (ptpNow s), free := s.free + 1 },
      (ptpNow s).setWidth 32) := if_pos hd
  have he : exec (.ptpNowRead req) s = .next (setResp [(ptpNowRead req s).2] (ptpNowRead req s).1) := rfl
  rw [h] at he
  exact ⟨_, he, rfl, Tab.get_set_same _ _ _ _, fun k hk => Tab.get_set_other _ _ _ hk, rfl⟩

theorem ptpValidExpiry_spec {s : State} (hd : domUp s 7 = true) (hs : s.ptp.synced = true) :
    ∃ t, exec .ptpValidExpiry s = .next t ∧ t.ptp.valid = false
      ∧ (s.ptp.valid = true → bitAt (hdr t 0x3E).sticky 9 = true) ∧ t.ptp = { s.ptp with valid := false }
      ∧ t = { s with ptp := t.ptp, hdrs := t.hdrs, evq := t.evq, free := t.free } := by
  have he : exec .ptpValidExpiry s = .next (ptpValid false s) := by
    refine congrArg Host.Outcome.next (if_pos ?_)
    rw [hd, hs]
    rfl
  by_cases hv : s.ptp.valid = false
  · have hn : ptpValid false s = s := if_pos hv
    rw [hn] at he
    exact ⟨s, he, hv, fun h => absurd (h.symm.trans hv) (by decide), by rw [← hv], rfl⟩
  · obtain ⟨e, f, h⟩ := blockEv_evq 0x3E 2 0 (setSticky 0x3E 9 { s with ptp.valid := false })
    have hn : ptpValid false s = blockEv 0x3E 2 0 (setSticky 0x3E 9 { s with ptp.valid := false }) := if_neg hv
    rw [hn, h] at he
    refine ⟨_, he, rfl, fun _ => ?_, rfl, rfl⟩
    exact (congrArg (fun x : PageHdr => bitAt x.sticky 9) (hdr_setSticky_same 0x3E 9 _)).trans (sticky_set _ (by decide))

/-! Host transactions (R382 to R386). -/

section
variable {usb : Bool} {cmd crc : Byte} {a : Word} {sent : List Byte} {kind : Nat} {run : State → State} {s : State}

theorem hostPort_open (hn : netUp s = true) (hu : usb = true → s.host.usb = true) :
    (netUp s && (!usb || s.host.usb)) = true := by
  rw [hn, Bool.true_and]
  cases usb
  · rfl
  · exact hu rfl

theorem hostTransaction_badCrc (hn : netUp s = true) (hu : usb = true → s.host.usb = true) (h : ¬ crc8 (cmd :: sent) = crc) :
    hostTransaction usb cmd a sent crc kind run s = hostCrcError s := (if_pos (hostPort_open hn hu)).trans (if_pos h)

theorem hostTransaction_badFormat (hn : netUp s = true) (hu : usb = true → s.host.usb = true)
    (h : crc8 (cmd :: sent) = crc) (hf : fld cmd 4 4 ≠ kind ∨ a.toNat % 4 ≠ 0) :
    hostTransaction usb cmd a sent crc kind run s = hostRefuse 0x5A s :=
  (if_pos (hostPort_open hn hu)).trans ((if_neg (fun k => k h)).trans (if_pos (by simpa using hf)))

theorem hostTransaction_runs (hn : netUp s = true) (hu : usb = true → s.host.usb = true) (h : crc8 (cmd :: sent) = crc)
    (hk : fld cmd 4 4 = kind) (ha : a.toNat % 4 = 0) : hostTransaction usb cmd a sent crc kind run s = run s :=
  (if_pos (hostPort_open hn hu)).trans ((if_neg (fun k => k h)).trans (if_neg (by simp [hk, ha])))

end

/-- A refusal sets its sticky bit and shows its status. -/
theorem hostRefuse_answers {c : Instr} {st : Byte} {s : State} (he : exec c s = .next (hostRefuse st s)) :
    Answers c s 0x49 (hdrSticky 9) { s with host.format := satInc s.host.format, resp := { hostStatus := some st } } :=
  ⟨_, he, hdr_setSticky_same 0x49 9 s, fun _ hq => hdr_setSticky_other 0x49 9 s hq, rfl⟩

theorem hostCrcError_answers {c : Instr} {s : State} (he : exec c s = .next (hostCrcError s)) :
    Answers c s 0x49 (hdrSticky 8) { s with host.crc := satInc s.host.crc, resp := { hostStatus := some 0x3C } } :=
  ⟨_, he, hdr_setSticky_same 0x49 8 s, fun _ hq => hdr_setSticky_other 0x49 8 s hq, rfl⟩

/-- RAM lies outside the pages, the windows and the cores' own memory. -/
theorem inRam_apart {a n : Nat} (h : inRam a n = true) :
    ¬ (0x40000000 ≤ a ∧ a < 0x54000000) ∧ ¬ (0x10000000 ≤ a ∧ a + n ≤ 0x10010000) := by
  unfold inRam at h
  simp only [Bool.or_eq_true, Bool.and_eq_true, decide_eq_true_eq] at h
  omega

theorem busRead_ram {req : Requester} {a n : Nat} (h : inRam a n = true) (s : State) :
    busRead req a n s = (s, BitVec.ofNat 32 (leNat (ramRead s a n))) := by
  obtain ⟨h1, h2⟩ := inRam_apart h
  refine (if_neg h1).trans ((if_neg fun k => h2 ⟨k.1, k.2.1⟩).trans (if_pos ?_))
  rw [h, Bool.or_true]

theorem busWrite_ram {req : Requester} {a n : Nat} {v : Word} {s : State} (h : inRam a n = true) (hd : domUp s 2 = true) :
    busWrite req a n v s = ramWrite a (leBytes n v.toNat) s := by
  obtain ⟨h1, h2⟩ := inRam_apart h
  have h' : inRam a (leBytes n v.toNat).length = true := by
    rw [leBytes_length]
    exact h
  refine (if_neg h1).trans ((if_pos hd).trans ((if_neg ?_).trans (if_pos h')))
  rw [leBytes_length]
  exact h2

theorem inRam_notWaiting {cmd : Byte} {a : Word} (hc : fld cmd 0 4 = 0) (h : inRam a.toNat 4 = true) (s : State) :
    readWaits cmd a s = false := by
  have hr : readCount cmd = 1 := by
    unfold readCount
    rw [hc]
  have hn : (0x51000000 ≤ a.toNat + 4 * 0 && a.toNat + 4 * 0 < 0x52000000) = false := by
    obtain ⟨h1, -⟩ := inRam_apart h
    simp only [Bool.and_eq_false_iff, decide_eq_false_iff_not]
    omega
  unfold readWaits
  rw [hr]
  simp only [List.range_one, List.any_cons, List.any_nil, Bool.or_false, hn, Bool.and_false]

/-- nCS falls and rises around a transaction. -/
theorem hostSelect_around {usb : Bool} {s : State} (h : s.host.cs = false) :
    hostSelect usb false (hostSelect usb true s) = s := by
  cases usb
  · change { s with host.cs := false } = s
    rw [← h]
  · rfl

theorem hostSelect_mem (usb b : Bool) (s : State) : hostSelect usb b s = { s with host := (hostSelect usb b s).host } := by
  cases usb <;> rfl

theorem hostReadNow_word {usb : Bool} {cmd : Byte} {a : Word} {s : State} (hc : fld cmd 0 4 = 0)
    (hr : inRam a.toNat 4 = true) (hs : s.host.cs = false) : hostReadNow usb cmd a s = { s with resp :=
      let w := BitVec.ofNat 32 (leNat (ramRead s a.toNat 4))
      { words := [w], hostStatus := some 0xC3, nodeCrc := some (crc8 (0xC3 :: hostBytes w)) } } := by
  have hn : readCount cmd = 1 := by
    unfold readCount
    rw [hc]
  have hb : busRead .host a.toNat 4 (hostSelect usb true s)
      = (hostSelect usb true s, BitVec.ofNat 32 (leNat (ramRead s a.toNat 4))) := by
    rw [busRead_ram hr, hostSelect_mem]
    rfl
  unfold hostReadNow
  simp only [hn, readWords, hb, List.flatMap_cons, List.flatMap_nil, List.append_nil, hostSelect_around hs]

theorem hostRead_waits {usb : Bool} {cmd : Byte} {a : Word} {s : State} :
    hostAnswer 0x0F (hostSelect usb true { s with host.waiting := s.host.waiting ++ [(usb, cmd, a)] })
      = { s with host.waiting := s.host.waiting ++ [(usb, cmd, a)], host.cs := !usb || s.host.cs
                 resp := { hostStatus := some 0x0F } } := by
  cases usb <;> rfl

theorem hostRead_spec {usb : Bool} {cmd crc : Byte} {a : Word} {s : State} (hn : netUp s = true)
    (hu : usb = true → s.host.usb = true) :
    let ok := crc8 (cmd :: hostBytes a) = crc
    (¬ ok → Answers (.hostRead usb cmd a crc) s 0x49 (hdrSticky 8)
        { s with host.crc := satInc s.host.crc, resp := { hostStatus := some 0x3C } })
    ∧ (ok → fld cmd 4 4 ≠ 1 ∨ a.toNat % 4 ≠ 0 → Answers (.hostRead usb cmd a crc) s 0x49 (hdrSticky 9)
        { s with host.format := satInc s.host.format, resp := { hostStatus := some 0x5A } })
    ∧ (ok → fld cmd 4 4 = 1 → fld cmd 0 4 = 0 → a.toNat % 4 = 0 → inRam a.toNat 4 = true → s.host.cs = false →
        exec (.hostRead usb cmd a crc) s = .next { s with resp :=
          let w := BitVec.ofNat 32 (leNat (ramRead s a.toNat 4))
          { words := [w], hostStatus := some 0xC3, nodeCrc := some (crc8 (0xC3 :: hostBytes w)) } })
    ∧ (ok → fld cmd 4 4 = 1 → a.toNat % 4 = 0 → readWaits cmd a s = true → exec (.hostRead usb cmd a crc) s
        = .next { s with host.waiting := s.host.waiting ++ [(usb, cmd, a)], host.cs := !usb || s.host.cs
                         resp := { hostStatus := some 0x0F } }) := by
  intro ok
  refine ⟨fun h => hostCrcError_answers (congrArg Host.Outcome.next (hostTransaction_badCrc hn hu h)),
    fun h hf => hostRefuse_answers (congrArg Host.Outcome.next (hostTransaction_badFormat hn hu h hf)),
    fun h hk hc ha hr hs => congrArg Host.Outcome.next ((hostTransaction_runs hn hu h hk ha).trans ?_),
    fun h hk ha hw => congrArg Host.Outcome.next ((hostTransaction_runs hn hu h hk ha).trans ?_)⟩
  · exact (if_neg (by rw [inRam_notWaiting hc hr]; decide)).trans (hostReadNow_word hc hr hs)
  · exact (if_pos hw).trans hostRead_waits

/-- A WRITE of one word to RAM. -/
theorem hostWrite_word {usb : Bool} {cmd crc : Byte} {a w : Word} {s : State} (hn : netUp s = true)
    (hu : usb = true → s.host.usb = true) (hc : fld cmd 0 4 = 0)
    (hk : crc8 (cmd :: (hostBytes a ++ hostBytes w)) = crc) (h2 : fld cmd 4 4 = 2) (ha : a.toNat % 4 = 0)
    (hr : inRam a.toNat 4 = true) (hd : domUp s 2 = true) (hs : s.host.cs = false) :
    exec (.hostWrite usb cmd a [w] crc) s = .next { s with
      mem.main := s.mem.main.writeN 0 a.toNat (leBytes 4 w.toNat), resp := { hostStatus := some 0xC3 } } := by
  have hcount : readCount cmd = 1 := by
    unfold readCount
    rw [hc]
  have hs0 : { s with host.cs := false } = s := by rw [← hs]
  have hflat : [w].flatMap hostBytes = hostBytes w := by simp
  refine congrArg Host.Outcome.next ?_
  rw [hcount]
  change (if [w].length < 1 then _ else hostTransaction usb cmd a (hostBytes a ++ [w].flatMap hostBytes) crc 2 _ s) = _
  rw [hflat, if_neg (show ¬ [w].length < 1 from Nat.lt_irrefl 1), hostTransaction_runs hn hu hk h2 ha]
  change hostAnswer 0xC3 (hostSelect usb false (busWrite .host a.toNat 4 w (hostSelect usb true s))) = _
  cases usb
  · rw [busWrite_ram hr (by exact hd)]
    change { s with host.cs := false, mem.main := s.mem.main.writeN 0 a.toNat (leBytes 4 w.toNat)
                    resp := { hostStatus := some 0xC3 } } = _
    rw [← hs]
  · rw [busWrite_ram hr (by exact hd)]
    rfl

theorem hostWrite_spec {usb : Bool} {cmd crc : Byte} {a w : Word} {s : State} (hn : netUp s = true)
    (hu : usb = true → s.host.usb = true) (hc : fld cmd 0 4 = 0)
    (hk : crc8 (cmd :: (hostBytes a ++ hostBytes w)) = crc) (h2 : fld cmd 4 4 = 2) (ha : a.toNat % 4 = 0)
    (hr : inRam a.toNat 4 = true) (hd : domUp s 2 = true) (hw : s.mem.main.wf 0 = true) (hs : s.host.cs = false) :
    ∃ t, exec (.hostWrite usb cmd a [w] crc) s = .next t ∧ t.resp = { hostStatus := some 0xC3 }
      ∧ leNat (ramRead t a.toNat 4) = w.toNat
      ∧ (∀ b, b < a.toNat ∨ a.toNat + 4 ≤ b → t.mem.main.read 0 b = s.mem.main.read 0 b)
      ∧ t = { s with mem.main := t.mem.main, resp := t.resp } := by
  refine ⟨_, hostWrite_word hn hu hc hk h2 ha hr hd hs, rfl, ?_, fun b hb => ?_, rfl⟩
  · have h := Mem.leNat_writeN hw a.toNat 4 w.toNat []
    rw [List.append_nil] at h
    exact h.trans (Nat.mod_eq_of_lt w.isLt)
  · exact Mem.read_writeN_other _ (by rw [leBytes_length]; exact hb)

/-! nRST, the service port and its keys (R385 to R387). -/

theorem hostReset_spec {refs trim : Bool} {s : State} (hn : netUp s = true) (hr : s.host.rstEn = true) :
    ∃ t, exec (.hostReset refs trim) s = .next t ∧ t.sys.cause = 2 ∧ t.sys.resets = satInc s.sys.resets
      ∧ t.red.own = 0 ∧ t.red.gates = false ∧ t.red.role = s.red.role ∧ t.pending = s.pending := by
  have he : exec (.hostReset refs trim) s = .next (nodeReset 2 refs trim s) := by
    refine congrArg Host.Outcome.next (if_pos ?_)
    rw [hn, hr]
    rfl
  obtain ⟨h, -⟩ := nodeReset_spec 2 refs trim s
  exact ⟨_, he, h.cause, h.resets, h.own, h.gates, h.role, h.pending⟩

/-- Whether an installation is authentic: by the key held, or unkeyed where none is (R387). -/
def keyAuthentic (held : Option (List Byte)) (key mac : List Byte) : Prop :=
  match held with
  | some k => hmacSha256 k key = mac
  | none => mac = List.replicate 32 0

theorem keyInstall_open {n : Fin 2} {key mac : List Byte} {s : State} (hn : netUp s = true) (hu : s.host.usb = true)
    (hk : key.length = 32) (hm : mac.length = 32) (ok : Bool)
    (hok : ok = true ↔ keyAuthentic (if n.val = 0 then s.plan.key else s.safe.key) key mac) :
    exec (.keyInstall n key mac) s = .next (
      if !ok || (n.val = 1 && (claimed s || !domUp s 1)) then hostRefuse 0x99 s
      else hostAnswer 0xC3 (if n.val = 0 then { s with plan.key := some key } else { s with safe.key := some key })) := by
  refine congrArg Host.Outcome.next ((if_pos (by rw [hn, hu]; rfl)).trans ((if_neg (by simp [hk, hm])).trans ?_))
  have hd : (match (if n.val = 0 then s.plan.key else s.safe.key) with
      | some k => decide (hmacSha256 k key = mac)
      | none => decide (mac = List.replicate 32 0)) = ok := by
    unfold keyAuthentic at hok
    rw [Bool.eq_iff_iff]
    split <;> next h => rw [h] at hok; rw [decide_eq_true_eq, hok]
  rw [← hd] <;> rfl

theorem keyInstall_spec {n : Fin 2} {key mac : List Byte} {s : State} (hn : netUp s = true) (hu : s.host.usb = true)
    (hk : key.length = 32) (hm : mac.length = 32) :
    let ok := keyAuthentic (if n.val = 0 then s.plan.key else s.safe.key) key mac
    (ok → n.val = 0 → exec (.keyInstall n key mac) s
        = .next { s with plan.key := some key, resp := { hostStatus := some 0xC3 } })
    ∧ (ok → n.val = 1 → claimed s = false → domUp s 1 = true → exec (.keyInstall n key mac) s
        = .next { s with safe.key := some key, resp := { hostStatus := some 0xC3 } })
    ∧ (¬ ok → Answers (.keyInstall n key mac) s 0x49 (hdrSticky 9)
        { s with host.format := satInc s.host.format, resp := { hostStatus := some 0x99 } }) := by
  intro ok
  refine ⟨fun h h0 => ?_, fun h h1 hc hd => ?_, fun h => hostRefuse_answers ?_⟩
  · refine (keyInstall_open hn hu hk hm true (iff_of_true rfl h)).trans (congrArg Host.Outcome.next ?_)
    exact (if_neg (by rw [h0]; exact Bool.false_ne_true)).trans (congrArg (hostAnswer 0xC3) (if_pos h0))
  · refine (keyInstall_open hn hu hk hm true (iff_of_true rfl h)).trans (congrArg Host.Outcome.next ?_)
    exact (if_neg (by rw [h1, hc, hd]; decide)).trans (congrArg (hostAnswer 0xC3) (if_neg (by rw [h1]; decide)))
  · exact (keyInstall_open hn hu hk hm false (iff_of_false Bool.false_ne_true h)).trans
      (congrArg Host.Outcome.next (if_pos rfl))

/-- Settles O54. -/
theorem timeAndHostPort : Obligations.TimeAndHostPort := by
  unfold Obligations.TimeAndHostPort
  refine ⟨fun req s hp => ⟨ptpAsk_spec (op := 1) hp rfl, ptpAsk_spec (op := 2) hp rfl⟩, ptpBoundary_spec,
    fun req s hd => ptpNowRead_spec hd, fun s hd hs => ptpValidExpiry_spec hd hs,
    fun usb cmd crc a s hn hu => hostRead_spec hn hu,
    fun usb cmd crc a w s hn hu hc hk h2 ha hr hd hw hs => hostWrite_spec hn hu hc hk h2 ha hr hd hw hs,
    fun s hn => congrArg Host.Outcome.next (if_pos hn), fun refs trim s hn hr => hostReset_spec hn hr,
    fun on s hn => congrArg Host.Outcome.next (if_pos hn), fun n key mac s hn hu hk hm => keyInstall_spec hn hu hk hm⟩

end Sys2Proof.Machine
end


section
/-! The log store: rings, APPEND, READ, captures, commits, failures, start and archive (R390 to R402, O56). -/

namespace Sys2Proof.Machine

/-! Rings (R390). -/

/-- Dropping the oldest blocks changes the items alone. -/
theorem ringClear_frame (room need : Nat) (x : LogPart) :
    ∃ l n, ringClear room need x = { x with items := l, size := n } := by
  unfold ringClear
  generalize x.items.length = k
  induction k generalizing x with
  | zero => exact ⟨_, _, rfl⟩
  | succ k ih =>
    have hstep : ∃ l n, (if x.size + need ≤ room then x else
        { x with items := dropOldest eraseBlock x.items, size := itemBytes (dropOldest eraseBlock x.items) })
        = { x with items := l, size := n } := by
      split
      · exact ⟨_, _, rfl⟩
      · exact ⟨_, _, rfl⟩
    obtain ⟨l, n, hstep⟩ := hstep
    obtain ⟨l', n', h⟩ := ih { x with items := l, size := n }
    refine ⟨l', n', Eq.trans ?_ h⟩
    rw [← hstep]
    rfl

theorem ringClear_room {room need : Nat} {x : LogPart} (h : x.size + need ≤ room) : ringClear room need x = x := by
  unfold ringClear
  refine iterate_fixed ?_ _
  exact if_pos h

/-- One item more: head, commit and the newest item. -/
theorem ringPut_part (p : Nat) (mk : Word → List Byte) (s : State) :
    (logPart (ringPut p mk s) p).head = (logPart s p).head + 1
    ∧ (logPart (ringPut p mk s) p).commit = (logPart s p).commit
    ∧ (logPart (ringPut p mk s) p).items.getLast? = some ((logPart s p).head + 1, mk ((logPart s p).head + 1)) := by
  have h : logPart (ringPut p mk s) p = _ := updPart_same p _ s
  obtain ⟨l, n, hc⟩ := ringClear_frame (partRoom s p) (mk ((logPart s p).head + 1)).length (logPart s p)
  rw [h]
  dsimp only
  rw [hc]
  exact ⟨rfl, rfl, List.getLast?_concat⟩

theorem ringPut_other (p : Nat) (mk : Word → List Byte) (s : State) {q : Nat} (h : q ≠ p) :
    logPart (ringPut p mk s) q = logPart s q := updPart_other p _ s h

/-- An item for which there is room drops none. -/
theorem ringPut_items {p : Nat} {mk : Word → List Byte} {s : State}
    (h : (logPart s p).size + (mk ((logPart s p).head + 1)).length ≤ partRoom s p) :
    (logPart (ringPut p mk s) p).items = (logPart s p).items ++ [((logPart s p).head + 1, mk ((logPart s p).head + 1))] := by
  have h' : logPart (ringPut p mk s) p = _ := updPart_same p _ s
  rw [h']
  dsimp only
  rw [ringClear_room h]

/-- Only the partitions differ. -/
def PartsOnly (s t : State) : Prop := ∃ l, t = { s with log.parts := l }

theorem PartsOnly.refl (s : State) : PartsOnly s s := ⟨_, rfl⟩

theorem PartsOnly.trans {s t u : State} (h : PartsOnly s t) (k : PartsOnly t u) : PartsOnly s u := by
  obtain ⟨_, rfl⟩ := h
  obtain ⟨_, rfl⟩ := k
  exact ⟨_, rfl⟩

theorem updPart_partsOnly (p : Nat) (f : LogPart → LogPart) (s : State) : PartsOnly s (updPart p f s) := ⟨_, rfl⟩

theorem ringPut_partsOnly (p : Nat) (mk : Word → List Byte) (s : State) : PartsOnly s (ringPut p mk s) := ⟨_, rfl⟩

theorem logEvent_evq (code p detail : Nat) (s : State) : ∃ e f, logEvent code p detail s = { s with evq := e, free := f } :=
  blockEv_evq _ _ _ s

theorem logPart_logEvent (code p detail : Nat) (s : State) (q : Nat) : logPart (logEvent code p detail s) q = logPart s q := by
  obtain ⟨e, f, h⟩ := logEvent_evq code p detail s
  rw [h]
  rfl

/-! APPEND (R395). -/

/-- A host record joins partition 1, its SEQ in its first word. -/
def recordPut (s : State) (r : List Byte) : State := ringPut 1 (fun seq => leBytes 4 seq.toNat ++ r.drop 4) s

/-- Records appended: SEQ rises by their number, nothing else of the block changes. -/
structure Appended (k : Nat) (s t : State) : Prop where
  head : (logPart t 1).head = (logPart s 1).head + BitVec.ofNat 32 k
  commit : (logPart t 1).commit = (logPart s 1).commit
  others : ∀ q, q ≠ 1 → logPart t q = logPart s q
  frame : PartsOnly s t

theorem recordsPut (l : List (List Byte)) (s : State) : Appended l.length s (l.foldl recordPut s) := by
  induction l generalizing s with
  | nil => exact ⟨(BitVec.add_zero _).symm, rfl, fun _ _ => rfl, .refl s⟩
  | cons r l ih =>
    have h := ih (recordPut s r)
    obtain ⟨hh, hc, -⟩ := ringPut_part 1 (fun seq => leBytes 4 seq.toNat ++ r.drop 4) s
    refine ⟨?_, h.commit.trans hc, fun q hq => (h.others q hq).trans (ringPut_other 1 _ s hq),
      (ringPut_partsOnly 1 _ s).trans h.frame⟩
    rw [List.length_cons, Nat.add_comm, BitVec.ofNat_add, ← BitVec.add_assoc]
    exact h.head.trans (congrArg (· + BitVec.ofNat 32 l.length) hh)

theorem cut32_length (n : Nat) : ∀ b, (cut32 n b).length = n := by
  induction n with
  | zero => exact fun _ => rfl
  | succ n ih => exact fun b => congrArg (· + 1) (ih (b.drop 32))

theorem append_spec {req : Requester} {s : State} (hp : PageReady s 0x40) (hr : s.log.ready = true)
    (hl : s.sup.supplyLoss = false) :
    let n := fld s.log.len 0 17
    let a := s.log.addr.toNat
    let x := logPart s 1
    n % 32 = 0 → 32 ≤ n → n ≤ 4096 → a % 4 = 0 → inRam a n = true → bufUsed s 1 + n ≤ bufShare 1 →
    ∃ t, exec (.append req 0) s = .next t ∧ hdr t 0x40 = hdrDone .ok (fld (x.head + 1) 0 24) (hdr s 0x40)
      ∧ (logPart t 1).head = x.head + BitVec.ofNat 32 (n / 32) ∧ (logPart t 1).commit = x.commit
      ∧ (n = 32 → x.size + 32 ≤ partRoom s 1 → (logPart t 1).items
          = x.items ++ [(x.head + 1, leBytes 4 (x.head + 1).toNat ++ (ramRead s a 32).drop 4)])
      ∧ (∀ q, q ≠ 1 → logPart t q = logPart s q) ∧ t = { s with hdrs := t.hdrs, log.parts := t.log.parts } := by
  intro n a x hn32 hn1 hn2 ha hin hbuf
  have hrun := recordsPut (cut32 (n / 32) (ramRead s a n)) (takeCmd 0x40 req 1 0 s)
  rw [cut32_length] at hrun
  generalize hu : (cut32 (n / 32) (ramRead s a n)).foldl recordPut (takeCmd 0x40 req 1 0 s) = u at hrun
  obtain ⟨l, hfr⟩ := hrun.frame
  have hbody : exec (.append req 0) s = .next (issueCmd 0x40 req 1 0 (fun s =>
      let n := fld s.log.len 0 17
      let a := s.log.addr.toNat
      if (0 : BitVec 24) ≠ 0 || n % 32 ≠ 0 || n < 32 || 4096 < n || a % 4 ≠ 0 || !inRam a n then .done .badArg 0 s
      else if !s.log.ready || s.sup.supplyLoss then .done .state 0 s
      else if bufShare 1 < bufUsed s 1 + n then .done .busy 0 s
      else .done .ok (fld ((logPart s 1).head + 1) 0 24) ((cut32 (n / 32) (ramRead s a n)).foldl recordPut s)) s) := rfl
  have hdone := issueCmd_done (p := 0x40) (req := req) (op := 1) (arg := 0) (s := s) (u := u)
    (r := fld (x.head + 1) 0 24) (st := .ok) (body := fun s =>
      let n := fld s.log.len 0 17
      let a := s.log.addr.toNat
      if (0 : BitVec 24) ≠ 0 || n % 32 ≠ 0 || n < 32 || 4096 < n || a % 4 ≠ 0 || !inRam a n then .done .badArg 0 s
      else if !s.log.ready || s.sup.supplyLoss then .done .state 0 s
      else if bufShare 1 < bufUsed s 1 + n then .done .busy 0 s
      else .done .ok (fld ((logPart s 1).head + 1) 0 24) ((cut32 (n / 32) (ramRead s a n)).foldl recordPut s)) hp
    (by
      rw [← hu]
      refine (if_neg ?_).trans ((if_neg ?_).trans (if_neg (Nat.not_lt.2 hbuf)))
      · have h1 : ¬ n < 32 := by omega
        have h2 : ¬ 4096 < n := by omega
        change ¬ (decide ((0 : BitVec 24) ≠ 0) || decide (n % 32 ≠ 0) || decide (n < 32) || decide (4096 < n)
          || decide (a % 4 ≠ 0) || !inRam a n) = true
        simp [hn32, h1, h2, ha, hin]
      · change ¬ (!s.log.ready || s.sup.supplyLoss) = true
        rw [hr, hl]
        decide)
    (by rw [hfr]) (by decide)
  obtain ⟨hx, hh⟩ := hdone
  refine ⟨_, hbody.trans (congrArg Host.Outcome.next hx), hh, hrun.head, hrun.commit, fun h32 hroom => ?_, hrun.others, ?_⟩
  · have hone : u = recordPut (takeCmd 0x40 req 1 0 s) (ramRead s a 32) := by
      have h1 : cut32 (n / 32) (ramRead s a n) = [ramRead s a 32] := by
        rw [h32]
        change [(ramRead s a 32).take 32] = _
        rw [List.take_of_length_le (Nat.le_of_eq (show (ramRead s a 32).length = 32 from Mem.readN_length _ _ _ _))]
      rw [← hu, h1]
      rfl
    have hlen : (leBytes 4 (x.head + 1).toNat ++ (ramRead s a 32).drop 4).length = 32 := by
      rw [List.length_append, leBytes_length, List.length_drop]
      unfold ramRead
      rw [Mem.readN_length]
    change (logPart u 1).items = _
    rw [hone]
    refine ringPut_items (s := takeCmd 0x40 req 1 0 s) ?_
    change x.size + (leBytes 4 (x.head + 1).toNat ++ (ramRead s a 32).drop 4).length ≤ partRoom s 1
    rw [hlen]
    exact hroom
  · rw [hfr]
    rfl

/-! READ (R402). -/

theorem takeRecords_fits (n : Nat) (l : List (Word × List Byte)) : (takeRecords none n l).2 = false
    ∧ ((takeRecords none n l).1.flatMap Prod.snd).length ≤ n := by
  induction l generalizing n with
  | nil => exact ⟨rfl, Nat.zero_le n⟩
  | cons x l ih =>
    obtain ⟨h1, h2⟩ := ih (n - x.2.length)
    unfold takeRecords
    split
    · exact ⟨rfl, Nat.zero_le n⟩
    · next h =>
      refine ⟨h1, ?_⟩
      rw [if_neg nofun]
      simp only [List.flatMap_cons, List.length_append]
      omega

theorem readBytes_fits (s : State) (p : Nat) : (readBytes s p none).2.2 = false
    ∧ (readBytes s p none).1.length ≤ min (fld s.log.len 0 17) 65536 := by
  unfold readBytes
  dsimp only
  split
  · exact takeRecords_fits _ _
  · split
    · refine ⟨rfl, ?_⟩
      rw [if_neg nofun, List.length_take]
      exact Nat.min_le_left _ _
    · exact ⟨rfl, Nat.zero_le _⟩

theorem logRead_spec {req : Requester} {arg : BitVec 24} {s : State} (hp : PageReady s 0x40) (hr : s.log.ready = true)
    (harg : arg.toNat < 5) :
    let a := s.log.addr.toNat
    let n := min (fld s.log.len 0 17) 65536
    let l := (readBytes s arg.toNat none).1
    a % 4 = 0 → inRam a n = true → s.mem.main.wf 0 = true →
    ∃ t, exec (.logRead req arg none) s = .next t ∧ hdr t 0x40 = hdrDone .ok l.length (hdr s 0x40)
      ∧ l.length ≤ n ∧ ramRead t a l.length = l
      ∧ (∀ b, b < a ∨ a + n ≤ b → t.mem.main.read 0 b = s.mem.main.read 0 b)
      ∧ (∀ q, logPart t q = logPart s q)
      ∧ t = { s with hdrs := t.hdrs, mem.main := t.mem.main, log.rfirst := t.log.rfirst } := by
  intro a n l ha hin hw
  obtain ⟨hgood, hlen⟩ := readBytes_fits s arg.toNat
  have hlow : fld arg 0 3 = arg.toNat := fld_low (k := 3) (by omega)
  have hout : argOutside arg 7 = false := argOutside_small 3 (by omega)
  have h4 : ¬ 4 < arg.toNat := by omega
  have hdone := issueCmd_done (p := 0x40) (req := req) (op := 2) (arg := arg) (s := s) (st := .ok) (r := l.length)
    (u := ramWrite a l { takeCmd 0x40 req 2 arg s with
      log.rfirst := (readBytes s arg.toNat none).2.1.getD s.log.rfirst })
    (body := fun s =>
      let p := fld arg 0 3
      let a := s.log.addr.toNat
      if argOutside arg 7 || 4 < p || a % 4 ≠ 0 || !inRam a (min (fld s.log.len 0 17) 65536) then .done .badArg 0 s
      else if !s.log.ready then .done .state 0 s
      else
        let r := readBytes s p none
        let s1 := ramWrite a r.1 { s with log.rfirst := r.2.1.getD s.log.rfirst }
        if r.2.2 then .done .hwFault r.1.length (logFault p 1 s1) else .done .ok r.1.length s1) hp
    (by
      dsimp only
      rw [hlow]
      refine (if_neg ?_).trans ((if_neg ?_).trans (if_neg ?_))
      · change ¬ (argOutside arg 7 || decide (4 < arg.toNat) || decide (a % 4 ≠ 0) || !inRam a n) = true
        simp [hout, h4, ha, hin]
      · change ¬ (!s.log.ready) = true
        rw [hr]
        decide
      · change ¬ (readBytes s arg.toNat none).2.2 = true
        rw [hgood]
        decide) rfl (by decide)
  obtain ⟨hx, hh⟩ := hdone
  refine ⟨_, congrArg Host.Outcome.next hx, hh, hlen, Mem.readN_writeN l a hw, fun b hb => ?_, fun q => rfl, rfl⟩
  exact Mem.read_writeN_other l (hb.imp id fun h => Nat.le_trans (Nat.add_le_add_left hlen a) h)

/-! Captures (R393, R402). -/

theorem capture_spec {req : Requester} {arg : BitVec 24} {c : Nat} {s : State} (hp : PageReady s 0x40)
    (ha : arg.toNat < 256) (hc : c < 8) (hb : bitAt arg c = true) (ho : capOn s c = true) :
    Answers (.capture req arg) s 0x40 (hdrHeld req 3 arg) { s with log.capAsked := some (arg.setWidth 8) } := by
  refine answers_hold (op := 3) (req := req) (arg := arg) hp rfl ((if_neg ?_).trans (if_pos ?_))
  · rw [show argOutside arg 0xFF = false from argOutside_small 8 ha]
    decide
  · refine List.any_eq_true.2 ⟨c, List.mem_range.2 hc, ?_⟩
    rw [hb]
    exact ho

theorem capGet_updCap_same (c : Nat) (f : CapBlk → CapBlk) (s : State) : capGet (updCap c f s) c = f (capGet s c) :=
  Tab.get_upd_same _ _ _ _

theorem capGet_updCap_other {c k : Nat} (h : k ≠ c) (f : CapBlk → CapBlk) (s : State) :
    capGet (updCap c f s) k = capGet s k := Tab.get_upd_other _ _ _ h

theorem exec_captureComplete {c : Fin 8} {tr : Stamp} {ptp : Dword} {s : State} (h : (capGet s c.val).trig = some (tr, ptp))
    (he : ((capGet s c.val).hist.any (fun h => msUnits (10 * fld (capGet s c.val).cfgF 0 8) ≤ stampDiff h.1 tr)) = true
      ∨ capOn s c.val = false) :
    exec (.captureComplete c) s = .next (if logTakes s then
        logEvent 4 3 c.val (ringPut 3 (fun _ => capBytes s c.val (capGet s c.val) tr ptp)
          (updCap c.val (fun x => { x with trig := none }) s))
      else updCap c.val (fun x => { x with trig := none }) s) := by
  refine congrArg Host.Outcome.next ?_
  dsimp only
  rw [h]
  refine if_pos ?_
  rcases he with he | he
  · rw [he, Bool.true_or]
  · rw [he, Bool.not_false, Bool.or_true]

theorem captureComplete_spec {c : Fin 8} {tr : Stamp} {ptp : Dword} {s : State} :
    let x := capGet s c.val
    x.trig = some (tr, ptp) →
    (x.hist.any (fun h => msUnits (10 * fld x.cfgF 0 8) ≤ stampDiff h.1 tr) = true ∨ capOn s c.val = false) →
    ∃ t, exec (.captureComplete c) s = .next t ∧ capGet t c.val = { x with trig := none }
      ∧ (∀ k, k ≠ c.val → capGet t k = capGet s k)
      ∧ (logTakes s = true → (logPart t 3).head = (logPart s 3).head + 1
          ∧ (logPart t 3).items.getLast? = some ((logPart s 3).head + 1, capBytes s c.val x tr ptp))
      ∧ (logTakes s = false → t.log.parts = s.log.parts)
      ∧ (∀ q, q ≠ 3 → logPart t q = logPart s q)
      ∧ t = { s with log.caps := t.log.caps, log.parts := t.log.parts, evq := t.evq, free := t.free } := by
  intro x hx he
  have hrun := exec_captureComplete hx he
  generalize hu : updCap c.val (fun x => { x with trig := none }) s = u at hrun
  have hsame : capGet u c.val = { x with trig := none } := by
    rw [← hu]
    exact capGet_updCap_same _ _ s
  have hother : ∀ k, k ≠ c.val → capGet u k = capGet s k := fun k hk => by
    rw [← hu]
    exact capGet_updCap_other hk _ s
  have hframe : u = { s with log.caps := u.log.caps } := by
    rw [← hu]
    rfl
  have hpart : ∀ q, logPart u q = logPart s q := fun q => by
    rw [← hu]
    rfl
  by_cases ht : logTakes s = true
  · rw [if_pos ht] at hrun
    obtain ⟨hh, -, hl⟩ := ringPut_part 3 (fun _ => capBytes s c.val x tr ptp) u
    obtain ⟨e, f, hev⟩ := logEvent_evq 4 3 c.val (ringPut 3 (fun _ => capBytes s c.val x tr ptp) u)
    refine ⟨_, hrun, ?_, fun k hk => ?_, fun _ => ⟨?_, ?_⟩, fun hf => absurd (ht.symm.trans hf) (by decide), fun q hq => ?_, ?_⟩
    · rw [hev]
      exact hsame
    · rw [hev]
      exact hother k hk
    · rw [logPart_logEvent, hh, hpart]
    · rw [logPart_logEvent, hl, hpart]
    · rw [logPart_logEvent, ringPut_other 3 _ u hq, hpart]
    · rw [hev, hframe]
      rfl
  · rw [if_neg ht] at hrun
    refine ⟨_, hrun, hsame, hother, fun h => absurd h ht, fun _ => by rw [hframe], fun q _ => hpart q, ?_⟩
    rw [hframe]

theorem trendRecord_spec {sec : Dword} {s : State} (hs : s.log.trend.second = some sec) (hg : s.log.trend.spoiled = false)
    (hq : s.log.trend.squares ≠ 0) (ht : logTakes s = true) :
    ∃ t, exec .trendRecord s = .next t ∧ t.log.trend = {}
      ∧ (logPart t 2).items.getLast? = some ((logPart s 2).head + 1, trendBytes s.log.trend sec)
      ∧ (∀ q, q ≠ 2 → logPart t q = logPart s q) ∧ t = { s with log.trend := {}, log.parts := t.log.parts } := by
  have he : exec .trendRecord s = .next (ringPut 2 (fun _ => trendBytes s.log.trend sec) { s with log.trend := {} }) := by
    refine congrArg Host.Outcome.next ?_
    unfold trendEnd
    rw [hs]
    refine if_neg ?_
    rw [hg, ht, decide_eq_false hq]
    decide
  exact ⟨_, he, rfl, (ringPut_part 2 _ { s with log.trend := {} }).2.2,
    fun q hq => ringPut_other 2 _ { s with log.trend := {} } hq, rfl⟩

/-! Commits and failures (R396, R400, R401). -/

theorem journalServe_idle {s : State} (h : s.log.latches.cells = []) : journalServe s = s := by
  unfold journalServe
  rw [h]
  rfl

theorem wearJudge_frame (s : State) : ∃ w e f, wearJudge s = { s with log.wearWarned := w, evq := e, free := f } := by
  unfold wearJudge
  dsimp only
  split
  · obtain ⟨e, f, h⟩ := logEvent_evq 2 0 s.log.remain.toNat { s with
      log.wearWarned := decide (s.log.remain.toNat < fld s.log.wearlvl 0 10) }
    exact ⟨_, e, f, h⟩
  · exact ⟨_, _, _, rfl⟩

theorem commitItems_partsOnly (p n : Nat) (s : State) : PartsOnly s (commitItems p n s) := by
  unfold commitItems
  split
  · exact updPart_partsOnly p _ s
  · exact .refl s

theorem commitItems_spec (p n : Nat) (s : State) :
    (∀ x, ((uncommitted s p).take n).getLast? = some x → (logPart (commitItems p n s) p).commit = x.1)
    ∧ ((uncommitted s p).take n = [] → logPart (commitItems p n s) p = logPart s p)
    ∧ ∀ q, q ≠ p → logPart (commitItems p n s) q = logPart s q := by
  unfold commitItems
  refine ⟨fun x hx => ?_, fun h => ?_, fun q hq => ?_⟩
  · rw [hx]
    exact congrArg LogPart.commit (updPart_same p _ s)
  · rw [h]
    rfl
  · split
    · exact updPart_other p _ s hq
    · rfl

theorem logCommit_spec {p : Fin 5} {n mean top : Nat} {s : State} (hd : domUp s 7 = true) (hl : s.log.latches.cells = []) :
    ∃ t, exec (.logCommit p n mean top) s = .next t
      ∧ (∀ x, ((uncommitted s p.val).take n).getLast? = some x → (logPart t p.val).commit = x.1)
      ∧ ((uncommitted s p.val).take n = [] → logPart t p.val = logPart s p.val)
      ∧ t.log.remain = BitVec.ofNat 16 (1000 - mean / 30) ∧ t.log.maxErase = satNat 16 top
      ∧ (∀ q, q ≠ p.val → logPart t q = logPart s q)
      ∧ t = { s with log := t.log, evq := t.evq, free := t.free } := by
  obtain ⟨h1, h2, h3⟩ := commitItems_spec p.val n s
  obtain ⟨parts, hp⟩ := commitItems_partsOnly p.val n s
  have hrun : exec (.logCommit p n mean top) s = .next (wearJudge (journalServe { commitItems p.val n s with
      log.remain := BitVec.ofNat 16 (1000 - mean / 30), log.maxErase := satNat 16 top })) :=
    congrArg Host.Outcome.next (if_pos hd)
  rw [journalServe_idle (by rw [hp]; exact hl)] at hrun
  generalize commitItems p.val n s = u at hrun h1 h2 h3 hp
  obtain ⟨w, e, f, hw⟩ := wearJudge_frame { u with
    log.remain := BitVec.ofNat 16 (1000 - mean / 30), log.maxErase := satNat 16 top }
  rw [hw] at hrun
  refine ⟨_, hrun, h1, h2, rfl, rfl, h3, ?_⟩
  rw [hp]

theorem logFault_spec (p why : Nat) (s : State) : ∃ e f, logFault p why s = { s with log.fault := true, evq := e, free := f } := by
  unfold logFault
  split
  · next h =>
    refine ⟨s.evq, s.free, ?_⟩
    rw [← h]
  · exact logEvent_evq 1 p why { s with log.fault := true }

theorem logBlockFailure_shrinks {p : Fin 5} {s : State} (hd : domUp s 7 = true) (hr : s.log.reserve = 0) :
    ∃ t, exec (.logBlockFailure p false) s = .next t ∧ t.log.fault = true ∧ t.log.reserveLow = true
      ∧ (logPart t p.val).shrunk = (logPart s p.val).shrunk + 1
      ∧ (∀ q, q ≠ p.val → logPart t q = logPart s q) ∧ t = { s with log := t.log, evq := t.evq, free := t.free } := by
  generalize hu : updPart p.val (fun x => { x with shrunk := x.shrunk + 1 }) { s with log.reserveLow := true } = u
  have hrun : exec (.logBlockFailure p false) s
      = .next (logFault p.val 2 (updPart p.val (ringClear (partRoom u p.val) 0) u)) := by
    rw [← hu]
    refine congrArg Host.Outcome.next ((if_pos hd).trans ((if_neg Bool.false_ne_true).trans (if_neg ?_)))
    rw [hr]
    exact Nat.lt_irrefl 0
  obtain ⟨e, f, hf⟩ := logFault_spec p.val 2 (updPart p.val (ringClear (partRoom u p.val) 0) u)
  obtain ⟨l, n, hc⟩ := ringClear_frame (partRoom u p.val) 0 (logPart u p.val)
  rw [hf] at hrun
  refine ⟨_, hrun, rfl, ?_, ?_, fun q hq => ?_, ?_⟩
  · rw [← hu]
    rfl
  · refine (congrArg LogPart.shrunk ((updPart_same p.val _ u).trans hc)).trans ?_
    rw [← hu]
    exact congrArg LogPart.shrunk (updPart_same p.val _ _)
  · refine (updPart_other p.val _ u hq).trans ?_
    rw [← hu]
    exact updPart_other p.val _ _ hq
  · rw [← hu]
    rfl

theorem logBlockFailure_silent {p : Fin 5} {s : State} (hd : domUp s 7 = true) :
    ∃ t, exec (.logBlockFailure p true) s = .next t ∧ t.log = { s.log with fault := true }
      ∧ t = { s with log := t.log, evq := t.evq, free := t.free } := by
  obtain ⟨e, f, h⟩ := logFault_spec p.val 4 s
  exact ⟨_, congrArg Host.Outcome.next (((if_pos hd).trans (if_pos rfl)).trans h), rfl, rfl⟩

/-! Start of the store (R398). -/

theorem commitAll_partsOnly (s : State) : PartsOnly s (commitAll s) :=
  List.foldlRecOn (motive := PartsOnly s) _ _ (.refl s) fun _ hu p _ => hu.trans (updPart_partsOnly p _ _)

/-- Everything accepted is committed, partition by partition. -/
theorem logPart_commitFold (l : List Nat) (hl : l.Nodup) (s : State) (q : Nat) :
    logPart (l.foldl (fun s p => updPart p (fun y => { y with commit := y.head }) s) s) q
      = if q ∈ l then { logPart s q with commit := (logPart s q).head } else logPart s q := by
  induction l generalizing s with
  | nil => rfl
  | cons p l ih =>
    obtain ⟨hp, hl⟩ := List.nodup_cons.1 hl
    rw [List.foldl_cons, ih hl]
    by_cases hq : q = p
    · subst hq
      rw [if_neg hp, if_pos (.head l), updPart_same]
    · rw [updPart_other p _ s hq]
      by_cases hm : q ∈ l
      · rw [if_pos hm, if_pos (.tail p hm)]
      · rw [if_neg hm, if_neg (by simp [hq, hm])]

theorem logPart_commitAll {s : State} {p : Nat} (h : p < 5) :
    logPart (commitAll s) p = { logPart s p with commit := (logPart s p).head } :=
  (logPart_commitFold _ List.nodup_range s p).trans (if_pos (List.mem_range.2 h))

theorem discardNone (s : State) : (List.range 5).foldl (fun s p =>
    discardPages p ((([] : List (Fin 5 × Word × Nat)).filter (fun x => x.1.val = p)).map Prod.snd) s) s = s := rfl

theorem logReady_spec {s : State} (hd : domUp s 7 = true) (hr : s.log.ready = false) (hl : s.log.latches.cells = []) :
    ∃ t, exec (.logReady []) s = .next t ∧ t.log.ready = true
      ∧ (∀ p, p < 5 → logPart t p = { logPart s p with commit := (logPart s p).head })
      ∧ t = { s with log := t.log, evq := t.evq, free := t.free } := by
  have hrun : exec (.logReady []) s = .next (wearJudge (trendSpoil (journalServe { commitAll s with log.ready := true }))) := by
    refine congrArg Host.Outcome.next (if_pos ?_)
    rw [hd, hr]
    rfl
  obtain ⟨parts, hp⟩ := commitAll_partsOnly s
  have hc := fun p => logPart_commitAll (s := s) (p := p)
  rw [journalServe_idle (by rw [hp]; exact hl)] at hrun
  generalize commitAll s = u at hrun hp hc
  obtain ⟨w, e, f, hw⟩ := wearJudge_frame (trendSpoil { u with log.ready := true })
  rw [hw] at hrun
  refine ⟨_, hrun, rfl, hc, ?_⟩
  rw [hp]
  rfl

/-! The plan archive (R394). -/

theorem imageBytes_loader (s : State) (l : List (Bool × Nat)) (x : Bool × Nat) :
    imageBytes { s with loader.archive := l } x = imageBytes s x := rfl

theorem archiveKept_loader (s : State) (l : List (Bool × Nat)) :
    archiveKept { s with loader.archive := l } = archiveKept s := rfl

section
variable {x : Bool × Nat} {s : State}

theorem archiveImage_held (h : (logPart s 4).items.any (fun i => imgTag i.2 = imgTag (imageBytes s x)) = true) :
    archiveImage x s = s := if_pos h

/-- The archive with room made for an image. -/
def archiveRoom (l : List (Word × List Byte)) (s : State) : State :=
  updPart 4 (fun y => { y with items := l, size := itemBytes l }) s

theorem archiveImage_fits {l : List (Word × List Byte)}
    (h : (logPart s 4).items.any (fun i => imgTag i.2 = imgTag (imageBytes s x)) = false)
    (hl : archiveFit (archiveKept s) (partRoom s 4) (imageBytes s x).length (logPart s 4).items.length (logPart s 4).items
      = some l) :
    archiveImage x s = logEvent 3 4 (fld (logPart (ringPut 4 (fun _ => imageBytes s x) (archiveRoom l s)) 4).head 0 16)
      (updPart 4 (fun y => { y with commit := y.head }) (ringPut 4 (fun _ => imageBytes s x) (archiveRoom l s))) := by
  refine (if_neg (by rw [h]; decide)).trans ?_
  rw [hl]
  rfl

theorem archiveImage_full (h : (logPart s 4).items.any (fun i => imgTag i.2 = imgTag (imageBytes s x)) = false)
    (hl : archiveFit (archiveKept s) (partRoom s 4) (imageBytes s x).length (logPart s 4).items.length (logPart s 4).items
      = none) :
    archiveImage x s = updPart 4 (fun y => { y with merged := satInc y.merged }) s := by
  refine (if_neg (by rw [h]; decide)).trans ?_
  rw [hl]

end

theorem archiveImage_newest {x : Bool × Nat} {l : List (Word × List Byte)} {s : State}
    (h : (logPart s 4).items.any (fun i => imgTag i.2 = imgTag (imageBytes s x)) = false)
    (hl : archiveFit (archiveKept s) (partRoom s 4) (imageBytes s x).length (logPart s 4).items.length (logPart s 4).items
      = some l) :
    (logPart (archiveImage x s) 4).items.getLast? = some ((logPart s 4).head + 1, imageBytes s x)
    ∧ (logPart (archiveImage x s) 4).head = (logPart s 4).head + 1
    ∧ (logPart (archiveImage x s) 4).commit = (logPart s 4).head + 1 := by
  have hr : logPart (archiveRoom l s) 4 = { logPart s 4 with items := l, size := itemBytes l } := updPart_same 4 _ s
  obtain ⟨hh, -, hlast⟩ := ringPut_part 4 (fun _ => imageBytes s x) (archiveRoom l s)
  rw [hr] at hh hlast
  rw [archiveImage_fits h hl, logPart_logEvent, updPart_same]
  exact ⟨hlast, hh, hh⟩

theorem archiveImage_frame (x : Bool × Nat) (s : State) : (∀ q, q ≠ 4 → logPart (archiveImage x s) q = logPart s q)
    ∧ ∃ l e f, archiveImage x s = { s with log.parts := l, evq := e, free := f } := by
  cases h : (logPart s 4).items.any (fun i => imgTag i.2 = imgTag (imageBytes s x)) with
  | true =>
    rw [archiveImage_held h]
    exact ⟨fun _ _ => rfl, _, _, _, rfl⟩
  | false =>
    cases hl : archiveFit (archiveKept s) (partRoom s 4) (imageBytes s x).length (logPart s 4).items.length
        (logPart s 4).items with
    | none =>
      rw [archiveImage_full h hl]
      exact ⟨fun q hq => updPart_other 4 _ s hq, _, _, _, rfl⟩
    | some l =>
      rw [archiveImage_fits h hl]
      refine ⟨fun q hq => ?_, ?_⟩
      · rw [logPart_logEvent, updPart_other 4 _ _ hq, ringPut_other 4 _ _ hq]
        exact updPart_other 4 _ s hq
      · obtain ⟨m, hm⟩ : PartsOnly s (updPart 4 (fun y => { y with commit := y.head })
            (ringPut 4 (fun _ => imageBytes s x) (archiveRoom l s))) :=
          ((updPart_partsOnly 4 _ s).trans (ringPut_partsOnly 4 _ (archiveRoom l s))).trans (updPart_partsOnly 4 _ _)
        generalize fld (logPart (ringPut 4 (fun _ => imageBytes s x) (archiveRoom l s)) 4).head 0 16 = k
        generalize updPart 4 (fun y => { y with commit := y.head })
          (ringPut 4 (fun _ => imageBytes s x) (archiveRoom l s)) = u at hm
        obtain ⟨e, f, he⟩ := logEvent_evq 3 4 k u
        rw [he, hm]
        exact ⟨_, _, _, rfl⟩

theorem planArchive_spec {x : Bool × Nat} {r : List (Bool × Nat)} {s : State} (hx : s.loader.archive = x :: r)
    (ht : logTakes s = true) :
    let b := imageBytes s x
    let y := logPart s 4
    ∃ t, exec .planArchive s = .next t ∧ t.loader.archive = r
      ∧ (y.items.any (fun i => imgTag i.2 = imgTag b) = true → t.log = s.log)
      ∧ (∀ l, y.items.any (fun i => imgTag i.2 = imgTag b) = false →
          archiveFit (archiveKept s) (partRoom s 4) b.length y.items.length y.items = some l →
          (logPart t 4).items.getLast? = some (y.head + 1, b) ∧ (logPart t 4).head = y.head + 1
            ∧ (logPart t 4).commit = y.head + 1)
      ∧ (∀ q, q ≠ 4 → logPart t q = logPart s q)
      ∧ t = { s with loader.archive := r, log.parts := t.log.parts, evq := t.evq, free := t.free } := by
  intro b y
  have hrun : exec .planArchive s = .next (archiveImage x { s with loader.archive := r }) := by
    refine congrArg Host.Outcome.next ?_
    rw [hx]
    exact if_pos ht
  obtain ⟨hoth, l, e, f, hfr⟩ := archiveImage_frame x { s with loader.archive := r }
  refine ⟨_, hrun, ?_, fun h => ?_, fun l h hl => ?_, hoth, ?_⟩
  · rw [hfr]
  · rw [archiveImage_held (s := { s with loader.archive := r }) h]
  · exact archiveImage_newest (s := { s with loader.archive := r }) h hl
  · rw [hfr]

/-- Settles O56, partition by partition. -/
theorem logStore : Obligations.LogStore := by
  unfold Obligations.LogStore
  refine ⟨fun req s hp hr hl => append_spec hp hr hl, fun req arg s hp hr ha => logRead_spec hp hr ha,
    fun req arg c s hp ha hc hb ho => capture_spec hp ha hc hb ho, fun c tr ptp s => captureComplete_spec,
    fun sec s hs hg hq ht => trendRecord_spec hs hg hq ht, fun p n mean top s hd hl => logCommit_spec hd hl,
    fun p s hd => ⟨logBlockFailure_silent hd, fun hr => congrArg Host.Outcome.next ?_, fun hr => logBlockFailure_shrinks hd hr⟩,
    fun s hd hr hl => logReady_spec hd hr hl, fun x r s hx ht => planArchive_spec hx ht⟩
  exact (if_pos hd).trans ((if_neg Bool.false_ne_true).trans (if_pos hr))

end Sys2Proof.Machine
end


section
/-! The annunciator panel: updates, clears, banner, redraw, glass and crack loop (R405 to R419, O57). -/

namespace Sys2Proof.Machine

theorem panelEvent_evq (code k detail : Nat) (s : State) : ∃ e f, panelEvent code k detail s = { s with evq := e, free := f } :=
  blockEv_evq _ _ _ s

/-! Pending updates (R407). -/

/-- Only areas and headers differ. -/
def AreasOnly (s t : State) : Prop := ∃ h a, t = { s with hdrs := h, panel.areas := a }

theorem AreasOnly.refl (s : State) : AreasOnly s s := ⟨_, _, rfl⟩

theorem AreasOnly.trans {s t u : State} (h : AreasOnly s t) (k : AreasOnly t u) : AreasOnly s u := by
  obtain ⟨_, _, rfl⟩ := h
  obtain ⟨_, _, rfl⟩ := k
  exact ⟨_, _, rfl⟩

theorem updArea_areasOnly (k : Nat) (f : PanelArea → PanelArea) (s : State) : AreasOnly s (updArea k f s) := ⟨_, _, rfl⟩

/-- The area whose pending update has been dropped, counted in LOST. -/
def pendDropped (a : PanelArea) : PanelArea := if a.pend.isSome then { a with pend := none, lost := satInc a.lost } else a

theorem pendDropped_pend (a : PanelArea) : (pendDropped a).pend = none := by
  unfold pendDropped
  split
  · rfl
  · next h => simpa using h

theorem pendDropped_run (a : PanelArea) : (pendDropped a).run = a.run := by
  unfold pendDropped
  split <;> rfl

theorem pendDropped_lost {a : PanelArea} (h : a.pend = none) : (pendDropped a).lost = a.lost := by
  unfold pendDropped
  rw [h]
  rfl

/-- The pending update of one area is dropped. -/
theorem dropPanelPend_spec (k : Nat) (s : State) : AreasOnly s (dropPanelPend k s)
    ∧ area (dropPanelPend k s) k = pendDropped (area s k) ∧ ∀ j, j ≠ k → area (dropPanelPend k s) j = area s j := by
  unfold dropPanelPend pendDropped
  by_cases h : (s.panel.areas.get {} k).pend.isSome = true
  · rw [if_pos h, if_pos (by exact h)]
    exact ⟨⟨_, _, rfl⟩, Tab.get_upd_same _ _ _ _, fun j hj => Tab.get_upd_other _ _ _ hj⟩
  · rw [if_neg h, if_neg (by exact h)]
    exact ⟨.refl s, rfl, fun _ _ => rfl⟩

theorem dropPends_spec (l : List Nat) (s : State) : AreasOnly s (l.foldl (fun s k => dropPanelPend k s) s)
    ∧ (∀ j, (area (l.foldl (fun s k => dropPanelPend k s) s) j).run = (area s j).run)
    ∧ (∀ j, j ∈ l ∨ (area s j).pend = none → (area (l.foldl (fun s k => dropPanelPend k s) s) j).pend = none) := by
  induction l generalizing s with
  | nil => exact ⟨.refl s, fun _ => rfl, fun j h => h.resolve_left (List.not_mem_nil)⟩
  | cons k l ih =>
    obtain ⟨h1, h2, h3⟩ := ih (dropPanelPend k s)
    obtain ⟨g1, g2, g3⟩ := dropPanelPend_spec k s
    refine ⟨g1.trans h1, fun j => (h2 j).trans ?_, fun j hj => h3 j ?_⟩
    · by_cases hk : j = k
      · rw [hk, g2]
        exact pendDropped_run _
      · rw [g3 j hk]
    · by_cases hk : j = k
      · rw [hk, g2]
        exact .inr (pendDropped_pend _)
      · rw [g3 j hk]
        exact hj.imp (fun h => (List.mem_cons.1 h).resolve_left hk) id

theorem dropAllPend_spec (s : State) : AreasOnly s (dropAllPend s) ∧ (∀ j, (area (dropAllPend s) j).run = (area s j).run)
    ∧ ∀ j, j < 32 → (area (dropAllPend s) j).pend = none := by
  obtain ⟨h1, h2, h3⟩ := dropPends_spec (List.range 32) s
  exact ⟨h1, h2, fun j hj => h3 j (.inl (List.mem_range.2 hj))⟩

/-! Commands of the PANEL page (R407, R417, R418). -/

/-- A command that ends with OK: its page's header afterwards. -/
theorem panelCmd_ok {req : Requester} {op r : Nat} {arg : BitVec 24} {body : State → CmdEnd} {s u : State}
    (hp : PageReady s 0x41) (hb : body (takeCmd 0x41 req op arg s) = .done .ok r u) :
    issueCmd 0x41 req op arg body s = updHdr 0x41 (hdrEnd .ok r) u := by
  rw [issueCmd_ready hp, hb]
  exact finishCmd_eq 0x41 .ok r u (by decide)

/-- The areas and the ticket once UPDATE has been accepted. -/
def updateAsked (k : Nat) (fast : Bool) (s : State) : State :=
  updArea k (fun a => { a with pend := some fast, since := (dropPanelPend k s).panel.ticket })
    { dropPanelPend k s with panel.ticket := (dropPanelPend k s).panel.ticket + 1 }

theorem updateAsked_spec (k : Nat) (fast : Bool) (s : State) :
    (area (updateAsked k fast s) k = { pendDropped (area s k) with pend := some fast, since := s.panel.ticket })
    ∧ (∀ j, j ≠ k → area (updateAsked k fast s) j = area s j) ∧ (updateAsked k fast s).panel.ticket = s.panel.ticket + 1
    ∧ ∃ h a, updateAsked k fast s = { s with hdrs := h, panel.areas := a, panel.ticket := s.panel.ticket + 1 } := by
  obtain ⟨⟨h, a, hf⟩, hs, ho⟩ := dropPanelPend_spec k s
  have ht : (dropPanelPend k s).panel.ticket = s.panel.ticket := by rw [hf]
  unfold updateAsked
  rw [ht]
  generalize dropPanelPend k s = u at hf hs ho ⊢
  refine ⟨?_, fun j hj => (updArea_other k _ _ hj).trans (ho j hj), rfl, ?_⟩
  · rw [← hs]
    exact updArea_same k _ _
  · rw [hf]
    exact ⟨_, _, rfl⟩

theorem panelUpdate_denied {req : Requester} {arg : BitVec 24} {s : State} (hp : PageReady s 0x41)
    (ho : argOutside arg 0x11F = false) (hk : planned s 0x0B (fld arg 0 5) = true)
    (hm : mayUpdate s (fld arg 0 5) req = false) : Answers (.panelUpdate req arg) s 0x41 (hdrDone .denied 0) s := by
  refine answers_done (op := 1) (req := req) (arg := arg) hp rfl ((if_neg ?_).trans (if_pos ?_)) (by decide)
  · change ¬ (argOutside arg 0x11F || !planned s 0x0B (fld arg 0 5)) = true
    rw [ho, hk]
    decide
  · change (!mayUpdate s (fld arg 0 5) req) = true
    rw [hm]
    rfl

theorem panelUpdate_spec {req : Requester} {arg : BitVec 24} {s : State} (hp : PageReady s 0x41)
    (ho : argOutside arg 0x11F = false) :
    let k := fld arg 0 5
    planned s 0x0B k = true → mayUpdate s k req = true → panelBarred s = false →
    ∃ t, exec (.panelUpdate req arg) s = .next t
      ∧ (area t k).pend = some (bitAt arg 8) ∧ (area t k).since = s.panel.ticket ∧ (area t k).run = (area s k).run
      ∧ t.panel.ticket = s.panel.ticket + 1 ∧ (hdr t 0x41).busy = false ∧ (hdr t 0x41).status = 0
      ∧ ((area s k).pend.isSome = true → (hdr t 0x41).result = 2 ∧ (area t k).lost = satInc (area s k).lost)
      ∧ ((area s k).pend = none → (hdr t 0x41).result.toNat ≤ 1 ∧ (area t k).lost = (area s k).lost)
      ∧ (∀ j, j ≠ k → area t j = area s j)
      ∧ t = { s with hdrs := t.hdrs, panel.areas := t.panel.areas, panel.ticket := t.panel.ticket } := by
  intro k hk hm hb
  obtain ⟨hsame, hother, htick, h, a, hf⟩ := updateAsked_spec k (bitAt arg 8) (takeCmd 0x41 req 1 arg s)
  have hbody : panelUpdate req arg s = updHdr 0x41 (hdrEnd .ok (if (area s k).pend.isSome then 2
      else if canStart (updateAsked k (bitAt arg 8) (takeCmd 0x41 req 1 arg s)) k
        && firstToStart (updateAsked k (bitAt arg 8) (takeCmd 0x41 req 1 arg s)) k then 0 else 1))
      (updateAsked k (bitAt arg 8) (takeCmd 0x41 req 1 arg s)) := by
    refine panelCmd_ok hp ((if_neg ?_).trans ((if_neg ?_).trans (if_neg ?_)))
    · change ¬ (argOutside arg 0x11F || !planned s 0x0B k) = true
      rw [ho, hk]
      decide
    · change ¬ (!mayUpdate s k req) = true
      rw [hm]
      decide
    · change ¬ panelBarred s = true
      rw [hb]
      decide
  generalize updateAsked k (bitAt arg 8) (takeCmd 0x41 req 1 arg s) = u at hbody hsame hother htick hf
  have harea : area (takeCmd 0x41 req 1 arg s) k = area s k := rfl
  rw [harea] at hsame
  have ha : ∀ g : PageHdr → PageHdr, area (updHdr 0x41 g u) k = area u k := fun _ => rfl
  refine ⟨_, congrArg Host.Outcome.next hbody, ?_, ?_, ?_, htick, ?_, ?_, fun hs => ⟨?_, ?_⟩, fun hn => ⟨?_, ?_⟩,
    fun j hj => hother j hj, ?_⟩
  · rw [ha, hsame]
  · rw [ha, hsame]
    rfl
  · rw [ha, hsame]
    exact pendDropped_run _
  · rw [updHdr_same]
    rfl
  · rw [updHdr_same]
    rfl
  · rw [updHdr_same, if_pos hs]
    rfl
  · rw [ha, hsame]
    exact congrArg PanelArea.lost (if_pos hs)
  · rw [updHdr_same, hn, if_neg (by decide)]
    generalize (canStart u k && firstToStart u k) = c
    cases c
    · exact Nat.le_refl 1
    · exact Nat.zero_le 1
  · rw [ha, hsame]
    exact pendDropped_lost hn
  · rw [hf]
    rfl

theorem panelCancel_spec {req : Requester} {arg : BitVec 24} {s : State} (hp : PageReady s 0x41) (ha : arg.toNat < 32)
    (hk : planned s 0x0B arg.toNat = true) : Answers (.panelCancel req arg) s 0x41
      (hdrDone .ok (b2n (area s arg.toNat).pend.isSome)) (updArea arg.toNat (fun a => { a with pend := none }) s) := by
  refine answers_done (op := 2) (req := req) (arg := arg) hp rfl ?_ (by decide)
  dsimp only
  rw [show fld arg 0 5 = arg.toNat from fld_low (k := 5) ha]
  refine (if_neg ?_).trans rfl
  change ¬ (argOutside arg 0x1F || !planned s 0x0B arg.toNat) = true
  rw [show argOutside arg 0x1F = false from argOutside_small 5 ha, hk]
  decide

theorem clearPanel_spec {req : Requester} {s : State} (hp : PageReady s 0x41) (hb : panelBarred s = false) :
    ∃ t, exec (.clearPanel req 0) s = .next t ∧ (hdr t 0x41).busy = false ∧ (hdr t 0x41).status = 0
      ∧ (∀ k, k < 32 → (area t k).pend = none ∧ (area t k).run = (area s k).run)
      ∧ t.panel.clears = (if s.panel.clears = 0 then 2 else s.panel.clears)
      ∧ t = { s with hdrs := t.hdrs, panel.areas := t.panel.areas, panel.clears := t.panel.clears } := by
  obtain ⟨⟨h, a, hf⟩, hrun, hpend⟩ := dropAllPend_spec (takeCmd 0x41 req 3 0 s)
  have hbody : clearPanel req 0 s = updHdr 0x41 (hdrEnd .ok 0) { dropAllPend (takeCmd 0x41 req 3 0 s) with
      panel.clears := if (dropAllPend (takeCmd 0x41 req 3 0 s)).panel.clears = 0 then 2
        else (dropAllPend (takeCmd 0x41 req 3 0 s)).panel.clears } := by
    refine panelCmd_ok hp ((if_neg (fun h => h rfl)).trans (if_neg ?_))
    change ¬ panelBarred s = true
    rw [hb]
    decide
  generalize dropAllPend (takeCmd 0x41 req 3 0 s) = u at hbody hrun hpend hf
  refine ⟨_, congrArg Host.Outcome.next hbody, ?_, ?_, fun k hk => ⟨hpend k hk, hrun k⟩, ?_, ?_⟩
  · rw [updHdr_same]
    rfl
  · rw [updHdr_same]
    rfl
  · rw [hf]
    rfl
  · rw [hf]
    rfl

/-! Starts (R406, R408, R415). -/

theorem beginRun_spec (k : Nat) (r : Rect) (fast : Bool) (pix : List Byte) (s : State) :
    (area (beginRun k r fast pix s) k).pend = none
    ∧ (∃ u, (area (beginRun k r fast pix s) k).run = some u ∧ u.fast = fast ∧ u.x = r.x ∧ u.y = r.y ∧ u.w = r.w
        ∧ u.h = r.h ∧ u.start = none ∧ u.pix = pix)
    ∧ k ∈ (beginRun k r fast pix s).panel.intent ∧ (∀ j, j ≠ k → area (beginRun k r fast pix s) j = area s j)
    ∧ ∃ a i, beginRun k r fast pix s = { s with panel.areas := a, panel.intent := i } := by
  refine ⟨congrArg PanelArea.pend (updArea_same k _ _), ⟨_, congrArg PanelArea.run (updArea_same k _ _), rfl, rfl, rfl, rfl,
    rfl, rfl, rfl⟩, ?_, fun j hj => updArea_other k _ _ hj, _, _, rfl⟩
  change k ∈ if s.panel.intent.contains k then s.panel.intent else s.panel.intent ++ [k]
  split
  · next h => exact List.contains_iff_mem.1 h
  · exact List.mem_append_right _ (.head _)

theorem canStart_pending {s : State} {k : Nat} (h : canStart s k = true) : k < 32 ∧ (area s k).pend.isSome = true := by
  unfold canStart at h
  simp only [Bool.and_eq_true, decide_eq_true_eq] at h
  obtain ⟨⟨⟨⟨⟨⟨⟨hk, hp⟩, _⟩, _⟩, _⟩, _⟩, _⟩, _⟩ := h
  exact ⟨hk, hp⟩

theorem panelUpdateStart_spec {k : Fin 34} {s : State} (hu : panelUp s = true) (hc : canStart s k.val = true)
    (hf : firstToStart s k.val = true) :
    let r := areaRect s k.val
    ∃ t, exec (.panelUpdateStart k) s = .next t ∧ (area t k.val).pend = none
      ∧ (∃ u, (area t k.val).run = some u ∧ u.x = r.x ∧ u.y = r.y ∧ u.w = r.w ∧ u.h = r.h ∧ u.start = none
          ∧ u.pix = readRect s.panel.frame r ∧ some u.fast = (area s k.val).pend)
      ∧ k.val ∈ t.panel.intent ∧ (∀ j, j ≠ k.val → area t j = area s j)
      ∧ t = { s with panel.areas := t.panel.areas, panel.intent := t.panel.intent } := by
  intro r
  obtain ⟨hk, hpend⟩ := canStart_pending hc
  have hk33 : ¬ k.val = 33 := by omega
  have hrun : exec (.panelUpdateStart k) s
      = .next (beginRun k.val r ((area s k.val).pend.getD false) (readRect s.panel.frame r) s) := by
    refine congrArg Host.Outcome.next ((if_pos hu).trans ((if_neg hk33).trans (if_pos ?_)))
    rw [hc, hf]
    rfl
  obtain ⟨h1, ⟨u, hu1, hu2, hu3, hu4, hu5, hu6, hu7, hu8⟩, h3, h4, a, i, h5⟩ :=
    beginRun_spec k.val r ((area s k.val).pend.getD false) (readRect s.panel.frame r) s
  refine ⟨_, hrun, h1, ⟨u, hu1, hu3, hu4, hu5, hu6, hu7, hu8, ?_⟩, h3, h4, ?_⟩
  · obtain ⟨b, hb⟩ := Option.isSome_iff_exists.1 hpend
    rw [hu2, hb]
    rfl
  · rw [h5]

/-! Copies and ends (R406, R415). -/

section
variable {k : Fin 34} {r : PanelRun} {s : State}

theorem panelCopyDone_spec (hu : panelUp s = true) (hr : (area s k.val).run = some r) (hk : k.val < 33)
    (h : r.start = none) : ∃ t, exec (.panelCopyDone k) s = .next t
      ∧ (area t k.val).run = some { r with start := some s.course.cn }
      ∧ t.panel.target = writeRect r.x r.y r.w r.h s.panel.target r.pix ∧ (∀ j, j ≠ k.val → area t j = area s j)
      ∧ t = { s with panel.areas := t.panel.areas, panel.target := t.panel.target } := by
  have hrun : exec (.panelCopyDone k) s = .next { updArea k.val (fun a => { a with
      run := some { r with start := some s.course.cn } }) s with
      panel.target := writeRect r.x r.y r.w r.h s.panel.target r.pix } := by
    refine congrArg Host.Outcome.next ((if_pos hu).trans ?_)
    rw [hr]
    exact (if_neg (by rw [h]; decide)).trans (if_neg (by omega))
  exact ⟨_, hrun, congrArg PanelArea.run (updArea_same k.val _ s), rfl, fun j hj => updArea_other k.val _ s hj, rfl⟩

/-- The waveform of an area, or of the banner, has ended: what follows before its event. -/
def runEnded (k : Nat) (s : State) : State :=
  { setSticky 0x41 8 (updArea k (fun a => { a with run := none, doneCn := s.course.cn }) s) with
    panel.intent := s.panel.intent.filter (· ≠ k) }

/-- Only what an ended update shows differs, and events. -/
structure EndShown (k : Nat) (r : PanelRun) (s t : State) : Prop where
  areas : t.panel.areas = s.panel.areas
  intent : t.panel.intent = s.panel.intent
  hdrs : t.hdrs = s.hdrs
  image : t.panel.glassImg = writeRect r.x r.y r.w r.h s.panel.glassImg (if r.fast then r.pix.map fastByte else r.pix)
  banner : k = 32 → t.panel.banner = true
  frame : ∃ p e f, t = { s with panel := p, evq := e, free := f }

theorem exec_panelUpdateDone (hu : panelUp s = true) (hr : (area s k.val).run = some r) (hk : k.val < 33)
    (h : r.start ≠ none) : ∃ t, exec (.panelUpdateDone k) s = .next t ∧ EndShown k.val r (runEnded k.val s) t := by
  have hrun : exec (.panelUpdateDone k) s = .next (if k.val = 32 then
      panelEvent 6 0 (b2n s.panel.pos) { showRun r (runEnded k.val s) with panel.banner := true }
      else areaDone k.val r (runEnded k.val s)) := by
    refine congrArg Host.Outcome.next ((if_pos hu).trans ?_)
    rw [hr]
    refine (if_neg ?_).trans (if_neg (by omega))
    rw [Option.isNone_iff_eq_none]
    exact h
  refine ⟨_, hrun, ?_⟩
  generalize runEnded k.val s = u
  split
  · obtain ⟨e, f, he⟩ := panelEvent_evq 6 0 (b2n s.panel.pos) { showRun r u with panel.banner := true }
    rw [he]
    exact ⟨rfl, rfl, rfl, rfl, fun _ => rfl, _, _, _, rfl⟩
  · next h32 =>
    unfold areaDone
    obtain ⟨e, f, he⟩ := panelEvent_evq 1 k.val (b2n r.fast + 2 * r.band) { showRun r u with
      panel.last := some (u.ptp.valid, (ptpNow u).toNat / 1000000000)
      panel.banner := u.panel.banner && !coversStrip u r
      free := u.free + 1 }
    rw [he]
    exact ⟨rfl, rfl, rfl, rfl, fun h => absurd h h32, _, _, _, rfl⟩

theorem panelUpdateDone_spec (hu : panelUp s = true) (hr : (area s k.val).run = some r) (hk : k.val < 33)
    (h : r.start ≠ none) : ∃ t, exec (.panelUpdateDone k) s = .next t ∧ (area t k.val).run = none
      ∧ (area t k.val).doneCn = s.course.cn ∧ bitAt (hdr t 0x41).sticky 8 = true
      ∧ t.panel.glassImg = writeRect r.x r.y r.w r.h s.panel.glassImg (if r.fast then r.pix.map fastByte else r.pix)
      ∧ k.val ∉ t.panel.intent ∧ (k.val = 32 → t.panel.banner = true) ∧ (∀ j, j ≠ k.val → area t j = area s j)
      ∧ t = { s with hdrs := t.hdrs, panel := t.panel, evq := t.evq, free := t.free } := by
  obtain ⟨t, he, ha, hi, hh, hg, hb, p, e, f, hf⟩ := exec_panelUpdateDone hu hr hk h
  have harea : ∀ j, area t j = area (runEnded k.val s) j := fun j => by
    unfold area
    rw [ha]
  have hsame : area (runEnded k.val s) k.val = { area s k.val with run := none, doneCn := s.course.cn } :=
    updArea_same k.val _ s
  refine ⟨t, he, ?_, ?_, ?_, hg, ?_, hb, fun j hj => (harea j).trans (updArea_other k.val _ s hj), ?_⟩
  · rw [harea, hsame]
  · rw [harea, hsame]
  · have e : hdr t 0x41 = hdr (runEnded k.val s) 0x41 := by
      unfold hdr
      rw [hh]
    rw [e]
    exact (congrArg (fun x : PageHdr => bitAt x.sticky 8) (hdr_setSticky_same 0x41 8 _)).trans (sticky_set _ (by decide))
  · rw [hi]
    change k.val ∉ s.panel.intent.filter (· ≠ k.val)
    simp
  · rw [hf]
    rfl

end

/-! Banner and redraw (R413 to R415). -/

theorem panelBannerDraw_spec {s : State} (hu : panelUp s = true) (ho : s.panel.bannerOwed = true) (hr : panelRuns s = []) :
    let drawn := s.panel.crack = false ∧ s.panel.cold = false ∧ 450 ≤ s.sup.avail.toNat
    (¬ drawn → exec .panelBannerDraw s = .next { s with panel.bannerOwed := false })
    ∧ (drawn → ∃ t, exec .panelBannerDraw s = .next t ∧ t.panel.bannerOwed = false
      ∧ (∃ u, (area t 32).run = some u ∧ u.fast = true ∧ u.y = (bannerStrip s).y ∧ u.h = 96 ∧ 32 ∈ t.panel.intent)
      ∧ (∀ j, j ≠ 32 → area t j = area s j) ∧ t = { s with panel := t.panel }) := by
  intro drawn
  have hmay : (panelUp s && s.panel.bannerOwed && (panelRuns s).isEmpty) = true := by
    rw [hu, ho, hr]
    rfl
  have hdrawn : (s.panel.crack || s.panel.cold || decide (s.sup.avail.toNat < 450)) = false ↔ drawn := by
    simp only [Bool.or_eq_false_iff, decide_eq_false_iff_not, Nat.not_lt, drawn, and_assoc]
  refine ⟨fun h => congrArg Host.Outcome.next ((if_pos hmay).trans (if_pos ?_)), fun h => ?_⟩
  · rw [← hdrawn, Bool.not_eq_false] at h
    exact h
  · obtain ⟨-, ⟨u, hu1, hu2, -, hu4, -, hu6, -, -⟩, h3, h4, a, i, h5⟩ := beginRun_spec 32 (bannerStrip s) true
      ((List.range 49152).map (Config.bannerByte (s.panel.last.map (fun x => (x.1, lastSec s)))))
      { s with panel.bannerOwed := false }
    have hrun : exec .panelBannerDraw s = .next (beginRun 32 (bannerStrip s) true
        ((List.range 49152).map (Config.bannerByte (s.panel.last.map (fun x => (x.1, lastSec s)))))
        { s with panel.bannerOwed := false }) := by
      refine congrArg Host.Outcome.next ((if_pos hmay).trans (if_neg ?_))
      rw [hdrawn.2 h]
      exact Bool.false_ne_true
    generalize beginRun 32 (bannerStrip s) true
        ((List.range 49152).map (Config.bannerByte (s.panel.last.map (fun x => (x.1, lastSec s)))))
        { s with panel.bannerOwed := false } = t at hrun hu1 h3 h4 h5
    refine ⟨t, hrun, ?_, ⟨u, hu1, hu2, hu4, hu6, h3⟩, h4, ?_⟩
    · rw [h5]
    · rw [h5]

theorem panelRedraw_spec {s : State} (hu : panelUp s = true) (hd : s.panel.redraws ≠ 0) (hr : panelRuns s = [])
    (hg : driveGate s (panelEnergy (waveMs s.panel.band false) 786432) = true) :
    ∃ t, exec .panelRedraw s = .next t ∧ (∃ u, (area t 33).run = some u ∧ u.w = 1024 ∧ u.h = 768 ∧ u.fast = false)
      ∧ (∀ j, j ≠ 33 → area t j = area s j)
      ∧ t = { s with panel.areas := t.panel.areas, panel.intent := t.panel.intent } := by
  have hrun : exec .panelRedraw s = .next (beginRun 33 wholePanel false [] s) := by
    refine congrArg Host.Outcome.next ((if_pos ?_).trans (if_pos ?_))
    · rw [hu]
      simpa using hd
    · rw [hr, hg]
      rfl
  obtain ⟨-, ⟨u, hu1, hu2, -, -, hu5, hu6, -, -⟩, -, h4, a, i, h5⟩ := beginRun_spec 33 wholePanel false [] s
  refine ⟨_, hrun, ⟨u, hu1, hu5, hu6, hu2⟩, h4, ?_⟩
  rw [h5]

/-! Glass and crack loop (R410, R417). -/

theorem glassTempRead_spec {temp : Half} {s : State} (hu : panelUp s = true) : ∃ t, exec (.glassTempRead temp) s = .next t
    ∧ t.panel.glass = temp ∧ t.panel.cold = decide (temp.toInt < -2000)
    ∧ t.panel = { s.panel with glass := temp, cold := t.panel.cold, band := t.panel.band }
    ∧ t = { s with panel := t.panel, evq := t.evq, free := t.free } := by
  by_cases h : decide (temp.toInt < -2000) = s.panel.cold
  · exact ⟨_, congrArg Host.Outcome.next ((if_pos hu).trans (if_pos h)), rfl, rfl, rfl, rfl⟩
  · obtain ⟨e, f, he⟩ := panelEvent_evq 5 0 (b2n (decide (temp.toInt < -2000))) { s with
      panel.glass := temp, panel.cold := decide (temp.toInt < -2000), panel.band := bandNext s.panel.band temp.toInt }
    exact ⟨_, congrArg Host.Outcome.next (((if_pos hu).trans (if_neg h)).trans he), rfl, rfl, rfl, rfl⟩

/-- Every running update is abandoned. -/
def runsDropped (s : State) : State := (List.range 34).foldl (fun s k => updArea k (fun a => { a with run := none }) s) s

theorem runsDropped_fold (l : List Nat) (s : State) :
    AreasOnly s (l.foldl (fun s k => updArea k (fun a => { a with run := none }) s) s)
    ∧ (∀ j, (area (l.foldl (fun s k => updArea k (fun a => { a with run := none }) s) s) j).pend = (area s j).pend)
    ∧ ∀ j, j ∈ l ∨ (area s j).run = none →
      (area (l.foldl (fun s k => updArea k (fun a => { a with run := none }) s) s) j).run = none := by
  induction l generalizing s with
  | nil => exact ⟨.refl s, fun _ => rfl, fun j h => h.resolve_left List.not_mem_nil⟩
  | cons k l ih =>
    obtain ⟨h1, h2, h3⟩ := ih (updArea k (fun a => { a with run := none }) s)
    refine ⟨(updArea_areasOnly k _ s).trans h1, fun j => (h2 j).trans ?_, fun j hj => h3 j ?_⟩
    · by_cases hk : j = k
      · rw [hk, updArea_same]
      · rw [updArea_other k _ s hk]
    · by_cases hk : j = k
      · rw [hk, updArea_same]
        exact .inr rfl
      · rw [updArea_other k _ s hk]
        exact hj.imp (fun h => (List.mem_cons.1 h).resolve_left hk) id

theorem runsDropped_spec (s : State) : AreasOnly s (runsDropped s) ∧ (∀ j, (area (runsDropped s) j).pend = (area s j).pend)
    ∧ ∀ j, j < 34 → (area (runsDropped s) j).run = none := by
  obtain ⟨h1, h2, h3⟩ := runsDropped_fold (List.range 34) s
  exact ⟨h1, h2, fun j hj => h3 j (.inl (List.mem_range.2 hj))⟩

theorem crackLoop_trips {meas : Half} {s : State} (hu : panelUp s = true) (hb : loopBad s meas = true)
    (hc : s.panel.crack = false) : ∃ t, exec (.crackLoopMeasure meas) s = .next t ∧ t.panel.loopMeas = meas
      ∧ t.panel.crack = true ∧ (∀ k, k < 32 → (area t k).run = none ∧ (area t k).pend = none)
      ∧ t.panel.frame = s.panel.frame ∧ t.panel.glassImg = s.panel.glassImg
      ∧ t = { s with hdrs := t.hdrs, panel := t.panel, evq := t.evq, free := t.free } := by
  have hrun : exec (.crackLoopMeasure meas) s = .next (panelEvent 2 0 meas.toNat (runsDropped (dropAllPend { s with
      panel.loopMeas := meas, panel.firstLoop := false, panel.crack := true }))) :=
    congrArg Host.Outcome.next ((if_pos hu).trans ((if_pos hb).trans (if_neg (by rw [hc]; exact Bool.false_ne_true))))
  obtain ⟨h1, -, h3⟩ := dropAllPend_spec { s with panel.loopMeas := meas, panel.firstLoop := false, panel.crack := true }
  generalize dropAllPend { s with panel.loopMeas := meas, panel.firstLoop := false, panel.crack := true } = u at hrun h1 h3
  obtain ⟨g1, g2, g3⟩ := runsDropped_spec u
  obtain ⟨e, f, he⟩ := panelEvent_evq 2 0 meas.toNat (runsDropped u)
  rw [he] at hrun
  obtain ⟨_, _, hfr⟩ := h1.trans g1
  generalize runsDropped u = x at hrun g2 g3 hfr
  refine ⟨_, hrun, ?_, ?_, fun k hk => ⟨g3 k (by omega), (g2 k).trans (h3 k hk)⟩, ?_, ?_, ?_⟩ <;> rw [hfr]

theorem crackLoopMeasure_spec {meas : Half} {s : State} (hu : panelUp s = true) :
    ∃ t, exec (.crackLoopMeasure meas) s = .next t
      ∧ t.panel.loopMeas = meas ∧ (loopBad s meas = true → t.panel.crack = true)
      ∧ (loopBad s meas = true → s.panel.crack = false → ∀ k, k < 32 → (area t k).run = none ∧ (area t k).pend = none)
      ∧ (loopBad s meas = false → s.panel.firstLoop = true → t.panel.crack = false)
      ∧ (loopBad s meas = false → s.panel.firstLoop = false → t.panel.crack = s.panel.crack)
      ∧ t.panel.frame = s.panel.frame ∧ t.panel.glassImg = s.panel.glassImg
      ∧ t = { s with hdrs := t.hdrs, panel := t.panel, evq := t.evq, free := t.free } := by
  cases hb : loopBad s meas with
  | true =>
    cases hc : s.panel.crack with
    | true =>
      exact ⟨_, congrArg Host.Outcome.next ((if_pos hu).trans ((if_pos hb).trans (if_pos hc))), rfl, fun _ => hc,
        nofun, nofun, nofun, rfl, rfl, rfl⟩
    | false =>
      obtain ⟨t, he, hm, hcr, ha, hf, hg, hfr⟩ := crackLoop_trips hu hb hc
      exact ⟨t, he, hm, fun _ => hcr, fun _ _ => ha, nofun, nofun, hf, hg, hfr⟩
  | false =>
    have hnb : ¬ loopBad s meas = true := by
      rw [hb]
      exact Bool.false_ne_true
    cases hfl : s.panel.firstLoop with
    | true =>
      exact ⟨_, congrArg Host.Outcome.next ((if_pos hu).trans ((if_neg hnb).trans (if_pos hfl))), rfl, nofun, nofun,
        fun _ _ => rfl, nofun, rfl, rfl, rfl⟩
    | false =>
      exact ⟨_, congrArg Host.Outcome.next ((if_pos hu).trans ((if_neg hnb).trans (if_neg (by rw [hfl]; decide)))), rfl,
        nofun, nofun, nofun, fun _ _ => rfl, rfl, rfl, rfl⟩

/-- Settles O57. -/
theorem panelUpdates : Obligations.PanelUpdates := by
  unfold Obligations.PanelUpdates
  refine ⟨fun req arg s hp ho => ?_, fun req arg s hp ha hk => panelCancel_spec hp ha hk,
    fun req s hp hb => clearPanel_spec hp hb, fun k s hu hc hf => panelUpdateStart_spec hu hc hf,
    fun k r s hu hr hk => ⟨panelCopyDone_spec hu hr hk, panelUpdateDone_spec hu hr hk⟩,
    fun s hu ho hr => panelBannerDraw_spec hu ho hr, fun s hu hd hr hg => panelRedraw_spec hu hd hr hg,
    fun temp s hu => glassTempRead_spec hu, fun meas s hu => crackLoopMeasure_spec hu⟩
  exact fun hk => ⟨fun hm => panelUpdate_denied hp ho hk hm, fun hm hb => panelUpdate_spec hp ho hk hm hb⟩

end Sys2Proof.Machine
end


section
/-! Start-up holds, the clock fault and DRAM errors (R13, R25, R428 to R430, O58). -/

namespace Sys2Proof.Machine

theorem sysEvent_evq (code detail : Nat) (s : State) : ∃ e f, sysEvent code detail s = { s with evq := e, free := f } :=
  blockEv_evq _ _ _ s

theorem supEvent_evq (code detail : Nat) (s : State) : ∃ e f, supEvent code detail s = { s with evq := e, free := f } :=
  blockEv_evq _ _ _ s

/-! Power on (R428). -/

/-- The node as VS first reaches 4.5 V, with its aged calibration noted. -/
def powered (role : Role) (tcxo : Bool) (rtc : Option Nat) (s : State) : State :=
  agedEvent s { s with
    sys.domOn := 0x01, red := { role := role }, clk.tcxoOk := tcxo, sys.cause := 0, sys.resets := 0
    sup.rtcValid := rtc.isSome, sup.rtcSec := rtc.getD 0
    cal.dateValid := s.cal.dateValid && rtc.isSome, cal.days := daysNow s rtc
    ptp.time := (match rtc with
      | some t => BitVec.ofNat 64 (t * 1000000000)
      | none => Config.dword s.free)
    free := s.free + 1 }

structure Powered (role : Role) (tcxo : Bool) (rtc : Option Nat) (s t : State) : Prop where
  role : t.red.role = role
  own : t.red.own = 0
  gates : t.red.gates = false
  tcxo : t.clk.tcxoOk = tcxo
  rtcValid : t.sup.rtcValid = rtc.isSome
  rtcSec : t.sup.rtcSec = rtc.getD 0
  cause : t.sys.cause = 0
  resets : t.sys.resets = 0
  nor : t.plan.nor = s.plan.nor
  boot : t.plan.boot = s.plan.boot

theorem powered_spec (role : Role) (tcxo : Bool) (rtc : Option Nat) (s : State) :
    Powered role tcxo rtc s (powered role tcxo rtc s) ∧ (powered role tcxo rtc s).sys.domOn = 0x01 := by
  unfold powered
  generalize hu : ({ s with
    sys.domOn := 0x01, red := { role := role }, clk.tcxoOk := tcxo, sys.cause := 0, sys.resets := 0
    sup.rtcValid := rtc.isSome, sup.rtcSec := rtc.getD 0
    cal.dateValid := s.cal.dateValid && rtc.isSome, cal.days := daysNow s rtc
    ptp.time := (match rtc with
      | some t => BitVec.ofNat 64 (t * 1000000000)
      | none => Config.dword s.free)
    free := s.free + 1 } : State) = u
  obtain ⟨e, f, h⟩ := agedEvent_evq s u
  rw [h, ← hu]
  exact ⟨⟨rfl, rfl, rfl, rfl, rfl, rfl, rfl, rfl, rfl, rfl⟩, rfl⟩

theorem exec_powerOn {role : Role} {tcxo refs trim : Bool} {rtc : Option Nat} {s : State} (hs : s.sys.step = 0)
    (hh : s.sys.halt = 0) : exec (.powerOn role tcxo refs trim rtc) s = .next (
      if tcxo then startRefs refs trim { powered role tcxo rtc s with sys.step := 1 }
      else supEvent 7 0 (setSticky 1 8 { powered role tcxo rtc s with sys.halt := 3 })) := by
  refine congrArg Host.Outcome.next (if_pos ?_)
  rw [hs, hh]
  rfl

/-- Start-up's reference check leaves what power-on set. -/
theorem Powered.startRefs {role : Role} {tcxo : Bool} {rtc : Option Nat} {s u : State} (h : Powered role tcxo rtc s u)
    (refs trim : Bool) : Powered role tcxo rtc s (startRefs refs trim u) := by
  have hc := startRefs_claim refs trim u
  have hs := startRefs_start refs trim u
  exact ⟨hc.role.trans h.role, hc.own.trans h.own, hc.gates.trans h.gates, (congrArg ClkBlk.tcxoOk hs.clk).trans h.tcxo,
    (congrArg SupBlk.rtcValid hs.sup).trans h.rtcValid, (congrArg SupBlk.rtcSec hs.sup).trans h.rtcSec,
    (congrArg SysBlk.cause hs.sys :).trans h.cause, (congrArg SysBlk.resets hs.sys :).trans h.resets,
    hc.nor.trans h.nor, hs.boot.trans h.boot⟩

/-- A check that has passed, or one that holds the node. -/
theorem startRefs_outcome (refs trim : Bool) (s : State) :
    (refs = false → (startRefs refs trim s).sys.step = 1 ∧ (startRefs refs trim s).sys.halt = 1
      ∧ (startRefs refs trim s).sys.domOn = s.sys.domOn)
    ∧ (refs = true → (startRefs refs trim s).sys.step = 3
      ∧ (startRefs refs trim s).sys.halt = if (startRefs refs trim s).loader.starting.isSome then 0 else 2) := by
  cases refs
  · exact ⟨fun _ => ⟨rfl, rfl, rfl⟩, nofun⟩
  · rw [startRefs_pass]
    generalize domainsUp trim { s with sys.step := 2, sys.halt := 0 } = u
    exact ⟨nofun, fun _ => ⟨rfl, rfl⟩⟩

theorem startRefs_halt (refs trim : Bool) (s : State) (h : refs = true) :
    (startRefs refs trim s).sys.halt = 0 ∨ (startRefs refs trim s).sys.halt = 2 := by
  rw [((startRefs_outcome refs trim s).2 h).2]
  split
  · exact .inl rfl
  · exact .inr rfl

theorem domUp_of_domOn {s : State} {w : BitVec 8} (h : s.sys.domOn = w) (d : Nat) : domUp s d = w.getLsbD d := by
  unfold domUp
  rw [h]

theorem powerOn_spec {role : Role} {tcxo refs trim : Bool} {rtc : Option Nat} {s : State} (hs : s.sys.step = 0)
    (hh : s.sys.halt = 0) : ∃ t, exec (.powerOn role tcxo refs trim rtc) s = .next t
      ∧ t.red.role = role ∧ t.red.own = 0 ∧ t.red.gates = false ∧ t.clk.tcxoOk = tcxo ∧ t.sup.rtcValid = rtc.isSome
      ∧ t.sup.rtcSec = rtc.getD 0 ∧ t.sys.cause = 0 ∧ t.sys.resets = 0 ∧ domUp t 0 = true
      ∧ (tcxo = false → t.sys.halt = 3 ∧ t.sys.domOn = 0x01 ∧ bitAt (hdr t 1).sticky 8 = true)
      ∧ (tcxo = true → refs = false → t.sys.step = 1 ∧ t.sys.halt = 1 ∧ t.sys.domOn = 0x01)
      ∧ (tcxo = true → refs = true → (∀ d ∈ [1, 2, 3, 7], domUp t d = true) ∧ (∀ d ∈ [4, 5, 6], domUp t d = false)
          ∧ t.sys.step = 3 ∧ t.sys.halt = if t.loader.starting.isSome then 0 else 2)
      ∧ t.plan.nor = s.plan.nor ∧ t.plan.boot = s.plan.boot := by
  obtain ⟨hp, hdom⟩ := powered_spec role tcxo rtc s
  have hrun := exec_powerOn (role := role) (tcxo := tcxo) (refs := refs) (trim := trim) (rtc := rtc) hs hh
  generalize powered role tcxo rtc s = u at hp hdom hrun
  cases tcxo with
  | false =>
    obtain ⟨e, f, he⟩ := supEvent_evq 7 0 (setSticky 1 8 { u with sys.halt := 3 })
    rw [if_neg Bool.false_ne_true, he] at hrun
    refine ⟨_, hrun, hp.role, hp.own, hp.gates, hp.tcxo, hp.rtcValid, hp.rtcSec, hp.cause, hp.resets,
      domUp_of_domOn hdom 0, fun _ => ⟨rfl, hdom, ?_⟩, nofun, nofun, hp.nor, hp.boot⟩
    exact (congrArg (fun x : PageHdr => bitAt x.sticky 8) (hdr_setSticky_same 1 8 _)).trans (sticky_set _ (by decide))
  | true =>
    rw [if_pos rfl] at hrun
    have h1 : Powered role true rtc s { u with sys.step := 1 } :=
      ⟨hp.role, hp.own, hp.gates, hp.tcxo, hp.rtcValid, hp.rtcSec, hp.cause, hp.resets, hp.nor, hp.boot⟩
    have h2 := h1.startRefs refs trim
    obtain ⟨hup, hoth⟩ := domUp_startRefs refs trim { u with sys.step := 1 }
    obtain ⟨hfail, hpass⟩ := startRefs_outcome refs trim { u with sys.step := 1 }
    have hd : ∀ d, domUp { u with sys.step := 1 } d = (0x01 : BitVec 8).getLsbD d :=
      domUp_of_domOn (s := { u with sys.step := 1 }) hdom
    refine ⟨_, hrun, h2.role, h2.own, h2.gates, h2.tcxo, h2.rtcValid, h2.rtcSec, h2.cause, h2.resets, ?_, nofun,
      fun _ hr => ?_, fun _ hr => ⟨hup hr, fun d hd' => ?_, hpass hr⟩, h2.nor, h2.boot⟩
    · exact (hoth 0 (.inr (by decide))).trans (hd 0)
    · obtain ⟨g1, g2, g3⟩ := hfail hr
      exact ⟨g1, g2, g3.trans hdom⟩
    · simp only [List.mem_cons, List.not_mem_nil, or_false] at hd'
      rcases hd' with rfl | rfl | rfl <;> exact (hoth _ (.inr (by decide))).trans (hd _)

theorem refCheckRetry_spec (refs trim : Bool) (s : State) :
    (s.sys.halt ≠ 1 → exec (.refCheckRetry refs trim) s = .next s)
    ∧ (s.sys.halt = 1 → refs = false → exec (.refCheckRetry refs trim) s = .next { s with sys.step := 1, sys.halt := 1 })
    ∧ (s.sys.halt = 1 → refs = true → ∃ t, exec (.refCheckRetry refs trim) s = .next t
        ∧ (∀ d ∈ [1, 2, 3, 7], domUp t d = true) ∧ (t.sys.halt = 0 ∨ t.sys.halt = 2)) := by
  refine ⟨fun h => congrArg Host.Outcome.next (if_neg h), fun h hr => ?_, fun h hr => ?_⟩
  · rw [hr]
    exact congrArg Host.Outcome.next (if_pos h)
  · exact ⟨_, congrArg Host.Outcome.next (if_pos h), (domUp_startRefs refs trim s).1 hr, startRefs_halt refs trim s hr⟩

/-! The clock fault (R13). -/

/-- The node as the fault is noted. -/
def clockLost (s : State) : State := { supEvent 7 0 (setSticky 1 8 (endSwitch s)) with log.lossRisk := true }

theorem clockLost_spec (s : State) : (clockLost s).clk = s.clk ∧ (clockLost s).sys.domOn = s.sys.domOn
    ∧ (clockLost s).plan.nor = s.plan.nor ∧ hdr (clockLost s) 1 = hdrSticky 8 (hdr s 1) := by
  obtain ⟨hp, -, -, hplan⟩ := endSwitch_frame s
  obtain ⟨e, f, he⟩ := supEvent_evq 7 0 (setSticky 1 8 (endSwitch s))
  unfold clockLost
  rw [he]
  refine ⟨hp.clk, (congrArg SysBlk.domOn hp.sys :), congrArg PlanBlk.nor hplan, ?_⟩
  refine (hdr_setSticky_same 1 8 (endSwitch s)).trans ?_
  rw [endSwitch_page (by decide)]

theorem exec_clockFault {s : State} (h : s.clk.tcxoOk = true) : exec .clockFault s = .next
    { shed [6, 5, 4, 3, 2, 1, 7] (becomeIdle (clockLost s)) with
      clk.tcxoOk := false, sys.halt := 3, sys.step := 0, sys.resetAsked := none, safe.pd1Reset := false } :=
  congrArg Host.Outcome.next (if_pos h)

theorem clockFault_spec {s : State} (h : s.clk.tcxoOk = true) : ∃ t, exec .clockFault s = .next t
    ∧ t.red.own = 0 ∧ t.red.gates = false ∧ t.red.state = .idle ∧ t.clk.tcxoOk = false
    ∧ t.clk.applied = s.clk.applied ∧ t.sys.step = 0 ∧ t.sys.halt = 3
    ∧ (∀ d ∈ [1, 2, 3, 4, 5, 6, 7], domUp t d = false) ∧ domUp t 0 = domUp s 0
    ∧ (hdr t 1).sticky = setBit (hdr s 1).sticky 8 true ∧ t.plan.nor = s.plan.nor := by
  obtain ⟨hclk, hdom, hnor, hpage⟩ := clockLost_spec s
  have hrun := exec_clockFault h
  generalize clockLost s = u at hclk hdom hnor hpage hrun
  obtain ⟨ho, hg, hst, -, -, hn⟩ := becomeIdle_claim u
  have hi := becomeIdle_islands u
  generalize becomeIdle u = v at ho hg hst hn hi hrun
  obtain ⟨ho2, hg2, hst2, -, -, hn2⟩ := shed_claimless [6, 5, 4, 3, 2, 1, 7] ho hg
  have he := shed_else [6, 5, 4, 3, 2, 1, 7] v
  have hl := shed_lowPages [6, 5, 4, 3, 2, 1, 7] v
  have hu := domUp_shed [6, 5, 4, 3, 2, 1, 7] (by decide) v
  generalize shed [6, 5, 4, 3, 2, 1, 7] v = w at ho2 hg2 hst2 hn2 he hl hu hrun
  refine ⟨_, hrun, ho2, hg2, hst2.trans hst, rfl, ?_, rfl, rfl, fun d hd => (hu d).trans ?_, (hu 0).trans ?_, ?_,
    hn2.trans (hn.trans hnor)⟩
  · exact (congrArg ClkBlk.applied he.clk).trans ((congrArg ClkBlk.applied hi.pd0.clk).trans (congrArg ClkBlk.applied hclk))
  · have hc : [6, 5, 4, 3, 2, 1, 7].contains d = true := by
      simp only [List.mem_cons, List.not_mem_nil, or_false] at hd
      rcases hd with rfl | rfl | rfl | rfl | rfl | rfl | rfl <;> rfl
    rw [hc, Bool.not_true, Bool.and_false]
  · refine (Bool.and_true _).trans ((domUp_of_sys hi.pd0.sys 0).trans ?_)
    unfold domUp
    rw [hdom]
  · refine congrArg PageHdr.sticky ((hl 1 (by decide)).trans ((hi.pages 1 (by decide)).trans hpage)) |>.trans ?_
    rfl

theorem clockHoldEnd_spec {refs trim : Bool} {s : State} (h : s.sys.halt = 3) :
    ∃ t, exec (.clockHoldEnd refs trim) s = .next t
      ∧ t.clk.tcxoOk = true ∧ t.sys.cause = 4 ∧ t.red.own = 0 ∧ t.red.gates = false
      ∧ (refs = false → t.sys.step = 1 ∧ t.sys.halt = 1)
      ∧ (refs = true → (∀ d ∈ [1, 2, 3, 7], domUp t d = true) ∧ (t.sys.halt = 0 ∨ t.sys.halt = 2)) := by
  have hrun : exec (.clockHoldEnd refs trim) s = .next (startRefs refs trim { becomeIdle s with
      clk.tcxoOk := true, sys.cause := 4, sys.step := 1, red.state := .electing, red.election := false }) :=
    congrArg Host.Outcome.next (if_pos h)
  obtain ⟨ho, hg, -, -, -, -⟩ := becomeIdle_claim s
  generalize becomeIdle s = v at ho hg hrun
  generalize hu : ({ v with
      clk.tcxoOk := true, sys.cause := 4, sys.step := 1, red.state := .electing, red.election := false } : State) = u at hrun
  have hc := startRefs_claim refs trim u
  have hs := startRefs_start refs trim u
  refine ⟨_, hrun, (congrArg ClkBlk.tcxoOk hs.clk).trans ?_, (congrArg SysBlk.cause hs.sys :).trans ?_, hc.own.trans ?_,
    hc.gates.trans ?_, fun hr => ?_, fun hr => ⟨(domUp_startRefs refs trim u).1 hr, startRefs_halt refs trim u hr⟩⟩
  · rw [← hu]
  · rw [← hu]
  · rw [← hu]
    exact ho
  · rw [← hu]
    exact hg
  · obtain ⟨g1, g2, -⟩ := (startRefs_outcome refs trim u).1 hr
    exact ⟨g1, g2⟩

/-! Holdover and DRAM errors (R15, R25). -/

theorem discHoldover_spec (s : State) : exec .discHoldover s
    = .next { s with clk.holdover := s.clk.holdover || (s.clk.en && decide (8000 ≤ s.clk.trimAge)) } := by
  refine congrArg Host.Outcome.next ?_
  split
  · next h => rw [h, Bool.or_true]
  · next h => rw [Bool.eq_false_iff.2 h, Bool.or_false]

theorem dramErrors_spec (s : State) :
    (domUp s 2 = false → exec .dramSingleBitError s = .next s ∧ exec .dramDoubleBitError s = .next s)
    ∧ (domUp s 2 = true → exec .dramSingleBitError s = .next { s with sys.sbe := satInc s.sys.sbe }
      ∧ ∃ t, exec .dramDoubleBitError s = .next t ∧ t.sys.dbe = satInc s.sys.dbe
        ∧ t.sys.dramCn = some s.course.cn ∧ t.resp.busError = true
        ∧ t.safe.dramFaults = (if domUp s 1 then satInc s.safe.dramFaults else s.safe.dramFaults)
        ∧ t = { s with sys.dbe := t.sys.dbe, sys.dramCn := t.sys.dramCn, safe.dramFaults := t.safe.dramFaults, resp := t.resp }) := by
  refine ⟨fun h => ?_, fun h => ⟨congrArg Host.Outcome.next (if_pos h), _, congrArg Host.Outcome.next (if_pos h), rfl, rfl,
    rfl, rfl, rfl⟩⟩
  have hn : ¬ domUp s 2 = true := by
    rw [h]
    exact Bool.false_ne_true
  exact ⟨congrArg Host.Outcome.next (if_neg hn), congrArg Host.Outcome.next (if_neg hn)⟩

/-- Settles O58, from what PD0 keeps as domains go up and down. -/
theorem powerUpAndClock : Obligations.PowerUpAndClock := by
  unfold Obligations.PowerUpAndClock
  refine ⟨fun role tcxo refs trim rtc s hs hh => powerOn_spec hs hh, refCheckRetry_spec, fun s => ⟨fun h => ?_, clockFault_spec⟩,
    fun refs trim s => ⟨fun h => congrArg Host.Outcome.next (if_neg h), clockHoldEnd_spec⟩, discHoldover_spec, dramErrors_spec⟩
  exact congrArg Host.Outcome.next (if_neg (by rw [h]; exact Bool.false_ne_true))

end Sys2Proof.Machine
end


section
/-! Supplies, the hold-up store and the supply-loss sequence (R420 to R427). -/

namespace Sys2Proof.Machine

/-! A supply's change of state, with its event. -/

theorem supEvent_set {bit code : Nat} {s u : State} (hh : u.hdrs = s.hdrs) (he : u.evq = s.evq) (hc : u.course = s.course)
    (hd : domUp u 3 = domUp s 3) :
    (supEvent code 1 (setSticky 1 bit u)).sup = u.sup
    ∧ hdr (supEvent code 1 (setSticky 1 bit u)) 1 = hdrSticky bit (hdr s 1)
    ∧ Raised s (supEvent code 1 (setSticky 1 bit u)) 2 code 1 65536
    ∧ (∀ p, p ≠ 1 → hdr (supEvent code 1 (setSticky 1 bit u)) p = hdr s p)
    ∧ ∃ h e f, supEvent code 1 (setSticky 1 bit u) = { u with hdrs := h, evq := e, free := f } := by
  have hpage : ∀ p, hdr u p = hdr s p := fun p => by
    unfold hdr
    rw [hh]
  have hr : Raised s (supEvent code 1 (setSticky 1 bit u)) 2 code 1 65536 :=
    blockEv_raised_from 1 code 65536 hd (congrArg EvqBlk.inflight he) (congrArg CourseBlk.cn hc)
  obtain ⟨e, f, hev⟩ := supEvent_evq code 1 (setSticky 1 bit u)
  refine ⟨?_, ?_, hr, fun p hp => ?_, ?_⟩
  · rw [hev]
    rfl
  · rw [hev]
    exact (hdr_setSticky_same 1 bit u).trans (congrArg (hdrSticky bit) (hpage 1))
  · rw [hev]
    exact (hdr_setSticky_other 1 bit u hp).trans (hpage p)
  · rw [hev]
    exact ⟨_, e, f, rfl⟩

theorem supEvent_plain {code d data : Nat} (hdata : d * 2 ^ 16 = data) {s u : State} (he : u.evq = s.evq)
    (hc : u.course = s.course) (hd : domUp u 3 = domUp s 3) :
    Raised s (supEvent code d u) 2 code 1 data ∧ ∃ e f, supEvent code d u = { u with evq := e, free := f } := by
  refine ⟨?_, supEvent_evq code d u⟩
  rw [← hdata]
  exact blockEv_raised_from 1 code (d * 2 ^ 16) hd (congrArg EvqBlk.inflight he) (congrArg CourseBlk.cn hc)

/-! Low VS (R420). -/

theorem vsUvSet_spec (vs : Half) (s : State) : ∃ t, exec (.vsUvSet vs) s = .next t
    ∧ t.sup = { s.sup with vs := vs, dip := !s.sup.supplyLoss, vsUv := true }
    ∧ (s.sup.vsUv = true → hdr t 1 = hdr s 1 ∧ t.evq = s.evq)
    ∧ (s.sup.vsUv = false → hdr t 1 = hdrSticky 10 (hdr s 1) ∧ Raised s t 2 1 1 65536)
    ∧ (∀ p, p ≠ 1 → hdr t p = hdr s p)
    ∧ t = { s with sup := t.sup, hdrs := t.hdrs, evq := t.evq, free := t.free } := by
  cases h : s.sup.vsUv with
  | true =>
    refine ⟨_, congrArg Host.Outcome.next (if_pos h), ?_, fun _ => ⟨rfl, rfl⟩, nofun, fun _ _ => rfl, rfl⟩
    rw [← h]
  | false =>
    obtain ⟨h1, h2, h3, h4, x, e, f, h5⟩ := supEvent_set (bit := 10) (code := 1) (s := s)
      (u := { s with sup.vs := vs, sup.dip := !s.sup.supplyLoss, sup.vsUv := true }) rfl rfl rfl rfl
    refine ⟨_, congrArg Host.Outcome.next (if_neg (by rw [h]; exact Bool.false_ne_true)), h1, nofun, fun _ => ⟨h2, h3⟩,
      h4, ?_⟩
    rw [h5]

theorem vsUvClear_spec (vs : Half) (held : Bool) (s : State) : ∃ t, exec (.vsUvClear vs held) s = .next t
    ∧ t.sup.vs = vs ∧ t.sup.dip = false
    ∧ t.sup.dips = (if s.sup.dip && !s.sup.supplyLoss then satInc s.sup.dips else s.sup.dips)
    ∧ (held = false → t.sup.vsUv = s.sup.vsUv ∧ t.sup.supplyLoss = s.sup.supplyLoss ∧ t.sup.returned = s.sup.returned)
    ∧ (held = true → s.sup.vsUv = true → t.sup.vsUv = false ∧ t.sup.supplyLoss = false
        ∧ t.sup.returned = (s.sup.returned || s.sup.supplyLoss) ∧ Raised s t 2 1 1 0)
    ∧ t = { s with sup := t.sup, evq := t.evq, free := t.free } := by
  by_cases h : (held && s.sup.vsUv) = true
  · obtain ⟨hr, e, f, hev⟩ := supEvent_plain (code := 1) (d := 0) (data := 0) rfl (s := s) (u := { s with
      sup.vs := vs, sup.dip := false
      sup.dips := if s.sup.dip && !s.sup.supplyLoss then satInc s.sup.dips else s.sup.dips
      sup.vsUv := false, sup.supplyLoss := false, sup.returned := s.sup.returned || s.sup.supplyLoss }) rfl rfl rfl
    have hheld : held = true := (Bool.and_eq_true _ _ ▸ h).1
    have hrun := congrArg (Host.Outcome.next (φ := Fault) (ρ := Refusal)) (if_pos h : (if (held && s.sup.vsUv) = true then
      supEvent 1 0 { s with
        sup.vs := vs, sup.dip := false
        sup.dips := if s.sup.dip && !s.sup.supplyLoss then satInc s.sup.dips else s.sup.dips
        sup.vsUv := false, sup.supplyLoss := false, sup.returned := s.sup.returned || s.sup.supplyLoss }
      else { s with
        sup.vs := vs, sup.dip := false
        sup.dips := if s.sup.dip && !s.sup.supplyLoss then satInc s.sup.dips else s.sup.dips }) = _)
    refine ⟨_, hrun, ?_, ?_, ?_, fun hf => absurd (hheld.symm.trans hf) (by decide), fun _ _ => ⟨?_, ?_, ?_, hr⟩, ?_⟩ <;>
      rw [hev]
  · exact ⟨_, congrArg Host.Outcome.next (if_neg h), rfl, rfl, rfl, fun _ => ⟨rfl, rfl, rfl⟩,
      fun h1 h2 => absurd (by rw [h1, h2]; rfl) h, rfl⟩

/-! Field supplies and the hold-up store (R421 to R423). -/

/-- VF1 or VF2 with its fault bit. -/
def vfNoted (n : Fin 2) (mv : Half) (fault : Bool) (s : State) : State :=
  if n = 0 then { s with sup.vf1 := mv, sup.vf1Fault := fault } else { s with sup.vf2 := mv, sup.vf2Fault := fault }

theorem vfNoted_spec (n : Fin 2) (mv : Half) (fault : Bool) (s : State) :
    (n = 0 → (vfNoted n mv fault s).sup = { s.sup with vf1 := mv, vf1Fault := fault })
    ∧ (n = 1 → (vfNoted n mv fault s).sup = { s.sup with vf2 := mv, vf2Fault := fault })
    ∧ vfNoted n mv fault s = { s with sup := (vfNoted n mv fault s).sup } := by
  unfold vfNoted
  refine ⟨fun h => ?_, fun h => ?_, ?_⟩
  · rw [if_pos h]
  · rw [h, if_neg (by decide)]
  · split <;> rfl

theorem vfFaultSet_spec (n : Fin 2) (mv : Half) (s : State) :
    let was := if n = 0 then s.sup.vf1Fault else s.sup.vf2Fault
    ∃ t, exec (.vfFaultSet n mv) s = .next t
      ∧ (n = 0 → t.sup = { s.sup with vf1 := mv, vf1Fault := true })
      ∧ (n = 1 → t.sup = { s.sup with vf2 := mv, vf2Fault := true })
      ∧ (was = true → hdr t 1 = hdr s 1 ∧ t.evq = s.evq)
      ∧ (was = false → hdr t 1 = hdrSticky (11 + n.val) (hdr s 1) ∧ Raised s t 2 (3 + n.val) 1 65536)
      ∧ (∀ p, p ≠ 1 → hdr t p = hdr s p)
      ∧ t = { s with sup := t.sup, hdrs := t.hdrs, evq := t.evq, free := t.free } := by
  intro was
  obtain ⟨g0, g1, gf⟩ := vfNoted_spec n mv true s
  have hrun : exec (.vfFaultSet n mv) s = .next (if was then vfNoted n mv true s else
      supEvent (3 + n.val) 1 (setSticky 1 (11 + n.val) (vfNoted n mv true s))) := rfl
  generalize vfNoted n mv true s = u at hrun g0 g1 gf
  cases hw : was with
  | true =>
    rw [hw, if_pos rfl] at hrun
    refine ⟨u, hrun, g0, g1, fun _ => ⟨?_, ?_⟩, nofun, fun p _ => ?_, ?_⟩ <;> rw [gf] <;> rfl
  | false =>
    rw [hw, if_neg Bool.false_ne_true] at hrun
    obtain ⟨h1, h2, h3, h4, x, e, f, h5⟩ := supEvent_set (bit := 11 + n.val) (code := 3 + n.val) (s := s) (u := u)
      (by rw [gf]) (by rw [gf]) (by rw [gf]) (by rw [gf]; rfl)
    refine ⟨_, hrun, fun h => h1.trans (g0 h), fun h => h1.trans (g1 h), nofun, fun _ => ⟨h2, h3⟩, h4, ?_⟩
    rw [h5, gf]

theorem vfFaultClear_spec (n : Fin 2) (mv : Half) (s : State) :
    let was := if n = 0 then s.sup.vf1Fault else s.sup.vf2Fault
    ∃ t, exec (.vfFaultClear n mv) s = .next t
      ∧ (n = 0 → t.sup = { s.sup with vf1 := mv, vf1Fault := false })
      ∧ (n = 1 → t.sup = { s.sup with vf2 := mv, vf2Fault := false })
      ∧ (was = true → Raised s t 2 (3 + n.val) 1 0) ∧ (was = false → t.evq = s.evq)
      ∧ t = { s with sup := t.sup, evq := t.evq, free := t.free } := by
  intro was
  obtain ⟨g0, g1, gf⟩ := vfNoted_spec n mv false s
  have hrun : exec (.vfFaultClear n mv) s = .next (if was then supEvent (3 + n.val) 0 (vfNoted n mv false s)
      else vfNoted n mv false s) := rfl
  generalize vfNoted n mv false s = u at hrun g0 g1 gf
  cases hw : was with
  | true =>
    rw [hw, if_pos rfl] at hrun
    obtain ⟨hr, e, f, hev⟩ := supEvent_plain (code := 3 + n.val) (d := 0) (data := 0) rfl (s := s) (u := u)
      (by rw [gf]) (by rw [gf]) (by rw [gf]; rfl)
    refine ⟨_, hrun, fun h => ?_, fun h => ?_, fun _ => hr, nofun, ?_⟩
    · rw [hev]
      exact g0 h
    · rw [hev]
      exact g1 h
    · rw [hev, gf]
  | false =>
    rw [hw, if_neg Bool.false_ne_true] at hrun
    refine ⟨u, hrun, g0, g1, nofun, fun _ => ?_, ?_⟩ <;> rw [gf]

theorem vfNoneSet_eq {s : State} (h : s.sup.vfNone = false) :
    exec .vfNoneSet s = .next (supEvent 5 1 (setSticky 1 13 { s with sup.vfNone := true })) := by
  have hrun : exec .vfNoneSet s = .next (if s.sup.vfNone then s
    else supEvent 5 1 (setSticky 1 13 { s with sup.vfNone := true })) := rfl
  rw [hrun, if_neg (by rw [h]; exact Bool.false_ne_true)]

theorem vfNoneClear_eq {s : State} (h : s.sup.vfNone = true) :
    exec .vfNoneClear s = .next (supEvent 5 0 { s with sup.vfNone := false, sup.vfBack := some s.course.cn }) := by
  have hrun : exec .vfNoneClear s = .next (if s.sup.vfNone then
    supEvent 5 0 { s with sup.vfNone := false, sup.vfBack := some s.course.cn } else s) := rfl
  rw [hrun, if_pos h]

theorem vfNoneSet_spec {s : State} (h : s.sup.vfNone = false) :
    ∃ t, exec .vfNoneSet s = .next t ∧ t.sup = { s.sup with vfNone := true }
      ∧ hdr t 1 = hdrSticky 13 (hdr s 1) ∧ Raised s t 2 5 1 65536
      ∧ t = { s with sup := t.sup, hdrs := t.hdrs, evq := t.evq, free := t.free } := by
  obtain ⟨h1, h2, h3, -, x, e, f, h5⟩ := supEvent_set (bit := 13) (code := 5) (s := s)
    (u := { s with sup.vfNone := true }) rfl rfl rfl rfl
  refine ⟨_, vfNoneSet_eq h, h1, h2, h3, ?_⟩
  rw [h5]

theorem vfNoneClear_spec {s : State} (h : s.sup.vfNone = true) :
    ∃ t, exec .vfNoneClear s = .next t
      ∧ t.sup = { s.sup with vfNone := false, vfBack := some s.course.cn } ∧ Raised s t 2 5 1 0
      ∧ t = { s with sup := t.sup, evq := t.evq, free := t.free } := by
  obtain ⟨hr, e, f, hev⟩ := supEvent_plain (code := 5) (d := 0) (data := 0) (Nat.zero_mul _) (s := s)
    (u := { s with sup.vfNone := false, sup.vfBack := some s.course.cn }) rfl rfl rfl
  refine ⟨_, vfNoneClear_eq h, ?_, hr, ?_⟩ <;> rw [hev]

theorem vfNone_idle (s : State) : (s.sup.vfNone = true → exec .vfNoneSet s = .next s)
    ∧ (s.sup.vfNone = false → exec .vfNoneClear s = .next s) :=
  ⟨fun h => congrArg Host.Outcome.next (if_pos h),
    fun h => congrArg Host.Outcome.next (if_neg fun k => Bool.false_ne_true (h.symm.trans k))⟩

/-- The store as it was measured. -/
def holdupNoted (volt cap : Half) (charging : Bool) (e : Nat) (low : Bool) (s : State) : State :=
  { s with
    sup.volt := volt, sup.cap := cap, sup.charging := charging, sup.avail := satNat 16 e, sup.holdupLow := low }

theorem holdupNoted_event (volt cap : Half) (charging : Bool) (e : Nat) (low : Bool) (s : State) :
    let t := if low = s.sup.holdupLow then holdupNoted volt cap charging e low s
      else supEvent 6 (b2n low) (holdupNoted volt cap charging e low s)
    t.sup = (holdupNoted volt cap charging e low s).sup ∧ (low = s.sup.holdupLow → t.evq = s.evq)
      ∧ (low ≠ s.sup.holdupLow → Raised s t 2 6 1 (b2n low * 65536))
      ∧ t = { s with sup := t.sup, evq := t.evq, free := t.free } := by
  by_cases h : low = s.sup.holdupLow
  · rw [if_pos h]
    exact ⟨rfl, fun _ => rfl, fun hn => absurd h hn, rfl⟩
  · rw [if_neg h]
    obtain ⟨hr, x, f, hev⟩ := supEvent_plain (code := 6) (d := b2n low) rfl (s := s)
      (u := holdupNoted volt cap charging e low s) rfl rfl rfl
    refine ⟨?_, fun hn => absurd hn h, fun _ => hr, ?_⟩ <;> rw [hev]
    rfl

theorem exec_holdupMeasure (volt : Half) (charging : Bool) (cap : Option Half) (s : State) :
    ∃ c e low, c = cap.getD s.sup.cap ∧ e = holdupEnergy volt c ∧ low = decide (holdupEnergy volt c < 2000)
      ∧ exec (.holdupMeasure volt charging cap) s = .next (if low = s.sup.holdupLow
        then holdupNoted volt c charging e low s else supEvent 6 (b2n low) (holdupNoted volt c charging e low s)) :=
  ⟨_, _, _, rfl, rfl, rfl, rfl⟩

theorem holdupMeasure_spec (volt : Half) (charging : Bool) (cap : Option Half) (s : State) :
    let c := cap.getD s.sup.cap
    let low := decide (holdupEnergy volt c < 2000)
    ∃ t, exec (.holdupMeasure volt charging cap) s = .next t
      ∧ t.sup = { s.sup with volt := volt, cap := c, charging := charging, avail := satNat 16 (holdupEnergy volt c), holdupLow := low }
      ∧ (low = s.sup.holdupLow → t.evq = s.evq)
      ∧ (low ≠ s.sup.holdupLow → Raised s t 2 6 1 (b2n low * 65536))
      ∧ t = { s with sup := t.sup, evq := t.evq, free := t.free } := by
  obtain ⟨c, e, low, rfl, rfl, rfl, hrun⟩ := exec_holdupMeasure volt charging cap s
  exact ⟨_, hrun, holdupNoted_event _ _ _ _ _ s⟩

/-! The supply-loss sequence (R426). -/

/-- The supply-loss signal as PD0 notes it. -/
def lossNoted (vs : Half) (s : State) : State :=
  supEvent 2 (vs.toNat / 10) (setSticky 1 9 { endSwitch s with
    sup.vs := vs, sup.dip := false, sup.supplyLoss := true, sup.losses := satInc s.sup.losses
    sys.shedding := true, log.lossRisk := flushRisk s })

/-- The unit without claim and gates. -/
def lossClaim (s : State) : State :=
  if s.red.state = .active then yieldNow 4 s else if claimed s then becomeIdle s else gatesOpen s

theorem lossClaim_islands (s : State) : Islands s (lossClaim s) :=
  .ite (yieldNow_islands 4 s) (.ite (becomeIdle_islands s) (gatesOpen_islands s))

theorem lossClaim_claim (s : State) : (lossClaim s).red.own = 0 ∧ (lossClaim s).red.gates = false
    ∧ (lossClaim s).plan.nor = s.plan.nor := by
  unfold lossClaim
  split
  · obtain ⟨_, _, _, _, _, _, _, _, _, _, h⟩ := yieldNow_gateOnly 4 s
    rw [h]
    exact ⟨rfl, rfl, rfl⟩
  · split
    · obtain ⟨h1, h2, -, -, -, h3⟩ := becomeIdle_claim s
      exact ⟨h1, h2, h3⟩
    · next hc =>
      obtain ⟨_, _, _, _, _, _, _, _, _, _, h⟩ := gatesOpen_gateOnly s
      rw [h]
      refine ⟨?_, rfl, rfl⟩
      simpa [claimed] using hc

theorem lossNoted_spec (vs : Half) (s : State) :
    (lossNoted vs s).sup = { s.sup with vs := vs, dip := false, supplyLoss := true, losses := satInc s.sup.losses }
    ∧ (lossNoted vs s).sys.shedding = true ∧ (lossNoted vs s).sys.switching = none
    ∧ (lossNoted vs s).sys.domOn = s.sys.domOn ∧ (lossNoted vs s).plan.nor = s.plan.nor
    ∧ hdr (lossNoted vs s) 1 = hdrSticky 9 (hdr s 1) := by
  obtain ⟨hp, -, -, hplan⟩ := endSwitch_frame s
  have hpage := endSwitch_page (p := 1) (by decide) s
  unfold lossNoted
  generalize endSwitch s = u at hp hplan hpage ⊢
  obtain ⟨e, f, he⟩ := supEvent_evq 2 (vs.toNat / 10) (setSticky 1 9 { u with
    sup.vs := vs, sup.dip := false, sup.supplyLoss := true, sup.losses := satInc s.sup.losses
    sys.shedding := true, log.lossRisk := flushRisk s })
  rw [he]
  refine ⟨?_, rfl, (congrArg SysBlk.switching hp.sys :), (congrArg SysBlk.domOn hp.sys :), congrArg PlanBlk.nor hplan, ?_⟩
  · change ({ u.sup with vs := vs, dip := false, supplyLoss := true, losses := satInc s.sup.losses } : SupBlk) = _
    rw [hp.sup]
  · exact (hdr_setSticky_same 1 9 _).trans (congrArg (hdrSticky 9) hpage)

theorem exec_supplyLoss {vs : Half} {s : State} (hv : s.sup.vsUv = true) (hl : s.sup.supplyLoss = false) :
    exec (.supplyLoss vs) s = .next (netReset (shed [6, 5, 4, 3, 2, 1] (lossClaim (panelLoss (lossNoted vs s))))) := by
  have hrun : exec (.supplyLoss vs) s = .next (if s.sup.vsUv && !s.sup.supplyLoss then
      netReset (shed [6, 5, 4, 3, 2, 1] (lossClaim (panelLoss (lossNoted vs s)))) else s) := rfl
  rw [hrun, if_pos (by rw [hv, hl]; rfl)]

theorem panelLoss_nor (s : State) : (panelLoss s).plan.nor = s.plan.nor := by
  unfold panelLoss
  split
  · obtain ⟨⟨_, _, h⟩, -, -⟩ := dropAllPend_spec s
    rw [h]
  · rfl

theorem supplyLoss_spec {vs : Half} {s : State} (hv : s.sup.vsUv = true) (hl : s.sup.supplyLoss = false) :
    ∃ t, exec (.supplyLoss vs) s = .next t
      ∧ t.sup = { s.sup with vs := vs, dip := false, supplyLoss := true, losses := satInc s.sup.losses }
      ∧ t.red.own = 0 ∧ t.red.gates = false ∧ t.sys.shedding = true ∧ t.sys.switching = none
      ∧ (∀ d ∈ [1, 2, 3, 4, 5, 6], domUp t d = false) ∧ domUp t 7 = domUp s 7 ∧ domUp t 0 = domUp s 0
      ∧ (hdr t 1).sticky = setBit (hdr s 1).sticky 9 true ∧ t.plan.nor = s.plan.nor := by
  have hrun := exec_supplyLoss (vs := vs) hv hl
  obtain ⟨hsup, hshed, hsw, hdom, hnor, hpage⟩ := lossNoted_spec vs s
  generalize lossNoted vs s = u at hrun hsup hshed hsw hdom hnor hpage
  have hi := (panelLoss_islands u).trans (lossClaim_islands (panelLoss u))
  obtain ⟨ho, hg, hn⟩ := lossClaim_claim (panelLoss u)
  have hn' := hn.trans (panelLoss_nor u)
  generalize lossClaim (panelLoss u) = v at hrun hi ho hg hn'
  obtain ⟨ho2, hg2, -, -, -, hn2⟩ := shed_claimless [6, 5, 4, 3, 2, 1] ho hg
  have he := shed_else [6, 5, 4, 3, 2, 1] v
  have hp := shed_lowPages [6, 5, 4, 3, 2, 1] v
  have hu := domUp_shed [6, 5, 4, 3, 2, 1] (by decide) v
  generalize shed [6, 5, 4, 3, 2, 1] v = w at hrun ho2 hg2 hn2 he hp hu
  have hdv : ∀ d, domUp v d = domUp s d := fun d => (domUp_of_sys hi.pd0.sys d).trans (by unfold domUp; rw [hdom])
  refine ⟨_, hrun, (he.sup.trans (hi.pd0.sup.trans hsup)), ho2, hg2, ?_, ?_, fun d hd => (hu d).trans ?_,
    ((hu 7).trans (Bool.and_true _)).trans (hdv 7), ((hu 0).trans (Bool.and_true _)).trans (hdv 0), ?_,
    hn2.trans (hn'.trans hnor)⟩
  · exact he.shedding.trans ((congrArg SysBlk.shedding hi.pd0.sys).trans hshed)
  · exact he.switching.trans ((congrArg SysBlk.switching hi.pd0.sys).trans hsw)
  · have hc : [6, 5, 4, 3, 2, 1].contains d = true := by
      simp only [List.mem_cons, List.not_mem_nil, or_false] at hd
      rcases hd with rfl | rfl | rfl | rfl | rfl | rfl <;> rfl
    rw [hc, Bool.not_true, Bool.and_false]
  · exact congrArg PageHdr.sticky ((hp 1 (by decide)).trans ((hi.pages 1 (by decide)).trans hpage))

theorem supplyLoss_idle {vs : Half} {s : State} (h : s.sup.vsUv = false ∨ s.sup.supplyLoss = true) :
    exec (.supplyLoss vs) s = .next s := by
  refine congrArg Host.Outcome.next (if_neg ?_)
  rcases h with h | h <;> rw [h]
  · exact Bool.false_ne_true
  · rw [Bool.not_true, Bool.and_false]
    exact Bool.false_ne_true

/-! PD7 goes off; the node returns, or loses all power (R426, R427). -/

theorem netDown_frame (s : State) : (netDown s).red = s.red ∧ (netDown s).course = s.course := by
  unfold netDown
  generalize hv : ({ s with
    panel.areas := ⟨s.panel.areas.cells.map (fun c => (c.1, { c.2 with run := none }))⟩ } : State) = v
  obtain ⟨⟨_, _, h1⟩, -, -⟩ := dropAllPend_spec v
  obtain ⟨_, _, h2⟩ := logStop_frame (dropAllPend v)
  rw [h2, h1, ← hv]
  exact ⟨rfl, rfl⟩

theorem domainDown7_frame (s : State) : (domainDown 7 s).red = s.red ∧ (domainDown 7 s).course = s.course := by
  obtain ⟨h1, h2⟩ := netDown_frame (switched 7 false s)
  have e : domainDown 7 s = domEvent (netDown (switched 7 false s)) := rfl
  have hred : (switched 7 false s).red = s.red := rfl
  have hcourse : (switched 7 false s).course = s.course := rfl
  generalize netDown (switched 7 false s) = u at e h1 h2
  obtain ⟨_, _, he⟩ := domEvent_evq u
  rw [e, he]
  exact ⟨h1.trans hred, h2.trans hcourse⟩

theorem shedPd7Off_spec (s : State) :
    let may := s.sys.shedding && domUp s 7 && panelQuiet s && !s.panel.bannerOwed
    (may = false → exec .shedPd7Off s = .next s)
    ∧ (may = true → ∃ t, exec .shedPd7Off s = .next t ∧ domUp t 7 = false ∧ t.sys.shedding = false
        ∧ (∀ d, d < 7 → domUp t d = domUp s d) ∧ t.sup = s.sup ∧ t.red = s.red ∧ t.course = s.course) := by
  intro may
  refine ⟨fun h => congrArg Host.Outcome.next (if_neg fun k => Bool.false_ne_true (h.symm.trans k)), fun h => ?_⟩
  obtain ⟨hred, hcourse⟩ := domainDown7_frame s
  have hoff := domUp_domainDown_same (d := 7) (by decide) s
  have hoth := fun d (hd : d < 7) => domUp_domainDown_other (d := 7) (k := d) (by omega) s
  have hsup := (domainDown_else 7 s).sup
  have hrun : exec .shedPd7Off s = .next { domainDown 7 s with sys.shedding := false } :=
    congrArg Host.Outcome.next (if_pos h)
  generalize domainDown 7 s = u at hrun hred hcourse hoff hoth hsup
  exact ⟨_, hrun, hoff, rfl, hoth, hsup, hred, hcourse⟩

theorem supplyReturn_spec (refs trim : Bool) (s : State) :
    let may := s.sup.returned && panelQuiet s && !s.panel.bannerOwed
    (may = false → exec (.supplyReturn refs trim) s = .next s)
    ∧ (may = true → ∃ t, exec (.supplyReturn refs trim) s = .next t ∧ t.sys.cause = 1
        ∧ t.sys.resets = satInc s.sys.resets ∧ t.sup.returned = false ∧ t.red.own = 0 ∧ t.red.gates = false
        ∧ t.sys.shedding = false ∧ t.sys.resetAsked = none
        ∧ (s.clk.tcxoOk = false → t.sys.halt = 3 ∧ ∀ d ∈ [1, 2, 3, 4, 5, 6, 7], domUp t d = false)
        ∧ (s.clk.tcxoOk = true → refs = false →
            t.sys.step = 1 ∧ t.sys.halt = 1 ∧ ∀ d ∈ [1, 2, 3, 4, 5, 6, 7], domUp t d = false)
        ∧ (s.clk.tcxoOk = true → refs = true → ∀ d ∈ [1, 2, 3, 7], domUp t d = true)) := by
  intro may
  refine ⟨fun h => congrArg Host.Outcome.next (if_neg fun k => Bool.false_ne_true (h.symm.trans k)), fun h => ?_⟩
  obtain ⟨hr, h1, h2, h3⟩ := nodeReset_spec 1 refs trim s
  exact ⟨_, congrArg Host.Outcome.next (if_pos h), hr.cause, hr.resets, hr.returned, hr.own, hr.gates, hr.shedding, hr.asked,
    h1, h2, h3⟩

theorem holdupExhausted_spec (s : State) :
    let may := s.sup.vsUv && s.sup.supplyLoss && !domUp s 7
    (may = false → exec .holdupExhausted s = .next s)
    ∧ (may = true → ∃ t, exec .holdupExhausted s = .next t ∧ t.sys.domOn = 0 ∧ t.red.own = 0 ∧ t.red.gates = false
        ∧ t.sys.serial = s.sys.serial ∧ t.plan.nor = s.plan.nor ∧ t.plan.boot = s.plan.boot ∧ t.plan.alt = s.plan.alt
        ∧ t.plan.key = s.plan.key ∧ t.log.parts = s.log.parts ∧ t.sup.cap = s.sup.cap ∧ t.safe.key = s.safe.key
        ∧ t.panel.frame = s.panel.frame) := by
  intro may
  refine ⟨fun h => congrArg Host.Outcome.next (if_neg fun k => Bool.false_ne_true (h.symm.trans k)), fun h => ?_⟩
  exact ⟨powerless s, congrArg Host.Outcome.next (if_pos h), rfl, rfl, rfl, rfl, rfl, rfl, rfl, rfl, rfl, rfl, rfl, rfl⟩

end Sys2Proof.Machine
end


section
/-! Switching domains in service, RESET and CORE_RESET (R429, R431 to R433, R437). -/

namespace Sys2Proof.Machine

/-! DOMAIN_OFF and DOMAIN_ON (R431, R432). -/

/-- What keeps a domain from being switched: power for its island, guards, or a claim. -/
def switchBarred (on : Bool) (d : Nat) (s : State) : Bool :=
  if on then (d = 4 || d = 5 || d = 6) && !(domUp s 1 && domUp s 3)
  else if d = 7 then false
  else if d = 4 || d = 5 then domainGuarded s d
  else !(s.red.own = 0 && (s.red.state = .standby || s.red.state = .idle)) || (offList s d).any (domainGuarded s)

/-- The domains a command switches, as bits. -/
def switchMask (on : Bool) (d : Nat) (s : State) : BitVec 8 :=
  BitVec.ofNat 8 (maskOfDoms (if on then [d] else offList s d))

/-- The node with the switch of domains `m` begun. -/
def switchBegun (m : BitVec 8) (on : Bool) (s : State) : State :=
  { s with sys.switching := some (m, on), sys.domBusy := m }

/-- What DOMAIN_OFF and DOMAIN_ON do once their page has taken them. -/
def domainBody (on : Bool) (arg : BitVec 24) (s : State) : CmdEnd :=
  if argOutside arg 7 || fld arg 0 3 = 0 || fld arg 0 3 = 2 then .done .badArg 0 s
  else if domUp s (fld arg 0 3) = on then .done .ok 0 s
  else if notInService s || switchBarred on (fld arg 0 3) s then .done .state 0 s
  else .hold (if fld arg 0 3 = 7 && !on then dropAllPend (switchBegun (switchMask on (fld arg 0 3) s) on s)
    else switchBegun (switchMask on (fld arg 0 3) s) on s)

theorem exec_domainOff (req : Requester) (arg : BitVec 24) (s : State) :
    exec (.domainOff req arg) s = .next (issueCmd 0 req 1 arg (domainBody false arg) s) := rfl

theorem exec_domainOn (req : Requester) (arg : BitVec 24) (s : State) :
    exec (.domainOn req arg) s = .next (issueCmd 0 req 2 arg (domainBody true arg) s) := rfl

theorem domainBody_badArg {arg : BitVec 24} (h : argOutside arg 7 = true ∨ fld arg 0 3 = 0 ∨ fld arg 0 3 = 2) (on : Bool)
    (s : State) : domainBody on arg s = .done .badArg 0 s := by
  refine if_pos ?_
  simpa [or_assoc] using h

/-- A domain DOMAIN_OFF and DOMAIN_ON may name. -/
def Switchable (arg : BitVec 24) : Prop := argOutside arg 7 = false ∧ fld arg 0 3 ≠ 0 ∧ fld arg 0 3 ≠ 2

theorem domainBody_switchable {arg : BitVec 24} (h : Switchable arg) (on : Bool) (s : State) :
    domainBody on arg s = if domUp s (fld arg 0 3) = on then .done .ok 0 s
      else if notInService s || switchBarred on (fld arg 0 3) s then .done .state 0 s
      else .hold (if fld arg 0 3 = 7 && !on then dropAllPend (switchBegun (switchMask on (fld arg 0 3) s) on s)
        else switchBegun (switchMask on (fld arg 0 3) s) on s) := by
  obtain ⟨ha, h0, h2⟩ := h
  refine if_neg ?_
  simp [ha, h0, h2]

theorem domainBody_same {on : Bool} {arg : BitVec 24} (h : Switchable arg) {s : State} (hd : domUp s (fld arg 0 3) = on) :
    domainBody on arg s = .done .ok 0 s := by
  rw [domainBody_switchable h, if_pos hd]

theorem domainBody_refused {on : Bool} {arg : BitVec 24} (h : Switchable arg) {s : State} (hd : domUp s (fld arg 0 3) ≠ on)
    (hb : notInService s = true ∨ switchBarred on (fld arg 0 3) s = true) : domainBody on arg s = .done .state 0 s := by
  rw [domainBody_switchable h, if_neg hd, if_pos (by simpa using hb)]

theorem domainBody_held {on : Bool} {arg : BitVec 24} (h : Switchable arg) {s : State} (hd : domUp s (fld arg 0 3) ≠ on)
    (hn : notInService s = false) (hb : switchBarred on (fld arg 0 3) s = false) :
    domainBody on arg s = .hold (if fld arg 0 3 = 7 && !on then
        dropAllPend (switchBegun (switchMask on (fld arg 0 3) s) on s)
      else switchBegun (switchMask on (fld arg 0 3) s) on s) := by
  rw [domainBody_switchable h, if_neg hd, if_neg (by simp [hn, hb])]

theorem domainBody_begun {on : Bool} {arg : BitVec 24} (h : Switchable arg) {s : State} (hd : domUp s (fld arg 0 3) ≠ on)
    (hn : notInService s = false) (hb : switchBarred on (fld arg 0 3) s = false) (h7 : fld arg 0 3 = 7 → on = true) :
    domainBody on arg s = .hold (switchBegun (switchMask on (fld arg 0 3) s) on s) := by
  rw [domainBody_held h hd hn hb, if_neg]
  intro k
  rw [Bool.and_eq_true, decide_eq_true_eq] at k
  rw [h7 k.1] at k
  exact Bool.false_ne_true k.2

theorem maskOfDoms_single (d : Nat) : maskOfDoms [d] = 2 ^ d := Nat.zero_add _

theorem offList_single {d : Nat} (h1 : d ≠ 1) (h3 : d ≠ 3) (s : State) : offList s d = [d] := by
  simp [offList, h1, h3]

theorem domainCmds_badArg {req : Requester} {arg : BitVec 24} {s : State} (hr : PageReady s 0)
    (h : argOutside arg 7 = true ∨ fld arg 0 3 = 0 ∨ fld arg 0 3 = 2) :
    Answers (.domainOff req arg) s 0 (hdrDone .badArg 0) s ∧ Answers (.domainOn req arg) s 0 (hdrDone .badArg 0) s :=
  ⟨answers_done hr (exec_domainOff req arg s) (domainBody_badArg h _ _) nofun,
    answers_done hr (exec_domainOn req arg s) (domainBody_badArg h _ _) nofun⟩

/-- Tile domains are switched off while unguarded. -/
theorem domainOff_tiles {req : Requester} {arg : BitVec 24} {s : State} (hr : PageReady s 0) (ha : Switchable arg)
    (hd : domUp s (fld arg 0 3) = true) (hn : notInService s = false) (h45 : fld arg 0 3 = 4 ∨ fld arg 0 3 = 5)
    (hg : domainGuarded s (fld arg 0 3) = false) :
    Answers (.domainOff req arg) s 0 (hdrHeld req 1 arg)
      { s with sys.switching := some (BitVec.ofNat 8 (2 ^ fld arg 0 3), false)
               sys.domBusy := BitVec.ofNat 8 (2 ^ fld arg 0 3) } := by
  refine answers_hold hr (exec_domainOff req arg s) ?_
  have hb : switchBarred false (fld arg 0 3) s = false := by
    unfold switchBarred
    rw [if_neg Bool.false_ne_true, if_neg (by omega), if_pos (by simpa using h45), hg]
  have hm : switchMask false (fld arg 0 3) s = BitVec.ofNat 8 (2 ^ fld arg 0 3) := by
    unfold switchMask
    rw [if_neg Bool.false_ne_true, offList_single (by omega) (by omega), maskOfDoms_single]
  have hk := domainBody_begun (on := false) (s := takeCmd 0 req 1 arg s) ha (fun k => absurd (hd.symm.trans k) (by decide)) hn
    hb (by omega)
  exact hk.trans (by rw [← hm]; rfl)

/-- Domains 1, 3 and 6 are switched off in a unit without a claim, domains 1 and 3 with those that hang on them. -/
theorem domainOff_islands {req : Requester} {arg : BitVec 24} {s : State} (hr : PageReady s 0) (ha : Switchable arg)
    (hd : domUp s (fld arg 0 3) = true) (hn : notInService s = false)
    (h136 : fld arg 0 3 = 1 ∨ fld arg 0 3 = 3 ∨ fld arg 0 3 = 6) (ho : s.red.own = 0)
    (hs : s.red.state = .standby ∨ s.red.state = .idle) (hg : ∀ k ∈ offList s (fld arg 0 3), domainGuarded s k = false) :
    Answers (.domainOff req arg) s 0 (hdrHeld req 1 arg)
      { s with sys.switching := some (BitVec.ofNat 8 (maskOfDoms (offList s (fld arg 0 3))), false)
               sys.domBusy := BitVec.ofNat 8 (maskOfDoms (offList s (fld arg 0 3))) } := by
  refine answers_hold hr (exec_domainOff req arg s) ?_
  have hb : switchBarred false (fld arg 0 3) s = false := by
    have hany : (offList s (fld arg 0 3)).any (domainGuarded s) = false := by
      rw [List.any_eq_false]
      exact fun k hk => by rw [hg k hk]; exact Bool.false_ne_true
    have hstate : (s.red.state = .standby || s.red.state = .idle) = true := by
      rw [Bool.or_eq_true, decide_eq_true_eq, decide_eq_true_eq]
      exact hs
    unfold switchBarred
    rw [if_neg Bool.false_ne_true, if_neg (by omega), if_neg (by simp; omega), hany, ho, hstate]
    rfl
  have hk := domainBody_begun (on := false) (s := takeCmd 0 req 1 arg s) ha (fun k => absurd (hd.symm.trans k) (by decide)) hn
    hb (by omega)
  exact hk

theorem domainOff_panel {req : Requester} {arg : BitVec 24} {s : State} (hr : PageReady s 0) (ha : Switchable arg)
    (hd : domUp s 7 = true) (hn : notInService s = false) (h7 : fld arg 0 3 = 7) :
    ∃ t, exec (.domainOff req arg) s = .next t ∧ hdr t 0 = hdrHeld req 1 arg (hdr s 0)
      ∧ t.sys.switching = some (0x80, false) ∧ t.sys.domBusy = 0x80 ∧ (∀ k, k < 32 → (area t k).pend = none)
      ∧ t = { s with sys.switching := t.sys.switching, sys.domBusy := 0x80, panel.areas := t.panel.areas, hdrs := t.hdrs } := by
  have hb : switchBarred false (fld arg 0 3) s = false := by
    unfold switchBarred
    rw [if_neg Bool.false_ne_true, if_pos h7]
  have hm : switchMask false (fld arg 0 3) s = 0x80 := by
    unfold switchMask
    rw [if_neg Bool.false_ne_true, offList_single (by omega) (by omega), maskOfDoms_single, h7]
    rfl
  have hk := domainBody_held (on := false) (s := takeCmd 0 req 1 arg s) ha
    (fun k => absurd ((h7 ▸ hd : domUp s (fld arg 0 3) = true).symm.trans k) (by decide)) hn hb
  rw [if_pos (by rw [h7]; rfl)] at hk
  have hrun : exec (.domainOff req arg) s = .next (dropAllPend (switchBegun 0x80 false (takeCmd 0 req 1 arg s))) := by
    rw [exec_domainOff, issueCmd_ready hr, hk, ← hm]
    rfl
  have hpage : hdr (switchBegun 0x80 false (takeCmd 0 req 1 arg s)) 0 = hdrHeld req 1 arg (hdr s 0) :=
    hdr_takeCmd_same 0 req 1 arg s
  have hsw : switchBegun 0x80 false (takeCmd 0 req 1 arg s)
      = { s with sys.switching := some (0x80, false), sys.domBusy := 0x80, hdrs := (takeCmd 0 req 1 arg s).hdrs } := rfl
  generalize switchBegun 0x80 false (takeCmd 0 req 1 arg s) = u at hrun hpage hsw
  obtain ⟨⟨x, a, he⟩, -, hpend⟩ := dropAllPend_spec u
  have hp := (dropAllPend_islands u).pages 0 (by decide)
  refine ⟨_, hrun, hp.trans hpage, ?_, ?_, hpend, ?_⟩ <;> rw [he, hsw]

theorem domainOff_state {req : Requester} {arg : BitVec 24} {s : State} (hr : PageReady s 0) (ha : Switchable arg)
    (hd : domUp s (fld arg 0 3) = true)
    (hb : notInService s = true ∨ (fld arg 0 3 ≠ 7 ∧ domainGuarded s (fld arg 0 3) = true)) :
    ∃ t, exec (.domainOff req arg) s = .next t ∧ hdr t 0 = hdrSticky 1 (hdrDone .state 0 (hdr s 0))
      ∧ t = { s with hdrs := t.hdrs, evq := t.evq, free := t.free } := by
  have hbar : notInService s = true ∨ switchBarred false (fld arg 0 3) s = true := hb.imp_right fun ⟨h7, hg⟩ => by
    unfold switchBarred
    rw [if_neg Bool.false_ne_true, if_neg h7]
    split
    · exact hg
    · rw [show (offList s (fld arg 0 3)).any (domainGuarded s) = true from
        List.any_eq_true.2 ⟨_, List.mem_append_right _ (List.mem_singleton.2 rfl), hg⟩, Bool.or_true]
  have hk := domainBody_refused (on := false) (s := takeCmd 0 req 1 arg s) ha
    (fun k => absurd (hd.symm.trans k) (by decide)) hbar
  have hrun : exec (.domainOff req arg) s = .next (finishCmd 0 .state 0 (takeCmd 0 req 1 arg s)) := by
    rw [exec_domainOff, issueCmd_ready hr, hk]
  have hpage := hdr_takeCmd_same 0 req 1 arg s
  have hframe : takeCmd 0 req 1 arg s = { s with hdrs := (takeCmd 0 req 1 arg s).hdrs } := rfl
  generalize takeCmd 0 req 1 arg s = u at hrun hpage hframe
  have hheld : (hdr u 0).run = some { by_ := req, op := 1, arg := arg } := by
    rw [hpage]
    rfl
  obtain ⟨e, f, he⟩ := finishCmd_state (page := 0) (res := 0) hheld
  refine ⟨_, hrun, ?_, ?_⟩
  · rw [he]
    refine (hdr_setSticky_same 0 1 _).trans (congrArg (hdrSticky 1) ?_)
    rw [updHdr_same, hpage]
    rfl
  · rw [he, hframe]
    rfl

theorem domainOn_held {req : Requester} {arg : BitVec 24} {s : State} (hr : PageReady s 0) (ha : Switchable arg)
    (hd : domUp s (fld arg 0 3) = false) (hn : notInService s = false)
    (hp : fld arg 0 3 = 4 ∨ fld arg 0 3 = 5 ∨ fld arg 0 3 = 6 → domUp s 1 = true ∧ domUp s 3 = true) :
    Answers (.domainOn req arg) s 0 (hdrHeld req 2 arg)
      { s with sys.switching := some (BitVec.ofNat 8 (2 ^ fld arg 0 3), true)
               sys.domBusy := BitVec.ofNat 8 (2 ^ fld arg 0 3) } := by
  refine answers_hold hr (exec_domainOn req arg s) ?_
  have hb : switchBarred true (fld arg 0 3) s = false := by
    unfold switchBarred
    rw [if_pos rfl]
    by_cases h : fld arg 0 3 = 4 ∨ fld arg 0 3 = 5 ∨ fld arg 0 3 = 6
    · obtain ⟨h1, h3⟩ := hp h
      rw [h1, h3, Bool.and_true, Bool.not_true, Bool.and_false]
    · simp only [not_or] at h
      simp [h.1, h.2.1, h.2.2]
  have hk := domainBody_begun (on := true) (s := takeCmd 0 req 2 arg s) ha (fun k => absurd (hd.symm.trans k) (by decide)) hn
    hb (fun _ => rfl)
  refine hk.trans ?_
  rw [← maskOfDoms_single]
  rfl

/-! The end of a switch (R433). -/

/-- A domain is switched on or off. -/
def domainTo (on trim : Bool) (d : Nat) (s : State) : State := if on then domainUp d trim s else domainDown d s

/-- A held switch has ended. -/
def switchEnded (s : State) : State := { s with sys.switching := none, sys.domBusy := 0 }

theorem domainTo_spec {d : Nat} (hd : d ∈ [1, 3, 4, 5, 6, 7]) (on trim : Bool) (s : State) :
    domUp (domainTo on trim d (switchEnded s)) d = on
    ∧ (∀ k, k ≠ d → domUp (domainTo on trim d (switchEnded s)) k = domUp s k)
    ∧ (domainTo on trim d (switchEnded s)).sys.switching = none ∧ (domainTo on trim d (switchEnded s)).sys.domBusy = 0
    ∧ hdr (domainTo on trim d (switchEnded s)) 0 = hdr s 0 := by
  have hd' : d ≠ 0 ∧ d ≠ 2 ∧ d < 8 := by
    simp only [List.mem_cons, List.not_mem_nil, or_false] at hd
    omega
  obtain ⟨h0, h2, h8⟩ := hd'
  cases on with
  | true =>
    have he := domainUp_else d trim (switchEnded s)
    exact ⟨domUp_domainUp_same h8 trim _, fun k hk => domUp_domainUp_other hk trim _, he.switching, he.domBusy,
      domainUp_lowPages h0 h2 trim _ 0 (by decide)⟩
  | false =>
    have he := domainDown_else d (switchEnded s)
    exact ⟨domUp_domainDown_same h8 _, fun k hk => domUp_domainDown_other hk _, he.switching, he.domBusy,
      (domainDown_islands d (switchEnded s)).pages 0 (by decide)⟩

theorem switchMask_single {d : Nat} (hd : d ∈ [1, 3, 4, 5, 6, 7]) :
    [6, 5, 4, 3, 1, 7].filter (fun k => bitAt (BitVec.ofNat 8 (2 ^ d)) k) = [d] ∧ (BitVec.ofNat 8 (2 ^ d)).toNat = 2 ^ d
    ∧ (bitAt (BitVec.ofNat 8 (2 ^ d)) 7 = true → d = 7) ∧ (bitAt (BitVec.ofNat 8 (2 ^ d)) 6 = true → d = 6) := by
  simp only [List.mem_cons, List.not_mem_nil, or_false] at hd
  rcases hd with rfl | rfl | rfl | rfl | rfl | rfl <;> decide

theorem domainSwitchDone_eq {d : Nat} {on trim : Bool} {s : State} (hd : d ∈ [1, 3, 4, 5, 6, 7])
    (hs : s.sys.switching = some (BitVec.ofNat 8 (2 ^ d), on)) (h7 : on = false → d = 7 → panelQuiet s = true)
    (h6 : on = false → d = 6 → anyClamp s = false) :
    exec (.domainSwitchDone trim) s
      = .next (endIfRunning 0 (if on then 2 else 1) .ok (2 ^ d) (domainTo on trim d (switchEnded s))) := by
  obtain ⟨hl, hm, g7, g6⟩ := switchMask_single hd
  have hw : ¬ ((!on && ((bitAt (BitVec.ofNat 8 (2 ^ d)) 7 && !panelQuiet s)
      || (bitAt (BitVec.ofNat 8 (2 ^ d)) 6 && anyClamp s))) = true) := by
    intro k
    simp only [Bool.and_eq_true, Bool.or_eq_true, Bool.not_eq_true'] at k
    obtain ⟨hon, ⟨k7, kq⟩ | ⟨k6, kc⟩⟩ := k
    · exact Bool.false_ne_true (kq.symm.trans (h7 hon (g7 k7)))
    · exact Bool.false_ne_true ((h6 hon (g6 k6)).symm.trans kc)
  change execDomainSwitchDone trim s = _
  unfold execDomainSwitchDone
  rw [hs]
  dsimp only
  rw [if_neg hw, hl, hm]
  rfl

theorem domainSwitchDone_spec {d : Nat} {on trim : Bool} {s : State} (hd : d ∈ [1, 3, 4, 5, 6, 7])
    (hs : s.sys.switching = some (BitVec.ofNat 8 (2 ^ d), on)) (h7 : on = false → d = 7 → panelQuiet s = true)
    (h6 : on = false → d = 6 → anyClamp s = false) :
    ∃ t, exec (.domainSwitchDone trim) s = .next t ∧ domUp t d = on
      ∧ (∀ k, k ≠ d → k < 8 → domUp t k = domUp s k) ∧ t.sys.switching = none ∧ t.sys.domBusy = 0
      ∧ (∀ r, (hdr s 0).run = some r → r.op = (if on then 2 else 1) → hdr t 0 = hdrEnd .ok (2 ^ d) (hdr s 0)) := by
  have hrun := domainSwitchDone_eq (trim := trim) hd hs h7 h6
  obtain ⟨hsame, hoth, hsw, hbusy, hpage⟩ := domainTo_spec hd on trim s
  generalize domainTo on trim d (switchEnded s) = u at hrun hsame hoth hsw hbusy hpage
  have hsys : (endIfRunning 0 (if on then 2 else 1) .ok (2 ^ d) u).sys = u.sys := by
    obtain ⟨_, _, _, _, _, _, _, _, _, _, h⟩ := endIfRunning_gateOnly 0 (if on then 2 else 1) .ok (2 ^ d) u
    rw [h]
  refine ⟨_, hrun, (domUp_of_sys hsys d).trans hsame, fun k hk _ => (domUp_of_sys hsys k).trans (hoth k hk),
    (congrArg SysBlk.switching hsys).trans hsw, (congrArg SysBlk.domBusy hsys).trans hbusy, fun r hr ho => ?_⟩
  have hop : r.op.toNat = (if on then 2 else 1) := by
    rw [ho]
    cases on <;> rfl
  rw [endIfRunning_runs (st := .ok) (hpage.symm ▸ hr) hop (by decide), updHdr_same, hpage]

/-! RESET and CORE_RESET (R429, R437). -/

theorem reset_answers {req : Requester} {arg : BitVec 24} {s : State} (hr : PageReady s 0) (ha : argOutside arg 1 = false)
    (hb : bitAt arg 0 = true ∨ inService s = false) :
    Answers (.reset req arg) s 0 (hdrDone .ok 0) { s with sys.resetAsked := some 3 } := by
  refine answers_done hr (op := 3) (req := req) (arg := arg) rfl ?_ nofun
  rw [if_neg (by rw [ha]; exact Bool.false_ne_true), if_neg]
  · rfl
  · intro k
    rw [Bool.and_eq_true, Bool.not_eq_true'] at k
    rcases hb with h | h
    · exact Bool.false_ne_true (k.1.symm.trans h)
    · exact Bool.false_ne_true (h.symm.trans k.2)

theorem resetBoundary_spec {c : BitVec 8} {s : State} (refs trim : Bool) (h : s.sys.resetAsked = some c) :
    (resetBoundary refs trim s).sys.cause = c ∧ (resetBoundary refs trim s).sys.resetAsked = none
      ∧ (resetBoundary refs trim s).red.own = 0 ∧ (resetBoundary refs trim s).red.gates = false := by
  have e : resetBoundary refs trim s = nodeReset c.toNat refs trim s := by
    unfold resetBoundary
    rw [h]
  obtain ⟨hr, -, -, -⟩ := nodeReset_spec c.toNat refs trim s
  rw [e]
  exact ⟨hr.cause.trans (by simp), hr.asked, hr.own, hr.gates⟩

/-- A core's TCM is cleared, its stack emptied. -/
def coreCleared (s : State) (c : Nat) : State :=
  { s with
    mem.tcm := s.mem.tcm.erase c
    icu.targets := s.icu.targets.upd {} c (fun t => { t with stack := [], sleep := false, window := none }) }

/-- What the reset of some cores leaves alone. -/
def CoresOnly (s t : State) : Prop := ∃ m i, t = { s with mem.tcm := m, icu.targets := i }

theorem coreCleared_same (s : State) (c : Nat) : (coreCleared s c).mem.tcm.get {} c = {}
    ∧ ((coreCleared s c).icu.targets.get {} c).stack = [] ∧ ((coreCleared s c).icu.targets.get {} c).sleep = false := by
  refine ⟨Tab.get_erase_same _ _ _, ?_, ?_⟩ <;>
    exact (congrArg _ (Tab.get_upd_same _ _ _ _) :)

theorem coreCleared_other {c k : Nat} (h : k ≠ c) (s : State) :
    (coreCleared s c).mem.tcm.get {} k = s.mem.tcm.get {} k
    ∧ (coreCleared s c).icu.targets.get {} k = s.icu.targets.get {} k :=
  ⟨Tab.get_erase_other _ _ h, Tab.get_upd_other _ _ _ h⟩

theorem coresCleared_spec (l : List Nat) (s : State) : CoresOnly s (l.foldl coreCleared s)
    ∧ (∀ c, c ∉ l → (l.foldl coreCleared s).mem.tcm.get {} c = s.mem.tcm.get {} c
        ∧ (l.foldl coreCleared s).icu.targets.get {} c = s.icu.targets.get {} c)
    ∧ (∀ c ∈ l, (l.foldl coreCleared s).mem.tcm.get {} c = {} ∧ ((l.foldl coreCleared s).icu.targets.get {} c).stack = []
        ∧ ((l.foldl coreCleared s).icu.targets.get {} c).sleep = false) := by
  induction l generalizing s with
  | nil => exact ⟨⟨_, _, rfl⟩, fun _ _ => ⟨rfl, rfl⟩, nofun⟩
  | cons x l ih =>
    obtain ⟨⟨m, i, h1⟩, h2, h3⟩ := ih (coreCleared s x)
    rw [List.foldl_cons]
    refine ⟨⟨m, i, h1⟩, fun c hc => ?_, fun c hc => ?_⟩
    · obtain ⟨hx, hl⟩ := not_or.1 (mt List.mem_cons.2 hc)
      obtain ⟨g1, g2⟩ := coreCleared_other hx s
      obtain ⟨k1, k2⟩ := h2 c hl
      exact ⟨k1.trans g1, k2.trans g2⟩
    · by_cases hl : c ∈ l
      · exact h3 c hl
      · obtain rfl := (List.mem_cons.1 hc).resolve_right hl
        obtain ⟨k1, k2⟩ := h2 c hl
        rw [k1, k2]
        exact coreCleared_same s c

theorem argOutside_low {k : Nat} {arg : BitVec 24} (h : argOutside arg (2 ^ k - 1) = false) : arg.toNat < 2 ^ k := by
  have e : arg &&& ~~~ (BitVec.ofNat 24 (2 ^ k - 1)) = 0 := by simpa [argOutside] using h
  refine Nat.lt_pow_two_of_testBit _ fun i hi => ?_
  have hb := congrArg (fun w => BitVec.getLsbD w i) e
  rw [BitVec.getLsbD_and, BitVec.getLsbD_not, BitVec.getLsbD_ofNat, Nat.testBit_two_pow_sub_one,
    decide_eq_false (Nat.not_lt.2 hi), Bool.and_false, Bool.not_false, Bool.and_true] at hb
  by_cases h24 : i < 24
  · rw [decide_eq_true h24, Bool.and_true] at hb
    exact hb.trans (by simp)
  · exact Nat.testBit_lt_two_pow (Nat.lt_of_lt_of_le arg.isLt (Nat.pow_le_pow_right (by decide) (by omega)))

/-- The node with the named cores reset, and the event. -/
def coresReset (arg : BitVec 24) (s : State) : State :=
  sysEvent 3 (fld arg 0 4) ((below 4 (bitAt arg)).foldl coreCleared s)

theorem coresReset_spec (arg : BitVec 24) (s : State) :
    (coresReset arg s).hdrs = s.hdrs ∧ Raised s (coresReset arg s) 2 3 0 (fld arg 0 4 * 65536)
    ∧ (∀ c, c < 4 → bitAt arg c = true → (coresReset arg s).mem.tcm.get {} c = {}
        ∧ ((coresReset arg s).icu.targets.get {} c).stack = [] ∧ ((coresReset arg s).icu.targets.get {} c).sleep = false)
    ∧ (∀ c, (4 ≤ c ∨ bitAt arg c = false) → (coresReset arg s).mem.tcm.get {} c = s.mem.tcm.get {} c
        ∧ (coresReset arg s).icu.targets.get {} c = s.icu.targets.get {} c)
    ∧ ∃ m i e f, coresReset arg s = { s with mem.tcm := m, icu.targets := i, evq := e, free := f } := by
  have hmem : ∀ c, c ∈ below 4 (bitAt arg) ↔ c < 4 ∧ bitAt arg c = true := fun c => by simp [below]
  obtain ⟨⟨m, i, h1⟩, h2, h3⟩ := coresCleared_spec (below 4 (bitAt arg)) s
  unfold coresReset
  generalize (below 4 (bitAt arg)).foldl coreCleared s = u at h1 h2 h3
  have hr : Raised s (sysEvent 3 (fld arg 0 4) u) 2 3 0 (fld arg 0 4 * 65536) :=
    blockEv_raised_from 0 3 (fld arg 0 4 * 65536) (by rw [h1]; rfl) (by rw [h1]) (by rw [h1])
  obtain ⟨e, f, he⟩ := sysEvent_evq 3 (fld arg 0 4) u
  refine ⟨?_, hr, fun c hc hb => ?_, fun c hc => ?_, ?_⟩
  · rw [he, h1]
  · rw [he]
    exact h3 c ((hmem c).2 ⟨hc, hb⟩)
  · rw [he]
    refine h2 c (mt (hmem c).1 ?_)
    rintro ⟨k1, k2⟩
    rcases hc with k | k
    · omega
    · exact Bool.false_ne_true (k.symm.trans k2)
  · rw [he, h1]
    exact ⟨_, _, _, _, rfl⟩

theorem coreReset_spec {req : Requester} {arg : BitVec 24} {s : State} (hr : PageReady s 0) (ha : argOutside arg 0xF = false)
    (h0 : arg ≠ 0) :
    ∃ t, exec (.coreReset req arg) s = .next t ∧ hdr t 0 = hdrDone .ok arg.toNat (hdr s 0)
      ∧ (∀ p, p ≠ 0 → hdr t p = hdr s p)
      ∧ (∀ c, c < 4 → bitAt arg c = true → t.mem.tcm.get {} c = {} ∧ (t.icu.targets.get {} c).stack = []
          ∧ (t.icu.targets.get {} c).sleep = false)
      ∧ (∀ c, (4 ≤ c ∨ bitAt arg c = false) → t.mem.tcm.get {} c = s.mem.tcm.get {} c
          ∧ t.icu.targets.get {} c = s.icu.targets.get {} c)
      ∧ Raised s t 2 3 0 (arg.toNat * 65536)
      ∧ t = { s with mem.tcm := t.mem.tcm, icu.targets := t.icu.targets, hdrs := t.hdrs, evq := t.evq, free := t.free } := by
  have hm : fld arg 0 4 = arg.toNat := fld_low (argOutside_low (k := 4) ha)
  have hm0 : arg.toNat ≠ 0 := fun k => h0 (BitVec.eq_of_toNat_eq k)
  obtain ⟨hh, hev, hnamed, hrest, m, i, e, f, hframe⟩ := coresReset_spec arg (takeCmd 0 req 4 arg s)
  have hbody : exec (.coreReset req arg) s = .next (issueCmd 0 req 4 arg (fun s =>
      if argOutside arg 0xF || fld arg 0 4 = 0 then .done .badArg 0 s
      else .done .ok (fld arg 0 4) (coresReset arg s)) s) := rfl
  have hc : ¬ ((argOutside arg 0xF || decide (fld arg 0 4 = 0)) = true) := by
    rw [ha, hm, Bool.false_or, decide_eq_true_eq]
    exact hm0
  obtain ⟨hrun, hpage⟩ := issueCmd_done (r := fld arg 0 4) (st := .ok) (u := coresReset arg (takeCmd 0 req 4 arg s)) hr
    (body := fun s => if argOutside arg 0xF || fld arg 0 4 = 0 then .done .badArg 0 s
      else .done .ok (fld arg 0 4) (coresReset arg s)) (if_neg hc) hh (by decide)
  rw [hrun] at hbody
  have hoth : ∀ p, p ≠ 0 → hdr (takeCmd 0 req 4 arg s) p = hdr s p := fun p hp => hdr_takeCmd_other 0 req 4 arg s hp
  have htake : takeCmd 0 req 4 arg s = { s with hdrs := (takeCmd 0 req 4 arg s).hdrs } := rfl
  have hev' : Raised s (coresReset arg (takeCmd 0 req 4 arg s)) 2 3 0 (fld arg 0 4 * 65536) := hev
  have hrest' : ∀ c, (4 ≤ c ∨ bitAt arg c = false) →
      (coresReset arg (takeCmd 0 req 4 arg s)).mem.tcm.get {} c = s.mem.tcm.get {} c
        ∧ (coresReset arg (takeCmd 0 req 4 arg s)).icu.targets.get {} c = s.icu.targets.get {} c := hrest
  generalize coresReset arg (takeCmd 0 req 4 arg s) = u at hh hev' hnamed hrest' hframe hbody hpage
  rw [hm] at hbody hpage hev'
  refine ⟨_, hbody, hpage, fun p hp => ?_, hnamed, hrest', hev', ?_⟩
  · rw [updHdr_other _ _ _ hp, ← hoth p hp]
    unfold hdr
    rw [hh]
  · rw [hframe, htake]
    rfl

/-- Settles O59, an instruction at a time: the supplies and the loss sequence by what each notes and sheds, the switch of
domains by the cases of the commands' one body, the resets by what a node reset leaves. -/
theorem supplyAndDomains : Obligations.SupplyAndDomains := by
  refine ⟨vsUvSet_spec, fun vs s => ⟨supplyLoss_idle, supplyLoss_spec⟩, shedPd7Off_spec, vsUvClear_spec, supplyReturn_spec,
    fun n mv s => ⟨vfFaultSet_spec n mv s, vfFaultClear_spec n mv s⟩,
    fun s => ⟨(vfNone_idle s).1, (vfNone_idle s).2, vfNoneSet_spec, vfNoneClear_spec⟩, holdupMeasure_spec,
    holdupExhausted_spec, fun req arg s hr => ⟨domainCmds_badArg hr, fun ha h0 h2 => ?_⟩,
    fun trim s => ⟨fun h => ?_, fun d on hd hs => domainSwitchDone_spec hd hs⟩, fun req arg s => reset_answers,
    fun refs trim c s => resetBoundary_spec refs trim, fun req arg s => coreReset_spec⟩
  · have hs : Switchable arg := ⟨ha, h0, h2⟩
    exact ⟨fun h => answers_done hr (exec_domainOff req arg s) (domainBody_same hs h) nofun,
      fun h => answers_done hr (exec_domainOn req arg s) (domainBody_same hs h) nofun, domainOff_tiles hr hs,
      domainOff_islands hr hs, domainOff_panel hr hs, domainOff_state hr hs, domainOn_held hr hs⟩
  · change execDomainSwitchDone trim s = _
    unfold execDomainSwitchDone
    rw [h]

end Sys2Proof.Machine
end


section
/-! Stores to the memories, dropped writes, domains that are off, and plain registers (R16, R17, R22, R26, R440, R441, R443,
R446). -/

namespace Sys2Proof.Machine

/-! Stores to the core address map (R16). -/

theorem store_ram {req : Requester} {a n : Nat} {v : Word} {s : State} (hd : domUp s 2 = true) (hr : inRam a n = true)
    (hw : s.mem.main.wf 0 = true) :
    ∃ t, busWrite req a n v s = t ∧ leNat (ramRead t a n) = v.toNat % 256 ^ n
      ∧ (∀ k, k < a ∨ a + n ≤ k → t.mem.main.read 0 k = s.mem.main.read 0 k) ∧ t = { s with mem.main := t.mem.main } := by
  refine ⟨_, busWrite_ram hr hd, ?_, fun k hk => ?_, rfl⟩
  · have h := Mem.leNat_writeN hw a n v.toNat []
    rwa [List.append_nil] at h
  · exact Mem.read_writeN_other _ (by rwa [leBytes_length])

theorem busWrite_tcm {req : Requester} {a n : Nat} {v : Word} {s : State} (hd : domUp s 2 = true) (h1 : 0x10000000 ≤ a)
    (h2 : a + n ≤ 0x10010000) : busWrite req a n v s = match coreOf req with
      | some c => { s with mem.tcm := s.mem.tcm.upd {} c (fun m => Mem.writeN 0 m (a - 0x10000000) (leBytes n v.toNat)) }
      | none => s := by
  refine (if_neg (by omega)).trans ((if_pos hd).trans ((if_pos ?_).trans rfl))
  rw [leBytes_length]
  exact ⟨h1, h2⟩

theorem store_tcm {req : Requester} {a n c : Nat} {v : Word} {s : State} (hd : domUp s 2 = true) (hc : coreOf req = some c)
    (h1 : 0x10000000 ≤ a) (h2 : a + n ≤ 0x10010000) (hw : (s.mem.tcm.get {} c).wf 0 = true) :
    ∃ t, busWrite req a n v s = t
      ∧ leNat (Mem.readN 0 (t.mem.tcm.get {} c) (a - 0x10000000) n) = v.toNat % 256 ^ n
      ∧ (∀ k, k ≠ c → t.mem.tcm.get {} k = s.mem.tcm.get {} k) ∧ t = { s with mem.tcm := t.mem.tcm } := by
  rw [busWrite_tcm hd h1 h2, hc]
  refine ⟨_, rfl, ?_, fun k hk => Tab.get_upd_other _ _ _ hk, rfl⟩
  have h := Mem.leNat_writeN hw (a - 0x10000000) n v.toNat []
  rw [List.append_nil] at h
  dsimp only
  rw [Tab.get_upd_same]
  exact h

/-! Writes that are dropped (R17, R26, R446). -/

theorem setBit_of_bitAt {n : Nat} {w : BitVec n} {i : Nat} (h : bitAt w i = true) : setBit w i true = w := by
  refine BitVec.eq_of_getLsbD_eq fun j hj => ?_
  by_cases hji : j = i
  · subst hji
    exact (bitAt_setBit_same w hj true).trans h.symm
  · exact bitAt_setBit_other w hji true

theorem offAccess_spec (d : Nat) (s : State) :
    hdr (offAccess d s) 0 = (if bitAt s.sys.offSeen d then id else hdrSticky 8) (hdr s 0)
    ∧ (∀ q, q ≠ 0 → hdr (offAccess d s) q = hdr s q)
    ∧ (offAccess d s).sys.offSeen = setBit s.sys.offSeen d true
    ∧ ∃ h, offAccess d s = { s with sys.offSeen := setBit s.sys.offSeen d true, hdrs := h } := by
  cases h : bitAt s.sys.offSeen d with
  | true =>
    have e : offAccess d s = s := if_pos h
    rw [e, setBit_of_bitAt h]
    exact ⟨rfl, fun _ _ => rfl, rfl, _, rfl⟩
  | false =>
    have e : offAccess d s = setSticky 0 8 { s with sys.offSeen := setBit s.sys.offSeen d true } :=
      if_neg fun k => Bool.false_ne_true (h.symm.trans k)
    rw [e]
    exact ⟨hdr_setSticky_same 0 8 _, fun q hq => hdr_setSticky_other 0 8 _ hq, rfl, _, rfl⟩

/-- A write that a domain which is off answers by noting the access alone. -/
theorem answers_offAccess {c : Instr} {d : Nat} {s : State} (he : exec c s = .next (offAccess d s)) :
    Answers c s 0 (if bitAt s.sys.offSeen d then id else hdrSticky 8)
      { s with sys.offSeen := setBit s.sys.offSeen d true } := by
  obtain ⟨h1, h2, -, x, h3⟩ := offAccess_spec d s
  refine ⟨_, he, h1, h2, ?_⟩
  rw [h3]

/-- The domain of an address of the pages or windows. -/
def addrDom (s : State) (a : Nat) : Option Nat :=
  if a < 0x50000000 then pageDom s ((a - 0x40000000) / 0x1000) else windowDom s a

theorem busWrite_dropped {req : Requester} {a n : Nat} {v : Word} {s : State} (h1 : 0x40000000 ≤ a) (h2 : a < 0x54000000)
    (h3 : n ≠ 4 ∨ a % 4 ≠ 0) : busWrite req a n v s = droppedWrite a s :=
  (if_pos ⟨h1, h2⟩).trans (if_neg (by omega))

theorem droppedWrite_absent {a : Nat} {s : State} (h : addrDom s a = none) : droppedWrite a s = s := by
  unfold addrDom at h
  unfold droppedWrite
  rw [h]

theorem droppedWrite_off {a d : Nat} {s : State} (h : addrDom s a = some d) (hd : domTakes s d = false) :
    droppedWrite a s = offAccess d s := by
  unfold addrDom at h
  unfold droppedWrite
  rw [h]
  exact if_neg fun k => Bool.false_ne_true (hd.symm.trans k)

theorem droppedWrite_takes {a d : Nat} {s : State} (h : addrDom s a = some d) (hd : domTakes s d = true) :
    droppedWrite a s = if 0x50000000 ≤ a ∧ a < 0x51000000 then windowWrite s else s := by
  unfold addrDom at h
  unfold droppedWrite
  rw [h]
  exact if_pos hd

theorem domUp_of_takes {s : State} {d : Nat} (h : domTakes s d = true) : domUp s d = true := by
  unfold domTakes at h
  exact (Bool.and_eq_true _ _ ▸ h).1

/-- The square window is domain 3's: a write to it sets its sticky bit. -/
theorem droppedWrite_window {a d : Nat} {s : State} (h : addrDom s a = some d) (hd : domTakes s d = true)
    (h1 : 0x50000000 ≤ a) (h2 : a < 0x51000000) : droppedWrite a s = setSticky 0x12 8 s := by
  have hdom : addrDom s a = some 3 := (if_neg (by omega)).trans (if_pos (by omega))
  obtain rfl : 3 = d := Option.some.inj (hdom.symm.trans h)
  rw [droppedWrite_takes h hd, if_pos ⟨h1, h2⟩]
  exact if_pos (domUp_of_takes hd)

theorem narrowWrite_spec (req : Requester) (addr : Word) (size : Fin 3) (v : Word) (s : State) (h1 : 0x40000000 ≤ addr.toNat)
    (h2 : addr.toNat < 0x54000000) (h3 : size.val ≠ 2 ∨ addr.toNat % 4 ≠ 0) :
    (addrDom s addr.toNat = none → exec (.registerWrite req addr size v) s = .next s)
    ∧ (∀ d, addrDom s addr.toNat = some d → domTakes s d = true → addr.toNat < 0x50000000 ∨ 0x51000000 ≤ addr.toNat →
        exec (.registerWrite req addr size v) s = .next s)
    ∧ (∀ d, addrDom s addr.toNat = some d → domTakes s d = true → 0x50000000 ≤ addr.toNat → addr.toNat < 0x51000000 →
        Answers (.registerWrite req addr size v) s 0x12 (hdrSticky 8) s)
    ∧ (∀ d, addrDom s addr.toNat = some d → domTakes s d = false →
        Answers (.registerWrite req addr size v) s 0 (if bitAt s.sys.offSeen d then id else hdrSticky 8)
          { s with sys.offSeen := setBit s.sys.offSeen d true }) := by
  have hsize : 2 ^ size.val ≠ 4 ∨ addr.toNat % 4 ≠ 0 := h3.imp_left fun h k =>
    h (Nat.pow_right_injective (le_refl 2) (k : 2 ^ size.val = 2 ^ 2))
  have hrun : exec (.registerWrite req addr size v) s = .next (droppedWrite addr.toNat s) :=
    congrArg Host.Outcome.next (busWrite_dropped h1 h2 hsize)
  generalize addr.toNat = a at *
  refine ⟨fun h => ?_, fun d h hd ha => ?_, fun d h hd ha hb => ?_, fun d h hd => ?_⟩
  · rw [hrun, droppedWrite_absent h]
  · rw [hrun, droppedWrite_takes h hd, if_neg (by omega)]
  · rw [droppedWrite_window h hd ha hb] at hrun
    exact ⟨_, hrun, hdr_setSticky_same 0x12 8 s, fun q hq => hdr_setSticky_other 0x12 8 s hq, rfl⟩
  · rw [droppedWrite_off h hd] at hrun
    exact answers_offAccess hrun

/-! Registers of the pages (R440, R441, R443). -/

/-- An aligned write of 32 bits to offset `off` of page `p`. -/
def regStore (req : Requester) (p off : Nat) (v : Word) : Instr :=
  .registerWrite req (BitVec.ofNat 32 (0x40000000 + p * 0x1000 + off)) 2 v

theorem exec_regStore {p off : Nat} (hp : p < 0x10000) (ho : off < 0x1000) (ha : off % 4 = 0) (req : Requester) (v : Word)
    (s : State) : exec (regStore req p off v) s = .next (pageAccess req p off v s) := by
  have haddr : (BitVec.ofNat 32 (0x40000000 + p * 0x1000 + off)).toNat = 0x40000000 + p * 0x1000 + off :=
    Nat.mod_eq_of_lt (by omega)
  have hpage : (0x40000000 + p * 0x1000 + off - 0x40000000) / 0x1000 = p := by omega
  have hoff : (0x40000000 + p * 0x1000 + off) % 0x1000 = off := by omega
  change Host.Outcome.next (busWrite req (BitVec.ofNat 32 (0x40000000 + p * 0x1000 + off)).toNat 4 v s) = _
  rw [haddr]
  unfold busWrite
  rw [if_pos (by omega), if_pos (by omega), if_pos (by omega), hpage, hoff]

theorem pageAccess_absent {req : Requester} {p off : Nat} {v : Word} {s : State} (h : pageDom s p = none) :
    pageAccess req p off v s = s := by
  unfold pageAccess
  rw [h]

theorem pageAccess_off {req : Requester} {p off d : Nat} {v : Word} {s : State} (h : pageDom s p = some d)
    (hd : domTakes s d = false) : pageAccess req p off v s = offAccess d s := by
  unfold pageAccess
  rw [h]
  exact if_neg fun k => Bool.false_ne_true (hd.symm.trans k)

theorem pageAccess_takes {req : Requester} {p off : Nat} {v : Word} {s : State} (h : PageTakes s p)
    (ho : safetyOwned p off = false) :
    pageAccess req p off v s = if off < 0x40 then hdrWrite req p off v s else regWrite req p off v s := by
  obtain ⟨d, hd, ht⟩ := h
  unfold pageAccess
  rw [hd]
  dsimp only
  rw [if_pos ht, if_neg (by rw [ho]; exact Bool.false_ne_true)]

theorem safetyOwned_low {p off : Nat} (h : off < 0x100) : safetyOwned p off = false := by
  unfold safetyOwned
  rw [decide_eq_false (by omega : ¬ 0x100 ≤ off), Bool.and_false, Bool.false_and]

theorem exec_hdrStore {req : Requester} {p off : Nat} {v : Word} {s : State} (hp : p < 0x10000) (ho : off < 0x40)
    (ha : off % 4 = 0) (h : PageTakes s p) : exec (regStore req p off v) s = .next (hdrWrite req p off v s) := by
  rw [exec_regStore hp (by omega) ha, pageAccess_takes h (safetyOwned_low (by omega)), if_pos ho]

/-- A page's header that a write sets. -/
theorem answers_hdrWrite {c : Instr} {s : State} {p : Nat} {f g : PageHdr → PageHdr} (ht : PageTakes s p)
    (he : exec c s = .next (setField p (updHdr p f) s)) (hg : hdrCount (f (hdr s p)) = g (hdr s p)) : Answers c s p g s := by
  have hw : setField p (updHdr p f) s = countWrite p (updHdr p f s) := pageWrite_takes ht _
  rw [hw] at he
  refine ⟨_, he, ?_, fun q hq => ?_, rfl⟩
  · rw [hdr_countWrite_same, updHdr_same, hg]
  · rw [hdr_countWrite_other _ _ hq, updHdr_other _ _ _ hq]

/-- A level does not rise when sticky bits are cleared. -/
theorem hdrEdge_cleared (h : PageHdr) (v : Word) : hdrEdge h { h with sticky := w1c h.sticky v }
    = { h with sticky := h.sticky &&& ~~~v } := by
  have hlevel : (!hdrLevel h && hdrLevel { h with sticky := w1c h.sticky v }) = false := by
    cases hl : hdrLevel h with
    | true => rfl
    | false =>
      have h0 : h.sticky &&& h.irqen = 0 := by simpa [hdrLevel] using hl
      have e : (h.sticky &&& ~~~v) &&& h.irqen = 0 := by
        rw [BitVec.and_assoc, BitVec.and_comm (~~~v), ← BitVec.and_assoc, h0]
        exact BitVec.zero_and
      simp [hdrLevel, w1c, e]
  unfold hdrEdge
  rw [hlevel, if_neg Bool.false_ne_true]
  rfl

theorem hdrWrite_readOnly {req : Requester} {p off : Nat} {v : Word} {s : State} (h : off ∈ [0x00, 0x04, 0x0C, 0x1C, 0x20]) :
    hdrWrite req p off v s = s := by
  simp only [List.mem_cons, List.not_mem_nil, or_false] at h
  rcases h with rfl | rfl | rfl | rfl | rfl <;> rfl

theorem pageStore_spec (req : Requester) (p off : Nat) (v : Word) (s : State) (hp : p < 0x10000) (ho : off < 0x1000)
    (ha : off % 4 = 0) :
    (pageDom s p = none → exec (regStore req p off v) s = .next s)
    ∧ (∀ d, pageDom s p = some d → domTakes s d = false →
      ∃ t, exec (regStore req p off v) s = .next t ∧ t.sys.offSeen = setBit s.sys.offSeen d true
        ∧ hdr t 0 = (if bitAt s.sys.offSeen d then hdr s 0 else hdrSticky 8 (hdr s 0))
        ∧ (∀ q, q ≠ 0 → hdr t q = hdr s q) ∧ t = { s with sys.offSeen := t.sys.offSeen, hdrs := t.hdrs })
    ∧ (PageTakes s p → off = 0x10 →
      Answers (regStore req p off v) s p (fun h => { h with sticky := h.sticky &&& ~~~v, sync := h.sync + 1 }) s)
    ∧ (PageTakes s p → off = 0x14 →
      Answers (regStore req p off v) s p (fun h => { hdrEdge h { h with irqen := v } with sync := h.sync + 1 }) s)
    ∧ (PageTakes s p → off ∈ [0x00, 0x04, 0x0C, 0x1C, 0x20] → exec (regStore req p off v) s = .next s)
    ∧ (p = 0x10 → 0x40 ≤ off → PageTakes s p → exec (regStore req p off v) s = .next s) := by
  have hrun := exec_regStore hp ho ha req v s
  refine ⟨fun h => ?_, fun d h hd => ?_, fun ht h => ?_, fun ht h => ?_, fun ht h => ?_, fun h10 h40 ht => ?_⟩
  · rw [hrun, pageAccess_absent h]
  · obtain ⟨h1, h2, h3, x, h4⟩ := offAccess_spec d s
    rw [pageAccess_off h hd] at hrun
    refine ⟨_, hrun, h3, h1.trans (by split <;> rfl), h2, ?_⟩
    rw [h4]
  · subst h
    exact answers_hdrWrite ht (exec_hdrStore hp (by decide) ha ht)
      (congrArg hdrCount (hdrEdge_cleared (hdr s p) v))
  · subst h
    exact answers_hdrWrite ht (exec_hdrStore hp (by decide) ha ht) rfl
  · have hlow : off < 0x40 := by
      simp only [List.mem_cons, List.not_mem_nil, or_false] at h
      omega
    rw [exec_hdrStore hp hlow ha ht, hdrWrite_readOnly h]
  · subst h10
    rw [hrun, pageAccess_takes ht rfl, if_neg (by omega)]
    rfl

/-- A page's own register, written by anyone where it is not the safety partition's. -/
theorem exec_regWrite {req : Requester} {p off : Nat} {v : Word} {s : State} (hp : p < 0x10000) (ho : off < 0x1000)
    (ha : off % 4 = 0) (h40 : 0x40 ≤ off) (h : PageTakes s p) (hs : safetyOwned p off = false) :
    exec (regStore req p off v) s = .next (regWrite req p off v s) := by
  rw [exec_regStore hp ho ha, pageAccess_takes h hs, if_neg (by omega)]

/-- The requester's own selection of a point and a group. -/
def alarmSelected (req : Requester) (v : Word) (s : State) : State :=
  { s with
    alarm.selPoint := s.alarm.selPoint.set req.reader (fld v 0 11)
    alarm.selGroup := s.alarm.selGroup.set req.reader (fld v 16 8) }

theorem regWrite_alarmSel (req : Requester) (v : Word) (s : State) :
    regWrite req 0x13 0x4C v s = pageWrite 0x13 (alarmSelected req v) s := rfl

theorem alarmSel_written {req : Requester} {v : Word} {s : State} (ht : PageTakes s 0x13) :
    ∃ t, exec (.registerWrite req 0x4001304C 2 v) s = .next t
      ∧ t.alarm.selPoint.get 0 req.reader = fld v 0 11 ∧ t.alarm.selGroup.get 0 req.reader = fld v 16 8
      ∧ (∀ k, k ≠ req.reader → t.alarm.selPoint.get 0 k = s.alarm.selPoint.get 0 k
          ∧ t.alarm.selGroup.get 0 k = s.alarm.selGroup.get 0 k)
      ∧ hdr t 0x13 = hdrCount (hdr s 0x13) ∧ (∀ q, q ≠ 0x13 → hdr t q = hdr s q)
      ∧ t = { s with alarm.selPoint := t.alarm.selPoint, alarm.selGroup := t.alarm.selGroup, hdrs := t.hdrs } := by
  have hrun := exec_regWrite (req := req) (off := 0x4C) (v := v) (by decide) (by decide) (by decide) (by decide) ht rfl
  rw [regWrite_alarmSel, pageWrite_takes ht] at hrun
  exact ⟨_, hrun, Tab.get_set_same _ _ _ _, Tab.get_set_same _ _ _ _,
    fun k hk => ⟨Tab.get_set_other _ _ _ hk, Tab.get_set_other _ _ _ hk⟩, hdr_countWrite_same 0x13 _,
    fun q hq => hdr_countWrite_other 0x13 _ hq, rfl⟩

theorem regWrite_planSource (req : Requester) (v : Word) (s : State) :
    regWrite req 0x11 0x58 v s = pageWrite 0x11 (fun s => { s with plan.src := v }) s
    ∧ regWrite req 0x11 0x5C v s = pageWrite 0x11 (fun s => { s with plan.len := v &&& 0x01FFFFFF }) s := ⟨rfl, rfl⟩

theorem planSource_written {req : Requester} {v : Word} {s : State} (ht : PageTakes s 0x11) :
    Answers (.registerWrite req 0x40011058 2 v) s 0x11 hdrCount { s with plan.src := v }
    ∧ Answers (.registerWrite req 0x4001105C 2 v) s 0x11 hdrCount { s with plan.len := v &&& 0x01FFFFFF } := by
  have h1 := exec_regWrite (req := req) (off := 0x58) (v := v) (by decide) (by decide) (by decide) (by decide) ht rfl
  have h2 := exec_regWrite (req := req) (off := 0x5C) (v := v) (by decide) (by decide) (by decide) (by decide) ht rfl
  rw [(regWrite_planSource req v s).1] at h1
  rw [(regWrite_planSource req v s).2] at h2
  exact ⟨answers_write (c := .registerWrite req 0x40011058 2 v) ht h1 rfl,
    answers_write (c := .registerWrite req 0x4001105C 2 v) ht h2 rfl⟩

/-- Settles O60: a write goes to a memory, is dropped, finds its domain off, or reaches a register, by its address. -/
theorem registersAndMemory : Obligations.RegistersAndMemory := by
  refine ⟨fun req addr size v s hd => ⟨fun hr hw => ?_, fun c hc h1 h2 hw => ?_, fun hc h1 h2 => ?_⟩, narrowWrite_spec,
    pageStore_spec, fun req v s => alarmSel_written, fun req v s => planSource_written⟩
  · obtain ⟨t, h, k⟩ := store_ram (req := req) (v := v) hd hr hw
    exact ⟨t, congrArg Host.Outcome.next h, k⟩
  · obtain ⟨t, h, k⟩ := store_tcm (v := v) hd hc h1 h2 hw
    exact ⟨t, congrArg Host.Outcome.next h, k⟩
  · refine congrArg Host.Outcome.next ((busWrite_tcm hd h1 h2).trans ?_)
    rw [hc]

end Sys2Proof.Machine
end


section
/-! A boundary in service: the course that ends, the one that begins, and the commands of its outputs (R30, R31, R32, R74,
R76). -/

namespace Sys2Proof.Machine

/-! The course that ends. -/

/-- What the end of a course leaves: plan, loader, supplies' and pair's states. -/
structure Ending (s t : State) : Prop where
  plan : t.plan = s.plan
  loader : t.loader = s.loader
  sys : t.sys = s.sys
  state : t.red.state = s.red.state

theorem Ending.trans {s t u : State} (h : Ending s t) (k : Ending t u) : Ending s u :=
  ⟨k.plan.trans h.plan, k.loader.trans h.loader, k.sys.trans h.sys, k.state.trans h.state⟩

/-- CN, WI, the run of the course, and its outputs' commands. -/
def CourseBlk.outputs (c : CourseBlk) : (Word × Nat × Bool) × (Word × Tab (Word × Bool)) × Word × Tab (Word × Bool) :=
  ((c.cn, c.wi, c.run), (c.dioLatch, c.ucLatch), c.dioHeld, c.ucHeld)

/-- The course is faulted by cycle 49,600 if an engine has not ended, and no more is changed. -/
theorem courseOverrun_spec {s : State} (hd : domUp s 3 = true) :
    Ending s (courseOverrun s) ∧ (courseOverrun s).square = s.square
    ∧ (courseOverrun s).course.outputs = s.course.outputs
    ∧ (courseOverrun s).course.faulted = (s.course.faulted || s.course.run && notEnded s) := by
  have hruns : courseRuns s = (s.course.run && !s.course.faulted) := by
    unfold courseRuns
    rw [hd, Bool.true_and]
  by_cases hc : (courseRuns s && notEnded s) = true
  · have e : courseOverrun s = faultCourse (if s.course.e1.ended then 0 else 1) 1 s := if_pos hc
    obtain ⟨_, _, _, h, -, -⟩ := faultCourse_frame (if s.course.e1.ended then 0 else 1) 1 s
    obtain ⟨_, _, ht⟩ := faultTold_evq (if s.course.e1.ended then 0 else 1) 1 s
    rw [hruns] at hc
    simp only [Bool.and_eq_true, Bool.not_eq_true'] at hc
    obtain ⟨⟨hr, hf⟩, hn⟩ := hc
    rw [e, h, ht, hr, hf, hn]
    exact ⟨⟨rfl, rfl, rfl, rfl⟩, rfl, rfl, rfl⟩
  · have e : courseOverrun s = s := if_neg hc
    rw [hruns] at hc
    rw [e]
    refine ⟨⟨rfl, rfl, rfl, rfl⟩, rfl, rfl, ?_⟩
    cases hf : s.course.faulted with
    | true => rfl
    | false =>
      rw [hf, Bool.not_false, Bool.and_true] at hc
      exact (Bool.eq_false_of_not_eq_true hc).symm

theorem publish_frame (q : Square) (s : State) : ∃ x l f, publish q s = { s with square := x, log := l, free := f } := by
  have hs : ∃ x f, (if s.square.writing.isSome then s else takeBuffer s) = { s with square := x, free := f } := by
    split
    · exact ⟨_, _, rfl⟩
    · exact ⟨_, _, rfl⟩
  obtain ⟨x, f, h⟩ := hs
  unfold publish
  rw [h]
  obtain ⟨l, hl⟩ := trendGather_logOnly { q with header := q.header.set 25 x.prevCn }
    { s with
      free := f
      square := { x with
        bufs := x.bufs.set (x.writing.getD 0) { q with header := q.header.set 25 x.prevCn }
        newest := some (x.writing.getD 0), writing := none, count := x.count + 1
        pulses := pulseAll x.pulses, prevCn := q.cn, closed := none } }
  exact ⟨_, l, f, hl⟩

theorem squarePublish_frame (s : State) :
    ∃ x l f, squarePublish s = { s with square := x, log := l, free := f } := by
  have h1 : ∃ x l f, (match s.square.closed with
      | some q => if s.plan.state = .running then publish q s else { s with square.closed := none }
      | none => s) = { s with square := x, log := l, free := f } := by
    split
    · split
      · exact publish_frame _ s
      · exact ⟨_, _, _, rfl⟩
    · exact ⟨_, _, _, rfl⟩
  have e : squarePublish s = (fun u : State => if u.course.run && u.square.writing.isNone then takeBuffer u else u)
      (match s.square.closed with
        | some q => if s.plan.state = .running then publish q s else { s with square.closed := none }
        | none => s) := rfl
  obtain ⟨x, l, f, h⟩ := h1
  rw [e, h]
  dsimp only
  split
  · exact ⟨_, _, _, rfl⟩
  · exact ⟨_, _, _, rfl⟩

/-- The square before the one that is closed is published. -/
def published (s : State) : State := if s.square.closed.isSome then squarePublish s else s

theorem published_frame (s : State) : ∃ x l f, published s = { s with square := x, log := l, free := f } := by
  unfold published
  split
  · exact squarePublish_frame s
  · exact ⟨_, _, _, rfl⟩

/-- The square that the end of the course closes. -/
def closedSquare (s : State) : Option Square :=
  if s.plan.state ≠ .running then none
  else some (if s.red.state = .standby then mirrorSquare (closeSquare s) s else closeSquare s)

theorem closedSquare_cn {s : State} (hs : s.red.state ≠ .standby) :
    (s.plan.state = .running → (closedSquare s).map (·.cn) = some s.course.cn)
    ∧ (s.plan.state ≠ .running → closedSquare s = none) := by
  refine ⟨fun h => ?_, fun h => if_pos h⟩
  unfold closedSquare
  rw [if_neg (by simp [h]), if_neg hs]
  rfl

theorem endCourse_good {s : State} (hr : s.course.run = true) (hf : s.course.faulted = false) :
    endCourse s = { published s with
      square.closed := closedSquare (published s)
      course.dioHeld := (published s).course.dioLatch, course.ucHeld := (published s).course.ucLatch
      safe.faultRun := 0 } := by
  unfold endCourse
  rw [hr, if_neg (by decide), hf, if_neg (by decide)]
  rfl

theorem endCourse_faulted {s : State} (hr : s.course.run = true) (hf : s.course.faulted = true) :
    endCourse s = { s with
      course.dioLatch := s.course.dioHeld, course.ucLatch := s.course.ucHeld, square.writing := none
      square.work := s.square.kept } := by
  unfold endCourse
  rw [hr, if_neg (by decide), if_pos hf]

theorem endCourse_spec {s : State} (hs : s.red.state ≠ .standby) :
    Ending s (endCourse s) ∧ (endCourse s).course.cn = s.course.cn ∧ (endCourse s).course.wi = s.course.wi
    ∧ (endCourse s).course.run = s.course.run ∧ (endCourse s).course.faulted = s.course.faulted
    ∧ (s.course.run = true → s.course.faulted = false →
        (endCourse s).course.dioHeld = s.course.dioLatch ∧ (endCourse s).course.ucHeld = s.course.ucLatch
        ∧ (s.plan.state = .running → (endCourse s).square.closed.map (·.cn) = some s.course.cn)
        ∧ (s.plan.state ≠ .running → (endCourse s).square.closed = none))
    ∧ (s.course.run = true → s.course.faulted = true →
        (endCourse s).course.dioHeld = s.course.dioHeld ∧ (endCourse s).course.ucHeld = s.course.ucHeld) := by
  cases hr : s.course.run with
  | false =>
    have e : endCourse s = s := if_pos (by rw [hr]; rfl)
    rw [e]
    exact ⟨⟨rfl, rfl, rfl, rfl⟩, rfl, rfl, hr, rfl, nofun, nofun⟩
  | true =>
    cases hf : s.course.faulted with
    | true =>
      rw [endCourse_faulted hr hf]
      exact ⟨⟨rfl, rfl, rfl, rfl⟩, rfl, rfl, hr, hf, nofun, fun _ _ => ⟨rfl, rfl⟩⟩
    | false =>
      obtain ⟨x, l, f, hp⟩ := published_frame s
      have hc := closedSquare_cn (s := published s) (by rw [hp]; exact hs)
      have hplan : (published s).plan.state = s.plan.state ∧ (published s).course.cn = s.course.cn := by
        rw [hp]
        exact ⟨rfl, rfl⟩
      rw [hplan.1, hplan.2] at hc
      rw [endCourse_good hr hf]
      generalize closedSquare (published s) = q at hc
      rw [hp]
      exact ⟨⟨rfl, rfl, rfl, rfl⟩, rfl, rfl, hr, hf, fun _ _ => ⟨rfl, rfl, hc⟩, nofun⟩

theorem sendSync_frame (s : State) : ∃ x, sendSync s = { s with sync := x } := by
  unfold sendSync
  split
  · exact ⟨_, rfl⟩
  · split
    · exact ⟨_, rfl⟩
    · exact ⟨_, rfl⟩

/-- The course that ends, its square closed and its sync sent. -/
def courseEnded (s : State) : State := sendSync (syncMissed (endCourse (courseOverrun (safeTick s))))

theorem courseEnded_spec {s : State} (hd : domUp s 3 = true) (hs : s.red.state ≠ .standby) :
    let t := courseEnded s
    Ending s t ∧ t.course.cn = s.course.cn ∧ t.course.wi = s.course.wi ∧ t.course.run = s.course.run
    ∧ t.course.faulted = (s.course.faulted || s.course.run && notEnded s)
    ∧ (s.course.run = true → t.course.faulted = false →
        t.course.dioHeld = s.course.dioLatch ∧ t.course.ucHeld = s.course.ucLatch
        ∧ (s.plan.state = .running → t.square.closed.map (·.cn) = some s.course.cn)
        ∧ (s.plan.state ≠ .running → t.square.closed = none))
    ∧ (s.course.run = true → t.course.faulted = true →
        t.course.dioHeld = s.course.dioHeld ∧ t.course.ucHeld = s.course.ucHeld) := by
  intro t
  have ht : t = sendSync (syncMissed (endCourse (courseOverrun (safeTick s)))) := rfl
  obtain ⟨hE, -, hout, hfault⟩ := courseOverrun_spec (s := safeTick s) hd
  have hE' : Ending s (courseOverrun (safeTick s)) := ⟨hE.plan, hE.loader, hE.sys, hE.state⟩
  have hout' : (courseOverrun (safeTick s)).course.outputs = s.course.outputs := hout
  have hfault' : (courseOverrun (safeTick s)).course.faulted = (s.course.faulted || s.course.run && notEnded s) := hfault
  generalize courseOverrun (safeTick s) = u at ht hE' hout' hfault'
  obtain ⟨hE2, hcn, hwi, hrun, hflt, hgood, hbad⟩ := endCourse_spec (s := u) (by rw [hE'.state]; exact hs)
  generalize endCourse u = v at ht hE2 hcn hwi hrun hflt hgood hbad
  have hmiss : syncMissed v = v := by
    refine if_neg fun h => ?_
    rw [Bool.and_eq_true, decide_eq_true_eq] at h
    exact hs ((hE2.state.trans hE'.state).symm.trans h.1)
  obtain ⟨x, hx⟩ := sendSync_frame v
  rw [hmiss, hx] at ht
  clear_value t
  subst ht
  have hr : u.course.run = s.course.run := congrArg (fun c => c.1.2.2) hout'
  have hn : u.course.cn = s.course.cn := congrArg (fun c => c.1.1) hout'
  have hw : u.course.wi = s.course.wi := congrArg (fun c => c.1.2.1) hout'
  have hld : u.course.dioLatch = s.course.dioLatch := congrArg (fun c => c.2.1.1) hout'
  have hlu : u.course.ucLatch = s.course.ucLatch := congrArg (fun c => c.2.1.2) hout'
  have hhd : u.course.dioHeld = s.course.dioHeld := congrArg (fun c => c.2.2.1) hout'
  have hhu : u.course.ucHeld = s.course.ucHeld := congrArg (fun c => c.2.2.2) hout'
  rw [hr, hld, hlu, hn, hE'.plan] at hgood
  rw [hr, hhd, hhu] at hbad
  have hEnd := hE'.trans hE2
  exact ⟨⟨hEnd.plan, hEnd.loader, hEnd.sys, hEnd.state⟩, hcn.trans hn, hwi.trans hw, hrun.trans hr, hflt.trans hfault',
    fun h1 h2 => hgood h1 (hflt.symm.trans h2), fun h1 h2 => hbad h1 (hflt.symm.trans h2)⟩

/-! The course that begins. -/

/-- A unit that is not a standby, or has only just become one, has no sync to load. -/
def NoSync (s : State) : Prop := s.red.state ≠ .standby ∨ s.sync.newest = none

theorem loadSync_noSync {s : State} (h : NoSync s) : loadSync s = s := by
  unfold loadSync
  rcases h with h | h
  · split
    · exact if_pos (by simp [h])
    · rfl
  · rw [h]

/-- The pair's part of the boundary: an order to yield is carried out or dropped. -/
theorem yieldBoundary_begins {s : State} (hs : s.red.state ≠ .standby) :
    NoSync (yieldBoundary s) ∧ (yieldBoundary s).plan = s.plan ∧ (yieldBoundary s).loader = s.loader
    ∧ (yieldBoundary s).sys = s.sys ∧ (yieldBoundary s).course.walk = s.course.walk
    ∧ (yieldBoundary s).square.closed = s.square.closed := by
  unfold yieldBoundary
  split
  · next c _ =>
    split
    · obtain ⟨_, _, _, _, _, _, _, _, _, _, h1⟩ := endIfRunning_gateOnly 0x48 1 .ok 0 s
      obtain ⟨_, _, _, _, _, _, _, _, _, _, h2⟩ := yieldNow_gateOnly c (endIfRunning 0x48 1 .ok 0 s)
      rw [h2, h1]
      exact ⟨.inr rfl, rfl, rfl, rfl, rfl, rfl⟩
    · exact ⟨.inl hs, rfl, rfl, rfl, rfl, rfl⟩
  · exact ⟨.inl hs, rfl, rfl, rfl, rfl, rfl⟩

/-- With no plan to start or stop, the boundary's first steps leave the course and its square. -/
theorem plansSettled_begins {s : State} (hs : s.red.state ≠ .standby) (h1 : s.loader.starting = none)
    (h2 : s.loader.stopping = none) :
    NoSync (plansSettled s) ∧ (plansSettled s).plan = s.plan ∧ (plansSettled s).sys = s.sys
    ∧ (plansSettled s).course.walk = s.course.walk ∧ (plansSettled s).square.closed = s.square.closed := by
  obtain ⟨h, e, f, hd⟩ := evqDrain_queuesOnly { s with safe.outHold := 0 }
  have hx : plansSettled s = startBoundary (stopBoundary (yieldBoundary (pairCounts s.course.cn
      { s with safe.outHold := 0, hdrs := h, evq := e, free := f }))) := by
    unfold plansSettled
    rw [hd]
  obtain ⟨k1, k2, k3, k4, k5, k6⟩ := yieldBoundary_begins (s := pairCounts s.course.cn
    { s with safe.outHold := 0, hdrs := h, evq := e, free := f }) hs
  rw [hx]
  generalize yieldBoundary (pairCounts s.course.cn { s with safe.outHold := 0, hdrs := h, evq := e, free := f }) = u at *
  have hstop : stopBoundary u = u := by
    unfold stopBoundary
    rw [k3]
    dsimp only [pairCounts]
    rw [h2]
  have hstart : startBoundary u = u := by
    unfold startBoundary
    rw [k3]
    dsimp only [pairCounts]
    rw [h1]
  rw [hstop, hstart]
  exact ⟨k1, k2, k4, k5, k6⟩

theorem ptpBoundary_frame (s : State) : ∃ h p e f, ptpBoundary s = { s with hdrs := h, ptp := p, evq := e, free := f } := by
  have hstep : ∀ (u : State) (a : BitVec 2 × Dword), ∃ h p e f, ptpApply u a = { u with hdrs := h, ptp := p, evq := e, free := f } := by
    intro u a
    obtain ⟨e, f, h⟩ := blockEv_evq 0x3E 1 (a.1.toNat * 2 ^ 16) (setSticky 0x3E 8
      { u with ptp.time := if a.1 = 1#2 then a.2 else u.ptp.time + a.2 })
    exact ⟨_, _, e, f, h⟩
  rw [ptpBoundary_eq]
  refine List.foldlRecOn (motive := fun t => ∃ h p e f, t = { s with hdrs := h, ptp := p, evq := e, free := f }) _ _
    ?_ fun t ht a _ => ?_
  · exact ⟨_, _, _, _, rfl⟩
  obtain ⟨_, _, _, _, h⟩ := hstep t a
  obtain ⟨_, _, _, _, ht⟩ := ht
  rw [h, ht]
  exact ⟨_, _, _, _, rfl⟩

theorem stepDistrict_idle {s : State} {n : Nat} (h : (district s n).state ≠ .updating) : stepDistrict n s = s := by
  unfold stepDistrict
  split
  · next hu _ => exact absurd hu h
  · rfl

theorem districtsBoundary_idle {s : State} (h : ∀ n, n < 16 → (district s n).state ≠ .updating) : districtsBoundary s = s := by
  have hiter : ∀ k n, n < 16 → iterate (stepDistrict n) k s = s := by
    intro k n hn
    induction k with
    | zero => rfl
    | succ k ih =>
      change iterate (stepDistrict n) k (stepDistrict n s) = s
      rw [stepDistrict_idle (h n hn)]
      exact ih
  refine List.foldlRecOn (motive := fun t => t = s) (List.range 16) _ rfl fun t ht n hn => ?_
  rw [ht]
  exact hiter _ n (List.mem_range.1 hn)

theorem syncLoaded_walk {s : State} (hn : NoSync s) (h : ∀ n, n < 16 → (district s n).state ≠ .updating) :
    (syncLoaded s).course.walk = s.course.walk := by
  obtain ⟨_, _, _, _, hp⟩ := ptpBoundary_frame s
  unfold syncLoaded
  rw [hp, districtsBoundary_idle (by exact h), loadSync_noSync (by exact hn)]

/-- The course that begins in a unit in service. -/
theorem beginCourse_spec {s : State} (hs : s.red.state ≠ .standby) (h1 : s.loader.starting = none)
    (h2 : s.loader.stopping = none) (hd : ∀ n, n < 16 → (district s n).state ≠ .updating) :
    (beginCourse s).course.walk = s.course.walk ∧ (beginCourse s).square.closed = s.square.closed
    ∧ (beginCourse s).sys.begun = s.sys.begun := by
  obtain ⟨hn, hplan, hsys, hwalk, hclosed⟩ := plansSettled_begins hs h1 h2
  obtain ⟨hb, hbw⟩ := beginCourse_still s
  have hsync := syncLoaded_still (plansSettled s)
  have hd' : ∀ n, n < 16 → (district (plansSettled s) n).state ≠ .updating := by
    intro n hn
    unfold district
    rw [hplan]
    exact hd n hn
  refine ⟨hbw.trans ((syncLoaded_walk hn hd').trans hwalk), hb.1.trans (hsync.1.trans hclosed), ?_⟩
  exact hb.2.2.trans (hsync.2.2.trans (congrArg SysBlk.begun hsys))

/-! The boundary. -/

/-- In service start-up has no more to do than to note that the tiles are warm. -/
theorem startupBoundary_inService {s : State} (h : s.sys.step = 9 ∨ s.sys.step = 10) :
    ∃ n, startupBoundary s = { s with sys.step := n } := by
  have hne : ∀ k, k ≠ 9 → k ≠ 10 → s.sys.step ≠ k := fun k h9 h10 => by omega
  unfold startupBoundary
  rw [if_neg (by simp [hne 3]), if_neg (by simp [hne 5]), if_neg (by simp [hne 7]), if_neg (by simp [hne 8])]
  split
  · exact ⟨_, rfl⟩
  · exact ⟨_, rfl⟩

/-- A boundary in service leaves the course as it begins. -/
theorem boundary_inService {refs trim : Bool} {s : State} (hd : domUp s 3 = true) (hstep : s.sys.step = 9 ∨ s.sys.step = 10)
    (hreset : s.sys.resetAsked = none) (h1 : s.loader.starting = none) (h2 : s.loader.stopping = none)
    (hs : s.red.state ≠ .standby) (hdist : ∀ n, n < 16 → (district s n).state ≠ .updating) :
    (courseBoundary refs trim s).course.walk = (nextCourse (courseEnded s)).course.walk
    ∧ (courseBoundary refs trim s).square.closed = (nextCourse (courseEnded s)).square.closed := by
  have e : courseBoundary refs trim s = resetBoundary refs trim (startupBoundary (daysBoundary
      (beginCourse (nextCourse (courseEnded s))))) := by
    unfold courseBoundary
    dsimp only
    rw [if_pos (by exact hd)]
    rfl
  obtain ⟨hE, -⟩ := courseEnded_spec hd hs
  generalize courseEnded s = u at e hE ⊢
  obtain ⟨x, y, hnext⟩ := nextCourse_frame u
  have hE2 : Ending s (nextCourse u) := by
    rw [hnext]
    exact ⟨hE.plan, hE.loader, hE.sys, hE.state⟩
  generalize nextCourse u = v at e hE2 ⊢
  obtain ⟨hwalk, hclosed, hbegun⟩ := beginCourse_spec (s := v) (by rw [hE2.state]; exact hs) (by rw [hE2.loader]; exact h1)
    (by rw [hE2.loader]; exact h2) (by unfold district; rw [hE2.plan]; exact hdist)
  rw [hE2.sys] at hbegun
  generalize beginCourse v = w at e hwalk hclosed hbegun
  have hdays := daysBoundary_still w
  have hdc := daysBoundary_course w
  generalize daysBoundary w = z at e hdays hdc
  have hz : z.sys.begun = s.sys.begun := hdays.2.2.trans hbegun
  obtain ⟨n, hup⟩ := startupBoundary_inService (s := z) (by rw [show z.sys.step = s.sys.step from congrArg Prod.fst hz]; exact hstep)
  have hno : resetBoundary refs trim { z with sys.step := n } = { z with sys.step := n } := by
    unfold resetBoundary
    rw [show z.sys.resetAsked = none from (congrArg Prod.snd hz).trans hreset]
  rw [e, hup, hno]
  exact ⟨(congrArg CourseBlk.walk hdc).trans hwalk, hdays.1.trans hclosed⟩

/-- Settles O20: the boundary leaves CN, WI, the engines and the holding latches as the end of the old course and the start of
the new one set them (`boundary_inService`, `courseEnded_spec`, `nextCourse_frame`). -/
theorem boundaryAdvancesCourse : Obligations.BoundaryAdvancesCourse := by
  intro refs trim s hd hstep hreset h1 h2 hs hdist
  obtain ⟨hwalk, hclosed⟩ := boundary_inService (refs := refs) (trim := trim) hd hstep hreset h1 h2 hs hdist
  obtain ⟨hE, hcn, hwi, hrun, hflt, hgood, hbad⟩ := courseEnded_spec hd hs
  refine ⟨courseBoundary refs trim s, rfl, ?_⟩
  generalize courseBoundary refs trim s = t at hwalk hclosed ⊢
  generalize courseEnded s = u at *
  obtain ⟨x, y, hnext⟩ := nextCourse_frame u
  rw [hnext] at hwalk hclosed
  have tcn : t.course.cn = u.course.cn + 1 := congrArg (fun w => w.1.1) hwalk
  have twi : t.course.wi = if u.course.run then wallNext u else u.course.wi := congrArg (fun w => w.1.2.1) hwalk
  have tflt : t.course.faulted = false := congrArg (fun w => w.1.2.2.1) hwalk
  have tprev : t.course.prevFaulted = (u.course.run && u.course.faulted) := congrArg (fun w => w.1.2.2.2) hwalk
  have te0 : (t.course.e0.ended, t.course.e0.pos) = (false, 0) := congrArg (fun w => w.2.1.1) hwalk
  have te1 : (t.course.e1.ended, t.course.e1.pos) = (false, 0) := congrArg (fun w => w.2.1.2) hwalk
  have tdio : t.course.dioHeld = u.course.dioHeld := congrArg (fun w => w.2.2.1) hwalk
  have tuc : t.course.ucHeld = u.course.ucHeld := congrArg (fun w => w.2.2.2) hwalk
  have tclosed : t.square.closed = u.square.closed := hclosed
  refine ⟨tcn.trans (by rw [hcn]), fun hr => ?_, tflt, congrArg Prod.fst te0, congrArg Prod.fst te1, congrArg Prod.snd te0,
    congrArg Prod.snd te1, fun hr hf hn => ?_, fun hr hf => ?_⟩
  · rw [twi, hrun, hr, if_pos rfl]
    unfold wallNext
    rw [hwi, hE.plan]
  · obtain ⟨g1, g2, g3, g4⟩ := hgood hr (by rw [hflt, hf, hn, Bool.and_false]; rfl)
    rw [tdio, tuc, tclosed]
    exact ⟨g1, g2, g3, g4⟩
  · have hfu : u.course.faulted = true := by
      rw [hflt, hr]
      rcases hf with hf | hf <;> simp [hf]
    obtain ⟨b1, b2⟩ := hbad hr hfu
    rw [tdio, tuc, tprev, hrun, hr, hfu]
    exact ⟨b1, b2, rfl⟩

end Sys2Proof.Machine
end


section
/-! The CAN controllers stand in every operation that no CAN command and no claim gate reaches: `f_cans` says so of operation
`f` (R374 to R380). -/

namespace Sys2Proof.Machine

/-! Choices and repetitions. -/

@[simp] theorem cans_ite (c : Prop) [Decidable c] (a b : State) :
    (if c then a else b).cans = if c then a.cans else b.cans := apply_ite _ _ _ _

@[simp] theorem cans_dite (c : Prop) [Decidable c] (a : c → State) (b : ¬ c → State) :
    (if h : c then a h else b h).cans = if h : c then (a h).cans else (b h).cans := apply_dite _ _ _ _

@[simp] theorem cans_foldl {α : Type} (g : State → α → State) (h : ∀ s x, (g s x).cans = s.cans) (l : List α) (s : State) :
    (l.foldl g s).cans = s.cans :=
  List.foldlRecOn (motive := fun t => t.cans = s.cans) l g rfl fun t ht x _ => (h t x).trans ht

@[simp] theorem cans_iterate (g : State → State) (h : ∀ s, (g s).cans = s.cans) (n : Nat) (s : State) :
    (iterate g n s).cans = s.cans := by
  induction n generalizing s with
  | zero => rfl
  | succ n ih => exact (ih (g s)).trans (h s)

/-! Commands, writes and slot words. -/

@[simp] theorem setSticky_cans (p bit : Nat) (s : State) : (setSticky p bit s).cans = s.cans := rfl

@[simp] theorem offAccess_cans (d : Nat) (s : State) : (offAccess d s).cans = s.cans := by simp [offAccess]

@[simp] theorem raiseEv_cans (cls code source : Nat) (data : BitVec 96) (s : State) :
    (raiseEv cls code source data s).cans = s.cans := by simp [raiseEv]

@[simp] theorem finishCmd_cans (p : Nat) (st : CStat) (result : Nat) (s : State) : (finishCmd p st result s).cans = s.cans := by
  cases st
  case state => unfold finishCmd; dsimp only; split <;> simp
  all_goals rfl

/-- A command's end leaves the controllers if its own work does. -/
theorem CmdEnd.cans_of {e : CmdEnd} {s : State} (p : Nat) (h : e.after.cans = s.cans) :
    (match (generalizing := false) e with
      | .done st res t => finishCmd p st res t
      | .hold t => t).cans = s.cans := by
  cases e with
  | done st res t => exact (finishCmd_cans p st res t).trans h
  | hold t => exact h

@[simp] theorem issueCmd_cans (p : Nat) (req : Requester) (op : Nat) (arg : BitVec 24) (body : State → CmdEnd) (s : State)
    (hbody : ∀ s, (body s).after.cans = s.cans) : (issueCmd p req op arg body s).cans = s.cans := by
  unfold issueCmd
  split
  · rfl
  · split
    · split
      · rfl
      · exact CmdEnd.cans_of (s := takeCmd p req op arg s) p (hbody _)
    · exact offAccess_cans _ s

@[simp] theorem pageWrite_cans (p : Nat) (apply : State → State) (s : State) (happly : ∀ s, (apply s).cans = s.cans) :
    (pageWrite p apply s).cans = s.cans := by
  unfold pageWrite
  split
  · rfl
  · split
    · exact happly s
    · exact offAccess_cans _ s

@[simp] theorem setField_cans (p : Nat) (f : State → State) (s : State) (hf : ∀ s, (f s).cans = s.cans) :
    (setField p f s).cans = s.cans := pageWrite_cans p f s hf

section
variable (p n : Nat) (s : State)

@[simp] theorem setField_updUc_cans (f : UcChan → UcChan) : (setField p (updUc n f) s).cans = s.cans :=
  setField_cans p _ s fun s => updUc_cans n f s

@[simp] theorem setField_updLi_cans (f : LiChan → LiChan) : (setField p (updLi n f) s).cans = s.cans :=
  setField_cans p _ s fun s => updLi_cans n f s

@[simp] theorem setField_updDig_cans (f : DigChan → DigChan) : (setField p (updDig n f) s).cans = s.cans :=
  setField_cans p _ s fun s => updDig_cans n f s

@[simp] theorem setField_updEth_cans (f : EthBlk → EthBlk) : (setField p (updEth n f) s).cans = s.cans :=
  setField_cans p _ s fun s => updEth_cans n f s

@[simp] theorem setField_updCap_cans (f : CapBlk → CapBlk) : (setField p (updCap n f) s).cans = s.cans :=
  setField_cans p _ s fun s => updCap_cans n f s

end

@[simp] theorem pageWriteIf_cans (p : Nat) (apply : State → State × Bool) (s : State)
    (happly : ∀ s, (apply s).1.cans = s.cans) : (pageWriteIf p apply s).cans = s.cans := by
  unfold pageWriteIf
  split
  · rfl
  · split
    · have h := happly s
      split <;> rename_i e <;> rw [e] at h <;> exact h
    · exact offAccess_cans _ s

theorem runHeld_cans (page : Nat) (apply : Nat → BitVec 24 → Requester → State → CmdEnd) (s : State)
    (happly : ∀ op arg req, (apply op arg req s).after.cans = s.cans) : (runHeld page apply s).cans = s.cans := by
  unfold runHeld
  split
  · exact CmdEnd.cans_of page (happly _ _ _)
  · rfl

@[simp] theorem readN_cans (rd : Nat → State → State × Word) (hrd : ∀ a s, (rd a s).1.cans = s.cans) (a size : Nat) (s : State) :
    (readN rd a size s).1.cans = s.cans := by
  unfold readN
  dsimp only
  repeat' split
  all_goals simp [hrd]

/-! Page headers and commands. -/

@[simp] theorem countWrite_cans (p : Nat) (s : State) : (countWrite p s).cans = s.cans := by simp [countWrite]

@[simp] theorem blockEv_cans (page code data : Nat) (s : State) : (blockEv page code data s).cans = s.cans := by
  simp [blockEv]

@[simp] theorem endIfRunning_cans (p op : Nat) (st : CStat) (result : Nat) (s : State) :
    (endIfRunning p op st result s).cans = s.cans := by
  unfold endIfRunning
  split <;> simp

/-! Output stages. -/

@[simp] theorem inrushBudget_cans (s : State) : (inrushBudget s).cans = s.cans := by simp [inrushBudget]

@[simp] theorem dioResolve_cans (n : Nat) (s : State) : (dioResolve n s).cans = s.cans := by simp [dioResolve]

@[simp] theorem ucResolve_cans (n : Nat) (s : State) : (ucResolve n s).cans = s.cans := by
  unfold ucResolve
  dsimp only
  repeat' split
  all_goals simp

/-! The log store's feeds. -/

@[simp] theorem ringPut_cans (p : Nat) (mk : Word → List Byte) (s : State) : (ringPut p mk s).cans = s.cans := by
  simp [ringPut]

@[simp] theorem journalTake_cans (e : EventRec) (s : State) : (journalTake e s).cans = s.cans := by simp [journalTake]

@[simp] theorem journalSummary_cans (s : State) : (journalSummary s).cans = s.cans := by
  unfold journalSummary
  split <;> simp

@[simp] theorem journalServe_cans (s : State) : (journalServe s).cans = s.cans := by simp [journalServe]

@[simp] theorem capTrigger_cans (c : Nat) (t : Stamp) (s : State) : (capTrigger c t s).cans = s.cans := by simp [capTrigger]

@[simp] theorem capSample_cans (c : Nat) (t : Stamp) (w : Word) (s : State) : (capSample c t w s).cans = s.cans := by
  simp [capSample]

@[simp] theorem capAlarm_cans (e : EventRec) (s : State) : (capAlarm e s).cans = s.cans := by simp [capAlarm]

@[simp] theorem raiseAlarm_cans (p : Nat) (data : BitVec 96) (s : State) : (raiseAlarm p data s).cans = s.cans := by
  simp [raiseAlarm]

@[simp] theorem trendEnd_cans (s : State) : (trendEnd s).cans = s.cans := by
  unfold trendEnd
  split <;> simp

@[simp] theorem trendSpoil_cans (s : State) : (trendSpoil s).cans = s.cans := by simp [trendSpoil]

@[simp] theorem trendGather_cans (q : Square) (s : State) : (trendGather q s).cans = s.cans := by simp [trendGather]

/-! Trips and samples. -/

@[simp] theorem tripDrive_cans (o : Nat) (s : State) : (tripDrive o s).cans = s.cans := by simp [tripDrive]

@[simp] theorem tripUpdate_cans (s : State) : (tripUpdate s).cans = s.cans := by simp [tripUpdate]

@[simp] theorem tripChannel_cans (c : Nat) (raw : Word) (tag : Nat) (invalid : Bool) (s : State) :
    (tripChannel c raw tag invalid s).cans = s.cans := by simp [tripChannel]

@[simp] theorem safeEvent_cans (code target detail : Nat) (s : State) : (safeEvent code target detail s).cans = s.cans := by
  simp [safeEvent]

@[simp] theorem orderYield_cans (cause : Nat) (s : State) : (orderYield cause s).cans = s.cans := by simp [orderYield]

@[simp] theorem forceSet_cans (s : State) : (forceSet s).cans = s.cans := by simp [forceSet]

/-! Universal inputs and outputs. -/

@[simp] theorem chanEvent_cans (c code detail : Nat) (s : State) : (chanEvent c code detail s).cans = s.cans := by
  simp [chanEvent]

@[simp] theorem iepeBoundary_cans (s : State) : (iepeBoundary s).cans = s.cans := by simp [iepeBoundary]

@[simp] theorem latchSample_cans (c : Nat) (x : Sample) (s : State) : (latchSample c x s).cans = s.cans := by
  simp [latchSample]

@[simp] theorem sampleIn_cans (n : Nat) (m : Conversion) (s : State) : (sampleIn n m s).cans = s.cans := by simp [sampleIn]

@[simp] theorem sampleOut_cans (n : Nat) (m : Conversion) (s : State) : (sampleOut n m s).cans = s.cans := by simp [sampleOut]

@[simp] theorem sampleUc_cans (n : Nat) (m : Conversion) (s : State) : (sampleUc n m s).cans = s.cans := by simp [sampleUc]

@[simp] theorem updInp_cans (n : Nat) (f : UcIn → UcIn) (s : State) : (updInp n f s).cans = s.cans := by simp [updInp]

@[simp] theorem ucSticky_cans (n bit : Nat) (s : State) : (ucSticky n bit s).cans = s.cans := by simp [ucSticky]

@[simp] theorem abortOpenTest_cans (n : Nat) (s : State) : (abortOpenTest n s).cans = s.cans := by simp [abortOpenTest]

@[simp] theorem openTest_cans (req : Requester) (t : Fin 4) (arg : BitVec 24) (s : State) :
    (openTest req t arg s).cans = s.cans := by simp [openTest, after_done, after_hold]

/-! Digital channels. -/

@[simp] theorem digEvent_cans (k code detail : Nat) (s : State) : (digEvent k code detail s).cans = s.cans := by
  simp [digEvent]

@[simp] theorem digSticky_cans (k bit : Nat) (s : State) : (digSticky k bit s).cans = s.cans := by simp [digSticky]

@[simp] theorem raiseEvAt_cans (cn : Word) (cls code source : Nat) (data : BitVec 96) (s : State) :
    (raiseEvAt cn cls code source data s).cans = s.cans := by simp [raiseEvAt]

@[simp] theorem outReset_cans (req : Requester) (arg : BitVec 24) (s : State) : (outReset req arg s).cans = s.cans := by
  simp [outReset, after_done]

@[simp] theorem relearn_cans (req : Requester) (arg : BitVec 24) (s : State) : (relearn req arg s).cans = s.cans := by
  simp [relearn, after_done]

@[simp] theorem digCfgWrite_cans (k : Nat) (value : Word) (s : State) : (digCfgWrite k value s).cans = s.cans := by
  simp [digCfgWrite, apply_ite Prod.fst]

@[simp] theorem dioOctlWrite_cans (n : Nat) (value : Word) (s : State) : (dioOctlWrite n value s).cans = s.cans := by
  simp [dioOctlWrite, apply_ite Prod.fst]

@[simp] theorem ucOctlWrite_cans (n : Nat) (value : Word) (s : State) : (ucOctlWrite n value s).cans = s.cans := by
  simp [ucOctlWrite, apply_ite Prod.fst]

/-! Plans and districts. -/

@[simp] theorem planEvent_cans (code district gen count : Nat) (s : State) :
    (planEvent code district gen count s).cans = s.cans := by simp [planEvent]

@[simp] theorem setLstat_cans (op : Nat) (f : Fail) (s : State) : (setLstat op f s).cans = s.cans := by simp [setLstat]

@[simp] theorem loadPlan_cans (req : Requester) (arg : BitVec 24) (s : State) : (loadPlan req arg s).cans = s.cans := by
  simp [loadPlan, after_done, after_hold]

@[simp] theorem stopPlan_cans (req : Requester) (arg : BitVec 24) (s : State) : (stopPlan req arg s).cans = s.cans := by
  unfold stopPlan
  refine issueCmd_cans _ _ _ _ _ s fun s => ?_
  dsimp only
  repeat' split
  all_goals simp [after_done]

@[simp] theorem beginUpdate_cans (safety : Bool) (arg : BitVec 24) (s : State) : (beginUpdate safety arg s).cans = s.cans := by
  simp [beginUpdate]

@[simp] theorem updateDistrict_cans (req : Requester) (arg : BitVec 24) (s : State) :
    (updateDistrict req arg s).cans = s.cans := by simp [updateDistrict, after_done, after_hold]

@[simp] theorem acceptUpdate_cans (v : Verifying) (img : List Byte) (s : State) : (acceptUpdate v img s).cans = s.cans := by
  simp [acceptUpdate]

@[simp] theorem endUpdateVerify_cans (page : Nat) (v : Verifying) (peer : Bool) (s : State) :
    (endUpdateVerify page v peer s).cans = s.cans := by
  unfold endUpdateVerify
  dsimp only
  split <;> simp

@[simp] theorem abortUpdate_cans (req : Requester) (arg : BitVec 24) (s : State) : (abortUpdate req arg s).cans = s.cans := by
  simp [abortUpdate, after_done]

@[simp] theorem verifyCmd_cans (req : Requester) (arg : BitVec 24) (s : State) : (verifyCmd req arg s).cans = s.cans := by
  simp [verifyCmd, after_done, after_hold]

@[simp] theorem eraseCmd_cans (req : Requester) (arg : BitVec 24) (s : State) : (eraseCmd req arg s).cans = s.cans := by
  simp [eraseCmd, after_done]

@[simp] theorem programCmd_cans (req : Requester) (arg : BitVec 24) (s : State) : (programCmd req arg s).cans = s.cans := by
  simp [programCmd, after_done]

/-! Loop inputs and modems. -/

@[simp] theorem liEvent_cans (n code detail : Nat) (s : State) : (liEvent n code detail s).cans = s.cans := by simp [liEvent]

@[simp] theorem sampleLi_cans (n : Nat) (m : Conversion) (s : State) : (sampleLi n m s).cans = s.cans := by simp [sampleLi]

@[simp] theorem hartDone_cans (b result : Nat) (s : State) : (hartDone b result s).cans = s.cans := by simp [hartDone]

@[simp] theorem coupleModem_cans (m : Nat) (count : Bool) (s : State) : (coupleModem m count s).cans = s.cans := by
  simp [coupleModem]

@[simp] theorem hartAdvance_cans (m : Nat) (s : State) : (hartAdvance m s).cans = s.cans := by simp [hartAdvance]

@[simp] theorem hartEnd_cans (m b result : Nat) (s : State) : (hartEnd m b result s).cans = s.cans := by simp [hartEnd]

@[simp] theorem hartRegate_cans (s : State) : (hartRegate s).cans = s.cans := by simp [hartRegate]

@[simp] theorem hartSend_cans (m b : Nat) (s : State) : (hartSend m b s).cans = s.cans := by simp [hartSend]

@[simp] theorem hartBoundary_cans (s : State) : (hartBoundary s).cans = s.cans := by simp [hartBoundary]

@[simp] theorem hartFail_cans (m result : Nat) (s : State) : (hartFail m result s).cans = s.cans := by
  unfold hartFail
  dsimp only
  split <;> simp

@[simp] theorem submitCmd_cans (req : Requester) (arg : BitVec 24) (s : State) : (submitCmd req arg s).cans = s.cans := by
  simp [submitCmd, after_done]

@[simp] theorem hartCancel_cans (req : Requester) (arg : BitVec 24) (s : State) : (hartCancel req arg s).cans = s.cans := by
  simp [hartCancel, after_done]

@[simp] theorem hartRelease_cans (req : Requester) (arg : BitVec 24) (s : State) : (hartRelease req arg s).cans = s.cans := by
  simp [hartRelease, after_done]

@[simp] theorem hartDescWrite_cans (b : Fin 16) (reg : Fin 3) (value : Word) (s : State) :
    (hartDescWrite b reg value s).cans = s.cans := by simp [hartDescWrite, apply_ite Prod.fst]

@[simp] theorem hartAbort_cans (p : Nat → Bool) (queued : Bool) (s : State) : (hartAbort p queued s).cans = s.cans := by
  unfold hartAbort
  extract_lets s1
  have h1 : s1.cans = s.cans := by
    refine cans_foldl _ (fun s m => ?_) _ s
    split <;> simp
  simp [h1]

@[simp] theorem hartNoTurn_cans (s : State) : (hartNoTurn s).cans = s.cans := by simp [hartNoTurn]

/-! Calibration. -/

@[simp] theorem updConv_cans (t c : Nat) (f : Converter → Converter) (s : State) : (updConv t c f s).cans = s.cans := by
  simp [updConv]

@[simp] theorem calEvent_cans (code tile detail : Nat) (s : State) : (calEvent code tile detail s).cans = s.cans := by
  simp [calEvent]

@[simp] theorem setSpare_cans (t sp : Nat) (r : Option SpareRole) (s : State) : (setSpare t sp r s).cans = s.cans := by
  simp [setSpare]

@[simp] theorem startTurn_cans (t c sp : Nat) (s : State) : (startTurn t c sp s).cans = s.cans := by simp [startTurn]

@[simp] theorem rotationOrder_cans (t c sp : Nat) (s : State) : (rotationOrder t c sp s).cans = s.cans := by
  simp [rotationOrder]

@[simp] theorem endTurn_cans (t key : Nat) (s : State) : (endTurn t key s).cans = s.cans := by
  unfold endTurn
  dsimp only
  split <;> simp

@[simp] theorem calibrate_cans (t c : Nat) (gain offset : ℤ) (s : State) : (calibrate t c gain offset s).cans = s.cans := by
  simp [calibrate]

@[simp] theorem resetTileCal_cans (t : Nat) (s : State) : (resetTileCal t s).cans = s.cans := by simp [resetTileCal]

@[simp] theorem agedEvent_cans (before s : State) : (agedEvent before s).cans = s.cans := by simp [agedEvent]

@[simp] theorem daysBoundary_cans (s : State) : (daysBoundary s).cans = s.cans := by simp [daysBoundary]

@[simp] theorem calBoundary_cans (s : State) : (calBoundary s).cans = s.cans := by simp [calBoundary]

@[simp] theorem sessionOpen_cans (req : Requester) (arg : BitVec 24) (s : State) : (sessionOpen req arg s).cans = s.cans := by
  simp [sessionOpen, after_done]

@[simp] theorem measureCmd_cans (req : Requester) (arg : BitVec 24) (s : State) : (measureCmd req arg s).cans = s.cans := by
  simp [measureCmd, after_done, after_hold]

@[simp] theorem setPoint_cans (p : Nat) (x : CalPoint) (s : State) : (setPoint p x s).cans = s.cans := by simp [setPoint]

@[simp] theorem commitCmd_cans (req : Requester) (arg : BitVec 24) (s : State) : (commitCmd req arg s).cans = s.cans := by
  simp [commitCmd, after_done, after_hold]

@[simp] theorem closeSession_cans (s : State) : (closeSession s).cans = s.cans := by simp [closeSession]

@[simp] theorem takeRates_cans (da d100 d10k : Int) (d : Nat) (s : State) : (takeRates da d100 d10k d s).cans = s.cans := by
  simp [takeRates]

@[simp] theorem predict_cans (day : Option Half) (days : Option Nat) (s : State) : (predict day days s).cans = s.cans := by
  unfold predict
  dsimp only
  repeat' split
  all_goals simp

@[simp] theorem sessionClose_cans (req : Requester) (arg : BitVec 24) (s : State) : (sessionClose req arg s).cans = s.cans := by
  simp [sessionClose, after_done]

/-! Alarms. -/

@[simp] theorem alarmRecord_cans (p : Nat) (old new : Half) (cause by_ : Nat) (s : State) :
    (alarmRecord p old new cause by_ s).cans = s.cans := by simp [alarmRecord]

@[simp] theorem ptTo_cans (p : Nat) (st : PState) (time : Stamp) (cause by_ : Nat) (old : Half) (s : State) :
    (ptTo p st time cause by_ old s).cans = s.cans := by simp [ptTo]

@[simp] theorem cmpWord_cans (p : Nat) (s : State) : (cmpWord p s).cans = s.cans := by simp [cmpWord]

@[simp] theorem rateWindow_cans (p : Nat) (s : State) : (rateWindow p s).cans = s.cans := by simp [rateWindow]

@[simp] theorem rateWord_cans (p : Nat) (s : State) : (rateWord p s).cans = s.cans := by simp [rateWord]

@[simp] theorem logicWord_cans (p : Nat) (s : State) : (logicWord p s).cans = s.cans := by simp [logicWord]

@[simp] theorem onConfirmed_cans (p : Nat) (old : Half) (s : State) : (onConfirmed p old s).cans = s.cans := by
  simp [onConfirmed]

@[simp] theorem offConfirmed_cans (p : Nat) (old : Half) (s : State) : (offConfirmed p old s).cans = s.cans := by
  simp [offConfirmed]

@[simp] theorem faultConfirmed_cans (p : Nat) (old : Half) (s : State) : (faultConfirmed p old s).cans = s.cans := by
  simp [faultConfirmed]

@[simp] theorem delayBad_cans (p : Nat) (old : Half) (s : State) : (delayBad p old s).cans = s.cans := by simp [delayBad]

@[simp] theorem delayRun_cans (p : Nat) (old : Half) (s : State) : (delayRun p old s).cans = s.cans := by simp [delayRun]

@[simp] theorem toNormal_cans (p cause : Nat) (c : Bool) (old : Half) (s : State) :
    (toNormal p cause c old s).cans = s.cans := by simp [toNormal]

@[simp] theorem delayGood_cans (p : Nat) (old : Half) (s : State) : (delayGood p old s).cans = s.cans := by simp [delayGood]

@[simp] theorem delayWord_cans (p : Nat) (s : State) : (delayWord p s).cans = s.cans := by
  unfold delayWord
  dsimp only
  repeat' split
  all_goals simp

@[simp] theorem alarmEvent_cans (code group point : Nat) (s : State) : (alarmEvent code group point s).cans = s.cans := by
  simp [alarmEvent]

@[simp] theorem emptyFo_cans (g : Nat) (s : State) : (emptyFo g s).cans = s.cans := by
  unfold emptyFo
  split <;> simp

@[simp] theorem groupWord_cans (g : Nat) (s : State) : (groupWord g s).cans = s.cans := by
  unfold groupWord
  dsimp only
  repeat' split
  all_goals simp

@[simp] theorem ackPoint_cans (p cause by_ : Nat) (s : State) : (ackPoint p cause by_ s).1.cans = s.cans := by
  unfold ackPoint
  dsimp only
  repeat' split
  all_goals simp

@[simp] theorem ackPoints_cans (cause by_ : Nat) (l : List Nat) (s : State) :
    (ackPoints cause by_ l s).1.cans = s.cans := List.foldlRecOn (motive :=
  fun (a : State × Nat) => a.1.cans = s.cans) l _ rfl
    fun a ha p _ => (ackPoint_cans p cause by_ a.1).trans ha

@[simp] theorem silenceAll_cans (s : State) : (silenceAll s).1.cans = s.cans :=
  (alarmEvent_cans _ _ _ _).trans (cans_foldl _ (fun s p => updPoint_cans p _ s) _ s)

@[simp] theorem applyAlarmCmd_cans (op : Nat) (arg : BitVec 24) (req : Requester) (s : State) :
    (applyAlarmCmd op arg req s).after.cans = s.cans := by
  unfold applyAlarmCmd
  extract_lets
  repeat' split
  all_goals simp +zetaDelta [after_done]

@[simp] theorem alarmCmd_cans (op : Nat) (req : Requester) (arg : BitVec 24) (s : State) :
    (alarmCmd op req arg s).cans = s.cans := by
  unfold alarmCmd
  refine issueCmd_cans _ _ _ _ _ s fun s => ?_
  extract_lets
  all_goals simp +zetaDelta [after_hold]

/-! Calls and the watch. -/

@[simp] theorem updTab_cans (t : Nat) (f : CallTab → CallTab) (s : State) : (updTab t f s).cans = s.cans := by simp [updTab]

@[simp] theorem callEvent_cans (code table detail : Nat) (s : State) : (callEvent code table detail s).cans = s.cans := by
  simp [callEvent]

@[simp] theorem setTab_cans (t : Nat) (x : CallTab) (s : State) : (setTab t x s).cans = s.cans := by simp [setTab]

@[simp] theorem callStage1_cans (t : Nat) (s : State) : (callStage1 t s).cans = s.cans := by simp [callStage1]

@[simp] theorem callStage2_cans (t : Nat) (s : State) : (callStage2 t s).cans = s.cans := by simp [callStage2]

@[simp] theorem callAlarm_cans (t : Nat) (s : State) : (callAlarm t s).cans = s.cans := by simp [callAlarm]

@[simp] theorem xferFails_cans (t : Nat) (s : State) : (xferFails t s).cans = s.cans := by simp [xferFails]

@[simp] theorem callXfer_cans (t : Nat) (s : State) : (callXfer t s).cans = s.cans := by simp [callXfer]

@[simp] theorem callWord_cans (t : Nat) (s : State) : (callWord t s).cans = s.cans := by simp [callWord]

@[simp] theorem setDuty_cans (e : Nat) (s : State) : (setDuty e s).cans = s.cans := by simp [setDuty]

@[simp] theorem setPhase_cans (ph : WatchPhase) (s : State) : (setPhase ph s).cans = s.cans := by simp [setPhase]

@[simp] theorem startWatch_cans (s : State) : (startWatch s).cans = s.cans := by simp [startWatch]

@[simp] theorem watchStage2_cans (s : State) : (watchStage2 s).cans = s.cans := by simp [watchStage2]

@[simp] theorem watchWord_cans (s : State) : (watchWord s).cans = s.cans := by simp [watchWord]

@[simp] theorem applyWatch_cans (on : Bool) (s : State) : (applyWatch on s).cans = s.cans := by simp [applyWatch]

@[simp] theorem watchStep_cans (was : Nat) (s : State) : (watchStep was s).cans = s.cans := by simp [watchStep]

@[simp] theorem retireTable_cans (t : Nat) (s : State) : (retireTable t s).cans = s.cans := by simp [retireTable]

@[simp] theorem applyCallCmd_cans (op : Nat) (arg : BitVec 24) (s : State) : (applyCallCmd op arg s).after.cans = s.cans := by
  unfold applyCallCmd
  extract_lets
  repeat' split
  all_goals simp +zetaDelta [after_done]

@[simp] theorem callCmd_cans (op : Nat) (req : Requester) (arg : BitVec 24) (s : State) :
    (callCmd op req arg s).cans = s.cans := by
  unfold callCmd
  refine issueCmd_cans _ _ _ _ _ s fun s => ?_
  extract_lets
  all_goals simp +zetaDelta [after_hold]

@[simp] theorem applyPresses_cans (s : State) : (applyPresses s).cans = s.cans := by simp [applyPresses]

@[simp] theorem alarmBoundary_cans (s : State) : (alarmBoundary s).cans = s.cans := by
  unfold alarmBoundary
  extract_lets s1 s2 _ s3 s4 s5
  have h1 : s1.cans = s.cans := runHeld_cans _ _ s fun op arg req => applyAlarmCmd_cans op arg req s
  have h2 : s2.cans = s.cans := (runHeld_cans _ _ s1 fun op arg _ => applyCallCmd_cans op arg s1).trans h1
  have h3 : s3.cans = s.cans := by simp [s3, h2]
  have h4 : s4.cans = s.cans := by simp [s4, h3]
  have h5 : s5.cans = s.cans := by
    unfold s5
    split <;> simp [h4]
  simp [h5]

@[simp] theorem noSelector_cans (s : State) : (noSelector s).cans = s.cans := by simp [noSelector]

@[simp] theorem alarmCapture_cans (s : State) : (alarmCapture s).cans = s.cans := by simp [alarmCapture]

/-! Slot words. -/

@[simp] theorem updEngine_cans (e : Nat) (f : Engine → Engine) (s : State) : (updEngine e f s).cans = s.cans := by
  simp [updEngine]

@[simp] theorem tick_cans (e cost : Nat) (s : State) : (tick e cost s).cans = s.cans := by simp [tick]

@[simp] theorem cellSet_cans (e a : Nat) (v : Dword) (s : State) : (cellSet e a v s).cans = s.cans := by simp [cellSet]

@[simp] theorem fetchWord_cans (c : Nat) (w : SlotWord) (s : State) : (fetchWord c w s).cans = s.cans := by simp [fetchWord]

@[simp] theorem fetchDigital_cans (k : Nat) (w : SlotWord) (s : State) : (fetchDigital k w s).cans = s.cans := by
  simp [fetchDigital]

@[simp] theorem filterWord_cans (c : Nat) (w : SlotWord) (s : State) : (filterWord c w s).cans = s.cans := by
  simp [filterWord]

@[simp] theorem linWord_cans (c : Nat) (w : SlotWord) (s : State) : (linWord c w s).cans = s.cans := by simp [linWord]

@[simp] theorem linsumWord_cans (c : Nat) (w : SlotWord) (s : State) : (linsumWord c w s).cans = s.cans := by
  simp [linsumWord]

@[simp] theorem charWord_cans (c : Nat) (w : SlotWord) (s : State) : (charWord c w s).cans = s.cans := by simp [charWord]

@[simp] theorem cvtWord_cans (c : Nat) (w : SlotWord) (s : State) : (cvtWord c w s).cans = s.cans := by simp [cvtWord]

@[simp] theorem recWord_cans (r : Nat) (s : State) : (recWord r s).cans = s.cans := by simp [recWord]

@[simp] theorem outWord_cans (n : Nat) (w : SlotWord) (s : State) : (outWord n w s).cans = s.cans := by simp [outWord]

/-! The square. -/

@[simp] theorem squarePin_cans (req : Requester) (value : Word) (s : State) : (squarePin req value s).cans = s.cans :=
  pageWrite_cans _ _ s fun _ => rfl

@[simp] theorem windowRead_cans (req : Requester) (o : Nat) (s : State) : (windowRead req o s).1.cans = s.cans := by
  unfold windowRead
  dsimp only
  repeat' split
  all_goals simp

@[simp] theorem windowReadN_cans (req : Requester) (a size : Nat) (s : State) : (windowReadN req a size s).1.cans = s.cans := by
  simp [windowReadN]

@[simp] theorem setResp_cans (l : List Word) (s : State) : (setResp l s).cans = s.cans := by simp [setResp]

@[simp] theorem windowWrite_cans (s : State) : (windowWrite s).cans = s.cans := by simp [windowWrite]

@[simp] theorem takeBuffer_cans (s : State) : (takeBuffer s).cans = s.cans := by simp [takeBuffer]

@[simp] theorem publish_cans (q : Square) (s : State) : (publish q s).cans = s.cans := by simp [publish]

@[simp] theorem squarePublish_cans (s : State) : (squarePublish s).cans = s.cans := by
  unfold squarePublish
  split <;> simp

/-! Steps of a plan. -/

@[simp] theorem updCtxOf_cans (c : Nat) (f : ChanCtx → ChanCtx) (s : State) : (updCtxOf c f s).cans = s.cans := by
  simp [updCtxOf]

@[simp] theorem newSeries_cans (c : Nat) (s : State) : (newSeries c s).cans = s.cans := by simp [newSeries]

@[simp] theorem dropSamples_cans (c : Nat) (s : State) : (dropSamples c s).cans = s.cans := by simp [dropSamples]

@[simp] theorem settleUc_cans (n : Nat) (s : State) : (settleUc n s).cans = s.cans := by simp [settleUc]

@[simp] theorem ucNewMode_cans (n : Nat) (s : State) : (ucNewMode n s).cans = s.cans := by simp [ucNewMode]

@[simp] theorem ucTake_cans (n : Nat) (s : State) : (ucTake n s).cans = s.cans := by simp [ucTake]

@[simp] theorem liNewMode_cans (n : Nat) (s : State) : (liNewMode n s).cans = s.cans := by simp [liNewMode]

@[simp] theorem liTake_cans (n : Nat) (s : State) : (liTake n s).cans = s.cans := by simp [liTake]

@[simp] theorem digTake_cans (k : Nat) (s : State) : (digTake k s).cans = s.cans := by simp [digTake]

@[simp] theorem loadPlanRegs_cans (m : Nat) (s : State) : (loadPlanRegs m s).cans = s.cans := by simp [loadPlanRegs]

@[simp] theorem givePlanRegs_cans (m : Nat) (s : State) : (givePlanRegs m s).cans = s.cans := by simp [givePlanRegs]

@[simp] theorem eraseRecord_cans (m : Nat) (s : State) : (eraseRecord m s).cans = s.cans := by simp [eraseRecord]

@[simp] theorem stepAna_cans (c : Nat) (was : Bool) (s : State) : (stepAna c was s).cans = s.cans := by simp [stepAna]

@[simp] theorem stepDig_cans (k : Nat) (was : Bool) (s : State) : (stepDig k was s).cans = s.cans := by simp [stepDig]

@[simp] theorem stepPoint_cans (p : Nat) (old : Option (List Byte)) (oldWord : Half) (s : State) :
    (stepPoint p old oldWord s).cans = s.cans := by simp [stepPoint]

@[simp] theorem retirePoint_cans (p : Nat) (oldWord : Half) (s : State) : (retirePoint p oldWord s).cans = s.cans := by
  simp [retirePoint]

@[simp] theorem endRelease_cans (output : Bool) (n : Nat) (s : State) : (endRelease output n s).cans = s.cans := by
  simp [endRelease]

@[simp] theorem stepLane_cans (n : Nat) (old : Option (List Byte)) (s : State) : (stepLane n old s).cans = s.cans := by
  simp [stepLane]

@[simp] theorem dropPanelPend_cans (k : Nat) (s : State) : (dropPanelPend k s).cans = s.cans := by simp [dropPanelPend]

@[simp] theorem initCall_cans (s : State) : (initCall s).cans = s.cans := by simp [initCall]

@[simp] theorem claimConfig_cans (s : State) : (claimConfig s).cans = s.cans := by simp [claimConfig]

@[simp] theorem applyStep_cans (d : DStep) (s : State) : (applyStep d s).cans = s.cans := by
  unfold applyStep
  extract_lets
  repeat' split
  all_goals simp +zetaDelta

@[simp] theorem reloadAll_cans (s : State) : (reloadAll s).cans = s.cans := by simp [reloadAll]

@[simp] theorem freshStamps_cans (b s : State) : (freshStamps b s).cans = s.cans := by simp [freshStamps]

@[simp] theorem tileRegs_cans (t : Nat) (s : State) : (tileRegs t s).cans = s.cans := by simp [tileRegs]

@[simp] theorem tileTake_cans (t : Nat) (s : State) : (tileTake t s).cans = s.cans := by simp [tileTake]

/-! Maintenance and tiles. -/

@[simp] theorem channelMaint_cans (req : Requester) (p : Fin 12) (arg : BitVec 24) (s : State) :
    (channelMaint req p arg s).cans = s.cans := by simp [channelMaint, after_done]

@[simp] theorem leaveMaint_cans (m : Nat) (s : State) : (leaveMaint m s).cans = s.cans := by simp [leaveMaint]

@[simp] theorem enterMaint_cans (m : Nat) (s : State) : (enterMaint m s).cans = s.cans := by simp [enterMaint]

@[simp] theorem maintBoundary_cans (s : State) : (maintBoundary s).cans = s.cans := by simp [maintBoundary]

@[simp] theorem ucCfgWrite_cans (n : Nat) (value : Word) (s : State) : (ucCfgWrite n value s).cans = s.cans := by
  simp [ucCfgWrite, apply_ite Prod.fst]

@[simp] theorem liCfgWrite_cans (n : Nat) (value : Word) (s : State) : (liCfgWrite n value s).cans = s.cans := by
  simp [liCfgWrite, apply_ite Prod.fst]

@[simp] theorem tileRestart_cans (req : Requester) (t : Fin 10) (arg : BitVec 24) (s : State) :
    (tileRestart req t arg s).cans = s.cans := by simp [tileRestart, after_done, after_hold]

@[simp] theorem abortTileTests_cans (t : Nat) (s : State) : (abortTileTests t s).cans = s.cans := by simp [abortTileTests]

@[simp] theorem restartTile_cans (t : Nat) (s : State) : (restartTile t s).cans = s.cans := by simp [restartTile]

@[simp] theorem convsBack_cans (t : Nat) (s : State) : (convsBack t s).cans = s.cans := by simp [convsBack]

@[simp] theorem tilesBoundary_cans (s : State) : (tilesBoundary s).cans = s.cans := by simp [tilesBoundary]

@[simp] theorem clearPeakCmd_cans (req : Requester) (arg : BitVec 24) (s : State) : (clearPeakCmd req arg s).cans = s.cans := by
  simp [clearPeakCmd, after_done]

/-! Outputs at a boundary. -/

@[simp] theorem updOut_cans (n : Nat) (f : UcOut → UcOut) (s : State) : (updOut n f s).cans = s.cans := by simp [updOut]

@[simp] theorem ucOSticky_cans (n bit : Nat) (s : State) : (ucOSticky n bit s).cans = s.cans := by simp [ucOSticky]

@[simp] theorem readbackStep_cans (n : Nat) (w : OutWindow) (s : State) : (readbackStep n w s).cans = s.cans := by
  simp [readbackStep]

@[simp] theorem complianceStep_cans (n : Nat) (w : OutWindow) (s : State) : (complianceStep n w s).cans = s.cans := by
  simp [complianceStep]

@[simp] theorem openLoopStep_cans (n : Nat) (w : OutWindow) (s : State) : (openLoopStep n w s).cans = s.cans := by
  simp [openLoopStep]

@[simp] theorem ucJudge_cans (n : Nat) (s : State) : (ucJudge n s).cans = s.cans := by
  unfold ucJudge
  split <;> simp

@[simp] theorem retireOff_cans (n : Nat) (s : State) : (retireOff n s).cans = s.cans := by simp [retireOff]

@[simp] theorem ucDrive_cans (n : Nat) (win : Option OutWindow) (s : State) : (ucDrive n win s).cans = s.cans := by
  unfold ucDrive
  dsimp only
  split <;> simp

@[simp] theorem ucBoundary_cans (n : Nat) (s : State) : (ucBoundary n s).cans = s.cans := by
  unfold ucBoundary
  dsimp only
  repeat' split
  all_goals simp

@[simp] theorem dioBoundary_cans (n : Nat) (s : State) : (dioBoundary n s).cans = s.cans := by simp [dioBoundary]

@[simp] theorem outputsBoundary_cans (s : State) : (outputsBoundary s).cans = s.cans := by simp [outputsBoundary]

/-! Event queues. -/

@[simp] theorem evqNote_cans (old new : EvQueue) (s : State) : (evqNote old new s).cans = s.cans := by simp [evqNote]

@[simp] theorem evqReplace_cans (q : Nat) (f : EvQueue → EvQueue) (s : State) : (evqReplace q f s).cans = s.cans := by
  simp [evqReplace]

@[simp] theorem evqArrive_cans (e : EventRec) (s : State) : (evqArrive e s).cans = s.cans := by simp [evqArrive]

@[simp] theorem evqDrain_cans (s : State) : (evqDrain s).cans = s.cans := by simp [evqDrain]

@[simp] theorem evqPop_cans (req : Requester) (q : Fin 5) (value : Word) (s : State) : (evqPop req q value s).cans = s.cans := by
  simp [evqPop, apply_ite Prod.fst]

@[simp] theorem evqCtlWrite_cans (q : Fin 5) (value : Word) (s : State) : (evqCtlWrite q value s).cans = s.cans := by
  simp [evqCtlWrite]

/-! The pair. -/

@[simp] theorem redEvent_cans (code detail : Nat) (s : State) : (redEvent code detail s).cans = s.cans := by simp [redEvent]

@[simp] theorem gatesApplyUc_cans (s : State) : (gatesApplyUc s).cans = s.cans := by simp [gatesApplyUc]

@[simp] theorem gatesApply_cans (s : State) : (gatesApply s).cans = s.cans := by simp [gatesApply]

@[simp] theorem dioTake_cans (drive : Word) (s : State) : (dioTake drive s).cans = s.cans := by simp [dioTake]

@[simp] theorem settleGated_cans (s : State) : (settleGated s).cans = s.cans := by simp [settleGated]

@[simp] theorem seedRecord_cans (c : Nat) (r : ARec) (s : State) : (seedRecord c r s).cans = s.cans := by simp [seedRecord]

@[simp] theorem seedGated_cans (m : SyncMsg) (s : State) : (seedGated m s).cans = s.cans := by simp [seedGated]

@[simp] theorem outputsFromStart_cans (s : State) : (outputsFromStart s).cans = s.cans := by simp [outputsFromStart]

@[simp] theorem outputsFromSync_cans (m : SyncMsg) (s : State) : (outputsFromSync m s).cans = s.cans := by
  simp [outputsFromSync]

@[simp] theorem epochMarkers_cans (new old : Half) (s : State) : (epochMarkers new old s).cans = s.cans := by
  simp [epochMarkers]

@[simp] theorem noInrush_cans (s : State) : (noInrush s).cans = s.cans := cans_foldl _ (fun s n => updDio_cans n _ s) _ s

@[simp] theorem updStreet_cans (b : Bool) (f : Street → Street) (s : State) : (updStreet b f s).cans = s.cans := by
  simp [updStreet]

@[simp] theorem linkEvent_cans (s : State) : (linkEvent s).cans = s.cans := by simp [linkEvent]

@[simp] theorem judgePeerLost_cans (s : State) : (judgePeerLost s).cans = s.cans := by simp [judgePeerLost]

@[simp] theorem peerSeen_cans (h : Heartbeat) (s : State) : (peerSeen h s).cans = s.cans := by simp [peerSeen]

@[simp] theorem switchover_cans (req : Requester) (arg : BitVec 24) (s : State) : (switchover req arg s).cans = s.cans := by
  simp [switchover, after_done, after_hold]

@[simp] theorem clearCounts_cans (req : Requester) (arg : BitVec 24) (s : State) : (clearCounts req arg s).cans = s.cans := by
  simp [clearCounts, after_done]

@[simp] theorem buildSync_cans (q : Square) (s : State) : (buildSync q s).cans = s.cans := by simp [buildSync]

@[simp] theorem loadTurns_cans (m : SyncMsg) (s : State) : (loadTurns m s).cans = s.cans := by simp [loadTurns]

@[simp] theorem loadLamps_cans (m : SyncMsg) (s : State) : (loadLamps m s).cans = s.cans := by
  refine cans_foldl _ (fun s n => ?_) _ s
  split <;> simp

@[simp] theorem syncMissed_cans (s : State) : (syncMissed s).cans = s.cans := by simp [syncMissed]

@[simp] theorem pairCounts_cans (cn : Word) (s : State) : (pairCounts cn s).cans = s.cans := by simp [pairCounts]

/-! The safety partition. -/

@[simp] theorem accessViolation_cans (page off : Nat) (req : Requester) (value : Word) (s : State) :
    (accessViolation page off req value s).cans = s.cans := by simp [accessViolation]

@[simp] theorem updateSafety_cans (req : Requester) (arg : BitVec 24) (s : State) : (updateSafety req arg s).cans = s.cans := by
  simp [updateSafety, after_done, after_hold]

@[simp] theorem releaseCmd_cans (output : Bool) (req : Requester) (arg : BitVec 24) (s : State) :
    (releaseCmd output req arg s).cans = s.cans := by
  unfold releaseCmd
  refine issueCmd_cans _ _ _ _ _ s fun s => ?_
  dsimp only
  repeat' split
  all_goals simp [after_done]

@[simp] theorem restoreCmd_cans (output : Bool) (req : Requester) (arg : BitVec 24) (s : State) :
    (restoreCmd output req arg s).cans = s.cans := by simp [restoreCmd, after_done]

@[simp] theorem applyAsk_cans (s : State) (a : RelAsk) : (applyAsk s a).cans = s.cans := by simp [applyAsk]

@[simp] theorem resetLane_cans (req : Requester) (arg : BitVec 24) (s : State) : (resetLane req arg s).cans = s.cans := by
  simp [resetLane, after_done, after_hold]

@[simp] theorem applyResetLane_cans (arg : BitVec 24) (s : State) : (applyResetLane arg s).after.cans = s.cans := by
  simp [applyResetLane, after_done]

@[simp] theorem forceResetCmd_cans (req : Requester) (arg : BitVec 24) (s : State) :
    (forceResetCmd req arg s).cans = s.cans := by simp [forceResetCmd, after_done]

@[simp] theorem safeBoundary_cans (s : State) : (safeBoundary s).cans = s.cans := by
  unfold safeBoundary
  split
  · extract_lets _ s0 _ s1 s2 _ s3
    have h0 : s0.cans = s.cans := by
      unfold s0
      split <;> rfl
    have h1 : s1.cans = s.cans := (cans_foldl _ applyAsk_cans _ _).trans h0
    have h2 : s2.cans = s.cans := by
      unfold s2
      split
      · split
        · exact (CmdEnd.cans_of 0x18 (applyResetLane_cans _ s1)).trans h1
        · exact h1
      · exact h1
    have h3 : s3.cans = s.cans := by
      unfold s3
      split
      · simp [h2]
      · exact h2
    simp [h3]
  · rfl

@[simp] theorem safeTick_cans (s : State) : (safeTick s).cans = s.cans := by simp [safeTick]

@[simp] theorem clearHdrs_cans (d : Nat) (s : State) : (clearHdrs d s).cans = s.cans := by simp [clearHdrs]

@[simp] theorem domEvent_cans (s : State) : (domEvent s).cans = s.cans := by simp [domEvent]

@[simp] theorem pd1Up_cans (s : State) : (pd1Up s).cans = s.cans := by simp [pd1Up]

/-! Ethernet, PTP and the host port. -/

@[simp] theorem updRing_cans (p q : Nat) (f : EthRing → EthRing) (s : State) : (updRing p q f s).cans = s.cans := by
  simp [updRing]

@[simp] theorem ethCount_cans (p j : Nat) (s : State) : (ethCount p j s).cans = s.cans := by simp [ethCount]

@[simp] theorem prpNote_cans (src : BitVec 48) (seq : Half) (s : State) : (prpNote src seq s).cans = s.cans := by
  simp [prpNote]

@[simp] theorem putWire_cans (p : Nat) (b : List Byte) (s : State) : (putWire p b s).cans = s.cans := by simp [putWire]

@[simp] theorem ethSend_cans (p : Nat) (b : List Byte) (s : State) : (ethSend p b s).cans = s.cans := by simp [ethSend]

@[simp] theorem ethCfgWrite_cans (p : Nat) (value : Word) (s : State) : (ethCfgWrite p value s).cans = s.cans := by
  simp [ethCfgWrite, apply_ite Prod.fst]

@[simp] theorem ethCtlWrite_cans (p q : Nat) (value : Word) (s : State) : (ethCtlWrite p q value s).cans = s.cans := by
  simp [ethCtlWrite]

@[simp] theorem ptpAsk_cans (op : Nat) (req : Requester) (arg : BitVec 24) (s : State) :
    (ptpAsk op req arg s).cans = s.cans := by simp [ptpAsk, after_done]

@[simp] theorem ptpBoundary_cans (s : State) : (ptpBoundary s).cans = s.cans := by simp [ptpBoundary]

@[simp] theorem ptpNowRead_cans (req : Requester) (s : State) : (ptpNowRead req s).1.cans = s.cans := by
  simp [ptpNowRead, apply_ite Prod.fst]

@[simp] theorem ptpValid_cans (v : Bool) (s : State) : (ptpValid v s).cans = s.cans := by
  unfold ptpValid
  dsimp only
  repeat' split
  all_goals simp

@[simp] theorem ptpCtlWrite_cans (value : Word) (s : State) : (ptpCtlWrite value s).cans = s.cans := by simp [ptpCtlWrite]

@[simp] theorem hostAnswer_cans (st : Byte) (s : State) : (hostAnswer st s).cans = s.cans := by simp [hostAnswer]

@[simp] theorem hostRefuse_cans (st : Byte) (s : State) : (hostRefuse st s).cans = s.cans := by simp [hostRefuse]

/-! The log store. -/

@[simp] theorem logEvent_cans (code p detail : Nat) (s : State) : (logEvent code p detail s).cans = s.cans := by
  simp [logEvent]

@[simp] theorem logFault_cans (p why : Nat) (s : State) : (logFault p why s).cans = s.cans := by simp [logFault]

@[simp] theorem sampleReady_cans (c : Nat) (m : Conversion) (s : State) : (sampleReady c m s).cans = s.cans := by
  simp [sampleReady]

@[simp] theorem appendLog_cans (req : Requester) (arg : BitVec 24) (s : State) : (appendLog req arg s).cans = s.cans := by
  simp [appendLog, after_done]

@[simp] theorem captureCmd_cans (req : Requester) (arg : BitVec 24) (s : State) : (captureCmd req arg s).cans = s.cans := by
  simp [captureCmd, after_done, after_hold]

@[simp] theorem logBoundary_cans (s : State) : (logBoundary s).cans = s.cans := by
  have h1 := cans_foldl (fun s c => updCap c (fun x => { x with cfgF := x.cfg }) s) (fun s c => updCap_cans c _ s) (List.range 8) s
  unfold logBoundary
  extract_lets s1
  split
  · exact (endIfRunning_cans _ _ _ _ _).trans ((cans_foldl _ (fun s c => capTrigger_cans c _ s) _ _).trans h1)
  · exact h1

@[simp] theorem wearJudge_cans (s : State) : (wearJudge s).cans = s.cans := by simp [wearJudge]

@[simp] theorem commitItems_cans (p n : Nat) (s : State) : (commitItems p n s).cans = s.cans := by
  unfold commitItems
  split <;> simp

@[simp] theorem discardPages_cans (p : Nat) (l : List (Word × Nat)) (s : State) : (discardPages p l s).cans = s.cans := by
  unfold discardPages
  split
  · rfl
  · exact (logEvent_cans _ _ _ _).trans (cans_foldl _ (fun s _ => updPart_cans p _ s) _ s)

@[simp] theorem archiveImage_cans (x : Bool × Nat) (s : State) : (archiveImage x s).cans = s.cans := by
  unfold archiveImage
  dsimp only
  repeat' split
  all_goals simp

/-! The panel. -/

@[simp] theorem panelEvent_cans (code k detail : Nat) (s : State) : (panelEvent code k detail s).cans = s.cans := by
  simp [panelEvent]

@[simp] theorem beginRun_cans (k : Nat) (r : Rect) (fast : Bool) (pix : List Byte) (s : State) :
    (beginRun k r fast pix s).cans = s.cans := by simp [beginRun]

@[simp] theorem panelUpdate_cans (req : Requester) (arg : BitVec 24) (s : State) : (panelUpdate req arg s).cans = s.cans := by
  simp [panelUpdate, after_done]

@[simp] theorem panelCancel_cans (req : Requester) (arg : BitVec 24) (s : State) : (panelCancel req arg s).cans = s.cans := by
  simp [panelCancel, after_done]

@[simp] theorem dropAllPend_cans (s : State) : (dropAllPend s).cans = s.cans := by simp [dropAllPend]

@[simp] theorem clearPanel_cans (req : Requester) (arg : BitVec 24) (s : State) : (clearPanel req arg s).cans = s.cans := by
  simp [clearPanel, after_done]

@[simp] theorem startWhole_cans (s : State) : (startWhole s).cans = s.cans := by simp [startWhole]

@[simp] theorem showRun_cans (r : PanelRun) (s : State) : (showRun r s).cans = s.cans := by simp [showRun]

@[simp] theorem areaDone_cans (k : Nat) (r : PanelRun) (s : State) : (areaDone k r s).cans = s.cans := by simp [areaDone]

@[simp] theorem wholeDone_cans (s : State) : (wholeDone s).cans = s.cans := by simp [wholeDone]

/-! The ICU. -/

@[simp] theorem icuArrive_cans (src : IcuId) (s : State) : (icuArrive src s).cans = s.cans := by
  unfold icuArrive
  split <;> simp

@[simp] theorem icuFresh_cans (s : State) : (icuFresh s).cans = s.cans := by simp [icuFresh]

@[simp] theorem icuSwi_cans (t : Fin 5) (value : Word) (s : State) : (icuSwi t value s).cans = s.cans := by simp [icuSwi]

@[simp] theorem icuClaim_cans (t : Nat) (s : State) : (icuClaim t s).cans = s.cans := by
  unfold icuClaim
  split <;> simp

@[simp] theorem icuSleep_cans (s : State) : (icuSleep s).cans = s.cans := by simp [icuSleep]

@[simp] theorem icuClaimRead_cans (req : Requester) (t : Fin 5) (s : State) : (icuClaimRead req t s).cans = s.cans := by
  simp [icuClaimRead]

@[simp] theorem icuPop_cans (t id : Nat) (s : State) : (icuPop t id s).cans = s.cans := by simp [icuPop]

@[simp] theorem icuReject_cans (t id : Nat) (s : State) : (icuReject t id s).cans = s.cans := by simp [icuReject]

@[simp] theorem icuEoi_cans (req : Requester) (t : Fin 5) (value : Word) (s : State) : (icuEoi req t value s).cans = s.cans := by
  simp [icuEoi, apply_ite Prod.fst]

@[simp] theorem icuTiersWrite_cans (hi : Bool) (value : Word) (s : State) : (icuTiersWrite hi value s).cans = s.cans := by
  simp [icuTiersWrite, apply_ite Prod.fst]

@[simp] theorem icuSrcCfgWrite_cans (req : Requester) (i : Fin 256) (value : Word) (s : State) :
    (icuSrcCfgWrite req i value s).cans = s.cans := by simp [icuSrcCfgWrite]

/-! Power and start-up. -/

@[simp] theorem sysEvent_cans (code detail : Nat) (s : State) : (sysEvent code detail s).cans = s.cans := by simp [sysEvent]

@[simp] theorem supEvent_cans (code detail : Nat) (s : State) : (supEvent code detail s).cans = s.cans := by simp [supEvent]

@[simp] theorem courseOff_cans (s : State) : (courseOff s).cans = s.cans := by simp [courseOff]

@[simp] theorem safetyOff_cans (s : State) : (safetyOff s).cans = s.cans := by simp [safetyOff]

@[simp] theorem tilesOff_cans (lo hi : Nat) (s : State) : (tilesOff lo hi s).cans = s.cans := by simp [tilesOff]

@[simp] theorem judgeJournal_cans (s : State) : (judgeJournal s).cans = s.cans := by simp [judgeJournal]

@[simp] theorem noImage_cans (s : State) : (noImage s).cans = s.cans := by simp [noImage]

@[simp] theorem bootLoad_cans (s : State) : (bootLoad s).cans = s.cans := by
  unfold bootLoad
  dsimp only
  repeat' split
  all_goals simp

@[simp] theorem fieldUp_cans (s : State) : (fieldUp s).cans = s.cans :=
  (cans_foldl _ (fun s k => updDig_cans k _ s) _ _).trans (cans_foldl _ (fun s k => loadPlanRegs_cans (80 + k) s) _ _)

@[simp] theorem tilesUp_cans (lo hi : Nat) (s : State) : (tilesUp lo hi s).cans = s.cans := by simp [tilesUp]

@[simp] theorem endSwitch_cans (s : State) : (endSwitch s).cans = s.cans := by
  unfold endSwitch
  split <;> simp

@[simp] theorem resetCmd_cans (req : Requester) (arg : BitVec 24) (s : State) : (resetCmd req arg s).cans = s.cans := by
  simp [resetCmd, after_done]

@[simp] theorem domainCmd_cans (on : Bool) (req : Requester) (arg : BitVec 24) (s : State) :
    (domainCmd on req arg s).cans = s.cans := by simp [domainCmd, after_done, after_hold]

@[simp] theorem clkDiscWrite_cans (value : Word) (s : State) : (clkDiscWrite value s).cans = s.cans := by simp [clkDiscWrite]

/-! The course. -/

@[simp] theorem faultCourse_cans (e : Nat) (cause : BitVec 2) (s : State) : (faultCourse e cause s).cans = s.cans := by
  simp [faultCourse]

@[simp] theorem courseOverrun_cans (s : State) : (courseOverrun s).cans = s.cans := by simp [courseOverrun]

@[simp] theorem endCourse_cans (s : State) : (endCourse s).cans = s.cans := by simp [endCourse]

@[simp] theorem sendSync_cans (s : State) : (sendSync s).cans = s.cans := by simp [sendSync]

@[simp] theorem wallEnd_cans (s : State) : (wallEnd s).cans = s.cans := by simp [wallEnd]

@[simp] theorem warmTick_cans (s : State) : (warmTick s).cans = s.cans := by simp [warmTick]

@[simp] theorem nextCourse_cans (s : State) : (nextCourse s).cans = s.cans := by simp [nextCourse]

@[simp] theorem showRestored_cans (src : List (Nat × Bool × Nat)) (s : State) : (showRestored src s).cans = s.cans := by
  refine cans_foldl _ (fun s x => ?_) _ s
  split <;> simp

@[simp] theorem completeUpdate_cans (n : Nat) (s : State) : (completeUpdate n s).cans = s.cans := by simp [completeUpdate]

@[simp] theorem stepDistrict_cans (n : Nat) (s : State) : (stepDistrict n s).cans = s.cans := by
  unfold stepDistrict
  split <;> simp

@[simp] theorem districtsBoundary_cans (s : State) : (districtsBoundary s).cans = s.cans := by simp [districtsBoundary]

@[simp] theorem takeSnapshot_cans (s : State) : (takeSnapshot s).cans = s.cans := by simp [takeSnapshot]

@[simp] theorem takeRegs_cans (s : State) : (takeRegs s).cans = s.cans := by simp [takeRegs]

@[simp] theorem clearRose_cans (s : State) : (clearRose s).cans = s.cans := by simp [clearRose]

@[simp] theorem recordsBoundary_cans (s : State) : (recordsBoundary s).cans = s.cans := by simp [recordsBoundary]

/-! Accesses by address. -/

@[simp] theorem icuRegWrite_cans (req : Requester) (off : Nat) (v : Word) (s : State) :
    (icuRegWrite req off v s).cans = s.cans := by simp [icuRegWrite]

@[simp] theorem icuTargetWrite_cans (req : Requester) (t off : Nat) (v : Word) (s : State) :
    (icuTargetWrite req t off v s).cans = s.cans := by simp [icuTargetWrite]

@[simp] theorem planRegWrite_cans (off : Nat) (v : Word) (s : State) : (planRegWrite off v s).cans = s.cans := by
  unfold planRegWrite
  split <;> simp

@[simp] theorem alarmRegWrite_cans (req : Requester) (off : Nat) (v : Word) (s : State) :
    (alarmRegWrite req off v s).cans = s.cans := by simp [alarmRegWrite]

@[simp] theorem evqRegWrite_cans (req : Requester) (off : Nat) (v : Word) (s : State) :
    (evqRegWrite req off v s).cans = s.cans := by
  unfold evqRegWrite
  dsimp only
  repeat' split
  all_goals simp

@[simp] theorem safeRegWrite_cans (req : Requester) (off : Nat) (v : Word) (s : State) :
    (safeRegWrite req off v s).cans = s.cans := by
  unfold safeRegWrite
  split <;> simp

@[simp] theorem redRegWrite_cans (off : Nat) (v : Word) (s : State) : (redRegWrite off v s).cans = s.cans := by
  unfold redRegWrite
  split <;> simp

@[simp] theorem utRegWrite_cans (t off : Nat) (v : Word) (s : State) : (utRegWrite t off v s).cans = s.cans := by
  unfold utRegWrite
  split
  · dsimp only
    split <;> simp
  · rfl

@[simp] theorem ltRegWrite_cans (t off : Nat) (v : Word) (s : State) : (ltRegWrite t off v s).cans = s.cans := by
  unfold ltRegWrite
  split
  · dsimp only
    split <;> simp
  · rfl

@[simp] theorem calRegWrite_cans (off : Nat) (v : Word) (s : State) : (calRegWrite off v s).cans = s.cans := by
  unfold calRegWrite
  split <;> simp

@[simp] theorem hartRegWrite_cans (off : Nat) (v : Word) (s : State) : (hartRegWrite off v s).cans = s.cans := by
  unfold hartRegWrite
  dsimp only
  repeat' split
  all_goals simp

@[simp] theorem dioRegWrite_cans (off : Nat) (v : Word) (s : State) : (dioRegWrite off v s).cans = s.cans := by
  unfold dioRegWrite
  split
  · dsimp only
    split <;> simp
  · rfl

@[simp] theorem diRegWrite_cans (off : Nat) (v : Word) (s : State) : (diRegWrite off v s).cans = s.cans := by
  unfold diRegWrite
  split
  · dsimp only
    split <;> simp
  · rfl

@[simp] theorem ethRegWrite_cans (p off : Nat) (v : Word) (s : State) : (ethRegWrite p off v s).cans = s.cans := by
  unfold ethRegWrite
  split
  · simp
  · split
    · simp
    · split
      · dsimp only
        split <;> simp
      · rfl

@[simp] theorem ptpRegWrite_cans (off : Nat) (v : Word) (s : State) : (ptpRegWrite off v s).cans = s.cans := by
  unfold ptpRegWrite
  split <;> simp

@[simp] theorem logRegWrite_cans (off : Nat) (v : Word) (s : State) : (logRegWrite off v s).cans = s.cans := by
  unfold logRegWrite
  extract_lets set
  split
  · simp
  · split <;> simp [set]

@[simp] theorem panelRegWrite_cans (off : Nat) (v : Word) (s : State) : (panelRegWrite off v s).cans = s.cans := by
  unfold panelRegWrite
  split <;> simp

@[simp] theorem droppedWrite_cans (a : Nat) (s : State) : (droppedWrite a s).cans = s.cans := by
  unfold droppedWrite
  split <;> simp

@[simp] theorem pageRead_cans (req : Requester) (p off : Nat) (s : State) : (pageRead req p off s).1.cans = s.cans := by
  unfold pageRead
  dsimp only
  repeat' split
  all_goals simp

@[simp] theorem windowReadAt_cans (req : Requester) (a : Nat) (s : State) : (windowReadAt req a s).1.cans = s.cans := by
  unfold windowReadAt
  split
  · rfl
  · simp [apply_ite Prod.fst]

@[simp] theorem memLoad_cans (req : Requester) (a size : Nat) (s : State) : (memLoad req a size s).1.cans = s.cans := by
  simp [memLoad, apply_ite Prod.fst]

@[simp] theorem pageReadAt_cans (req : Requester) (a : Nat) (s : State) : (pageReadAt req a s).1.cans = s.cans := by
  simp [pageReadAt]

@[simp] theorem busRead_cans (req : Requester) (a size : Nat) (s : State) : (busRead req a size s).1.cans = s.cans := by
  simp [busRead, apply_ite Prod.fst]

@[simp] theorem hostCrcError_cans (s : State) : (hostCrcError s).cans = s.cans := by simp [hostCrcError]

@[simp] theorem hostSelect_cans (usb low : Bool) (s : State) : (hostSelect usb low s).cans = s.cans := by simp [hostSelect]

/-! The pair. -/

@[simp] theorem raiseClaim_cans (e : Half) (s : State) : (raiseClaim e s).cans = s.cans := by simp [raiseClaim]

@[simp] theorem takeOver_cans (c : Nat) (s : State) : (takeOver c s).cans = s.cans := by simp [takeOver]

@[simp] theorem loadSync_cans (s : State) : (loadSync s).cans = s.cans := by
  unfold loadSync
  split <;> simp

@[simp] theorem peerShows_cans (c : Half) (s : State) : (peerShows c s).cans = s.cans := by simp [peerShows]

/-! Steps of a plan. -/

@[simp] theorem startPlan_cans (b : Bool) (k : Nat) (src : List (Nat × Bool × Nat)) (s : State) :
    (startPlan b k src s).cans = s.cans := by
  unfold startPlan
  dsimp only
  rw [claimConfig_cans, tripUpdate_cans, hartNoTurn_cans, reloadAll_cans, cans_foldl _ (fun s m => updModem_cans m _ s),
    freshStamps_cans, cans_ite, initCall_cans, ite_self]

/-! Power and start-up. -/

@[simp] theorem panelStart_cans (trim : Bool) (s : State) : (panelStart trim s).cans = s.cans := by
  unfold panelStart
  extract_lets
  simp +zetaDelta

@[simp] theorem domainUp_cans (d : Nat) (trim : Bool) (s : State) : (domainUp d trim s).cans = s.cans := by
  unfold domainUp
  extract_lets _ on s1
  have h1 : s1.cans = on.cans := by
    unfold s1
    split
    · exact pd1Up_cans on
    · exact icuFresh_cans on
    · exact bootLoad_cans on
    · exact tilesUp_cans 0 4 on
    · exact tilesUp_cans 4 10 on
    · exact fieldUp_cans on
    · exact panelStart_cans trim on
    · rfl
  exact (domEvent_cans s1).trans h1

end Sys2Proof.Machine
end


section
/-! The message RAMs of the CAN controllers stay canonical under every command (R374; log entry 6): with `exec_sound`, which
speaks of the other byte memories, a step keeps them all. -/

namespace Sys2Proof.Machine

/-- The message RAM of every CAN controller is in canonical form. -/
def RamsCanon (t : Tab CanBlk) : Prop := ∀ n, (t.get {} n).ram.wf 0 = true

/-- Canonical message RAMs of `s` are canonical in `t`. -/
structure KeepsRams (s t : State) : Prop where
  canon : RamsCanon s.cans → RamsCanon t.cans

theorem KeepsRams.of_cans {s t : State} (h : t.cans = s.cans) : KeepsRams s t := ⟨fun hs => h ▸ hs⟩

theorem KeepsRams.refl (s : State) : KeepsRams s s := ⟨id⟩

theorem KeepsRams.trans {s t u : State} (h : KeepsRams s t) (k : KeepsRams t u) : KeepsRams s u := ⟨k.canon ∘ h.canon⟩

/-- An operation that leaves the controllers alone comes last. -/
theorem KeepsRams.then_cans {s t u : State} (h : KeepsRams s t) (k : u.cans = t.cans) : KeepsRams s u := h.trans (.of_cans k)

/-- An operation that leaves the controllers alone comes first. -/
theorem KeepsRams.after_cans {s t u : State} (h : t.cans = s.cans) (k : KeepsRams t u) : KeepsRams s u :=
  (KeepsRams.of_cans h).trans k

theorem KeepsRams.ite {c : Prop} [Decidable c] {s t u : State} (ht : c → KeepsRams s t) (hu : ¬ c → KeepsRams s u) :
    KeepsRams s (if c then t else u) := by
  split
  · exact ht ‹c›
  · exact hu ‹¬ c›

theorem KeepsRams.foldl {α : Type} {g : State → α → State} (h : ∀ s x, KeepsRams s (g s x)) (l : List α) (s : State) :
    KeepsRams s (l.foldl g s) :=
  List.foldlRecOn (motive := KeepsRams s) l g (.refl s) fun _ ht x _ => ht.trans (h _ x)

/-! A controller's own message RAM. -/

theorem canRamSet_wf (a : Nat) (l : List Byte) {c : CanBlk} (h : c.ram.wf 0 = true) : (canRamSet a l c).ram.wf 0 = true :=
  Mem.writeN_wf l a h

theorem setSb_wf (b st : Nat) {c : CanBlk} (h : c.ram.wf 0 = true) : (setSb b st c).ram.wf 0 = true := canRamSet_wf _ _ h

theorem setQueue_ram (k : Nat) (q : CanQueue) (c : CanBlk) : (setQueue k q c).ram = c.ram := by
  unfold setQueue
  split <;> rfl

theorem setQueue_wf (k : Nat) (q : CanQueue) {c : CanBlk} (h : c.ram.wf 0 = true) : (setQueue k q c).ram.wf 0 = true :=
  (setQueue_ram k q c).symm ▸ h

theorem sendBox_wf (b : Nat) {c : CanBlk} (h : c.ram.wf 0 = true) : (sendBox c b).ram.wf 0 = true := by
  unfold sendBox
  split
  · exact h
  · split
    · exact setSb_wf _ _ h
    · split
      · exact setSb_wf _ _ h
      · exact setSb_wf (c := { c with pend := setBit c.pend b true }) _ _ h

theorem foldl_wf {f : CanBlk → Nat → CanBlk} (h : ∀ c b, c.ram.wf 0 = true → (f c b).ram.wf 0 = true) (l : List Nat)
    {c : CanBlk} (hc : c.ram.wf 0 = true) : (l.foldl f c).ram.wf 0 = true :=
  List.foldlRecOn (motive := fun c => c.ram.wf 0 = true) l f hc fun _ hb x _ => h _ x hb

theorem updCan_keeps {n : Nat} {f : CanBlk → CanBlk} (h : ∀ c, c.ram.wf 0 = true → (f c).ram.wf 0 = true) {s : State} :
    KeepsRams s (updCan n f s) := by
  refine ⟨fun hs k => ?_⟩
  change (Tab.get (s.cans.upd {} n f) {} k).ram.wf 0 = true
  rw [Tab.get_upd]
  split
  · exact h _ (hs n)
  · exact hs k

/-- An update of a controller's registers. -/
theorem updCan_keeps_of_ram {n : Nat} {f : CanBlk → CanBlk} {s : State} (h : ∀ c, (f c).ram = c.ram := by intro _; rfl) :
    KeepsRams s (updCan n f s) := updCan_keeps (fun c hc => (h c).symm ▸ hc)

@[simp] theorem canSticky_cans (n bit : Nat) (s : State) : (canSticky n bit s).cans = s.cans := rfl

/-- An update of a controller with its sticky bit. -/
theorem stickyUpd_keeps {n m bit : Nat} {f : CanBlk → CanBlk} (h : ∀ c, c.ram.wf 0 = true → (f c).ram.wf 0 = true) {s : State} :
    KeepsRams s (canSticky m bit (updCan n f s)) := (updCan_keeps h).then_cans (canSticky_cans _ _ _)

/-- An update of a controller's registers with its sticky bit and an event. -/
theorem eventUpd_keeps {n m bit page code data : Nat} {f : CanBlk → CanBlk} {s : State}
    (h : ∀ c, (f c).ram = c.ram := by intro _; rfl) :
    KeepsRams s (blockEv page code data (canSticky m bit (updCan n f s))) :=
  (updCan_keeps_of_ram h).then_cans ((blockEv_cans _ _ _ _).trans (canSticky_cans _ _ _))

theorem cansReset_canon (s : State) : RamsCanon (cansReset s) := by
  intro n
  unfold cansReset
  rw [Tab.get_map s.cans (fun c => { cfg := c.cfg &&& 0x02000000 })]
  cases Tab.find s.cans.cells n <;> rfl

/-! Writes of a page. -/

theorem pageWrite_keeps {apply : State → State} (h : ∀ s, KeepsRams s (apply s)) (p : Nat) (s : State) :
    KeepsRams s (pageWrite p apply s) := by
  unfold pageWrite
  split
  · exact .refl s
  · exact .ite (fun _ => (h s).then_cans (countWrite_cans _ _)) fun _ => .of_cans (offAccess_cans _ s)

theorem pageWriteIf_keeps {apply : State → State × Bool} (h : ∀ s, KeepsRams s (apply s).1) (p : Nat) (s : State) :
    KeepsRams s (pageWriteIf p apply s) := by
  unfold pageWriteIf
  split
  · exact .refl s
  · refine .ite (fun _ => ?_) fun _ => .of_cans (offAccess_cans _ s)
    have hs := h s
    split <;> rename_i e <;> rw [e] at hs
    · exact hs.then_cans (countWrite_cans _ _)
    · exact hs

/-! The operations of the controllers. -/

theorem canState_keeps (n : Nat) (st : BitVec 2) (s : State) : KeepsRams s (canState n st s) := by
  unfold canState
  split
  · exact .refl s
  · exact eventUpd_keeps

theorem canJudge_keeps (n : Nat) (s : State) : KeepsRams s (canJudge n s) := canState_keeps _ _ s

theorem canEndAll_keeps (n : Nat) (s : State) : KeepsRams s (canEndAll n s) := by
  unfold canEndAll
  extract_lets c bs
  refine .ite (fun _ => .refl s) fun _ => ?_
  refine stickyUpd_keeps fun _ h => ?_
  exact foldl_wf (fun _ b hc => setSb_wf b 6 hc) _ h

theorem canGates_keeps (takeover : Bool) (s : State) : KeepsRams s (canGates takeover s) := by
  unfold canGates
  refine .ite (fun _ => .foldl (fun s n => ?_) _ s) fun _ => .refl s
  extract_lets g s1
  refine .ite (fun _ => .refl s) fun _ => ?_
  have h1 : KeepsRams s s1 := eventUpd_keeps
  exact .ite (fun _ => h1) fun _ => h1.trans (canEndAll_keeps n s1)

theorem storeBox_keeps (n b : Nat) (f : CanFrame) (s : State) : KeepsRams s (storeBox n b f s) :=
  stickyUpd_keeps (fun c h => canRamSet_wf (c := { c with nd := setBit c.nd b true }) _ _ h)

theorem queueAppend_keeps (n k : Nat) (f : CanFrame) (s : State) : KeepsRams s (queueAppend n k f s) :=
  stickyUpd_keeps (fun _ h => canRamSet_wf _ _ (setQueue_wf k _ h))

theorem updQueue_keeps (n k : Nat) (q : CanQueue) (s : State) : KeepsRams s (updCan n (setQueue k q) s) :=
  updCan_keeps_of_ram (setQueue_ram k q)

theorem storeQueue_keeps (n k : Nat) (f : CanFrame) (s : State) : KeepsRams s (storeQueue n k f s) := by
  unfold storeQueue
  extract_lets c q len s1
  have h1 : KeepsRams s s1 := stickyUpd_keeps (fun _ => setQueue_wf k _)
  exact .ite (fun _ => queueAppend_keeps n k f s) fun _ =>
    .ite (fun _ => (h1.trans (updQueue_keeps n k _ s1)).trans (queueAppend_keeps n k f _)) fun _ => h1

theorem canFree_keeps (n k : Nat) (v : Word) (s : State) : KeepsRams s (canFree n k v s) := by
  refine pageWriteIf_keeps (fun s => ?_) _ s
  dsimp only
  split
  · exact updQueue_keeps n k _ s
  · exact .refl s

theorem canSend_keeps (n : Nat) (v : Word) (s : State) : KeepsRams s (canSend n v s) :=
  pageWrite_keeps (fun _ => updCan_keeps fun _ h => foldl_wf (fun _ b hc => sendBox_wf b hc) _ h) _ s

theorem endBox_keeps (n b st : Nat) (s : State) : KeepsRams s (endBox n b st s) :=
  stickyUpd_keeps (fun c h => setSb_wf (c := { c with
    pend := setBit c.pend b false, late := if c.late = some b then none else c.late }) b st h)

theorem canWithdraw_keeps (n : Nat) (v : Word) (s : State) : KeepsRams s (canWithdraw n v s) := by
  refine pageWrite_keeps (fun s => ?_) _ s
  extract_lets c started
  exact KeepsRams.after_cans (t := { s with free := s.free + 1 }) rfl (.foldl (fun s b =>
    .ite (fun _ => updCan_keeps_of_ram) fun _ => endBox_keeps n b 3 s) _ _)

theorem canCfgWrite_keeps (n : Nat) (reg : Fin 3) (v : Word) (s : State) : KeepsRams s (canCfgWrite n reg v s) := by
  refine pageWriteIf_keeps (fun s => ?_) _ s
  extract_lets ok
  split
  · refine updCan_keeps_of_ram fun c => ?_
    split <;> rfl
  · exact .of_cans (setSticky_cans _ _ s)

theorem canEnWrite_keeps (n : Nat) (v : Word) (s : State) : KeepsRams s (canEnWrite n v s) := by
  refine pageWrite_keeps (fun s => ?_) _ s
  extract_lets was s1
  have h1 : KeepsRams s s1 := updCan_keeps_of_ram
  exact .ite (fun _ => (h1.trans (canEndAll_keeps n s1)).trans (canState_keeps n 3 _)) fun _ =>
    .ite (fun _ => (h1.trans updCan_keeps_of_ram).trans (canState_keeps n 0 _)) fun _ => h1

theorem canRamWrite_keeps (n w : Nat) (v : Word) (s : State) : KeepsRams s (canRamWrite n w v s) :=
  .ite (fun _ => .ite (fun _ => .of_cans (setSticky_cans _ _ s)) fun _ => updCan_keeps fun _ h => canRamSet_wf _ _ h)
    fun _ => .of_cans (offAccess_cans 7 s)

theorem setField_updCan_keeps {n : Nat} {f : CanBlk → CanBlk} {s : State} (h : ∀ c, (f c).ram = c.ram := by intro _; rfl) :
    KeepsRams s (setField (canPage n) (updCan n f) s) := pageWrite_keeps (fun _ => updCan_keeps_of_ram h) _ s

theorem canRegWrite_keeps (n off : Nat) (v : Word) (s : State) : KeepsRams s (canRegWrite n off v s) := by
  unfold canRegWrite
  split
  exacts [canEnWrite_keeps n v s, canCfgWrite_keeps n 2 v s, canCfgWrite_keeps n 0 v s, canCfgWrite_keeps n 1 v s,
    canSend_keeps n v s, canWithdraw_keeps n v s, setField_updCan_keeps,
    setField_updCan_keeps, setField_updCan_keeps,
    setField_updCan_keeps, canFree_keeps n 0 v s, setField_updCan_keeps,
    setField_updCan_keeps, canFree_keeps n 1 v s, setField_updCan_keeps,
    setField_updCan_keeps, .refl s]

/-! Claims and gates. -/

theorem gatesOpen_keeps (s : State) : KeepsRams s (gatesOpen s) :=
  .ite (fun _ => .after_cans (by simp) (canGates_keeps false _)) fun _ => .of_cans rfl

theorem dropClaim_keeps (s : State) : KeepsRams s (dropClaim s) := by
  refine KeepsRams.then_cans (.after_cans ?_ (gatesOpen_keeps _)) (endIfRunning_cans _ _ _ _ _)
  rfl

theorem becomeStandby_keeps (s : State) : KeepsRams s (becomeStandby s) := (dropClaim_keeps s).then_cans rfl

theorem becomeIdle_keeps (s : State) : KeepsRams s (becomeIdle s) := (dropClaim_keeps s).then_cans rfl

theorem yieldNow_keeps (c : BitVec 3) (s : State) : KeepsRams s (yieldNow c s) :=
  (becomeStandby_keeps s).then_cans (redEvent_cans _ _ _)

theorem roleConflict_keeps (p : Role) (s : State) : KeepsRams s (roleConflict p s) := by
  refine .ite (fun _ => .refl s) fun _ => .then_cans (.after_cans ?_ (becomeIdle_keeps _)) (redEvent_cans _ _ _)
  rfl

theorem gatesClose_keeps (s : State) : KeepsRams s (gatesClose s) := by
  unfold gatesClose
  extract_lets take _ s1 _ s2 s3
  have h3 : s3.cans = s.cans := by
    dsimp only [s3]
    split <;> simp [s2, s1]
  clear_value s3
  exact .ite (fun _ => .after_cans (by simp [h3]) (canGates_keeps true _)) fun _ =>
    .after_cans (by simp [s1]) (canGates_keeps false _)

theorem peerClaim_keeps (c : Half) (s : State) : KeepsRams s (peerClaim c s) := by
  unfold peerClaim
  extract_lets s2
  have h2 : KeepsRams s s2 := .of_cans (peerShows_cans c s)
  clear_value s2
  exact .ite (fun _ => (h2.trans (becomeStandby_keeps s2)).then_cans (redEvent_cans _ _ _)) fun _ =>
    .ite (fun _ => .ite (fun _ => h2.trans (becomeStandby_keeps s2)) fun _ => h2.trans (gatesOpen_keeps s2)) fun _ =>
    .ite (fun _ => h2.trans (becomeStandby_keeps s2)) fun _ => h2

theorem yieldBoundary_keeps (s : State) : KeepsRams s (yieldBoundary s) := by
  unfold yieldBoundary
  split
  · exact .ite (fun _ => .after_cans (endIfRunning_cans _ _ _ _ _) (yieldNow_keeps _ _)) fun _ => .of_cans rfl
  · exact .refl s

theorem stopBoundary_keeps (s : State) : KeepsRams s (stopBoundary s) := by
  unfold stopBoundary
  split
  · extract_lets _ _ _ _ s1
    have h1 : s1.cans = s.cans := rfl
    exact .ite (fun _ => .after_cans h1 (becomeIdle_keeps s1)) fun _ => .of_cans h1
  · exact .refl s

theorem pd1Hold_keeps (c : Nat) (s : State) : KeepsRams s (pd1Hold c s) := by
  unfold pd1Hold
  extract_lets _ s0 s1 _ _ _ _ s2
  have h0 : s0.cans = s.cans := by
    dsimp only [s0]
    split <;> rfl
  have h1 : KeepsRams s0 s1 := .ite (fun _ => becomeStandby_keeps s0) fun _ => becomeIdle_keeps s0
  exact (KeepsRams.after_cans h0 h1).then_cans (domEvent_cans _)

@[simp] theorem startElection_cans (s : State) : (startElection s).cans = s.cans := by
  unfold startElection
  simp

/-! Domains, resets and the start-up. -/

theorem powerless_keeps (s : State) : KeepsRams s (powerless s) := ⟨fun _ => cansReset_canon s⟩

theorem domainDown_keeps (d : Nat) (s : State) : KeepsRams s (domainDown d s) := by
  unfold domainDown
  refine KeepsRams.then_cans ?_ (domEvent_cans _)
  split
  · refine .of_cans ((safetyOff_cans _).trans ?_)
    dsimp only
    split <;> rfl
  · exact .of_cans rfl
  · exact .of_cans (courseOff_cans _)
  · exact .of_cans (tilesOff_cans _ _ _)
  · exact .of_cans (tilesOff_cans _ _ _)
  · refine .after_cans ?_ (gatesOpen_keeps _)
    rfl
  · exact ⟨fun _ => cansReset_canon _⟩
  · exact .of_cans rfl

theorem shed_keeps (l : List Nat) (s : State) : KeepsRams s (shed l s) :=
  .foldl (fun s d => .ite (fun _ => domainDown_keeps d s) fun _ => .refl s) l s

@[simp] theorem startDomains_cans (trim : Bool) (s : State) : (startDomains trim s).cans = s.cans :=
  cans_foldl _ (fun s d => domainUp_cans d trim s) _ s

@[simp] theorem startRefs_cans (refs trim : Bool) (s : State) : (startRefs refs trim s).cans = s.cans := by
  unfold startRefs
  rw [cans_ite, startDomains_cans, ite_self]

theorem nodeReset_keeps (cause : Nat) (refs trim : Bool) (s : State) : KeepsRams s (nodeReset cause refs trim s) := by
  unfold nodeReset
  extract_lets s1 _ _ _ _ s2
  have h2 : KeepsRams s s2 :=
    (KeepsRams.after_cans (endSwitch_cans s) ((becomeIdle_keeps _).trans (shed_keeps _ _))).then_cans rfl
  exact .ite (fun _ => h2.then_cans (startRefs_cans refs trim s2)) fun _ => h2.then_cans rfl

theorem resetBoundary_keeps (refs trim : Bool) (s : State) : KeepsRams s (resetBoundary refs trim s) := by
  unfold resetBoundary
  split
  · exact nodeReset_keeps _ refs trim s
  · exact .refl s

@[simp] theorem startupBoundary_cans (s : State) : (startupBoundary s).cans = s.cans := by
  unfold startupBoundary
  simp

/-! The boundary. -/

@[simp] theorem startBoundary_cans (s : State) : (startBoundary s).cans = s.cans := by
  unfold startBoundary
  split
  · simp
  · rfl

@[simp] theorem clockBoundary_cans (s : State) : (clockBoundary s).cans = s.cans := by
  unfold clockBoundary clockMove
  simp

theorem beginCourse_keeps (s : State) : KeepsRams s (beginCourse s) := by
  unfold beginCourse
  extract_lets _ s0 s1 s2 s3 s4 s5
  have h0 : KeepsRams s s0 := .of_cans rfl
  have h1 : KeepsRams s0 s1 :=
    (KeepsRams.after_cans ((pairCounts_cans _ _).trans (evqDrain_cans s0))
      ((yieldBoundary_keeps _).trans (stopBoundary_keeps _))).then_cans (startBoundary_cans _)
  refine (h0.trans h1).then_cans ?_
  simp [s5, s4, s3, s2]

theorem courseBoundary_keeps (refs trim : Bool) (s : State) : KeepsRams s (courseBoundary refs trim s) := by
  unfold courseBoundary
  extract_lets s0 s1
  have h0 : s0.cans = s.cans := safeTick_cans s
  have h1 : KeepsRams s s1 := by
    refine .ite (fun _ => .after_cans ?_ (beginCourse_keeps _)) fun _ => .of_cans ?_
    · simp [h0]
    · simp [h0]
  clear_value s1
  exact (h1.then_cans ((startupBoundary_cans _).trans (daysBoundary_cans s1))).trans (resetBoundary_keeps refs trim _)

/-! Accesses by address (R16 to R27). -/

theorem regWrite_keeps (req : Requester) (p off : Nat) (v : Word) (s : State) : KeepsRams s (regWrite req p off v s) := by
  by_cases h : 0x38 ≤ p ∧ p < 0x3C
  · have hp : p = 0x38 ∨ p = 0x39 ∨ p = 0x3A ∨ p = 0x3B := by omega
    have hc : regWrite req p off v s = canRegWrite (p - 0x38) off v s := by obtain rfl | rfl | rfl | rfl := hp <;> rfl
    exact hc ▸ canRegWrite_keeps _ _ _ _
  · refine .of_cans ?_
    unfold regWrite
    simp [if_neg h]

@[simp] theorem ramWrite_cans (a : Nat) (l : List Byte) (s : State) : (ramWrite a l s).cans = s.cans := rfl

@[simp] theorem dmaWrite_cans (a : Nat) (l : List Byte) (s : State) : (dmaWrite a l s).cans = s.cans := by
  unfold dmaWrite
  rw [cans_ite, ramWrite_cans, ite_self]

@[simp] theorem memStore_cans (req : Requester) (a : Nat) (l : List Byte) (s : State) : (memStore req a l s).cans = s.cans := by
  unfold memStore
  simp only [cans_ite, ramWrite_cans]
  split
  · split
    · split <;> rfl
    · rw [ite_self]
  · rfl

@[simp] theorem coreReset_cans (req : Requester) (arg : BitVec 24) (s : State) : (coreReset req arg s).cans = s.cans := by
  refine issueCmd_cans _ _ _ _ _ s fun s => ?_
  extract_lets m
  split
  · rfl
  · exact (sysEvent_cans _ _ _).trans (cans_foldl _ (by intro _ _; rfl) _ s)

@[simp] theorem readLog_cans (req : Requester) (arg : BitVec 24) (bad : Option Word) (s : State) :
    (readLog req arg bad s).cans = s.cans := by
  refine issueCmd_cans _ _ _ _ _ s fun s => ?_
  extract_lets p a
  split
  · rfl
  · split
    · rfl
    · split
      · exact logFault_cans _ _ _
      · rfl

theorem cans_choice {c : Prop} [Decidable c] {s t u : State} (pos : c → t.cans = s.cans) (neg : ¬ c → u.cans = s.cans) :
    (if c then t else u).cans = s.cans := by
  split
  · exact pos ‹c›
  · exact neg ‹¬ c›

@[simp] theorem commandWrite_cans (req : Requester) (p op : Nat) (arg : BitVec 24) (s : State) :
    (commandWrite req p op arg s).cans = s.cans := by
  unfold commandWrite
  extract_lets bad
  have hbad : bad.cans = s.cans := issueCmd_cans _ _ _ _ _ s fun _ => rfl
  clear_value bad
  refine cans_choice (fun _ => ?_) fun _ => cans_choice (fun _ => ?_) fun _ => cans_choice (fun _ => ?_) fun _ =>
    cans_choice (fun _ => ?_) fun _ => cans_choice (fun _ => ?_) fun _ => cans_choice (fun _ => ?_) fun _ =>
    cans_choice (fun _ => ?_) fun _ => cans_choice (fun _ => ?_) fun _ => cans_choice (fun _ => ?_) fun _ =>
    cans_choice (fun _ => ?_) fun _ => cans_choice (fun _ => ?_) fun _ => cans_choice (fun _ => ?_) fun _ =>
    cans_choice (fun _ => ?_) fun _ => cans_choice (fun _ => ?_) fun _ => cans_choice (fun _ => ?_) fun _ => hbad
  all_goals repeat' split
  all_goals simp [hbad]

@[simp] theorem hdrWrite_cans (req : Requester) (p off : Nat) (v : Word) (s : State) : (hdrWrite req p off v s).cans = s.cans := by
  unfold hdrWrite
  split
  · exact setField_cans _ _ s fun _ => rfl
  · exact setField_cans _ _ s fun _ => rfl
  · exact setField_cans _ _ s fun _ => rfl
  · exact commandWrite_cans _ _ _ _ s
  · rfl

theorem pageAccess_keeps (req : Requester) (p off : Nat) (v : Word) (s : State) : KeepsRams s (pageAccess req p off v s) := by
  unfold pageAccess
  split
  · exact .refl s
  · exact .ite (fun _ => .ite (fun _ => .of_cans (accessViolation_cans _ _ _ _ s)) fun _ =>
        .ite (fun _ => .of_cans (hdrWrite_cans _ _ _ _ s)) fun _ => regWrite_keeps _ _ _ _ s)
      fun _ => .of_cans (offAccess_cans _ s)

theorem windowAccess_keeps (a : Nat) (v : Word) (s : State) : KeepsRams s (windowAccess a v s) := by
  unfold windowAccess
  split
  · exact .refl s
  · exact .ite (fun _ => .ite (fun _ => .of_cans (windowWrite_cans s)) fun _ =>
        .ite (fun _ => canRamWrite_keeps _ _ _ s) fun _ => .ite (fun _ => .of_cans rfl) fun _ => .refl s)
      fun _ => .of_cans (offAccess_cans _ s)

theorem busWrite_keeps (req : Requester) (a size : Nat) (v : Word) (s : State) : KeepsRams s (busWrite req a size v s) := by
  unfold busWrite
  exact .ite
    (fun _ => .ite (fun _ => .ite (fun _ => pageAccess_keeps _ _ _ _ s) fun _ => windowAccess_keeps _ _ s)
      fun _ => .of_cans (droppedWrite_cans _ s))
    fun _ => .of_cans (memStore_cans _ _ _ s)

theorem writeWords_keeps (a : Nat) (l : List Word) (s : State) : KeepsRams s (writeWords a l s) := by
  induction l generalizing a s with
  | nil => exact .refl s
  | cons w r ih => exact (busWrite_keeps _ _ _ _ s).trans (ih _ _)

@[simp] theorem readWords_cans (a n : Nat) (s : State) : (readWords a n s).1.cans = s.cans := by
  induction n generalizing a s with
  | zero => rfl
  | succ n ih => exact (ih _ _).trans (busRead_cans _ _ _ s)

/-! The host port (R381 to R384). -/

@[simp] theorem hostReadNow_cans (usb : Bool) (command : Byte) (addr : Word) (s : State) :
    (hostReadNow usb command addr s).cans = s.cans := by
  unfold hostReadNow
  extract_lets r
  exact (hostSelect_cans _ _ _).trans ((readWords_cans _ _ _).trans (hostSelect_cans _ _ s))

@[simp] theorem hostResume_cans (s : State) : (hostResume s).cans = s.cans :=
  cans_foldl _ (fun s _ => hostReadNow_cans _ _ _ s) _ _

theorem hostTransaction_keeps (usb : Bool) (command : Byte) (addr : Word) (sent : List Byte) (crc : Byte) (kind : Nat)
    (run : State → State) (s : State) (h : KeepsRams s (run s)) :
    KeepsRams s (hostTransaction usb command addr sent crc kind run s) := by
  unfold hostTransaction
  exact .ite (fun _ => .ite (fun _ => .of_cans (hostCrcError_cans s)) fun _ =>
    .ite (fun _ => .of_cans (hostRefuse_cans _ s)) fun _ => h) fun _ => .refl s

/-! Slot words, the frames of the Ethernet ports and NOR. -/

theorem slotWord_cans (e cls : Nat) (own : Option (Nat × Nat)) (w : SlotWord) (f : State → State) (s : State)
    (h : ∀ s, (f s).cans = s.cans) : (slotWord e cls own w f s).cans = s.cans := by
  unfold slotWord
  rw [cans_ite, tick_cans, h, ite_self]

@[simp] theorem norDone_cans (ok : Bool) (s : State) : (norDone ok s).cans = s.cans := by
  unfold norDone
  split
  · rfl
  · exact planEvent_cans _ _ _ _ _

@[simp] theorem ethDeliver_cans (p q : Nat) (lanB : Bool) (full : List Byte) (s : State) :
    (ethDeliver p q lanB full s).cans = s.cans := by
  unfold ethDeliver
  simp

@[simp] theorem ethAccept_cans (p on : Nat) (b : List Byte) (s : State) : (ethAccept p on b s).cans = s.cans := by
  unfold ethAccept
  dsimp only
  repeat' split
  all_goals simp

end Sys2Proof.Machine
end


section
/-! Every command keeps the message RAMs canonical, and with them a step all byte memories (R374; log entry 6). -/

namespace Sys2Proof.Machine

/-- `o` goes on to a state whose message RAMs are canonical if they were before. -/
def GoesOn (s : State) (o : Out) : Prop := ∃ t, o = .next t ∧ KeepsRams s t

theorem GoesOn.of_keeps {s t : State} (h : KeepsRams s t) : GoesOn s (.next t) := ⟨t, rfl, h⟩

theorem GoesOn.of_cans {s t : State} (h : t.cans = s.cans) : GoesOn s (.next t) := .of_keeps (.of_cans h)

theorem GoesOn.of_slotWord {s : State} {e cls : Nat} {own : Option (Nat × Nat)} {w : SlotWord} {f : State → State}
    (h : ∀ s, (f s).cans = s.cans) : GoesOn s (.next (slotWord e cls own w f s)) :=
  .of_cans (slotWord_cans e cls own w f s h)

theorem GoesOn.of_choice {c : Prop} [Decidable c] {s t u : State} (ht : c → t.cans = s.cans)
    (hu : ¬ c → u.cans = s.cans) : GoesOn s (.next (if c then t else u)) := .of_cans (cans_choice ht hu)

/-! The CAN controllers. -/

theorem execCanFrameReceive_goesOn (n : Fin 4) (f : CanFrame) (s : State) : GoesOn s (execCanFrameReceive n f s) := by
  refine .of_keeps (.ite (fun _ => ?_) fun _ => .refl s)
  extract_lets s1
  have h1 : KeepsRams s s1 := by
    dsimp only [s1]
    split
    · exact storeBox_keeps _ _ f s
    · exact .ite (fun _ => storeQueue_keeps _ 0 f s) fun _ => .ite (fun _ => storeQueue_keeps _ 1 f s) fun _ =>
        updCan_keeps_of_ram
  clear_value s1
  refine .ite (fun _ => (h1.trans ?_).trans (canJudge_keeps _ _)) fun _ => h1
  exact KeepsRams.then_cans (t := updCan n.val (fun c => { c with recv := recAfterGood s c.recv }) s1) updCan_keeps_of_ram rfl

theorem execCanRxError_goesOn (n : Fin 4) (s : State) : GoesOn s (execCanRxError n s) :=
  .of_keeps (.ite (fun _ => .trans updCan_keeps_of_ram (canJudge_keeps _ _)) fun _ => .refl s)

theorem execCanFrameSent_goesOn (n : Fin 4) (sub : Half) (s : State) : GoesOn s (execCanFrameSent n sub s) := by
  refine .of_keeps ?_
  split
  · refine .ite (fun _ => .trans ?_ ((endBox_keeps _ _ _ _).trans (canJudge_keeps _ _))) fun _ => .refl s
    refine KeepsRams.after_cans ?_ (updCan_keeps fun c h => ?_)
    · rfl
    · exact canRamSet_wf _ _ h
  · exact .refl s

theorem execCanTxError_goesOn (n : Fin 4) (arb : Bool) (s : State) : GoesOn s (execCanTxError n arb s) := by
  refine .of_keeps ?_
  split
  · refine .ite (fun _ => ?_) fun _ => .refl s
    extract_lets off s1 s2
    have h1 : KeepsRams s s1 := .ite (fun _ => .refl s) fun _ => updCan_keeps_of_ram
    have h2 : KeepsRams s1 s2 := .ite (fun _ => endBox_keeps _ _ 3 s1) fun _ =>
      .ite (fun _ => endBox_keeps _ _ 5 s1) fun _ => .refl s1
    exact .ite (fun _ => (h1.trans h2).trans (canState_keeps _ 2 s2)) fun _ => (h1.trans h2).trans (canJudge_keeps _ s2)
  · exact .refl s

theorem execCanBusOffRecovery_goesOn (n : Fin 4) (s : State) : GoesOn s (execCanBusOffRecovery n s) :=
  .of_keeps (.ite (fun _ => .trans updCan_keeps_of_ram (canState_keeps _ 0 _)) fun _ => .refl s)

theorem execCanBusIntegrated_goesOn (n : Fin 4) (s : State) : GoesOn s (execCanBusIntegrated n s) :=
  .of_keeps (.ite (fun _ => updCan_keeps_of_ram) fun _ => .refl s)

/-! The pair. -/

theorem execHeartbeatReceive_goesOn (st : Bool) (h : Heartbeat) (s : State) : GoesOn s (execHeartbeatReceive st h s) := by
  refine .of_keeps (.ite (fun _ => .ite (fun _ => .of_cans (updStreet_cans _ _ s)) fun _ =>
    .ite (fun _ => roleConflict_keeps _ s) fun _ => ?_) fun _ => .refl s)
  extract_lets s1
  have h1 : s1.cans = s.cans := updStreet_cans _ _ s
  refine .after_cans h1 (.ite (fun _ => .ite (fun _ => .refl _) fun _ => .of_cans ?_) fun _ =>
    .ite (fun _ => roleConflict_keeps _ s1) fun _ => .of_cans (peerSeen_cans h s1))
  exact redEvent_cans _ _ _

theorem execClaimFrameReceive_goesOn (c : Half) (role : Role) (ok : Bool) (s : State) :
    GoesOn s (execClaimFrameReceive c role ok s) :=
  .of_keeps (.ite (fun _ => .refl s) fun _ => .ite (fun _ => roleConflict_keeps role s) fun _ =>
    .ite (fun _ => .after_cans (peerShows_cans c s) (roleConflict_keeps role _)) fun _ => peerClaim_keeps c s)

theorem execGateEnable_goesOn (s : State) : GoesOn s (execGateEnable s) :=
  .of_keeps (.ite (fun _ => gatesClose_keeps s) fun _ => .refl s)

theorem execGateFault_goesOn (stage : Fin 74) (s : State) : GoesOn s (execGateFault stage s) := by
  refine .of_keeps (.ite (fun _ => ?_) fun _ => .refl s)
  refine .then_cans (.after_cans ?_ (canGates_keeps false _)) ((orderYield_cans _ _).trans (redEvent_cans _ _ _))
  simp

theorem execStandbyRephase_goesOn (cn : Word) (wi : BitVec 12) (offset : Int) (s : State) :
    GoesOn s (execStandbyRephase cn wi offset s) := by
  refine .of_keeps (.ite (fun _ => .ite (fun _ => ?_) fun _ => .of_cans rfl) fun _ => .refl s)
  extract_lets again _ n _ _ _ s1
  have h1 : KeepsRams s s1 := by
    refine .after_cans ?_ (beginCourse_keeps _)
    exact nextCourse_cans _
  exact .ite (fun _ => h1.then_cans (redEvent_cans _ _ _)) fun _ => h1

/-! The host port. -/

theorem execHostRead_goesOn (usb : Bool) (command : Byte) (addr : Word) (crc : Byte) (s : State) :
    GoesOn s (execHostRead usb command addr crc s) := by
  refine .of_keeps (hostTransaction_keeps _ _ _ _ _ _ _ s (.ite (fun _ => .of_cans ?_) fun _ =>
    .of_cans (hostReadNow_cans _ _ _ s)))
  exact (hostAnswer_cans _ _).trans (hostSelect_cans _ _ _)

theorem execHostWrite_goesOn (usb : Bool) (command : Byte) (addr : Word) (words : List Word) (crc : Byte) (s : State) :
    GoesOn s (execHostWrite usb command addr words crc s) := by
  refine .of_keeps (.ite (fun _ => .refl s) fun _ => hostTransaction_keeps _ _ _ _ _ _ _ s ?_)
  exact (KeepsRams.after_cans (hostSelect_cans usb true s) (writeWords_keeps _ _ _)).then_cans
    ((hostAnswer_cans _ _).trans (hostSelect_cans _ _ _))

/-! Power. -/

theorem execClockFault_goesOn (s : State) : GoesOn s (execClockFault s) := by
  refine .of_keeps (.ite (fun _ => ?_) fun _ => .refl s)
  extract_lets s1 _ s2
  have h1 : s1.cans = s.cans := by simp [s1]
  have h2 : KeepsRams s s2 := by
    refine .after_cans ?_ ((becomeIdle_keeps _).trans (shed_keeps _ _))
    exact h1
  clear_value s2
  exact h2.then_cans rfl

theorem execClockHoldEnd_goesOn (refs trim : Bool) (s : State) : GoesOn s (execClockHoldEnd refs trim s) :=
  .of_keeps (.ite (fun _ => (becomeIdle_keeps s).then_cans (startRefs_cans refs trim _)) fun _ => .refl s)

theorem execSupplyLoss_goesOn (vs : Half) (s : State) : GoesOn s (execSupplyLoss vs s) := by
  refine .of_keeps (.ite (fun _ => ?_) fun _ => .refl s)
  exact ⟨fun _ => cansReset_canon _⟩

theorem execDomainSwitchDone_goesOn (trim : Bool) (s : State) : GoesOn s (execDomainSwitchDone trim s) := by
  refine .of_keeps ?_
  split
  · refine .ite (fun _ => .refl s) fun _ => ?_
    extract_lets l _ s0 s1
    have h1 : KeepsRams s0 s1 :=
      .foldl (fun s d => .ite (fun _ => .of_cans (domainUp_cans d trim s)) fun _ => domainDown_keeps d s) _ _
    exact (KeepsRams.after_cans (s := s) (t := s0) rfl h1).then_cans (endIfRunning_cans _ _ _ _ _)
  · exact .refl s

/-! Commands whose meaning chooses more than once by what State holds. -/

theorem execHartTransactionStart_goesOn (m : Fin 8) (s : State) : GoesOn s (execHartTransactionStart m s) := by
  refine .of_cans ?_
  split
  · split
    · exact cans_choice (fun _ => by simp) fun _ => rfl
    · rfl
  · rfl

theorem execCommitDone_goesOn (day : Half) (s : State) : GoesOn s (execCommitDone day s) := by
  refine .of_cans ?_
  split
  · refine cans_choice (fun _ => ?_) fun _ => rfl
    simp [cans_foldl _ (fun s t => updTileCal_cans t _ s)]
  · rfl

theorem execLoadPlanDone_goesOn (s : State) : GoesOn s (execLoadPlanDone s) := by
  refine .of_cans ?_
  split
  · refine cans_choice (fun _ => ?_) fun _ => rfl
    extract_lets img r _ s1 _ _
    have h1 : s1.cans = s.cans := setLstat_cans _ _ _
    clear_value s1 r
    split
    · exact (finishCmd_cans _ _ _ _).trans h1
    · exact (finishCmd_cans _ _ _ _).trans h1
  · rfl

theorem execVerifyDone_goesOn (s : State) : GoesOn s (execVerifyDone s) := by
  refine .of_cans ?_
  split
  · refine cans_choice (fun _ => ?_) fun _ => rfl
    extract_lets img r _ s1
    have h1 : s1.cans = s.cans := setLstat_cans _ _ _
    clear_value s1 r
    split
    · exact (finishCmd_cans _ _ _ _).trans h1
    · exact (finishCmd_cans _ _ _ _).trans h1
  · rfl

theorem execUpdateVerifyDone_goesOn (safety peer : Bool) (s : State) : GoesOn s (execUpdateVerifyDone safety peer s) := by
  refine .of_choice (fun _ => ?_) fun _ => ?_
  · split
    · exact cans_choice (fun _ => rfl) fun _ => endUpdateVerify_cans _ _ _ _
    · rfl
  · split
    · exact cans_choice (fun _ => endUpdateVerify_cans _ _ _ _) fun _ => rfl
    · rfl

theorem execIcuSourceOccurrence_goesOn (src : IcuId) (s : State) : GoesOn s (execIcuSourceOccurrence src s) := by
  refine .of_choice (fun _ => ?_) fun _ => rfl
  split
  · rfl
  · exact cans_choice (fun _ => icuArrive_cans src s) fun _ => rfl

theorem execEthFrameTransmit_goesOn (p : Fin 2) (s : State) : GoesOn s (execEthFrameTransmit p s) := by
  refine .of_choice (fun _ => ?_) fun _ => rfl
  split
  · simp
  · rfl

theorem execLogReady_goesOn (bad : List (Fin 5 × Word × Nat)) (s : State) : GoesOn s (execLogReady bad s) := by
  refine .of_choice (fun _ => ?_) fun _ => rfl
  simp [cans_foldl _ (fun s p => updPart_cans p _ s), cans_foldl _ (fun s p => discardPages_cans p _ s)]

theorem execPanelCopyDone_goesOn (k : Fin 34) (s : State) : GoesOn s (execPanelCopyDone k s) := by
  refine .of_choice (fun _ => ?_) fun _ => rfl
  split
  · simp
  · rfl

theorem execPanelUpdateDone_goesOn (k : Fin 34) (s : State) : GoesOn s (execPanelUpdateDone k s) := by
  refine .of_choice (fun _ => ?_) fun _ => rfl
  split
  · simp
  · rfl

theorem execCrackLoopMeasure_goesOn (meas : Half) (s : State) : GoesOn s (execCrackLoopMeasure meas s) := by
  refine .of_choice (fun _ => ?_) fun _ => rfl
  simp [cans_foldl _ (fun s k => updArea_cans k _ s)]

/-! Every command. -/

theorem exec_goesOn (c : Instr) (s : State) : GoesOn s (exec c s) := by
  cases c with
  | courseBoundary => exact .of_keeps (courseBoundary_keeps _ _ s)
  | registerWrite => exact .of_keeps (busWrite_keeps _ _ _ _ s)
  | canFrameReceive => exact execCanFrameReceive_goesOn _ _ s
  | canRxError => exact execCanRxError_goesOn _ s
  | canSend => exact .of_keeps (canSend_keeps _ _ s)
  | canWithdraw => exact .of_keeps (canWithdraw_keeps _ _ s)
  | canFrameSent => exact execCanFrameSent_goesOn _ _ s
  | canTxError => exact execCanTxError_goesOn _ _ s
  | canBusOffRecovery => exact execCanBusOffRecovery_goesOn _ s
  | canBusIntegrated => exact execCanBusIntegrated_goesOn _ s
  | canQueueFree => exact .of_keeps (canFree_keeps _ _ _ s)
  | canCfgWrite => exact .of_keeps (canCfgWrite_keeps _ _ _ s)
  | canMsgramWrite => exact .of_keeps (canRamWrite_keeps _ _ _ s)
  | heartbeatReceive => exact execHeartbeatReceive_goesOn _ _ s
  | claimFrameReceive => exact execClaimFrameReceive_goesOn _ _ _ s
  | gateEnable => exact execGateEnable_goesOn s
  | gateFault => exact execGateFault_goesOn _ s
  | standbyRephase => exact execStandbyRephase_goesOn _ _ _ s
  | watchdogExpiry => exact .of_keeps (.ite (fun _ => pd1Hold_keeps 1 s) fun _ => .refl s)
  | lockstepMismatch => exact .of_keeps (.ite (fun _ => pd1Hold_keeps 2 s) fun _ => .refl s)
  | hostRead => exact execHostRead_goesOn _ _ _ _ s
  | hostWrite => exact execHostWrite_goesOn _ _ _ _ _ s
  | hostReset => exact .of_keeps (.ite (fun _ => nodeReset_keeps 2 _ _ s) fun _ => .refl s)
  | clockFault => exact execClockFault_goesOn s
  | clockHoldEnd => exact execClockHoldEnd_goesOn _ _ s
  | supplyLoss => exact execSupplyLoss_goesOn _ s
  | shedPd7Off => exact .of_keeps (.ite (fun _ => (domainDown_keeps 7 s).then_cans rfl) fun _ => .refl s)
  | supplyReturn => exact .of_keeps (.ite (fun _ => nodeReset_keeps 1 _ _ s) fun _ => .refl s)
  | domainSwitchDone => exact execDomainSwitchDone_goesOn _ s
  | holdupExhausted => exact .of_keeps (.ite (fun _ => powerless_keeps s) fun _ => .refl s)
  | hartTransactionStart => exact execHartTransactionStart_goesOn _ s
  | commitDone => exact execCommitDone_goesOn _ s
  | loadPlanDone => exact execLoadPlanDone_goesOn s
  | verifyDone => exact execVerifyDone_goesOn s
  | updateVerifyDone => exact execUpdateVerifyDone_goesOn _ _ s
  | icuSourceOccurrence => exact execIcuSourceOccurrence_goesOn _ s
  | ethFrameTransmit => exact execEthFrameTransmit_goesOn _ s
  | logReady => exact execLogReady_goesOn _ s
  | panelCopyDone => exact execPanelCopyDone_goesOn _ s
  | panelUpdateDone => exact execPanelUpdateDone_goesOn _ s
  | crackLoopMeasure => exact execCrackLoopMeasure_goesOn _ s
  | move => exact .of_slotWord fun s => cellSet_cans _ _ _ s
  | idle => exact .of_slotWord fun _ => rfl
  | fetch => exact .of_slotWord fun s => by split <;> simp
  | recWrite => exact .of_slotWord fun s => by simp
  | filter => exact .of_slotWord fun s => filterWord_cans _ _ s
  | lin => exact .of_slotWord fun s => linWord_cans _ _ s
  | linsum => exact .of_slotWord fun s => linsumWord_cans _ _ s
  | char => exact .of_slotWord fun s => charWord_cans _ _ s
  | cvt => exact .of_slotWord fun s => cvtWord_cans _ _ s
  | tilecmdRotation => exact .of_slotWord fun s => rotationOrder_cans _ _ _ s
  | tilecmdOpenTest => exact .of_slotWord fun s => by simp
  | hart => exact .of_slotWord fun s => hartAdvance_cans _ s
  | cmp => exact .of_slotWord fun s => cmpWord_cans _ s
  | rate => exact .of_slotWord fun s => rateWord_cans _ s
  | delay => exact .of_slotWord fun s => delayWord_cans _ s
  | logic => exact .of_slotWord fun s => logicWord_cans _ s
  | group => exact .of_slotWord fun s => groupWord_cans _ s
  | call => exact .of_slotWord fun s => by split <;> simp
  | out => exact .of_slotWord fun s => outWord_cans _ _ s
  | laneStale | hartRetry | planArchive | eventRecordArrival | releaseLapsed | captureComplete | hartResponse
    | rotationStepEnd =>
    refine .of_cans ?_
    split <;> simp
  | _ => exact .of_cans (by simp)

/-- A command that runs keeps the message RAMs canonical. -/
theorem exec_keepsRams {c : Instr} {s t : State} (h : exec c s = .next t) : KeepsRams s t := by
  obtain ⟨u, hu, hk⟩ := exec_goesOn c s
  rw [hu] at h
  cases h
  exact hk

/-- Settles O5: a sound step keeps the memories gathered in `kept`, and its command the message RAMs. -/
theorem stepKeepsMemory : Obligations.StepKeepsMemory := by
  intro s t hs h
  obtain rfl | ⟨c, r, _, he⟩ := step_cases h
  · exact hs
  · obtain ⟨hmain, htcm, hnor, hram, hframe⟩ := hs
    obtain ⟨kmain, ktcm, knor, kframe⟩ := (exec_sound he).bytes ⟨hmain, htcm, hnor, hframe⟩
    exact ⟨kmain, ktcm, knor, (exec_keepsRams he).canon hram, kframe⟩

end Sys2Proof.Machine
end
